-- ==== Sys2Proof/Word.lean ====
section
/-! DEFINITION. The word types of the model: the manual's bytes and its 16, 32 and 64-bit fields. -/

namespace Sys2Proof

/-- One byte of a packet, a memory or a record. -/
abbrev Byte := BitVec 8

/-- A 16-bit field (an opcode, a credit epoch, a key identifier). -/
abbrev W16 := BitVec 16

/-- A 32-bit field: the width of a parameter unless its table gives another (R7), and of every
counter that the manual runs modulo 2^32. -/
abbrev W32 := BitVec 32

/-- A 64-bit field: the 64-bit parameters of R572 and every binary64 value, held as its bits. -/
abbrev W64 := BitVec 64

/-- A string of bytes in order of rising offset. -/
abbrev Bytes := List Byte

end Sys2Proof
end

