-- ==== Sys2Proof/Syntax.lean ====
section
/-! DEFINITION. The commands of the Akanato: one constructor of Instr for each row of the table of operations, with
the operands that the row's rule gives it. Every command carries first the time that has passed since
the command before it, in microseconds of true time (`dt`, log entry 1). -/

namespace Sys2Proof

/-- The three transports of R68, in the order of R81. -/
inductive Transport where
  | xspi
  | udp
  | uart
  deriving DecidableEq, Repr

/-- The signature trailer of R96 as it stands in a packet, 104 bytes. -/
structure SigTrailer where
  keyId : W16
  reserved : W16
  counter : W32
  signature : Bytes
  deriving DecidableEq, Repr

/-- What surrounds the payload of a host command that has passed check 1: where it came from, the header fields of
R74 that are not fixed by the row, and the trailers. -/
structure Env where
  tr : Transport
  srcIp : W32
  srcPort : W16
  tag : Byte
  epoch : W16
  seq : W32
  e2e : Bool
  sig : Option SigTrailer
  sess : Option Bytes
  deriving DecidableEq, Repr

/-- One IPv4 fragment of a UDP datagram but for its source (R72, R220). `offset` counts bytes of the UDP payload; a
datagram sent whole has offset 0 and `more` false. `checksumOk` is false when a non-zero UDP checksum
fails over the whole datagram. -/
structure UdpRest where
  ident : W16
  offset : Nat
  more : Bool
  checksumOk : Bool
  unicast : Bool
  vlan : Nat
  dstPort : W16
  data : Bytes
  deriving DecidableEq, Repr

/-- A UDP fragment with its source. -/
structure UdpFrag extends UdpRest where
  srcIp : W32
  srcPort : W16
  deriving DecidableEq, Repr

/-- What a frame of 62.5 ms delivers for one thermal channel (R311): the converter's readings with the force current in
both polarities, in nV (log entry 17), the reference readings of a fourth frame, parity of every sample, and
whether a reading stood at the converter's limit. -/
structure RtdFrame where
  aPos : Int
  aNeg : Int
  bPos : Int
  bNeg : Int
  refPos : Int
  refNeg : Int
  parityOk : Bool
  limitA : Bool
  limitB : Bool
  deriving DecidableEq, Repr

/-- A raw sample of one modulator channel (R334): its 24 bits, its parity, and whether the ones density of its bitstream
lies within 2 % to 98 % (R337). -/
structure RawSample where
  raw : BitVec 24
  parityOk : Bool
  dense : Bool
  deriving DecidableEq, Repr

/-- What closes a line cycle (R338, R339): a positive-going zero crossing, at a place in 1/4,096 sample before the first
sample of the next cycle, or the count of samples at which a cycle without one closes. -/
inductive CycleEnd where
  | crossing (phase : Fin 3) (frac : Fin 4096)
  | timeout
  deriving DecidableEq, Repr

/-- The fundamental phasors of a line cycle (R346): by how many millidegrees L2 and L3 lag L1, and
|V1 + V2 + V3| / 3 in mV. -/
structure Phasors where
  lag2 : Fin 360000
  lag3 : Fin 360000
  residual : Nat
  deriving DecidableEq, Repr

/-- What a profile period of an axis brings (R388 to R393, R398): the profile's new speed in units of 2^-32 microstep/s, the five
samples that ADC 0 takes of each phase current and ADC 1 of each phase voltage, and the bridge supply in mV as measured on VSENSE. The
manual lets any conforming profile run, so the speed is an operand (log entry 24). -/
structure AxisPeriod where
  vel : Int
  iA : Vector (BitVec 12) 5
  iB : Vector (BitVec 12) 5
  vA : Vector (BitVec 12) 5
  vB : Vector (BitVec 12) 5
  supply : Nat
  deriving DecidableEq, Repr

/-- The endpoints of the device on the internal port of the switch (R419, *Device traffic*). -/
inductive Endpoint where
  | pairLink
  | ptp
  | host
  | subl
  deriving DecidableEq, Repr

/-- The PTP event messages that a transparent clock corrects (R421). -/
inductive PtpEvent where
  | sync
  | delayReq
  | pdelayReq
  | pdelayResp
  deriving DecidableEq, Repr

/-- A frame received on a port of the switch, or sent by an endpoint of the device on port 4 (R415 to R421). Addresses
are numbers of 48 bits, first octet most significant. `residence` is the time from ingress to egress in ns.
`endpoint` is the endpoint of the device that sends the frame, on port 4, or for which it arrives. `full` marks the egress queues
that hold 64 frames: bit 4·p + q for queue q of port p. -/
structure EthFrame where
  port : Fin 5
  length : Nat
  fcsOk : Bool
  pause : Bool
  src : BitVec 48
  dst : BitVec 48
  tag : Option (Fin 4096 × Fin 8)
  ptp : Option PtpEvent
  residence : Nat
  endpoint : Option Endpoint
  full : BitVec 20
  deriving DecidableEq, Repr

/-- What an Announce carries that R423 and R434 use: the sender's data set of IEEE 1588-2019 clause 9.3, the UTC offset
and its valid flag, and the leap flags. -/
structure AnnounceMsg where
  domain : Byte
  priority1 : Byte
  clockClass : Byte
  accuracy : Byte
  variance : W16
  priority2 : Byte
  identity : W64
  steps : W16
  utcOffset : W16
  utcValid : Bool
  leap61 : Bool
  leap59 : Bool
  deriving DecidableEq, Repr

/-- What ends the tracking of a time reference (R429). -/
inductive LossKind where
  | noSync
  | announceTimeout
  | linkDown
  | noPps
  deriving DecidableEq, Repr

/-- The memories that a job reads: Atrium banks 4 to 7, a flight's local memory, LPDDR4X (R139, R529). -/
inductive JobMem where
  | atrium
  | flight
  | ddr
  deriving DecidableEq, Repr

/-- What ends a job with INTERNAL (R147, R167): an uncorrectable word, a Gallery timeout, a parity error on the
reduction network. -/
inductive JobFault where
  | memory (mem : JobMem) (addr : W32)
  | gallery
  | parity
  deriving DecidableEq, Repr

/-- How far a job had come when it stopped without committing: its fault if any, whether its flights had met the numeric error that
the kernel leads to (R167), the row or element, iterations completed, and pivots replaced with the first of them (R147, R168). -/
structure JobStop where
  fault : Option JobFault
  numeric : Bool
  index : W32
  iters : W32
  regs : W32
  regFirst : W32
  deriving DecidableEq, Repr

/-- What SECDED finds in a word read (R529 to R531). -/
inductive MemErr where
  | none
  | correctable
  | uncorrectable
  deriving DecidableEq, Repr

/-- What reads a word that a scrub pass has marked uncorrectable, in the same tick (R529): supervisor code, supervisor data for the
operations under the given tags, the metrology engine with the save slots that then read back damaged, or the security core. -/
inductive WordUse where
  | code
  | data (tags : List Byte)
  | metrology (bad : List (Fin 64))
  | security
  deriving DecidableEq, Repr

/-- A word in which a scrub pass finds an error: its memory (code of *Memory error handling*), its word address, how many of its bits
are wrong, the owner of its region where the memory has several, and what then reads the word (R529 to R532). -/
structure ScrubFinding where
  mem : Fin 14
  addr : W32
  bits : Nat
  owner : Fin 22
  used : Option WordUse
  deriving DecidableEq, Repr

/-- The engines of *Engine watchdogs* (R533), with what an expiry leaves to be known: the program counter where DETAIL gives it,
the tags whose commands a supervisor core was executing, and the save slots that read back damaged at the selection
that follows a metrology restart (R362). -/
inductive WdtEngine where
  | supervisor (core : Fin 4) (pc : W32) (tags : List Byte)
  | security (pc : W32)
  | motion (pc : W32)
  | metrology (bad : List (Fin 64))
  | concourse
  | display
  | housekeeping
  deriving DecidableEq, Repr

/-- A self-test of BOOT that failed (R540): the OTP word, the memory code, the LPDDR4X sub-channel, the engine, three failed PUF
reads, or the TRNG test failed at the first BOOT in ENROLLED. -/
inductive BootFault where
  | otp (word : W16)
  | memory (code : Fin 14)
  | ddr (channel : Byte)
  | selfTest (engine : Byte)
  | puf
  | trng (test : Byte)
  deriving DecidableEq, Repr

/-- A datum of the always-on retention SRAM that BOOT reads (R402, R482, R541): the axes' positions, the event counters, or a record
of the fault ring. -/
inductive Retained where
  | axes
  | counts
  | fault (k : Fin 8)
  deriving DecidableEq, Repr

/-- What BOOT finds (R362, R497, R512 to R516, R529, R540, R592): a failed self-test, what the SFDP table of the flash declares of
8D-8D-8D (none if it cannot be read), data of the retention SRAM with a parity error and their word addresses, the save slots with an
uncorrectable word, the flash slots that cannot be read (bit 2·(class − 1) + slot), and the PUF reads made, less one. -/
structure BootReport where
  fault : Option BootFault
  sfdp : Option Bool
  lost : List (Retained × W32)
  badSlots : List (Fin 64)
  badFlash : BitVec 14
  pufReads : Fin 3
  deriving DecidableEq, Repr

/-- What a tamper sensor other than a mesh loop shows (R520): the level of TAMP_LID or TAMP_LIGHT and for how many µs it has held;
an excursion of VDD_CORE, or of VDD_SOC, in mV and its length in ns; the departure of the 25 MHz reference from the internal RC in ‰
and its length in µs; how many µs the 32.768 kHz crystal has stood still; a sample of the die temperature in tenths of a degree. -/
inductive TamperSign where
  | lid (level : Bool) (heldUs : Nat)
  | light (level : Bool) (heldUs : Nat)
  | voltage (soc : Bool) (mv ns : Nat)
  | clock (permille us : Nat)
  | crystal (us : Nat)
  | temperature (t : Int)
  deriving DecidableEq, Repr

/-- A monitored rail (R544), a bank of VDD_IO with its number. -/
inductive Rail where
  | core
  | soc
  | io (bank : Fin 8)
  | vdd2
  | vddq
  | t1l
  | ana
  deriving DecidableEq, Repr

/-- What SECDED finds in the Vestibule as a packet is read from it, and the word address (R529 to R531). -/
structure VestibuleErr where
  err : MemErr
  addr : W32
  deriving DecidableEq, Repr

/-- A packet or a frame as it is read from the Vestibule. -/
structure RxPacket where
  bytes : Bytes
  err : VestibuleErr
  deriving DecidableEq, Repr

/-- A UDP fragment as it is read from the Vestibule. -/
structure RxFragment where
  frag : UdpFrag
  err : VestibuleErr
  deriving DecidableEq, Repr

/-- An xSPI transaction that reads (R69): its instruction code, and how many bytes it takes. -/
structure XspiRead where
  code : Byte
  count : Nat
  deriving DecidableEq, Repr

/-- A monitored rail at a level in mV for a time in ns (R544). -/
structure RailDip where
  rail : Rail
  mv : Nat
  ns : Nat
  deriving DecidableEq, Repr

/-- An edge of a flow input (R316, R317): its direction, the µs that the level after it lasts, and the level of the direction input. -/
structure FlowEdge where
  rising : Bool
  heldUs : Nat
  dir : Bool
  deriving DecidableEq, Repr

/-- What HEARTBEAT carries beside its mode (R60): pair sequence number, RETURN_MODE, round number and tick. -/
structure HeartbeatRest where
  seq : W32
  back : Option (Fin 12)
  round : Nat
  sec : Nat
  ns : Nat
  deriving DecidableEq, Repr

/-- An input image with its release tick (R60). -/
structure TimedImage where
  sec : Nat
  ns : Nat
  image : Bytes
  deriving DecidableEq, Repr

/-- RESYNC_REQUEST with its tag (R60). -/
structure ResyncMsg where
  tag : Bytes
  round : Nat
  deriving DecidableEq, Repr

/-- What SHADOW_STATUS carries (R60). -/
structure ShadowReport where
  qualified : Bool
  last : Nat
  deriving DecidableEq, Repr

/-- The commands, in the order of the table. -/
inductive Instr where
  /-- SYS_STATUS. -/
  | sysStatus (dt : Nat) (q : Env) (pl : Bytes)
  /-- SYS_MODE_REQUEST. -/
  | sysModeRequest (dt : Nat) (q : Env) (pl : Bytes)
  /-- SYS_RESET. -/
  | sysReset (dt : Nat) (q : Env) (pl : Bytes)
  /-- PARAM_READ. -/
  | paramRead (dt : Nat) (q : Env) (pl : Bytes)
  /-- PARAM_WRITE. -/
  | paramWrite (dt : Nat) (q : Env) (pl : Bytes)
  /-- PIO_FAULT_CLEAR. -/
  | pioFaultClear (dt : Nat) (q : Env) (mask : W64)
  /-- RTC_STATUS_CLEAR. -/
  | rtcStatusClear (dt : Nat) (q : Env) (mask : W64)
  /-- BUFFER_STATE_READ. -/
  | bufferStateRead (dt : Nat) (q : Env)
  /-- RTC_DATE_READ. -/
  | rtcDateRead (dt : Nat) (q : Env)
  /-- RESULT_FETCH. -/
  | resultFetch (dt : Nat) (q : Env) (pl : Bytes)
  /-- RESULT_RELEASE. -/
  | resultRelease (dt : Nat) (q : Env) (pl : Bytes)
  /-- SNAPSHOT_TRIGGER. -/
  | snapshotTrigger (dt : Nat) (q : Env) (pl : Bytes)
  /-- SNAPSHOT_READ. -/
  | snapshotRead (dt : Nat) (q : Env) (pl : Bytes)
  /-- HIF_CREDIT_SYNC. -/
  | hifCreditSync (dt : Nat) (q : Env) (pl : Bytes)
  /-- HIF_SESSION_OPEN. -/
  | hifSessionOpen (dt : Nat) (q : Env) (pl : Bytes)
  /-- SOLV_JOB_SUBMIT. -/
  | solvJobSubmit (dt : Nat) (q : Env) (pl : Bytes)
  /-- SOLV_TEST_WRITE. -/
  | solvTestWrite (dt : Nat) (q : Env) (pl : Bytes)
  /-- SOLV_TEST_READ. -/
  | solvTestRead (dt : Nat) (q : Env) (pl : Bytes)
  /-- NMOD_MODEL_LOAD. -/
  | nmodModelLoad (dt : Nat) (q : Env) (pl : Bytes)
  /-- NMOD_MODEL_ACTIVATE. -/
  | nmodModelActivate (dt : Nat) (q : Env) (pl : Bytes)
  /-- NMOD_ROUND_CONFIG. -/
  | nmodRoundConfig (dt : Nat) (q : Env) (pl : Bytes)
  /-- NMOD_RESULT_GET. -/
  | nmodResultGet (dt : Nat) (q : Env) (pl : Bytes)
  /-- NMOD_OPT_CONFIG. -/
  | nmodOptConfig (dt : Nat) (q : Env) (pl : Bytes)
  /-- NMOD_FORECAST_LOAD. -/
  | nmodForecastLoad (dt : Nat) (q : Env) (pl : Bytes)
  /-- NMOD_CALIB_GET. -/
  | nmodCalibGet (dt : Nat) (q : Env) (pl : Bytes)
  /-- NMOD_CALIB_ADOPT. -/
  | nmodCalibAdopt (dt : Nat) (q : Env) (pl : Bytes)
  /-- SUBL_REGISTER. -/
  | sublRegister (dt : Nat) (q : Env) (pl : Bytes)
  /-- SUBL_UNREGISTER. -/
  | sublUnregister (dt : Nat) (q : Env) (pl : Bytes)
  /-- SUBL_STATUS. -/
  | sublStatus (dt : Nat) (q : Env) (pl : Bytes)
  /-- CTRL_IMAGE_LOAD. -/
  | ctrlImageLoad (dt : Nat) (q : Env) (pl : Bytes)
  /-- CTRL_ONLINE_CHANGE. -/
  | ctrlOnlineChange (dt : Nat) (q : Env) (pl : Bytes)
  /-- CTRL_COLD_START. -/
  | ctrlColdStart (dt : Nat) (q : Env) (pl : Bytes)
  /-- CTRL_FORCE_SET. -/
  | ctrlForceSet (dt : Nat) (q : Env) (pl : Bytes)
  /-- CTRL_FORCE_CLEAR. -/
  | ctrlForceClear (dt : Nat) (q : Env) (pl : Bytes)
  /-- CTRL_FORCE_LIST. -/
  | ctrlForceList (dt : Nat) (q : Env) (pl : Bytes)
  /-- CTRL_TASK_CONTROL. -/
  | ctrlTaskControl (dt : Nat) (q : Env) (pl : Bytes)
  /-- CTRL_TASK_STATUS. -/
  | ctrlTaskStatus (dt : Nat) (q : Env) (pl : Bytes)
  /-- MEL_CAL_WINDOW. -/
  | melCalWindow (dt : Nat) (q : Env) (pl : Bytes)
  /-- BILL_READ. -/
  | billRead (dt : Nat) (q : Env) (pl : Bytes)
  /-- VAX_MOVE. -/
  | vaxMove (dt : Nat) (q : Env) (pl : Bytes)
  /-- VAX_HOME. -/
  | vaxHome (dt : Nat) (q : Env) (pl : Bytes)
  /-- VAX_STATUS. -/
  | vaxStatus (dt : Nat) (q : Env) (pl : Bytes)
  /-- TIME_SET. -/
  | timeSet (dt : Nat) (q : Env) (pl : Bytes)
  /-- TIME_TRIGGER_SET. -/
  | timeTriggerSet (dt : Nat) (q : Env) (pl : Bytes)
  /-- TIME_CAPTURE_GET. -/
  | timeCaptureGet (dt : Nat) (q : Env) (pl : Bytes)
  /-- RTC_SET. -/
  | rtcSet (dt : Nat) (q : Env) (pl : Bytes)
  /-- RTC_DST_ADJUST. -/
  | rtcDstAdjust (dt : Nat) (q : Env) (pl : Bytes)
  /-- RTC_ALARM_SET. -/
  | rtcAlarmSet (dt : Nat) (q : Env) (pl : Bytes)
  /-- EPD_DRAW. -/
  | epdDraw (dt : Nat) (q : Env) (pl : Bytes)
  /-- EVR_READ. -/
  | evrRead (dt : Nat) (q : Env) (pl : Bytes)
  /-- EVR_CLEAR. -/
  | evrClear (dt : Nat) (q : Env) (pl : Bytes)
  /-- SEC_ATTEST. -/
  | secAttest (dt : Nat) (q : Env) (pl : Bytes)
  /-- SEC_LIFECYCLE_ADVANCE. -/
  | secLifecycleAdvance (dt : Nat) (q : Env) (pl : Bytes)
  /-- SEC_IDENTITY_CERT. -/
  | secIdentityCert (dt : Nat) (q : Env) (pl : Bytes)
  /-- SEC_IMAGE_STAGE. -/
  | secImageStage (dt : Nat) (q : Env) (pl : Bytes)
  /-- SEC_IMAGE_ACTIVATE. -/
  | secImageActivate (dt : Nat) (q : Env) (pl : Bytes)
  /-- SEC_KEY_INSTALL. -/
  | secKeyInstall (dt : Nat) (q : Env) (pl : Bytes)
  /-- SEC_KEY_IMPORT. -/
  | secKeyImport (dt : Nat) (q : Env) (pl : Bytes)
  /-- SEC_KEY_GENERATE. -/
  | secKeyGenerate (dt : Nat) (q : Env) (pl : Bytes)
  /-- SEC_KEY_SIGN. -/
  | secKeySign (dt : Nat) (q : Env) (pl : Bytes)
  /-- SEC_KEY_DELETE. -/
  | secKeyDelete (dt : Nat) (q : Env) (pl : Bytes)
  /-- SEC_TAMPER_RELEASE. -/
  | secTamperRelease (dt : Nat) (q : Env) (pl : Bytes)
  /-- INTG_FAULT_READ. -/
  | intgFaultRead (dt : Nat) (q : Env) (pl : Bytes)
  /-- WRITE_PACKET. -/
  | writePacket (dt : Nat) (p : RxPacket)
  /-- READ_REPLY. -/
  | readReply (dt : Nat) (x : XspiRead)
  /-- UDP_DATAGRAM. -/
  | udpDatagram (dt : Nat) (f : RxFragment)
  /-- UART_FRAME. -/
  | uartFrame (dt : Nat) (p : RxPacket)
  /-- FRAGMENT_DISCARD. -/
  | fragmentDiscard (dt : Nat) (srcIp : W32) (ident : W16)
  /-- IRQ_HOLDOFF_END. -/
  | irqHoldoffEnd (dt : Nat)
  /-- SESSION_IDLE_EXPIRY. -/
  | sessionIdleExpiry (dt : Nat) (tr : Transport)
  /-- LOGGED_COMMAND_EFFECT. -/
  | loggedCommandEffect (dt : Nat)
  /-- MAIN_RESET. -/
  | mainReset (dt : Nat) (banks : Vector W16 8)
  /-- RESET_N. -/
  | resetN (dt : Nat)
  /-- RESET_N_RELEASE. -/
  | resetNRelease (dt : Nat) (banks : Vector W16 8)
  /-- ALWAYS_ON_RESET. -/
  | alwaysOnReset (dt : Nat)
  /-- BACKUP_EXIT. -/
  | backupExit (dt : Nat) (banks : Vector W16 8)
  /-- BOOT_END. -/
  | bootEnd (dt : Nat) (x : BootReport)
  /-- PFW_ASSERTED. -/
  | pfwAsserted (dt : Nat)
  /-- UNDERVOLTAGE. -/
  | undervoltage (dt : Nat) (x : RailDip)
  /-- MRAM_WRITE_PATH_CLOSE. -/
  | mramWritePathClose (dt : Nat)
  /-- HOLDUP_END. -/
  | holdupEnd (dt : Nat)
  /-- PLL_LOCK_LOSS. -/
  | pllLockLoss (dt : Nat) (n : Fin 2)
  /-- PLL_LOCK_TIMEOUT. -/
  | pllLockTimeout (dt : Nat) (n : Fin 2)
  /-- FLIGHT_WAKE. -/
  | flightWake (dt : Nat)
  /-- FLIGHT_WAKE_END. -/
  | flightWakeEnd (dt : Nat) (n : Fin 8)
  /-- SUPPLY_MEASUREMENT. -/
  | supplyMeasurement (dt : Nat) (core : W16) (soc : W16) (ana : W16) (vbat : W16) (temp : W32)
  /-- CUT. -/
  | cut (dt : Nat)
  /-- CUT_VECTOR_SEAL. -/
  | cutVectorSeal (dt : Nat)
  /-- CORE_STALL. -/
  | coreStall (dt : Nat)
  /-- OPTIMISATION_WAIT_EXPIRY. -/
  | optimisationWaitExpiry (dt : Nat)
  /-- MODEL_BUILD_COMPLETE. -/
  | modelBuildComplete (dt : Nat)
  /-- MODEL_FLASH_WRITE. -/
  | modelFlashWrite (dt : Nat)
  /-- JOB_START. -/
  | jobStart (dt : Nat) (host : Bool)
  /-- JOB_COMPLETION. -/
  | jobCompletion (dt : Nat) (host : Bool) (x : Option JobStop)
  /-- JOB_DEADLINE_MISS. -/
  | jobDeadlineMiss (dt : Nat) (host : Bool) (x : JobStop)
  /-- GALLERY_TIMEOUT. -/
  | galleryTimeout (dt : Nat) (target : Byte) (initiator : Byte) (addr : W32) (p0 : Bool)
  /-- GALLERY_PROMOTION. -/
  | galleryPromotion (dt : Nat)
  /-- BALUSTRADE_WRITE. -/
  | balustradeWrite (dt : Nat)
  /-- REPORT_ARRIVAL. -/
  | reportArrival (dt : Nat) (ip : W32) (port : W16) (x : UdpRest)
  /-- REPORT_CLASSIFICATION. -/
  | reportClassification (dt : Nat)
  /-- SETPOINT_CONFIRM. -/
  | setpointConfirm (dt : Nat) (ip : W32) (port : W16) (x : UdpRest)
  /-- SETPOINT_ISSUE. -/
  | setpointIssue (dt : Nat)
  /-- CONFIRM_TIMEOUT_EXPIRY. -/
  | confirmTimeoutExpiry (dt : Nat) (index : W16)
  /-- DOWNLINK_STATE_SAVE. -/
  | downlinkStateSave (dt : Nat)
  /-- TASK_RELEASE. -/
  | taskRelease (dt : Nat) (e : Fin 2) (t : Fin 16)
  /-- OUTPUT_APPLY. -/
  | outputApply (dt : Nat)
  /-- LOCKSTEP_MISMATCH. -/
  | lockstepMismatch (dt : Nat) (e : Fin 2) (inRollback : Bool)
  /-- ALU. -/
  | alu (dt : Nat) (e : Fin 2) (d : Fin 16) (a : Fin 16) (b : Fin 16) (fn : BitVec 14)
  /-- FPU. -/
  | fpu (dt : Nat) (e : Fin 2) (d : Fin 16) (a : Fin 16) (b : Fin 16) (fn : BitVec 14)
  /-- ADDI. -/
  | addi (dt : Nat) (e : Fin 2) (d : Fin 16) (a : Fin 16) (imm : BitVec 18)
  /-- ANDI_ORI_XORI. -/
  | andiOriXori (dt : Nat) (e : Fin 2) (kind : Fin 3) (d : Fin 16) (a : Fin 16) (imm : BitVec 18)
  /-- LUI. -/
  | lui (dt : Nat) (e : Fin 2) (d : Fin 16) (a : Fin 16) (imm : BitVec 18)
  /-- LOAD_INSTRUCTION. -/
  | loadInstruction (dt : Nat) (e : Fin 2) (kind : Fin 7) (d : Fin 16) (a : Fin 16) (imm : BitVec 18) (err : MemErr)
  /-- STORE_INSTRUCTION. -/
  | storeInstruction (dt : Nat) (e : Fin 2) (kind : Fin 4) (d : Fin 16) (a : Fin 16) (imm : BitVec 18)
  /-- BRANCH_INSTRUCTION. -/
  | branchInstruction (dt : Nat) (e : Fin 2) (kind : Fin 4) (d : Fin 16) (a : Fin 16) (imm : BitVec 18)
  /-- JMP. -/
  | jmp (dt : Nat) (e : Fin 2) (off : BitVec 26)
  /-- CALL. -/
  | call (dt : Nat) (e : Fin 2) (off : BitVec 26)
  /-- CALLB. -/
  | callb (dt : Nat) (e : Fin 2) (d : Fin 16) (a : Fin 16) (imm : BitVec 18)
  /-- RET. -/
  | ret (dt : Nat) (e : Fin 2) (d : Fin 16) (a : Fin 16) (b : Fin 16) (fn : BitVec 14)
  /-- SYS. -/
  | sys (dt : Nat) (e : Fin 2) (d : Fin 16) (a : Fin 16) (b : Fin 16) (fn : BitVec 14)
  /-- JR. -/
  | jr (dt : Nat) (e : Fin 2) (d : Fin 16) (a : Fin 16) (b : Fin 16) (fn : BitVec 14)
  /-- END. -/
  | endRun (dt : Nat) (e : Fin 2) (d : Fin 16) (a : Fin 16) (b : Fin 16) (fn : BitVec 14)
  /-- TRAP. -/
  | trap (dt : Nat) (e : Fin 2) (w : W32)
  /-- ONLINE_CHANGE_PREPARED. -/
  | onlineChangePrepared (dt : Nat)
  /-- CHANGE_TICK. -/
  | changeTick (dt : Nat)
  /-- EXCHANGE. -/
  | exchange (dt : Nat)
  /-- LATCH_TICK. -/
  | latchTick (dt : Nat)
  /-- CHANGE_DRAIN_TIMEOUT. -/
  | changeDrainTimeout (dt : Nat)
  /-- FRAME_END. -/
  | frameEnd (dt : Nat) (fr : Vector RtdFrame 16)
  /-- FLOW_PULSE. -/
  | flowPulse (dt : Nat) (c : Fin 16) (x : FlowEdge)
  /-- INTERVAL_BOUNDARY. -/
  | intervalBoundary (dt : Nat)
  /-- LINE_CYCLE_CLOSE. -/
  | lineCycleClose (dt : Nat) (k : Fin 4) (x : CycleEnd) (ph : Phasors)
  /-- ELECTRICAL_PAGE_PUBLISH. -/
  | electricalPagePublish (dt : Nat)
  /-- CAL_WINDOW_END. -/
  | calWindowEnd (dt : Nat) (k : Fin 4)
  /-- REGISTER_SAVE. -/
  | registerSave (dt : Nat)
  /-- SAVE_READBACK. -/
  | saveReadback (dt : Nat) (ok : Bool)
  /-- ANALOG_CONVERSION. -/
  | analogConversion (dt : Nat) (a : Fin 16) (code : BitVec 24)
  /-- DIGITAL_INPUT_EDGE. -/
  | digitalInputEdge (dt : Nat) (n : Fin 32) (pin : Bool)
  /-- PAD_FAULT. -/
  | padFault (dt : Nat) (o : Fin 32) (read : Bool)
  /-- FEEDBACK_FAULT. -/
  | feedbackFault (dt : Nat) (o : Fin 24)
  /-- PROFILE_PERIOD. -/
  | profilePeriod (dt : Nat) (a : Fin 8) (m : AxisPeriod)
  /-- STALL. -/
  | stall (dt : Nat) (a : Fin 8) (gammaU : Int)
  /-- DRIVE_FAULT. -/
  | driveFault (dt : Nat) (a : Fin 8) (openPhase : Bool)
  /-- STANDSTILL_DELAY_EXPIRY. -/
  | standstillDelayExpiry (dt : Nat) (a : Fin 8)
  /-- ETHERNET_FRAME. -/
  | ethernetFrame (dt : Nat) (f : EthFrame)
  /-- PHY_SPEED_POLL. -/
  | phySpeedPoll (dt : Nat) (p : Fin 4) (up : Bool) (speed : Fin 3) (high : Bool)
  /-- ADDRESS_AGE_OUT. -/
  | addressAgeOut (dt : Nat) (vid : Fin 4096) (mac : BitVec 48)
  /-- SYNC. -/
  | sync (dt : Nat) (port : Fin 4) (seq : W16) (twoStep : Bool) (origin : Nat) (corr : Int)
  /-- ANNOUNCE. -/
  | announce (dt : Nat) (port : Fin 4) (a : AnnounceMsg)
  /-- PDELAY_REQ. -/
  | pdelayReq (dt : Nat) (port : Fin 4) (seq : W16)
  /-- PDELAY_REQ_SEND. -/
  | pdelayReqSend (dt : Nat)
  /-- SYNC_ANNOUNCE_SEND. -/
  | syncAnnounceSend (dt : Nat) (ann : Bool)
  /-- SYNC_TIMEOUT. -/
  | syncTimeout (dt : Nat) (k : LossKind)
  /-- HOLDOVER_TIMEOUT. -/
  | holdoverTimeout (dt : Nat)
  /-- PPS_EDGE. -/
  | ppsEdge (dt : Nat) (rising : Bool)
  /-- RTC_REFERENCE_WINDOW. -/
  | rtcReferenceWindow (dt : Nat) (r : Nat)
  /-- LEAP_SECOND. -/
  | leapSecond (dt : Nat)
  /-- TRIGGER_PULSE_START. -/
  | triggerPulseStart (dt : Nat) (k : Fin 8)
  /-- TRIGGER_PULSE_END. -/
  | triggerPulseEnd (dt : Nat) (k : Fin 8)
  /-- CAPTURE_EDGE. -/
  | captureEdge (dt : Nat) (n : Fin 4) (rising : Bool)
  /-- CAPTURE_PAGE_PUBLISH. -/
  | capturePagePublish (dt : Nat)
  /-- SECOND_BOUNDARY. -/
  | secondBoundary (dt : Nat)
  /-- RTC_TEMPERATURE_SAMPLE. -/
  | rtcTemperatureSample (dt : Nat) (t : Int)
  /-- RTC_LEARNING_WINDOW. -/
  | rtcLearningWindow (dt : Nat) (r : Int) (mean : Int) (span : Nat)
  /-- LEARNED_TABLE_SAVE. -/
  | learnedTableSave (dt : Nat)
  /-- UPDATE_START. -/
  | updateStart (dt : Nat)
  /-- DISPLAY_PHASE. -/
  | displayPhase (dt : Nat)
  /-- EPD_POWER. -/
  | epdPower (dt : Nat)
  /-- EPD_POWER_GOOD. -/
  | epdPowerGood (dt : Nat)
  /-- EPD_POWER_OFF. -/
  | epdPowerOff (dt : Nat)
  /-- PANEL_TEMPERATURE_SAMPLE. -/
  | panelTemperatureSample (dt : Nat) (t : Option (BitVec 16))
  /-- DISPLAY_SCAN. -/
  | displayScan (dt : Nat) (ok : Bool)
  /-- STRIP_REFRESH. -/
  | stripRefresh (dt : Nat)
  /-- STAGING_DRAIN. -/
  | stagingDrain (dt : Nat)
  /-- EVR_WINDOW_END. -/
  | evrWindowEnd (dt : Nat)
  /-- COUNTER_COPY. -/
  | counterCopy (dt : Nat)
  /-- RECORD_SAMPLE. -/
  | recordSample (dt : Nat)
  /-- PERIOD_CLOSE. -/
  | periodClose (dt : Nat)
  /-- REMASK. -/
  | remask (dt : Nat)
  /-- IMAGE_SWITCH. -/
  | imageSwitch (dt : Nat) (cls : Fin 8) (restartUs : Fin 150001) (selfTest : Bool)
  /-- TAMPER. -/
  | tamper (dt : Nat) (x : TamperSign)
  /-- TRNG_HEALTH_FAILURE. -/
  | trngHealthFailure (dt : Nat)
  /-- SCRUB_PASS. -/
  | scrubPass (dt : Nat) (fs : List ScrubFinding)
  /-- WATCHDOG_EXPIRY. -/
  | watchdogExpiry (dt : Nat) (w : WdtEngine)
  /-- SNAPSHOT_TICK. -/
  | snapshotTick (dt : Nat)
  /-- TAKEOVER. -/
  | takeover (dt : Nat)
  /-- PAIR_LISTEN_END. -/
  | pairListenEnd (dt : Nat)
  /-- HEARTBEAT. -/
  | heartbeat (dt : Nat) (tag : Bytes) (mode : Fin 12) (x : HeartbeatRest)
  /-- CUT_SEGMENT. -/
  | cutSegment (dt : Nat) (tag : Bytes) (round : Nat) (index : Nat) (part : Bytes)
  /-- IMAGE_SEGMENT. -/
  | imageSegment (dt : Nat) (tag : Bytes) (e : Fin 2) (t : Fin 16) (x : TimedImage)
  /-- COMMAND_LOG. -/
  | commandLog (dt : Nat) (tag : Bytes) (sec : Nat) (ns : Nat) (packet : Bytes)
  /-- DIGEST. -/
  | digest (dt : Nat) (tag : Bytes) (kind : Nat) (round : Nat) (dig : Bytes)
  /-- RESYNC_REQUEST. -/
  | resyncRequest (dt : Nat) (x : ResyncMsg)
  /-- STATE_SEGMENT. -/
  | stateSegment (dt : Nat) (tag : Bytes) (seg : Bytes)
  /-- SHADOW_STATUS. -/
  | shadowStatus (dt : Nat) (tag : Bytes) (x : ShadowReport)
  /-- SHADOW_STATUS_SEND. -/
  | shadowStatusSend (dt : Nat)
  /-- HOST_INTERFACE_START. -/
  | hostInterfaceStart (dt : Nat)
  /-- MODE_TRANSITION_END. -/
  | modeTransitionEnd (dt : Nat)
  /-- MODEL_VALIDATION_COMPLETE. -/
  | modelValidationComplete (dt : Nat)
  /-- BLOCK_IMAGE_VALIDATION_COMPLETE. -/
  | blockImageValidationComplete (dt : Nat)
  /-- IMAGE_VERIFICATION_COMPLETE. -/
  | imageVerificationComplete (dt : Nat) (cls : Fin 8) (readable : Bool) (classOk : Bool)
  /-- BLOCK_IMAGE_FLASH_WRITE. -/
  | blockImageFlashWrite (dt : Nat)
  /-- PLL_LOCK_REGAINED. -/
  | pllLockRegained (dt : Nat) (n : Fin 2)
  /-- SNAP_IN_EDGE. -/
  | snapInEdge (dt : Nat) (rising : Bool)
  /-- ELECTRICAL_RAW_SAMPLE. -/
  | electricalRawSample (dt : Nat) (k : Fin 4) (smp : Vector RawSample 6)
  /-- FLOW_EDGE_REJECTED. -/
  | flowEdgeRejected (dt : Nat) (c : Fin 16)
  /-- PWM_PERIOD_BOUNDARY. -/
  | pwmPeriodBoundary (dt : Nat) (p : Fin 8)
  /-- ABANDONED_READ_RESPONSE. -/
  | abandonedReadResponse (dt : Nat)
  /-- FOLLOW_UP. -/
  | followUp (dt : Nat) (port : Fin 4) (seq : W16) (origin : Nat) (corr : Int)
  /-- DELAY_REQ_SEND. -/
  | delayReqSend (dt : Nat)
  /-- DELAY_RESP. -/
  | delayResp (dt : Nat) (port : Fin 4) (seq : W16) (t4 : Nat) (corr : Int)
  /-- PDELAY_RESP. -/
  | pdelayResp (dt : Nat) (port : Fin 4) (seq : W16) (corr : Int)
  /-- MESH_COMPARISON. -/
  | meshComparison (dt : Nat) (loop : Fin 2) (mismatch : Bool)
  /-- UART_TRANSMIT_COMPLETE. -/
  | uartTransmitComplete (dt : Nat)
  deriving DecidableEq, Repr

end Sys2Proof
end

