-- ==== Sys2Proof/Decode.lean ====
section
/-! DEFINITION. Words as commands. The table gives no row an encoding in bits (every row's `fields` are empty): the device takes
packets, frames, edges and ticks, none of which is a word of the table. A packet is read by `parsePkt` of
Machine/Operands.lean. -/

namespace Sys2Proof

/-- The command that a word of the table spells: no row of it gives bits. -/
def decodeTableWord (_nbits _w : Nat) : Option Instr := none

end Sys2Proof
end

