-- ==== Sys2Proof/Config.lean ====
section
/-! DEFINITION. What one implementation fixes and what the manual leaves open. Every value the manual does not state
is an opaque constant with no body, applied to the operands it depends on or to the draw counter State.draws, so
that nothing proved of the model can rest on a value of it. -/

namespace Sys2Proof

/-- The n-th output of the true random number generator of the Cloister (R493, R498), as an integer of any
size. FREE VALUE, log entry 11. -/
opaque Config.trng : Nat → Nat

/-- A value the manual does not state: the first argument numbers the open point (log entry 13 lists them), the
second is the draw counter. FREE VALUE, log entry 13. -/
opaque Config.openValue : Nat → Nat → Nat

/-- The density of water in kg/m³ that the metrology engine evaluates at a temperature (both binary64 bits): R319 bounds
it within 0.002 % of IF97 and states no exact value. FREE VALUE within that bound, log entry 14. -/
opaque Config.waterRho : W64 → W64

/-- The specific enthalpy of water in J/kg that the metrology engine evaluates at a temperature, bounded as the
density (R319). FREE VALUE within that bound, log entry 14. -/
opaque Config.waterH : W64 → W64

/-- The output of the fractional-delay interpolator of R336 for a non-zero DELAY, from DELAY and the corrected samples
newest first. FREE VALUE, log entry 15. -/
opaque Config.fracDelay : Nat → List Int → Int

/-- The Hilbert transform of R340 rounded to an integer, from the voltage samples newest first. FREE VALUE, log
entry 15. -/
opaque Config.hilbert : List Int → Int

/-- The decimal logarithm that core 1 evaluates in R109; the manual gives no accuracy. FREE VALUE, log entry 33. -/
opaque Config.flog10 : W64 → W64

/-- The power that core 1 evaluates in R109 and R111. FREE VALUE, log entry 33. -/
opaque Config.fpow : W64 → W64 → W64

/-- The exponential that NMOD evaluates in R115 and R134. FREE VALUE, log entry 33. -/
opaque Config.fexp : W64 → W64

/-- The rate in MT/s at which the LPDDR4X interface is configured to run: R553 and R593 name the rates and no field that selects one.
FREE VALUE, log entry 128. -/
opaque Config.ddrRate : Nat

end Sys2Proof
end

