-- ==== Sys2Proof/Machine/Bytes.lean ====
section
/-! DEFINITION. Byte order, bit fields and the CRCs of the manual: the helpers every other file reads
fields with. Little-endian throughout (R6). -/

namespace Sys2Proof.Machine

/-- The `n` bytes of `v`, least significant first (R6). -/
def le : Nat → Nat → Bytes
  | 0, _ => []
  | n + 1, v => BitVec.ofNat 8 v :: le n (v / 256)

/-- The `n` bytes of `v`, most significant first (the order of SEC 1 and of the hash functions). -/
def be (n v : Nat) : Bytes := (le n v).reverse

/-- The value of a whole byte string, least significant byte first. -/
def ofLE : Bytes → Nat
  | [] => 0
  | b :: bs => b.toNat + 256 * ofLE bs

/-- The value of a whole byte string, most significant byte first. -/
def ofBE (bs : Bytes) : Nat := bs.foldl (fun a b => a * 256 + b.toNat) 0

/-- `n` bytes of `bs` from offset `off`. -/
def slice (bs : Bytes) (off n : Nat) : Bytes := (bs.drop off).take n

/-- The unsigned field of `n` bytes at offset `off` (R6). -/
def fld (bs : Bytes) (off n : Nat) : Nat := ofLE (slice bs off n)

/-- The signed reading of an `n`-bit value. -/
def sgn (n v : Nat) : Int := if v % 2 ^ n < 2 ^ (n - 1) then (v % 2 ^ n : Nat) else ((v % 2 ^ n : Nat) : Int) - 2 ^ n

/-- The `n`-bit two's complement of an integer. -/
def unsgn (n : Nat) (v : Int) : Nat := (v % ((2 ^ n : Nat) : Int)).toNat

/-- An integer held within the signed range of `n` bits by saturation. -/
def satInt (n : Nat) (v : Int) : Int := max (-(2 ^ (n - 1) : Nat)) (min v ((2 ^ (n - 1) : Nat) - 1))

/-- Bits `hi` down to `lo` of `v`. -/
def bits (v hi lo : Nat) : Nat := (v >>> lo) % 2 ^ (hi + 1 - lo)

/-- Bit `i` of `v`. -/
def bit (v i : Nat) : Bool := (v >>> i) % 2 == 1

/-- A truth value as a bit. -/
def b2n (b : Bool) : Nat := if b then 1 else 0

/-- `v` with bit `i` set to `b`. -/
def setBit (v i : Nat) (b : Bool) : Nat := (v - b2n (bit v i) * 2 ^ i) + b2n b * 2 ^ i

/-- `n` zero bytes: a reserved field. -/
def zeros (n : Nat) : Bytes := List.replicate n 0

/-- A byte string cut or padded with zero bytes to `n` bytes. -/
def fit (n : Nat) (bs : Bytes) : Bytes := bs.take n ++ zeros (n - bs.length)

/-- Every byte is zero (a reserved field as R10 and R600 want it). -/
def allZero (bs : Bytes) : Bool := bs.all (· == 0)

/-- The bytes of an ASCII label. -/
def ascii (s : String) : Bytes := s.toList.map fun c => BitVec.ofNat 8 c.toNat

/-- The number of one bits among the low `n` of `v`. -/
def popCount : Nat → Nat → Nat
  | 0, _ => 0
  | n + 1, v => v % 2 + popCount n (v / 2)

/-- Ceiling division. -/
def ceilDiv (a b : Nat) : Nat := (a + b - 1) / b

/-- Eight shift steps of a reflected CRC with polynomial `poly`. -/
def crcBits (poly : Nat) : Nat → Nat → Nat
  | 0, c => c
  | n + 1, c => crcBits poly n (if c % 2 = 1 then Nat.xor (c / 2) poly else c / 2)

/-- A reflected 32-bit CRC with initial value and final XOR 0xFFFF_FFFF. -/
def crcReflected (poly : Nat) (bs : Bytes) : Nat :=
  Nat.xor (bs.foldl (fun c b => crcBits poly 8 (Nat.xor c b.toNat)) 0xFFFFFFFF) 0xFFFFFFFF

/-- CRC-32C with the parameters of R76: 0x82F6_3B78 is polynomial 0x1EDC_6F41 reflected. -/
def crc32c (bs : Bytes) : Nat := crcReflected 0x82F63B78 bs

/-- The element of a list at a place, or a given value past its end. -/
def nth {α : Type} (l : List α) (i : Nat) (d : α) : α := l.getD i d

/-- A list with the element at place `i` replaced (unchanged past its end). -/
def setNth {α : Type} (l : List α) (i : Nat) (x : α) : List α := l.set i x

/-- A list with the element at place `i` updated. -/
def updNth {α : Type} (l : List α) (i : Nat) (f : α → α) : List α := l.modify i f

/-- A table of numbers in canonical form: keys strictly rising and no value equal to `d`. -/
def tableSet (d : Nat → Nat) (l : List (Nat × Nat)) (k v : Nat) : List (Nat × Nat) :=
  match l with
  | [] => if v = d k then [] else [(k, v)]
  | (k', v') :: t =>
    if k < k' then (if v = d k then l else (k, v) :: l)
    else if k = k' then (if v = d k then t else (k, v) :: t)
    else (k', v') :: tableSet d t k v

/-- The value of a key of such a table; an unlisted key reads `d k`. -/
def tableGet (d : Nat → Nat) (l : List (Nat × Nat)) (k : Nat) : Nat :=
  match l with
  | [] => d k
  | (k', v') :: t => if k' = k then v' else tableGet d t k

/-- The canonical form of a table: keys strictly rising, no value equal to what an unlisted key reads as. -/
def tableWf (d : Nat → Nat) : List (Nat × Nat) → Bool
  | [] => true
  | (k, v) :: t => v != d k && t.all (fun p => decide (k < p.1)) && tableWf d t

end Sys2Proof.Machine
end

