-- ==== Sys2Proof/Machine/State.lean ====
section
/-! DEFINITION. The state of the Akanato: every register, buffer, counter, mode and record the manual names, block by
block, and the queue of waiting commands. Each structure names the chapter's rules; each `reset` gives the
values after the reset of log entry 2. -/

namespace Sys2Proof.Machine

/-- The model raises no fault: every row of the table has an effect in every state (log entry 3). The constructor
is here because the interface asks for a type of faults. No meaning raises it; it is safe. -/
inductive Fault where
  | none_raised
  deriving DecidableEq, Repr

/-- Reasons of a refusal. -/
inductive Refusal where
  /-- A row without a meaning, rejected by name in the dispatcher. Safe. -/
  | notModelled (mnemonic : String)
  deriving DecidableEq, Repr

/-- An instant of PTP time (R8): seconds and nanoseconds. -/
structure Stamp where
  sec : Nat
  ns : Nat
  deriving DecidableEq, Repr

/-! ### System and modes (R39 to R67) -/

/-- The twelve operating modes of R39. -/
inductive Mode where
  | backup
  | boot
  | commission
  | run
  | reduced
  | shadow
  | fallback
  | service
  | safe
  | holdup
  | lockdown
  | fault
  deriving DecidableEq, Repr

/-- The mode code of R39. -/
def Mode.code : Mode → Nat
  | .backup => 0
  | .boot => 1
  | .commission => 2
  | .run => 3
  | .reduced => 4
  | .shadow => 5
  | .fallback => 6
  | .service => 7
  | .safe => 8
  | .holdup => 9
  | .lockdown => 10
  | .fault => 11

/-- The mode of a code. -/
def Mode.ofCode : Nat → Option Mode
  | 0 => some .backup
  | 1 => some .boot
  | 2 => some .commission
  | 3 => some .run
  | 4 => some .reduced
  | 5 => some .shadow
  | 6 => some .fallback
  | 7 => some .service
  | 8 => some .safe
  | 9 => some .holdup
  | 10 => some .lockdown
  | 11 => some .fault
  | _ => none

/-- The five lifecycle states of R54. -/
inductive Lifecycle where
  | blank
  | enrolled
  | sealed
  | returned
  | retired
  deriving DecidableEq, Repr

/-- The lifecycle code of R54. -/
def Lifecycle.code : Lifecycle → Nat
  | .blank => 0
  | .enrolled => 1
  | .sealed => 2
  | .returned => 3
  | .retired => 4

/-- A mode transition in progress (R44): where it goes, its cause, the tag of the request to answer, and whether it
ends at the next cut instead of at MODE_TRANSITION_END. -/
structure Transition where
  target : Mode
  cause : Nat
  tag : Option Nat
  atCut : Bool
  deriving DecidableEq, Repr

/-- The mode machine: MODE_STATE (R43), the transition in progress, the counts of R46 and R47, and the pending reset
of R568. -/
structure Sys where
  mode : Mode
  prevMode : Nat
  cause : Nat
  returnMode : Option Mode
  trans : Option Transition
  /-- MODE_CHANGES (R43). -/
  modeChanges : W32
  /-- Main domain held in reset, before BOOT begins (R557). -/
  inReset : Bool
  /-- LAST_RESET code of the pending reset of R568. -/
  resetPending : Option Nat
  /-- Outcomes of the newest one-second rounds, newest first, at most three (R46, R47). -/
  estOutcomes : List Bool
  /-- Outcomes of the newest optimisation rounds, newest first, at most three (R46). -/
  optOutcomes : List Bool
  /-- Recovery conditions of R47 met: RETURN_MODE is entered at the next cut. -/
  recovery : Bool
  /-- Opcodes of the last four accepted commands, newest first (R537). -/
  lastOps : List Nat
  /-- Monotonic µs until which the supervisor cores restart into a new image (R518). -/
  coresUntil : Nat
  /-- Mode changes triggered within the current step, with their causes; arbitrated at its end (R45). -/
  triggers : List (Mode × Nat)
  deriving DecidableEq, Repr

/-- Reset values of MODE_STATE (R43). -/
def Sys.reset : Sys :=
  { mode := .boot, prevMode := 0, cause := 0, returnMode := none, trans := none, modeChanges := 0,
    inReset := false, resetPending := none, estOutcomes := [], optOutcomes := [], recovery := false, lastOps := [],
    coresUntil := 0, triggers := [] }

/-- Hot standby (R58 to R67). -/
structure Pair where
  /-- PAIR_STATE [0]: this device holds the active role. -/
  active : Bool
  /-- PAIR_STATE [1]: the shadow is qualified. -/
  qualified : Bool
  /-- PAIR_STATE [2]: peer heartbeat present. -/
  peer : Bool
  /-- The role was given up in SAFE with cause 0x07 (R65). -/
  gaveUp : Bool
  /-- A 200 ms listening window is open (R65, R66), with the mode to enter if nothing is heard and its cause. -/
  listening : Option (Mode × Nat)
  /-- A heartbeat was heard in the window. -/
  heard : Bool
  /-- Mode and RETURN_MODE of the last heartbeat received (R64). -/
  lastMode : Mode
  lastReturn : Option Mode
  /-- Monotonic µs at which the takeover timer was last restarted (R64). -/
  lastHeard : Nat
  /-- The device enters SHADOW at the next cut with cause 0x0C (R65, R67). -/
  toShadow : Bool
  /-- Pair messages discarded because their tag failed (R60). -/
  badTags : W32
  /-- Pair sequence number of the last HEARTBEAT sent. -/
  sequence : W32
  /-- Digests of the own items, newest first: kind, round, digest (R63). -/
  digests : List (Nat × Nat × Bytes)
  /-- Digests of the peer, newest first. -/
  peerDigests : List (Nat × Nat × Bytes)
  /-- Kinds matched since STATE_SEGMENT was applied, by round (R63). -/
  matched : List (Nat × Nat)
  /-- STATE_SEGMENT has been applied and qualification awaits three matching digests (R63). -/
  resynced : Bool
  /-- Last round with all digests matching (R60). -/
  lastMatch : Nat
  /-- The active device owes STATE_SEGMENT with the next cut (R60). -/
  owesState : Bool
  /-- Parts of the cut vector received for a round (R62). -/
  segments : List (Nat × Nat × Bytes)
  /-- Logged commands received and waiting for their tick of effect (R61): tick in microseconds, packet. -/
  logWaiting : List (Nat × Bytes)
  /-- The shadow's qualified flag last received from the peer (R60). -/
  peerQualified : Bool
  /-- Output images published in the running round period, in order (R63). -/
  images : Bytes
  deriving DecidableEq, Repr

/-- Pair state after reset. -/
def Pair.reset : Pair :=
  { active := true, qualified := false, peer := false, gaveUp := false, listening := none, heard := false,
    lastMode := .safe, lastReturn := none, lastHeard := 0, toShadow := false, badTags := 0, sequence := 0, digests := [],
    peerDigests := [], matched := [], resynced := false, lastMatch := 0, owesState := false, segments := [],
    logWaiting := [], peerQualified := false, images := [] }

/-! ### Host interface (R68 to R104) -/

/-- Where a request came from, and where its reply goes (R72). -/
structure Origin where
  tr : Transport
  ip : Nat
  port : Nat
  deriving DecidableEq, Repr

/-- A request header as received (R74). -/
structure Hdr where
  verFlags : Nat
  tag : Nat
  opcode : Nat
  length : Nat
  epoch : Nat
  seq : Nat
  reserved : Nat
  deriving DecidableEq, Repr

/-- What check 7 found out about a request: the level carried, 0 to 3 (R95), the key that carries it, the counter of
its signature, and whether it is an A3 command (R96). -/
structure Auth where
  level : Nat
  keyId : Nat
  counter : Nat
  signed : Bool
  a3 : Bool
  session : Option Nat
  deriving DecidableEq, Repr

/-- No authorisation. -/
def Auth.none : Auth := { level := 0, keyId := 0, counter := 0, signed := false, a3 := false, session := .none }

/-- A request that has passed checks 1 to 5. -/
structure Req where
  org : Origin
  hdr : Hdr
  payload : Bytes
  auth : Auth
  deriving DecidableEq, Repr

/-- What an EXECUTING command waits for. -/
inductive Wait where
  /-- Nothing: it completes in the step that accepts it. -/
  | now
  /-- The end of the mode transition it asked for (R49). -/
  | modeEnd
  /-- Its tick of effect, in microseconds of PTP time (R61). -/
  | logged (req : Req) (at_ : Nat)
  /-- The end of a solver job (R174). -/
  | job (id : Nat)
  /-- The validation of a Mizon image (R124), or of the copy of NMOD_CALIB_ADOPT (R135). -/
  | modelValidation
  /-- The activation of the staged model at a cut (R127). -/
  | modelActivation
  /-- The cut at which a round configuration is in effect (R217): its place among those sent. -/
  | roundConfig (place : Nat)
  /-- A substation registration or removal that takes effect at a cut (R227, R229): its place among those waiting. -/
  | sublCut (place : Nat)
  /-- The validation of a block image (R266). -/
  | blockValidation
  /-- The end of an online change (R299). -/
  | onlineChange
  /-- The end of a calibration window (R350). -/
  | calWindow (sys : Nat)
  /-- The end of a move or homing of an axis (R411). -/
  | axis (a : Nat)
  /-- A PPS edge (R433). -/
  | pps
  /-- The second boundary of a summer-time adjustment (R452). -/
  | rtcDst
  /-- The end of a display update (R478). -/
  | display (id : Nat)
  /-- The verification of a firmware image (R517). -/
  | imageVerify (cls : Nat)
  /-- The switch of a firmware image (R518). -/
  | imageSwitch (cls : Nat)
  /-- The snapshot tick (R538). -/
  | snapshot
  deriving DecidableEq, Repr

/-- A command EXECUTING under a tag (R89): what its reply needs. -/
structure Exec where
  op : Nat
  org : Origin
  bufs : Nat
  e2e : Bool
  reqCrc : Nat
  auth : Auth
  wait : Wait
  /-- The tick of its acceptance and its place in the order of acceptance (R81): the model's own fields. -/
  accUs : Nat
  order : Nat
  deriving DecidableEq, Repr

/-- A result HELD under a tag (R89, R100). -/
structure Held where
  status : Nat
  regularised : Bool
  body : Bytes
  reqCrc : Nat
  resCrc : Nat
  deriving DecidableEq, Repr

/-- The state of a tag that is not FREE (R89). -/
inductive TagState where
  | executing (e : Exec)
  | held (h : Held)
  deriving DecidableEq, Repr

/-- A reply that has not been issued (R75). `heldSlots` and `heldBufs` are the credits its request debited (R85). -/
structure Reply where
  org : Origin
  tag : Nat
  opcode : Nat
  status : Nat
  body : Bytes
  slots : Nat
  bufs : Nat
  heldSlots : Nat
  heldBufs : Nat
  seq : W32
  flags : Nat
  e2e : Option (Nat × Nat)
  session : Option Nat
  deriving DecidableEq, Repr

/-- A session (R97): its identifier, the key and role that opened it, and its two keys. `serial` tells it from every other
session of the device, so that a reply knows the one its request was verified under (R98): the model's own field. -/
structure Session where
  serial : Nat
  id : Nat
  keyId : Nat
  role : Nat
  h2d : Bytes
  d2h : Bytes
  /-- Monotonic µs of the last verified session packet (R98). -/
  last : Nat
  deriving DecidableEq, Repr

/-- What each transport keeps for itself (R68). -/
structure Link where
  /-- Expected request sequence number (R79); none before the first packet after a reset. -/
  expected : Option W32
  /-- SEQUENCE of the next reply (R80). -/
  replySeq : W32
  epoch : W16
  unsync : Bool
  session : Option Session
  deriving DecidableEq, Repr

/-- A transport after a device reset (R80, R87). -/
def Link.reset : Link := { expected := none, replySeq := 0, epoch := 0, unsync := true, session := none }

/-- A datagram under reassembly (R72): the pieces received, and the length once the last piece is known. -/
structure Reassembly where
  srcIp : Nat
  srcPort : Nat
  ident : Nat
  pieces : List (Nat × Bytes)
  total : Option Nat
  deriving DecidableEq, Repr

/-- The host interface. -/
structure Hif where
  /-- The host interface has started (R52). -/
  up : Bool
  xspi : Link
  udp : Link
  uart : Link
  /-- The xSPI reply queue, head first (R71). -/
  xspiQ : List Reply
  /-- Replies being sent on the UART, head first (R85). -/
  uartQ : List Reply
  /-- HIF_IRQ asserted (R101). -/
  irq : Bool
  /-- IRQ_HOLDOFF is running (R101). -/
  holdoff : Bool
  /-- Tags that are not FREE, in ascending order (R89). -/
  tags : List (Nat × TagState)
  /-- Datagrams under reassembly, at most four (R72). -/
  frags : List Reassembly
  /-- Commands accepted since the reset, by which their order is known (R81): the model's own field. -/
  accepted : Nat
  /-- UART_BAUD in effect (R104). -/
  baud : Nat
  /-- A UART_BAUD that waits for the last byte of a reply: transport, reply sequence, value (R104). -/
  baudPending : Option (Transport × W32 × Nat)
  /-- UDP and UART slot shares in effect: CREDIT_SPLIT of the last boot (R82, R104). -/
  shareUdp : Nat
  shareUart : Nat
  xspiDropped : W32
  udpDropped : W32
  uartDropped : W32
  crcErrors : W32
  sequenceErrors : W32
  creditOverruns : W32
  authFailures : W32
  creditDiscrepancies : W32
  deriving DecidableEq, Repr

/-- The host interface after reset (R87, R101, R104). -/
def Hif.reset : Hif :=
  { up := false, xspi := Link.reset, udp := Link.reset, uart := Link.reset, xspiQ := [], uartQ := [], irq := false,
    holdoff := false, tags := [], frags := [], accepted := 0, baud := 115200, baudPending := none, shareUdp := 48, shareUart := 16,
    xspiDropped := 0, udpDropped := 0, uartDropped := 0, crcErrors := 0, sequenceErrors := 0, creditOverruns := 0,
    authFailures := 0, creditDiscrepancies := 0 }

/-! ### Event recorder (R480 to R492) -/

/-- The three counters of an event code (R481). -/
structure CodeCount where
  code : Nat
  occurred : W32
  recorded : W32
  limited : W32
  deriving DecidableEq, Repr

/-- A posting in the staging ring, or the same as an entry of a ring: what an entry of R485 or R486 needs. -/
structure Posting where
  code : Nat
  index : Nat
  data : Bytes
  keyId : Nat
  at_ : Stamp
  mode : Nat
  lifecycle : Nat
  occurred : Nat
  summary : Bool
  restored : Bool
  deriving DecidableEq, Repr

/-- An entry of a ring: its sequence number, METRO_FULL, and the posting. -/
structure Entry where
  seq : Nat
  metroFull : Bool
  post : Posting
  deriving DecidableEq, Repr

/-- A copy area of the counters in MRAM (R482). -/
structure CopyArea where
  stamp : Nat
  intact : Bool
  counts : List CodeCount
  deriving DecidableEq, Repr

/-- An open period or a kept period record of a record channel (R488, R489). `bins` holds the 16 bins. -/
structure Period where
  seq : W32
  flags : Nat
  /-- Opening and closing in PTP seconds, and the opening in metering time; none where no period is open. -/
  start : Nat
  stop : Nat
  met : Option Nat
  samples : W32
  invalid : W32
  min : W64
  max : W64
  minAt : Nat
  maxAt : Nat
  sum : W64
  bins : List W32
  /-- Count of the source at the opening of the period (counter channels). -/
  base : W32
  deriving DecidableEq, Repr

/-- A period with nothing in it. -/
def Period.empty : Period :=
  { seq := 0, flags := 0, start := 0, stop := 0, met := none, samples := 0, invalid := 0, min := 0, max := 0, minAt := 0,
    maxAt := 0, sum := 0, bins := List.replicate 16 0, base := 0 }

/-- A record channel: its open periods and its kept records, newest first. -/
structure RecChan where
  hour : Period
  day : Period
  hours : List Period
  days : List Period
  deriving DecidableEq, Repr

/-- A record channel after the first power-on. -/
def RecChan.reset : RecChan := { hour := Period.empty, day := Period.empty, hours := [], days := [] }

/-- The event recorder. Rings are held newest first. -/
structure Evr where
  /-- Counters of R481 in the retention SRAM, in ascending code. -/
  counts : List CodeCount
  /-- The two copy areas of R482 in MRAM. -/
  copyA : CopyArea
  copyB : CopyArea
  /-- Postings recorded in the window, by code, and postings rate-limited in it (R483). -/
  winRecorded : List (Nat × Nat)
  winLimited : List (Nat × Nat)
  staging : List Posting
  /-- Postings that their block holds because every place is taken (R483). -/
  heldPosts : List Posting
  log : List Entry
  logSeq : W32
  metro : List Entry
  metroSeq : Nat
  general : List Entry
  generalSeq : Nat
  logOverwritten : W32
  auditOverwritten : W32
  metroOverflow : W32
  stagingFull : W32
  channels : Vector RecChan 32
  /-- Monotonic µs of the last sample of the record channels (R488). -/
  sampled : Option Nat
  deriving DecidableEq, Repr

/-- The event recorder after the first power-on: every ring empty. -/
def Evr.reset : Evr :=
  { counts := [], copyA := ⟨0, false, []⟩, copyB := ⟨0, false, []⟩, winRecorded := [], winLimited := [],
    staging := [], heldPosts := [], log := [], logSeq := 0, metro := [], metroSeq := 0, general := [],
    generalSeq := 0, logOverwritten := 0, auditOverwritten := 0, metroOverflow := 0, stagingFull := 0,
    channels := Vector.replicate 32 RecChan.reset, sampled := none }

/-! ### Keys, secure boot and tamper (R493 to R527) -/

/-- A key slot: two shares whose XOR is the key, and the attributes of R506. -/
structure KeySlot where
  share0 : Bytes
  share1 : Bytes
  attrs : Nat
  deriving DecidableEq, Repr

/-- A host public key (R500). -/
structure HostKey where
  keyId : Nat
  role : Nat
  pub : Bytes
  deriving DecidableEq, Repr

/-- What the model keeps of a firmware image in a slot (R513): its 512-byte header and its body. -/
structure Image where
  header : Bytes
  body : Bytes
  deriving DecidableEq, Repr

/-- What a flash slot of a class holds: nothing that can run, the image of production, whose content the model does not hold
(log entry 2), or an image. -/
inductive ImageSlot where
  | erased
  | factory
  | held (im : Image)
  deriving DecidableEq, Repr

/-- A class of firmware image with its two slots (R512, R526). -/
structure ImageClass where
  slotA : ImageSlot
  slotB : ImageSlot
  /-- Running slot: false A, true B. -/
  running : Bool
  /-- Selector in MRAM. -/
  selector : Bool
  /-- VERSION, ROLLBACK, COSIGNER and digest of the running image. -/
  version : W32
  rollback : Nat
  cosigner : Nat
  digest : Bytes
  /-- STAGE, VERIFY and the bytes received of the inactive slot. -/
  stage : Nat
  verify : Nat
  length : Nat
  received : Bytes
  /-- ROLLBACK fuses blown for the class (R515). -/
  counter : Nat
  /-- Monotonic µs at which the pending activation was accepted (R518). -/
  pendUs : Nat
  deriving DecidableEq, Repr

/-- A class that runs the image of production in slot A (log entry 2). -/
def ImageClass.reset : ImageClass :=
  { slotA := .factory, slotB := .erased, running := false, selector := false, version := 0, rollback := 0, cosigner := 0,
    digest := zeros 48, stage := 0, verify := 0, length := 0, received := [], counter := 0, pendUs := 0 }

/-- A key record of the MRAM security partition: a key wrapped under the storage key (R499). -/
structure KeyRec where
  slot : Nat
  attrs : Nat
  nonce : Bytes
  wrapped : Bytes
  tag : Bytes
  deriving DecidableEq, Repr

/-- The Cloister with the OTP. -/
structure Sec where
  deviceId : Bytes
  /-- Grade letter (R3). -/
  grade : Nat
  lifecycle : Lifecycle
  /-- Firmware keys 0xFF01 to 0xFF04 and the production key 0xFF10 (R496). -/
  fwKeys : Vector Bytes 4
  prodKey : Bytes
  /-- Helper data written at the first BOOT in ENROLLED. -/
  helper : Bool
  /-- The root secret as it lies wrapped in MRAM: nonce, ciphertext, tag (R498). -/
  root : Option (Bytes × Bytes × Bytes)
  cert : Option Bytes
  /-- Occupied key slots in ascending order (R494, R495). -/
  slots : List (Nat × KeySlot)
  /-- Key records in the MRAM security partition, in ascending slot (R499). -/
  records : List KeyRec
  /-- Host key table (R500). -/
  hostKeys : Vector (Option HostKey) 32
  /-- Last accepted counter of each key identifier (R96, R500). -/
  counters : List (Nat × Nat)
  /-- Transition record: old and new lifecycle code (R509). -/
  transition : Option (Nat × Nat)
  images : Vector ImageClass 7
  keysLoaded : Bool
  remasks : W32
  bootCount : W32
  trngFailures : W32
  trngStopped : Bool
  pufReads : Nat
  deriving DecidableEq, Repr

/-- The Cloister of a device fresh from production test (log entry 2). -/
def Sec.reset : Sec :=
  { deviceId := zeros 16, grade := 0x4D, lifecycle := .blank, fwKeys := Vector.replicate 4 (zeros 97),
    prodKey := zeros 97, helper := false, root := none, cert := none, slots := [], records := [],
    hostKeys := Vector.replicate 32 none, counters := [], transition := none,
    images := Vector.replicate 7 ImageClass.reset, keysLoaded := false, remasks := 0, bootCount := 0,
    trngFailures := 0, trngStopped := false, pufReads := 0 }

/-- The tamper latch and counters (R520 to R527). -/
structure Tamp where
  set_ : Bool
  sources : Nat
  situation : Nat
  count : W32
  first : Nat
  meshMismatches : W32
  /-- Consecutive mismatches of each mesh loop, at most 2 (R520). -/
  meshRun : Vector Nat 2
  /-- Detections in BACKUP not yet recorded: sources, situation, count, first (R522). -/
  unrecorded : List (Nat × Nat × Nat × Nat)
  deriving DecidableEq, Repr

/-- TAMP after an always-on reset (R527). -/
def Tamp.reset : Tamp :=
  { set_ := false, sources := 0, situation := 0, count := 0, first := 0, meshMismatches := 0,
    meshRun := Vector.replicate 2 0, unrecorded := [] }

/-! ### Integrity, snapshots and diagnostics (R528 to R543) -/

/-- A fault record (R541). -/
structure FaultRec where
  seq : Nat
  cause : Nat
  block : Nat
  mode : Nat
  at_ : Stamp
  detail : Bytes
  snapSeq : Nat
  intact : Bool
  deriving DecidableEq, Repr

/-- A held snapshot (R536, R539): its sections by block code. -/
structure Snapshot where
  seq : W32
  sources : Nat
  mode : Nat
  at_ : Stamp
  sections : List (Nat × Bytes)
  deriving DecidableEq, Repr

/-- Integrity and diagnostics. -/
structure Intg where
  armed : Bool
  held : Option Snapshot
  /-- The snapshot tick is fixed, with the sources so far (R536). -/
  pending : Option Nat
  /-- Instant of the detection that fixed the snapshot tick, in µs. -/
  pendingUs : Nat
  snapSequence : W32
  snapMissed : W32
  wdtRestarts : W32
  /-- Fault ring in the retention SRAM, newest first, at most 8, and the copied ring in MRAM, at most 32 (R541). -/
  ring : List FaultRec
  mramRing : List FaultRec
  /-- Sequence of the newest fault record that has been copied to MRAM. -/
  copied : Nat
  faultCount : W32
  /-- CE_COUNT, BLOCK_ERRORS and TIMEOUTS by block code (R543, R33). -/
  ceCount : List (Nat × Nat)
  blockErrors : List (Nat × Nat)
  timeouts : List (Nat × Nat)
  scrubbing : Bool
  scrubPos : Nat
  /-- Last SNAP_IN edge (R537). -/
  snapIn : Stamp
  /-- Last watchdog expiry of cores 1 to 3, in microseconds (R533). -/
  lastExpiry : Vector (Option Nat) 3
  /-- Blocks whose engine is restarting, and until when in monotonic microseconds (R33, R533). -/
  restarting : List (Nat × Nat)
  /-- Words marked uncorrectable: memory code and word address (R531). -/
  marked : List (Nat × Nat)
  /-- P3 requests promoted, as the model's own count (R18). -/
  promotions : W32
  /-- BALUSTRADE violations counted (R24). -/
  balustrade : W32
  deriving DecidableEq, Repr

/-- INTG after the first power-on (R536, R543). -/
def Intg.reset : Intg :=
  { armed := true, held := none, pending := none, pendingUs := 0, snapSequence := 0, snapMissed := 0, wdtRestarts := 0, ring := [],
    mramRing := [], copied := 0, faultCount := 0, ceCount := [], blockErrors := [], timeouts := [],
    scrubbing := false, scrubPos := 0, snapIn := ⟨0, 0⟩, lastExpiry := Vector.replicate 3 none, restarting := [], marked := [],
    promotions := 0, balustrade := 0 }

/-! ### Power, clocks and reset (R544 to R560) -/

/-- The power states of a flight (R551). -/
inductive FlightPower where
  | off
  | idle
  | active
  | waking
  deriving DecidableEq, Repr

/-- The FLIGHT_POWER code of a state (R560). -/
def FlightPower.code : FlightPower → Nat
  | .off => 0
  | .idle => 1
  | .active => 2
  | .waking => 3

/-- How the xSPI flash port transfers (R592). -/
inductive FlashMode where
  | single
  | octal
  | octalDouble
  deriving DecidableEq, Repr

/-- Power, clocks and reset. -/
structure Pwr where
  lastReset : Nat
  /-- UV_RAILS, bit k as PWR_STATE bit 8 + k (R547). -/
  uvRails : Nat
  vbatLow : Bool
  pllSysLock : Bool
  pllDdrLock : Bool
  pfw : Bool
  flights : Vector FlightPower 8
  vddCore : W16
  vddSoc : W16
  vddAna : W16
  vbat : W16
  dieTemp : W32
  holdups : W32
  undervoltages : W32
  pllLosses : W32
  /-- The MRAM write path of HOLDUP is open (R549). -/
  mramOpen : Bool
  /-- RESET_N is low (R557). -/
  resetNLow : Bool
  /-- The always-on domain has been reset since the last main reset (R556). -/
  alwaysOnFresh : Bool
  /-- Levels of the banks IO0 to IO7 as sampled in the last main reset: bit k set for a 3.3 V bank (R582). -/
  ioBanks : Byte
  /-- Instants in µs at which PLL_SYS and PLL_DDR lost lock, while they are out of it (R555). -/
  pllLost : Vector (Option Nat) 2
  /-- The mode of the flash port (R592). -/
  flash : FlashMode
  deriving DecidableEq, Repr

/-- PWR at the first main reset after an always-on reset (R560). -/
def Pwr.reset : Pwr :=
  { lastReset := 0, uvRails := 0, vbatLow := false, pllSysLock := false, pllDdrLock := false, pfw := false,
    flights := Vector.replicate 8 .off, vddCore := 0, vddSoc := 0, vddAna := 0, vbat := 0, dieTemp := 0,
    holdups := 0, undervoltages := 0, pllLosses := 0, mramOpen := false, resetNLow := false, alwaysOnFresh := true,
    ioBanks := 0, pllLost := Vector.replicate 2 none, flash := .single }

/-! ### Clock, outputs and the whole machine -/

/-- The PTP clock and the monotonic counter, both in units of 2^-32 ns, INCREMENT in effect (R425, R427), and true time
in µs, by which the always-on domain is kept (log entry 1). -/
structure Clock where
  ptp : Nat
  mono : Nat
  increment : Nat
  real : Nat
  deriving DecidableEq, Repr

/-- A tick: the steps of the PTP clock before it, and its PTP microseconds. -/
abbrev TickId := Nat × Nat

/-- A double buffer that is switched at tick boundaries (R23, R30, R204, R237): what was written last, what the tick of that write
began with, and that tick. -/
structure Paged (α : Type) where
  now : α
  prev : α
  at_ : Option TickId
  deriving DecidableEq, Repr

/-- A double buffer of which both buffers hold the same. -/
def Paged.both {α : Type} (x : α) : Paged α := ⟨x, x, none⟩

/-- The clock after reset: nothing is loaded before the end of BOOT (R427, R428), INCREMENT nominal (R429). -/
def Clock.reset : Clock := { ptp := 0, mono := 0, increment := 0x0400000000, real := 0 }

/-- An IPv4 datagram with UDP, or a fragment of one, as an endpoint sends it (R60, R72, R220): its VLAN, the ports, the address it
goes to (none for the peer, whose address no parameter gives), and the bytes of the UDP payload from `offset` on, with more to
follow or not. -/
structure Dgram where
  sender : Endpoint
  vlan : Nat
  srcPort : Nat
  ip : Option Nat
  dstPort : Nat
  offset : Nat
  more : Bool
  data : Bytes
  deriving DecidableEq, Repr

/-- Bytes and messages that left the device, for an observer; no meaning reads them (log entry 4). -/
inductive Output where
  /-- Bytes read on xSPI, a datagram sent, or bytes sent on the UART. -/
  | xspi (bytes : Bytes)
  | udp (d : Dgram)
  | uart (bytes : Bytes)
  /-- A PTP message sent on a port (R423): message type and body values. -/
  | ptp (port kind : Nat) (a b : Nat)
  /-- A frame forwarded to a port (R416): port, the queue it goes to, tag kept, correction added in ns. -/
  | frame (port queue : Nat) (tagged : Bool) (correction : Int)
  /-- A Gallery response (R21): target block and kind, 1 timeout error, 2 discarded late, 3 Balustrade error. -/
  | gallery (target kind : Nat)
  deriving DecidableEq, Repr

/-- A written parameter value that waits for its boundary (R35, R572): identifier, value, and the key and counter of the
signature that wrote it. -/
structure PendingValue where
  id : Nat
  value : Nat
  keyId : Nat
  counter : Nat
  deriving DecidableEq, Repr

/-! ### Thermal metering (R310 to R331) -/

/-- A register with its sub-quantum remainder: a 96-bit accumulator in units of 2^-32 of the quantum (R321, R355). -/
abbrev Acc := BitVec 96

/-- The open interval of one length of a thermal channel, with the values at its opening (R326, R327). -/
structure ThermOpen where
  start : Nat
  flags : Nat
  dirBase : W32
  /-- The reverse pulse count at the opening (REVERSED). -/
  revBase : W32
  faultBase : W32
  rangeBase : W32
  wrongBase : Acc
  /-- Exact sums of the valid frames' temperatures at scale 2^-1074, and their numbers. -/
  sumA : Int
  numA : Nat
  sumB : Int
  numB : Nat
  deriving DecidableEq, Repr

/-- An interval that opened at metering second 0 with nothing counted. -/
def ThermOpen.empty : ThermOpen := ⟨0, 0, 0, 0, 0, 0, 0, 0, 0, 0, 0⟩

/-- A closed thermal interval record (R327). -/
structure ThermInt where
  seq : W32
  flags : Nat
  start : Nat
  stop : Nat
  dirChanges : Nat
  lifecycle : Nat
  fwdE : Nat
  fwdV : Nat
  revE : Nat
  revV : Nat
  wrongE : Nat
  faultS : W32
  rangeS : W32
  meanA : W32
  meanB : W32
  deriving DecidableEq, Repr

/-- A thermal channel (R310). Temperatures are binary64 bits. -/
structure MthChan where
  fwd : W32
  rev : W32
  dirChanges : W32
  /-- The last counted pulse's direction differed from that of the pulse before (R317). -/
  turned : Bool
  /-- Pulses of the open span by direction (R318). -/
  spanFwd : Nat
  spanRev : Nat
  lastReverse : Bool
  /-- Pulses counted since metering started, at most 2, with the instants (monotonic µs) of the last two. -/
  seen : Nat
  lastPulse : Nat
  prevPulse : Nat
  lastPulseAt : Stamp
  tA : W64
  tB : W64
  haveTemps : Bool
  /-- Last accepted reference conversions, newest first, at most 8, and how many were accepted since BOOT (R312). -/
  refs : List Int
  refCount : Nat
  exclRun : Nat
  faultA : Bool
  clearA : Nat
  faultB : Bool
  clearB : Nat
  refFault : Bool
  clearRef : Nat
  /-- The last reference conversion lay outside ±5 % (R313). -/
  refBad : Bool
  frameLost : Bool
  lostRun : Nat
  tRange : Bool
  dtRange : Bool
  wrongDt : Bool
  rejected : W32
  /-- Metering second last counted in SENSOR_FAULT_S, RANGE_S and WRONG_DT_S (R324). -/
  faultSec : Option Nat
  rangeSec : Option Nat
  wrongSec : Option Nat
  opens : Vector ThermOpen 3
  seqs : Vector W32 3
  /-- Kept records of each length, newest first, at most 30, 96 and 24 (R327). -/
  kept : Vector (List ThermInt) 3
  /-- |POWER| published on page 1 with its instant, newest first, over 60 s (R361). -/
  peaks : List (Nat × W64)
  deriving DecidableEq, Repr

/-- A channel when metering has not started. -/
def MthChan.reset : MthChan :=
  { fwd := 0, rev := 0, dirChanges := 0, turned := false, spanFwd := 0, spanRev := 0, lastReverse := false, seen := 0, lastPulse := 0,
    prevPulse := 0, lastPulseAt := ⟨0, 0⟩, tA := 0, tB := 0, haveTemps := false,
    refs := [], refCount := 0, exclRun := 0, faultA := false, clearA := 0, faultB := false, clearB := 0,
    refFault := false, clearRef := 0, refBad := false, frameLost := false, lostRun := 0, tRange := false,
    dtRange := false, wrongDt := false, rejected := 0, faultSec := none, rangeSec := none, wrongSec := none,
    opens := Vector.replicate 3 ThermOpen.empty, seqs := Vector.replicate 3 0, kept := Vector.replicate 3 [],
    peaks := [] }

/-- The thermal block. -/
structure Mth where
  /-- Metering runs (R26): from the end of the first frame after BOOT until it stops. -/
  running : Bool
  /-- Frames completed in this run of metering (R311). -/
  frame : Nat
  chans : Vector MthChan 16
  /-- Read window pages 0 and 1 as last published (R325). -/
  page0 : Paged Bytes
  page1 : Paged Bytes
  seq0 : W32
  seq1 : W32
  framesLost : W32
  refExcluded : W32
  deriving DecidableEq, Repr

/-- MTH after reset. -/
def Mth.reset : Mth :=
  { running := false, frame := 0, chans := Vector.replicate 16 MthChan.reset, page0 := .both [], page1 := .both [], seq0 := 0,
    seq1 := 0, framesLost := 0, refExcluded := 0 }

/-! ### Electrical metering (R332 to R354) -/

/-- The exact sums of one phase over a line cycle or a window (R340). -/
structure PhaseSums where
  p : Int
  q : Int
  vv : Nat
  ii : Nat
  deriving DecidableEq, Repr

/-- Sums at zero. -/
def PhaseSums.zero : PhaseSums := ⟨0, 0, 0, 0⟩

/-- A line cycle's sums, the V_FS and I_FS it was closed under, and the fundamental phasors measured at its close: the
lags of L2 and L3 behind L1 in millidegrees. -/
structure Cycle where
  samples : Nat
  sums : Vector PhaseSums 3
  vfs : Nat
  ifs : Nat
  lag2 : Nat
  lag3 : Nat
  deriving DecidableEq, Repr

/-- A cycle with no sample. -/
def Cycle.empty : Cycle := ⟨0, Vector.replicate 3 PhaseSums.zero, 0, 0, 0, 0⟩

/-- What a channel of a system keeps: the last rounded samples before the delay of R336, at most 16, the last corrected
samples, at most 127, both newest first, and the fault monitors of R337. -/
structure MelChan where
  pre : List Int
  hist : List Int
  badRun : Nat
  goodRun : Nat
  modFault : Bool
  overCycle : Bool
  overrange : Bool
  deriving DecidableEq, Repr

/-- A channel before its first sample. -/
def MelChan.reset : MelChan := ⟨[], [], 0, 0, false, false, false⟩

/-- The open electrical interval of one length (R349). -/
structure ElecOpen where
  start : Nat
  flags : Nat
  exportCycles : W32
  cycles : W32
  faultBase : W32
  qualityBase : W32
  deriving DecidableEq, Repr

/-- An electrical interval with nothing in it. -/
def ElecOpen.empty : ElecOpen := ⟨0, 0, 0, 0, 0, 0⟩

/-- A closed electrical interval record (R349): A_IMPORT, A_EXPORT, REACT_Q1 to Q4, S_IMPORT, S_EXPORT. -/
structure ElecInt where
  seq : W32
  flags : Nat
  start : Nat
  stop : Nat
  lifecycle : Nat
  regs : List Nat
  exportCycles : W32
  cycles : W32
  faultS : W32
  qualityS : W32
  deriving DecidableEq, Repr

/-- A calibration window (R350): its bounds in PTP nanoseconds, the sums so far, and what its FLAGS will say. -/
structure CalWin where
  start : Nat
  stop : Nat
  samples : Nat
  first : Stamp
  sums : Vector PhaseSums 3
  flags : Nat
  deriving DecidableEq, Repr

/-- The electrical registers of a system: system, L1, L2, L3 with 8 registers each in the order of R357, and the
error seconds. -/
structure ElecReg where
  regs : Vector (Vector Acc 8) 4
  faultS : W32
  qualityS : W32
  deriving DecidableEq, Repr

/-- A three-phase system. -/
structure MelSys where
  running : Bool
  /-- Raw samples still to be discarded (R345). -/
  settle : Nat
  chans : Vector MelChan 6
  open_ : Cycle
  /-- Last 10 closed cycles, newest first (R348). -/
  last : List Cycle
  phaseLost : Vector Bool 3
  lostRun : Vector Nat 3
  backRun : Vector Nat 3
  seqWrong : Bool
  seqRun : Nat
  seqBack : Nat
  neutral : Bool
  neutRun : Nat
  neutBack : Nat
  unlocked : Bool
  badCycles : Nat
  goodCross : Nat
  /-- Samples since the last crossing, the place of that crossing in 1/4,096 sample, and the last 10 lengths measured
  from crossing to crossing, in 1/4,096 sample, newest first (R338, R339). -/
  sinceCross : Nat
  frac : Nat
  lens : List Nat
  /-- The reference phase, 0 for L1 (R338, R346). -/
  refPhase : Nat
  /-- The registers and the open intervals before the first line cycle that closed in the tick named (R344). -/
  fresh : Option (TickId × ElecReg × Vector ElecOpen 3)
  /-- CYCLES (R354). -/
  cycles : W32
  faultSec : Option Nat
  qualitySec : Option Nat
  opens : Vector ElecOpen 3
  seqs : Vector W32 3
  kept : Vector (List ElecInt) 3
  peaks : List (Nat × W64)
  cal : Option CalWin
  deriving DecidableEq, Repr

/-- A system when metering has not started. -/
def MelSys.reset : MelSys :=
  { running := false, settle := 64, chans := Vector.replicate 6 MelChan.reset, open_ := Cycle.empty, last := [],
    phaseLost := Vector.replicate 3 false, lostRun := Vector.replicate 3 0, backRun := Vector.replicate 3 0,
    seqWrong := false, seqRun := 0, seqBack := 0, neutral := false, neutRun := 0, neutBack := 0, unlocked := false,
    badCycles := 0, goodCross := 0, sinceCross := 0, frac := 0, lens := [], refPhase := 0, fresh := none,
    cycles := 0, faultSec := none, qualitySec := none,
    opens := Vector.replicate 3 ElecOpen.empty, seqs := Vector.replicate 3 0, kept := Vector.replicate 3 [],
    peaks := [], cal := none }

/-- The electrical block. -/
structure Mel where
  systems : Vector MelSys 4
  page2 : Paged Bytes
  page3 : Paged Bytes
  seq2 : W32
  seq3 : W32
  paritySubstituted : W32
  forcedCycles : W32
  deriving DecidableEq, Repr

/-- MEL after reset. -/
def Mel.reset : Mel :=
  { systems := Vector.replicate 4 MelSys.reset, page2 := .both [], page3 := .both [], seq2 := 0, seq3 := 0,
    paritySubstituted := 0, forcedCycles := 0 }

/-! ### Billing registers (R355 to R372) -/

/-- The thermal registers of a channel in a register set (R355). -/
structure ThermReg where
  fwdE : Acc
  fwdV : Acc
  revE : Acc
  revV : Acc
  faultS : W32
  rangeS : W32
  wrongS : W32
  deriving DecidableEq, Repr

/-- A lifecycle register set (R355). -/
structure RegSet where
  therm : Vector ThermReg 16
  elec : Vector ElecReg 4
  deriving DecidableEq, Repr

/-- A register set at zero. -/
def RegSet.zero : RegSet :=
  { therm := Vector.replicate 16 ⟨0, 0, 0, 0, 0, 0, 0⟩,
    elec := Vector.replicate 4 ⟨Vector.replicate 4 (Vector.replicate 8 0), 0, 0⟩ }

/-- What a save record holds (R357). -/
structure SaveRec where
  lifecycle : Nat
  set_ : Nat
  seq : Nat
  at_ : Stamp
  changeCounter : W32
  gapCount : W32
  regs : RegSet
  wrongDt : Vector Acc 16
  unattrT : Vector Acc 16
  unattrE : Vector Acc 4
  peakT : Vector W64 16
  peakE : Vector W64 4
  deriving DecidableEq, Repr

/-- A save record of nothing. -/
def SaveRec.empty : SaveRec :=
  { lifecycle := 0, set_ := 0, seq := 0, at_ := ⟨0, 0⟩, changeCounter := 0, gapCount := 0, regs := RegSet.zero,
    wrongDt := Vector.replicate 16 0, unattrT := Vector.replicate 16 0, unattrE := Vector.replicate 4 0,
    peakT := Vector.replicate 16 0, peakE := Vector.replicate 4 0 }

/-- A slot of the save ring (R358, R362): erased, or a record that is intact or not. -/
structure SaveSlot where
  intact : Bool
  rec_ : SaveRec
  deriving DecidableEq, Repr

/-- A gap record (R364). -/
structure GapRec where
  seq : W32
  cause : Nat
  flags : Nat
  recSeq : Nat
  saveAt : Stamp
  durationUs : Nat
  stopAt : Stamp
  estT : Vector Nat 16
  estE : Vector Nat 4
  deriving DecidableEq, Repr

/-- The billing block. -/
structure Bill where
  /-- The lifecycle set and the three sets beside it (R355). -/
  regs : RegSet
  wrongDt : Vector Acc 16
  unattrT : Vector Acc 16
  unattrE : Vector Acc 4
  /-- The registers as at the latest snapshot point (R371 item 0). -/
  shown : SaveRec
  /-- The save ring, slot n mod 64 (R358); none where erased. -/
  ring : Vector (Option SaveSlot) 64
  /-- SEQUENCE of the last save. -/
  lastSeq : Nat
  /-- Monotonic µs of the last save, for the next one. -/
  lastSave : Nat
  /-- A save write in progress: its sequence number (R358). -/
  saving : Option Nat
  frozen : Option SaveRec
  ringLost : Bool
  changeCounter : W32
  /-- The metrology change counter at the start of the tick in which it last changed (R357). -/
  counterStart : Option (TickId × W32)
  gapCount : W32
  /-- Gap records, newest first, at most 256. -/
  gaps : List GapRec
  /-- The stop time and its cause, in the always-on domain (R360). -/
  stop : Option (Stamp × Nat)
  /-- No gap is outstanding: the last stop was orderly (R360), or BOOT has dealt with it (R364). -/
  orderly : Bool
  /-- Metering second of the last interval boundary handled (R326). -/
  lastBoundary : Option Nat
  saves : W32
  saveErrors : W32
  ringFallbacks : W32
  deriving DecidableEq, Repr

/-- BILL on a device that has never metered (R363). -/
def Bill.reset : Bill :=
  { regs := RegSet.zero, wrongDt := Vector.replicate 16 0, unattrT := Vector.replicate 16 0,
    unattrE := Vector.replicate 4 0, shown := SaveRec.empty, ring := Vector.replicate 64 none, lastSeq := 0,
    lastSave := 0, saving := none, frozen := none, ringLost := false, changeCounter := 0, counterStart := none, gapCount := 0,
    gaps := [],
    stop := none, orderly := false, lastBoundary := none, saves := 0, saveErrors := 0, ringFallbacks := 0 }

/-! ### Network time (R425 to R441) -/

/-- Servo states of R429. -/
inductive Servo where
  | freeRun
  | acquiring
  | locked
  | holdover
  | gmPps
  | gmFree
  deriving DecidableEq, Repr

/-- The code of a servo state (R429). -/
def Servo.code : Servo → Nat
  | .freeRun => 0
  | .acquiring => 1
  | .locked => 2
  | .holdover => 3
  | .gmPps => 4
  | .gmFree => 5

/-- A time-trigger output (R435): program in PTP nanoseconds, and where the pulse train stands. -/
structure Trigger where
  on : Bool
  start : Nat
  period : Nat
  width : Nat
  count : Nat
  activeLow : Bool
  suppress : Bool
  /-- Next pulse instant, pulses made, output active, and the programmed end of the pulse in progress. -/
  next : Nat
  made : Nat
  level : Bool
  endAt : Nat
  deriving DecidableEq, Repr

/-- An unprogrammed trigger output. -/
def Trigger.off : Trigger :=
  { on := false, start := 0, period := 0, width := 0, count := 0, activeLow := false, suppress := false, next := 0, made := 0, level := false,
    endAt := 0 }

/-- A captured edge (R438): its COUNT, edge (true rising) and time. -/
structure Capture where
  seq : W32
  rising : Bool
  at_ : Stamp
  deriving DecidableEq, Repr

/-- A capture input (R438, R439): counts, the ring of edges not yet published, and the newest four of the page. -/
structure CapIn where
  count : W32
  overrun : W32
  ring : List Capture
  newest : List Capture
  deriving DecidableEq, Repr

/-- A capture input after BOOT. -/
def CapIn.reset : CapIn := ⟨0, 0, [], []⟩

/-- A master heard in Announce (R423): the clause 9.3 dataset reduced to what orders it, and its identity. -/
structure Master where
  priority1 : Nat
  clockClass : Nat
  accuracy : Nat
  variance : Nat
  priority2 : Nat
  identity : Nat
  steps : Nat
  port : Nat
  deriving DecidableEq, Repr

/-- The TIME block. -/
structure TimeB where
  servo : Servo
  /-- OFFSET, signed ns, and PATH_DELAY, ns (R441). -/
  offset : Int
  pathDelay : Nat
  steps : W32
  missed : W32
  /-- TAI − UTC offset in use, pending leap (0 none, 1 insert, 2 delete), and the metering second of its UTC day
  boundary (R434). -/
  utcOffset : Int
  leap : Nat
  leapAt : Nat
  utcValid : Bool
  /-- The offset in use came with an Announce (R434). -/
  utcFromMaster : Bool
  fromRtc : Bool
  /-- True time of the last PPS edge, for PPS_PRESENT (R441). -/
  ppsUs : Option Nat
  /-- True time at which the servo entered state 2 or 4 (R459). -/
  lockedUs : Option Nat
  /-- Selected master, if any, and whether this clock is itself master (R423). -/
  master : Option Master
  isMaster : Bool
  /-- Consecutive offsets within LOCK_THRESHOLD, and above four times it (R429). -/
  lockRun : Nat
  badRun : Nat
  /-- Frequency estimate of the servo, as an increment (R431). -/
  freqEst : Nat
  /-- HOLDOVER was entered from GM_PPS; GM_FREE was entered from HOLDOVER (R424, R429). -/
  heldFromPps : Bool
  /-- True time at which HOLDOVER was entered last (R429). -/
  heldSince : Nat
  freeFromHold : Bool
  /-- A two-step Sync awaiting its Follow_Up: sequence, ingress time in ns, correction in ns (R423). -/
  twoStep : Option (Nat × Int × Int)
  /-- Delay_Req sent: sequence and egress time in ns; and the last Sync's t1 and t2 (R423). -/
  delayReq : Option (Nat × Int)
  lastSync : Int × Int
  /-- Pdelay_Req sent on each port: sequence and egress time; and link delay of each port, ns. -/
  pdelayReq : Vector (Option (Nat × Int)) 4
  linkDelay : Vector Nat 4
  seqOut : W16
  /-- SECONDS of a TIME_SET waiting for a PPS edge (R433). -/
  atPps : Option Nat
  triggers : Vector Trigger 8
  captures : Vector CapIn 4
  /-- The capture page, double-buffered (R439). -/
  page : Paged Bytes
  pageSeq : W32
  deriving DecidableEq, Repr

/-- TIME after reset (R441). -/
def TimeB.reset : TimeB :=
  { servo := .freeRun, offset := 0, pathDelay := 0, steps := 0, missed := 0, utcOffset := 37, leap := 0, leapAt := 0,
    utcValid := false, utcFromMaster := false, fromRtc := true, ppsUs := none, lockedUs := none, master := none, isMaster := false, lockRun := 0,
    badRun := 0, freqEst := 0x0400000000, heldFromPps := false, heldSince := 0, freeFromHold := false, twoStep := none,
    delayReq := none, lastSync := (0, 0), pdelayReq := Vector.replicate 4 none, linkDelay := Vector.replicate 4 0,
    seqOut := 0, atPps := none, triggers := Vector.replicate 8 Trigger.off, captures := Vector.replicate 4 CapIn.reset,
    page := Paged.both [], pageSeq := 0 }

/-! ### Process inputs and outputs (R373 to R386) -/

/-- A general analog input: the newest conversion and the settling count (R376, R377). -/
structure Ain where
  raw : Int
  value : W64
  /-- STATUS without SETTLING and VALID: LIMIT, WIRE_BREAK, OVER, UNDER. -/
  marks : Nat
  settling : Nat
  converted : Bool
  endUs : Nat
  deriving DecidableEq, Repr

/-- An analog input after BOOT. -/
def Ain.reset : Ain := ⟨0, 0, 0, 3, false, 0⟩

/-- A digital input: its filtered pin level, counts and last edges (R378, R379). -/
structure Din where
  pin : Bool
  rise : W32
  fall : W32
  seen : Nat
  level : Bool
  at_ : Stamp
  edgeUs : Nat
  interval : Nat
  deriving DecidableEq, Repr

/-- A digital input after BOOT. -/
def Din.reset : Din := ⟨false, 0, 0, 0, false, ⟨0, 0⟩, 0, 0⟩

/-- A digital output: driven and pad level, safe state, and the fault action of R384. -/
structure DOut where
  level : Bool
  pad : Bool
  safe : Bool
  everDriven : Bool
  faultSafe : Bool
  changedUs : Nat
  deriving DecidableEq, Repr

/-- A digital output before the end of BOOT. -/
def DOut.reset : DOut := ⟨false, false, true, false, false, 0⟩

/-- A PWM output: duty and period applied, and what waits for the period boundary (R380). -/
structure PwmOut where
  duty : W32
  next : Option W32
  period : Nat
  safe : Bool
  deriving DecidableEq, Repr

/-- A PWM output before the end of BOOT. -/
def PwmOut.reset : PwmOut := ⟨0, none, 250000, true⟩

/-- The PIO block. -/
structure Pio where
  ain : Vector Ain 16
  din : Vector Din 32
  dos : Vector DOut 24
  pwm : Vector PwmOut 8
  /-- Outputs are high impedance: from reset to the end of BOOT (R381). -/
  hiZ : Bool
  fault : W32
  samples : W32
  /-- The two latch buffers in Atrium bank 0 and which is current (R374). -/
  bufs : Vector Bytes 2
  cur : Bool
  /-- Tick of the last sample. -/
  sampleTick : Option TickId
  /-- PIO_OWNER_CONFLICT has been recorded in this boot (R383). -/
  conflict : Bool
  deriving DecidableEq, Repr

/-- PIO after reset. -/
def Pio.reset : Pio :=
  { ain := Vector.replicate 16 Ain.reset, din := Vector.replicate 32 Din.reset, dos := Vector.replicate 24 DOut.reset,
    pwm := Vector.replicate 8 PwmOut.reset, hiZ := true, fault := 0, samples := 0, bufs := Vector.replicate 2 [],
    cur := false, sampleTick := none, conflict := false }

/-! ### Control engines (R245 to R309) -/

/-- A task entry of a block image with its engine (*Task entry*). -/
structure BTask where
  engine : Nat
  task : Nat
  prio : Nat
  flags : Nat
  cycle : Nat
  phase : Nat
  entry : Nat
  inAddr : Nat
  inLen : Nat
  outLen : Nat
  outAddr : Nat
  abortLimit : Nat
  deriving DecidableEq, Repr

/-- An input map entry. -/
structure BIn where
  engine : Nat
  source : Nat
  task : Nat
  index : Nat
  srcOff : Nat
  imgOff : Nat
  len : Nat
  deriving DecidableEq, Repr

/-- An output map entry. -/
structure BOut where
  engine : Nat
  dest : Nat
  task : Nat
  index : Nat
  imgOff : Nat
  deriving DecidableEq, Repr

/-- An instance entry. -/
structure BInst where
  engine : Nat
  id : Nat
  typeIdx : Nat
  task : Nat
  addr : Nat
  size : Nat
  deriving DecidableEq, Repr

/-- A type entry. -/
structure BType where
  engine : Nat
  id : Nat
  rev : Nat
  code : Nat
  size : Nat
  crc : Nat
  deriving DecidableEq, Repr

/-- A variable entry. -/
structure BVar where
  engine : Nat
  id : Nat
  kind : Nat
  dtype : Nat
  addr : Nat
  deriving DecidableEq, Repr

/-- A block image as CTRL reads it (R265). -/
structure BImg where
  id : Nat
  rev : Nat
  code : Vector Bytes 2
  init : Vector Bytes 2
  tasks : List BTask
  ins : List BIn
  outs : List BOut
  insts : List BInst
  types : List BType
  vars : List BVar
  raw : Bytes
  deriving DecidableEq, Repr

/-- A journal entry: address, size and previous contents (R247). -/
structure JEntry where
  addr : Nat
  old : Bytes
  deriving DecidableEq, Repr

/-- An execution in progress (R249, R250). `regs` holds g0 to g15 while it does not run. -/
structure Run where
  task : Nat
  prio : Nat
  started : Bool
  pc : W32
  regs : Vector W64 16
  /-- Link stack entries of this execution, newest first: return address, and g14 if pushed by CALLB. -/
  links : List (W32 × Option W64)
  journal : List JEntry
  overflowed : Bool
  div0 : Bool
  /-- Release instant in µs of PTP time, and the monotonic µs of its start. -/
  release : Nat
  beganUs : Nat
  /-- This is the re-execution after a lockstep mismatch (R263). -/
  again : Bool
  deriving DecidableEq, Repr

/-- A control engine: register file, TCMs, executions in progress (the running one is that of highest priority), and the
instants of its lockstep mismatches (R245, R264). -/
structure Engine where
  regs : Vector W64 16
  data : List Host.Cell
  code : List Host.Cell
  runs : List Run
  mismatches : List Nat
  deriving DecidableEq, Repr

/-- An engine after reset. -/
def Engine.reset : Engine := ⟨Vector.replicate 16 0, [], [], [], []⟩

/-- The lasting state of a task (R260 to R262, R277). -/
inductive TaskMode where
  | waiting
  | stopped
  | aborted
  | faulted
  deriving DecidableEq, Repr

/-- What CTRL keeps of a task of the running image. -/
structure TaskSt where
  engine : Nat
  task : Nat
  mode : TaskMode
  cycleCount : W32
  /-- Releases not executed since the previous execution, and since the cold start. -/
  skipped : W32
  skippedAll : W32
  overruns : W32
  lastRun : W32
  /-- LAST_RUN_US of the execution before the last (R488). -/
  runPrev : W32
  maxRun : W32
  release : Nat
  releaseMono : Nat
  journalPeak : Nat
  faultPc : Nat
  faultAddr : Nat
  /-- Consecutive skipped releases (R260). -/
  misses : Nat
  overflowed : Bool
  div0 : Bool
  firstScan : Bool
  restarted : Bool
  afterChange : Bool
  stepped : Bool
  /-- The Landing: input image as assembled, output image as last published (R254, R256). -/
  landIn : Bytes
  landOut : Bytes
  /-- The publication before that one, and the monotonic µs of the last: a source is read as it stood at the start of the
  release tick (R254). -/
  landPrev : Bytes
  landUs : Nat
  /-- Monotonic µs of the last release instant dealt with. -/
  instant : Option Nat
  /-- A publication waits for OUTPUT_APPLY (R32). -/
  toApply : Bool
  deriving DecidableEq, Repr

/-- A task after a cold start. -/
def TaskSt.fresh (engine task : Nat) : TaskSt :=
  { engine := engine, task := task, mode := .waiting, cycleCount := 0, skipped := 0, skippedAll := 0, overruns := 0,
    lastRun := 0, runPrev := 0, maxRun := 0, release := 0, releaseMono := 0, journalPeak := 0, faultPc := 0xFFFFFFFF, faultAddr := 0,
    misses := 0, overflowed := false, div0 := false, firstScan := true, restarted := false, afterChange := false,
    stepped := false, landIn := [], landOut := [], landPrev := [], landUs := 0, instant := none, toApply := false }

/-- A force (R290 to R297). -/
structure Force where
  var : Nat
  dtype : Nat
  keyId : Nat
  sec : Nat
  value : Nat
  deriving DecidableEq, Repr

/-- A staged image in delivery (R124, R266). -/
structure Stage where
  code : Nat
  validation : Nat
  section_ : Nat
  entry : Nat
  field : Nat
  id : Nat
  rev : Nat
  length : Nat
  received : Bytes
  deriving DecidableEq, Repr

/-- Nothing staged. -/
def Stage.empty : Stage := ⟨0, 0, 0, 0, 0, 0, 0, 0, []⟩

/-- Where an online change stands (R299). -/
inductive ChangePhase where
  | preparing
  | prepared
  | draining
  | exchanged
  deriving DecidableEq, Repr

/-- A held release (R299, R303): its release instant, the monotonic µs at which it was due, and in SHADOW the input image that came
from the active device (R255). -/
structure HeldRelease where
  engine : Nat
  task : Nat
  rel : Nat
  mono : Nat
  image : Option Bytes
  deriving DecidableEq, Repr

/-- An online change in progress. Times are in µs: `at_` the change tick T on the PTP timescale. -/
structure Change where
  options : Nat
  at_ : Nat
  atMono : Nat
  drainMax : Nat
  phase : ChangePhase
  held : List HeldRelease
  exchangeMono : Nat
  /-- STAGE of the staged image before the change, and ENGINES to CHANGES of the change result once the exchange has run. -/
  prior : Nat
  body : Bytes
  deriving DecidableEq, Repr

/-- A switch of the control runtime that waits or drains, as steps 2 to 5 of R299 (R518): T in monotonic µs, the drain limit,
and the held releases. -/
structure RtSwap where
  atMono : Nat
  drainMax : Nat
  draining : Bool
  held : List HeldRelease
  deriving DecidableEq, Repr

/-- The CTRL block. -/
structure Ctrl where
  engines : Vector Engine 2
  running : Option BImg
  stage : Stage
  staged : Option BImg
  tasks : List TaskSt
  forces : List Force
  change : Option Change
  swap : Option RtSwap
  /-- LOCKSTEP_STOP (R264). -/
  lockstepStop : Bool
  flashA : Option Bytes
  flashB : Option Bytes
  /-- Selector: false slot A, true slot B (R253). -/
  selector : Bool
  flashWrite : Bool
  recovered : W32
  unrecovered : W32
  overruns : W32
  aborts : W32
  taskFaults : W32
  journalOverflows : W32
  onlineChanges : W32
  changesNotMade : W32
  deriving DecidableEq, Repr

/-- CTRL after the first reset: no image, no force. -/
def Ctrl.reset : Ctrl :=
  { engines := Vector.replicate 2 Engine.reset, running := none, stage := Stage.empty, staged := none, tasks := [],
    forces := [], change := none, swap := none, lockstepStop := false, flashA := none, flashB := none, selector := false,
    flashWrite := false, recovered := 0, unrecovered := 0, overruns := 0, aborts := 0, taskFaults := 0,
    journalOverflows := 0, onlineChanges := 0, changesNotMade := 0 }

/-! ### Valve axes (R387 to R413) -/

/-- A motion goal: the goal fields of *Axis command record* (R392). -/
structure Goal where
  mode : Nat
  target : Int
  vmax : Nat
  amax : Nat
  jmax : Nat
  current : Nat
  deriving DecidableEq, Repr

/-- A stop. -/
def Goal.stop : Goal := ⟨0, 0, 0, 0, 0, 0⟩

/-- STATE of an axis (R408). -/
inductive AxisState where
  | standstill
  | moving
  | stopping
  | homing
  deriving DecidableEq, Repr

/-- The leg a homing is on (R405): towards the end stop or switch, stopping after the switch, back off the switch, on to
the index. -/
inductive HomeLeg where
  | out
  | stop
  | back
  | index
  deriving DecidableEq, Repr

/-- A homing in progress: the HOME_REQ value it serves, microsteps issued since it started, and its leg. -/
structure Homing where
  req : Nat
  issued : Nat
  leg : HomeLeg
  deriving DecidableEq, Repr

/-- A valve axis. Positions are in microsteps; `frac` is the position below a microstep and `vel` the speed in units of
2^-32 microstep/s, `frac` in units of 2^-32/25,000 microstep, `acc` the speed change of the last period. -/
structure Axis where
  pos : Int
  frac : Int
  vel : Int
  acc : Int
  goal : Goal
  /-- Applied target after conversion and clamping (R391, R393). -/
  target : Int
  limit : Bool
  atTarget : Bool
  homed : Bool
  unverified : Bool
  stallLatched : Bool
  driveFault : Bool
  faultCause : Nat
  safe : Bool
  cmdInvalid : Bool
  state : AxisState
  /-- STANDSTILL code: 0 OFF, 1 SHORTED, 2 HOLD, 3 run current within the delay. -/
  still : Nat
  homeDone : Nat
  homeResult : Nat
  homeReq : Nat
  ackDone : Nat
  /-- The owning task has published a record since it gained the axis (R391). -/
  gained : Bool
  home : Option Homing
  /-- A goal that takes effect when the homing ends (R392), or the owning task's goal after a host move (R411). -/
  nextGoal : Option Goal
  /-- A published record waiting for its profile period (R391). -/
  record : Option Bytes
  /-- A host command executes on the axis; true for a homing (R409, R410). -/
  host : Option Bool
  lost : Int
  fwd : W32
  rev : W32
  stalls : W32
  gamma : W32
  estValid : Bool
  /-- The load angle of the last valid period, its unwrapped value γ_u, and the consecutive valid periods above STALL_ANGLE (R398,
  R399). Angles are in units of 2^-32 degree. -/
  gammaLast : Int
  gammaU : Int
  aboveRun : Nat
  /-- With STALL_ACTION 0: the unwrapped angle of a stall whose estimate is due, and valid periods below STALL_ANGLE since (R400). -/
  stallOpen : Option (Int × Nat)
  iA : W32
  iB : W32
  /-- Period means of the phase currents, the set currents, in units of 2^-40 µA, and the integrators of the two regulators in units
  of 2^-64 of full duty (R390). -/
  meanA : Int
  meanB : Int
  setA : Int
  setB : Int
  sumA : Int
  sumB : Int
  /-- Consecutive periods with the measured current below half the set current (R407). -/
  openRun : Nat
  /-- The highest-ranked event of a profile period: the number of the period, and its rank in R407. -/
  event : Option (Nat × Nat)
  /-- Phase duties of the period as high times of PWM_A1 and PWM_B1, units of 4 ns (R389). -/
  highA : Nat
  highB : Nat
  /-- Monotonic µs at which the axis came to rest. -/
  restUs : Nat
  /-- Monotonic µs before which no microstep is issued: 2 ms after leaving OFF or SHORTED (R395). -/
  readyUs : Nat
  /-- Logical level of the index input in the last period (R405). -/
  indexLevel : Bool
  /-- The status records of the last period and of the one before it, and the monotonic µs at which the last period began (R408). -/
  status : Bytes
  statusPrev : Bytes
  periodUs : Option Nat
  deriving DecidableEq, Repr

/-- An axis after the first power-on. -/
def Axis.reset : Axis :=
  { pos := 0, frac := 0, vel := 0, acc := 0, goal := Goal.stop, target := 0, limit := false, atTarget := false,
    homed := false, unverified := true, stallLatched := false, driveFault := false, faultCause := 0, safe := true,
    cmdInvalid := false, state := .standstill, still := 0, homeDone := 0, homeResult := 0, homeReq := 0, ackDone := 0,
    gained := false, home := none, nextGoal := none, record := none, host := none, lost := 0, fwd := 0, rev := 0,
    stalls := 0, gamma := 0x7FC00000, estValid := false, gammaLast := 0, gammaU := 0, aboveRun := 0, stallOpen := none, iA := 0, iB := 0,
    meanA := 0, meanB := 0, setA := 0, setB := 0, sumA := 0, sumB := 0, openRun := 0, event := none, highA := 0, highB := 0,
    restUs := 0, readyUs := 0, indexLevel := false, status := [], statusPrev := [], periodUs := none }

/-- The VAX block. -/
structure Vax where
  axes : Vector Axis 8
  stalls : W32
  driveFaults : W32
  homings : W32
  /-- POSITION and LOST_STEPS retained over a supply loss (R402). -/
  retained : Option (Vector (Int × Int) 8)
  /-- The watchdog of the motion sequencer has driven every VAXa_EN low (*Engine watchdogs*, R533). -/
  enLow : Bool
  deriving DecidableEq, Repr

/-- VAX after the first power-on. -/
def Vax.reset : Vax :=
  { axes := Vector.replicate 8 Axis.reset, stalls := 0, driveFaults := 0, homings := 0, retained := none, enLow := false }

/-! ### Ethernet (R414 to R440) -/

/-- A learned address (R416): VLAN, address, port, and the true time of its last frame. -/
structure Learned where
  vid : Nat
  mac : Nat
  port : Nat
  seen : Nat
  deriving DecidableEq, Repr

/-- PORT_STATUS of an external port (R440). -/
structure PortLink where
  up : Bool
  speed : Nat
  high : Bool
  deriving DecidableEq, Repr

/-- The switch. -/
structure EthB where
  table : List Learned
  links : Vector PortLink 4
  rxErrors : Vector W32 4
  /-- QUEUE_DROPS of the four external ports and, last, of the internal port. -/
  queueDrops : Vector W32 5
  vlanDrops : W32
  deriving DecidableEq, Repr

/-- ETH after reset: every port disabled and nothing learned (R417). -/
def EthB.reset : EthB :=
  { table := [], links := Vector.replicate 4 ⟨false, 0, false⟩, rxErrors := Vector.replicate 4 0,
    queueDrops := Vector.replicate 5 0, vlanDrops := 0 }

/-! ### Calendar (R442 to R460) -/

/-- The RTC. The calendar is held as seconds since 2000-01-01 00:00:00 within the 400-year cycle (R445), from which
RTC_DATE and RTC_TIME are read; `since` is the true time at which it entered that second. -/
structure Rtc where
  cal : Nat
  dst : Bool
  repeated : Bool
  /-- The calendar value at which the repeated hour ends (R452). -/
  repEnd : Nat
  since : Nat
  /-- A pending summer-time adjustment: forward or not (R452). -/
  dstPending : Option Bool
  /-- A step of R448 due at the next second boundary: the difference in µs. -/
  stepDue : Option Int
  wrapped : Bool
  lost : Bool
  inBackup : Bool
  alarm1 : Bool
  alarm0 : Bool
  /-- Bytes 1 to 8 of *RTC_ALARM_SET request* of each alarm. -/
  alarms : Vector Bytes 2
  /-- The alarm configurations in the parameter store (R446). -/
  alarmStore : Vector Bytes 2
  /-- Monotonic µs of each alarm's last firing (R454). -/
  fired : Vector (Option Nat) 2
  /-- The alarm and the RTC_DATE and RTC_TIME of the first firing in BACKUP (R457). -/
  backupFired : Option (Nat × Nat × Nat)
  adjustments : W32
  /-- Latches of RTC_TIME and RTC_SUBSEC by transport (R443). -/
  latch : Vector (Option (Nat × Nat)) 3
  /-- The inserted leap second at this UTC day boundary has been shown; a deleted one is still to be passed (R449). -/
  leapShown : Nat
  leapSkip : Option Nat
  /-- Die temperature in 0.01 °C, f of the last sample without the phase term, and the phase term, in ppb (R458). -/
  temp : Int
  trim : Int
  phase : Int
  /-- Crystal cycles that the current second counts, and what the fractional accumulator holds, in 2^-16 cycle (R458). -/
  cycles : Nat
  cycleFrac : Nat
  /-- Learned trim points in ppb, and whether a window has written one (R429, R459). -/
  learned : Vector Int 17
  hasLearned : Bool
  /-- The learned table as it lies in MRAM. -/
  saved : Vector Int 17
  savedAny : Bool
  /-- The always-on domain has restarted since the last BOOT (R446). -/
  restarted : Bool
  deriving DecidableEq, Repr

/-- The RTC after an always-on power-on (R442, R446). -/
def Rtc.reset : Rtc :=
  { cal := 0, dst := false, repeated := false, repEnd := 0, since := 0, dstPending := none, stepDue := none,
    wrapped := false, lost := true, inBackup := false, alarm1 := false, alarm0 := false,
    alarms := Vector.replicate 2 (zeros 8),
    alarmStore := Vector.replicate 2 (zeros 8), fired := Vector.replicate 2 none, backupFired := none, adjustments := 0,
    latch := Vector.replicate 3 none, leapShown := 0, leapSkip := none, temp := 0, trim := 0, phase := 0, cycles := 32768,
    cycleFrac := 0, learned := Vector.replicate 17 0, hasLearned := false, saved := Vector.replicate 17 0, savedAny := false,
    restarted := true }

/-! ### Status display (R461 to R479) -/

/-- A rectangle of pixels. -/
structure Rect where
  x : Nat
  y : Nat
  w : Nat
  h : Nat
  deriving DecidableEq, Repr

/-- An update request (R470, R471). Region 16 is the whole panel; waveform codes as in *Waveforms*. -/
structure EpdReq where
  id : Nat
  region : Nat
  rect : Rect
  waveform : Nat
  /-- Every line is taken as changed: CLEAR and automatic refresh. -/
  all : Bool
  /-- An automatic refresh (R468). -/
  auto : Bool
  deriving DecidableEq, Repr

/-- A running update (R470, R472): its request, latched band, changed lines, phases still to come, start, and marks. -/
structure EpdRun where
  req : EpdReq
  band : Nat
  lines : List Nat
  count : Nat
  left : Nat
  start : Stamp
  startUs : Nat
  invalid : Bool
  drift : Bool
  /-- The strips' contents that it draws (region 0, 1 or 16). -/
  strips : Vector Bytes 2
  deriving DecidableEq, Repr

/-- The display. An image lists its pixels that are not white, by y · 1,600 + x; the strips' contents are held as the
values they show, since the manual gives no glyphs (log entry 30). -/
structure Epd where
  canvas : List (Nat × Nat)
  target : List (Nat × Nat)
  current : List (Nat × Nat)
  rects : Vector Rect 16
  queue : List EpdReq
  running : List EpdRun
  nextId : Nat
  /-- EPD_PWR_EN and EPD_PWR_GOOD. -/
  power : Bool
  good : Bool
  /-- Monotonic µs at which the last running update ended. -/
  endUs : Nat
  /-- Latest valid sample in 2^-32 °C, its true time, and the band (R466). -/
  temp : Option Int
  sampleUs : Nat
  band : Nat
  recovery : Bool
  /-- Contents of the strips when last requested, and as last driven to the panel. -/
  asked : Vector Bytes 2
  shown : Vector Bytes 2
  crcRef : W32
  updates : W32
  superseded : W32
  bandDrifts : W32
  crcErrors : W32
  deriving DecidableEq, Repr

/-- EPD after reset: nothing queued, supply off (R473, R479). -/
def Epd.reset : Epd :=
  { canvas := [], target := [], current := [], rects := Vector.replicate 16 ⟨0, 0, 0, 0⟩, queue := [], running := [],
    nextId := 0, power := false, good := false, endUs := 0, temp := none, sampleUs := 0, band := 4, recovery := false,
    asked := Vector.replicate 2 [], shown := Vector.replicate 2 [], crcRef := 0, updates := 0, superseded := 0,
    bandDrifts := 0, crcErrors := 0 }

/-! ### Substation link (R220 to R244) -/

/-- A substation datagram as received: source address and port, UDP payload, and the hardware receive time. -/
structure SublMsg where
  ip : Nat
  port : Nat
  data : Bytes
  at_ : Stamp
  deriving DecidableEq, Repr

/-- The keys of a substation's generation in the substation table: both keys, wrapped under the wrap key with their nonce and tag
(R222, R224). -/
structure SublKeys where
  gen : Nat
  nonce : Bytes
  wrapped : Bytes
  tag : Bytes
  deriving DecidableEq, Repr

/-- A filed report (R233): measurement time, ordering value and 96-byte body. -/
structure Filed where
  meas : Stamp
  order : Nat
  body : Bytes
  deriving DecidableEq, Repr

/-- The report counters of an entry, and of the device (R232). -/
structure SublCounts where
  received : W32
  accepted : W32
  duplicate : W32
  full : W32
  auth : W32
  stale : W32
  deriving DecidableEq, Repr

/-- Setpoint counts (R242, R243). -/
structure SetCounts where
  issued : W32
  confirmed : W32
  expired : W32
  late : W32
  rejected : W32
  deriving DecidableEq, Repr

/-- A registered substation (R227 to R233, R239 to R243). -/
structure SublEntry where
  index : Nat
  gen : Nat
  prevGen : Option Nat
  sourceIp : Nat
  subId : Nat
  /-- V and the ordering values that the replay window marks (R231). -/
  highest : Option Nat
  seen : List Nat
  /-- Address and port of the latest accepted report since registration or boot. -/
  addr : Option (Nat × Nat)
  counts : SublCounts
  sets : SetCounts
  /-- The keys in the substation table: of the current generation, and of the previous one while it is held (R224, R228). -/
  keys : List SublKeys
  /-- The report filed, in two slots: a cut in the tick of a filing freezes the slot of before (R237). -/
  filed : Paged (Option Filed)
  /-- The slot frozen at the last cut (R237). -/
  frozen : Option Filed
  /-- Round and monotonic µs of issue of the outstanding setpoint (R242). -/
  outstanding : Option (Nat × Nat)
  lastResult : Nat
  /-- EPOCH last used and next SEQUENCE[30:0] (R240). -/
  epoch : Nat
  nextSeq : Nat
  /-- Monotonic µs of the last RETRY_AFTER (R235). -/
  lastRetry : Option Nat
  deriving DecidableEq, Repr

/-- A registration or removal that waits for a cut (R227, R229): the keys are already wrapped for the table. -/
structure SublOp where
  index : Nat
  remove : Bool
  gen : Nat
  sourceIp : Nat
  subId : Nat
  keys : List SublKeys
  deriving DecidableEq, Repr

/-- The cut vector of Atrium bank 1 (R28, R238): round, cut instant, the PIO sample, metrology pages 0 and 2, and the
substation section, 104 bytes an entry, with its COMPLETE flag. -/
structure CutVec where
  round : Nat
  at_ : Stamp
  pio : Bytes
  thermal : Bytes
  electrical : Bytes
  /-- OPENING of each axis in binary32 while it is valid (R404). -/
  axes : List (Option Nat)
  subl : List (Nat × Bytes)
  complete : Bool
  deriving DecidableEq, Repr

/-- No cut vector yet. -/
def CutVec.empty : CutVec := ⟨0, ⟨0, 0⟩, [], [], [], [], [], false⟩

/-- The Concourse. -/
structure Subl where
  /-- Registered entries in ascending SUBL_INDEX. -/
  entries : List SublEntry
  ops : List SublOp
  buffer : List SublMsg
  peak : Nat
  foreign : W32
  retrySuppressed : W32
  totals : SublCounts
  setTotals : SetCounts
  withheld : W32
  /-- Keys wrapped for the table since the wrap key was drawn: the next nonce (log entry 108). -/
  wraps : Nat
  /-- Highest EPOCH used, and what DOWNLINK_STATE_SAVE wrote: the EPOCH, and SEQUENCE by index and KEY_GEN (R240). -/
  epochHigh : Nat
  epochSaved : Nat
  seqSaved : List (Nat × Nat)
  /-- Ordering under the generations that no entry uses any more, so that no nonce repeats: index, KEY_GEN, EPOCH, next SEQUENCE
  (R240). -/
  left : List (Nat × Nat × Nat × Nat)
  /-- The cut vectors of bank 1: current and previous (R15). -/
  cut : CutVec
  prevCut : CutVec
  /-- The last cut: the steps of the clock before it, and its second. -/
  lastCut : Option (Nat × Nat)
  /-- Instant at which the section of the substations was last complete, in µs (R238). -/
  sealedUs : Nat
  deriving DecidableEq, Repr

/-- Counters at zero. -/
def SublCounts.zero : SublCounts := ⟨0, 0, 0, 0, 0, 0⟩
def SetCounts.zero : SetCounts := ⟨0, 0, 0, 0, 0⟩

/-- The Concourse of a device on which no substation is registered. -/
def Subl.reset : Subl :=
  { entries := [], ops := [], buffer := [], peak := 0, foreign := 0, retrySuppressed := 0, totals := SublCounts.zero,
    setTotals := SetCounts.zero, withheld := 0, wraps := 0, epochHigh := 0, epochSaved := 0, seqSaved := [], left := [],
    cut := CutVec.empty, prevCut := CutVec.empty, lastCut := none, sealedUs := 0 }

/-! ### Network model and rounds (R105 to R136, R178 to R219)

Reals are binary64 bits. -/

structure MStation where
  id : Nat
  pmax : Nat
  deriving DecidableEq, Repr

structure MNode where
  id : Nat
  side : Nat
  kind : Nat
  zone : Nat
  elev : Nat
  pref : Nat
  inj : Nat
  deriving DecidableEq, Repr

structure MBranch where
  id : Nat
  src : Nat
  dst : Nat
  type : Nat
  elem : Nat
  init : Nat
  deriving DecidableEq, Repr

structure MPipe where
  len : Nat
  dia : Nat
  rough : Nat
  loss : Nat
  zeta : Nat
  grp : Nat
  deriving DecidableEq, Repr

structure MPump where
  station : Nat
  h0 : Nat
  h1 : Nat
  h2 : Nat
  mmax : Nat
  eta : Nat
  deriving DecidableEq, Repr

structure MValve where
  chr : Nat
  tight : Bool
  table : Nat
  kvs : Nat
  rng : Nat
  fixed : Nat
  deriving DecidableEq, Repr

structure MSubst where
  idx : Nat
  prosumer : Bool
  critical : Bool
  kvs : Nat
  khx : Nat
  dpMin : Nat
  design : Nat
  rng : Nat
  deriving DecidableEq, Repr

structure MPlant where
  kind : Nat
  kint : Nat
  pmin : Nat
  pmax : Nat
  tmax : Nat
  mmax : Nat
  deriving DecidableEq, Repr

structure MStore where
  layers : Nat
  zone : Nat
  vol : Nat
  ua : Nat
  mCharge : Nat
  mDischarge : Nat
  kint : Nat
  deriving DecidableEq, Repr

structure MBind where
  src : Nat
  field : Nat
  srcIdx : Nat
  qty : Nat
  sub : Nat
  target : Nat
  sigma : Nat
  deriving DecidableEq, Repr

/-- A Mizon image as NMOD reads it (R122): its sections as entries, and its bytes. -/
structure Mizon where
  id : Nat
  rev : Nat
  zones : List Nat
  stations : List MStation
  nodes : List MNode
  branches : List MBranch
  pipes : List MPipe
  pumps : List MPump
  valves : List MValve
  tables : List (List Nat)
  substs : List MSubst
  plants : List MPlant
  stores : List MStore
  binds : List MBind
  raw : Bytes
  deriving DecidableEq, Repr

/-- A plug of a pipe (R114): volume, temperature, and its pairs of calibration group and exponent, newest first. -/
structure Plug where
  vol : Nat
  temp : Nat
  exps : List (Nat × Nat)
  deriving DecidableEq, Repr

/-- The carried state of the network (R108, R129): node pressures and temperatures, branch flows, plugs of each pipe from
its FROM end, cells of each store from the top, by binding the last valid value of an exact input, and the branch flows of the last
thermal advance. -/
structure NetState where
  pres : List Nat
  temp : List Nat
  flow : List Nat
  plugs : List (List Plug)
  cells : List (List Nat)
  held : List (Option Nat)
  adv : List Nat
  deriving DecidableEq, Repr

/-- A network with nothing in it. -/
def NetState.empty : NetState := ⟨[], [], [], [], [], [], []⟩

/-- A front (R192): candidate, ordinal, delay in binary32, temperature behind it. -/
structure Front where
  idx : Nat
  ordinal : Nat
  delay : Nat
  temp : Nat
  deriving DecidableEq, Repr

/-- An estimation result (R214). -/
structure EstRes where
  status : Nat
  flags : Nat
  round : Nat
  cutSec : Nat
  modelId : Nat
  rev : Nat
  rho : Nat
  rhoWarm : Nat
  steps : Nat
  best : Nat
  cgIters : Nat
  regs : Nat
  held : Nat
  measured : Nat
  absent : Nat
  makeup : Nat
  critDp : Nat
  critIdx : Nat
  checkClosed : Nat
  thermRes : Nat
  published : Stamp
  pres : List Nat
  temp : List Nat
  flow : List Nat
  fronts : List Front
  deriving DecidableEq, Repr

/-- An estimation result with status OK or DEADLINE_BEST, from which an optimisation round starts (R197): the result, the network after
its thermal advance, the bound values of its round, and its last H and factor. -/
structure StateRound where
  res : EstRes
  net : NetState
  vals : List (Option Nat)
  h : List (List (Nat × Nat))
  factor : List Nat
  factorRows : List (List (Nat × Nat))
  closed : List Nat
  fixed : List (Option Nat)
  deriving DecidableEq, Repr

/-- An iterate of a round (R187). -/
structure Iterate where
  step : Nat
  rho : Nat
  pres : List Nat
  flow : List Nat
  deriving DecidableEq, Repr

/-- A one-second round that runs (R178 to R190). `vals` holds by binding the value it brings to this round, if any;
`fixed` by branch the flow the inputs fix; `closed` the pumps check-closed. `sum` is the H and g of the step. -/
structure EstRun where
  round : Nat
  cut : Nat
  deadline : Nat
  jobDeadline : Nat
  /-- Bindings are resolved: the cut vector is complete (R180, R238). -/
  resolved : Bool
  vals : List (Option Nat)
  held : Nat
  measured : Nat
  absent : Nat
  fixed : List (Option Nat)
  closed : List Nat
  warm : Iterate
  cur : Iterate
  best : Option Iterate
  rhoWarm : Nat
  cgIters : Nat
  regs : Nat
  flags : Nat
  h : List (List (Nat × Nat))
  g : List Nat
  factor : List Nat
  factorRows : List (List (Nat × Nat))
  deriving DecidableEq, Repr

/-- A forecast series (R199): KIND, INDEX, START_SECONDS, SERIES_STEP, VALUES. -/
abbrev Series := Nat × Nat × Nat × Nat × List Nat

/-- The adjoint solve of a calibration sample (R133): the round's cut, H and factor, the gradient Jᵀ·W·r at its result, and by group the
part of the roughness derivative at fixed pressures, the vector Jᵀ·W·∂r/∂θ, and the heat-loss derivative. -/
structure CalRun where
  cut : Nat
  h : List (List (Nat × Nat))
  factor : List Nat
  factorRows : List (List (Nat × Nat))
  grad : List Nat
  groups : List (Nat × Nat × List Nat × Nat)
  deriving DecidableEq, Repr

/-- A point of the interior-point method (R201): the variables step by step, the multipliers of the equality rows, of the lower and
the upper bounds, and the slacks and multipliers of the general inequalities. -/
structure QPoint where
  x : List Nat
  lam : List Nat
  zl : List Nat
  zu : List Nat
  sl : List Nat
  zi : List Nat
  deriving DecidableEq, Repr

/-- A trajectory (R204, R215): its step records in the order of R215, the series and the configuration of its round, which give its
comfort temperatures and costs, what was published of it, and what its merit is evaluated from again (R207): its point, and by candidate
γ of each station with κ last (R197). -/
structure Traj where
  status : Nat
  start : Nat
  dt : Nat
  plants : Nat
  stations : Nat
  stores : Nat
  crit : List Nat
  steps : List (List Nat)
  series : List Series
  cfg : Bytes
  objective : Nat
  merit : Nat
  primal : Nat
  dual : Nat
  gap : Nat
  point : QPoint
  sens : List (List Nat)
  deriving DecidableEq, Repr

/-- An optimisation result (R215). -/
structure OptRes where
  start : Nat
  status : Nat
  flags : Nat
  stateRound : Nat
  modelId : Nat
  rev : Nat
  iters : Nat
  bestIter : Nat
  minresIters : Nat
  regs : Nat
  published : Stamp
  traj : Traj
  deriving DecidableEq, Repr

/-- Where an optimisation round stands (R201): candidate solves still to run, then the three jobs of an iteration; or left by
its core (R534). -/
inductive OptPhase where
  | waiting
  | stalled
  | candidates (left : Nat)
  | factor
  | predictor
  | corrector
  deriving DecidableEq, Repr

/-- An optimisation round that runs (R193 to R208). -/
structure OptRun where
  start : Nat
  startNs : Nat
  deadline : Nat
  jobDeadline : Nat
  cfg : Bytes
  phase : OptPhase
  /-- One-second results with OK or DEADLINE_BEST counted when the round started (R31). -/
  goodBefore : Nat
  state : Option StateRound
  series : List Series
  iter : Nat
  /-- By candidate whose solve has ended, γ of each station with κ last (R197); the point, φ of it, the block factor, the x that an inner solve has committed so
  far and the predictor's step (R201, R203), and the best iterate with φ. -/
  sens : List (List Nat)
  point : QPoint
  merit : Nat
  blocks : List (List Nat)
  inner : Option (List Nat)
  pred : List Nat
  best : Option (Nat × Nat × QPoint)
  minresIters : Nat
  regs : Nat
  flags : Nat
  deriving DecidableEq, Repr

/-- The setpoint staging area (R190): round, cut, status and SOURCE, and by SUBL_INDEX the supply temperature, the
differential pressure and the comfort temperature. `fresh` until its messages are sent. -/
structure Staging where
  fresh : Bool
  round : Nat
  cutSec : Nat
  status : Nat
  source : Nat
  entries : List (Nat × Nat × Nat × Nat)
  deriving DecidableEq, Repr

/-- Nothing staged yet. -/
def Staging.empty : Staging := ⟨false, 0, 0, 4, 2, []⟩

/-- A round configuration that waits for a cut (R217): its place among those sent, the payload, and whether all but
EST_PERIOD is in effect. -/
structure RoundPend where
  place : Nat
  payload : Bytes
  begun : Bool
  deriving DecidableEq, Repr

/-- The NMOD block. -/
structure Nmod where
  active : Option Mizon
  net : NetState
  /-- The next round is the first on its model. -/
  fresh : Bool
  stage : Stage
  staged : Option Mizon
  /-- The working form of a model pending activation is built (R127). -/
  built : Bool
  flashA : Option Bytes
  flashB : Option Bytes
  selector : Bool
  flashWrite : Bool
  plugMerges : W32
  propertyClamps : W32
  roundCfg : Bytes
  roundPend : List RoundPend
  /-- The optimisation configuration and the forecast series in effect since the last round start, and what takes effect at the next
  (R199, R218). -/
  optCfg : Bytes
  optPend : Option Bytes
  forecasts : List Series
  forecastPend : List Series
  /-- Calibration: OK rounds seen, the samples (by group both derivatives), the last proposals newest first, and the calendar date of
  the last computation. -/
  calRounds : Nat
  calSamples : List (List (Nat × Nat × Nat))
  /-- A sample whose adjoint solve runs. -/
  calOpen : Option CalRun
  proposals : List Bytes
  calSeq : Nat
  calDate : Option Nat
  /-- Local minutes after midnight at the previous cut, for CALIB_TIME (R134). -/
  calMinute : Option (Nat × Nat)
  lastRound : Option Nat
  est : Option EstRun
  opt : Option OptRun
  estResults : List EstRes
  optResults : List OptRes
  /-- The newest result on the active model with status OK or DEADLINE_BEST. -/
  estGood : Option StateRound
  /-- An optimisation round is due on a model that has just become active (R130). -/
  optExtra : Bool
  /-- In SHADOW, a cut has passed whose round has not started yet (R178, R203). -/
  cutOpen : Bool
  /-- The optimiser input record (R30). -/
  record : Paged Bytes
  /-- The trajectory in force, and one that waits for recovery (R204). -/
  traj : Paged (Option Traj)
  trajNext : Option Traj
  staging : Staging
  estCounts : Vector W32 4
  optCounts : Vector W32 4
  cancelled : W32
  skipped : W32
  stalls : W32
  estLast : Nat
  optLast : Nat
  estFails : Nat
  optFails : Nat
  lastEst : Nat
  lastOpt : Nat
  deriving DecidableEq, Repr

/-- The default round configuration (R217): binary64 1.0 twice and 0.01. -/
def roundDefault : Bytes :=
  le 2 1 ++ le 2 0 ++ le 4 250000 ++ le 1 8 ++ le 1 6 ++ le 2 200 ++ le 1 2 ++ le 1 0 ++ le 2 0 ++
    le 8 0x3FF0000000000000 ++ le 8 0x3FF0000000000000 ++ le 8 0x3F847AE147AE147B

/-- The default optimisation configuration (R218): 65, 0, 1.0, 1,000, 10, 10,000, 0, 85 and 45 in binary64. -/
def optDefault : Bytes :=
  le 2 300 ++ le 2 192 ++ le 4 900 ++ le 4 120 ++ le 1 80 ++ le 1 6 ++ le 1 64 ++ le 1 0 ++
    le 8 0x4050400000000000 ++ le 8 0 ++ le 8 0x3FF0000000000000 ++ le 8 0x408F400000000000 ++
    le 8 0x4024000000000000 ++ le 8 0x40C3880000000000 ++ le 8 0 ++ le 8 0x4055400000000000 ++
    le 8 0x4046800000000000

/-- NMOD on a device without a model (R132, R219). -/
def Nmod.reset : Nmod :=
  { active := none, net := NetState.empty, fresh := false, stage := Stage.empty, staged := none, built := false,
    flashA := none, flashB := none, selector := false, flashWrite := false, plugMerges := 0, propertyClamps := 0,
    roundCfg := roundDefault, roundPend := [], optCfg := optDefault, optPend := none, forecasts := [], forecastPend := [], calRounds := 0, calSamples := [],
    calOpen := none, proposals := [], calSeq := 0, calDate := none, calMinute := none, lastRound := none, est := none,
    opt := none, estResults := [], optResults := [], estGood := none, optExtra := false, cutOpen := false, record := .both (zeros 2048),
    traj := .both none, trajNext := none, staging := Staging.empty,
    estCounts := Vector.replicate 4 0, optCounts := Vector.replicate 4 0, cancelled := 0, skipped := 0, stalls := 0,
    estLast := 0, optLast := 0, estFails := 0, optFails := 0, lastEst := 4, lastOpt := 4 }

/-! ### Solver (R137 to R177) -/

/-- The jobs NMOD submits (R182, R133, R197, R201). -/
inductive NJobKind where
  | estFactor
  | estPcg
  | calib
  | optCandidate
  | optFactor
  | optPredictor
  | optCorrector
  deriving DecidableEq, Repr

/-- A job in NMOD's ring: flights and deadline in PTP ns. -/
structure NJob where
  id : Nat
  kind : NJobKind
  /-- The cut of the round that submitted it, in PTP ns. -/
  owner : Nat
  mask : Nat
  deadline : Nat
  deriving DecidableEq, Repr

/-- A job of the host: the tag of its command, its descriptor, flights and deadline in PTP ns. -/
structure HJob where
  tag : Nat
  desc : Bytes
  mask : Nat
  deadline : Nat
  deriving DecidableEq, Repr

/-- A memory of the solver address map, by offset: what has been written, and what the rest reads as: zero, or contents that no rule
states, numbered by a draw (log entries 20 and 41). -/
structure Region where
  cells : List Host.Cell
  free : Option Nat
  deriving DecidableEq, Repr

/-- SOLV. `test` is the LPDDR4X test region, by offset; `locals` are the local memories of the flights, `work` Atrium banks 4 to 7 and
`ddr` the rest of LPDDR4X (R137, R139). -/
structure Solv where
  ring : List NJob
  nrun : Option NJob
  queue : List HJob
  hrun : Option HJob
  jobSeq : Nat
  test : List Host.Cell
  locals : Vector Region 8
  work : Region
  ddr : Region
  completed : W32
  misses : W32
  numeric : W32
  internal : W32
  regJobs : W32
  regPivots : W32
  breakdowns : W32
  parity : W32
  abandoned : W32
  deriving DecidableEq, Repr

/-- SOLV after reset (R139, R177). -/
def Solv.reset : Solv :=
  { ring := [], nrun := none, queue := [], hrun := none, jobSeq := 0, test := [], locals := Vector.replicate 8 ⟨[], none⟩,
    work := ⟨[], some 0⟩, ddr := ⟨[], some 0⟩, completed := 0, misses := 0, numeric := 0, internal := 0, regJobs := 0, regPivots := 0, breakdowns := 0, parity := 0, abandoned := 0 }

/-! ### The Gallery (R16 to R21) -/

/-- *Gallery classes*, P0 highest (R16). -/
inductive GClass where
  | p0
  | p1
  | p2
  | p3
  deriving DecidableEq, Repr

/-- An arbitration point: the port of an Atrium bank (R15), or that of a target block by its code. -/
inductive GPort where
  | bank (n : Nat)
  | block (code : Nat)
  deriving DecidableEq, Repr

/-- A burst: its initiator (numbered in the order of *Gallery tag quotas*, log entry 110), class, port, beats of 16 bytes, whether it
writes, the monotonic µs since which it waits, whether it is promoted for its next arbitration (R18), and whether its initiator has
abandoned it (R168). -/
structure Burst where
  src : Nat
  cls : GClass
  port : GPort
  beats : Nat
  write : Bool
  since : Nat
  promoted : Bool
  abandoned : Bool
  deriving DecidableEq, Repr

/-- The Gallery: bursts that wait for a grant, oldest first, those that hold a tag, the tags issued and returned (R36), and the
initiator granted last at each port in each class (R16). -/
structure Gallery where
  waiting : List Burst
  held : List Burst
  issued : Nat
  returned : Nat
  turns : List ((GPort × GClass) × Nat)
  deriving DecidableEq, Repr

/-- The Gallery after reset. -/
def Gallery.reset : Gallery := { waiting := [], held := [], issued := 0, returned := 0, turns := [] }

/-- The state of the Akanato. -/
structure State where
  clock : Clock
  sys : Sys
  pair : Pair
  hif : Hif
  evr : Evr
  sec : Sec
  tamp : Tamp
  intg : Intg
  pwr : Pwr
  mth : Mth
  mel : Mel
  bill : Bill
  time : TimeB
  pio : Pio
  /-- PIO as it stood at the instant that began the tick: what a sample holds (R374). -/
  pioBegan : Pio
  ctrl : Ctrl
  vax : Vax
  eth : EthB
  rtc : Rtc
  epd : Epd
  subl : Subl
  nmod : Nmod
  solv : Solv
  gal : Gallery
  /-- Parameter values in effect that differ from their defaults, in ascending identifier (R35). -/
  cfg : List (Nat × Nat)
  /-- Written parameter values that wait for their boundary, oldest first. -/
  cfgPending : List PendingValue
  /-- Draws taken from the free values of Config: the model's own field (log entry 11). -/
  draws : Nat
  /-- What left the device, oldest first: the model's own field (log entry 4). -/
  out : List Output
  /-- The commands waiting, first in, first out: the model's own field. -/
  pending : List Instr
  deriving DecidableEq, Repr

/-- The machine right after reset: a device fresh from production test at the release of its first main reset into
BOOT (R54, R556, R557; log entry 2). -/
def State.reset : State :=
  { clock := Clock.reset, sys := Sys.reset, pair := Pair.reset, hif := Hif.reset, evr := Evr.reset, sec := Sec.reset,
    tamp := Tamp.reset, intg := Intg.reset, pwr := Pwr.reset,
    mth := Mth.reset,
    mel := Mel.reset,
    bill := Bill.reset,
    time := TimeB.reset,
    pio := Pio.reset, pioBegan := Pio.reset,
    ctrl := Ctrl.reset,
    vax := Vax.reset,
    eth := EthB.reset,
    rtc := Rtc.reset,
    epd := Epd.reset,
    subl := Subl.reset,
    nmod := Nmod.reset,
    solv := Solv.reset,
    gal := Gallery.reset,
    cfg := [], cfgPending := [], draws := 0, out := [], pending := [] }

end Sys2Proof.Machine
end

