-- ==== Sys2Proof/Machine/Arch.lean ====
section
/-! DEFINITION. The fixed division of the Akanato: engines and memories, the banks of the Atrium, the partitions of the MRAM, the work
of the supervisor cores, and the protection of every memory (R13 to R15, R27, R529). -/

namespace Sys2Proof.Machine

/-! ### Engines and on-chip memories (R13) -/

/-- A row of *Engines*: how many, the block that owns it, its clock in kHz, and the bytes of its own local memory. -/
structure EngineRow where
  count : Nat
  block : Nat
  clockKHz : Nat
  memory : Nat
  deriving DecidableEq, Repr

def kib (n : Nat) : Nat := n * 1024

/-- *Engines*, in the order of the table; the L2 that the supervisor cores share is in *On-chip SRAM*. -/
def engineRows : List EngineRow :=
  [⟨4, 0x01, 1200000, kib 128⟩, ⟨8, 0x03, 1000000, kib 1024⟩, ⟨2, 0x06, 500000, kib 512⟩, ⟨1, 0x07, 250000, kib 512⟩,
    ⟨1, 0x0B, 250000, 0⟩, ⟨1, 0x11, 250000, kib 256⟩, ⟨1, 0x05, 500000, 0⟩, ⟨1, 0x0F, 200000, kib 2048⟩, ⟨1, 0x14, 33, kib 64⟩]

/-- *On-chip SRAM* in bytes: Atrium, flights, L2, L1, TCMs, metrology engine, Cloister, frame memory, Vestibule, retention. -/
def sramRows : List Nat :=
  [kib 16384, 8 * kib 1024, kib 1024, 4 * kib 128, 2 * kib 512, kib 512, kib 256, kib 2048, kib 512, kib 64]

/-- All on-chip SRAM. -/
def sramTotal : Nat := sramRows.foldl (· + ·) 0

/-! ### The Atrium (R15) -/

/-- The first address of the Atrium, from the addresses of its banks 4 to 7 in the solver address map (R139, DEDUCED, log entry 111). -/
def atriumBase : Nat := 0x04000000

/-- Bytes of a bank. -/
def bankSize : Nat := 0x200000

/-- The bank of an address of the Atrium. -/
def atriumBank (addr : Nat) : Nat := (addr - atriumBase) / bankSize % 8

/-- What firmware allocates to a bank (*Atrium allocation*). -/
inductive AtriumUse where
  | landings
  | cutVectors
  | concourse
  | motion
  | solver
  deriving DecidableEq, Repr

/-- *Atrium allocation*. -/
def atriumUse : Nat → AtriumUse
  | 0 => .landings
  | 1 => .cutVectors
  | 2 => .concourse
  | 3 => .motion
  | _ => .solver

/-- The block that a bank's errors are counted against (R529). -/
def bankBlock (bank : Nat) : Nat :=
  match atriumUse bank with
  | .landings => 0x06
  | .cutVectors => 0x04
  | .concourse => 0x05
  | .motion => 0x0B
  | .solver => 0x03

/-! ### The MRAM (R27) -/

/-- *MRAM partitions*. -/
inductive MramPart where
  | billing
  | audit
  | records
  | parameters
  | security
  | calibration
  deriving DecidableEq, Repr

/-- Bytes of a partition. -/
def MramPart.size : MramPart → Nat
  | .billing => kib 512
  | .audit => kib 1024
  | .records => kib 1024
  | .parameters => kib 1024
  | .security => kib 256
  | .calibration => kib 256

/-- The blocks that write a partition (R27). -/
def MramPart.writers : MramPart → List Nat
  | .billing => [0x09]
  | .audit => [0x10]
  | .records => [0x10]
  | .parameters => [0x01]
  | .security => [0x11]
  | .calibration => [0x14, 0x04]

/-- The partitions in the order of the table, in which they are taken to lie from address 0 on (DESIGN CHOICE, log entry 111). -/
def mramParts : List MramPart := [.billing, .audit, .records, .parameters, .security, .calibration]

/-- The partition of an address of the MRAM; none above its 4 MiB. -/
def mramPartOf (addr : Nat) : Option MramPart :=
  (mramParts.foldl (fun (acc : Nat × Option MramPart) p =>
    if acc.2.isNone && decide (addr < acc.1 + p.size) then (acc.1 + p.size, some p) else (acc.1 + p.size, acc.2)) (0, none)).2

/-! ### Protection (R27, R528, R529) -/

/-- Wrong bits of a word that its memory corrects: two in each 32-byte word of the MRAM, one under SECDED, and none under parity, of
which L1 refetches the line. -/
def correctsBits (mem : Nat) : Nat :=
  if mem = 11 then 2 else if mem ∈ [1, 2, 3, 4, 5, 6, 7, 8, 10] then 1 else 0

/-- The memories that are scrubbed (R529, R532). -/
def scrubbedMem (mem : Nat) : Bool := decide (mem ∈ [1, 2, 3, 5, 6, 7, 10, 11])

/-- The block that an error of a memory is counted against: by bank in the Atrium, by the owner of the region in LPDDR4X, and by the
writer of the partition in the MRAM, `owner` where that is one of several (R529). -/
def memBlock (mem addr owner : Nat) : Nat :=
  match mem with
  | 1 => bankBlock (atriumBank (addr * 8))
  | 2 => 0x03
  | 3 => 0x01
  | 4 => 0x01
  | 5 => 0x06
  | 6 => 0x09
  | 7 => 0x11
  | 8 => 0x02
  | 9 => 0x14
  | 10 => owner
  | 11 =>
    (match mramPartOf addr with
     | some p => if p.writers.contains owner then owner else p.writers.headD owner
     | none => owner)
  | 12 => 0x03
  | _ => owner

/-! ### The supervisor cores (R14) -/

/-- The opcodes of the commands that a core executes: core 1 state estimation, core 2 optimisation and calibration, core 3 substation
management, event recorder, display and PTP servo, core 0 everything else (log entry 55). -/
def coreOf (op : Nat) : Nat :=
  if op ∈ [0x0420, 0x0421, 0x0430, 0x0431] then 2
  else if op / 256 = 0x04 then 1
  else if op / 256 ∈ [0x05, 0x0D, 0x0F, 0x10] then 3
  else 0

end Sys2Proof.Machine
end

