-- ==== Sys2Proof/Machine/Crypto.lean ====
section
/-! DEFINITION. The cryptographic functions the manual names (Headline figures, R96, R97, R221, R498): SHA-384,
HMAC-SHA-384, HKDF, the curve P-384 with ECDSA and ECDH, AES-256-GCM. The manual gives their names and the
standards give their definitions (log entry 10). -/

namespace Sys2Proof.Machine

/-- The 80 round constants of SHA-384 (FIPS 180-4). -/
def shaK : List Nat :=
  [0x428A2F98D728AE22, 0x7137449123EF65CD, 0xB5C0FBCFEC4D3B2F, 0xE9B5DBA58189DBBC, 0x3956C25BF348B538, 0x59F111F1B605D019, 0x923F82A4AF194F9B, 0xAB1C5ED5DA6D8118] ++
  [0xD807AA98A3030242, 0x12835B0145706FBE, 0x243185BE4EE4B28C, 0x550C7DC3D5FFB4E2, 0x72BE5D74F27B896F, 0x80DEB1FE3B1696B1, 0x9BDC06A725C71235, 0xC19BF174CF692694] ++
  [0xE49B69C19EF14AD2, 0xEFBE4786384F25E3, 0xFC19DC68B8CD5B5, 0x240CA1CC77AC9C65, 0x2DE92C6F592B0275, 0x4A7484AA6EA6E483, 0x5CB0A9DCBD41FBD4, 0x76F988DA831153B5] ++
  [0x983E5152EE66DFAB, 0xA831C66D2DB43210, 0xB00327C898FB213F, 0xBF597FC7BEEF0EE4, 0xC6E00BF33DA88FC2, 0xD5A79147930AA725, 0x6CA6351E003826F, 0x142929670A0E6E70] ++
  [0x27B70A8546D22FFC, 0x2E1B21385C26C926, 0x4D2C6DFC5AC42AED, 0x53380D139D95B3DF, 0x650A73548BAF63DE, 0x766A0ABB3C77B2A8, 0x81C2C92E47EDAEE6, 0x92722C851482353B] ++
  [0xA2BFE8A14CF10364, 0xA81A664BBC423001, 0xC24B8B70D0F89791, 0xC76C51A30654BE30, 0xD192E819D6EF5218, 0xD69906245565A910, 0xF40E35855771202A, 0x106AA07032BBD1B8] ++
  [0x19A4C116B8D2D0C8, 0x1E376C085141AB53, 0x2748774CDF8EEB99, 0x34B0BCB5E19B48A8, 0x391C0CB3C5C95A63, 0x4ED8AA4AE3418ACB, 0x5B9CCA4F7763E373, 0x682E6FF3D6B2B8A3] ++
  [0x748F82EE5DEFB2FC, 0x78A5636F43172F60, 0x84C87814A1F0AB72, 0x8CC702081A6439EC, 0x90BEFFFA23631E28, 0xA4506CEBDE82BDE9, 0xBEF9A3F7B2C67915, 0xC67178F2E372532B] ++
  [0xCA273ECEEA26619C, 0xD186B8C721C0C207, 0xEADA7DD6CDE0EB1E, 0xF57D4F7FEE6ED178, 0x6F067AA72176FBA, 0xA637DC5A2C898A6, 0x113F9804BEF90DAE, 0x1B710B35131C471B] ++
  [0x28DB77F523047D84, 0x32CAAB7B40C72493, 0x3C9EBE0A15C9BEBC, 0x431D67C49C100D4C, 0x4CC5D4BECB3E42B6, 0x597F299CFC657E2A, 0x5FCB6FAB3AD6FAEC, 0x6C44198C4A475817]

/-- The initial hash value of SHA-384 (FIPS 180-4). -/
def shaIv : List Nat :=
  [0xCBBB9D5DC1059ED8, 0x629A292A367CD507, 0x9159015A3070DD17, 0x152FECD8F70E5939, 0x67332667FFC00B31, 0x8EB44A8768581511, 0xDB0C2E0D64F98FA7, 0x47B5481DBEFA4FA4]

/-- The AES substitution table (FIPS 197). -/
def aesSbox : List Nat :=
  [0x63, 0x7C, 0x77, 0x7B, 0xF2, 0x6B, 0x6F, 0xC5, 0x30, 0x1, 0x67, 0x2B, 0xFE, 0xD7, 0xAB, 0x76] ++
  [0xCA, 0x82, 0xC9, 0x7D, 0xFA, 0x59, 0x47, 0xF0, 0xAD, 0xD4, 0xA2, 0xAF, 0x9C, 0xA4, 0x72, 0xC0] ++
  [0xB7, 0xFD, 0x93, 0x26, 0x36, 0x3F, 0xF7, 0xCC, 0x34, 0xA5, 0xE5, 0xF1, 0x71, 0xD8, 0x31, 0x15] ++
  [0x4, 0xC7, 0x23, 0xC3, 0x18, 0x96, 0x5, 0x9A, 0x7, 0x12, 0x80, 0xE2, 0xEB, 0x27, 0xB2, 0x75] ++
  [0x9, 0x83, 0x2C, 0x1A, 0x1B, 0x6E, 0x5A, 0xA0, 0x52, 0x3B, 0xD6, 0xB3, 0x29, 0xE3, 0x2F, 0x84] ++
  [0x53, 0xD1, 0x0, 0xED, 0x20, 0xFC, 0xB1, 0x5B, 0x6A, 0xCB, 0xBE, 0x39, 0x4A, 0x4C, 0x58, 0xCF] ++
  [0xD0, 0xEF, 0xAA, 0xFB, 0x43, 0x4D, 0x33, 0x85, 0x45, 0xF9, 0x2, 0x7F, 0x50, 0x3C, 0x9F, 0xA8] ++
  [0x51, 0xA3, 0x40, 0x8F, 0x92, 0x9D, 0x38, 0xF5, 0xBC, 0xB6, 0xDA, 0x21, 0x10, 0xFF, 0xF3, 0xD2] ++
  [0xCD, 0xC, 0x13, 0xEC, 0x5F, 0x97, 0x44, 0x17, 0xC4, 0xA7, 0x7E, 0x3D, 0x64, 0x5D, 0x19, 0x73] ++
  [0x60, 0x81, 0x4F, 0xDC, 0x22, 0x2A, 0x90, 0x88, 0x46, 0xEE, 0xB8, 0x14, 0xDE, 0x5E, 0xB, 0xDB] ++
  [0xE0, 0x32, 0x3A, 0xA, 0x49, 0x6, 0x24, 0x5C, 0xC2, 0xD3, 0xAC, 0x62, 0x91, 0x95, 0xE4, 0x79] ++
  [0xE7, 0xC8, 0x37, 0x6D, 0x8D, 0xD5, 0x4E, 0xA9, 0x6C, 0x56, 0xF4, 0xEA, 0x65, 0x7A, 0xAE, 0x8] ++
  [0xBA, 0x78, 0x25, 0x2E, 0x1C, 0xA6, 0xB4, 0xC6, 0xE8, 0xDD, 0x74, 0x1F, 0x4B, 0xBD, 0x8B, 0x8A] ++
  [0x70, 0x3E, 0xB5, 0x66, 0x48, 0x3, 0xF6, 0xE, 0x61, 0x35, 0x57, 0xB9, 0x86, 0xC1, 0x1D, 0x9E] ++
  [0xE1, 0xF8, 0x98, 0x11, 0x69, 0xD9, 0x8E, 0x94, 0x9B, 0x1E, 0x87, 0xE9, 0xCE, 0x55, 0x28, 0xDF] ++
  [0x8C, 0xA1, 0x89, 0xD, 0xBF, 0xE6, 0x42, 0x68, 0x41, 0x99, 0x2D, 0xF, 0xB0, 0x54, 0xBB, 0x16]

/-- A 64-bit word rotated right. -/
def rotr64 (x n : Nat) : Nat := Nat.lor (x >>> n) ((x <<< (64 - n)) % 2 ^ 64)

/-- One more word of the message schedule in front of the newest-first list. -/
def shaNextW (w : List Nat) : Nat :=
  let x1 := nth w 1 0
  let x14 := nth w 14 0
  let s1 := Nat.xor (Nat.xor (rotr64 x1 19) (rotr64 x1 61)) (x1 >>> 6)
  let s0 := Nat.xor (Nat.xor (rotr64 x14 1) (rotr64 x14 8)) (x14 >>> 7)
  (s1 + nth w 6 0 + s0 + nth w 15 0) % 2 ^ 64

/-- The message schedule extended by `n` words, newest first. -/
def shaSchedule : Nat → List Nat → List Nat
  | 0, w => w
  | n + 1, w => shaSchedule n (shaNextW w :: w)

/-- The eight working variables. -/
structure ShaVars where
  a : Nat
  b : Nat
  c : Nat
  d : Nat
  e : Nat
  f : Nat
  g : Nat
  h : Nat
  deriving DecidableEq, Repr

/-- One round with round constant plus schedule word `kw`. -/
def shaRound (v : ShaVars) (kw : Nat) : ShaVars :=
  let s1 := Nat.xor (Nat.xor (rotr64 v.e 14) (rotr64 v.e 18)) (rotr64 v.e 41)
  let ch := Nat.xor (Nat.land v.e v.f) (Nat.land (2 ^ 64 - 1 - v.e) v.g)
  let t1 := v.h + s1 + ch + kw
  let s0 := Nat.xor (Nat.xor (rotr64 v.a 28) (rotr64 v.a 34)) (rotr64 v.a 39)
  let mj := Nat.xor (Nat.xor (Nat.land v.a v.b) (Nat.land v.a v.c)) (Nat.land v.b v.c)
  ⟨(t1 + s0 + mj) % 2 ^ 64, v.a, v.b, v.c, (v.d + t1) % 2 ^ 64, v.e, v.f, v.g⟩

/-- The words of 8 bytes, most significant byte first. -/
def words64 : Nat → Bytes → List Nat
  | 0, _ => []
  | n + 1, bs => ofBE (bs.take 8) :: words64 n (bs.drop 8)

/-- One 128-byte block compressed into the hash value. -/
def shaBlock (h : List Nat) (blk : Bytes) : List Nat :=
  let w := (shaSchedule 64 (words64 16 blk).reverse).reverse
  let kw := List.zipWith (· + ·) shaK w
  let v0 : ShaVars := ⟨nth h 0 0, nth h 1 0, nth h 2 0, nth h 3 0, nth h 4 0, nth h 5 0, nth h 6 0, nth h 7 0⟩
  let v := kw.foldl shaRound v0
  List.zipWith (fun x y => (x + y) % 2 ^ 64) h [v.a, v.b, v.c, v.d, v.e, v.f, v.g, v.h]

/-- `n` blocks of a padded message. -/
def shaBlocks : Nat → List Nat → Bytes → List Nat
  | 0, h, _ => h
  | n + 1, h, bs => shaBlocks n (shaBlock h (bs.take 128)) (bs.drop 128)

/-- SHA-384 of a byte string, 48 bytes. -/
def sha384 (m : Bytes) : Bytes :=
  let l := m.length
  let padded := m ++ [0x80#8] ++ zeros ((239 - l % 128) % 128) ++ be 16 (8 * l)
  ((shaBlocks (padded.length / 128) shaIv padded).take 6).flatMap (be 8)

/-- HMAC-SHA-384. -/
def hmac384 (key m : Bytes) : Bytes :=
  let k := fit 128 (if 128 < key.length then sha384 key else key)
  let inner := sha384 (k.map (· ^^^ 0x36#8) ++ m)
  sha384 (k.map (· ^^^ 0x5C#8) ++ inner)

/-- HKDF-Extract with SHA-384. -/
def hkdfExtract (salt ikm : Bytes) : Bytes := hmac384 salt ikm

/-- The blocks T(i) of HKDF-Expand from number `i`. -/
def hkdfBlocks (prk info : Bytes) : Nat → Nat → Bytes → Bytes
  | 0, _, _ => []
  | n + 1, i, t =>
    let t' := hmac384 prk (t ++ info ++ [BitVec.ofNat 8 i])
    t' ++ hkdfBlocks prk info n (i + 1) t'

/-- HKDF-Expand with SHA-384. -/
def hkdfExpand (prk info : Bytes) (len : Nat) : Bytes := (hkdfBlocks prk info (ceilDiv len 48) 1 []).take len

/-- The prime of P-384. -/
def p384p : Nat := 2 ^ 384 - 2 ^ 128 - 2 ^ 96 + 2 ^ 32 - 1

/-- The order of the P-384 group. -/
def p384n : Nat :=
  0xFFFFFFFFFFFFFFFFFFFFFFFFFFFFFFFFFFFFFFFFFFFFFFFFC7634D81F4372DDF581A0DB248B0A77AECEC196ACCC52973

/-- The coefficient b of P-384. -/
def p384b : Nat :=
  0xB3312FA7E23EE7E4988E056BE3F82D19181D9C6EFE8141120314088F5013875AC656398D8A2ED19D2A85C8EDD3EC2AEF

/-- The base point of P-384. -/
def p384g : Nat × Nat :=
  (0xAA87CA22BE8B05378EB1C71EF320AD746E1D3B628BA79B9859F741E082542A385502F25DBF55296C3A545E3872760AB7,
   0x3617DE4A96262C6F5D9E98BF9292DC29F8F41DBD289A147CE9DA3113B5F0B8C00A60B1CE1D7E819D7A431D7C90EA0E5F)

/-- A power modulo `q` over the low `n` bits of the exponent. -/
def powMod (q : Nat) : Nat → Nat → Nat → Nat → Nat
  | 0, _, _, acc => acc
  | n + 1, b, e, acc => powMod q n (b * b % q) (e / 2) (if e % 2 = 1 then acc * b % q else acc)

/-- The inverse modulo a prime `q` of at most 384 bits. -/
def invMod (q a : Nat) : Nat := powMod q 384 (a % q) (q - 2) 1

/-- A difference modulo `q`. -/
def subMod (q a b : Nat) : Nat := (a + q - b % q) % q

/-- A point in Jacobian coordinates; Z = 0 is the point at infinity. -/
structure Jac where
  x : Nat
  y : Nat
  z : Nat
  deriving DecidableEq, Repr

/-- The doubled point. -/
def Jac.dbl (a : Jac) : Jac :=
  let p := p384p
  if a.z = 0 then a else
  let d := a.z * a.z % p
  let g := a.y * a.y % p
  let b := a.x * g % p
  let al := 3 * (subMod p a.x d * ((a.x + d) % p)) % p
  let x := subMod p (al * al) (8 * b)
  let z := subMod p (subMod p ((a.y + a.z) * (a.y + a.z)) g) d
  let y := subMod p (al * subMod p (4 * b) x) (8 * (g * g % p))
  ⟨x, y, z⟩

/-- The sum of two points. -/
def Jac.add (a b : Jac) : Jac :=
  let p := p384p
  if a.z = 0 then b else if b.z = 0 then a else
  let z1 := a.z * a.z % p
  let z2 := b.z * b.z % p
  let u1 := a.x * z2 % p
  let u2 := b.x * z1 % p
  let s1 := a.y * b.z % p * z2 % p
  let s2 := b.y * a.z % p * z1 % p
  if u1 = u2 then (if s1 = s2 then a.dbl else ⟨1, 1, 0⟩) else
  let h := subMod p u2 u1
  let r := subMod p s2 s1
  let hh := h * h % p
  let hhh := h * hh % p
  let v := u1 * hh % p
  let x := subMod p (subMod p (r * r) hhh) (2 * v)
  let y := subMod p (r * subMod p v x) (s1 * hhh)
  ⟨x, y, a.z * b.z % p * h % p⟩

/-- The multiple of a point by the low `n` bits of `k`. -/
def Jac.mulBits : Nat → Nat → Jac → Jac → Jac
  | 0, _, _, acc => acc
  | n + 1, k, q, acc => Jac.mulBits n (k / 2) q.dbl (if k % 2 = 1 then acc.add q else acc)

/-- `k · q` for a scalar of 384 bits. -/
def Jac.mul (k : Nat) (q : Jac) : Jac := Jac.mulBits 384 k q ⟨1, 1, 0⟩

/-- The affine coordinates; none at infinity. -/
def Jac.affine (a : Jac) : Option (Nat × Nat) :=
  if a.z = 0 then none else
  let i := invMod p384p a.z
  let i2 := i * i % p384p
  some (a.x * i2 % p384p, a.y * (i2 * i % p384p) % p384p)

/-- The point `(x, y)` lies on P-384. -/
def onCurve (x y : Nat) : Bool :=
  decide (x < p384p) && decide (y < p384p) &&
    y * y % p384p == (x * x % p384p * x + (p384p - 3) * x + p384b) % p384p

/-- An uncompressed point 0x04 ‖ X ‖ Y of 97 bytes. -/
def pointOf (bs : Bytes) : Option (Nat × Nat) :=
  let x := ofBE (slice bs 1 48)
  let y := ofBE (slice bs 49 48)
  if bs.length = 97 && bs.take 1 == [0x04#8] && onCurve x y then some (x, y) else none

/-- The bytes of an uncompressed point. -/
def pointBytes (q : Nat × Nat) : Bytes := [0x04#8] ++ be 48 q.1 ++ be 48 q.2

/-- The public point of a private scalar. -/
def publicOf (d : Nat) : Bytes :=
  match (Jac.mul d ⟨p384g.1, p384g.2, 1⟩).affine with
  | some q => pointBytes q
  | none => zeros 97

/-- ECDSA P-384 verification of a 96-byte signature r ‖ s over a 48-byte digest. -/
def ecdsaVerify (pub digest sig : Bytes) : Bool :=
  match pointOf pub with
  | none => false
  | some q =>
    let r := ofBE (slice sig 0 48)
    let s := ofBE (slice sig 48 48)
    if sig.length ≠ 96 || r = 0 || s = 0 || p384n ≤ r || p384n ≤ s then false else
    let w := invMod p384n s
    let u1 := ofBE digest * w % p384n
    let u2 := r * w % p384n
    match ((Jac.mul u1 ⟨p384g.1, p384g.2, 1⟩).add (Jac.mul u2 ⟨q.1, q.2, 1⟩)).affine with
    | none => false
    | some x => x.1 % p384n == r

/-- The ECDSA P-384 signature of a digest under private scalar `d` with per-signature secret `k`. -/
def ecdsaSign (d k : Nat) (digest : Bytes) : Bytes :=
  match (Jac.mul k ⟨p384g.1, p384g.2, 1⟩).affine with
  | none => zeros 96
  | some q =>
    let r := q.1 % p384n
    be 48 r ++ be 48 (invMod p384n k * (ofBE digest + r * d) % p384n)

/-- The x-coordinate of the ECDH shared point, 48 bytes; none if the peer's point is not on the curve. -/
def ecdh (d : Nat) (peer : Bytes) : Option Bytes :=
  match pointOf peer with
  | none => none
  | some q => (Jac.mul d ⟨q.1, q.2, 1⟩).affine.map fun r => be 48 r.1

/-- Doubling in the field of AES. -/
def xtime (b : Nat) : Nat := let t := 2 * b; if 256 ≤ t then Nat.xor t 0x11B else t

/-- The substituted byte. -/
def subByte (b : Nat) : Nat := nth aesSbox b 0

/-- `n` more words of the AES-256 key schedule, newest first; `i` is the next word's number. -/
def aesExpand : Nat → Nat → Nat → List (List Nat) → List (List Nat)
  | 0, _, _, w => w
  | n + 1, i, rc, w =>
    let t := nth w 0 []
    let o := nth w 7 []
    let t' :=
      if i % 8 = 0 then
        List.zipWith Nat.xor ((t.drop 1 ++ t.take 1).map subByte) [rc, 0, 0, 0]
      else if i % 8 = 4 then t.map subByte else t
    aesExpand n (i + 1) (if i % 8 = 0 then xtime rc else rc) (List.zipWith Nat.xor o t' :: w)

/-- A list cut into pieces of `k`. -/
def pieces {α : Type} (k : Nat) : Nat → List α → List (List α)
  | 0, _ => []
  | n + 1, l => l.take k :: pieces k n (l.drop k)

/-- The 15 round keys of AES-256, 16 bytes each. -/
def aesKeys (key : Bytes) : List (List Nat) :=
  let w := (aesExpand 52 8 1 (pieces 4 8 (key.map (·.toNat))).reverse).reverse
  pieces 16 15 w.flatten

/-- The state with its rows shifted. -/
def shiftRows (s : List Nat) : List Nat :=
  [0, 5, 10, 15, 4, 9, 14, 3, 8, 13, 2, 7, 12, 1, 6, 11].map fun i => nth s i 0

/-- One column mixed. -/
def mixColumn (c : List Nat) : List Nat :=
  let a := nth c 0 0
  let b := nth c 1 0
  let d := nth c 2 0
  let e := nth c 3 0
  let all := Nat.xor (Nat.xor a b) (Nat.xor d e)
  [Nat.xor (Nat.xor a all) (xtime (Nat.xor a b)), Nat.xor (Nat.xor b all) (xtime (Nat.xor b d)),
   Nat.xor (Nat.xor d all) (xtime (Nat.xor d e)), Nat.xor (Nat.xor e all) (xtime (Nat.xor e a))]

/-- The rounds of AES from a list of round keys; the last round mixes no columns. -/
def aesRounds : List (List Nat) → List Nat → List Nat
  | [], s => s
  | [k], s => List.zipWith Nat.xor (shiftRows (s.map subByte)) k
  | k :: ks, s =>
    aesRounds ks (List.zipWith Nat.xor ((pieces 4 4 (shiftRows (s.map subByte))).flatMap mixColumn) k)

/-- AES-256 of one 16-byte block. -/
def aesBlock (keys : List (List Nat)) (blk : Bytes) : Bytes :=
  (aesRounds (keys.drop 1) (List.zipWith Nat.xor (blk.map (·.toNat)) (nth keys 0 []))).map (BitVec.ofNat 8)

/-- The product of GHASH over the low `n` bits of `x` counted from the first bit of the block. -/
def gfMul : Nat → Nat → Nat → Nat → Nat
  | 0, _, _, z => z
  | n + 1, x, v, z =>
    gfMul n x (if v % 2 = 1 then Nat.xor (v / 2) (0xE1 * 2 ^ 120) else v / 2) (if bit x n then Nat.xor z v else z)

/-- GHASH over a string whose length is a multiple of 16 bytes. -/
def ghash (h : Nat) (m : Bytes) : Nat :=
  (pieces 16 (m.length / 16) m).foldl (fun y b => gfMul 128 (Nat.xor y (ofBE b)) h 0) 0

/-- A string padded with zeros to a multiple of 16 bytes. -/
def pad16 (m : Bytes) : Bytes := m ++ zeros ((16 - m.length % 16) % 16)

/-- The CTR keystream applied from counter value `c`. -/
def ctrBlocks (keys : List (List Nat)) (nonce : Bytes) : Nat → Nat → Bytes → Bytes
  | 0, _, _ => []
  | n + 1, c, m =>
    List.zipWith (· ^^^ ·) (m.take 16) (aesBlock keys (nonce ++ be 4 c)) ++ ctrBlocks keys nonce n (c + 1) (m.drop 16)

/-- The GCM tag of a ciphertext. -/
def gcmTag (keys : List (List Nat)) (nonce aad ct : Bytes) : Bytes :=
  let h := ofBE (aesBlock keys (zeros 16))
  let g := ghash h (pad16 aad ++ pad16 ct ++ be 8 (8 * aad.length) ++ be 8 (8 * ct.length))
  List.zipWith (· ^^^ ·) (be 16 g) (aesBlock keys (nonce ++ be 4 1))

/-- AES-256-GCM encryption with a 12-byte nonce: ciphertext and 16-byte tag. -/
def gcmSeal (key nonce aad pt : Bytes) : Bytes × Bytes :=
  let keys := aesKeys key
  let ct := ctrBlocks keys nonce (ceilDiv pt.length 16) 2 pt
  (ct, gcmTag keys nonce aad ct)

/-- AES-256-GCM decryption; none if the tag fails. -/
def gcmOpen (key nonce aad ct tag : Bytes) : Option Bytes :=
  let keys := aesKeys key
  if gcmTag keys nonce aad ct == tag then some (ctrBlocks keys nonce (ceilDiv ct.length 16) 2 ct) else none

end Sys2Proof.Machine
end

