-- ==== Sys2Proof/Machine/Params.lean ====
section
/-! DEFINITION. The parameter tables of the chapters: width, default, access masks and boundary of every parameter
(R7, R9, R33 to R35, R572, R573). -/

namespace Sys2Proof.Machine

/-- The boundary at which a written value takes effect (R35). -/
inductive Boundary where
  /-- When the reply is issued. -/
  | reply
  /-- At the next tick (R386, R441, R543). -/
  | tick
  /-- At the next cut. -/
  | cut
  /-- At the next one-minute boundary of metering time (R331, R352). -/
  | minute
  /-- At the next boot. -/
  | boot
  /-- At the next period, window, pass, frame or sample of its engine; the row of that period applies it. -/
  | engine
  deriving DecidableEq, Repr

/-- A row of a parameter table: WIDTH in bytes, default, the masks of the RW, AM, W1C and RO bits (every other bit is
reserved), and the boundary. -/
structure PInfo where
  width : Nat
  dflt : Nat
  rw : Nat
  am : Nat
  w1c : Nat
  ro : Nat
  bound : Boundary
  deriving DecidableEq, Repr

/-- A read-only parameter of 4 bytes. -/
def roP : PInfo := ⟨4, 0, 0, 0, 0, 0xFFFFFFFF, .reply⟩

/-- A read-only parameter of 8 bytes. -/
def roP8 : PInfo := ⟨8, 0, 0, 0, 0, 0xFFFFFFFFFFFFFFFF, .reply⟩

/-- A read and write parameter of 4 bytes with its mask and default. -/
def rwP (mask dflt : Nat) (b : Boundary) : PInfo := ⟨4, dflt, mask, 0, 0, 0, b⟩

/-- A parameter under metrology authorisation. -/
def amP (mask dflt : Nat) (b : Boundary) : PInfo := ⟨4, dflt, 0, mask, 0, 0, b⟩

/-- All 32 bits. -/
def m32 : Nat := 0xFFFFFFFF

/-- SYS (R43, R58). -/
def pinfoSys (i : Nat) : Option PInfo :=
  match i with
  | 0x10 => some roP
  | 0x11 => some (rwP m32 8 .reply)
  | 0x12 => some (rwP m32 3 .reply)
  | 0x13 => some roP
  | 0x20 => some (rwP m32 0 .boot)
  | 0x21 => some (rwP m32 0 .boot)
  | 0x22 => some (rwP 0xFFF 1 .boot)
  | 0x23 => some (rwP 0xFFFF 0xB8D0 .boot)
  | 0x24 => some (rwP 0xFF 0 .boot)
  | 0x25 => some (rwP m32 2000 .boot)
  | 0x26 => some (rwP m32 0xFF .boot)
  | 0x27 => some roP
  | _ => none

/-- HIF (R104). -/
def pinfoHif (i : Nat) : Option PInfo :=
  match i with
  | 0x10 => some (rwP 0xFFFF 0x3010 .boot)
  | 0x11 => some (rwP 0xFFFF 0xB8C0 .reply)
  | 0x12 => some (rwP m32 0 .reply)
  | 0x13 => some (rwP 0xFFF 1 .reply)
  | 0x14 => some (rwP m32 115200 .engine)
  | 0x15 => some (rwP m32 900 .reply)
  | 0x16 => some (rwP m32 0 .reply)
  | 0x17 => some roP
  | _ => if 0x20 ≤ i ∧ i ≤ 0x27 then some roP else none

/-- EVR (R492). -/
def pinfoEvr (i : Nat) : Option PInfo :=
  if 0x10 ≤ i ∧ i ≤ 0x15 then some roP
  else if i = 0x16 then some (rwP m32 10 .engine)
  else if i = 0x17 then some (rwP m32 60 .engine)
  else if 0x20 ≤ i ∧ i ≤ 0x2F then some (rwP m32 0 .engine)
  else if 0x40 ≤ i ∧ i ≤ 0x5F then some (rwP 0xFFFF0F0F 0 .reply)
  else if 0x60 ≤ i ∧ i ≤ 0x7F then some (rwP m32 0 .reply)
  else if 0x80 ≤ i ∧ i ≤ 0x9F then some (rwP m32 0x42C80000 .reply)
  else none

/-- SEC (R526). -/
def pinfoSec (i : Nat) : Option PInfo :=
  if (0x10 ≤ i ∧ i ≤ 0x13) ∨ (0x21 ≤ i ∧ i ≤ 0x27) ∨ (0x29 ≤ i ∧ i ≤ 0x2F) ∨ (0x30 ≤ i ∧ i ≤ 0x4F) ∨
      (0x51 ≤ i ∧ i ≤ 0x57) then some roP
  else none

/-- TAMP (R527). -/
def pinfoTamp (i : Nat) : Option PInfo :=
  match i with
  | 0x10 => some (amP 0x37F 0x170 .reply)
  | 0x11 => some roP
  | 0x12 => some roP
  | 0x13 => some roP8
  | 0x14 => some roP
  | _ => none

/-- INTG (R543). -/
def pinfoIntg (i : Nat) : Option PInfo :=
  if i = 0x10 ∨ (0x13 ≤ i ∧ i ≤ 0x16) ∨ (0x21 ≤ i ∧ i ≤ 0x35) ∨ (0x41 ≤ i ∧ i ≤ 0x55) then some roP
  else if i = 0x11 then some ⟨4, 0x77, 0xFFE, 0, 0, 1, .tick⟩
  else if i = 0x12 then some (rwP m32 3600 .engine)
  else none

/-- PWR (R560). -/
def pinfoPwr (i : Nat) : Option PInfo :=
  if i = 0x12 then some (rwP m32 1 .cut)
  else if 0x10 ≤ i ∧ i ≤ 0x18 then some roP
  else none

/-- MTH (R331): parameter j of channel c at 0x10 + 8·c + j. -/
def pinfoMth (i : Nat) : Option PInfo :=
  if 0x10 ≤ i ∧ i ≤ 0x8F then
    match (i - 0x10) % 8 with
    | 0 => some (amP 0xFF03 0 .minute)
    | 1 => some ⟨8, 0x0000271000000000, 0, 0xFFFFFFFFFFFFFFFF, 0, 0, .minute⟩
    | 2 => some (amP m32 400000 .minute)
    | 3 => some (amP m32 0 .minute)
    | 4 => some (amP m32 0 .minute)
    | 5 => some (amP m32 200 .minute)
    | _ => some roP
  else if i = 0x90 ∨ i = 0x91 then some roP
  else none

/-- MEL (R354): GAIN and DELAY of channel k, and the parameters of system s. -/
def pinfoMel (i : Nat) : Option PInfo :=
  if 0x10 ≤ i ∧ i ≤ 0x3F then some (if i % 2 = 0 then amP m32 0x40000000 .minute else amP m32 0 .minute)
  else if 0x40 ≤ i ∧ i ≤ 0x5F then
    match i % 8 with
    | 0 => some (amP 0xF8FF 0x383C .minute)
    | 1 => some (amP m32 400000 .minute)
    | 2 => some (amP m32 100000 .minute)
    | 3 => some (amP m32 230000 .minute)
    | 7 => none
    | _ => some roP
  else if i = 0x60 ∨ i = 0x61 then some roP
  else none

/-- BILL (R372). -/
def pinfoBill (i : Nat) : Option PInfo :=
  if i = 0x10 then some (amP m32 1 .minute)
  else if 0x11 ≤ i ∧ i ≤ 0x17 then some roP
  else none

/-- ETH (R440). -/
def pinfoEth (i : Nat) : Option PInfo :=
  if 0x10 ≤ i ∧ i ≤ 0x13 then some (rwP 0xFFF00F01 0x00100800 .reply)
  else if 0x14 ≤ i ∧ i ≤ 0x17 then some roP
  else if 0x18 ≤ i ∧ i ≤ 0x1B then some (rwP m32 0 .reply)
  else if 0x1C ≤ i ∧ i ≤ 0x1F then some (rwP m32 0 .reply)
  else if 0x20 ≤ i ∧ i ≤ 0x3F then some (rwP 0x3FFFFF 0 .reply)
  else if 0x40 ≤ i ∧ i ≤ 0x49 then some roP
  else none

/-- TIME (R441). -/
def pinfoTime (i : Nat) : Option PInfo :=
  match i with
  | 0x10 => some (rwP 0xFFF0FF04 0x00008600 .tick)
  | 0x11 => some (rwP 0xFFFF 0x8080 .tick)
  | 0x12 => some (rwP m32 100 .reply)
  | 0x13 => some (rwP m32 1000 .reply)
  | 0x14 => some (rwP m32 100 .reply)
  | 0x15 => some (rwP 0x3FFFF 37 .reply)
  | 0x18 => some roP8
  | _ => if 0x1D ≤ i ∧ i ≤ 0x20 then some (rwP 3 0 .reply)
         else if 0x16 ≤ i ∧ i ≤ 0x1C then some roP else none

/-- PIO (R386). -/
def pinfoPio (i : Nat) : Option PInfo :=
  if 0x10 ≤ i ∧ i ≤ 0x4F then
    match i % 4 with
    | 0 => some (rwP 0xF07 0x100 .engine)
    | 1 => some (rwP m32 0 .engine)
    | 2 => some (rwP m32 0x3F800000 .engine)
    | _ => some (rwP m32 100000 .engine)
  else if 0x50 ≤ i ∧ i ≤ 0x6F then some (rwP 0xFFFF0001 0x00640000 .tick)
  else if 0x70 ≤ i ∧ i ≤ 0x87 then some (rwP 0xFFFFFF03 0x00640000 .tick)
  else if 0x88 ≤ i ∧ i ≤ 0x97 then some (if i % 2 = 0 then rwP m32 250000 .engine else rwP m32 0 .tick)
  else if i = 0x98 then some ⟨4, 0, 0, 0, m32, 0, .reply⟩
  else if i = 0x99 then some roP
  else none

/-- CTRL (R278, R309). -/
def pinfoCtrl (i : Nat) : Option PInfo :=
  if 0x10 ≤ i ∧ i ≤ 0x1A then some roP
  else if i = 0x1B then some (rwP m32 5000 .reply)
  else if i = 0x1C ∨ i = 0x1D then some roP
  else none

/-- VAX (R413): parameter j of axis a at 0x10 + 16·a + j. -/
def pinfoVax (i : Nat) : Option PInfo :=
  if 0x10 ≤ i ∧ i ≤ 0x8F then
    match i % 16 with
    | 0 => some (rwP m32 0x6E364032 .engine)
    | 1 => some (rwP m32 1000 .engine)
    | 2 => some (rwP m32 250 .engine)
    | 3 => some (rwP m32 256000 .engine)
    | 4 => some (rwP m32 512000 .engine)
    | 5 => some (rwP m32 2048000 .engine)
    | 6 => some (rwP m32 1024000 .engine)
    | 7 => some (rwP m32 2560 .engine)
    | 8 => some (rwP m32 0 .engine)
    | 9 => some (rwP m32 1024000 .engine)
    | 10 => some (rwP m32 2000 .engine)
    | 11 => some (rwP m32 5000 .engine)
    | 12 => some (rwP m32 0x00030400 .engine)
    | 13 => some (rwP m32 0 .engine)
    | 14 => some (rwP m32 4194304 .engine)
    | _ => some (rwP m32 0x0FA01388 .engine)
  else if 0x90 ≤ i ∧ i ≤ 0x92 then some roP
  else none

/-- Default of RTC_CURVE_k: −34 × (T_k − 25)² ppb at T_k = −40 + 10·k °C (R460). -/
def curveDflt (k : Nat) : Nat := unsgn 32 (-34 * (10 * (k : Int) - 65) ^ 2)

/-- RTC (R460). RTC_DATE, RTC_TIME and RTC_SUBSEC follow the calendar. -/
def pinfoRtc (i : Nat) : Option PInfo :=
  match i with
  | 0x13 => some (rwP 0xFFFF 0 .engine)
  | 0x14 => some ⟨4, 0, 0, 0, 0x1F, 0x20, .reply⟩
  | 0x15 => some roP8
  | 0x16 => some roP8
  | 0x18 => some (rwP m32 2000 .reply)
  | 0x19 => some (rwP m32 0 .engine)
  | _ =>
    if 0x10 ≤ i ∧ i ≤ 0x1B then some roP
    else if 0x20 ≤ i ∧ i ≤ 0x30 then some (rwP m32 (curveDflt (i - 0x20)) .engine)
    else if 0x40 ≤ i ∧ i ≤ 0x50 then some roP
    else none

/-- EPD (R479). -/
def pinfoEpd (i : Nat) : Option PInfo :=
  match i with
  | 0x10 => some (rwP 0xFFFFFFF1 0xA1 .boot)
  | 0x11 => some (rwP 0x7FFFF703 0x48000400 .engine)
  | 0x13 => some (rwP m32 10 .engine)
  | _ => if 0x10 ≤ i ∧ i ≤ 0x19 then some roP else none

/-- SUBL (R244). -/
def pinfoSubl (i : Nat) : Option PInfo :=
  match i with
  | 0x10 => some (rwP 0xFFFF 0xB8E0 .boot)
  | 0x11 => some (rwP 0xFFF 1 .boot)
  | 0x12 => some (rwP m32 500000 .cut)
  | 0x13 => some (rwP m32 5000 .cut)
  | 0x14 => some (rwP m32 3000 .cut)
  | 0x15 => some (rwP m32 500 .cut)
  | 0x16 => some (rwP m32 30 .cut)
  | _ => if (0x17 ≤ i ∧ i ≤ 0x1A) ∨ (0x20 ≤ i ∧ i ≤ 0x2B) then some roP else none

/-- NMOD (R136, R219). -/
def pinfoNmod (i : Nat) : Option PInfo :=
  match i with
  | 0x38 => some (rwP m32 1 .reply)
  | 0x39 => some (rwP m32 180 .reply)
  | 0x3A => some (rwP m32 60 .reply)
  | 0x3B => some (rwP m32 1000 .reply)
  | 0x3C => some (rwP m32 50000 .reply)
  | _ => if (0x30 ≤ i ∧ i ≤ 0x36) ∨ (0x40 ≤ i ∧ i ≤ 0x4D) then some roP else none

/-- SOLV (R177). -/
def pinfoSolv (i : Nat) : Option PInfo := if 0x10 ≤ i ∧ i ≤ 0x19 then some roP else none

/-- The parameter table of a block by index; the common indices of R33 first. -/
def pinfo (id : Nat) : Option PInfo :=
  let i := id % 256
  let b := id / 256
  if 0x01 ≤ b ∧ b ≤ 0x15 ∧ i ≤ 0x03 then some roP
  else if i < 0x10 then none
  else match b with
    | 0x01 => pinfoSys i
    | 0x02 => pinfoHif i
    | 0x07 => pinfoMth i
    | 0x08 => pinfoMel i
    | 0x09 => pinfoBill i
    | 0x0C => pinfoEth i
    | 0x0D => pinfoTime i
    | 0x06 => pinfoCtrl i
    | 0x0A => pinfoPio i
    | 0x0B => pinfoVax i
    | 0x0E => pinfoRtc i
    | 0x0F => pinfoEpd i
    | 0x05 => pinfoSubl i
    | 0x03 => pinfoSolv i
    | 0x04 => pinfoNmod i
    | 0x10 => pinfoEvr i
    | 0x11 => pinfoSec i
    | 0x12 => pinfoTamp i
    | 0x13 => pinfoIntg i
    | 0x14 => pinfoPwr i
    | _ => none

/-- The default of a parameter. -/
def pdflt (id : Nat) : Nat :=
  match pinfo id with
  | some p => p.dflt
  | none => 0

/-- The value in effect of a stored parameter. -/
def getP (s : State) (id : Nat) : Nat := tableGet pdflt s.cfg id

/-- The value in effect set. -/
def setP (id v : Nat) (s : State) : State := { s with cfg := tableSet pdflt s.cfg id v }

/-- The newest value that waits for a boundary. -/
def pendingOf (s : State) (id : Nat) : Option PendingValue := s.cfgPending.find? (fun p => p.id == id)

/-- The resulting value of R11: the pending value, or the value in effect. -/
def resultingP (s : State) (id : Nat) : Nat :=
  match pendingOf s id with
  | some p => p.value
  | none => getP s id

/-- Every value waiting for boundary `b` takes effect. -/
def applyBoundary (b : Boundary) (s : State) : State :=
  let due := s.cfgPending.filter fun p => (pinfo p.id).any fun q => q.bound == b
  let rest := s.cfgPending.filter fun p => !((pinfo p.id).any fun q => q.bound == b)
  { s with cfg := due.foldl (fun c p => tableSet pdflt c p.id p.value) s.cfg, cfgPending := rest }

/-- The waiting value of one parameter, if any, takes effect. -/
def applyOne (id : Nat) (s : State) : State :=
  match pendingOf s id with
  | some p => { setP id p.value s with cfgPending := s.cfgPending.filter fun q => q.id != id }
  | none => s

end Sys2Proof.Machine
end

