-- ==== Sys2Proof/Machine/Ops.lean ====
section
/-! DEFINITION. Named operations shared by every family: time, draws, events, snapshot sources, memory errors,
replies, credits and tags. -/

namespace Sys2Proof.Machine

/-! ### Time -/

/-- One nanosecond in the clock's units. -/
def nsUnit : Nat := 2 ^ 32

/-- One second in the clock's units. -/
def secUnit : Nat := 1000000000 * nsUnit

/-- The clock after `dt` microseconds of the 25 MHz reference: 250 edges each adding INCREMENT (R425, R427). -/
def Clock.advance (dt : Nat) (c : Clock) : Clock :=
  { c with ptp := c.ptp + 250 * dt * c.increment, mono := c.mono + 250 * dt * c.increment, real := c.real + dt }

/-- Time passes between two commands; PIO stands at the beginning of a new tick as the last command left it (R374). -/
def passTime (dt : Nat) (s : State) : State :=
  { s with clock := s.clock.advance dt, pioBegan := if dt = 0 then s.pioBegan else s.pio }

/-- PTP seconds. -/
def ptpSec (s : State) : Nat := s.clock.ptp / secUnit

/-- PTP nanoseconds within the second. -/
def ptpNs (s : State) : Nat := s.clock.ptp % secUnit / nsUnit

/-- Nanoseconds of a stamp. -/
def Stamp.total (t : Stamp) : Nat := t.sec * 1000000000 + t.ns

/-- The tick: the whole microsecond the clock has reached (R426). -/
def tickStamp (s : State) : Stamp := ⟨ptpSec s, ptpNs s / 1000 * 1000⟩

/-- The tick's number: PTP microseconds. -/
def tickUs (s : State) : Nat := s.clock.ptp / (1000 * nsUnit)

/-- The monotonic counter in microseconds (R427). -/
def monoUs (s : State) : Nat := s.clock.mono / (1000 * nsUnit)

/-- The PTP clock in nanoseconds. -/
def ptpTotalNs (s : State) : Nat := s.clock.ptp / nsUnit

/-- The tick that the clock has reached. -/
def tickId (s : State) : TickId := (s.time.steps.toNat, tickUs s)

/-- A double buffer written in this tick. -/
def Paged.write {α : Type} (s : State) (x : α) (p : Paged α) : Paged α :=
  ⟨x, if p.at_ = some (tickId s) then p.prev else p.now, some (tickId s)⟩

/-- A double buffer as it stood at the start of this tick. -/
def Paged.start {α : Type} (s : State) (p : Paged α) : α := if p.at_ = some (tickId s) then p.prev else p.now

/-! ### Free values -/

/-- Draw counter advanced. -/
def draw (s : State) : State := { s with draws := s.draws + 1 }

/-- `n` random bytes of the TRNG (R493). -/
def trngBytes (n : Nat) (s : State) : Bytes × State := (le n (Config.trng s.draws), draw s)

/-- An open value of the given kind. -/
def openVal (kind : Nat) (s : State) : Nat × State := (Config.openValue kind s.draws, draw s)

/-! ### Events (R480 to R487) -/

/-- Class of an event code: 0 L, 1 A, 2 M, 3 EVR_SUPPRESSED; none for a code that *Event codes* does not list. -/
def eventClass (c : Nat) : Option Nat :=
  if c ∈ [0x0101, 0x0102, 0x0201, 0x0401, 0x0402, 0x0601, 0x0602, 0x0603, 0x0604, 0x0A01, 0x0A02, 0x0B01, 0x0B02,
      0x0B03, 0x0D01, 0x0D03, 0x0E01, 0x0E03, 0x0E05, 0x0F01, 0x0F02, 0x1302] then some 0
  else if c ∈ [0x0103, 0x0104, 0x0105, 0x0605, 0x0606, 0x0607, 0x0608, 0x0609, 0x060A, 0x0905, 0x0D02, 0x0E02, 0x0E04,
      0x1002, 0x1003, 0x1103, 0x1301] then some 1
  else if c ∈ [0x0202, 0x0901, 0x0902, 0x0903, 0x0904, 0x1101, 0x1102] then some 2
  else if c = 0x1001 then some 3
  else none

/-- A code whose postings take the 256 places and are never limited (R483). -/
def neverLimited (c : Nat) : Bool := eventClass c == some 2 || c == 0x1301

/-- The LIMIT_OVERRIDE entry that names a code, if any (R492). -/
def overrideOf (s : State) (c : Nat) : Option Nat :=
  ((List.range 16).map fun k => getP s (0x1020 + k)).findSome? fun v =>
    if v / 65536 = c ∧ c ≠ 0 then some (v % 65536) else none

/-- The limit in force for a code; none if it is never limited (R483). -/
def limitOf (s : State) (c : Nat) : Option Nat :=
  if neverLimited c || c == 0x1001 then none
  else match overrideOf s c with
    | some n => some n
    | none => some (if eventClass c == some 0 then getP s 0x1016 else getP s 0x1017)

/-- The counters of a code (R481). -/
def countOf (l : List CodeCount) (c : Nat) : CodeCount :=
  match l.find? (fun x => x.code == c) with
  | some x => x
  | none => ⟨c, 0, 0, 0⟩

/-- A code's counters written, the list kept in ascending code. -/
def putCount (x : CodeCount) : List CodeCount → List CodeCount
  | [] => [x]
  | y :: t => if x.code < y.code then x :: y :: t else if x.code = y.code then x :: t else y :: putCount x t

/-- One occurrence counted as recorded or as rate-limited, in one write (R481). -/
def bumpCount (c : Nat) (limited : Bool) (e : Evr) : Evr :=
  let x := countOf e.counts c
  let x' : CodeCount :=
    if limited then { x with occurred := x.occurred + 1, limited := x.limited + 1 }
    else { x with occurred := x.occurred + 1, recorded := x.recorded + 1 }
  { e with counts := putCount x' e.counts }

/-- A count in a small table of numbers incremented. -/
def bumpTable (l : List (Nat × Nat)) (k : Nat) : List (Nat × Nat) :=
  tableSet (fun _ => 0) l k (tableGet (fun _ => 0) l k + 1)

/-- A posting put in its place: postings of one tick stand in ascending code (R485). -/
def insertPost (p : Posting) : List Posting → List Posting
  | [] => [p]
  | q :: t => if q.at_ = p.at_ ∧ p.code < q.code then p :: q :: t else q :: insertPost p t

/-- Staged postings of classes L and A other than UNCORRECTABLE (R483). -/
def stagedLA (e : Evr) : Nat := (e.staging.filter fun p => !neverLimited p.code).length

/-- A class M or UNCORRECTABLE posting finds a place: 256 of its own and any free one of the 1,024 (R483). -/
def stagingHasPlace (e : Evr) : Bool := decide (e.staging.length < 1280)

/-- A posting entered into the staging ring and counted as recorded. -/
def enterPost (p : Posting) (e : Evr) : Evr :=
  let e := bumpCount p.code false e
  { e with staging := insertPost { p with occurred := (countOf e.counts p.code).occurred.toNat } e.staging }

/-- A posting by a block (R481, R483): recorded, rate-limited, or held by its block when every place is taken. -/
def postingIn (p : Posting) (limit : Option Nat) (e : Evr) : Evr :=
  if neverLimited p.code || p.code == 0x1001 then
    (if stagingHasPlace e && e.heldPosts.isEmpty then enterPost p e else { e with heldPosts := e.heldPosts ++ [p] })
  else
    let n := tableGet (fun _ => 0) e.winRecorded p.code
    if limit.any (fun l => decide (l ≤ n)) then
      { bumpCount p.code true e with winLimited := bumpTable e.winLimited p.code }
    else if 1024 ≤ stagedLA e ∨ !stagingHasPlace e then
      { bumpCount p.code true e with
          winLimited := bumpTable e.winLimited p.code, stagingFull := e.stagingFull + 1 }
    else { enterPost p e with winRecorded := bumpTable e.winRecorded p.code }

/-- A block posts an event with its INDEX, DATA and key identifier (R480). -/
def post (code index : Nat) (data : Bytes) (keyId : Nat) (s : State) : State :=
  let p : Posting :=
    { code := code, index := index, data := data, keyId := keyId, at_ := tickStamp s, mode := s.sys.mode.code,
      lifecycle := s.sec.lifecycle.code, occurred := 0, summary := false, restored := false }
  { s with evr := postingIn p (limitOf s code) s.evr }

/-- BLOCK_EVENTS: the sum of OCCURRED over the codes of a block, modulo 2^32 (R481). -/
def blockEvents (s : State) (b : Nat) : Nat :=
  ((s.evr.counts.filter fun x => x.code / 256 == b).foldl (fun a x => a + x.occurred.toNat) 0) % 2 ^ 32

/-- Free entries of the metrology section (R487). -/
def metroFree (s : State) : Nat := 4096 - s.evr.metro.length

/-! ### Snapshot sources (R535, R536) -/

/-- A snapshot source is detected. Source 0 always counts; the others while their bit of SNAP_CONFIG is set. The first one while the
trigger is armed fixes the snapshot tick, which begins one µs later at the latest; those detected once it has begun are missed. -/
def snapSource (k : Nat) (s : State) : State :=
  if k = 0 || bit (getP s 0x1311) k then
    if s.intg.armed && (s.intg.pending.isNone || decide (monoUs s ≤ s.intg.pendingUs)) then
      { s with intg := { s.intg with
          pending := some (Nat.lor (s.intg.pending.getD 0) (2 ^ k)),
          pendingUs := if s.intg.pending.isSome then s.intg.pendingUs else monoUs s } }
    else { s with intg := { s.intg with snapMissed := s.intg.snapMissed + 1 } }
  else s

/-! ### Memory errors (R529 to R531) -/

/-- A correctable error counted against a block (R530). -/
def correctable (blk : Nat) (s : State) : State :=
  let n := (tableGet (fun _ => 0) s.intg.ceCount blk + 1) % 2 ^ 32
  { s with intg := { s.intg with ceCount := tableSet (fun _ => 0) s.intg.ceCount blk n } }

/-- An error counted in BLOCK_ERRORS of a block (R33). -/
def bumpErrors (blk : Nat) (s : State) : State :=
  let n := (tableGet (fun _ => 0) s.intg.blockErrors blk + 1) % 2 ^ 32
  { s with intg := { s.intg with blockErrors := tableSet (fun _ => 0) s.intg.blockErrors blk n } }

/-- An uncorrectable error in a word not yet marked: counted, recorded, marked (R531). A marked word adds nothing. -/
def uncorrectable (memCode blk addr : Nat) (s : State) : State :=
  if s.intg.marked.contains (memCode, addr) then s else
  let s := bumpErrors blk { s with intg := { s.intg with marked := s.intg.marked ++ [(memCode, addr)] } }
  snapSource 5 (post 0x1301 0 (le 1 memCode ++ le 1 blk ++ le 4 addr ++ le 4 (tableGet (fun _ => 0) s.intg.blockErrors blk)) 0 s)

/-- Words of a memory, from one word address up to another, rewritten whole: they lose their marks (R531). -/
def unmark (code lo hi : Nat) (s : State) : State :=
  { s with intg := { s.intg with
      marked := s.intg.marked.filter fun x => !(x.1 == code && decide (lo ≤ x.2) && decide (x.2 < hi)) } }

/-! ### Replies, credits and tags (R75, R80, R84 to R94, R100, R101) -/

/-- A transport's link. -/
def linkOf (s : State) : Transport → Link
  | .xspi => s.hif.xspi
  | .udp => s.hif.udp
  | .uart => s.hif.uart

/-- A transport's link replaced. -/
def setLink (t : Transport) (l : Link) (s : State) : State :=
  match t with
  | .xspi => { s with hif := { s.hif with xspi := l } }
  | .udp => { s with hif := { s.hif with udp := l } }
  | .uart => { s with hif := { s.hif with uart := l } }

/-- The transport's number in events and sections (R601). -/
def Transport.num : Transport → Nat
  | .xspi => 0
  | .udp => 1
  | .uart => 2

/-- Slot share of a transport (R82). -/
def slotShare (s : State) : Transport → Nat
  | .xspi => 256 - s.hif.shareUdp - s.hif.shareUart
  | .udp => s.hif.shareUdp
  | .uart => s.hif.shareUart

/-- Buffer share of a transport: 8 times its slot share (R82). -/
def bufShare (s : State) (t : Transport) : Nat := 8 * slotShare s t

/-- First tag of a transport's range (R82). -/
def tagBase (s : State) : Transport → Nat
  | .xspi => 0
  | .udp => slotShare s .xspi
  | .uart => slotShare s .xspi + slotShare s .udp

/-- A tag lies in a transport's range (R82). -/
def tagInRange (s : State) (t : Transport) (tag : Nat) : Bool :=
  decide (tagBase s t ≤ tag) && decide (tag < tagBase s t + slotShare s t)

/-- The state of a tag; none when FREE (R89). -/
def tagOf (s : State) (tag : Nat) : Option TagState :=
  match s.hif.tags.find? (fun x => x.1 == tag) with
  | some x => some x.2
  | none => none

/-- A tag's state written in a list of ascending tags. -/
def putTag (tag : Nat) (x : TagState) : List (Nat × TagState) → List (Nat × TagState)
  | [] => [(tag, x)]
  | y :: t => if tag < y.1 then (tag, x) :: y :: t else if tag = y.1 then (tag, x) :: t else y :: putTag tag x t

/-- A tag set. -/
def setTag (tag : Nat) (x : TagState) (s : State) : State :=
  { s with hif := { s.hif with tags := putTag tag x s.hif.tags } }

/-- A tag freed. -/
def freeTag (tag : Nat) (s : State) : State :=
  { s with hif := { s.hif with tags := s.hif.tags.filter fun x => x.1 != tag } }

/-- The commands executing under the tags. -/
def executing (s : State) : List (Nat × Exec) :=
  s.hif.tags.filterMap fun x => match x.2 with
    | .executing e => some (x.1, e)
    | .held _ => none

/-- Device-held slot and buffer credits of a transport: debited, not yet returned (R85). -/
def deviceHeld (s : State) (t : Transport) : Nat × Nat :=
  let ex := (executing s).filter fun x => x.2.org.tr == t
  let q := (s.hif.xspiQ ++ s.hif.uartQ).filter fun r => r.org.tr == t
  (ex.length + q.foldl (fun a r => a + r.heldSlots) 0,
   ex.foldl (fun a x => a + x.2.bufs) 0 + q.foldl (fun a r => a + r.heldBufs) 0)

/-- The bound of R71 is reached: queued replies and commands executing under xSPI. -/
def xspiFull (s : State) : Bool :=
  decide (4095 ≤ s.hif.xspiQ.length + ((executing s).filter fun x => x.2.org.tr == .xspi).length)

/-- RX_READY (R71, XSPI_STATUS). -/
def rxReady (s : State) : Bool := s.hif.up && !xspiFull s

/-- HIF_IRQ follows the queue unless IRQ_HOLDOFF runs (R101). -/
def irqUpdate (s : State) : State :=
  { s with hif := { s.hif with irq := s.hif.irq || (!s.hif.xspiQ.isEmpty && !s.hif.holdoff) } }

/-- The bytes of a reply as it is issued (R75): the session trailer only if the session that verified its request is
still open (R98). -/
def replyBytes (s : State) (r : Reply) : Bytes :=
  let sess := match (linkOf s r.org.tr).session, r.session with
    | some x, some i => if x.serial = i then some x else none
    | _, _ => none
  let vf := 0x18 + (if r.e2e.isSome then 4 else 0) + (if sess.isSome then 1 else 0)
  let head := le 1 vf ++ le 1 r.tag ++ le 2 r.opcode ++ le 2 r.body.length ++ le 2 (r.slots * 32768 + r.bufs) ++
    le 4 r.seq.toNat ++ le 2 r.status ++ le 2 r.flags
  let main := head ++ r.body ++ (match r.e2e with
    | some (a, b) => le 4 a ++ le 4 b
    | none => [])
  let main := main ++ (match sess with
    | some x => hmac384 x.d2h main
    | none => [])
  main ++ le 4 (crc32c main)

/-- Bytes of UDP payload in a fragment of a datagram that is sent in pieces (log entry 105). -/
def pieceBytes : Nat := 1480

/-- The datagrams that carry a UDP payload: one, or fragments if it is larger than 1,500 bytes (R72). -/
def udpFrames (e : Endpoint) (vlan srcPort : Nat) (ip : Option Nat) (dstPort : Nat) (m : Bytes) : List Output :=
  if m.length ≤ 1500 then [.udp ⟨e, vlan, srcPort, ip, dstPort, 0, false, m⟩]
  else
    (List.range (ceilDiv m.length pieceBytes)).map fun i =>
      let off := i * pieceBytes
      .udp ⟨e, vlan, srcPort, ip, dstPort, off, decide (off + pieceBytes < m.length), slice m off pieceBytes⟩

/-- What the host endpoint sends for a reply: from UDP_PORT on HOST_VLAN to the source of the request (R72). -/
def replyFrames (s : State) (r : Reply) : List Output :=
  udpFrames .host (getP s 0x0213) (getP s 0x0211) (some r.org.ip) r.org.port (replyBytes s r)

/-- A reply numbered and handed to its transport: the xSPI queue, the UART transmitter, or the network (R80, R85). -/
def sendReply (r : Reply) (s : State) : State :=
  let l := linkOf s r.org.tr
  let r := { r with seq := l.replySeq, flags := r.flags + 8 * b2n l.unsync }
  let s := setLink r.org.tr { l with replySeq := l.replySeq + 1 } s
  match r.org.tr with
  | .xspi => irqUpdate { s with hif := { s.hif with xspiQ := s.hif.xspiQ ++ [r] } }
  | .uart => { s with hif := { s.hif with uartQ := s.hif.uartQ ++ [r] } }
  | .udp => { s with out := s.out ++ replyFrames s r }

/-- REPLY_FLAGS without UNSYNC (R75). -/
def replyFlags (more regularised repeat_ : Bool) : Nat := 4 * b2n more + 2 * b2n regularised + b2n repeat_

/-- The first delivery of a result (R91). -/
def firstDelivery (tag : Nat) (e : Exec) (h : Held) : Reply :=
  { org := e.org, tag := tag, opcode := e.op, status := h.status, body := h.body.take 4096, slots := 1, bufs := e.bufs,
    heldSlots := 1, heldBufs := e.bufs, seq := 0, flags := replyFlags (decide (4096 < h.body.length)) h.regularised false,
    e2e := if e.e2e then some (h.reqCrc, h.resCrc) else none, session := e.auth.session }

/-- Completion of the command under a tag: its result is HELD and its reply issued (R89, R91, R100). -/
def complete (tag status : Nat) (regularised : Bool) (body : Bytes) (s : State) : State :=
  match tagOf s tag with
  | some (.executing e) =>
    let h : Held :=
      { status := status, regularised := regularised, body := body, reqCrc := e.reqCrc, resCrc := crc32c body }
    sendReply (firstDelivery tag e h) (setTag tag (.held h) s)
  | _ => s

/-- Completion of the command under a tag with a status that no tag holds (R102): the reply is issued and the tag is free. -/
def completeFree (tag status : Nat) (body : Bytes) (s : State) : State := freeTag tag (complete tag status false body s)

/-- The tags whose command waits as `f` says, in ascending order. -/
def waiting (f : Wait → Bool) (s : State) : List Nat := (executing s).filterMap fun x => if f x.2.wait then some x.1 else none

/-- Every command that waits as `f` says completes alike. -/
def completeAll (f : Wait → Bool) (status : Nat) (regularised : Bool) (body : Bytes) (s : State) : State :=
  (waiting f s).foldl (fun s t => complete t status regularised body s) s

/-! ### Status codes (R102) -/

def stOK : Nat := 0x0000
def stPending : Nat := 0x0001
def stDeadlineBest : Nat := 0x0002
def stStale : Nat := 0x0003
def stNoSolution : Nat := 0x0004
def stBadOpcode : Nat := 0x0010
def stBadLength : Nat := 0x0011
def stBadParam : Nat := 0x0012
def stNotInState : Nat := 0x0013
def stBusy : Nat := 0x0014
def stAuthRequired : Nat := 0x0020
def stAuthFailed : Nat := 0x0021
def stCrcError : Nat := 0x0030
def stSequenceError : Nat := 0x0031
def stCreditOverrun : Nat := 0x0032
def stDeadlineMiss : Nat := 0x0040
def stNumeric : Nat := 0x0041
def stTamper : Nat := 0x0050
def stNoResult : Nat := 0x0060
def stInternal : Nat := 0x0070

/-- NOT_IN_STATE reply body (R51). -/
def notInStateBody (s : State) : Bytes :=
  le 1 s.sys.mode.code ++ le 1 s.sec.lifecycle.code ++ le 1 (b2n s.sys.trans.isSome) ++ [0]

/-- What the effect of a command answers: a rejection at check 8, a completion, or a wait. -/
inductive CmdRes where
  /-- Rejected BAD_PARAM at a payload offset; nothing changes (R78). -/
  | badParam (off : Nat)
  /-- Rejected with another status and body; nothing changes. -/
  | reject (status : Nat) (body : Bytes)
  /-- Answered at once without the tag becoming EXECUTING or HELD: RESULT_FETCH, RESULT_RELEASE, HIF_CREDIT_SYNC. -/
  | answer (status : Nat) (flags : Nat) (body : Bytes) (e2e : Option (Nat × Nat)) (s : State)
  /-- Completed at once. -/
  | done (status : Nat) (regularised : Bool) (body : Bytes) (s : State)
  /-- Completed at once with OK, and what follows the reply. -/
  | doneThen (body : Bytes) (s : State) (after : State → State)
  /-- Accepted and waiting. -/
  | wait (w : Wait) (s : State)

/-- Fields checked in payload order: the offset of the first that fails (R600). -/
def firstBad : List (Bool × Nat) → Option Nat
  | [] => none
  | (ok, off) :: t => if ok then firstBad t else some off

/-- A command guarded by its payload checks: each a condition that must hold and the offset reported otherwise. -/
def checked (cs : List (Bool × Nat)) (k : CmdRes) : CmdRes :=
  match firstBad cs with
  | some off => .badParam off
  | none => k

/-- Completed at once with OK. -/
def CmdRes.ok (body : Bytes) (s : State) : CmdRes := .done stOK false body s

/-- A vector read at a number; a given value past its end. -/
def vget {α : Type} {n : Nat} (v : Vector α n) (i : Nat) (d : α) : α := (v[i]?).getD d

/-- A vector written at a number; unchanged past its end. -/
def vset {α : Type} {n : Nat} (v : Vector α n) (i : Nat) (x : α) : Vector α n := v.setIfInBounds i x

/-! ### The main domain (R545, R556) -/

/-- The main domain runs. -/
def mainRuns (s : State) : Bool := !s.sys.inReset && s.sys.mode != .backup

/-- SOC_EN: some flight is not OFF, outside BACKUP and reset (R545). -/
def socEn (s : State) : Bool := mainRuns s && s.pwr.flights.toList.any fun f => f != .off

end Sys2Proof.Machine
end

