-- ==== Sys2Proof/Machine/Display.lean ====
section
/-! DEFINITION. Update requests of the display: regions, queue and supersession (R469, R471). -/

namespace Sys2Proof.Machine

/-- HEIGHT and WIDTH of PANEL_CONFIG. -/
def panelHeight (s : State) : Nat := getP s 0x0F10 / 2 ^ 20
def panelWidth (s : State) : Nat := bits (getP s 0x0F10) 19 8

/-- The display is in use (R461). -/
def panelOn (s : State) : Bool := panelHeight s != 0 && panelWidth s != 0

/-- EPD runs (*Display by mode*). -/
def epdRuns (s : State) : Bool :=
  panelOn s && !s.sys.inReset && s.sys.mode != .backup && s.sys.mode != .boot && s.sys.mode != .holdup

/-- EPD changed. -/
def updEpd (f : Epd → Epd) (s : State) : State := { s with epd := f s.epd }

/-- The rectangle of a region: the strips, a host region, or the whole panel (R469). -/
def regionRect (s : State) (r : Nat) : Rect :=
  let strip := panelHeight s / 8
  if r = 0 then ⟨0, 0, panelWidth s, strip⟩
  else if r = 1 then ⟨0, strip, panelWidth s, strip⟩
  else if r = 16 then ⟨0, 0, panelWidth s, panelHeight s⟩
  else vget s.epd.rects r ⟨0, 0, 0, 0⟩

/-- *EPD_DRAW reply* of a request that was superseded: OUTCOME 1. -/
def supersededBody : Bytes := le 1 1 ++ zeros 23

/-- An update request (R471): it replaces one that is queued for its region, which completes as superseded. -/
def epdRequest (r : EpdReq) (s : State) : State :=
  match s.epd.queue.find? fun q => q.region == r.region with
  | some q =>
    let s := updEpd
      (fun e => { e with queue := e.queue.filter (fun x => x.id != q.id) ++ [r], superseded := e.superseded + 1 }) s
    completeAll (fun w => w == .display q.id) stOK false supersededBody s
  | none => updEpd (fun e => { e with queue := e.queue ++ [r] }) s

/-- A new request of the device itself for a region. -/
def requestRegion (region waveform : Nat) (all : Bool) (s : State) : State :=
  if !epdRuns s then s else
  let r : EpdReq :=
    { id := s.epd.nextId, region := region, rect := regionRect s region, waveform := waveform, all := all, auto := false }
  epdRequest r (updEpd (fun e => { e with nextId := e.nextId + 1 }) s)

/-- Core 3 requests a strip with a waveform (R477). -/
def requestStrip (k waveform : Nat) (s : State) : State := requestRegion k waveform false s

end Sys2Proof.Machine
end

