-- ==== Sys2Proof/Machine/Gallery.lean ====
section
/-! DEFINITION. The Gallery (R15 to R21, R36): initiators and their quotas, classes, bursts, arbitration, the pool of tags and the
responses that return them. The rows act at whole microseconds, in which a burst that meets no congestion begins and ends
(log entry 110). -/

namespace Sys2Proof.Machine

/-! ### Initiators and quotas (R16, R19) -/

/-- The initiators by number (log entry 110): flights 0 to 7, supervisor cores, control engines, metrology engine, Concourse, motion
sequencer, security core, display engine, HIF, PIO. -/
def iFlight (n : Nat) : Nat := n
def iCore (n : Nat) : Nat := 8 + n
def iCtrl (e : Nat) : Nat := 12 + e
def iMetrology : Nat := 14
def iConcourse : Nat := 15
def iMotion : Nat := 16
def iSecurity : Nat := 17
def iDisplay : Nat := 18
def iHif : Nat := 19
def iPio : Nat := 20

/-- *Gallery tag quotas*: the transactions that an initiator may hold. -/
def tagQuota (i : Nat) : Nat :=
  if i < 8 then 32 else if i < 12 then 24 else if i < 15 then 8 else if i = 15 then 32 else if i < 19 then 8
  else if i = 19 then 32 else 4

/-- The class of an initiator's traffic (*Gallery classes*). -/
def classOf (i : Nat) : GClass :=
  if i < 8 then .p3 else if i < 12 then .p2 else if i < 15 then .p0 else if i = 16 then .p1 else if i = 18 then .p3
  else if i = 20 then .p0 else .p2

/-- Priority of a class, P0 first. -/
def GClass.rank : GClass → Nat
  | .p0 => 0
  | .p1 => 1
  | .p2 => 2
  | .p3 => 3

/-- Beats of the longest burst of a class at an Atrium bank; the manual limits none elsewhere, and the model divides transfers there
alike (R17, log entry 110). -/
def burstLimit (c : GClass) : Nat := if c = .p0 then 16 else 4

/-! ### The pool of tags (R19) -/

/-- Tags held in a class. -/
def heldIn (g : Gallery) (c : GClass) : Nat := (g.held.filter fun b => b.cls == c).length

/-- Tags of the shared 448 in use: P2, P3, and what P0 and P1 hold beyond their 32. -/
def sharedHeld (g : Gallery) : Nat := (heldIn g .p0 - 32) + (heldIn g .p1 - 32) + heldIn g .p2 + heldIn g .p3

/-- A class finds a tag: one reserved for it, or a shared one. -/
def tagFree (g : Gallery) (c : GClass) : Bool :=
  (match c with
   | .p0 | .p1 => decide (heldIn g c < 32)
   | .p2 | .p3 => false) || decide (sharedHeld g < 448)

/-- A burst may be granted: a tag is free for its class, and its initiator holds fewer than its quota. -/
def mayIssue (g : Gallery) (b : Burst) : Bool :=
  tagFree g b.cls && decide ((g.held.filter fun x => x.src == b.src).length < tagQuota b.src)

/-! ### Arbitration (R16, R17, R18) -/

/-- The class in which a burst is arbitrated: a promoted P3 one in P2, and never higher (R18). -/
def Burst.rank (b : Burst) : Nat := if b.promoted then 2 else b.cls.rank

/-- The initiator granted last at a port in a class of that rank. -/
def lastTurn (g : Gallery) (p : GPort) (c : GClass) : Nat :=
  match g.turns.find? fun t => t.1 == (p, c) with
  | some t => t.2
  | none => 20

/-- How far an initiator stands behind the one granted last, in round-robin order. -/
def turnDist (last i : Nat) : Nat := (i + 20 - last) % 21

/-- The class of a rank. -/
def classOfRank : Nat → GClass
  | 0 => .p0
  | 1 => .p1
  | 2 => .p2
  | _ => .p3

/-- Burst `a` goes before `b` at a port: higher class first, then round-robin of initiators, then the order of arrival. -/
def beforeAt (g : Gallery) (p : GPort) (a b : Burst) : Bool :=
  if a.rank ≠ b.rank then decide (a.rank < b.rank)
  else
    let last := lastTurn g p (classOfRank a.rank)
    decide (turnDist last a.src < turnDist last b.src)

/-- The place of the burst that an arbitration at a port grants; the list is in order of arrival. -/
def winner (g : Gallery) (p : GPort) : Option (Nat × Burst) :=
  (g.waiting.zipIdx.filter fun x => x.1.port == p && mayIssue g x.1).foldl (fun w x =>
    match w with
    | none => some (x.2, x.1)
    | some y => if beforeAt g p x.1 y.2 then some (x.2, x.1) else some y) none

/-- One arbitration at a port: the winner takes a tag and runs whole, and the promotions there are used up (R17, R18). -/
def arbitratePort (p : GPort) (g : Gallery) : Gallery :=
  match winner g p with
  | none => { g with waiting := g.waiting.map fun b => if b.port = p then { b with promoted := false } else b }
  | some (k, b) =>
    { g with
      waiting := (g.waiting.eraseIdx k).map (fun x => if x.port = p then { x with promoted := false } else x),
      held := g.held ++ [{ b with promoted := false }], issued := g.issued + 1,
      turns := ((p, classOfRank b.rank), b.src) :: g.turns.filter fun t => !(t.1 == (p, classOfRank b.rank)) }

/-- Every port arbitrates until no burst that waits can be granted. -/
def grantAll : Nat → Gallery → Gallery
  | 0, g => g
  | n + 1, g =>
    match g.waiting.find? fun b => mayIssue g b with
    | none => g
    | some b => grantAll n (arbitratePort b.port g)

/-- Arbitration for as many grants as bursts wait. -/
def settleGal (g : Gallery) : Gallery := grantAll g.waiting.length g

/-! ### Requests and responses (R17, R21) -/

/-- The lengths of the bursts of a transfer. -/
def burstLens (limit beats : Nat) : List Nat :=
  (List.range (ceilDiv beats limit)).map fun i => min limit (beats - i * limit)

/-- A transfer of `len` bytes requested: its bursts wait. -/
def request (src : Nat) (cls : GClass) (port : GPort) (write : Bool) (len now : Nat) (g : Gallery) : Gallery :=
  { g with waiting := g.waiting ++
      (burstLens (burstLimit cls) (ceilDiv len 16)).map fun n => ⟨src, cls, port, n, write, now, false, false⟩ }

/-- The responses to the bursts of which `f` holds: each returns its tag (R21). -/
def respond (f : Burst → Bool) (g : Gallery) : Gallery :=
  { g with
    held := g.held.filter fun b => !f b, returned := g.returned + (g.held.filter f).length }

/-- A transfer that meets no congestion: each of its bursts is granted, runs and is answered within the tick (log entry 110). -/
def transferGal (src : Nat) (cls : GClass) (port : GPort) (len : Nat) (g : Gallery) : Gallery :=
  let n := (burstLens (burstLimit cls) (ceilDiv len 16)).length
  if n = 0 then g else
  { g with
    issued := g.issued + n, returned := g.returned + n,
    turns := ((port, cls), src) :: g.turns.filter fun t => !(t.1 == (port, cls)) }

/-- The Gallery changed. -/
def updGal (f : Gallery → Gallery) (s : State) : State := { s with gal := f s.gal }

/-- A transfer of an initiator that begins and ends within the tick. -/
def transfer (src : Nat) (port : GPort) (len : Nat) (s : State) : State := updGal (transferGal src (classOf src) port len) s

/-- A page published into its read window: the metrology engine writes it in class P0 (R16, R22). -/
def publishWindow (len : Nat) (s : State) : State := transfer iMetrology (.block 0x07) len s

/-- A read window read by an engine outside, in the engine's own burst length; class P0 is that of the windows (R16, R22). -/
def readWindow (src len : Nat) (s : State) : State := updGal (transferGal src .p0 (.block 0x07) len) s

/-! ### Flights (R141, R146, R168) -/

/-- Where a flight's read goes: Atrium banks 4 to 7, or LPDDR4X behind MEM. -/
def readPort (k : Nat) : GPort := if k < 4 then .bank (4 + k) else .block 0x15

/-- The reads that a flight has requested of other memories than its own when its job has started: at most its 64 outstanding
gathers, a number and targets that the manual does not state (kinds 67 and 68, log entry 110). -/
def flightReads (now d : Nat) (f : Nat) : List Burst :=
  (List.range (Config.openValue 67 (d * 8 + f) % 65)).map fun i =>
    ⟨iFlight f, .p3, readPort (Config.openValue 68 ((d * 8 + f) * 64 + i) % 5), 4, false, now, false, false⟩

/-- The flights of a mask begin to read: at most 32 each hold a tag, and the rest wait (R19, R141). -/
def startReads (mask : Nat) (s : State) : State :=
  let new := ((List.range 8).filter fun f => bit mask f).flatMap (flightReads (monoUs s) s.draws)
  { s with gal := settleGal { s.gal with waiting := s.gal.waiting ++ new }, draws := s.draws + 1 }

/-- A burst of a flight of a mask. -/
def ofFlights (mask : Nat) (b : Burst) : Bool := decide (b.src < 8) && bit mask b.src

/-- The flights of a mask have ended their job: what they requested has been answered with data. -/
def endReads (mask : Nat) (s : State) : State :=
  let n := (s.gal.waiting.filter (ofFlights mask)).length
  updGal (fun g => settleGal (respond (ofFlights mask)
    { g with waiting := g.waiting.filter fun b => !ofFlights mask b, issued := g.issued + n, returned := g.returned + n })) s

/-- The flights of a mask stop at once: no further request is issued, and the reads that hold a tag are abandoned (R168). -/
def abandonReads (mask : Nat) (s : State) : State :=
  updGal (fun g => settleGal { g with
    waiting := g.waiting.filter fun b => !ofFlights mask b,
    held := g.held.map fun b => if ofFlights mask b then { b with abandoned := true } else b }) s

/-- The first burst of which `f` holds is answered. -/
def respondFirst (f : Burst → Bool) (g : Gallery) : Gallery :=
  match g.held.findIdx? f with
  | some k => settleGal { g with held := g.held.eraseIdx k, returned := g.returned + 1 }
  | none => g

/-- The first P3 request that has waited 10 µs is promoted to P2 for its next arbitration, which follows (R18). -/
def promoteFirst (now : Nat) (g : Gallery) : Gallery :=
  match g.waiting.findIdx? fun b => b.cls == .p3 && !b.promoted && decide (b.since + 10 ≤ now) with
  | some k => settleGal { g with waiting := g.waiting.modify k fun b => { b with promoted := true } }
  | none => g

/-- Tags issued = tags returned + tags outstanding, at most 512, of which every class and initiator holds no more than its share (R19,
R36). -/
def Gallery.balanced (g : Gallery) : Bool :=
  decide (g.issued = g.returned + g.held.length) && decide (g.held.length ≤ 512) && decide (sharedHeld g ≤ 448) &&
    (List.range 21).all fun i => decide ((g.held.filter fun b => b.src == i).length ≤ tagQuota i)

end Sys2Proof.Machine
end

