-- ==== Sys2Proof/Machine/Float.lean ====
section
/-! DEFINITION. Binary floating point by exact integer arithmetic: the binary64 and binary32 formats, one
rounding to nearest, ties to even, and the operations the manual uses. Values are held as their bits. -/

namespace Sys2Proof.Machine

/-- A binary format: precision in bits, exponent width, and the exponent of the least subnormal. -/
structure Fmt where
  p : Nat
  ebits : Nat
  emin : Int
  deriving DecidableEq, Repr

/-- binary64. -/
def f64 : Fmt := ⟨53, 11, -1074⟩

/-- binary32. -/
def f32 : Fmt := ⟨24, 8, -149⟩

/-- A floating-point datum: not a number, an infinity, or `± m · 2^e`. -/
inductive Fp where
  | nan
  | inf (neg : Bool)
  | fin (neg : Bool) (m : Nat) (e : Int)
  deriving DecidableEq, Repr

/-- The datum that a bit pattern of a format stands for. -/
def Fp.unpack (f : Fmt) (v : Nat) : Fp :=
  let fr := v % 2 ^ (f.p - 1)
  let ex := (v >>> (f.p - 1)) % 2 ^ f.ebits
  let s := bit v (f.p - 1 + f.ebits)
  if ex = 2 ^ f.ebits - 1 then (if fr = 0 then .inf s else .nan)
  else if ex = 0 then .fin s fr f.emin
  else .fin s (fr + 2 ^ (f.p - 1)) (f.emin + (ex : Int) - 1)

/-- The bit pattern from its sign, biased exponent and fraction. -/
def Fp.pack (f : Fmt) (s : Bool) (ex fr : Nat) : Nat :=
  b2n s * 2 ^ (f.p - 1 + f.ebits) + ex * 2 ^ (f.p - 1) + fr

/-- The quiet not-a-number that the model writes where a NaN results. Its bits are the model's choice
(log entry 12). -/
def Fp.qnan (f : Fmt) : Nat := Fp.pack f false (2 ^ f.ebits - 1) (2 ^ (f.p - 2))

/-- An infinity's bits. -/
def Fp.infBits (f : Fmt) (s : Bool) : Nat := Fp.pack f s (2 ^ f.ebits - 1) 0

/-- The length of a number in bits. -/
def bitLen (m : Nat) : Nat := if m = 0 then 0 else Nat.log2 m + 1

/-- `± (m + δ) · 2^e` rounded once to nearest, ties to even; `δ` in (0, 1) if `sticky`, else 0. With
`sticky` the caller gives `m` at least `p + 2` bits. -/
def Fp.round (f : Fmt) (s : Bool) (m : Nat) (e : Int) (sticky : Bool) : Nat :=
  if m = 0 then Fp.pack f s 0 0 else
  let q := max (e + (bitLen m : Int) - (f.p : Int)) f.emin
  let r :=
    if q ≤ e then m * 2 ^ (e - q).toNat
    else
      let sh := (q - e).toNat
      let d := m / 2 ^ sh
      let rem := m % 2 ^ sh
      let half := 2 ^ (sh - 1)
      if half < rem || (rem == half && (sticky || d % 2 == 1)) then d + 1 else d
  let (r, q) := if r = 2 ^ f.p then (2 ^ (f.p - 1), q + 1) else (r, q)
  if r < 2 ^ (f.p - 1) then Fp.pack f s 0 r
  else
    let ex := (q - f.emin + 1).toNat
    if 2 ^ f.ebits - 1 ≤ ex then Fp.infBits f s else Fp.pack f s ex (r - 2 ^ (f.p - 1))

/-- An integer times a power of two, rounded once; an exact zero is +0. -/
def Fp.ofScaled (f : Fmt) (v : Int) (e : Int) : Nat := Fp.round f (decide (v < 0)) v.natAbs e false

/-- An integer rounded to a format. -/
def Fp.ofInt (f : Fmt) (v : Int) : Nat := Fp.ofScaled f v 0

/-- A quotient of integers rounded once to a format (`d` not 0). -/
def Fp.ofRatio (f : Fmt) (n : Int) (d : Nat) : Nat :=
  if d = 0 then Fp.qnan f else
  let k := f.p + 3 + bitLen d
  let num := n.natAbs * 2 ^ k
  Fp.round f (decide (n < 0)) (num / d) (-(k : Int)) (num % d != 0)

/-- A datum as a signed integer at the scale `2^e0` (`e0` at most the datum's own exponent). -/
def Fp.scaledAt (neg : Bool) (m : Nat) (e e0 : Int) : Int :=
  let v : Int := (m * 2 ^ (e - e0).toNat : Nat)
  if neg then -v else v

/-- The sum of two data, rounded once. -/
def Fp.addD (f : Fmt) : Fp → Fp → Nat
  | .nan, _ => Fp.qnan f
  | _, .nan => Fp.qnan f
  | .inf s, .inf t => if s = t then Fp.infBits f s else Fp.qnan f
  | .inf s, _ => Fp.infBits f s
  | _, .inf t => Fp.infBits f t
  | .fin s m e, .fin t n g =>
    let e0 := min e g
    let v := Fp.scaledAt s m e e0 + Fp.scaledAt t n g e0
    if v = 0 then Fp.pack f (s && t && m == 0 && n == 0) 0 0 else Fp.ofScaled f v e0

/-- The negated datum. -/
def Fp.neg : Fp → Fp
  | .nan => .nan
  | .inf s => .inf (!s)
  | .fin s m e => .fin (!s) m e

/-- The product of two data, exact as a datum. -/
def Fp.mulExact : Fp → Fp → Fp
  | .nan, _ => .nan
  | _, .nan => .nan
  | .inf s, .inf t => .inf (s != t)
  | .inf s, .fin t n _ => if n = 0 then .nan else .inf (s != t)
  | .fin s m _, .inf t => if m = 0 then .nan else .inf (s != t)
  | .fin s m e, .fin t n g => .fin (s != t) (m * n) (e + g)

/-- A datum rounded once to a format. -/
def Fp.toBits (f : Fmt) : Fp → Nat
  | .nan => Fp.qnan f
  | .inf s => Fp.infBits f s
  | .fin s m e => Fp.round f s m e false

/-- The sum of two bit patterns. -/
def fadd (f : Fmt) (a b : Nat) : Nat := Fp.addD f (Fp.unpack f a) (Fp.unpack f b)

/-- The difference of two bit patterns. -/
def fsub (f : Fmt) (a b : Nat) : Nat := Fp.addD f (Fp.unpack f a) (Fp.unpack f b).neg

/-- The product of two bit patterns. -/
def fmul (f : Fmt) (a b : Nat) : Nat := Fp.toBits f (Fp.mulExact (Fp.unpack f a) (Fp.unpack f b))

/-- The fused product and sum `a·b + c`, rounded once. -/
def fma (f : Fmt) (a b c : Nat) : Nat := Fp.addD f (Fp.mulExact (Fp.unpack f a) (Fp.unpack f b)) (Fp.unpack f c)

/-- The quotient of two data, rounded once. -/
def Fp.divD (f : Fmt) : Fp → Fp → Nat
  | .nan, _ => Fp.qnan f
  | _, .nan => Fp.qnan f
  | .inf _, .inf _ => Fp.qnan f
  | .inf s, .fin t _ _ => Fp.infBits f (s != t)
  | .fin s _ _, .inf t => Fp.pack f (s != t) 0 0
  | .fin s m e, .fin t n g =>
    if n = 0 then (if m = 0 then Fp.qnan f else Fp.infBits f (s != t))
    else if m = 0 then Fp.pack f (s != t) 0 0
    else
      let k := f.p + 3 + bitLen n
      let num := m * 2 ^ k
      Fp.round f (s != t) (num / n) (e - g - (k : Int)) (num % n != 0)

/-- The quotient of two bit patterns. -/
def fdiv (f : Fmt) (a b : Nat) : Nat := Fp.divD f (Fp.unpack f a) (Fp.unpack f b)

/-- The integer square root found bit by bit from bit `i - 1` down. -/
def isqrtFrom (n : Nat) : Nat → Nat → Nat
  | 0, r => r
  | i + 1, r => let t := r + 2 ^ i; isqrtFrom n i (if t * t ≤ n then t else r)

/-- The integer square root. -/
def isqrt (n : Nat) : Nat := isqrtFrom n (bitLen n / 2 + 1) 0

/-- The square root of a datum, rounded once. -/
def Fp.sqrtD (f : Fmt) : Fp → Nat
  | .nan => Fp.qnan f
  | .inf s => if s then Fp.qnan f else Fp.infBits f false
  | .fin s m e =>
    if m = 0 then Fp.pack f s 0 0
    else if s then Fp.qnan f
    else
      let k := 2 * (f.p + 2) + (e % 2).toNat
      let n := m * 2 ^ k
      let r := isqrt n
      Fp.round f false r ((e - (k : Int)) / 2) (r * r != n)

/-- The square root of a bit pattern. -/
def fsqrt (f : Fmt) (a : Nat) : Nat := Fp.sqrtD f (Fp.unpack f a)

/-- Three-way comparison of data: `none` when unordered. -/
def Fp.cmp : Fp → Fp → Option Ordering
  | .nan, _ => none
  | _, .nan => none
  | .inf s, .inf t => some (if s = t then .eq else if s then .lt else .gt)
  | .inf s, _ => some (if s then .lt else .gt)
  | _, .inf t => some (if t then .gt else .lt)
  | .fin s m e, .fin t n g =>
    let e0 := min e g
    some (compare (Fp.scaledAt s m e e0) (Fp.scaledAt t n g e0))

/-- Three-way comparison of bit patterns. -/
def fcmp (f : Fmt) (a b : Nat) : Option Ordering := Fp.cmp (Fp.unpack f a) (Fp.unpack f b)

/-- `a < b` as values. -/
def flt (f : Fmt) (a b : Nat) : Bool := fcmp f a b == some .lt

/-- `a ≤ b` as values. -/
def fle (f : Fmt) (a b : Nat) : Bool := fcmp f a b == some .lt || fcmp f a b == some .eq

/-- `a = b` as values. -/
def feq (f : Fmt) (a b : Nat) : Bool := fcmp f a b == some .eq

/-- The bit pattern is a NaN. -/
def fIsNan (f : Fmt) (a : Nat) : Bool := Fp.unpack f a == .nan

/-- The bit pattern is a finite value. -/
def fFinite (f : Fmt) (a : Nat) : Bool :=
  match Fp.unpack f a with
  | .fin _ _ _ => true
  | _ => false

/-- The sign bit of a pattern set or cleared. -/
def fSetSign (f : Fmt) (a : Nat) (s : Bool) : Nat := setBit a (f.p - 1 + f.ebits) s

/-- The sign bit of a pattern. -/
def fSign (f : Fmt) (a : Nat) : Bool := bit a (f.p - 1 + f.ebits)

/-- The negated pattern. -/
def fneg (f : Fmt) (a : Nat) : Nat := fSetSign f a (!fSign f a)

/-- The absolute value of a pattern. -/
def fabs (f : Fmt) (a : Nat) : Nat := fSetSign f a false

/-- A finite value truncated toward zero to an integer. -/
def Fp.truncInt (s : Bool) (m : Nat) (e : Int) : Int :=
  let v : Int := if 0 ≤ e then ((m * 2 ^ e.toNat : Nat) : Int) else ((m / 2 ^ (-e).toNat : Nat) : Int)
  if s then -v else v

/-- A finite value rounded to the nearest integer, ties to even. -/
def Fp.nearInt (s : Bool) (m : Nat) (e : Int) : Int :=
  let v : Nat :=
    if 0 ≤ e then m * 2 ^ e.toNat
    else
      let k := (-e).toNat
      let d := m / 2 ^ k
      let rem := m % 2 ^ k
      if 2 ^ k < 2 * rem || (2 * rem == 2 ^ k && d % 2 == 1) then d + 1 else d
  if s then -(v : Int) else (v : Int)

/-- A value of one format converted to another, rounded once. -/
def fconv (f g : Fmt) (a : Nat) : Nat := Fp.toBits g (Fp.unpack f a)

/-- A finite value as an integer at the scale `2^-k`, truncated toward zero; none for NaN and infinity. -/
def fToScaled (f : Fmt) (a k : Nat) : Option Int :=
  match Fp.unpack f a with
  | .fin s m e => some (Fp.truncInt s m (e + (k : Int)))
  | _ => none

/-- A finite value as an integer at the scale `2^-k`, rounded to nearest, ties to even. -/
def fToScaledNear (f : Fmt) (a k : Nat) : Option Int :=
  match Fp.unpack f a with
  | .fin s m e => some (Fp.nearInt s m (e + (k : Int)))
  | _ => none

end Sys2Proof.Machine
end

