-- ==== Sys2Proof/Machine/Water.lean ====
section
/-! DEFINITION. Density and specific enthalpy of water by IAPWS-IF97 region 1 at 1.6 MPa (R319), in fixed point with 160
fraction bits, and the metrology engine's evaluation within 0.002 % of it. The coefficients are those of the
published formulation, which the manual names (log entry 14). -/

namespace Sys2Proof.Machine

/-- The 34 terms of IF97 region 1: I, J, and the coefficient as an integer over a power of ten. -/
def if97Terms : List (Nat × Int × Int × Nat) :=
  [(0, -2, 14632971213167, 14),
   (0, -1, -84548187169114, 14),
   (0, 0, -37563603672040, 13),
   (0, 1, 33855169168385, 13),
   (0, 2, -95791963387872, 14),
   (0, 3, 15772038513228, 14),
   (0, 4, -16616417199501, 15),
   (0, 5, 81214629983568, 17),
   (1, -9, 28319080123804, 17)] ++
  [(1, -7, -60706301565874, 17),
   (1, -1, -18990068218419, 15),
   (1, 0, -32529748770505, 15),
   (1, 1, -21841717175414, 15),
   (1, 3, -52838357969930, 18),
   (2, -3, -47184321073267, 17),
   (2, 0, -30001780793026, 17),
   (2, 1, 47661393906987, 18),
   (2, 3, -44141845330846, 19)] ++
  [(2, 17, -72694996297594, 29),
   (3, -4, -31679644845054, 18),
   (3, 0, -28270797985312, 19),
   (3, 6, -85205128120103, 23),
   (4, -5, -22425281908000, 19),
   (4, -2, -65171222895601, 20),
   (4, 10, -14341729937924, 26),
   (5, -8, -40516996860117, 20),
   (8, -11, -12734301741641, 22)] ++
  [(8, -6, -17424871230634, 23),
   (21, -29, -68762131295531, 32),
   (23, -31, 14478307828521, 33),
   (29, -38, 26335781662795, 36),
   (30, -39, -11947622640071, 36),
   (31, -40, 18228094581404, 37),
   (32, -41, -93537087292458, 39)]

/-- One in the fixed-point scale. -/
def fxOne : Int := 2 ^ 160

/-- A fixed-point product. -/
def fxMul (a b : Int) : Int := a * b / fxOne

/-- A fixed-point power with a natural exponent. -/
def fxPow (a : Int) : Nat → Int
  | 0 => fxOne
  | n + 1 => fxMul (fxPow a n) a

/-- A fixed-point power with an integer exponent. -/
def fxPowZ (a : Int) (k : Int) : Int :=
  if 0 ≤ k then fxPow a k.toNat else fxPow (fxOne * fxOne / a) (-k).toNat

/-- 7.1 − π at 1.6 MPa, where π is 1.6 / 16.53. -/
def if97A : Int := fxOne * 71 / 10 - fxOne * 160 / 1653

/-- The derivative of the dimensionless Gibbs energy by π. -/
def if97GammaPi (b : Int) : Int :=
  if97Terms.foldl (fun acc t =>
    let (i, j, n, k) := t
    if i = 0 then acc else
      acc - n * (i : Int) * fxMul (fxPow if97A (i - 1)) (fxPowZ b j) / (10 ^ k : Nat)) 0

/-- The derivative of the dimensionless Gibbs energy by τ. -/
def if97GammaTau (b : Int) : Int :=
  if97Terms.foldl (fun acc t =>
    let (i, j, n, k) := t
    acc + n * j * fxMul (fxPow if97A i) (fxPowZ b (j - 1)) / (10 ^ k : Nat)) 0

/-- The temperature in K, in fixed point, of a binary64 temperature in °C; below 0 °C it is taken as 0 °C (R319). -/
def if97Kelvin (t : Nat) : Int := max 0 ((fToScaledNear f64 t 160).getD 0) + fxOne * 27315 / 100

/-- Density in kg/m³, in fixed point. -/
def if97Rho (t : Nat) : Int :=
  let k := if97Kelvin t
  let b := fxOne * fxOne * 1386 / k - fxOne * 1222 / 1000
  -- ρ = p / (R·T·π·γ_π) with p / π = 16.53 MPa and R = 461.526 J/(kg K)
  fxOne * fxOne * 16530000000 / (461526 * fxMul k (if97GammaPi b))

/-- Specific enthalpy in J/kg, in fixed point: R·1386·γ_τ. -/
def if97H (t : Nat) : Int :=
  let k := if97Kelvin t
  let b := fxOne * fxOne * 1386 / k - fxOne * 1222 / 1000
  461526 * 1386 * if97GammaTau b / 1000

/-- A free value held to within 0.002 % of an exact one; the exact one rounded where the free one leaves the bound. -/
def within (free : W64) (exact : Int) : W64 :=
  match fToScaled f64 free.toNat 160 with
  | some v => if (v - exact).natAbs * 50000 ≤ exact.natAbs then free else BitVec.ofNat 64 (Fp.ofScaled f64 exact (-160))
  | none => BitVec.ofNat 64 (Fp.ofScaled f64 exact (-160))

/-- ρ as the metrology engine evaluates it (R319). -/
def waterRho (t : W64) : W64 := within (Config.waterRho t) (if97Rho t.toNat)

/-- h as the metrology engine evaluates it (R319). -/
def waterH (t : W64) : W64 := within (Config.waterH t) (if97H t.toNat)

end Sys2Proof.Machine
end

