-- ==== Sys2Proof/Machine/Thermal.lean ====
section
/-! DEFINITION. Thermal metering and the registers' snapshot points (R310 to R331, R355): temperatures, spans, quanta,
pages and interval records. -/

namespace Sys2Proof.Machine

/-! ### Metering time -/

/-- Metering time in whole seconds: PTP seconds less the TAI−UTC offset, held during an inserted leap second
(R326, R434). -/
def meterSec (s : State) : Nat :=
  let raw := ((ptpSec s : Int) - s.time.utcOffset).toNat
  if s.time.leap = 1 ∧ s.time.leapAt ≤ raw then s.time.leapAt - 1 else raw

/-- A mode in which metering runs (R26), with no reset pending whose orderly save has stopped it (R360); the reset that follows a
tamper release stops it abruptly, when it comes. -/
def meteringMode (s : State) : Bool :=
  !s.sys.inReset && s.sys.resetPending.all (· == 5) && s.sys.mode != .backup && s.sys.mode != .boot && s.sys.mode != .holdup

/-- The lifecycle accumulates into the billing set (R355). -/
def billingSet (s : State) : Bool := decide (2 ≤ s.sec.lifecycle.code)

/-- TAMPER of pages and intervals: LOCKDOWN, or the latch set (R328). -/
def tamperMark (s : State) : Bool := s.sys.mode == .lockdown || s.tamp.set_

/-- A parity error on a metrology sample or on the reduction network: counted and recorded against its block
(R315, R335, R531). A sample is no word of a memory, so nothing stays marked (log entry 16). -/
def pathError (memCode blk addr : Nat) (s : State) : State :=
  let s := bumpErrors blk s
  snapSource 5 (post 0x1301 0 (le 1 memCode ++ le 1 blk ++ le 4 addr ++ le 4 (tableGet (fun _ => 0) s.intg.blockErrors blk)) 0 s)

/-! ### Channel parameters (R331) -/

/-- Parameter j of channel c in effect. -/
def mthP (s : State) (c j : Nat) : Nat := getP s (0x0710 + 8 * c + j)

/-- ENABLE. -/
def mthEnabled (s : State) (c : Nat) : Bool := bit (mthP s c 0) 15

/-- Nominal R0 of the sensor type in mΩ: Pt100, Pt500, Pt1000. -/
def nominalR0 (s : State) (c : Nat) : Nat :=
  match mthP s c 0 % 4 with
  | 0 => 100000
  | 1 => 500000
  | _ => 1000000

/-- The force current in µA: 1.0, 0.5 or 0.25 mA (R310). -/
def forceUa (s : State) (c : Nat) : Nat :=
  match mthP s c 0 % 4 with
  | 0 => 1000
  | 1 => 500
  | _ => 250

/-- CONFIG_FAULT: REF_MOHM outside 1.5 to 4.0 times the nominal R0 (R323). -/
def configFault (s : State) (c : Nat) : Bool :=
  let r := mthP s c 2
  let n := nominalR0 s c
  decide (2 * r < 3 * n) || decide (4 * n < r)

/-! ### Temperatures (R312 to R314) -/

/-- The constants of IEC 60751 in binary64. -/
def cvdA : Nat := Fp.ofRatio f64 39083 10000000
def cvdB : Nat := Fp.ofRatio f64 (-5775) 10000000000
def cvdC : Nat := Fp.ofRatio f64 (-4183) 1000000000000000

/-- An integer as binary64. -/
def fi (v : Int) : Nat := Fp.ofInt f64 v

/-- The closed form of R314 for r/r0 (binary64 bits). -/
def cvdClosed (x : Nat) : Nat :=
  let disc := fsub f64 (fmul f64 cvdA cvdA) (fmul f64 (fmul f64 (fi 4) cvdB) (fsub f64 (fi 1) x))
  fdiv f64 (fadd f64 (fneg f64 cvdA) (fsqrt f64 disc)) (fmul f64 (fi 2) cvdB)

/-- Newton iteration on the equation with the C term until the correction is below 1 µK (R314). -/
def cvdNewton (x : Nat) : Nat → Nat → Nat
  | 0, t => t
  | n + 1, t =>
    let t2 := fmul f64 t t
    let t3 := fmul f64 t2 t
    let h := fsub f64 t (fi 100)
    let g := fadd f64 (fadd f64 (fadd f64 (fi 1) (fmul f64 cvdA t)) (fmul f64 cvdB t2)) (fmul f64 cvdC (fmul f64 h t3))
    let d := fadd f64 (fadd f64 cvdA (fmul f64 (fmul f64 (fi 2) cvdB) t))
      (fmul f64 cvdC (fsub f64 (fmul f64 (fi 4) t3) (fmul f64 (fi 300) t2)))
    let k := fdiv f64 (fsub f64 g x) d
    let t' := fsub f64 t k
    if flt f64 (fabs f64 k) (Fp.ofRatio f64 1 1000000) then t' else cvdNewton x n t'

/-- The temperature of a resistance r/r0, binary64 (R314). -/
def cvdTemp (x : Nat) : Nat :=
  let t := cvdClosed x
  if fle f64 (fi 1) x then t else cvdNewton x 30 t

/-- The quiet NaN of an invalid temperature field (R325). -/
def nan64 : Nat := Fp.qnan f64

/-- A fault condition: entered at once, left after four consecutive frames without it (R323). -/
def faultUpd (on : Bool) (clear : Nat) (cond : Bool) : Bool × Nat :=
  if cond then (true, 0) else if on then (if 3 ≤ clear then (false, 0) else (true, clear + 1)) else (false, 0)

/-- Sensor resistance over R0 as a ratio of integers, from the two polarities in nV and the accepted references
(R312): REF·(V⁺ − V⁻)·n / (Σref · R0·(10⁶ + trim)/10⁶). -/
def sensorRatio (refMohm : Nat) (d : Int) (refs : List Int) (r0 : Nat) (trim : Int) : Int × Nat :=
  (refMohm * d * refs.length * 1000000, (refs.foldl (· + ·) 0 * (r0 * (1000000 + trim))).toNat)

/-- Sensor resistance outside the values for −50 °C to +250 °C: ratio below 0.80306281875 or above 1.94098125
(R323 with R314). -/
def ratioOutside (q : Int × Nat) : Bool :=
  decide (q.1 * 100000000000 < 80306281875 * q.2) || decide (194098125 * (q.2 : Int) < q.1 * 100000000)

/-- Reference conversion of a frame entered under R313: the channel and whether it was excluded. -/
def refStep (s : State) (c : Nat) (v : Int) (ch : MthChan) : MthChan × Bool :=
  let nom : Int := 2 * (mthP s c 2 * forceUa s c : Nat)
  let bad := decide (nom < 20 * (v - nom).natAbs)
  let sum := ch.refs.foldl (· + ·) 0
  let ok := decide (ch.refCount < 8) || decide (5000 * ((v * ch.refs.length - sum).natAbs : Int) ≤ sum)
  if ok then ({ ch with refs := (v :: ch.refs).take 8, refCount := ch.refCount + 1, exclRun := 0, refBad := bad }, false)
  else ({ ch with exclRun := ch.exclRun + 1, refBad := bad }, true)

/-- A frame of an enabled channel that arrived without a parity error (R311 to R314, R323). -/
def goodFrame (s : State) (c : Nat) (f : RtdFrame) (ch : MthChan) : MthChan :=
  let r0 := nominalR0 s c
  let qa := sensorRatio (mthP s c 2) (f.aPos - f.aNeg) ch.refs r0 (sgn 32 (mthP s c 3))
  let qb := sensorRatio (mthP s c 2) (f.bPos - f.bNeg) ch.refs r0 (sgn 32 (mthP s c 4))
  let (fa, ca) := faultUpd ch.faultA ch.clearA (f.limitA || qa.2 == 0 || ratioOutside qa)
  let (fb, cb) := faultUpd ch.faultB ch.clearB (f.limitB || qb.2 == 0 || ratioOutside qb)
  let (fr, cr) := faultUpd ch.refFault ch.clearRef (decide (3 ≤ ch.exclRun) || ch.refBad)
  { ch with
      tA := BitVec.ofNat 64 (cvdTemp (Fp.ofRatio f64 qa.1 qa.2)),
      tB := BitVec.ofNat 64 (cvdTemp (Fp.ofRatio f64 qb.1 qb.2)),
      haveTemps := true, faultA := fa, clearA := ca, faultB := fb, clearB := cb, refFault := fr, clearRef := cr,
      frameLost := false, lostRun := 0 }

/-- Temperatures of a channel that can be used: none faulted (R320, R323). -/
def chanFaulted (s : State) (c : Nat) (ch : MthChan) : Bool :=
  ch.faultA || ch.faultB || ch.refFault || configFault s c || decide (2 ≤ ch.lostRun) || !ch.haveTemps

/-- T_A is valid (R325). -/
def validA (s : State) (c : Nat) (ch : MthChan) : Bool :=
  ch.haveTemps && !(ch.faultA || ch.refFault || configFault s c || decide (2 ≤ ch.lostRun))

/-- T_B is valid (R325). -/
def validB (s : State) (c : Nat) (ch : MthChan) : Bool :=
  ch.haveTemps && !(ch.faultB || ch.refFault || configFault s c || decide (2 ≤ ch.lostRun))

/-- ΔT of a direction in binary64: T_hot − T_cold (R319). -/
def deltaT (ch : MthChan) (reverse : Bool) : Nat :=
  if reverse then fsub f64 ch.tB.toNat ch.tA.toNat else fsub f64 ch.tA.toNat ch.tB.toNat

/-- DT_CUTOFF in K. -/
def cutoffK (s : State) (c : Nat) : Nat := Fp.ofRatio f64 (mthP s c 5) 1000

/-- The range conditions and WRONG_DT at a frame end (R323). -/
def rangeConds (s : State) (c : Nat) (ch : MthChan) : MthChan :=
  let faulted := chanFaulted s c ch
  let out (t : W64) := flt f64 t.toNat (fi 0) || flt f64 (fi 180) t.toNat
  let rev := ch.lastReverse && decide (0 < ch.seen)
  { ch with
      tRange := !faulted && (out ch.tA || out ch.tB),
      dtRange := !faulted && flt f64 (fi 150) (fabs f64 (deltaT ch false)),
      wrongDt := !faulted && flt f64 (deltaT ch rev) (fneg f64 (cutoffK s c)) }

/-! ### Spans and quanta (R318 to R322) -/

/-- A quotient rounded to the nearest integer, ties to even. -/
def roundDiv (n : Int) (d : Nat) : Int :=
  let a := n.natAbs
  let q := a / d
  let r := a % d
  let q := if d < 2 * r || (2 * r == d && q % 2 == 1) then q + 1 else q
  if n < 0 then -(q : Int) else q

/-- A finite binary64 value as an exact integer at scale 2^-1074; 0 for NaN and infinity. -/
def exact64 (v : W64) : Int := (fToScaled f64 v.toNat 1074).getD 0

/-- The quantum of a pulse in a direction, in units of 2^-32 mWh: PULSE_VALUE·ρ(T_flow)·(h_hot − h_cold)/3.6·10⁶,
formed exactly and rounded once (R319, R321). -/
def pulseQuantum (s : State) (c : Nat) (ch : MthChan) (reverse : Bool) : Int :=
  let tFlow := if bit (mthP s c 0) 11 then ch.tA else ch.tB
  let dh := exact64 (waterH ch.tA) - exact64 (waterH ch.tB)
  let dh := if reverse then -dh else dh
  roundDiv (mthP s c 1 * exact64 (waterRho tFlow) * dh) (3600000 * 2 ^ 2148)

/-- One direction's pulses of a span attributed to the registers (R320). -/
def attribDir (s : State) (c n : Nat) (reverse : Bool) (ch : MthChan) (st : State) : State :=
  if n = 0 then st else
  let r := vget st.bill.regs.therm c ⟨0, 0, 0, 0, 0, 0, 0⟩
  let vol : Acc := BitVec.ofNat 96 (n * mthP s c 1)
  let r := if reverse then { r with revV := r.revV + vol } else { r with fwdV := r.fwdV + vol }
  let dt := deltaT ch reverse
  let cut := cutoffK s c
  let q := pulseQuantum s c ch reverse
  let e : Acc := BitVec.ofNat 96 (n * q.natAbs)
  let faulted := chanFaulted s c ch
  let r :=
    if !faulted && flt f64 cut dt then
      (if reverse then { r with revE := r.revE + e } else { r with fwdE := r.fwdE + e }) else r
  let wrong := !faulted && flt f64 dt (fneg f64 cut)
  { st with
      bill := { st.bill with
        regs := { st.bill.regs with therm := vset st.bill.regs.therm c r },
        wrongDt := if wrong then vset st.bill.wrongDt c (vget st.bill.wrongDt c 0 + e) else st.bill.wrongDt } }

/-- The last pulse of a channel lies in this tick, and so in the span after a snapshot point of it (R318). -/
def pulseNow (s : State) (ch : MthChan) : Bool := decide (0 < ch.seen) && ch.lastPulse == monoUs s

/-- Pulses of this tick by direction: 1 or 0. -/
def nowFwd (s : State) (ch : MthChan) : Nat := b2n (pulseNow s ch && !ch.lastReverse)

/-- A reverse pulse of this tick: 1 or 0. -/
def nowRev (s : State) (ch : MthChan) : Nat := b2n (pulseNow s ch && ch.lastReverse)

/-- The open span of a channel closed and attributed with the temperatures that hold for it; a pulse of this tick stays in the
next span (R318, R320). -/
def closeSpan (s : State) (c : Nat) : State :=
  let ch := vget s.mth.chans c MthChan.reset
  let f := min ch.spanFwd (nowFwd s ch)
  let r := min ch.spanRev (nowRev s ch)
  let s' := attribDir s c (ch.spanRev - r) true ch (attribDir s c (ch.spanFwd - f) false ch s)
  { s' with mth := { s'.mth with chans := vset s'.mth.chans c { ch with spanFwd := f, spanRev := r } } }

/-- PEAK_POWER of a channel, or PEAK_ACTIVE of a system: the largest value published in the last 60 s (R361). -/
def peakOf (now : Nat) (l : List (Nat × W64)) : W64 :=
  l.foldl (fun m x => if x.1 + 60000000 < now then m else if flt f64 m.toNat x.2.toNat then x.2 else m) 0

/-- The electrical registers of a system without the line cycles that closed in this tick (R344). -/
def elecAtStart (s : State) (m : MelSys) (r : ElecReg) : ElecReg :=
  match m.fresh with
  | some (t, r0, _) => if t = tickId s then r0 else r
  | none => r

/-- The metrology change counter at the start of this tick (R357). -/
def counterAtStart (s : State) : W32 :=
  match s.bill.counterStart with
  | some (t, n) => if t = tickId s then n else s.bill.changeCounter
  | none => s.bill.changeCounter

/-- The metrology change counter incremented (R369). -/
def bumpCounter (s : State) : State :=
  { s with
      bill := { s.bill with
        counterStart := some (tickId s, counterAtStart s), changeCounter := s.bill.changeCounter + 1 } }

/-- The lifecycle set as it stood before the line cycles of this tick (R344, R357). -/
def regsAtStart (s : State) : RegSet :=
  { s.bill.regs with
      elec := s.bill.regs.elec.mapFinIdx fun k r _ => elecAtStart s (vget s.mel.systems k MelSys.reset) r }

/-- The registers as a save record would hold them at this tick (R357). -/
def makeRec (s : State) (seq : Nat) : SaveRec :=
  { lifecycle := s.sec.lifecycle.code, set_ := b2n (billingSet s), seq := seq, at_ := tickStamp s,
    changeCounter := counterAtStart s, gapCount := s.bill.gapCount, regs := regsAtStart s, wrongDt := s.bill.wrongDt,
    unattrT := s.bill.unattrT, unattrE := s.bill.unattrE,
    peakT := s.mth.chans.map fun c => peakOf (monoUs s) c.peaks,
    peakE := s.mel.systems.map fun c => peakOf (monoUs s) c.peaks }

/-- A snapshot point: every span is closed, and the registers shown by BILL_READ item 0 are those of this tick
(R318, R371). -/
def snapshotPoint (s : State) : State :=
  if s.mth.running then
    let s := (List.range 16).foldl closeSpan s
    { s with bill := { s.bill with shown := makeRec s s.bill.lastSeq } }
  else s

/-! ### Status and pages (R325) -/

/-- A parameter of block `b` with an index in a range awaits its boundary. -/
def pendingIn (s : State) (lo hi : Nat) : Bool := s.cfgPending.any fun p => decide (lo ≤ p.id) && decide (p.id ≤ hi)

/-- CH_STATUS (R331). -/
def chStatus (s : State) (c : Nat) : Nat :=
  let ch := vget s.mth.chans c MthChan.reset
  1024 * b2n (configFault s c) + 512 * b2n (pendingIn s (0x0710 + 8 * c) (0x0715 + 8 * c)) +
    256 * b2n (ch.lastReverse && decide (0 < ch.seen)) + 128 * b2n ch.wrongDt + 64 * b2n ch.dtRange +
    32 * b2n ch.tRange + 16 * b2n ch.frameLost + 8 * b2n ch.refFault + 4 * b2n ch.faultB + 2 * b2n ch.faultA +
    b2n (s.mth.running && mthEnabled s c)

/-- Volume flow in m³/s, binary64 (R325). -/
def volumeFlow (s : State) (c : Nat) (ch : MthChan) : Nat :=
  let since := monoUs s - ch.lastPulse
  if ch.seen < 2 ∨ 60000000 ≤ since then 0
  else Fp.ofRatio f64 (mthP s c 1) (2 ^ 32 * max 1 (max since (ch.lastPulse - ch.prevPulse)))

/-- MASS_FLOW in kg/s (R325). -/
def massFlow (s : State) (c : Nat) (ch : MthChan) : Nat :=
  let tFlow := if bit (mthP s c 0) 11 then ch.tA else ch.tB
  let m := fmul f64 (volumeFlow s c ch) (waterRho tFlow).toNat
  if ch.lastReverse && m != 0 then fneg f64 m else m

/-- POWER in W (R325). -/
def thermPower (s : State) (c : Nat) (ch : MthChan) : Nat :=
  let dh := if ch.lastReverse then fsub f64 (waterH ch.tB).toNat (waterH ch.tA).toNat
    else fsub f64 (waterH ch.tA).toNat (waterH ch.tB).toNat
  fmul f64 (fabs f64 (massFlow s c ch)) dh

/-- MASS_FLOW and POWER are valid (R325). -/
def flowValid (s : State) (c : Nat) (ch : MthChan) : Bool := mthEnabled s c && validA s c ch && validB s c ch

/-- One channel of a thermal page, 64 bytes. -/
def thermChanBytes (s : State) (c : Nat) : Bytes :=
  let ch := vget s.mth.chans c MthChan.reset
  let va := validA s c ch
  let vb := validB s c ch
  let fl := flowValid s c ch
  le 8 (if fl then massFlow s c ch else 0) ++ le 8 (if va then ch.tA.toNat else nan64) ++
    le 8 (if vb then ch.tB.toNat else nan64) ++ le 8 (if fl then thermPower s c ch else 0) ++
    le 1 (16 * b2n (ch.lastReverse && decide (0 < ch.seen)) + 8 * b2n fl + 4 * b2n fl + 2 * b2n vb + b2n va) ++ zeros 1 ++
    le 2 (chStatus s c % 65536) ++ le 4 (ch.fwd + ch.rev).toNat ++ le 6 ch.lastPulseAt.sec ++ zeros 2 ++
    le 4 ch.lastPulseAt.ns ++ zeros 12

/-- The 32-byte header of a read window page (R325, R348). -/
def pageHeader (s : State) (page seq round : Nat) : Bytes :=
  let t := tickStamp s
  le 6 t.sec ++ le 2 page ++ le 4 t.ns ++ le 4 seq ++ le 8 round ++ le 1 s.sec.lifecycle.code ++
    le 1 (2 * b2n s.time.fromRtc + b2n (tamperMark s)) ++ zeros 6

/-- A thermal page, 1,056 bytes (R325). -/
def thermPage (s : State) (page seq round : Nat) : Bytes :=
  pageHeader s page seq round ++ (List.range 16).flatMap (thermChanBytes s)

/-- Page 0 published at a cut (R28, R325). -/
def publishPage0 (round : Nat) (s : State) : State :=
  if s.mth.running then
    publishWindow 1056 { s with mth := { s.mth with
        page0 := Paged.write s (thermPage s 0 (s.mth.seq0 + 1).toNat round) s.mth.page0, seq0 := s.mth.seq0 + 1 } }
  else s

/-- The published |POWER| of a channel remembered for PEAK_POWER (R361). -/
def notePeak (s : State) (c : Nat) (ch : MthChan) : MthChan :=
  if flowValid s c ch then
    { ch with
        peaks := (monoUs s, BitVec.ofNat 64 (fabs f64 (thermPower s c ch))) ::
          ch.peaks.filter fun x => decide (monoUs s ≤ x.1 + 60000000) }
  else ch

/-- Page 1 published at a frame end (R325). -/
def publishPage1 (s : State) : State :=
  let chans := s.mth.chans.mapFinIdx fun i ch _ => notePeak s i ch
  publishWindow 1056 { s with
      mth := { s.mth with
        page1 := Paged.write s (thermPage s 1 (s.mth.seq1 + 1).toNat 0) s.mth.page1, seq1 := s.mth.seq1 + 1, chans := chans } }

/-! ### Error seconds (R324) -/

/-- A 32-bit counter that saturates. -/
def satInc (c : W32) : W32 := if c = 0xFFFFFFFF then c else c + 1

/-- The error seconds of a channel counted at a frame end: each at most once in a metering second. -/
def errorSeconds (s : State) (c : Nat) : State :=
  let ch := vget s.mth.chans c MthChan.reset
  let now := meterSec s
  let r := vget s.bill.regs.therm c ⟨0, 0, 0, 0, 0, 0, 0⟩
  let f := ch.faultA || ch.faultB || ch.refFault || configFault s c || decide (2 ≤ ch.lostRun)
  let g := ch.tRange || ch.dtRange
  let w := ch.wrongDt
  let cf := f && ch.faultSec != some now
  let cg := g && ch.rangeSec != some now
  let cw := w && ch.wrongSec != some now
  let r :=
    { r with
        faultS := if cf then satInc r.faultS else r.faultS, rangeS := if cg then satInc r.rangeS else r.rangeS,
        wrongS := if cw then satInc r.wrongS else r.wrongS }
  let ch :=
    { ch with
        faultSec := if f then some now else ch.faultSec, rangeSec := if g then some now else ch.rangeSec,
        wrongSec := if w then some now else ch.wrongSec }
  { s with
      bill := { s.bill with regs := { s.bill.regs with therm := vset s.bill.regs.therm c r } },
      mth := { s.mth with chans := vset s.mth.chans c ch } }

/-! ### Intervals (R326 to R328) -/

/-- The integer part of a register. -/
def whole (a : Acc) : Nat := a.toNat / 2 ^ 32

/-- Seconds of an interval length code. -/
def lengthSec : Nat → Nat
  | 0 => 60
  | 1 => 900
  | _ => 3600

/-- Records kept of a length (R327). -/
def keptMax : Nat → Nat
  | 0 => 30
  | 1 => 96
  | _ => 24

/-- A mean temperature in binary32 (R327). -/
def meanT (sum : Int) (n : Nat) : Nat := if n = 0 then Fp.qnan f32 else Fp.ofRatio f32 sum (n * 2 ^ 1074)

/-- Direction changes counted before this tick. -/
def dirNow (s : State) (ch : MthChan) : W32 := if pulseNow s ch && ch.turned then ch.dirChanges - 1 else ch.dirChanges

/-- Reverse pulses counted before this tick. -/
def revNow (s : State) (ch : MthChan) : W32 := ch.rev - BitVec.ofNat 32 (nowRev s ch)

/-- The record of length `l` of a channel closed at this tick. -/
def thermClose (s : State) (c l extra : Nat) (ch : MthChan) : ThermInt :=
  let o := vget ch.opens l ThermOpen.empty
  let r := vget s.bill.regs.therm c ⟨0, 0, 0, 0, 0, 0, 0⟩
  let w := vget s.bill.wrongDt c 0
  let fs := r.faultS - o.faultBase
  let rs := r.rangeS - o.rangeBase
  let fl := Nat.lor (Nat.lor o.flags extra)
    (8 * b2n (fs != 0) + 16 * b2n (rs != 0) + 32 * b2n (w != o.wrongBase) + 64 * b2n (revNow s ch != o.revBase))
  { seq := vget ch.seqs l 0, flags := fl, start := o.start, stop := ptpSec s,
    dirChanges := min 65535 (dirNow s ch - o.dirBase).toNat, lifecycle := s.sec.lifecycle.code, fwdE := whole r.fwdE,
    fwdV := whole r.fwdV, revE := whole r.revE, revV := whole r.revV, wrongE := whole w, faultS := fs, rangeS := rs,
    meanA := BitVec.ofNat 32 (meanT o.sumA o.numA), meanB := BitVec.ofNat 32 (meanT o.sumB o.numB) }

/-- Flags that an interval carries from its opening: TAMPER and TIME_FROM_RTC if they hold, and those given. -/
def openFlags (s : State) (extra : Nat) : Nat :=
  Nat.lor extra (b2n (tamperMark s) + 256 * b2n s.time.fromRtc)

/-- A new interval opened at this tick. -/
def thermOpen (s : State) (c extra : Nat) (ch : MthChan) : ThermOpen :=
  let r := vget s.bill.regs.therm c ⟨0, 0, 0, 0, 0, 0, 0⟩
  { start := ptpSec s, flags := openFlags s extra, dirBase := dirNow s ch, revBase := revNow s ch, faultBase := r.faultS, rangeBase := r.rangeS,
    wrongBase := vget s.bill.wrongDt c 0, sumA := 0, numA := 0, sumB := 0, numB := 0 }

/-- The interval of length `l` of a channel closes and the next opens (R326). -/
def thermTurn (s : State) (c l closeFl openFl : Nat) (ch : MthChan) : MthChan :=
  let rec_ := thermClose s c l closeFl ch
  { ch with
      kept := if mthEnabled s c then vset ch.kept l ((rec_ :: vget ch.kept l []).take (keptMax l)) else ch.kept,
      seqs := if mthEnabled s c then vset ch.seqs l (vget ch.seqs l 0 + 1) else ch.seqs,
      opens := vset ch.opens l (thermOpen s c openFl ch) }

/-- Intervals of length `l` of every channel close and open. -/
def thermTurnAll (l closeFl : Nat) (openFl : Nat → Nat) (s : State) : State :=
  { s with
      mth := { s.mth with chans := s.mth.chans.mapFinIdx fun i ch _ => thermTurn s i l closeFl (openFl i) ch } }

/-- A flag set in every open interval of a channel. -/
def flagOpens (fl : Nat) (ch : MthChan) : MthChan :=
  { ch with opens := ch.opens.map fun o => { o with flags := Nat.lor o.flags fl } }

/-- Every open interval, thermal and electrical, carries TAMPER from now on (R522). -/
def markTamper (s : State) : State :=
  { s with
      mth := { s.mth with chans := s.mth.chans.map (flagOpens 1) },
      mel := { s.mel with
        systems := s.mel.systems.map fun m =>
          { m with opens := m.opens.map fun o => { o with flags := Nat.lor o.flags 1 } } } }

/-- The frame's temperatures enter the means of the open intervals where valid (R327). -/
def addMeans (s : State) (c : Nat) (ch : MthChan) : MthChan :=
  let a := validA s c ch && !ch.frameLost
  let b := validB s c ch && !ch.frameLost
  { ch with
      opens := ch.opens.map fun o =>
        { o with
            sumA := if a then o.sumA + exact64 ch.tA else o.sumA, numA := o.numA + b2n a,
            sumB := if b then o.sumB + exact64 ch.tB else o.sumB, numB := o.numB + b2n b } }

/-! ### The rows -/

/-- Metering of every channel starts at the end of the first frame after BOOT (R329, R358): filters take their input
levels, counters start at zero and the first intervals open with POWER_UP. -/
def startThermal (s : State) : State :=
  let s := { s with mth := { s.mth with running := true }, bill := { s.bill with lastSave := monoUs s } }
  { s with
      mth := { s.mth with
        chans := s.mth.chans.mapFinIdx fun i ch _ =>
          { ch with opens := ch.opens.map fun _ => thermOpen s i 128 ch } } }

/-- One channel's frame: parity, reference, temperatures and conditions (R311 to R315, R323). -/
def chanFrame (fr : Vector RtdFrame 16) (s : State) (c : Nat) : State :=
  if !mthEnabled s c then s else
  let f := vget fr c ⟨0, 0, 0, 0, 0, 0, true, false, false⟩
  let ch := vget s.mth.chans c MthChan.reset
  if !f.parityOk then
    let ch := rangeConds s c { ch with frameLost := true, lostRun := ch.lostRun + 1 }
    pathError 13 0x07 c
      { s with mth := { s.mth with chans := vset s.mth.chans c ch, framesLost := s.mth.framesLost + 1 } }
  else
    let (ch, excluded) := if s.mth.frame % 4 = 0 then refStep s c (f.refPos - f.refNeg) ch else (ch, false)
    let ch := addMeans s c (rangeConds s c (goodFrame s c f ch))
    { s with
        mth := { s.mth with
          chans := vset s.mth.chans c ch,
          refExcluded := if excluded then s.mth.refExcluded + 1 else s.mth.refExcluded } }

/-- FRAME_END (R311): a snapshot point, the frame of every channel, error seconds and page 1; the first frame after
BOOT starts the metering of pulses (R329). -/
def frameEnd (fr : Vector RtdFrame 16) (s : State) : State :=
  if !meteringMode s then s else
  let first := !s.mth.running
  let s := snapshotPoint s
  let s := (List.range 16).foldl (chanFrame fr) s
  let s := { s with mth := { s.mth with frame := s.mth.frame + 1 } }
  let s := if first then startThermal s else s
  publishPage1 ((List.range 16).foldl (fun s c => if mthEnabled s c then errorSeconds s c else s) s)

/-- FLOW_EDGE_REJECTED (R316). -/
def flowEdgeRejected (c : Nat) (s : State) : State :=
  if !s.mth.running then s else
  let ch := vget s.mth.chans c MthChan.reset
  { s with mth := { s.mth with chans := vset s.mth.chans c { ch with rejected := ch.rejected + 1 } } }

/-- The stable time of the pulse filter in µs (R316). -/
def flowFilterUs (s : State) (c : Nat) : Nat := 50 * 2 ^ bits (mthP s c 0) 10 8

/-- FLOW_PULSE (R316, R317): an edge of FLOWc_PULSE whose new level holds for `held` µs. The filter ignores a shorter one than its
stable time; an accepted one of the polarity that PULSE_EDGE selects is a pulse, counted by its direction. -/
def flowPulse (c : Nat) (rising : Bool) (held : Nat) (dir : Bool) (s : State) : State :=
  if held < flowFilterUs s c then flowEdgeRejected c s
  else if !(s.mth.running && mthEnabled s c) || rising == bit (mthP s c 0) 12 then s else
  let ch := vget s.mth.chans c MthChan.reset
  let cfg := mthP s c 0
  let rev := bit cfg 14 && dir != bit cfg 13
  let now := monoUs s
  let turned := decide (0 < ch.seen) && rev != ch.lastReverse
  let ch :=
    { ch with
        fwd := if rev then ch.fwd else ch.fwd + 1, rev := if rev then ch.rev + 1 else ch.rev,
        spanFwd := if rev then ch.spanFwd else ch.spanFwd + 1, spanRev := if rev then ch.spanRev + 1 else ch.spanRev,
        dirChanges := if turned then ch.dirChanges + 1 else ch.dirChanges, turned := turned,
        lastReverse := rev, seen := min 2 (ch.seen + 1), prevPulse := ch.lastPulse, lastPulse := now,
        lastPulseAt := tickStamp s }
  { s with mth := { s.mth with chans := vset s.mth.chans c ch } }

end Sys2Proof.Machine
end

