-- ==== Sys2Proof/Machine/Electrical.lean ====
section
/-! DEFINITION. Electrical metering (R332 to R354): corrected samples, line cycles, quanta, supply conditions, pages,
interval records and calibration windows. -/

namespace Sys2Proof.Machine

/-! ### Parameters (R354) -/

/-- Parameter j of system k in effect. -/
def melP (s : State) (k j : Nat) : Nat := getP s (0x0840 + 8 * k + j)

/-- ENABLE. -/
def melEnabled (s : State) (k : Nat) : Bool := bit (melP s k 0) 15

/-- Phase L is present. -/
def phasePresent (s : State) (k l : Nat) : Bool := bit (melP s k 0) (11 + l)

/-- All three phases are present. -/
def allPresent (s : State) (k : Nat) : Bool := bits (melP s k 0) 13 11 == 7

/-- MODCLKs runs at 10 MHz: metering runs and the system's ENABLE is 1; it is held low at all other times (R333). -/
def modClk (s : State) (k : Nat) : Bool := meteringMode s && melEnabled s k

/-- The energy constant κ in binary64 (R341). -/
def kappa (s : State) (k : Nat) : Nat := Fp.ofRatio f64 (melP s k 1 * melP s k 2 : Nat) (2 ^ 28 * 57600 * 1000000)

/-- A system of the state. -/
def melSys (s : State) (k : Nat) : MelSys := vget s.mel.systems k MelSys.reset

/-- A system replaced. -/
def setMel (k : Nat) (m : MelSys) (s : State) : State := { s with mel := { s.mel with systems := vset s.mel.systems k m } }

/-! ### Samples (R334 to R337) -/

/-- One channel's sample: parity substitution, gain and delay, density and overrange (R335 to R337). The samples of an absent
phase are 0, and it takes part in no condition (R332). -/
def chanSample (s : State) (k c : Nat) (smp : RawSample) (ch : MelChan) : MelChan :=
  let r := sgn 24 smp.raw.toNat
  let gain := getP s (0x0810 + 2 * (6 * k + c))
  let delay := getP s (0x0811 + 2 * (6 * k + c))
  let x := if smp.parityOk then roundDiv (r * gain) (2 ^ 23) else ch.pre.headD 0
  let pre := (x :: ch.pre).take 16
  let bad := if smp.dense then 0 else ch.badRun + 1
  let good := if smp.dense then ch.goodRun + 1 else 0
  let fault := if ch.modFault then decide (good < 1024) else decide (1024 ≤ bad)
  if !phasePresent s k (c % 3) then { MelChan.reset with pre := (0 :: ch.pre).take 16, hist := (0 :: ch.hist).take 127 } else
  let y := if fault then 0 else if delay = 0 then x else Config.fracDelay delay pre
  { pre := pre, hist := (y :: ch.hist).take 127, badRun := min bad 1024, goodRun := min good 1024, modFault := fault,
    overCycle := ch.overCycle || (smp.parityOk && decide (7969178 ≤ r.natAbs)), overrange := ch.overrange }

/-- The products of a phase at the group delay of the Hilbert filter (R340). -/
def phaseProducts (m : MelSys) (l : Nat) : PhaseSums :=
  let v := (vget m.chans l MelChan.reset).hist
  let i := (vget m.chans (3 + l) MelChan.reset).hist
  let xv := nth v 63 0
  let xi := nth i 63 0
  { p := xv * xi, q := Config.hilbert v * xi, vv := xv.natAbs * xv.natAbs, ii := xi.natAbs * xi.natAbs }

/-- Two sums added. -/
def PhaseSums.add (a b : PhaseSums) : PhaseSums := ⟨a.p + b.p, a.q + b.q, a.vv + b.vv, a.ii + b.ii⟩

/-- The products of this sample added to three sums. -/
def addProducts (m : MelSys) (v : Vector PhaseSums 3) : Vector PhaseSums 3 :=
  v.mapFinIdx fun l x _ => x.add (phaseProducts m l)

/-- A condition of *Supply conditions* holds (R346). -/
def supplyCondition (m : MelSys) : Bool :=
  m.phaseLost.toList.any id || m.seqWrong || m.neutral || m.unlocked || m.chans.toList.any fun c => c.modFault || c.overrange

/-- The time stamp of the sample now entering the sums, PTP ns. A row of ELECTRICAL_RAW_SAMPLE stands at the tick of that stamp:
the decimation group delay of 187.5 µs and the 63 samples of the Hilbert filter are removed from the instant at which its raw
sample leaves the filter (R334, R340). DESIGN CHOICE, log entry 25. -/
def sampleStamp (s : State) : Nat := ptpTotalNs s

/-- A calibration window takes a sample whose stamp lies in it (R350). -/
def calSample (s : State) (m : MelSys) (w : CalWin) : CalWin :=
  let t := sampleStamp s
  if w.start ≤ t ∧ t < w.stop then
    { w with
        samples := w.samples + 1, first := if w.samples = 0 then ⟨t / 1000000000, t % 1000000000⟩ else w.first,
        sums := addProducts m w.sums,
        flags := Nat.lor w.flags (2 * b2n (supplyCondition m) + 8 * b2n m.unlocked) }
  else w

/-- The open interval of a system opened at this tick. -/
def elecOpen (s : State) (k extra : Nat) (m : MelSys) : ElecOpen :=
  let r := vget s.bill.regs.elec k ⟨Vector.replicate 4 (Vector.replicate 8 0), 0, 0⟩
  { start := ptpSec s, flags := Nat.lor (openFlags s extra) (64 * b2n m.unlocked), exportCycles := 0, cycles := 0,
    faultBase := r.faultS, qualityBase := r.qualityS }

/-- The lowest phase that is present and not lost; the phase given where there is none (R338). -/
def nextRef (s : State) (k : Nat) (m : MelSys) : Nat :=
  ((List.range 3).find? fun l => phasePresent s k l && !vget m.phaseLost l false).getD m.refPhase

/-- Parity errors of a system's samples counted (R335). -/
def sampleParity (k : Nat) (smps : Vector RawSample 6) (s : State) : State :=
  (List.range 6).foldl
    (fun s c =>
      if (vget smps c ⟨0, true, true⟩).parityOk then s
      else
        pathError 13 0x08 (6 * k + c)
          { s with mel := { s.mel with paritySubstituted := s.mel.paritySubstituted + 1 } })
    s

/-- ELECTRICAL_RAW_SAMPLE: one raw sample of each channel of a system (R334 to R337, R345, R350). -/
def rawSample (k : Nat) (smps : Vector RawSample 6) (s : State) : State :=
  if !modClk s k then s else
  let m := melSys s k
  if 0 < m.settle then setMel k { m with settle := m.settle - 1 } s else
  let m := if m.running then m else { m with running := true, refPhase := nextRef s k m, opens := m.opens.map fun _ => elecOpen s k 128 m }
  let m := { m with chans := m.chans.mapFinIdx fun c ch _ => chanSample s k c (vget smps c ⟨0, true, true⟩) ch }
  let m :=
    { m with
        open_ := { m.open_ with samples := m.open_.samples + 1, sums := addProducts m m.open_.sums },
        sinceCross := m.sinceCross + 1, cal := m.cal.map (calSample s m) }
  setMel k m (sampleParity k smps s)

/-! ### Quanta and attribution (R341 to R343) -/

/-- The product of an exact sum and κ rounded once to an integer (R341). -/
def quantumOf (s : State) (k : Nat) (v : Int) : Int := roundDiv (v * exact64 (BitVec.ofNat 64 (kappa s k))) (2 ^ 1074)

/-- The binary64 square root of an exact integer, as an exact integer at scale 2^-1074. -/
def sqrt64 (n : Nat) : Int := exact64 (BitVec.ofNat 64 (Fp.sqrtD f64 (.fin false n 0)))

/-- q_S of a phase (R341). -/
def apparentOf (s : State) (k : Nat) (x : PhaseSums) : Int :=
  roundDiv (sqrt64 x.vv * sqrt64 x.ii * exact64 (BitVec.ofNat 64 (kappa s k))) (2 ^ 3222)

/-- A quantum as an addend of a register. -/
def accOf (v : Int) : Acc := BitVec.ofNat 96 v.natAbs

/-- Eight registers with a cycle's quanta attributed (*Cycle attribution*, R342). -/
def attribQuanta (p q a : Int) (r : Vector Acc 8) : Vector Acc 8 :=
  let add (i : Nat) (v : Int) (r : Vector Acc 8) := vset r i (vget r i 0 + accOf v)
  let quadrant := if 0 ≤ q then (if 0 ≤ p then 2 else 3) else (if p < 0 then 4 else 5)
  add quadrant q (if p < 0 then add 1 p (add 7 a r) else add 0 p (add 6 a r))

/-- The phase sums added over three phases. -/
def sumPhases (v : Vector PhaseSums 3) : PhaseSums := v.toList.foldl PhaseSums.add PhaseSums.zero

/-- The registers of a system with a cycle's sums attributed: system first, then each phase by its own net (R342). -/
def attributeCycle (s : State) (k : Nat) (sums : Vector PhaseSums 3) (r : Vector (Vector Acc 8) 4) :
    Vector (Vector Acc 8) 4 :=
  let t := sumPhases sums
  let apparent := sums.toList.foldl (fun a x => a + apparentOf s k x) 0
  r.mapFinIdx fun i v _ =>
    if i = 0 then attribQuanta (quantumOf s k t.p) (quantumOf s k t.q) apparent v
    else
      let x := vget sums (i - 1) PhaseSums.zero
      attribQuanta (quantumOf s k x.p) (quantumOf s k x.q) (apparentOf s k x) v

/-! ### Supply conditions (R339, R346) -/

/-- A condition with its runs: entered after `nIn` closes of `bad` in a row, left after `nOut` of `good`. -/
def condUpd (nIn nOut : Nat) (on bad good : Bool) (runIn runOut : Nat) : Bool × Nat × Nat :=
  let i := if bad then runIn + 1 else 0
  let o := if good then runOut + 1 else 0
  let now := if on then decide (o < nOut) else decide (nIn ≤ i)
  (now, min i nIn, min o nOut)

/-- The squared voltage of a phase over a cycle lies below a number of percent of V_NOM. -/
def belowPct (x : PhaseSums) (vfs n pct vnom : Nat) : Bool :=
  decide (x.vv * vfs * vfs * 10000 < pct * pct * vnom * vnom * 2 ^ 60 * n)

/-- The squared voltage of a phase over a cycle lies above a number of percent of V_NOM. -/
def abovePct (x : PhaseSums) (vfs n pct vnom : Nat) : Bool :=
  decide (pct * pct * vnom * vnom * 2 ^ 60 * n < x.vv * vfs * vfs * 10000)

/-- PHASE_LOST of one phase at a cycle close. -/
def lostUpd (s : State) (k l : Nat) (c : Cycle) (m : MelSys) : MelSys :=
  let x := vget c.sums l PhaseSums.zero
  let pct := melP s k 0 % 256
  let on := vget m.phaseLost l false
  let (f, a, b) := condUpd 5 5 on (belowPct x c.vfs c.samples pct (melP s k 3))
    (abovePct x c.vfs c.samples (pct + 5) (melP s k 3)) (vget m.lostRun l 0) (vget m.backRun l 0)
  if phasePresent s k l then
    { m with phaseLost := vset m.phaseLost l f, lostRun := vset m.lostRun l a, backRun := vset m.backRun l b }
  else { m with phaseLost := vset m.phaseLost l false, lostRun := vset m.lostRun l 0, backRun := vset m.backRun l 0 }

/-- SEQ_WRONG and NEUTRAL_MISSING at a cycle close; while a phase is absent or lost, neither run goes on. -/
def phasorUpd (s : State) (k : Nat) (ph : Phasors) (m : MelSys) : MelSys :=
  let ready := allPresent s k && !m.phaseLost.toList.any id
  let lag := ph.lag2.val
  let (sw, a, b) := condUpd 10 10 m.seqWrong (ready && decide (210000 ≤ lag) && decide (lag ≤ 270000))
    (ready && decide (90000 ≤ lag) && decide (lag ≤ 150000)) m.seqRun m.seqBack
  let vn := melP s k 3
  let (nm, c, d) := condUpd 25 25 m.neutral (ready && decide (15 * vn < 100 * ph.residual))
    (ready && decide (100 * ph.residual < 10 * vn)) m.neutRun m.neutBack
  { m with seqWrong := sw, seqRun := a, seqBack := b, neutral := nm, neutRun := c, neutBack := d }

/-- OVERRANGE of every channel at a cycle close. -/
def overUpd (m : MelSys) : MelSys :=
  { m with chans := m.chans.map fun c => { c with overrange := c.overCycle, overCycle := false } }

/-- Every present phase is lost (R346). -/
def allLost (s : State) (k : Nat) (m : MelSys) : Bool :=
  (List.range 3).all fun l => !phasePresent s k l || vget m.phaseLost l false

/-- The frequency lock at a measured length in 1/4,096 sample, or at a forced close (R339). -/
def lockUpd (len : Option Nat) (m : MelSys) : MelSys :=
  let inRange := len.any fun n => decide (246 * 4096 ≤ n) && decide (n ≤ 356 * 4096)
  let bad := if inRange then 0 else m.badCycles + 1
  let good := if inRange then m.goodCross + 1 else 0
  let unlocked := if m.unlocked then decide (good < 10) else decide (3 ≤ bad)
  { m with
      unlocked := unlocked, badCycles := if unlocked == m.unlocked then min bad 3 else 0,
      goodCross := if unlocked == m.unlocked then min good 10 else 0,
      opens := if unlocked then m.opens.map fun o => { o with flags := Nat.lor o.flags 64 } else m.opens,
      lens := match len with
        | some n => (n :: m.lens).take 10
        | none => m.lens }

/-- Error seconds of a system at a cycle close (R347). -/
def elecSeconds (s : State) (k : Nat) (m : MelSys) : State :=
  let now := meterSec s
  let f := m.chans.toList.any fun c => c.modFault
  let g := m.phaseLost.toList.any id || m.seqWrong || m.neutral || m.unlocked || m.chans.toList.any fun c => c.overrange
  let r := vget s.bill.regs.elec k ⟨Vector.replicate 4 (Vector.replicate 8 0), 0, 0⟩
  let r :=
    { r with
        faultS := if f && m.faultSec != some now then satInc r.faultS else r.faultS,
        qualityS := if g && m.qualitySec != some now then satInc r.qualityS else r.qualityS }
  let m :=
    { m with faultSec := if f then some now else m.faultSec, qualitySec := if g then some now else m.qualitySec }
  setMel k m { s with bill := { s.bill with regs := { s.bill.regs with elec := vset s.bill.regs.elec k r } } }

/-! ### Closing a line cycle (R338, R342, R344) -/

/-- What the records of a tick see of a system is kept at the first line cycle that closes in it (R344). -/
def keepFresh (s : State) (k : Nat) (m : MelSys) : MelSys :=
  let r := vget s.bill.regs.elec k ⟨Vector.replicate 4 (Vector.replicate 8 0), 0, 0⟩
  match m.fresh with
  | some (t, _, _) => if t = tickId s then m else { m with fresh := some (tickId s, r, m.opens) }
  | none => { m with fresh := some (tickId s, r, m.opens) }

/-- A system's open line cycle closes: the reference phase is chosen anew (R346), its quanta are attributed, the supply conditions evaluated, and the next opens.
`ph` is absent for the forced close of R352, which measures no phasors. -/
def closeCycle (k : Nat) (ph : Option Phasors) (s : State) : State :=
  let m := keepFresh s k (melSys s k)
  if m.open_.samples = 0 then s else
  let m := { m with refPhase := nextRef s k m }
  let prev := m.last.headD Cycle.empty
  let c : Cycle :=
    { m.open_ with
        vfs := melP s k 1, ifs := melP s k 2,
        lag2 := match ph with
          | some p => p.lag2.val
          | none => prev.lag2,
        lag3 := match ph with
          | some p => p.lag3.val
          | none => prev.lag3 }
  let r := vget s.bill.regs.elec k ⟨Vector.replicate 4 (Vector.replicate 8 0), 0, 0⟩
  let r := { r with regs := attributeCycle s k c.sums r.regs }
  let export_ := decide (quantumOf s k (sumPhases c.sums).p < 0)
  let m := (List.range 3).foldl (fun m l => lostUpd s k l c m) m
  let m := match ph with
    | some p => phasorUpd s k p m
    | none => m
  let m := overUpd m
  let m :=
    { m with
        open_ := Cycle.empty, last := (c :: m.last).take 10, cycles := m.cycles + 1,
        opens := m.opens.map fun o =>
          { o with cycles := o.cycles + 1, exportCycles := if export_ then o.exportCycles + 1 else o.exportCycles } }
  elecSeconds { s with bill := { s.bill with regs := { s.bill.regs with elec := vset s.bill.regs.elec k r } } } k m

/-- FORCED_CYCLES incremented. -/
def countForced (s : State) : State := { s with mel := { s.mel with forcedCycles := s.mel.forcedCycles + 1 } }

/-- The forced close of R352 at the tick of effect of a metrology value. -/
def forceClose (k : Nat) (s : State) : State :=
  let m := melSys s k
  if m.running && decide (0 < m.open_.samples) then countForced (closeCycle k none s) else s

/-- The samples after which a cycle without a crossing closes (R338, R339, R346). -/
def closeAfter (s : State) (k : Nat) (m : MelSys) : Nat :=
  if m.unlocked || allLost s k m then (if bit (melP s k 0) 14 then 267 else 320) else 400

/-- LINE_CYCLE_CLOSE (R338, R339, R342, R346). -/
def lineCycleClose (k : Nat) (e : CycleEnd) (ph : Phasors) (s : State) : State :=
  let m := melSys s k
  if !(meteringMode s && m.running) then s else
  match e with
  | .crossing phase frac =>
    if phase.val ≠ m.refPhase ∨ m.sinceCross < 246 then s else
    let len := m.sinceCross * 4096 + frac.val - m.frac
    let free := m.unlocked || allLost s k m
    let m := { lockUpd (some len) m with sinceCross := 0, frac := frac.val }
    if free then setMel k m s else closeCycle k (some ph) (setMel k m s)
  | .timeout =>
    if m.open_.samples < closeAfter s k m then s
    else if m.unlocked || allLost s k m then closeCycle k (some ph) s
    else countForced (closeCycle k (some ph) (setMel k (lockUpd none m) s))

/-! ### Published values (R339, R348, R354) -/

/-- SYS_STATUS (R354). -/
def sysStatusOf (s : State) (k : Nat) : Nat :=
  let m := melSys s k
  let pend := pendingIn s (0x0840 + 8 * k) (0x0843 + 8 * k) || pendingIn s (0x0810 + 12 * k) (0x081B + 12 * k)
  let lost := (List.range 3).foldl (fun a l => a + b2n (vget m.phaseLost l false) * 2 ^ (12 + l)) 0
  let chans := (List.range 6).foldl
    (fun a c => a + b2n (vget m.chans c MelChan.reset).overrange * 2 ^ (6 + c) + b2n (vget m.chans c MelChan.reset).modFault * 2 ^ c) 0
  2 ^ 19 * b2n m.running + 2 ^ 18 * b2n pend + 2 ^ 17 * b2n m.unlocked + 2 ^ 16 * b2n m.neutral + 2 ^ 15 * b2n m.seqWrong +
    lost + chans

/-- The sum of the measured lengths. -/
def lensSum (m : MelSys) : Nat := m.lens.foldl (· + ·) 0

/-- FREQUENCY in mHz (R339, R354). -/
def frequencyMhz (m : MelSys) : Nat :=
  if m.unlocked || lensSum m = 0 then 0 else (roundDiv ((16000000 * 4096 * m.lens.length : Nat) : Int) (lensSum m)).toNat

/-- FREQUENCY in Hz, binary64 (R348). -/
def frequencyHz (m : MelSys) : Nat :=
  if m.unlocked || lensSum m = 0 then 0 else Fp.ofRatio f64 (16000 * 4096 * m.lens.length : Nat) (lensSum m)

/-- Samples of the last cycles. -/
def lastSamples (m : MelSys) : Nat := m.last.foldl (fun a c => a + c.samples) 0

/-- The root of a mean square, in V or A, rounded once: `sq / (n · 2^60 · 10^6)` under the root. -/
def rootMean (sq n : Nat) : Nat :=
  if n = 0 then 0
  else
    let x := sq * 2 ^ 320 / (n * 2 ^ 60 * 1000000)
    fmul f64 (Fp.sqrtD f64 (.fin false x 0)) (Fp.ofScaled f64 1 (-160))

/-- VRMS of a phase (R348). -/
def vrmsOf (m : MelSys) (l : Nat) : Nat :=
  rootMean (m.last.foldl (fun a c => a + (vget c.sums l PhaseSums.zero).vv * c.vfs * c.vfs) 0) (lastSamples m)

/-- IRMS of a phase (R348). -/
def irmsOf (m : MelSys) (l : Nat) : Nat :=
  rootMean (m.last.foldl (fun a c => a + (vget c.sums l PhaseSums.zero).ii * c.ifs * c.ifs) 0) (lastSamples m)

/-- P of a phase in W (R348). -/
def activeOf (m : MelSys) (l : Nat) : Nat :=
  if m.last.isEmpty then 0
  else Fp.ofRatio f64 (m.last.foldl (fun a c => a + (vget c.sums l PhaseSums.zero).p * (c.vfs * c.ifs : Nat)) 0)
    (lastSamples m * 2 ^ 60 * 1000000)

/-- Q of a phase in var (R348). -/
def reactiveOf (m : MelSys) (l : Nat) : Nat :=
  if m.last.isEmpty then 0
  else Fp.ofRatio f64 (m.last.foldl (fun a c => a + (vget c.sums l PhaseSums.zero).q * (c.vfs * c.ifs : Nat)) 0)
    (lastSamples m * 2 ^ 60 * 1000000)

/-- A mean of millidegrees in binary32 degrees. -/
def angleOf (sum n : Nat) : Nat := if n = 0 then 0 else Fp.ofRatio f32 sum (n * 1000)

/-- The values of a phase are valid (R348). -/
def phaseValid (s : State) (k l : Nat) : Bool :=
  let m := melSys s k
  m.running && phasePresent s k l && !m.last.isEmpty

/-- One system of an electrical page, 128 bytes. -/
def elecSysBytes (s : State) (k : Nat) : Bytes :=
  let m := melSys s k
  let three (f : MelSys → Nat → Nat) := (List.range 3).flatMap fun l => le 8 (f m l)
  three vrmsOf ++ three irmsOf ++ three activeOf ++ three reactiveOf ++ le 8 (frequencyHz m) ++ le 4 (sysStatusOf s k) ++
    le 1 (b2n (phaseValid s k 0) + 2 * b2n (phaseValid s k 1) + 4 * b2n (phaseValid s k 2)) ++ zeros 3 ++
    le 4 (angleOf (m.last.foldl (fun a c => a + c.lag2) 0) m.last.length) ++
    le 4 (angleOf (m.last.foldl (fun a c => a + c.lag3) 0) m.last.length) ++ zeros 8

/-- An electrical page, 544 bytes (R348). -/
def elecPage (s : State) (page seq round : Nat) : Bytes :=
  pageHeader s page seq round ++ (List.range 4).flatMap (elecSysBytes s)

/-- Page 2 published at a cut (R28, R348). -/
def publishPage2 (round : Nat) (s : State) : State :=
  if meteringMode s then
    publishWindow 544 { s with mel := { s.mel with
        page2 := Paged.write s (elecPage s 2 (s.mel.seq2 + 1).toNat round) s.mel.page2, seq2 := s.mel.seq2 + 1 } }
  else s

/-- The published |P_L1 + P_L2 + P_L3| remembered for PEAK_ACTIVE (R361). -/
def notePeakActive (s : State) (k : Nat) (m : MelSys) : MelSys :=
  if phaseValid s k 0 || phaseValid s k 1 || phaseValid s k 2 then
    let p := fabs f64 (fadd f64 (fadd f64 (activeOf m 0) (activeOf m 1)) (activeOf m 2))
    { m with
        peaks := (monoUs s, BitVec.ofNat 64 p) :: m.peaks.filter fun x => decide (monoUs s ≤ x.1 + 60000000) }
  else m

/-- ELECTRICAL_PAGE_PUBLISH (R348). -/
def publishPage3 (s : State) : State :=
  if meteringMode s then
    let systems := s.mel.systems.mapFinIdx fun k m _ => notePeakActive s k m
    publishWindow 544 { s with
        mel := { s.mel with
          page3 := Paged.write s (elecPage s 3 (s.mel.seq3 + 1).toNat 0) s.mel.page3, seq3 := s.mel.seq3 + 1, systems := systems } }
  else s

/-! ### Intervals (R349) -/

/-- The open interval of length `l` without the line cycles that closed in this tick (R344). -/
def openAtStart (s : State) (l : Nat) (m : MelSys) : ElecOpen :=
  match m.fresh with
  | some (t, _, o) => if t = tickId s then vget o l ElecOpen.empty else vget m.opens l ElecOpen.empty
  | none => vget m.opens l ElecOpen.empty

/-- The registers of system `k` without the line cycles that closed in this tick (R344). -/
def sysAtStart (s : State) (k : Nat) (m : MelSys) : ElecReg :=
  elecAtStart s m (vget s.bill.regs.elec k ⟨Vector.replicate 4 (Vector.replicate 8 0), 0, 0⟩)

/-- The record of length `l` of a system closed at this tick; a line cycle closed in this tick belongs to the next interval. -/
def elecClose (s : State) (k l extra : Nat) (m : MelSys) : ElecInt :=
  let o := openAtStart s l m
  let r := sysAtStart s k m
  let fs := r.faultS - o.faultBase
  let qs := r.qualityS - o.qualityBase
  let fl := Nat.lor (Nat.lor o.flags extra) (8 * b2n (fs != 0) + 16 * b2n (qs != 0) + 32 * b2n (o.exportCycles != 0))
  { seq := vget m.seqs l 0, flags := fl, start := o.start, stop := ptpSec s, lifecycle := s.sec.lifecycle.code,
    regs := (vget r.regs 0 (Vector.replicate 8 0)).toList.map whole, exportCycles := o.exportCycles, cycles := o.cycles,
    faultS := fs, qualityS := qs }

/-- The interval of length `l` that opens in this tick, with the line cycles that closed in it (R344). -/
def elecNext (s : State) (k l openFl : Nat) (m : MelSys) : ElecOpen :=
  let o := vget m.opens l ElecOpen.empty
  let b := openAtStart s l m
  let r := sysAtStart s k m
  { elecOpen s k openFl m with
      exportCycles := o.exportCycles - b.exportCycles, cycles := o.cycles - b.cycles, faultBase := r.faultS,
      qualityBase := r.qualityS }

/-- The interval of length `l` of a system closes and the next opens (R326, R349). -/
def elecTurn (s : State) (k l closeFl openFl : Nat) (m : MelSys) : MelSys :=
  if m.running then
    { m with
        kept := vset m.kept l ((elecClose s k l closeFl m :: vget m.kept l []).take (keptMax l)),
        seqs := vset m.seqs l (vget m.seqs l 0 + 1), opens := vset m.opens l (elecNext s k l openFl m) }
  else m

/-- Electrical intervals of length `l` of every system close and open. -/
def elecTurnAll (l closeFl : Nat) (openFl : Nat → Nat) (s : State) : State :=
  { s with mel := { s.mel with systems := s.mel.systems.mapFinIdx fun i m _ => elecTurn s i l closeFl (openFl i) m } }

/-! ### Calibration windows (R350) -/

/-- A signed 128-bit field. -/
def le128 (v : Int) : Bytes := le 16 (unsgn 128 v)

/-- The MEL_CAL_WINDOW reply. -/
def calBody (s : State) (k : Nat) (w : CalWin) : Bytes :=
  let t := sumPhases w.sums
  let three (f : PhaseSums → Nat) := (List.range 3).flatMap fun l => le 8 (f (vget w.sums l PhaseSums.zero))
  le 1 k ++ le 1 w.flags ++ zeros 2 ++ le 4 w.samples ++ le 6 w.first.sec ++ zeros 2 ++ le 4 w.first.ns ++ zeros 4 ++
    (List.range 3).flatMap (fun l =>
      let x := vget w.sums l PhaseSums.zero
      le128 (quantumOf s k x.p) ++ le128 (quantumOf s k x.q)) ++
    le128 (quantumOf s k t.p) ++ le128 (quantumOf s k t.q) ++
    three (fun x => rootMean (x.vv * melP s k 1 * melP s k 1) w.samples) ++
    three (fun x => rootMean (x.ii * melP s k 2 * melP s k 2) w.samples)

/-- A flag set in the pending calibration window of a system where the instants from `lo` to `last`, PTP ns, meet it (R350). -/
def calFlag (fl lo last : Nat) (m : MelSys) : MelSys :=
  { m with
      cal := m.cal.map fun w => if lo < w.stop ∧ w.start ≤ last then { w with flags := Nat.lor w.flags fl } else w }

/-- CAL_WINDOW_END: a window whose last sample has been taken completes its MEL_CAL_WINDOW (R350). -/
def calWindowEnd (k : Nat) (s : State) : State :=
  let m := melSys s k
  match m.cal with
  | some w =>
    if sampleStamp s < w.stop then s
    else
      let tags := (executing s).filterMap fun x => if x.2.wait == .calWindow k then some x.1 else none
      tags.foldl (fun st t => complete t stOK false (calBody s k w) st) (setMel k { m with cal := none } s)
  | none => s

/-- MEL_CAL_WINDOW (R350). -/
def effCalWindow (r : Req) (s : State) : CmdRes :=
  let k := fld r.payload 0 1
  let start := fld r.payload 8 6 * 1000000000 + fld r.payload 16 4
  let dur := fld r.payload 20 4
  let now := ptpTotalNs s
  checked
    [(decide (k ≤ 3) && melEnabled s k, 0), (allZero (slice r.payload 1 7), 1),
      (decide (now + 10000000 ≤ start) && decide (start ≤ now + 3600000000000), 8),
      (allZero (slice r.payload 14 2), 14), (decide (fld r.payload 16 4 ≤ 999999999), 16),
      (decide (1000 ≤ dur) && decide (dur ≤ 3600000), 20)]
    (if (melSys s k).cal.isSome then .reject stBusy []
    else
      let w : CalWin :=
        { start := start, stop := start + dur * 1000000, samples := 0, first := ⟨0, 0⟩,
          sums := Vector.replicate 3 PhaseSums.zero, flags := 0 }
      .wait (.calWindow k) (setMel k { melSys s k with cal := some w } s))

end Sys2Proof.Machine
end

