-- ==== Sys2Proof/Machine/Billing.lean ====
section
/-! DEFINITION. Billing registers, saving and supply loss (R355 to R372), with the interval boundary at which metrology
values take effect (R326, R331, R352, R369). -/

namespace Sys2Proof.Machine

/-! ### Record layouts (R357, R364) -/

/-- A register entry: count and remainder, 12 bytes. -/
def regBytes (a : Acc) : Bytes := le 8 (whole a) ++ le 4 (a.toNat % 2 ^ 32)

/-- The layout of *Save record*, 4,096 bytes. -/
def recBytes (r : SaveRec) : Bytes :=
  let head := le 4 0x53424B41 ++ le 2 0x0100 ++ le 1 r.lifecycle ++ le 1 r.set_ ++ le 8 r.seq ++ le 6 r.at_.sec ++ zeros 2 ++
    le 4 r.at_.ns ++ le 4 r.changeCounter.toNat ++ le 4 r.gapCount.toNat ++ zeros 28
  let therm := r.regs.therm.toList.flatMap fun t =>
    regBytes t.fwdE ++ regBytes t.fwdV ++ regBytes t.revE ++ regBytes t.revV ++ le 4 t.faultS.toNat ++
      le 4 t.rangeS.toNat ++ le 4 t.wrongS.toNat ++ zeros 4
  let elec := r.regs.elec.toList.flatMap fun e =>
    e.regs.toList.flatMap (fun v => v.toList.flatMap regBytes) ++ le 4 e.faultS.toNat ++ le 4 e.qualityS.toNat
  let main := head ++ therm ++ elec ++ r.wrongDt.toList.flatMap regBytes ++ r.unattrT.toList.flatMap regBytes ++
    r.unattrE.toList.flatMap regBytes ++ r.peakT.toList.flatMap (fun p => le 8 p.toNat) ++
    r.peakE.toList.flatMap (fun p => le 8 p.toNat) ++ zeros 844
  main ++ le 4 (crc32c main)

/-- The layout of *Gap record*, 256 bytes. -/
def gapBytes (g : GapRec) : Bytes :=
  let main := le 4 g.seq.toNat ++ le 1 g.cause ++ le 1 g.flags ++ zeros 2 ++ le 8 g.recSeq ++ le 6 g.saveAt.sec ++ zeros 2 ++
    le 4 g.saveAt.ns ++ le 4 g.durationUs ++ le 6 g.stopAt.sec ++ zeros 2 ++ le 4 g.stopAt.ns ++ zeros 20 ++
    g.estT.toList.flatMap (le 8) ++ g.estE.toList.flatMap (le 8) ++ zeros 28
  main ++ le 4 (crc32c main)

/-- The layout of *Thermal interval record*, 80 bytes (R327). -/
def thermIntBytes (c l : Nat) (r : ThermInt) : Bytes :=
  le 4 r.seq.toNat ++ le 1 c ++ le 1 l ++ le 2 r.flags ++ le 6 r.start ++ le 2 r.dirChanges ++ le 6 r.stop ++ le 1 r.lifecycle ++
    zeros 1 ++ le 8 r.fwdE ++ le 8 r.fwdV ++ le 8 r.revE ++ le 8 r.revV ++ le 8 r.wrongE ++ le 4 r.faultS.toNat ++
    le 4 r.rangeS.toNat ++ le 4 r.meanA.toNat ++ le 4 r.meanB.toNat

/-- The layout of *Electrical interval record*, 104 bytes (R349). -/
def elecIntBytes (k l : Nat) (r : ElecInt) : Bytes :=
  le 4 r.seq.toNat ++ le 1 k ++ le 1 l ++ le 2 r.flags ++ le 6 r.start ++ zeros 2 ++ le 6 r.stop ++ le 1 r.lifecycle ++ zeros 1 ++
    r.regs.flatMap (le 8) ++ le 4 r.exportCycles.toNat ++ le 4 r.cycles.toNat ++ le 4 r.faultS.toNat ++ le 4 r.qualityS.toNat

/-! ### The save ring (R358 to R360) -/

/-- SAVE_INTERVAL in µs. -/
def saveIntervalUs (s : State) : Nat := getP s 0x0910 * 1000000

/-- A record placed in its slot; words marked uncorrectable there are replaced whole (R531). -/
def putSlot (r : SaveRec) (intact : Bool) (s : State) : State :=
  { s with
      bill := { s.bill with ring := vset s.bill.ring (r.seq % 64) (some ⟨intact, r⟩) },
      intg := { s.intg with marked := s.intg.marked.filter fun x => x != (11, r.seq % 64 * 4096) } }

/-- A slot's record marked intact or not when its write ends. -/
def endSlot (seq : Nat) (intact : Bool) (s : State) : State :=
  { s with
      bill := { s.bill with
        ring := s.bill.ring.map fun x => x.map fun y => if y.rec_.seq = seq then { y with intact := intact } else y,
        saving := none } }

/-- A save begins: a snapshot point, and the record's write to the next slot (R358). -/
def beginSave (s : State) : State :=
  let s := snapshotPoint s
  let r := makeRec s (s.bill.lastSeq + 1)
  putSlot r false
    { s with bill := { s.bill with lastSeq := r.seq, lastSave := monoUs s, saving := some r.seq } }

/-- REGISTER_SAVE: a periodic save when its instant has come (R358, R359). -/
def registerSave (s : State) : State :=
  if s.mth.running && s.bill.saving.isNone && decide (s.bill.lastSave + saveIntervalUs s ≤ monoUs s) then beginSave s
  else s

/-- SAVE_READBACK: the write of the record in progress ends and is compared (R358). -/
def saveReadback (ok : Bool) (s : State) : State :=
  match s.bill.saving with
  | none => s
  | some n =>
    let s := endSlot n ok s
    { s with
        bill := { s.bill with
          saves := s.bill.saves + 1, saveErrors := if ok then s.bill.saveErrors else s.bill.saveErrors + 1 } }

/-- Metering stops: no system and no channel meters any more; the interval records are lost (R26, R327). -/
def stopEngines (s : State) : State :=
  { s with
      mth := { s.mth with running := false },
      mel := { s.mel with systems := s.mel.systems.map fun m => { m with running := false, settle := 64, fresh := none } } }

/-- An orderly stop: a final save completes, and metering stops at its tick (R360). A periodic save of the same tick
serves as the final one. -/
def orderlyStop (s : State) : State :=
  if !meteringMode s then s else
  let s :=
    if s.mth.running then
      if s.bill.saving.isSome && s.bill.lastSave == monoUs s then saveReadback true s
      else saveReadback true (beginSave (saveReadback true s))
    else saveReadback true s
  stopEngines { s with bill := { s.bill with stop := none, orderly := true } }

/-- An abrupt stop with its cause (R360): 1 HOLDUP on PFW, 2 HOLDUP on undervoltage, 3 RESET_N, 4 internal reset. A write
in progress goes on only for cause 1. -/
def abruptStop (cause : Nat) (s : State) : State :=
  let s := if s.bill.saving.isSome then
      (if cause = 1 then s else endSlot (s.bill.saving.getD 0) false s)
    else s
  if meteringMode s then
    stopEngines { s with bill := { s.bill with stop := some (tickStamp s, cause), orderly := false } }
  else stopEngines s

/-! ### Selection at boot and gap records (R356, R362 to R365) -/

/-- The intact slot with the highest SEQUENCE. -/
def chooseSlot (s : State) : Option SaveRec :=
  s.bill.ring.toList.foldl
    (fun best x => match x with
      | some y =>
        if y.intact then
          (match best with
          | some b => if b.seq < y.rec_.seq then some y.rec_ else best
          | none => some y.rec_)
        else best
      | none => best)
    none

/-- The highest SEQUENCE field found in a slot that is not erased. -/
def highestSeq (s : State) : Nat :=
  s.bill.ring.toList.foldl (fun m x => match x with
    | some y => max m y.rec_.seq
    | none => m) 0

/-- Slots that are not intact with a SEQUENCE above `n`. -/
def fallbacks (s : State) (n : Nat) : Nat :=
  (s.bill.ring.toList.filter fun x => x.any fun y => !y.intact && decide (n < y.rec_.seq)).length

/-- Slots in which a word had an uncorrectable error at this BOOT (R362, R531). -/
def damageSlots (bad : List (Fin 64)) (s : State) : State :=
  bad.foldl
    (fun s k =>
      { uncorrectable 11 0x09 (k.val * 4096) s with
          bill := { s.bill with
            ring := s.bill.ring.mapFinIdx fun i x _ => if i = k.val then x.map fun y => { y with intact := false } else x } })
    s

/-- Registers resumed from a record, every count and remainder as saved (R362). -/
def resume (r : SaveRec) (s : State) : State :=
  { s with
      bill := { s.bill with
        regs := r.regs, wrongDt := r.wrongDt, unattrT := r.unattrT, unattrE := r.unattrE,
        shown := { makeRec s r.seq with at_ := r.at_, regs := r.regs, wrongDt := r.wrongDt, unattrT := r.unattrT, unattrE := r.unattrE, peakT := r.peakT, peakE := r.peakE } } }

/-- An estimate ⌈peak · D / 3.6⌉ in mWh for D in µs (R364). -/
def gapEstimate (peak : W64) (d : Nat) : Nat :=
  ceilDiv ((exact64 peak).natAbs * d) (3600000 * 2 ^ 1074)

/-- A gap record written and posted, its estimates added, and a save record written after it (R364, R365). -/
def writeGap (r : SaveRec) (fell : Bool) (stop : Option (Stamp × Nat)) (s : State) : State :=
  let d := match stop with
    | some (t, _) => (t.total - r.at_.total) / 1000
    | none => 0
  let known := stop.isSome
  let estT : Vector Nat 16 := Vector.ofFn fun c => if known && mthEnabled s c.val then gapEstimate (vget r.peakT c.val 0) d else 0
  let estE : Vector Nat 4 := Vector.ofFn fun k => if known && melEnabled s k.val then gapEstimate (vget r.peakE k.val 0) d else 0
  let g : GapRec :=
    { seq := s.bill.gapCount + 1, cause := match stop with
        | some (_, c) => c
        | none => 5,
      flags := 4 * b2n (billingSet s) + 2 * b2n fell + b2n (!known), recSeq := r.seq, saveAt := r.at_,
      durationUs := if known then min d 0xFFFFFFFE else 0xFFFFFFFF, stopAt := match stop with
        | some (t, _) => t
        | none => ⟨0, 0⟩,
      estT := estT, estE := estE }
  let s :=
    { s with
        bill := { s.bill with
          gapCount := g.seq, gaps := (g :: s.bill.gaps).take 256,
          unattrT := s.bill.unattrT.mapFinIdx fun c a _ => a + BitVec.ofNat 96 (vget estT c 0 * 2 ^ 32),
          unattrE := s.bill.unattrE.mapFinIdx fun k a _ => a + BitVec.ofNat 96 (vget estE k 0 * 2 ^ 32) } }
  let s := post 0x0903 0
    (le 4 g.seq.toNat ++ le 1 g.cause ++ le 1 g.flags ++ le 8 g.recSeq ++ le 4 g.durationUs ++ le 6 g.stopAt.sec) 0 s
  let n := makeRec s (s.bill.lastSeq + 1)
  let s := putSlot n true { s with bill := { s.bill with lastSeq := n.seq, saves := s.bill.saves + 1 } }
  { s with bill := { s.bill with shown := n } }

/-- Registers selected at BOOT, before metering starts (R356, R362 to R365). -/
def billBoot (bad : List (Fin 64)) (s : State) : State :=
  let s := damageSlots bad s
  let s := if 3 ≤ s.sec.lifecycle.code then { s with bill := { s.bill with frozen := none } } else s
  let s :=
    match chooseSlot s with
    | some r =>
      let n := fallbacks s r.seq
      let s := resume r { s with bill := { s.bill with lastSeq := highestSeq s, ringFallbacks := s.bill.ringFallbacks + BitVec.ofNat 32 n } }
      let s :=
        if billingSet s && r.set_ == 0 then
          { s with bill := { s.bill with regs := RegSet.zero, frozen := if s.sec.lifecycle == Lifecycle.sealed then some r else none, shown := { s.bill.shown with regs := RegSet.zero } } }
        else s
      match s.bill.stop with
      | some (t, c) => if r.at_.total < t.total then writeGap r (decide (0 < n)) (some (t, c)) s else s
      | none => if s.bill.orderly then s else writeGap r (decide (0 < n)) none s
    | none =>
      let z :=
        { s with
            bill := { s.bill with
              regs := RegSet.zero, wrongDt := Vector.replicate 16 0, unattrT := Vector.replicate 16 0,
              unattrE := Vector.replicate 4 0, lastSeq := highestSeq s, shown := { SaveRec.empty with lifecycle := s.sec.lifecycle.code, set_ := b2n (billingSet s) } } }
      if s.bill.ring.toList.any Option.isSome then
        post 0x0904 0 (le 8 (highestSeq s)) 0 { z with bill := { z.bill with ringLost := true } }
      else z
  { s with bill := { s.bill with stop := none, orderly := true, saving := none, lastBoundary := none } }

/-! ### The interval boundary (R326, R331, R352, R369) -/

/-- Parameter identifiers of metering that take effect at a one-minute boundary. -/
def minuteId (id : Nat) : Bool := (pinfo id).any fun q => q.bound == .minute

/-- The system whose own parameters or channels' constants an identifier names. -/
def melSystemOf (id : Nat) : Option Nat :=
  if 0x0810 ≤ id ∧ id < 0x0840 then some ((id - 0x0810) / 12)
  else if 0x0840 ≤ id ∧ id < 0x0860 then some ((id - 0x0840) / 8) else none

/-- The channel whose own parameters an identifier names. -/
def mthChannelOf (id : Nat) : Option Nat := if 0x0710 ≤ id ∧ id < 0x0790 then some ((id - 0x0710) / 8) else none

/-- Pending metrology values that change the value in effect, with the identifier of each. -/
def dueChanges (s : State) : List Nat :=
  (s.cfgPending.filter fun p => minuteId p.id && getP s p.id != p.value).map (·.id)

/-- One written value takes effect: the change counter and the audit event METROLOGY_CHANGE (R369). -/
def takeEffect (p : PendingValue) (s : State) : State :=
  let old := getP s p.id
  if old = p.value then s else
  let s := setP p.id p.value (bumpCounter s)
  let s := requestStrip 1 2 s
  post 0x0901 0 (le 4 s.bill.changeCounter.toNat ++ le 2 p.id ++ le 8 old ++ le 8 p.value ++ le 4 p.counter) p.keyId s

/-- Systems and channels follow a change of their ENABLE: a system that is disabled stops, and settles anew when it is
enabled (R333, R345). -/
def followEnables (s : State) : State :=
  { s with
      mel := { s.mel with
        systems := s.mel.systems.mapFinIdx fun k m _ =>
          if melEnabled s k then m else { m with running := false, settle := 64, open_ := Cycle.empty } } }

/-- A new SAVE_INTERVAL is in effect: a save whose instant it puts at this tick or before comes at the next tick (R358). -/
def moveSave (s : State) : State :=
  if s.bill.lastSave + saveIntervalUs s ≤ monoUs s then
    { s with bill := { s.bill with lastSave := monoUs s + 1 - saveIntervalUs s } }
  else s

/-- The waiting metrology values take effect (R331, R352, R368). -/
def applyMinute (s : State) : State :=
  let ids := dueChanges s
  let touched (k : Nat) : Bool := ids.any fun i => melSystemOf i == some k
  let s := (List.range 4).foldl (fun s k => if touched k then forceClose k s else s) s
  let due := s.cfgPending.filter fun p => minuteId p.id
  let s := due.foldl (fun s p => takeEffect p s) s
  let s := { s with cfgPending := s.cfgPending.filter fun p => !minuteId p.id }
  let s := if ids.contains 0x0910 then moveSave s else s
  followEnables
    { s with
        mel := { s.mel with systems := s.mel.systems.mapFinIdx fun k m _ => if touched k then calFlag 1 (ptpTotalNs s) (ptpTotalNs s) m else m } }

/-- Intervals of the given lengths close and open, with what the openings carry (R326, R349). -/
def turnIntervals (ls : List Nat) (closeFl openFl : Nat) (ids : List Nat) (s : State) : State :=
  let changed (f : Nat → Option Nat) (i : Nat) : Nat :=
    4 * b2n (ids.any fun x => f x == some i || x == 0x0910)
  ls.foldl
    (fun s l =>
      let s := if s.mth.running then thermTurnAll l closeFl (fun i => Nat.lor openFl (changed mthChannelOf i)) s else s
      elecTurnAll l closeFl (fun i => Nat.lor openFl (changed melSystemOf i)) s)
    s

/-- Lengths that have a boundary at a metering second. -/
def lengthsAt (m : Nat) : List Nat := (List.range 3).filter fun l => m % lengthSec l == 0

/-- Metering reaches a one-minute boundary: a snapshot point, the intervals, and the waiting values (R318, R326). -/
def intervalBoundary (s : State) : State :=
  let m := meterSec s
  if !meteringMode s || m % 60 != 0 || s.bill.lastBoundary == some m then s else
  let s := snapshotPoint s
  let ids := dueChanges s
  let s := turnIntervals (lengthsAt m) 0 0 ids s
  let s := applyMinute s
  { s with bill := { s.bill with lastBoundary := some m } }

/-- The intervals of the lengths `ls` closed by a step to second `new`, and waiting values put into effect by a forward one. -/
def closeStepped (ls : List Nat) (back : Bool) (new : Nat) (s : State) : State :=
  let s := snapshotPoint s
  let s := turnIntervals ls 2 2 (if back then [] else dueChanges s) s
  let s := if back then s else applyMinute s
  { s with bill := { s.bill with lastBoundary := if new % 60 = 0 && !back then some new else none } }

/-- The lengths whose intervals a step closes: every one when it goes back, those whose boundary it passes when it goes forward. -/
def steppedLengths (back : Bool) (old new : Nat) : List Nat :=
  if back then [0, 1, 2] else (List.range 3).filter fun l => decide (old / lengthSec l < new / lengthSec l)

/-- A step of metering time from second `old` (R328): forward past boundaries closes their intervals and puts waiting
values in effect; backward by a second or more closes all. `oldPtp` is PTP time before the step, in ns: a calibration window that
the step meets bears TIME_STEP (R350). -/
def intervalStep (old oldNs oldPtp : Nat) (s : State) : State :=
  if !meteringMode s then s else
  let new := meterSec s
  let back := decide (new * 1000000000 + ptpNs s + 1000000000 ≤ old * 1000000000 + oldNs)
  let ls := steppedLengths back old new
  let p := ptpTotalNs s
  let s := { s with mel := { s.mel with systems := s.mel.systems.map (calFlag 4 (min oldPtp p) (max oldPtp p)) } }
  if ls.isEmpty then s else closeStepped ls back new s

/-! ### Status and BILL_READ (R371, R372) -/

/-- BILL_STATUS (R372). -/
def billStatus (s : State) : Nat :=
  16 * b2n (pendingOf s 0x0910).isSome + 8 * b2n s.bill.ringLost + 4 * b2n s.bill.frozen.isSome + 2 * b2n (billingSet s) +
    b2n s.bill.saving.isSome

/-- The running image of a class, 1 to 7. -/
def imageOf (s : State) (cls : Nat) : ImageClass := vget s.sec.images (cls - 1) ImageClass.reset

/-- METRO_FW_VERSION (R370). -/
def metroVersion (s : State) : Nat := (imageOf s 3).version.toNat

/-- BILL_READ (R371). -/
def effBillRead (r : Req) (s : State) : CmdRes :=
  let item := fld r.payload 0 1
  let idx := fld r.payload 1 1
  let len := fld r.payload 2 1
  let age := fld r.payload 4 4
  let interval := item = 3 ∨ item = 4
  let ch := vget s.mth.chans idx MthChan.reset
  let kept : Option Bytes :=
    match item with
    | 3 => ((vget ch.kept len [])[age]?).map (thermIntBytes idx len)
    | 4 => ((vget (melSys s idx).kept len [])[age]?).map (elecIntBytes idx len)
    | 5 => (s.bill.gaps[age]?).map gapBytes
    | _ => some []
  checked
    [(decide (item ≤ 6) && !(item == 2 && s.bill.frozen.isNone) && !(item == 1 && (chooseSlot s).isNone), 0),
      (if item = 3 then decide (idx ≤ 15) else if item = 4 then decide (idx ≤ 3) else idx == 0, 1),
      (if interval then decide (len ≤ 2) else len == 0, 2), (fld r.payload 3 1 == 0, 3),
      (if interval ∨ item = 5 then kept.isSome else age == 0, 4)]
    (match item with
    | 0 => .ok (recBytes { s.bill.shown with seq := s.bill.lastSeq }) s
    | 1 => .ok ((chooseSlot s).elim [] recBytes) s
    | 2 => .ok (s.bill.frozen.elim [] fun r => recBytes { r with set_ := 0 }) s
    | 6 => .ok (le 4 (metroVersion s) ++ le 4 s.bill.changeCounter.toNat ++ fit 48 (imageOf s 3).digest) s
    | _ => .ok (kept.getD []) s)

end Sys2Proof.Machine
end

