-- ==== Sys2Proof/Machine/Pio.lean ====
section
/-! DEFINITION. Process inputs and outputs (R373 to R386): conversions, edges, samples, driven levels, safe
states and readback faults. -/

namespace Sys2Proof.Machine

/-- PIO runs: every mode but BACKUP and BOOT (R373). -/
def pioRuns (s : State) : Bool := !s.sys.inReset && s.sys.mode != .backup && s.sys.mode != .boot

/-- A stamp of a PTP microsecond. -/
def stampOfUs (u : Nat) : Stamp := ⟨u / 1000000, u % 1000000 * 1000⟩

/-- DO_CONFIG. -/
def doConfig (s : State) (o : Nat) : Nat := getP s (0x0A70 + o)

/-- The logical level of a digital input at a pin level (R378). -/
def diLogical (s : State) (n : Nat) (pin : Bool) : Bool := pin != bit (getP s (0x0A50 + n)) 0

/-- Logical level of a digital input (R378). -/
def diLevel (s : State) (n : Nat) : Bool := diLogical s n (vget s.pio.din n Din.reset).pin

/-- The output that SYS drives for the active role (R383). -/
def pairOutput (s : State) : Option Nat :=
  if getP s 0x0120 = 1 ∧ getP s 0x0126 ≤ 23 then some (getP s 0x0126) else none

/-! ### Driving outputs (R380 to R383) -/

/-- A DO driven to a level: its pad follows (log entry 21). -/
def driveDo (o : Nat) (v : Bool) (s : State) : State :=
  let d := vget s.pio.dos o DOut.reset
  let d := if d.level = v then { d with everDriven := true } else { d with level := v, pad := v, everDriven := true, changedUs := monoUs s }
  { s with pio := { s.pio with dos := vset s.pio.dos o d } }

/-- The level of a DO's safe state (R381, R383). A fault takes hold as low (R384). -/
def safeLevel (s : State) (o : Nat) (d : DOut) : Bool :=
  if pairOutput s == some o then s.pair.active && s.sys.mode != .holdup
  else
    match doConfig s o % 4 with
    | 0 => false
    | 1 => true
    | _ => if d.faultSafe then false else d.everDriven && d.level

/-- A DO put to its safe state. -/
def doSafe (o : Nat) (s : State) : State :=
  let d := vget s.pio.dos o DOut.reset
  driveDo o (safeLevel s o d) { s with pio := { s.pio with dos := vset s.pio.dos o { d with safe := true } } }

/-- A PWM output put to its safe state: at once on entry to SAFE, FAULT or HOLDUP, else at its next period boundary
(R380, R382; log entry 22). -/
def pwmSafe (now : Bool) (p : Nat) (s : State) : State :=
  let w := vget s.pio.pwm p PwmOut.reset
  let d := BitVec.ofNat 32 (getP s (0x0A89 + 2 * p))
  let w := if now then { w with duty := d, next := none, safe := true } else { w with next := some d, safe := true }
  { s with pio := { s.pio with pwm := vset s.pio.pwm p w } }

/-- Every output put to its safe state. -/
def outputsSafe (now : Bool) (s : State) : State :=
  (List.range 8).foldl (fun s p => pwmSafe now p s) ((List.range 24).foldl (fun s o => doSafe o s) s)

/-- The output that indicates the active role follows it (R65, R383). -/
def drivePairOutput (s : State) : State :=
  match pairOutput s with
  | some o => if s.pio.hiZ then s else driveDo o (s.pair.active && s.sys.mode != .holdup) s
  | none => s

/-- A DO takes a published level (R380, R382): not while its fault holds it safe, nor if SYS drives it. -/
def publishDo (o : Nat) (v : Bool) (s : State) : State :=
  if pairOutput s == some o then
    (if s.pio.conflict then s else { post 0x0A02 o [] 0 s with pio := { s.pio with conflict := true } })
  else
    let d := vget s.pio.dos o DOut.reset
    if d.faultSafe then s
    else driveDo o v { s with pio := { s.pio with dos := vset s.pio.dos o { d with safe := false } } }

/-- A PWM output takes a published duty at its next period boundary (R380). -/
def publishPwm (p duty : Nat) (s : State) : State :=
  let w := vget s.pio.pwm p PwmOut.reset
  { s with pio := { s.pio with pwm := vset s.pio.pwm p { w with next := some (BitVec.ofNat 32 duty), safe := false } } }

/-- The high time of a PWM period in units of 4 ns (R380). -/
def pwmHigh (w : PwmOut) : Nat := (roundDiv (w.duty.toNat * w.period : Nat) (2 ^ 32)).toNat

/-- PWM_PERIOD_BOUNDARY (R380, R386). -/
def pwmBoundary (p : Nat) (s : State) : State :=
  if !pioRuns s then s else
  let s := applyOne (0x0A88 + 2 * p) s
  let w := vget s.pio.pwm p PwmOut.reset
  let w := { w with duty := w.next.getD w.duty, next := none, period := getP s (0x0A88 + 2 * p) }
  { s with pio := { s.pio with pwm := vset s.pio.pwm p w } }

/-- A written output setting reaches an output that is at its safe state, without waiting for the tick (R386). -/
def pioHook (id : Nat) (s : State) : State :=
  let written := setP id (resultingP s id) s
  if !pioRuns s then s
  else if 0x0A70 ≤ id ∧ id ≤ 0x0A87 then
    (if (vget s.pio.dos (id - 0x0A70) DOut.reset).safe then { doSafe (id - 0x0A70) written with cfg := s.cfg } else s)
  else if 0x0A88 ≤ id ∧ id ≤ 0x0A97 ∧ id % 2 = 1 then
    (if (vget s.pio.pwm ((id - 0x0A88) / 2) PwmOut.reset).safe then
      { pwmSafe false ((id - 0x0A88) / 2) written with cfg := s.cfg } else s)
  else s

/-! ### Analog inputs (R376, R377) -/

/-- x of R376 as a ratio: mA in MODE 1, V in MODE 2 and 3. -/
def ainRatio (mode scale : Nat) (raw : Int) : Int × Nat :=
  match mode with
  | 1 => (raw * 5 * 1000000, 2 ^ 24 * scale)
  | 2 => (raw * 5 * scale, 2 ^ 24 * 1000)
  | _ => (raw * 5, 2 ^ 24)

/-- VALUE of a conversion in binary64 (R376). -/
def ainValue (s : State) (a mode : Nat) (raw : Int) : Nat :=
  let lo := fconv f32 f64 (getP s (0x0A11 + 4 * a))
  let hi := fconv f32 f64 (getP s (0x0A12 + 4 * a))
  let q := ainRatio mode (getP s (0x0A13 + 4 * a)) raw
  let x := Fp.ofRatio f64 q.1 q.2
  match mode with
  | 1 => fadd f64 lo (fmul f64 (fdiv f64 (fsub f64 x (fi 4)) (fi 16)) (fsub f64 hi lo))
  | 2 => fadd f64 lo (fmul f64 (fdiv f64 x (fi 10)) (fsub f64 hi lo))
  | _ => x

/-- `q` lies below `n / 10`. -/
def ratioBelow (q : Int × Nat) (n : Int) : Bool := decide (q.1 * 10 < n * q.2)

/-- LIMIT, WIRE_BREAK, OVER and UNDER of a conversion as bits 4 to 1 of *Analog status* (R377). -/
def ainMarks (s : State) (a mode : Nat) (raw : Int) : Nat :=
  let q := ainRatio mode (getP s (0x0A13 + 4 * a)) raw
  let above (n : Int) := decide (n * q.2 < q.1 * 10)
  let lim := raw == -335544 || raw == 8388607
  16 * b2n lim +
    (match mode with
    | 1 => 8 * b2n (ratioBelow q 10) + 4 * b2n (above 210) + 2 * b2n (ratioBelow q 36)
    | 2 => 4 * b2n (above 105) + 2 * b2n (ratioBelow q (-2))
    | _ => 0)

/-- A pending analog setting of an input exists. -/
def ainPending (s : State) (a : Nat) : Bool := pendingIn s (0x0A10 + 4 * a) (0x0A13 + 4 * a)

/-- ANALOG_CONVERSION: a conversion of an input completes with a code of the converter (R376, R377). -/
def analogConversion (a : Nat) (code : BitVec 24) (s : State) : State :=
  if !pioRuns s then s else
  let changed := ainPending s a
  let s := (List.range 4).foldl (fun s j => applyOne (0x0A10 + 4 * a + j) s) s
  let x := vget s.pio.ain a Ain.reset
  let settling := if changed then 3 else x.settling - 1
  let mode := getP s (0x0A10 + 4 * a) % 8
  let raw := max (-335544) (sgn 24 code.toNat)
  let x :=
    if mode = 0 then { x with settling := settling }
    else
      { raw := raw, value := BitVec.ofNat 64 (ainValue s a mode raw), marks := ainMarks s a mode raw, settling := settling, converted := true,
        endUs := monoUs s }
  { s with pio := { s.pio with ain := vset s.pio.ain a x } }

/-- *Analog status* of an input. -/
def ainStatus (s : State) (a : Nat) (x : Ain) : Nat :=
  let valid := getP s (0x0A10 + 4 * a) % 8 != 0 && x.settling == 0 && x.converted && !bit x.marks 4 && !bit x.marks 3
  32 * b2n (decide (0 < x.settling)) + x.marks + b2n valid

/-! ### Digital inputs (R378, R379) -/

/-- DIGITAL_INPUT_EDGE: the filter accepts a new pin level (R378, R379). -/
def digitalEdge (n : Nat) (pin : Bool) (s : State) : State :=
  let d := vget s.pio.din n Din.reset
  if !pioRuns s || d.pin == pin then s else
  let cfg := getP s (0x0A50 + n)
  let filter := cfg / 65536
  let lvl := pin != bit cfg 0
  let us := monoUs s - filter
  let d :=
    { d with
        pin := pin, rise := if lvl then d.rise + 1 else d.rise, fall := if lvl then d.fall else d.fall + 1,
        seen := min 2 (d.seen + 1), level := lvl, at_ := stampOfUs (tickUs s - filter), edgeUs := us,
        interval := min 0xFFFFFFFE (us - d.edgeUs) }
  { s with pio := { s.pio with din := vset s.pio.din n d } }

/-! ### Samples (R374, R375) -/

/-- Bits of a Boolean function. -/
def bitsOf (n : Nat) (f : Nat → Bool) : Nat := (List.range n).foldl (fun a i => a + b2n (f i) * 2 ^ i) 0

/-- The layout of *PIO latch buffer*, 1,248 bytes: the inputs and outputs at the instant that begins the tick. -/
def sampleBytes (s : State) (seq : Nat) : Bytes :=
  let t := tickStamp s
  let p0 := s.pioBegan
  le 6 t.sec ++ le 2 (b2n (seq == 1)) ++ le 4 t.ns ++ le 4 seq ++
    le 4 (bitsOf 32 fun n => diLogical s n (vget p0.din n Din.reset).pin) ++
    le 4 (bitsOf 24 fun o => (vget p0.dos o DOut.reset).level) ++
    le 4 (bitsOf 24 fun o => (vget p0.dos o DOut.reset).pad) ++ le 4 p0.fault.toNat ++
    (List.range 16).flatMap (fun a =>
      let x := vget p0.ain a Ain.reset
      le 8 x.value.toNat ++ le 4 (unsgn 32 x.raw) ++ le 2 (ainStatus s a x) ++ zeros 2 ++
        le 4 (if x.converted then monoUs s - x.endUs else 0) ++ zeros 4) ++
    (List.range 32).flatMap (fun n =>
      let d := vget p0.din n Din.reset
      le 4 d.rise.toNat ++ le 4 d.fall.toNat ++ le 6 d.at_.sec ++
        le 1 (2 * b2n d.level + b2n (decide (0 < d.seen))) ++ zeros 1 ++ le 4 d.at_.ns ++
        le 4 (if d.seen < 2 then 0xFFFFFFFF else d.interval)) ++
    (List.range 8).flatMap (fun p =>
      let w := vget p0.pwm p PwmOut.reset
      le 4 w.duty.toNat ++ le 4 w.period)

/-- The current latch buffer. -/
def latchBuffer (s : State) : Bytes := vget s.pio.bufs (b2n s.pio.cur) []

/-- PIO takes a sample at this tick, once, and writes it to bank 0 in 78 beats of class P0 (R16, R374). -/
def takeSample (s : State) : State :=
  if !pioRuns s || s.pio.sampleTick == some (tickId s) then s else
  let n := s.pio.samples + 1
  let cur := !s.pio.cur
  transfer iPio (.bank 0) 1248 { s with
      pio := { s.pio with
        samples := n, cur := cur, bufs := vset s.pio.bufs (b2n cur) (sampleBytes s n.toNat), sampleTick := some (tickId s) } }

/-! ### Faults (R384, R385) -/

/-- An output's fault bit set and recorded: kind 0 pad, 1 feedback; outputs 24 to 31 are PWM 0 to 7 (log entry 23). -/
def outputFault (o kind : Nat) (driven read : Bool) (s : State) : State :=
  let s := post 0x0A01 o (le 1 kind ++ le 1 (b2n driven) ++ le 1 (b2n read)) 0
    { s with pio := { s.pio with fault := BitVec.ofNat 32 (Nat.lor s.pio.fault.toNat (2 ^ o)) } }
  if o < 24 && bit (doConfig s o) 8 then
    doSafe o { s with pio := { s.pio with dos := vset s.pio.dos o { vget s.pio.dos o DOut.reset with faultSafe := true } } }
  else s

/-- PAD_FAULT: a pad reads `read`, not its driven level, for 20 µs (R384). -/
def padFault (o : Nat) (read : Bool) (s : State) : State :=
  if !pioRuns s then s
  else if o < 24 then
    let d := vget s.pio.dos o DOut.reset
    if d.level = read then s
    else outputFault o 0 d.level read { s with pio := { s.pio with dos := vset s.pio.dos o { d with pad := read } } }
  else outputFault o 0 (!read) read s

/-- FEEDBACK_FAULT: the feedback input differs from the driven level beyond FB_TIME (R384). -/
def feedbackFault (o : Nat) (s : State) : State :=
  let c := doConfig s o
  let d := vget s.pio.dos o DOut.reset
  let fb := diLevel s (bits c 13 9) != bit c 14
  if pioRuns s && bit c 15 && fb != d.level && decide (d.changedUs + c / 65536 * 1000 < monoUs s) then
    outputFault o 1 d.level fb s
  else s

/-- PIO_FAULT bits written with 1 are cleared (R385). An output keeps its safe level until its owner publishes. -/
def clearPioFault (mask : Nat) (s : State) : State :=
  { s with
      pio := { s.pio with
        fault := s.pio.fault &&& ~~~(BitVec.ofNat 32 mask),
        dos := s.pio.dos.mapFinIdx fun o d _ => if bit mask o then { d with faultSafe := false } else d } }

/-- Outputs leave high impedance at the end of BOOT, every counter at 0 (R373, R381, R382). -/
def pioStart (s : State) : State :=
  drivePairOutput
    (outputsSafe true
      { s with
          pio := { Pio.reset with
            hiZ := false, dos := s.pio.dos.map fun _ => { DOut.reset with changedUs := monoUs s },
            pwm := Vector.ofFn fun p : Fin 8 => { PwmOut.reset with period := getP s (0x0A88 + 2 * p.val) } } })

end Sys2Proof.Machine
end

