-- ==== Sys2Proof/Machine/Evr.lean ====
section
/-! DEFINITION. The event recorder: staging and its drain, rings, windows, counter copies, period records, reading
and clearing (R480 to R492). The recorder's posting operation itself is `post` of Machine/Ops.lean. -/

namespace Sys2Proof.Machine

/-! ### Rings (R485 to R487) -/

/-- An entry of the event log. The first SEQUENCE is 1. -/
def appendLog (p : Posting) (e : Evr) : Evr :=
  let n := e.logSeq + 1
  let x : Entry := { seq := n.toNat, metroFull := false, post := p }
  { e with
      logSeq := n, log := (x :: e.log).take 12288,
      logOverwritten := if 12288 ≤ e.log.length then e.logOverwritten + 1 else e.logOverwritten }

/-- An entry of the general section of the audit trail. -/
def appendGeneral (full : Bool) (p : Posting) (e : Evr) : Evr :=
  let x : Entry := { seq := e.generalSeq + 1, metroFull := full, post := p }
  { e with
      generalSeq := x.seq, general := (x :: e.general).take 12288,
      auditOverwritten := if 12288 ≤ e.general.length then e.auditOverwritten + 1 else e.auditOverwritten }

/-- An entry of the metrology section; of the general section with METRO_FULL where that is full (R487). -/
def appendMetro (p : Posting) (e : Evr) : Evr :=
  if e.metro.length < 4096 then
    let x : Entry := { seq := e.metroSeq + 1, metroFull := false, post := p }
    { e with metroSeq := x.seq, metro := x :: e.metro }
  else appendGeneral true p { e with metroOverflow := e.metroOverflow + 1 }

/-- A posting written to the ring of its class (R480). -/
def appendPost (p : Posting) (e : Evr) : Evr :=
  match eventClass p.code with
  | some 1 => appendGeneral false p e
  | some 2 => appendMetro p e
  | _ => appendLog p e

/-- Held postings enter the staging ring, in order, as places come free (R483). -/
def admitHeld : Nat → Evr → Evr
  | 0, e => e
  | n + 1, e =>
    match e.heldPosts with
    | [] => e
    | p :: t => if stagingHasPlace e then admitHeld n (enterPost p { e with heldPosts := t }) else e

/-- STAGING_DRAIN: core 3 moves the oldest staged posting into MRAM (R483). -/
def drainOne (e : Evr) : Evr :=
  match e.staging with
  | [] => e
  | p :: t => admitHeld 1 (appendPost p { e with staging := t })

/-- Every staged posting moved into MRAM. -/
def drainAll : Nat → Evr → Evr
  | 0, e => e
  | n + 1, e => if e.staging.isEmpty then e else drainAll n (drainOne e)

/-! ### Windows and counters (R482 to R484) -/

/-- The EVR_SUPPRESSED entry of a code for a window (R484). -/
def suppressedEntry (s : State) (c n : Nat) (e : Evr) : Evr :=
  let e := bumpCount 0x1001 false e
  let k := countOf e.counts c
  let audit := eventClass c == some 1
  let p : Posting :=
    { code := 0x1001, index := if audit then 0 else c,
      data := (if audit then le 2 c else []) ++ le 4 n ++ le 4 k.limited.toNat, keyId := 0, at_ := tickStamp s,
      mode := s.sys.mode.code, lifecycle := s.sec.lifecycle.code, occurred := (countOf e.counts 0x1001).occurred.toNat,
      summary := true, restored := false }
  if audit then appendGeneral false p e else appendLog p e

/-- EVR_WINDOW_END (R483, R484): the limits written since take effect with the next window (R492). -/
def windowEnd (s : State) : State :=
  let e := s.evr.winLimited.foldl (fun e x => suppressedEntry s x.1 x.2 e) s.evr
  let s := { s with evr := { e with winRecorded := [], winLimited := [] } }
  (List.range 18).foldl (fun s k => applyOne (if k < 2 then 0x1016 + k else 0x101E + k) s) s

/-- The newer intact copy area (R482). -/
def mramCounts (e : Evr) : List CodeCount :=
  match e.copyA.intact, e.copyB.intact with
  | true, true => if e.copyA.stamp < e.copyB.stamp then e.copyB.counts else e.copyA.counts
  | true, false => e.copyA.counts
  | false, true => e.copyB.counts
  | false, false => []

/-- COUNTER_COPY: the counters go to the older copy area (R482). -/
def counterCopy (e : Evr) : Evr :=
  if e.copyB.stamp < e.copyA.stamp then { e with copyB := ⟨e.copyA.stamp + 1, true, e.counts⟩ }
  else { e with copyA := ⟨e.copyB.stamp + 1, true, e.counts⟩ }

/-- The later of two counts in serial-number arithmetic (R482). -/
def laterOf (a b : W32) : W32 := if (b - a).toNat < 2 ^ 31 then b else a

/-- The RATE_LIMITED that an EVR_SUPPRESSED entry carries for a code. -/
def suppressedFor (c : Nat) (x : Entry) : Option W32 :=
  if x.post.code != 0x1001 then none
  else if x.post.index = c then some (BitVec.ofNat 32 (fld x.post.data 4 4))
  else if x.post.index = 0 ∧ fld x.post.data 0 2 = c then some (BitVec.ofNat 32 (fld x.post.data 6 4))
  else none

/-- Counters restored after a loss of the retention SRAM (R482). -/
def restoreCounts (s : State) : State :=
  let e := s.evr
  let base := mramCounts e
  let rings := [e.log, e.general, e.metro]
  let codes := (base.map (·.code) ++ rings.flatten.map (·.post.code)).dedup
  let one (c : Nat) : CodeCount :=
    let k := countOf base c
    let newest := rings.filterMap fun r => r.find? fun x => x.post.code == c
    let o := newest.foldl (fun o x => laterOf o (BitVec.ofNat 32 x.post.occurred)) k.occurred
    let l := match (e.log ++ e.general).findSome? (suppressedFor c) with
      | some v => laterOf k.limited v
      | none => k.limited
    ⟨c, o, o - l, l⟩
  let counts := codes.foldl (fun l c => putCount (one c) l) []
  post 0x1003 0 [] 0 { s with evr := { e with counts := counts } }

/-! ### Period records (R488, R489) -/

/-- REC_CONFIG of a record channel. -/
def recConfig (s : State) (r : Nat) : Nat := getP s (0x1040 + r)

/-- SOURCE of a record channel. -/
def recSource (s : State) (r : Nat) : Nat := recConfig s r % 16

/-- The count that a counter channel follows: occurrences of an event code, or rising edges of an input (R488). -/
def recCount (s : State) (r : Nat) : W32 :=
  let i := recConfig s r / 65536
  if recSource s r = 6 then (countOf s.evr.counts i).occurred
  else if recSource s r = 7 then (vget s.pio.din i Din.reset).rise else 0

/-- A counter channel. -/
def recIsCount (s : State) (r : Nat) : Bool := recSource s r == 6 || recSource s r == 7

/-- A new open period. Its times are PTP seconds (log entry 126). -/
def periodOpen (s : State) (r seq fl : Nat) : Period :=
  { Period.empty with
      seq := BitVec.ofNat 32 seq, flags := fl, start := ptpSec s, met := some (meterSec s), base := recCount s r }

/-- The record of an open period that closes at a PTP second. -/
def periodClosed (s : State) (r fl stop : Nat) (p : Period) : Period :=
  { p with
      flags := Nat.lor p.flags fl, stop := stop,
      samples := if recIsCount s r then p.samples + (recCount s r - p.base) else p.samples }

/-- The period of a channel, hour or day, closes and the next opens. -/
def turnPeriod (r : Nat) (day : Bool) (closeFl openFl stop : Nat) (s : State) : State :=
  let c := vget s.evr.channels r RecChan.reset
  let old := if day then c.day else c.hour
  let rec_ := periodClosed s r closeFl stop old
  let new := periodOpen s r (old.seq.toNat + 1) openFl
  let c := if day then { c with day := new, days := (rec_ :: c.days).take 31 } else { c with hour := new, hours := (rec_ :: c.hours).take 48 }
  { s with evr := { s.evr with channels := vset s.evr.channels r c } }

/-- The periods of one length of every configured channel close and open at this tick. -/
def turnAllPeriods (day : Bool) (closeFl openFl : Nat) (s : State) : State :=
  (List.range 32).foldl (fun s r => if recSource s r = 0 then s else turnPeriod r day closeFl openFl (ptpSec s) s) s

/-- Seconds of a period. -/
def periodSec (day : Bool) : Nat := if day then 86400 else 3600

/-- PERIOD_CLOSE: metering time reaches an hour, and at midnight a day (R489). -/
def periodBoundary (s : State) : State :=
  let m := meterSec s
  let one (day : Bool) (s : State) : State :=
    if m % periodSec day != 0 then s
    else
      (List.range 32).foldl
        (fun s r =>
          let c := vget s.evr.channels r RecChan.reset
          if recSource s r = 0 || (if day then c.day.met else c.hour.met) == some m then s
          else turnPeriod r day 0 0 (ptpSec s) s)
        s
  one true (one false s)

/-- A step of metering time closes periods as it closes intervals, with TIME_STEP (R328, R489). -/
def periodStep (old oldNs : Nat) (s : State) : State :=
  let new := meterSec s
  let back := decide (new * 1000000000 + ptpNs s + 1000000000 ≤ old * 1000000000 + oldNs)
  let one (day : Bool) (s : State) : State :=
    if back || decide (old / periodSec day < new / periodSec day) then turnAllPeriods day 1 1 s else s
  one true (one false s)

/-- A written channel configuration takes effect: its periods close, and new ones carry CONFIG_CHANGED (R489). -/
def recWrite (id v : Nat) (s : State) : State :=
  let r := id % 32
  let t := ptpSec s
  if getP s id = v then s else
  let had := recSource s r != 0
  let s := if had then turnPeriod r true 0 0 t (turnPeriod r false 0 0 t s) else s
  let s := setP id v s
  let c := vget s.evr.channels r RecChan.reset
  let c :=
    { c with
        hour := { periodOpen s r c.hour.seq.toNat 8 with seq := c.hour.seq },
        day := { periodOpen s r c.day.seq.toNat 8 with seq := c.day.seq } }
  { s with evr := { s.evr with channels := vset s.evr.channels r c } }

/-- The counts of inputs so far enter the open periods before a reset clears the inputs' counters (R386, R489). -/
def periodsHold (s : State) : State :=
  let fold (r : Nat) (p : Period) : Period := { p with samples := p.samples + (recCount s r - p.base), base := 0 }
  { s with
      evr := { s.evr with
        channels := s.evr.channels.mapFinIdx fun r c _ =>
          if recSource s r = 7 then { c with hour := fold r c.hour, day := fold r c.day } else c } }

/-- Open periods lost with the retention SRAM; what is numbered and kept in MRAM stays (R489). -/
def periodsLost (s : State) : State :=
  { s with
      evr := { s.evr with
        channels := s.evr.channels.map fun c =>
          { c with hour := { Period.empty with seq := c.hour.seq }, day := { Period.empty with seq := c.day.seq } } } }

/-- Open periods at the end of BOOT: they go on with POWER_UP, or close at the stop time and new ones open (R489). -/
def periodsBoot (stop : Option Nat) (s : State) : State :=
  let m := meterSec s
  let one (s : State) (r : Nat) (day : Bool) : State :=
    let c := vget s.evr.channels r RecChan.reset
    let p := if day then c.day else c.hour
    let put (p : Period) : State :=
      let c := if day then { c with day := p } else { c with hour := p }
      { s with evr := { s.evr with channels := vset s.evr.channels r c } }
    match p.met with
    | none => put (periodOpen s r p.seq.toNat 2)
    | some t => if t / periodSec day = m / periodSec day then put { p with flags := Nat.lor p.flags 2 } else turnPeriod r day 0 2 (stop.getD p.start) s
  (List.range 32).foldl (fun s r => if recSource s r = 0 then s else one (one s r false) r true) s

/-- The bin of a sample: REC_LO and REC_HI in binary32, the sample in binary64 (R488). -/
def recBin (s : State) (r : Nat) (v : Nat) : Nat :=
  let lo := fconv f32 f64 (getP s (0x1060 + r))
  let hi := fconv f32 f64 (getP s (0x1080 + r))
  if flt f64 v lo then 0
  else if fle f64 hi v then 15
  else
    let w := fdiv f64 (fsub f64 hi lo) (fi 14)
    max 1 (((List.range 14).filter fun k => fle f64 (fadd f64 lo (fmul f64 (fi k) w)) v).length)

/-- A sample taken into an open period. -/
def takeInto (bin : Nat) (v now : Nat) (p : Period) : Period :=
  let first := p.samples == 0
  { p with
      samples := p.samples + 1, sum := BitVec.ofNat 64 (fadd f64 p.sum.toNat v),
      min := if first || flt f64 v p.min.toNat then BitVec.ofNat 64 v else p.min,
      minAt := if first || flt f64 v p.min.toNat then now else p.minAt,
      max := if first || flt f64 p.max.toNat v then BitVec.ofNat 64 v else p.max,
      maxAt := if first || flt f64 p.max.toNat v then now else p.maxAt,
      bins := updNth p.bins bin (· + 1) }

/-- A sample of a value channel, or an invalid one (R488). -/
def recSampleValue (r : Nat) (v : Option Nat) (s : State) : State :=
  let c := vget s.evr.channels r RecChan.reset
  let f (p : Period) : Period :=
    match v with
    | some x => takeInto (recBin s r x) x (ptpSec s) p
    | none => { p with invalid := p.invalid + 1 }
  { s with evr := { s.evr with channels := vset s.evr.channels r { c with hour := f c.hour, day := f c.day } } }

/-- The value of a binary64 field, if it is valid. -/
def validAt (ok : Bool) (page : Bytes) (off : Nat) : Option Nat := if ok then some (fld page off 8) else none

/-- The latest value of a value channel of sources 1 to 3 and 5 before this tick, if it is valid (R488). -/
def recValue (s : State) (r : Nat) : Option Nat :=
  let c := recConfig s r
  let i := c / 65536
  let f := c / 256 % 16
  match recSource s r with
  | 1 =>
    let a := vget s.pioBegan.ain i Ain.reset
    if bit (ainStatus s i a) 0 then some a.value.toNat else none
  | 2 =>
    let p := s.mth.page1.start s
    let at_ := 32 + 64 * i
    let ok (k : Nat) := bit (fld p (at_ + 32) 1) k
    (match f with
    | 0 => validAt (ok 2) p at_
    | 1 => validAt (ok 0) p (at_ + 8)
    | 2 => validAt (ok 1) p (at_ + 16)
    | _ => validAt (ok 3) p (at_ + 24))
  | 3 =>
    let p := s.mel.page3.start s
    let at_ := 32 + 128 * i
    let ok (k : Nat) := bit (fld p (at_ + 108) 1) k
    if f ≤ 5 then validAt (ok (f % 3)) p (at_ + 8 * f)
    else if f = 6 then
      (if ok 0 && ok 1 && ok 2 then
        some (fadd f64 (fadd f64 (fld p (at_ + 48) 8) (fld p (at_ + 56) 8)) (fld p (at_ + 64) 8)) else none)
    else validAt (!p.isEmpty) p (at_ + 96)
  | 5 =>
    (s.ctrl.tasks.find? fun x => x.engine == i / 16 && x.task == i % 16).map fun x =>
      fi (if x.landUs = monoUs s then x.runPrev else x.lastRun).toNat
  | _ => none

/-- RECORD_SAMPLE: at a tick that is a whole second, once (R488). -/
def recordSample (s : State) : State :=
  if !pioRuns s || (tickStamp s).ns != 0 || s.evr.sampled == some (monoUs s) then s else
  let s := { s with evr := { s.evr with sampled := some (monoUs s) } }
  (List.range 32).foldl (fun s r =>
    let src := recSource s r
    if src = 1 ∨ src = 2 ∨ src = 3 ∨ src = 5 then recSampleValue r (recValue s r) s else s) s

/-- Source 4 at the publication of a one-second round, with RHO, CRITICAL_DP, MAKEUP_FLOW and EST_LAST_TIME; a result with
another status than OK or DEADLINE_BEST is invalid. -/
def recordRound (good : Bool) (v : Nat → Nat) (s : State) : State :=
  (List.range 32).foldl (fun s r =>
    if recSource s r = 4 then recSampleValue r (if good then some (v (recConfig s r / 256 % 16)) else none) s else s) s

/-! ### Layouts, EVR_READ and EVR_CLEAR (R485, R486, R489 to R491) -/

/-- A log entry, 48 bytes. -/
def logBytes (x : Entry) : Bytes :=
  let p := x.post
  le 4 x.seq ++ le 2 p.code ++ le 2 (p.mode * 256 + b2n p.summary) ++ le 6 p.at_.sec ++ le 2 p.index ++ le 4 p.at_.ns ++
    le 4 p.occurred ++ fit 24 p.data

/-- An audit entry, 64 bytes. -/
def auditBytes (x : Entry) : Bytes :=
  let p := x.post
  let b :=
    le 8 x.seq ++ le 6 p.at_.sec ++ le 2 p.code ++ le 4 p.at_.ns ++ le 2 p.keyId ++ le 1 p.mode ++
      le 1 (4 * b2n p.restored + 2 * b2n x.metroFull + b2n p.summary) ++ fit 28 p.data ++ le 4 p.occurred ++
      le 4 p.lifecycle
  b ++ le 4 (crc32c b)

/-- A period record, 136 bytes. -/
def periodBytes (r : Nat) (day : Bool) (p : Period) : Bytes :=
  le 4 p.seq.toNat ++ le 1 r ++ le 1 (b2n day) ++ le 2 p.flags ++ le 6 p.start ++ zeros 2 ++ le 6 p.stop ++ zeros 2 ++
    le 4 p.samples.toNat ++ le 4 p.invalid.toNat ++ le 8 p.min.toNat ++ le 8 p.max.toNat ++ le 6 p.minAt ++ zeros 2 ++
    le 6 p.maxAt ++ zeros 2 ++ le 8 p.sum.toNat ++ p.bins.flatMap fun b => le 4 b.toNat

/-- Entries of a ring, newest first, read from a sequence number in ascending order: OLDEST, NEWEST, FROM_LOST, and
at most `n` entries. -/
def readRing (ring : List Entry) (from_ n : Nat) : Nat × Nat × Bool × List Entry :=
  let asc := ring.reverse
  let oldest := (asc.head?.map (·.seq)).getD 0
  let newest := (ring.head?.map (·.seq)).getD 0
  (oldest, newest, decide (from_ < oldest), (asc.filter fun x => decide (from_ ≤ x.seq)).take n)

/-- The body of an entry read (R490). -/
def entriesBody (f : Entry → Bytes) (x : Nat × Nat × Bool × List Entry) : Bytes :=
  le 8 x.1 ++ le 8 x.2.1 ++ le 2 x.2.2.2.length ++ le 2 (b2n x.2.2.1) ++ zeros 4 ++ x.2.2.2.flatMap f

/-- A kept period record that EVR_READ names. -/
def periodAt (s : State) (r age len : Nat) : Option Period :=
  let c := vget s.evr.channels r RecChan.reset
  if len = 0 then c.hours[age]? else if len = 1 then c.days[age]? else none

/-- EVR_READ (R490). -/
def effEvrRead (q : Req) (s : State) : CmdRes :=
  let pl := q.payload
  let t := fld pl 0 1
  let i := fld pl 1 1
  let n := fld pl 2 2
  let a := fld pl 4 4
  let from_ := fld pl 8 8
  checked
    [(decide (t ≤ 4), 0), (if t = 3 then decide (i ≤ 31) else i == 0, 1),
      (if t = 0 then decide (1 ≤ n) && decide (n ≤ 84) else if t ≤ 2 then decide (1 ≤ n) && decide (n ≤ 63) else n == 0, 2),
      (if t = 3 then (periodAt s i a 0).isSome || (periodAt s i a 1).isSome
        else if t = 4 then decide (a < 65536) && (eventClass a).isSome else a == 0, 4),
      (if t = 3 then decide (from_ ≤ 1) && (periodAt s i a (from_ % 256)).isSome else if t = 4 then from_ == 0 else true, 8)]
    (match t with
    | 0 => .ok (entriesBody logBytes (readRing s.evr.log (from_ % 2 ^ 32) n)) s
    | 1 => .ok (entriesBody auditBytes (readRing s.evr.metro from_ n)) s
    | 2 => .ok (entriesBody auditBytes (readRing s.evr.general from_ n)) s
    | 3 => .ok ((periodAt s i a from_).elim [] (periodBytes i (from_ == 1))) s
    | _ =>
      let k := countOf s.evr.counts a
      .ok (le 4 k.occurred.toNat ++ le 4 k.recorded.toNat ++ le 4 k.limited.toNat ++ le 2 ((limitOf s a).getD 0xFFFF) ++
        le 1 ((eventClass a).getD 0) ++ [0]) s)

/-- The period records discarded and every channel opened anew with CLEARED (R491). -/
def clearPeriods (s : State) : State :=
  { s with
      evr := { s.evr with
        channels := s.evr.channels.mapFinIdx fun r c _ =>
          { hour := periodOpen s r (c.hour.seq.toNat + 1) 4, day := periodOpen s r (c.day.seq.toNat + 1) 4,
            hours := [], days := [] } } }

/-- Period records discarded by a clear: the kept ones, and the open ones of configured channels. -/
def periodCount (s : State) : Nat :=
  ((List.range 32).map fun r =>
    let c := vget s.evr.channels r RecChan.reset
    c.hours.length + c.days.length + (if recSource s r = 0 then 0 else 2)).sum

/-- EVR_CLEAR (R491). -/
def effEvrClear (q : Req) (s : State) : CmdRes :=
  let t := fld q.payload 0 1
  checked [(t != 0 && decide (t ≤ 3), 0), (allZero (slice q.payload 1 3), 1)]
    (let log := bit t 0
    let first := if log then (s.evr.log.getLast?.map (·.seq)).getD 0 else 0
    let last := if log then (s.evr.log.head?.map (·.seq)).getD 0 else 0
    let n := (if log then s.evr.log.length else 0) + (if bit t 1 then periodCount s else 0)
    let s := if log then { s with evr := { s.evr with log := [] } } else s
    let s := if bit t 1 then clearPeriods s else s
    .ok (le 4 first ++ le 4 last ++ le 4 n ++ zeros 4)
      (post 0x1002 0 (le 1 t ++ le 4 first ++ le 4 last ++ le 4 n) q.auth.keyId s))

/-! ### The recorder's own rows (R482 to R484) -/

/-- Core 3 writes the records partition: not in BACKUP, nor in HOLDUP, whose timeline does not list it (R549). -/
def evrRuns (s : State) : Bool := !s.sys.inReset && s.sys.mode != .backup && s.sys.mode != .holdup

/-- STAGING_DRAIN (R483). -/
def stagingDrain (s : State) : State := if evrRuns s then { s with evr := drainOne s.evr } else s

/-- EVR_WINDOW_END; windows are counted from the end of BOOT (R483, R484). -/
def evrWindowEnd (s : State) : State := if evrRuns s && s.sys.mode != .boot then windowEnd s else s

/-- COUNTER_COPY (R482). -/
def counterCopyTick (s : State) : State := if evrRuns s then { s with evr := counterCopy s.evr } else s

end Sys2Proof.Machine
end

