-- ==== Sys2Proof/Machine/Owners.lean ====
section
/-! DEFINITION. Tasks of the running block image, the owning task of an output or axis, and when a
publication drives it (R257, R258). -/

namespace Sys2Proof.Machine

/-- The entry of a task in the running image. -/
def taskDef (s : State) (e t : Nat) : Option BTask :=
  match s.ctrl.running with
  | some b => b.tasks.find? fun x => x.engine == e && x.task == t
  | none => none

/-- What CTRL keeps of a task. -/
def taskSt (s : State) (e t : Nat) : Option TaskSt := s.ctrl.tasks.find? fun x => x.engine == e && x.task == t

/-- A task's record updated. -/
def updTask (e t : Nat) (f : TaskSt → TaskSt) (s : State) : State :=
  { s with ctrl := { s.ctrl with tasks := s.ctrl.tasks.map fun x => if x.engine = e ∧ x.task = t then f x else x } }

/-- The owning task of an output or axis in an image (R257): 1 digital output, 2 PWM output, 3 axis. -/
def ownerIn (b : BImg) (dest idx : Nat) : Option (Nat × Nat) :=
  (b.outs.find? fun x => x.dest == dest && x.index == idx).map fun x => (x.engine, x.task)

/-- The owning task in the running image. -/
def ownerOf (s : State) (dest idx : Nat) : Option (Nat × Nat) :=
  match s.ctrl.running with
  | some b => ownerIn b dest idx
  | none => none

/-- A task neither stopped, aborted nor faulted (R262). -/
def taskGoes (s : State) (e t : Nat) : Bool := (taskSt s e t).any fun x => x.mode == .waiting

/-- Control tasks execute in the current mode (R252). -/
def tasksExecute (s : State) : Bool :=
  !s.sys.inReset && !s.ctrl.lockstepStop &&
    (match s.sys.mode with
    | .commission | .run | .reduced | .shadow | .fallback | .service | .lockdown => true
    | .backup | .boot | .safe | .holdup | .fault => false)

/-- The device may drive outputs as far as pairing goes (R65). -/
def roleHeld (s : State) : Bool := getP s 0x0120 != 1 || s.pair.active

/-- A task has TEST_ENABLE. -/
def testEnable (s : State) (e t : Nat) : Bool := (taskDef s e t).any fun d => bit d.flags 0

/-- A publication of a task drives its outputs (R258). -/
def drives (s : State) (e t : Nat) : Bool :=
  taskGoes s e t && roleHeld s && !s.ctrl.lockstepStop &&
    (match s.sys.mode with
    | .run | .reduced | .fallback | .service | .lockdown => true
    | .commission => testEnable s e t
    | .backup | .boot | .shadow | .safe | .holdup | .fault => false)

end Sys2Proof.Machine
end

