-- ==== Sys2Proof/Machine/Elementary.lean ====
section
/-! DEFINITION. The logarithm, the power and the exponential that the supervisor cores evaluate (R109, R111, R115, R134): exact
values in fixed point with 160 fraction bits. The manual states the functions and no rounding: the value taken is a free one within
one unit in the last place of the exact value, and the nearest value where the free one is farther off (log entry 33). -/

namespace Sys2Proof.Machine

/-- The odd series z + z³/3 + z⁵/5 + … of artanh, `n` terms from the term with divisor `d`; `p` is the power of z. -/
def fxArtanhFrom (z2 : Int) : Nat → Nat → Int → Int
  | 0, _, _ => 0
  | n + 1, d, p => p / (d : Int) + fxArtanhFrom z2 n (d + 2) (fxMul p z2)

/-- artanh of a magnitude up to 1/3. -/
def fxArtanh (z : Int) : Int := fxArtanhFrom (fxMul z z) 60 1 z

/-- ln 2 and ln 10 in fixed point. -/
def fxLn2 : Int := 2 * fxArtanh (fxOne / 3)
def fxLn10 : Int := 3 * fxLn2 + 2 * fxArtanh (fxOne / 9)

/-- The natural logarithm of a positive finite binary64, in fixed point. -/
def fxLn (a : Nat) : Option Int :=
  match Fp.unpack f64 a with
  | .fin false m e =>
    if m = 0 then none else
    let l := bitLen m
    let x : Int := (m : Int) * 2 ^ 160 / 2 ^ (l - 1)
    some ((e + (l : Int) - 1) * fxLn2 + 2 * fxArtanh ((x - fxOne) * fxOne / (x + fxOne)))
  | _ => none

/-- The Taylor series of exp below ln 2, by Horner's scheme: `n` terms from divisor `d`. -/
def fxExpFrom (r : Int) : Nat → Nat → Int
  | 0, _ => fxOne
  | n + 1, d => fxOne + fxMul r (fxExpFrom r n (d + 1)) / (d : Int)

/-- exp of a fixed-point value, rounded to binary64. -/
def fxExp (y : Int) : Nat :=
  let k := y.fdiv fxLn2
  Fp.ofScaled f64 (fxExpFrom (y - k * fxLn2) 45 1) (k - 160)

/-- A free value within one unit in the last place of a rounded exact one; else the exact one. -/
def withinUlp (free : W64) (exact : Option Nat) : Nat :=
  match exact with
  | some r => if free.toNat + 1 = r ∨ free.toNat = r ∨ free.toNat = r + 1 then free.toNat else r
  | none => free.toNat

/-- The decimal logarithm of R109. -/
def dlog10 (a : Nat) : Nat :=
  withinUlp (Config.flog10 (BitVec.ofNat 64 a)) ((fxLn a).map fun x => Fp.ofScaled f64 (x * fxOne / fxLn10) (-160))

/-- The power of R109 and R111. -/
def dpow (a b : Nat) : Nat :=
  withinUlp (Config.fpow (BitVec.ofNat 64 a) (BitVec.ofNat 64 b))
    (match fxLn a, fToScaledNear f64 b 160 with
    | some x, some y => some (fxExp (fxMul x y))
    | _, _ => none)

/-- The exponential of R115 and R134. -/
def dexp (a : Nat) : Nat := withinUlp (Config.fexp (BitVec.ofNat 64 a)) ((fToScaledNear f64 a 160).map fxExp)

end Sys2Proof.Machine
end

