-- ==== Sys2Proof/Machine/Trig.lean ====
section
/-! DEFINITION. The angles of a valve axis (R390, R398): sine and cosine of the electrical angle and the arctangent of the induced
voltage, in fixed point with 160 fraction bits. The manual states the functions and no rounding (log entry 122). -/

namespace Sys2Proof.Machine

/-- arctan of a magnitude up to 1/2, by its series. -/
def fxAtanSmall (z : Int) : Int := fxArtanhFrom (-fxMul z z) 80 1 z

/-- arctan of a value from 0 to 1. -/
def fxAtan (t : Int) : Int :=
  if 2 * t ≤ fxOne then fxAtanSmall t
  else fxAtanSmall (fxOne / 2) + fxAtanSmall ((2 * t - fxOne) * fxOne / (2 * fxOne + t))

/-- π. -/
def fxPi : Int := 4 * (fxAtanSmall (fxOne / 2) + fxAtanSmall (fxOne / 3))

/-- The angle of a vector in radians, above −π and up to π; 0 for the zero vector. -/
def fxAtan2 (y x : Int) : Int :=
  let ay : Int := y.natAbs
  let ax : Int := x.natAbs
  let base := if ax = 0 ∧ ay = 0 then 0 else if ay ≤ ax then fxAtan (ay * fxOne / ax) else fxPi / 2 - fxAtan (ax * fxOne / ay)
  let half := if x < 0 then fxPi - base else base
  if y < 0 then -half else half

/-- Degrees in units of 2^-32 of an angle in radians, to the nearest. -/
def fxDegrees (r : Int) : Int := roundDiv (r * (180 * 2 ^ 32)) fxPi.natAbs

/-- The alternating series of sine (`d` 2) and cosine (`d` 1) in the square of the angle, `n` terms, by Horner's scheme. -/
def fxCircle (a2 : Int) : Nat → Nat → Int
  | 0, _ => fxOne
  | n + 1, d => fxOne - fxMul a2 (fxCircle a2 n (d + 2)) / ((d * (d + 1) : Nat) : Int)

/-- Sine and cosine, in units of 2^-40, of an angle of `j` 1,024ths of a turn in the first quadrant. -/
def quadrant (j : Nat) : Int × Int :=
  let a := 2 * fxPi * j / 1024
  let a2 := fxMul a a
  (roundDiv (fxMul a (fxCircle a2 30 2)) (2 ^ 120), roundDiv (fxCircle a2 30 1) (2 ^ 120))

/-- Sine and cosine, in units of 2^-40, of `k` 1,024ths of a turn. -/
def sinCos (k : Nat) : Int × Int :=
  let (s, c) := quadrant (k % 256)
  match k / 256 % 4 with
  | 0 => (s, c)
  | 1 => (c, -s)
  | 2 => (-s, -c)
  | _ => (-c, s)

/-- An angle in units of 2^-32 degree taken above −180° and up to 180°. -/
def wrapDegrees (a : Int) : Int :=
  let b := a % (360 * 2 ^ 32)
  if 180 * 2 ^ 32 < b then b - 360 * 2 ^ 32 else b

end Sys2Proof.Machine
end

