-- ==== Sys2Proof/Machine/Vax.lean ====
section
/-! DEFINITION. Valve actuator axes (R387 to R413): goals, the conditions a motion profile meets, phase currents, the load angle,
homing, stalls, standstill, safe state and the axis commands. -/

namespace Sys2Proof.Machine

/-- An axis of the state. -/
def axisOf (s : State) (a : Nat) : Axis := vget s.vax.axes a Axis.reset

/-- An axis replaced. -/
def setAxis (a : Nat) (x : Axis) (s : State) : State := { s with vax := { s.vax with axes := vset s.vax.axes a x } }

/-- Parameter j of axis a in effect (R413). -/
def vaxP (s : State) (a j : Nat) : Nat := getP s (0x0B10 + 16 * a + j)

/-- A signed parameter. -/
def vaxI (s : State) (a j : Nat) : Int := sgn 32 (vaxP s a j)

/-- ENABLE. -/
def axisEnabled (s : State) (a : Nat) : Bool := bit (vaxP s a 0) 12

/-- One microstep in the units of `frac`. -/
def stepUnit : Int := 2 ^ 32 * 25000

/-! ### Status (R404, R408) -/

/-- OPENING in binary32 (R404). -/
def opening (s : State) (a : Nat) (x : Axis) : Nat :=
  let c := vaxI s a 8
  let o := vaxI s a 9
  let n := (x.pos - c) * (if o < c then -1 else 1)
  let d := (o - c).natAbs
  if n ≤ 0 then 0 else if (d : Int) ≤ n then 0x3F800000 else Fp.ofRatio f32 n d

/-- The STATE code (R408). -/
def axisStateCode (s : State) (a : Nat) (x : Axis) : Nat :=
  if !axisEnabled s a then 4
  else
    match x.state with
    | .standstill => 0
    | .moving => 1
    | .stopping => 2
    | .homing => 3

/-- The layout of *Axis status record*, 64 bytes. -/
def axisStatus (s : State) (a : Nat) (x : Axis) : Bytes :=
  let t := tickStamp s
  let fl := 512 * b2n x.cmdInvalid + 256 * b2n x.unverified + 128 * b2n x.estValid + 64 * b2n x.host.isSome +
    32 * b2n x.safe + 16 * b2n x.limit + 8 * b2n x.atTarget + 4 * b2n x.driveFault + 2 * b2n x.stallLatched + b2n x.homed
  le 6 t.sec ++ le 2 fl ++ le 4 t.ns ++ le 1 (axisStateCode s a x) ++
    le 1 (if x.state = .standstill then x.still else 0xFF) ++ le 1 x.homeDone ++ le 1 x.homeResult ++
    le 4 (unsgn 32 x.pos) ++ le 4 (unsgn 32 x.target) ++ le 4 (unsgn 32 (x.vel / 2 ^ 32)) ++ le 4 (unsgn 32 x.lost) ++
    le 4 x.fwd.toNat ++ le 4 x.rev.toNat ++ le 4 x.stalls.toNat ++ le 4 (if x.estValid then x.gamma.toNat else Fp.qnan f32) ++
    le 4 x.iA.toNat ++ le 4 x.iB.toNat ++ le 4 (opening s a x) ++ le 1 x.ackDone ++ le 1 x.faultCause ++ zeros 2

/-- The record of the last period that ended before this tick: a period ends 40 µs after it begins (R388, R408). -/
def statusRead (s : State) (x : Axis) : Bytes :=
  if x.periodUs.any fun t => decide (monoUs s < t + 40) then x.statusPrev else x.status

/-- The body of VAX_MOVE and VAX_HOME (R411). -/
def axisBody (s : State) (a outcome : Nat) (x : Axis) : Bytes := le 1 outcome ++ zeros 7 ++ axisStatus s a x

/-- The host command on an axis completes with an outcome (R411). -/
def hostDone (a outcome : Nat) (s : State) : State :=
  let x := axisOf s a
  if x.host.isNone then s else
  let x := { x with host := none }
  let s := setAxis a x s
  completeAll (fun w => w == .axis a) stOK false (axisBody s a outcome x) s

/-! ### Concurrent events of a period (R407) -/

/-- The number of the profile period that this tick lies in (R388). -/
def periodNo (s : State) : Nat := monoUs s / 40

/-- An event of a rank happens in this period: 1 HOLDUP or FAULT, 2 another safe-state condition, 3 drive fault, 4 stall, 5 takeover. -/
def ranked (s : State) (r : Nat) (x : Axis) : Axis :=
  { x with event := some (periodNo s, match x.event with
      | some (p, q) => if p = periodNo s then min q r else r
      | none => r) }

/-- An event of a higher rank has happened in this period. -/
def outranked (s : State) (r : Nat) (x : Axis) : Bool := x.event.any fun e => e.1 == periodNo s && decide (e.2 < r)

/-! ### Goals (R391 to R393) -/

/-- A field with 0 or above its limit taken as the limit. -/
def limited (v lim : Nat) : Nat := if v = 0 ∨ lim < v then lim else v

/-- The soft limits. -/
def softLo (s : State) (a : Nat) : Int := min (vaxI s a 8) (vaxI s a 9)
def softHi (s : State) (a : Nat) : Int := max (vaxI s a 8) (vaxI s a 9)

/-- The position a goal asks for before clamping (R391). -/
def goalPosition (s : State) (a : Nat) (g : Goal) : Int :=
  if g.mode = 3 then
    let t := max 0 (min g.target 0x40000000)
    vaxI s a 8 + roundDiv (t * (vaxI s a 9 - vaxI s a 8)) (2 ^ 30)
  else g.target

/-- The axis leaves OFF or SHORTED for motion: the first microstep comes 2 ms later (R395). -/
def wake (s : State) (x : Axis) : Axis :=
  if x.state = .standstill ∧ x.still ≤ 1 then { x with readyUs := monoUs s + 2000 } else x

/-- A motion ends: the axis holds I_RUN for the standstill delay, or its safe standstill at once (R394 to R396). -/
def comeToRest (s : State) (a : Nat) (x : Axis) : Axis :=
  { x with
      vel := 0, acc := 0, state := .standstill, restUs := monoUs s,
      still := if x.safe then bits (vaxP s a 0) 15 14 else 3 }

/-- A goal takes effect: the profile is replanned from the current state (R392). -/
def startGoal (s : State) (a : Nat) (g : Goal) (x : Axis) : Axis :=
  let x := { x with goal := g, limit := false, atTarget := false, safe := false }
  if g.mode = 1 ∨ g.mode = 3 then
    let p := goalPosition s a g
    let t := max (softLo s a) (min p (softHi s a))
    let x := { x with target := t, limit := t != p }
    if x.pos = t ∧ x.frac = 0 ∧ x.vel = 0 then
      (if x.state = .standstill then { x with atTarget := true } else { comeToRest s a x with atTarget := true })
    else { wake s x with state := .moving }
  else if g.mode = 2 then { wake s x with target := g.target, state := .moving }
  else if x.vel = 0 then (if x.state = .standstill then x else comeToRest s a x)
  else { x with state := .moving }

/-- A goal offered to an axis: it waits while a homing runs, and is ignored while a stall latch or a drive fault
stands or the axis is disabled (R392, R399, R407). -/
def offerGoal (s : State) (a : Nat) (g : Goal) (x : Axis) : Axis :=
  if x.stallLatched || x.driveFault || !axisEnabled s a then x
  else if x.home.isSome then { x with nextGoal := some g }
  else if g = x.goal ∧ !x.safe then x
  else startGoal s a g x

/-! ### Homing (R405, R406) -/

/-- METHOD, HOME_DIR and HOME_SPEED. -/
def homeMethod (s : State) (a : Nat) : Nat := bits (vaxP s a 12) 31 30
def homeUp (s : State) (a : Nat) : Bool := bit (vaxP s a 12) 29
def homeSpeed (s : State) (a : Nat) : Nat := vaxP s a 12 % 65536 * 16
def homeSwitch (s : State) (a : Nat) : Bool := diLevel s (bits (vaxP s a 12) 28 24)
def homeIndex (s : State) (a : Nat) : Bool := diLevel s (bits (vaxP s a 12) 23 19)

/-- A homing starts, or ends at once with HOME_RESULT 4 if its speed is below the estimator threshold (R405). -/
def startHoming (s : State) (a req : Nat) (x : Axis) : Axis :=
  let x := { x with stallLatched := false }
  if x.driveFault || !axisEnabled s a then x
  else if homeMethod s a = 0 ∧ homeSpeed s a < max (4 * vaxP s a 7) 4096 then { x with homeDone := req, homeResult := 4 }
  else
    let leg : HomeLeg := if homeMethod s a ≠ 0 ∧ homeSwitch s a then .back else .out
    { wake s x with
        home := some ⟨req, 0, leg⟩, state := .homing, atTarget := false, limit := false, safe := false,
        nextGoal := some (x.nextGoal.getD x.goal), indexLevel := homeIndex s a }

/-- A homing ends with a result (R406). Without success the axis stops at A_STOP; the last applied goal then takes
effect. -/
def endHoming (a result : Nat) (s : State) : State :=
  let x := axisOf s a
  match x.home with
  | none => s
  | some h =>
    setAxis a
      { x with
          home := none, homeDone := h.req, homeResult := result, state := .stopping,
          homed := if result = 2 then false else x.homed }
      s

/-- The successful end of a homing: the one assignment to POSITION (R401, R406). -/
def homed (a : Nat) (s : State) : State :=
  let x := axisOf s a
  match x.home with
  | none => s
  | some h =>
    let p := vaxI s a 13
    let s := setAxis a
      { x with
          home := none, homeDone := h.req, homeResult := 1, pos := p, frac := 0, homed := true, lost := 0,
          unverified := false, state := .stopping }
      { s with vax := { s.vax with homings := s.vax.homings + 1 } }
    post 0x0B02 a (le 4 (unsgn 32 x.pos) ++ le 4 (unsgn 32 p)) 0 s

/-- After a homing has ended: the goal that waits takes effect, unless a host homing left none (R406, R411). -/
def afterHoming (a : Nat) (s : State) : State :=
  let x := axisOf s a
  let s :=
    match x.nextGoal with
    | some g =>
      if x.safe || g.mode == 0 then setAxis a { x with nextGoal := none } s
      else setAxis a (startGoal s a g { x with nextGoal := none, goal := g }) s
    | none => s
  let s := if (axisOf s a).vel = 0 ∧ (axisOf s a).state = .stopping then setAxis a (comeToRest s a (axisOf s a)) s else s
  hostDone a 0 s

/-! ### Safe state (R396) -/

/-- The bridges of an axis are held off: by a drive fault until its acknowledgement (R407), or by the watchdog of the motion
sequencer (R533). -/
def heldOff (s : State) (x : Axis) : Bool := x.driveFault || s.vax.enLow

/-- Safe state of an axis. `now`: entry to HOLDUP or FAULT, where issue stops in the period of entry. An axis whose bridges are held
off stays OFF. -/
def axisSafe (now : Bool) (a : Nat) (s : State) : State :=
  let x := axisOf s a
  let x : Axis := if x.home.isSome then { x with home := none, homeDone := (x.home.map (·.req)).getD 0, homeResult := 3 } else x
  let x : Axis := ranked s (if now then 1 else 2) { x with safe := true, record := none, nextGoal := none, goal := Goal.stop, atTarget := false }
  let m := bits (vaxP s a 0) 15 14
  let x : Axis :=
    if now then
      { x with
        vel := 0, acc := 0, frac := 0, state := .standstill, restUs := monoUs s,
        still := if heldOff s x then 0 else if m = 2 then 1 else m }
    else if x.vel = 0 then { x with acc := 0, state := .standstill, still := if heldOff s x then 0 else m }
    else { x with state := .stopping }
  hostDone a 3 (setAxis a x s)

/-- Every axis to safe state. -/
def axesSafe (now : Bool) (s : State) : State := (List.range 8).foldl (fun s a => axisSafe now a s) s

/-! ### Applying a record (R391, R392) -/

/-- The goal of a record or of VAX_MOVE. -/
def goalOf (mode : Nat) (f : Bytes) (current : Nat) : Goal :=
  { mode := mode, target := sgn 32 (fld f 0 4), vmax := fld f 4 4, amax := fld f 8 4, jmax := fld f 12 4, current := current }

/-- The owning task takes over from a host move: it is stopped at A_STOP, and the record follows in the period after rest
(R41, R411). -/
def takeOver (a : Nat) (s : State) : State :=
  let x := ranked s 5 (axisOf s a)
  let s := setAxis a (if x.vel = 0 then comeToRest s a { x with home := none } else { x with home := none, state := .stopping }) s
  hostDone a 2 s

/-- A published record applied at a profile period. -/
def applyRecord (a : Nat) (r : Bytes) (s : State) : State :=
  let x := axisOf s a
  let mode := fld r 0 1
  if 3 < mode then setAxis a { x with cmdInvalid := true, record := none } s
  else if x.host.isSome then takeOver a s
  else if x.state = .stopping ∧ !x.safe ∧ x.vel ≠ 0 then s
  else
    let hr := fld r 1 1
    let ar := fld r 2 1
    let g := goalOf mode (r.drop 4) (fld r 20 2)
    let x := { x with record := none, cmdInvalid := false }
    if !x.gained then
      setAxis a (offerGoal s a g { x with gained := true, homeReq := hr, ackDone := ar }) s
    else
      let x := if ar = x.ackDone then x
        else { x with ackDone := ar, stallLatched := false, driveFault := false, faultCause := 0 }
      let x := if hr = x.homeReq then x else startHoming s a hr { x with homeReq := hr }
      setAxis a (offerGoal s a g x) s

/-! ### The profile period (R388 to R394) -/

/-- What bounds the profile of an axis now: speed, acceleration, jerk (none in stops at A_STOP), in microsteps. -/
def profileBounds (s : State) (a : Nat) (x : Axis) : Nat × Nat × Option Nat :=
  match x.state with
  | .stopping => (x.vel.natAbs / 2 ^ 32 + 1, vaxP s a 6, none)
  | .homing =>
    (match x.home with
    | some h =>
      (match h.leg with
      | .out => (homeSpeed s a, vaxP s a 4, some (vaxP s a 5))
      | .stop => (x.vel.natAbs / 2 ^ 32 + 1, vaxP s a 6, none)
      | .back | .index => (homeSpeed s a / 8, vaxP s a 4, some (vaxP s a 5)))
    | none => (0, 0, none))
  | .standstill | .moving =>
    (limited x.goal.vmax (vaxP s a 3), limited x.goal.amax (vaxP s a 4), some (limited x.goal.jmax (vaxP s a 5)))

/-- Direction in which the axis may move from rest: −1, 0 or 1 (R393, R405). -/
def direction (s : State) (a : Nat) (x : Axis) : Int :=
  match x.state with
  | .standstill | .stopping => 0
  | .homing =>
    let up : Int := if homeUp s a then 1 else -1
    (match x.home with
    | some h =>
      (match h.leg with
      | .out => up
      | .stop => 0
      | .back | .index => -up)
    | none => 0)
  | .moving =>
    if x.goal.mode = 2 then (if x.target < 0 then -1 else if 0 < x.target then 1 else 0)
    else if x.goal.mode = 0 then 0
    else
      let d := x.target * stepUnit - (x.pos * stepUnit + x.frac)
      if d < 0 then -1 else if 0 < d then 1 else 0

/-- The positions the axis must not pass: its target, or a soft limit in speed mode (R393). -/
def barrier (s : State) (a : Nat) (x : Axis) (v : Int) : Option Int :=
  match x.state with
  | .moving =>
    if x.goal.mode = 1 ∨ x.goal.mode = 3 then some x.target
    else if x.goal.mode = 2 then some (if v < 0 then softLo s a else softHi s a)
    else none
  | .standstill | .stopping | .homing => none

/-- Speeds at or below V_START start and stop without a ramp (R393). -/
def slow (s : State) (a : Nat) (v : Int) : Bool := decide (v.natAbs ≤ vaxP s a 7 * 2 ^ 32)

/-- The new speed meets *Motion profile conditions* in this period (R393); a stop takes A_STOP (R396, R405). -/
def conforms (s : State) (a : Nat) (x : Axis) (v : Int) : Bool :=
  let (vm, am, jm) := profileBounds s a x
  let dv := v - x.vel
  let ramp := decide (dv.natAbs * 25000 ≤ am * 2 ^ 32) &&
    (jm.all fun j => decide ((dv - x.acc).natAbs * 25000 * 25000 ≤ j * 2 ^ 32))
  let dir := direction s a x
  let way := if x.vel = 0 then decide (0 ≤ v * dir) && (dir != 0 || v == 0) else decide (0 ≤ v * x.vel)
  let stops := match x.state, x.home.map (·.leg) with
    | .stopping, _ | .homing, some .stop => decide (v.natAbs + vaxP s a 6 * 2 ^ 32 / 25000 ≤ x.vel.natAbs) || v == 0
    | _, _ => true
  let held := !(x.state == .moving && x.goal.mode == 2 && x.vel == x.target * 2 ^ 32) || v == x.vel
  let away := match barrier s a x v with
    | some t =>
      let p0 := x.pos * stepUnit + x.frac
      let p1 := p0 + v
      let pass := (decide (p0 ≤ t * stepUnit) && decide (t * stepUnit < p1)) || (decide (t * stepUnit ≤ p0) && decide (p1 < t * stepUnit))
      !pass || slow s a v || decide (v * (t * stepUnit - p0) < 0)
    | none => true
  (x.state != .standstill || v == 0) && decide (v.natAbs ≤ vm * 2 ^ 32) &&
    (ramp || (slow s a v && slow s a x.vel)) && way && stops && held && away && (decide (x.readyUs ≤ monoUs s) || v == 0)

/-- The microsteps of a period issued at a new speed: POSITION, the counts, and an exact stop at a barrier reached at
start speed (R393, R394, R401). -/
def issue (s : State) (a : Nat) (v : Int) (x : Axis) : Axis :=
  let p0 := x.pos * stepUnit + x.frac
  let stopAt : Option Int := match barrier s a x v with
    | some t =>
      let p1 := p0 + v
      let T := t * stepUnit
      if slow s a v && v != 0 && ((decide (p0 ≤ T) && decide (T ≤ p1) && decide (0 < v)) ||
        (decide (T ≤ p0) && decide (p1 ≤ T) && decide (v < 0))) then some t else none
    | none => none
  let n : Int := match stopAt with
    | some t => t - x.pos
    | none => (x.frac + v).tdiv stepUnit
  let fr : Int := if stopAt.isSome then 0 else (x.frac + v).tmod stepUnit
  let v' : Int := if stopAt.isSome then 0 else v
  { x with
      pos := x.pos + n, frac := fr, vel := v', acc := v' - x.vel,
      fwd := if 0 < n then x.fwd + BitVec.ofNat 32 n.natAbs else x.fwd,
      rev := if n < 0 then x.rev + BitVec.ofNat 32 n.natAbs else x.rev,
      home := x.home.map fun h => { h with issued := h.issued + n.natAbs },
      limit := x.limit || (stopAt.isSome && x.goal.mode == 2) }

/-! ### Phase currents (R389, R390) -/

/-- The electrical angle of a position in 1,024ths of a cycle. -/
def electricalAngle (s : State) (a : Nat) (x : Axis) : Nat :=
  let k := (x.pos % 1024).toNat
  if bit (vaxP s a 0) 13 then (1024 - k) % 1024 else k

/-- EN is high: the axis is enabled, not held off, and not OFF (R387, R395, R407, R533). -/
def enHigh (s : State) (a : Nat) (x : Axis) : Bool :=
  axisEnabled s a && !heldOff s x && !(x.state == .standstill && x.still == 0)

/-- The phase currents are regulated: EN is high and the windings are not shorted. -/
def regulated (s : State) (a : Nat) (x : Axis) : Bool := enHigh s a x && !(x.state == .standstill && x.still == 1)

/-- I by the state of the axis, in µA (R390, R395). A CURRENT above 1,000 is taken as 1,000 (log entry 122). -/
def setCurrent (s : State) (a : Nat) (x : Axis) : Nat :=
  let run := vaxP s a 1 * 1000
  if !regulated s a x then 0
  else
    match x.state with
    | .standstill => if x.still = 2 then vaxP s a 2 * 1000 else run
    | .homing => if monoUs s < x.readyUs then run else vaxP s a 1 * 125 * (bits (vaxP s a 12) 18 16 + 1)
    | .moving | .stopping => if monoUs s < x.readyUs then run else vaxP s a 1 * limited x.goal.current 1000

/-- The mean of five ADC codes in units of 1/10,240 of the value at 1.25 V from mid-scale (R388). -/
def codeMean (v : Vector (BitVec 12) 5) : Int := v.toList.foldl (fun n c => n + ((c.toNat : Int) - 2048)) 0

/-- A period mean of a phase current in units of 2^-40 µA. -/
def meanCurrent (s : State) (a : Nat) (v : Vector (BitVec 12) 5) : Int := codeMean v * (vaxP s a 15 / 65536 : Nat) * 200 * 2 ^ 29

/-- A period mean of a phase current in binary32 A. -/
def currentF32 (s : State) (a : Nat) (v : Vector (BitVec 12) 5) : Nat :=
  Fp.ofRatio f32 (codeMean v * (vaxP s a 15 / 65536 : Nat)) (10240 * 1000)

/-- A period mean of a phase voltage in units of 2^-40 nV. -/
def meanVoltage (s : State) (a : Nat) (v : Vector (BitVec 12) 5) : Int := codeMean v * (vaxP s a 15 % 65536 : Nat) * 2000000 * 2 ^ 29

/-- A gain of the regulator of an axis, derived from R_PHASE, L_PHASE and the bridge supply in a way that the manual does not give:
a free value (log entry 122). -/
def gain (s : State) (a supply kind : Nat) : Nat := Config.openValue kind ((vaxP s a 10 * 2 ^ 32 + vaxP s a 11) * 2 ^ 32 + supply)

/-- One period of a regulator: its integrator, and the high time of PWM_x1 (R389, R390). -/
def regulate (kp ki : Nat) (err sum : Int) : Int × Nat :=
  let sum := sum + ki * err
  let d := max (-(2 ^ 64)) (min (2 ^ 64) (kp * err + sum))
  (sum, (roundDiv ((2 ^ 64 + d) * 10000) (2 ^ 65)).toNat)

/-- The set currents of a period, the regulators' answer to its mean currents, and the count of R407 for an open phase. -/
def regulatePeriod (s : State) (a : Nat) (m : AxisPeriod) (x : Axis) : Axis :=
  let (sn, cs) := sinCos (electricalAngle s a x)
  let i : Int := setCurrent s a x
  let ma := meanCurrent s a m.iA
  let mb := meanCurrent s a m.iB
  let x :=
    { x with
        setA := i * cs, setB := i * sn, meanA := ma, meanB := mb, iA := BitVec.ofNat 32 (currentF32 s a m.iA),
        iB := BitVec.ofNat 32 (currentF32 s a m.iB),
        openRun := if 0 < i ∧ 4 * (ma * ma + mb * mb) < i * i * 2 ^ 80 then x.openRun + 1 else 0 }
  if regulated s a x then
    let kp := gain s a m.supply 71
    let ki := gain s a m.supply 72
    let ra := regulate kp ki (x.setA - ma) x.sumA
    let rb := regulate kp ki (x.setB - mb) x.sumB
    { x with sumA := ra.1, sumB := rb.1, highA := ra.2, highB := rb.2 }
  else { x with sumA := 0, sumB := 0, highA := 0, highB := 0 }

/-- The levels of the balls of an axis: EN, and the high times of PWM_A1, A2, B1 and B2 in units of 4 ns (R387, R389, R395, R397). -/
def axisBalls (s : State) (a : Nat) : Bool × Nat × Nat × Nat × Nat :=
  let x := axisOf s a
  if !pioRuns s || !enHigh s a x then (false, 0, 0, 0, 0)
  else if regulated s a x then (true, x.highA, 10000 - x.highA, x.highB, 10000 - x.highB)
  else (true, 0, 0, 0, 0)

/-! ### Load angle (R398 to R400) -/

/-- STALL_ANGLE in units of 2^-32 degree. -/
def stallAngle (s : State) (a : Nat) : Int := (vaxP s a 0 / 2 ^ 24 : Nat) * 2 ^ 32

/-- The induced voltages of a period in units of 2^-40 nV, from its means and the mean currents of the period before. -/
def inducedVoltages (s : State) (a : Nat) (m : AxisPeriod) (prevA prevB : Int) : Int × Int :=
  let e (v i p : Int) : Int := v - vaxP s a 10 * i - 25 * vaxP s a 11 * (i - p)
  (e (meanVoltage s a m.vA) (meanCurrent s a m.iA) prevA, e (meanVoltage s a m.vB) (meanCurrent s a m.iB) prevB)

/-- The load angle of a period at a position and speed, in units of 2^-32 degree; none where the estimate is not valid. -/
def loadAngle (s : State) (a : Nat) (e : Int × Int) (x : Axis) : Option Int :=
  let up : Int := if x.vel < 0 then -1 else 1
  let scale : Int := (vaxP s a 15 % 65536 : Nat) * 200000 * 2 ^ 40
  if x.vel.natAbs < max (4 * vaxP s a 7) 4096 * 2 ^ 32 ∨ e.1 * e.1 + e.2 * e.2 < scale * scale then none
  else
    let rotor := fxDegrees (fxAtan2 e.2 e.1) - 90 * 2 ^ 32 * up
    some (wrapDegrees ((electricalAngle s a x * 45 * 2 ^ 25 - rotor) * up))

/-- The estimate of lost microsteps of an unwrapped angle (R400). -/
def lostOf (gammaU : Int) : Int := 1024 * roundDiv gammaU (360 * 2 ^ 32)

/-- LOST_STEPS with an estimate added; a non-zero one clears HOMED (R400). -/
def addLost (gammaU : Int) (x : Axis) : Axis :=
  let n := lostOf gammaU
  { x with lost := x.lost + n, homed := x.homed && n == 0, stallOpen := none }

/-- The load angle of a period taken: LOAD_ANGLE, γ_u, the run above STALL_ANGLE, and the estimate due after a stall that did not stop
the motion (R398 to R400). A period without a valid estimate ends the run (log entry 122). -/
def takeAngle (s : State) (a : Nat) (g : Option Int) (x : Axis) : Axis :=
  let y : Axis := match g with
    | none => { x with estValid := false, aboveRun := 0 }
    | some g =>
      let turn := wrapDegrees (g - x.gammaLast)
      { x with
          estValid := true, gamma := BitVec.ofNat 32 (Fp.ofRatio f32 g (2 ^ 32)), gammaLast := g,
          gammaU := if g < stallAngle s a then g else x.gammaU + turn, aboveRun := if stallAngle s a < g then x.aboveRun + 1 else 0,
          stallOpen := x.stallOpen.map fun p => (p.1 + turn, if g < stallAngle s a then p.2 + 1 else 0) }
  match y.stallOpen with
  | some (u, n) => if 16 ≤ n ∨ y.vel = 0 then addLost u y else y
  | none => y

/-- The measurements of a period (R388 to R390, R398). -/
def measure (s : State) (a : Nat) (m : AxisPeriod) (x : Axis) : Axis :=
  let e := inducedVoltages s a m x.meanA x.meanB
  let y := regulatePeriod s a m x
  takeAngle s a (loadAngle s a e y) y

/-- What follows when the axis stands after a period (R394, R396). -/
def restCheck (a : Nat) (s : State) : State :=
  let x := axisOf s a
  if x.vel ≠ 0 then
    (if x.state = .moving ∧ x.goal.mode = 2 ∧ x.vel = x.target * 2 ^ 32 ∧ x.host = some false then hostDone a 0 s else s)
  else
    match x.state with
    | .moving =>
      if (x.goal.mode = 1 ∨ x.goal.mode = 3) ∧ x.pos = x.target ∧ x.frac = 0 then
        hostDone a 0 (setAxis a { comeToRest s a x with atTarget := true } s)
      else if x.goal.mode = 0 then hostDone a 0 (setAxis a (comeToRest s a x) s)
      else if x.goal.mode = 2 ∧ (x.target = 0 ∨ x.limit) then hostDone a 0 (setAxis a (comeToRest s a x) s)
      else s
    | .stopping => setAxis a (comeToRest s a x) s
    | .standstill =>
      if x.host = some false ∧ (x.atTarget ∨ x.goal.mode = 0) then hostDone a 0 s else s
    | .homing => s

/-- Homing's legs after a period (R405, R406). -/
def homeStep (a : Nat) (s : State) : State :=
  let x := axisOf s a
  match x.home with
  | none => s
  | some h =>
    let sw := homeSwitch s a
    let ix := homeIndex s a
    let s := setAxis a { x with indexLevel := ix } s
    let go (leg : HomeLeg) := setAxis a { x with home := some { h with leg := leg }, indexLevel := ix } s
    if vaxP s a 14 < h.issued then afterHoming a (endHoming a 2 s)
    else if homeMethod s a = 0 then s
    else
      match h.leg with
      | .out => if sw then go .stop else s
      | .stop => if x.vel = 0 then go .back else s
      | .back => if sw then s else if homeMethod s a = 1 then afterHoming a (homed a s) else go .index
      | .index => if ix && !x.indexLevel then afterHoming a (homed a s) else s

/-- Waiting parameters of an axis take effect when it is at rest; a new POS_CLOSED or POS_OPEN converts a MODE 3 goal
again (R391, R413). -/
def axisParams (a : Nat) (s : State) : State :=
  let x := axisOf s a
  if x.state = .standstill then
    let moved := pendingIn s (0x0B18 + 16 * a) (0x0B19 + 16 * a)
    let s := (List.range 16).foldl (fun s j => applyOne (0x0B10 + 16 * a + j) s) s
    if moved && x.goal.mode == 3 && !x.safe then setAxis a (startGoal s a x.goal x) s else s
  else s

/-- VAX runs. -/
def vaxRuns (s : State) : Bool := pioRuns s

/-- PROFILE_PERIOD of one axis, once for each period: parameters, record, one conforming period of motion, measurements, homing, and the
status, written to Atrium bank 3 in class P1 (R16, R388 to R394, R398, R405, R408). A record of a period in which an event of a higher
rank has happened is discarded (R407). A speed that no conforming profile takes does not occur. -/
def profilePeriod (a : Nat) (m : AxisPeriod) (s : State) : State :=
  if !vaxRuns s || monoUs s % 40 != 0 || (axisOf s a).periodUs == some (monoUs s) then s else
  let s' := axisParams a s
  let s' := match (axisOf s' a).record with
    | some r => if outranked s' 5 (axisOf s' a) then setAxis a { axisOf s' a with record := none } s' else applyRecord a r s'
    | none => s'
  let x := axisOf s' a
  if !conforms s' a x m.vel then s else
  let s' := setAxis a (measure s' a m (issue s' a m.vel x)) s'
  let s' := homeStep a (restCheck a s')
  let x := axisOf s' a
  setAxis a { x with status := axisStatus s' a x, statusPrev := x.status, periodUs := some (monoUs s) }
    (transfer iMotion (.bank 3) 64 s')

/-! ### Stall, drive fault, standstill (R395, R399, R400, R407) -/

/-- The load angle has exceeded STALL_ANGLE for the filter's number of valid periods (R399). -/
def stallSeen (s : State) (a : Nat) (x : Axis) : Bool := decide (4 * (bits (vaxP s a 0) 23 20 + 1) ≤ x.aboveRun)

/-- A stall counted (R399). -/
def countStall (a : Nat) (s : State) : State :=
  setAxis a { axisOf s a with stalls := (axisOf s a).stalls + 1, aboveRun := 0 } { s with vax := { s.vax with stalls := s.vax.stalls + 1 } }

/-- STALL (R399, R400, R405, R406): in a homing to the end stop it is the end stop; in another homing the homing ends with HOME_RESULT 3;
then STALL_ACTION. After an event of a higher rank in the same period a stall is counted only (R407). -/
def stall (a : Nat) (s : State) : State :=
  let x := axisOf s a
  if !vaxRuns s || !stallSeen s a x then s
  else if outranked s 4 x then countStall a s
  else if x.vel = 0 ∨ x.state = .standstill then s
  else if x.home.isSome ∧ homeMethod s a = 0 then
    afterHoming a (homed a (setAxis a (ranked s 4 { x with vel := 0, acc := 0, aboveRun := 0 }) s))
  else
    let g := x.gammaU
    let s := post 0x0B01 a (le 4 (unsgn 32 x.pos) ++ le 4 (Fp.ofRatio f32 g (2 ^ 32)) ++ le 4 (unsgn 32 (x.vel / 2 ^ 32))) 0 (countStall a s)
    let homing := x.home.isSome
    let s := endHoming a 3 (setAxis a (ranked s 4 (axisOf s a)) s)
    let x := axisOf s a
    let s := match bits (vaxP s a 0) 19 18 with
      | 0 => setAxis a { x with stallOpen := some (g, 0) } s
      | act =>
        setAxis a
          { addLost g (comeToRest s a { x with goal := Goal.stop }) with stallLatched := x.stallLatched || act == 2 } s
    let s := if homing ∨ bits (vaxP s a 0) 19 18 ≠ 0 then hostDone a 4 s else s
    if homing then
      (if (axisOf s a).stallLatched then setAxis a { axisOf s a with nextGoal := none } s else afterHoming a s)
    else s

/-- STALL as its row reports it: with the unwrapped load angle γ_u at which it is found (R398). At another angle than the axis's own VAX
finds no stall. -/
def stallAt (a : Nat) (gammaU : Int) (s : State) : State := if gammaU = (axisOf s a).gammaU then stall a s else s

/-- DRIVE_FAULT: 1 overcurrent, 2 open phase after 64 consecutive periods; EN goes low (R407). -/
def driveFault (a : Nat) (openPhase : Bool) (s : State) : State :=
  let x := axisOf s a
  if !vaxRuns s || x.driveFault || !axisEnabled s a || outranked s 3 x || (openPhase && decide (x.openRun < 64)) then s else
  let x : Axis := if x.home.isSome then { x with home := none, homeDone := (x.home.map (·.req)).getD 0, homeResult := 3 } else x
  let x :=
    { ranked s 3 x with
        driveFault := true, faultCause := if openPhase then 2 else 1, vel := 0, acc := 0, state := .standstill, still := 0,
        goal := Goal.stop, nextGoal := none, atTarget := false }
  let s := post 0x0B03 a [] 0 { s with vax := { s.vax with driveFaults := s.vax.driveFaults + 1 } }
  hostDone a 5 (setAxis a x s)

/-- STANDSTILL_DELAY_EXPIRY (R395). -/
def standstillExpiry (a : Nat) (s : State) : State :=
  let x := axisOf s a
  let delay := vaxP s a 0 % 4096 * 10000
  if vaxRuns s && x.state == .standstill && x.still == 3 && decide (x.restUs + delay ≤ monoUs s) then
    setAxis a { x with still := bits (vaxP s a 0) 17 16 } s
  else s

/-- POSITION and LOST_STEPS retained at HOLDUP entry (R402). -/
def retainAxes (s : State) : State :=
  { s with vax := { s.vax with retained := some (s.vax.axes.map fun x => (x.pos, x.lost)) } }

/-- The axes at BOOT: retained positions restored, nothing homed (R402). -/
def vaxBoot (s : State) : State :=
  let axes : Vector Axis 8 := Vector.ofFn fun a =>
    match s.vax.retained with
    | some v => { Axis.reset with pos := (vget v a.val (0, 0)).1, lost := (vget v a.val (0, 0)).2 }
    | none => Axis.reset
  { s with vax := { s.vax with axes := axes, stalls := 0, driveFaults := 0, homings := 0, enLow := false } }

/-- The axes at the end of BOOT: safe standstill, and a first status record. -/
def vaxStart (s : State) : State :=
  let s := axesSafe true s
  { s with vax := { s.vax with axes := s.vax.axes.mapFinIdx fun a x _ => { x with status := axisStatus s a x, statusPrev := axisStatus s a x } } }

/-! ### Commands (R409 to R412) -/

/-- The axis is free for host moves (R41): no owning task, or its owning task is stopped. -/
def axisFree (s : State) (a : Nat) : Bool :=
  match ownerOf s 3 a with
  | some (e, t) => !taskGoes s e t
  | none => true

/-- VAX_MOVE (R409, R411). A paired device without the active role drives no axis (R65): the model answers NOT_IN_STATE, as for an
axis that is not free (log entry 123, DESIGN CHOICE). -/
def effVaxMove (r : Req) (s : State) : CmdRes :=
  let a := fld r.payload 0 1
  let mode := fld r.payload 1 1
  checked
    [(decide (a ≤ 7) && axisEnabled s a, 0), (decide (mode ≤ 3), 1), (allZero (slice r.payload 2 2), 2),
      (mode != 0 || fld r.payload 4 4 == 0, 4)]
    (let x := axisOf s a
    if !axisFree s a || !roleHeld s then .reject stNotInState (notInStateBody s)
    else if x.home.isSome then .reject stBusy []
    else
      let s := hostDone a 1 s
      let x := axisOf s a
      let x := if mode = 0 then { x with stallLatched := false, driveFault := false, faultCause := 0 } else x
      if x.stallLatched then .ok (axisBody s a 4 x) s
      else if x.driveFault then .ok (axisBody s a 5 x) s
      else
        let g := goalOf mode (r.payload.drop 4) 0
        let x := startGoal s a g { x with record := none }
        .wait (.axis a) (setAxis a { x with host := some false } s))

/-- VAX_HOME (R410, R411); without the active role as VAX_MOVE (log entry 123). -/
def effVaxHome (r : Req) (s : State) : CmdRes :=
  let a := fld r.payload 0 1
  checked [(decide (a ≤ 7) && axisEnabled s a, 0), (allZero (slice r.payload 1 3), 1)]
    (let free := axisFree s a || (s.sys.mode == .commission && (ownerOf s 3 a).any fun o => !testEnable s o.1 o.2)
    let x := axisOf s a
    if !free || !roleHeld s then .reject stNotInState (notInStateBody s)
    else if x.host.isSome || x.home.isSome then .reject stBusy []
    else
      let x := startHoming s a x.homeReq { x with nextGoal := some Goal.stop, goal := Goal.stop }
      if x.home.isSome then .wait (.axis a) (setAxis a { x with host := some true } s)
      else .ok (axisBody s a (if x.driveFault then 5 else 0) x) (setAxis a { x with nextGoal := none } s))

/-- VAX_STATUS (R412). -/
def effVaxStatus (r : Req) (s : State) : CmdRes :=
  let a := fld r.payload 0 1
  checked [(decide (a ≤ 7), 0), (allZero (slice r.payload 1 3), 1)] (.ok (statusRead s (axisOf s a)) s)

end Sys2Proof.Machine
end

