-- ==== Sys2Proof/Machine/Time.lean ====
section
/-! DEFINITION. Network time: steps of the clock and what they touch, the servo and the ordinary clock, leap seconds,
triggers and captures (R420, R423 to R441). -/

namespace Sys2Proof.Machine

/-! ### Fields of the parameters -/

/-- PTP_CONFIG. -/
def ptpConfig (s : State) : Nat := getP s 0x0D10
/-- ROLE. -/
def ptpRole (s : State) : Nat := bits (ptpConfig s) 11 10
/-- PTP_PORT. -/
def ptpPort (s : State) : Nat := bits (ptpConfig s) 9 8
/-- PROFILE uses the peer-to-peer delay mechanism (R424). -/
def peerToPeer (s : State) : Bool := bits (ptpConfig s) 15 14 != 0
/-- PPS_ENABLE. -/
def ppsEnable (s : State) : Bool := bit (ptpConfig s) 12
/-- PTP_ENABLE of a port. -/
def ptpEnable (s : State) (p : Nat) : Bool := bit (getP s (0x0C10 + p)) 11
/-- The servo is locked: state 2 or 4 (R429). -/
def servoLocked (s : State) : Bool := s.time.servo == .locked || s.time.servo == .gmPps
/-- TIME runs: not before the end of BOOT and not in BACKUP. -/
def timeRuns (s : State) : Bool := !s.sys.inReset && s.sys.mode != .backup && s.sys.mode != .boot
/-- Triggers and captures run (R435, R438). -/
def triggersRun (s : State) : Bool := timeRuns s && s.sys.mode != .holdup
/-- STEP_LIMIT in ns. -/
def stepLimit (s : State) : Nat := getP s 0x0D12 * 1000
/-- LOCK_THRESHOLD in ns. -/
def lockThreshold (s : State) : Nat := getP s 0x0D13
/-- The range of INCREMENT (R425). -/
def clampIncrement (v : Int) : Nat := (max 0x03FEF9DB23 (min v 0x04010624DD)).toNat
/-- The nominal INCREMENT (R425). -/
def nominalIncrement : Nat := 0x0400000000
/-- Ingress and egress latency of a port in ns (R420). -/
def ingressLatency (s : State) (p : Nat) : Nat := getP s (0x0C18 + p) / 65536
def egressLatency (s : State) (p : Nat) : Nat := getP s (0x0C18 + p) % 65536
/-- PORT_ASYMMETRY in ns. -/
def portAsymmetry (s : State) (p : Nat) : Int := sgn 32 (getP s (0x0C1C + p))

/-- TIME changed. -/
def updTime (f : TimeB → TimeB) (s : State) : State := { s with time := f s.time }

/-! ### Steps (R249, R326, R328, R430, R436, R489) -/

/-- Release instants of a task strictly after `a` and up to `b`, in µs, with φ the phase and c the cycle (R249). -/
def releasesBetween (c p a b : Nat) : Nat := if c = 0 then 0 else (b + c - p) / c - (a + c - p) / c

/-- Tasks at a step: TIME_STEPPED, and after a forward step the releases passed over counted as skipped (R249). -/
def tasksStep (oldUs newUs : Nat) (s : State) : State :=
  { s with
      ctrl := { s.ctrl with
        tasks := s.ctrl.tasks.map fun t =>
          let n := match taskDef s t.engine t.task with
            | some d =>
              if oldUs < newUs && t.mode == .waiting && tasksExecute s then releasesBetween d.cycle d.phase oldUs (newUs - 1)
              else 0
            | none => 0
          { t with
              stepped := true, skipped := t.skipped + BitVec.ofNat 32 n, skippedAll := t.skippedAll + BitVec.ofNat 32 n } } }

/-- Pulses of a periodic trigger at instants from its next one up to and including `t`; none where COUNT pulses are made. -/
def pulsesUpTo (x : Trigger) (t : Nat) : Nat :=
  if x.next ≤ t ∧ x.period ≠ 0 ∧ (x.count = 0 ∨ x.made < x.count) then (t - x.next) / x.period + 1 else 0

/-- A trigger output at a step from `old` to `new`, in ns: the trigger, the pulses missed, and whether TRIGGER_STEPPED is
recorded (R436). A passed pulse is not generated and so not counted against COUNT (R437; log entry 124). -/
def triggerStep (old new : Nat) (x : Trigger) : Trigger × Nat × Bool :=
  if !x.on || new ≤ old then
    if x.on && x.period != 0 && decide (new < old) then
      let k := if x.next ≤ new then 0 else (x.next - new) / x.period
      let back := min k ((x.next - x.start) / x.period)
      ({ x with next := x.next - back * x.period }, 0, false)
    else (x, 0, false)
  else if x.period = 0 then
    if x.made = 0 && decide (x.next ≤ new) then
      (if x.suppress then ({ x with made := 1 }, 0, true)
        else ({ x with made := 1, endAt := x.start + x.width, level := decide (new < x.start + x.width) }, 0, true))
    else ({ x with level := x.level && decide (new < x.endAt) }, 0, false)
  else
    let n := pulsesUpTo x (new - 1)
    ({ x with next := x.next + n * x.period, level := x.level && decide (new < x.endAt) }, n, false)

/-- Every trigger output at a step. -/
def triggersStep (old new : Nat) (s : State) : State :=
  if !triggersRun s then s else
  (List.range 8).foldl
    (fun s k =>
      let (x, n, ev) := triggerStep old new (vget s.time.triggers k Trigger.off)
      let s := updTime (fun t => { t with triggers := vset t.triggers k x, missed := t.missed + BitVec.ofNat 32 n }) s
      if ev then post 0x0D03 k [] 0 s else s)
    s

/-- The clock is stepped by a signed number of ns: TIME_STEP is recorded and every block that follows PTP time reacts
(R426, R430). -/
def clockStep (delta : Int) (source : Nat) (s : State) : State :=
  let oldM := meterSec s
  let oldNs := ptpNs s
  let old := ptpTotalNs s
  let oldUs := tickUs s
  let ptp := ((s.clock.ptp : Int) + delta * nsUnit).toNat
  let s := { s with clock := { s.clock with ptp := ptp }, time := { s.time with steps := s.time.steps + 1 } }
  let s := post 0x0D02 0 (le 8 (unsgn 64 (satInt 64 delta)) ++ le 1 source ++ le 1 s.time.servo.code) 0 s
  let s := intervalStep oldM oldNs old s
  let s := if meteringMode s then periodStep oldM oldNs s else s
  triggersStep old (ptpTotalNs s) (tasksStep oldUs (tickUs s) s)

/-- The clock is put to an instant in ns. -/
def clockSet (t : Nat) (source : Nat) (s : State) : State :=
  clockStep ((t : Int) - ptpTotalNs s) source (updTime (fun x => { x with fromRtc := false }) s)

/-! ### The servo (R429 to R432) -/

/-- A change of servo state, recorded as TIME_SERVO (R429). -/
def servoTo (n : Servo) (s : State) : State :=
  if s.time.servo = n then s else
  let s := post 0x0D01 0 (le 1 s.time.servo.code ++ le 1 n.code ++ le 8 (unsgn 64 (satInt 64 s.time.offset))) 0 s
  let locked := n == .locked || n == .gmPps
  updTime
    (fun t => { t with
      servo := n, lockRun := 0, badRun := 0,
      lockedUs := if locked then some s.clock.real else none }) s

/-- The servo's law for frequency and phase is its own: it writes a frequency estimate within the range of R425, and an
INCREMENT whose phase term keeps to a limit in ppm (R430; log entry 25). -/
def servoWrite (limitPpm : Nat) (s : State) : State :=
  let (a, s) := openVal 25 s
  let (b, s) := openVal 26 s
  let est := clampIncrement (0x03FEF9DB23 + (a % (0x04010624DD - 0x03FEF9DB23 + 1) : Nat))
  let lim := est * limitPpm / 1000000
  let inc := clampIncrement ((est : Int) - lim + (b % (2 * lim + 1) : Nat))
  { updTime (fun t => { t with freqEst := est }) s with clock := { s.clock with increment := inc } }

/-- An offset from the master or from PPS is used: state changes, steps and slews (R429, R430). `top` is the state of a
locked servo. -/
def useOffset (top : Servo) (off : Int) (s : State) : State :=
  let s := updTime (fun t => { t with offset := off, fromRtc := false }) s
  let s := if s.time.servo = top ∨ s.time.servo = .acquiring then s else servoTo .acquiring s
  if s.time.servo = top then
    let bad := if 4 * lockThreshold s < off.natAbs then s.time.badRun + 1 else 0
    let s := updTime (fun t => { t with badRun := bad }) s
    if 4 ≤ bad then servoTo .acquiring s else servoWrite 1 s
  else
    let run := if off.natAbs ≤ lockThreshold s then s.time.lockRun + 1 else 0
    let s := if stepLimit s < off.natAbs then clockStep (-off) 0 s else servoWrite (getP s 0x0D14) s
    let s := updTime (fun t => { t with lockRun := run }) s
    if 8 ≤ run then servoTo top s else s

/-- HOLDOVER entered: the frequency estimate alone is written (R431). -/
def enterHoldover (s : State) : State :=
  let pps := s.time.servo == .gmPps
  let s := { s with clock := { s.clock with increment := s.time.freqEst } }
  updTime (fun t => { t with heldFromPps := pps, heldSince := s.clock.real }) (servoTo .holdover s)

/-! ### The ordinary clock (R423, R424, R434) -/

/-- clockClass advertised (R424). -/
def clockClass (s : State) : Nat :=
  if ptpRole s = 1 then 255
  else match s.time.servo with
    | .gmPps => 6
    | .holdover => if s.time.heldFromPps then 7 else 248
    | _ => 248

/-- The order of two data sets under IEEE 1588-2019 clause 9.3, on the values that Announce carries. -/
def Master.key (m : Master) : List Nat :=
  [m.priority1, m.clockClass, m.accuracy, m.variance, m.priority2, m.identity, m.steps]

/-- Lexicographic order of lists of numbers. -/
def lexLt : List Nat → List Nat → Bool
  | a :: s, b :: t => decide (a < b) || (a == b && lexLt s t)
  | _, _ => false

/-- The clock's own data set (log entry 26). -/
def ownMaster (s : State) : Master :=
  { priority1 := getP s 0x0D11 / 256, clockClass := clockClass s, accuracy := 0xFE, variance := 0xFFFF,
    priority2 := getP s 0x0D11 % 256, identity := ofBE (s.sec.deviceId.take 8), steps := 0, port := 4 }

/-- The UTC day boundary that ends the current UTC day, in metering seconds (R434). -/
def dayEnd (s : State) : Nat := (meterSec s / 86400 + 1) * 86400

/-- The TAI−UTC offset and pending leap in use replaced (R434). A change of the offset steps metering time. -/
def setUtc (off : Int) (leap : Nat) (fromMaster : Bool) (s : State) : State :=
  let oldM := meterSec s
  let at_ := if leap = 0 then 0 else if leap = s.time.leap then s.time.leapAt else dayEnd s
  let changed := s.time.utcOffset != off
  let s := updTime
    (fun t => { t with
      utcOffset := off, leap := leap, leapAt := at_, utcValid := true, utcFromMaster := fromMaster }) s
  if changed then
    let s := intervalStep oldM (ptpNs s) (ptpTotalNs s) s
    if meteringMode s then periodStep oldM (ptpNs s) s else s
  else s

/-- UTC_CONFIG taken (R434). -/
def takeUtcConfig (s : State) : State :=
  let v := getP s 0x0D15
  setUtc (sgn 16 v) (v / 65536) false s

/-- The servo restarts after a write of PTP_CONFIG or PTP_PRIORITY, and at the end of BOOT (R429, R441). -/
def servoRestart (s : State) : State :=
  let role2 := ptpRole s == 2
  let s := if s.time.utcFromMaster then takeUtcConfig s else s
  let s := updTime
    (fun t => { t with
      master := none, isMaster := role2, twoStep := none, delayReq := none, heldFromPps := false,
      freeFromHold := false }) s
  let s := servoTo (if role2 && !ppsEnable s then .gmFree else .freeRun) s
  { s with clock := { s.clock with increment := nominalIncrement } }

/-- The selected master is given up: a grandmaster-capable clock is master from now on, in GM_FREE where it has no PPS and no lock
to hold over, and the UTC offset comes from UTC_CONFIG again (R423, R429, R434). -/
def dropMaster (s : State) : State :=
  let gm := ptpRole s == 2
  let s := updTime (fun t => { t with master := none, isMaster := gm, twoStep := none }) s
  let s := if gm && !ppsEnable s && (s.time.servo == .freeRun || s.time.servo == .acquiring) then servoTo .gmFree s else s
  if s.time.utcFromMaster then takeUtcConfig s else s

/-- ANNOUNCE: master selection, and the UTC offset as a slave (R423, R434). -/
def announce (port : Nat) (a : AnnounceMsg) (s : State) : State :=
  if !timeRuns s || ptpRole s == 0 || port != ptpPort s || !ptpEnable s port ||
      a.domain.toNat != bits (ptpConfig s) 31 24 then s
  else
    let m : Master :=
      { priority1 := a.priority1.toNat, clockClass := a.clockClass.toNat, accuracy := a.accuracy.toNat,
        variance := a.variance.toNat, priority2 := a.priority2.toNat, identity := a.identity.toNat,
        steps := a.steps.toNat, port := port }
    let better := match s.time.master with
      | some x => x.identity == m.identity || lexLt m.key x.key
      | none => true
    let slave := better && (ptpRole s == 1 || lexLt m.key (ownMaster s).key)
    if !slave then
      (if s.time.master.any fun x => x.identity == m.identity then dropMaster s else s)
    else
      let s := updTime (fun t => { t with master := some m, isMaster := false }) s
      if a.utcValid then setUtc a.utcOffset.toInt (if a.leap61 then 1 else if a.leap59 then 2 else 0) true s
      else if s.time.utcFromMaster then takeUtcConfig s else s

/-- A Sync or Follow_Up is used here: slave, on PTP_PORT, from the selected master (R423). -/
def syncUsed (s : State) (port : Nat) : Bool :=
  timeRuns s && ptpRole s != 0 && port == ptpPort s && ptpEnable s port && s.time.master.isSome && !s.time.isMaster

/-- The offset of a completed Sync measurement: t1, t2 and the sum of corrections in ns (R420, R423). -/
def offsetOf (s : State) (port : Nat) (t1 t2 corr : Int) : Int :=
  let delay : Nat := if peerToPeer s then vget s.time.linkDelay port 0 else s.time.pathDelay
  t2 - t1 - corr - delay - portAsymmetry s port

/-- A completed measurement goes to the servo. -/
def useSync (port : Nat) (t1 t2 corr : Int) (s : State) : State :=
  let s := updTime (fun t => { t with lastSync := (t1 + corr, t2), twoStep := none }) s
  useOffset .locked (offsetOf s port t1 t2 corr) s

/-- SYNC: origin timestamp and correction in ns; the ingress timestamp is the clock less the ingress latency (R420, R430). -/
def syncRx (port seq : Nat) (twoStep : Bool) (origin : Nat) (corr : Int) (s : State) : State :=
  if !syncUsed s port then s else
  let t2 : Int := ptpTotalNs s - ingressLatency s port
  if twoStep then updTime (fun t => { t with twoStep := some (seq, t2, corr) }) s else useSync port origin t2 corr s

/-- FOLLOW_UP completes a two-step Sync (R423). -/
def followUp (port seq : Nat) (origin : Nat) (corr : Int) (s : State) : State :=
  match s.time.twoStep with
  | some (q, t2, c) => if syncUsed s port && q == seq then useSync port origin t2 (c + corr) s else s
  | none => s

/-- DELAY_REQ_SEND: in the end-to-end profile a slave sends Delay_Req on PTP_PORT (R423). -/
def delayReqSend (s : State) : State :=
  if !timeRuns s || ptpRole s == 0 || peerToPeer s || s.time.master.isNone then s else
  let p := ptpPort s
  let t3 : Int := ptpTotalNs s + egressLatency s p
  let q := s.time.seqOut.toNat
  let s := updTime (fun t => { t with delayReq := some (q, t3), seqOut := t.seqOut + 1 }) s
  { s with out := s.out ++ [.ptp p 1 q t3.toNat] }

/-- DELAY_RESP: the mean path delay from the last Sync and the answered Delay_Req (R423, R441). -/
def delayResp (port seq : Nat) (t4 : Nat) (corr : Int) (s : State) : State :=
  match s.time.delayReq with
  | some (q, t3) =>
    if !syncUsed s port || peerToPeer s || q != seq then s else
    let d := ((s.time.lastSync.2 - s.time.lastSync.1) + (t4 - t3 - corr)) / 2
    updTime (fun t => { t with delayReq := none, pathDelay := min d.toNat 0xFFFFFFFF }) s
  | none => s

/-- PDELAY_REQ: answered with a one-step Pdelay_Resp (R423). -/
def pdelayReqRx (port seq : Nat) (s : State) : State :=
  if !timeRuns s || !peerToPeer s || !ptpEnable s port then s
  else { s with out := s.out ++ [.ptp port 3 seq (ptpTotalNs s)] }

/-- PDELAY_REQ_SEND: each PTP-enabled port sends Pdelay_Req in the peer-to-peer profiles (R423). -/
def pdelayReqSend (s : State) : State :=
  if !timeRuns s || !peerToPeer s then s else
  let q := s.time.seqOut.toNat
  let s := (List.range 4).foldl
    (fun s p =>
      if ptpEnable s p then
        let t1 : Int := ptpTotalNs s + egressLatency s p
        { updTime (fun t => { t with pdelayReq := vset t.pdelayReq p (some (q, t1)) }) s with
            out := s.out ++ [.ptp p 2 q t1.toNat] }
      else s)
    s
  updTime (fun t => { t with seqOut := t.seqOut + 1 }) s

/-- PDELAY_RESP: the link delay of a port, half the round trip less the turnaround that the response carries (R423). -/
def pdelayResp (port seq : Nat) (corr : Int) (s : State) : State :=
  match vget s.time.pdelayReq port none with
  | some (q, t1) =>
    if !timeRuns s || !peerToPeer s || !ptpEnable s port || q != seq then s else
    let t4 : Int := ptpTotalNs s - ingressLatency s port
    let d := min ((t4 - t1 - corr) / 2).toNat 0xFFFFFFFF
    updTime
      (fun t => { t with
        pdelayReq := vset t.pdelayReq port none, linkDelay := vset t.linkDelay port d,
        pathDelay := if port = ptpPort s then d else t.pathDelay }) s
  | none => s

/-- SYNC_ANNOUNCE_SEND: as master, Announce or one-step Sync on every port with PTP_ENABLE (R423, R424). -/
def syncAnnounceSend (ann : Bool) (s : State) : State :=
  if !timeRuns s || ptpRole s != 2 || !s.time.isMaster then s else
  let q := s.time.seqOut.toNat
  let msgs := ((List.range 4).filter (ptpEnable s)).map fun p =>
    if ann then Output.ptp p 0xB q (clockClass s) else Output.ptp p 0 q (ptpTotalNs s + egressLatency s p)
  updTime (fun t => { t with seqOut := t.seqOut + 1 }) { s with out := s.out ++ msgs }

/-- SYNC_TIMEOUT (R429): the reference of a locked servo is lost; an Announce timeout also ends the selection. -/
def syncTimeout (k : LossKind) (s : State) : State :=
  if !timeRuns s then s else
  let s := match k, s.time.servo with
    | .noPps, .gmPps => if s.time.ppsUs.all fun u => decide (u + 2000000 ≤ s.clock.real) then enterHoldover s else s
    | .noPps, _ => s
    | _, .locked => enterHoldover s
    | _, _ => s
  match k with
  | .announceTimeout => if s.time.master.isNone then s else dropMaster s
  | _ => s

/-- HOLDOVER_TIMEOUT: a grandmaster in HOLDOVER for 3,600 s enters GM_FREE and keeps its INCREMENT (R429). -/
def holdoverTimeout (s : State) : State :=
  if timeRuns s && s.time.servo == .holdover && ptpRole s == 2 && s.time.isMaster &&
      decide (s.time.heldSince + 3600000000 ≤ s.clock.real) then
    updTime (fun t => { t with freeFromHold := true }) (servoTo .gmFree s)
  else s

/-- RTC_REFERENCE_WINDOW: the window's result is written to INCREMENT, clamped, while the state follows the RTC
reference (R429). -/
def rtcReferenceWindow (result : Nat) (s : State) : State :=
  let follows := s.time.servo == .freeRun || (s.time.servo == .gmFree && !s.time.freeFromHold)
  if timeRuns s && s.rtc.hasLearned && follows then
    { s with clock := { s.clock with increment := clampIncrement result } }
  else s

/-- The offset of the clock at a PPS edge from the nearest whole second, ns (R432). -/
def ppsOffset (s : State) : Int := if ptpNs s < 500000000 then ptpNs s else (ptpNs s : Int) - 1000000000

/-- PPS_EDGE: an edge of the selected polarity completes a waiting TIME_SET and aligns the clock in the GM states
(R432, R433). -/
def ppsEdge (rising : Bool) (s : State) : State :=
  if !timeRuns s || rising == bit (ptpConfig s) 2 then s else
  let s := updTime (fun t => { t with ppsUs := some s.clock.real }) s
  let s := match s.time.atPps with
    | some sec =>
      let s := clockSet (sec * 1000000000) 1 (updTime (fun t => { t with atPps := none }) s)
      completeAll (fun w => w == .pps) stOK false [] s
    | none => s
  if ptpRole s == 2 && ppsEnable s && s.time.isMaster then useOffset .gmPps (ppsOffset s) s else s

/-- LEAP_SECOND: a pending leap takes effect at the UTC day boundary; intervals are not marked (R434). An inserted one
when the leap second has ended, a deleted one at the start of 23:59:59. -/
def leapSecond (s : State) : State :=
  let raw := ((ptpSec s : Int) - s.time.utcOffset).toNat
  let at_ := s.time.leapAt
  if !timeRuns s then s
  else if s.time.leap = 1 ∧ at_ + 1 ≤ raw then
    updTime (fun t => { t with utcOffset := t.utcOffset + 1, leap := 0, leapAt := 0 }) s
  else if s.time.leap = 2 ∧ at_ ≤ raw + 1 then
    let s := updTime (fun t => { t with utcOffset := t.utcOffset - 1, leap := 0, leapAt := 0 }) s
    if s.rtc.leapShown = at_ then s else { s with rtc := { s.rtc with leapSkip := some at_ } }
  else s

/-! ### TIME_SET (R433) -/

/-- TIME_SET (R433). -/
def effTimeSet (q : Req) (s : State) : CmdRes :=
  let pl := q.payload
  let fl := fld pl 0 1
  let sec := fld pl 2 6
  let ns := fld pl 8 4
  checked
    [(decide (fl ≤ 1), 0), (fld pl 1 1 == 0, 1), (decide (946684800 ≤ sec) && decide (sec < 13569465600), 2),
      (if fl = 1 then ns == 0 else decide (ns ≤ 999999999), 8)]
    (if s.time.servo == .acquiring || servoLocked s then .reject stBusy []
      else if fl = 1 then .wait .pps (updTime (fun t => { t with atPps := some sec }) s)
      else .ok [] (clockSet (sec * 1000000000 + ns) 1 s))

/-! ### Triggers (R435 to R437) -/

/-- TIME_TRIGGER_SET (R437). -/
def effTriggerSet (q : Req) (s : State) : CmdRes :=
  let pl := q.payload
  let o := fld pl 0 1
  let mode := fld pl 1 1
  let fl := fld pl 2 1
  let count := fld pl 4 4
  let start := fld pl 8 6 * 1000000000 + fld pl 16 4
  let per := fld pl 24 8
  let wid := fld pl 32 8
  let soonest := ptpTotalNs s + 10000
  let off := decide (mode = 0)
  checked
    [(decide (o ≤ 7), 0), (decide (mode ≤ 2), 1), (decide (fl ≤ 3), 2), (fld pl 3 1 == 0, 3),
      (mode == 2 || count == 0, 4), (mode != 1 || decide (soonest ≤ start), 8), (fld pl 14 2 == 0, 14),
      (decide (fld pl 16 4 ≤ 999999999), 16), (fld pl 20 4 == 0, 20),
      (if mode = 2 then decide (1000 ≤ per) && decide (per ≤ 3600000000000) else per == 0, 24),
      (off || (decide (4 ≤ wid) && (if mode = 2 then decide (wid + 4 ≤ per) else decide (wid ≤ 86400000000000))), 32)]
    (let next := if mode = 2 ∧ start < soonest then start + ceilDiv (soonest - start) per * per else start
    let x : Trigger :=
      if off then { Trigger.off with activeLow := bit fl 0 }
      else
        { on := true, start := start, period := per, width := wid, count := count, activeLow := bit fl 0,
          suppress := bit fl 1, next := next, made := 0, level := false, endAt := 0 }
    .ok [] (updTime (fun t => { t with triggers := vset t.triggers o x }) s))

/-- TRIGGER_PULSE_START: the clock has reached an output's next instant (R435). -/
def triggerStart (k : Nat) (s : State) : State :=
  let x := vget s.time.triggers k Trigger.off
  let done := if x.period = 0 then x.made != 0 else x.count != 0 && decide (x.count ≤ x.made)
  if !triggersRun s || !x.on || done || decide (ptpTotalNs s < x.next) then s else
  let e := x.next + x.width
  let x := { x with level := true, endAt := if x.level then max x.endAt e else e }
  let x :=
    if x.period = 0 then { x with made := 1 }
    else { x with made := if x.count = 0 then 0 else x.made + 1, next := x.next + x.period }
  updTime (fun t => { t with triggers := vset t.triggers k x }) s

/-- TRIGGER_PULSE_END: the pulse in progress ends at its programmed end (R435, R436). -/
def triggerEnd (k : Nat) (s : State) : State :=
  let x := vget s.time.triggers k Trigger.off
  if !x.level || decide (ptpTotalNs s < x.endAt) then s
  else updTime (fun t => { t with triggers := vset t.triggers k { x with level := false } }) s

/-! ### Captures (R438, R439) -/

/-- CAPTURE_EDGE: a selected edge enters the ring of 64, or is counted in OVERRUN (R438). -/
def captureEdge (n : Nat) (rising : Bool) (s : State) : State :=
  let e := getP s (0x0D1D + n) % 4
  if !triggersRun s || !(if rising then bit e 0 else bit e 1) then s else
  let c := vget s.time.captures n CapIn.reset
  let c :=
    if 64 ≤ c.ring.length then { c with overrun := c.overrun + 1 }
    else { c with count := c.count + 1, ring := ⟨c.count + 1, rising, ⟨ptpSec s, ptpNs s⟩⟩ :: c.ring }
  updTime (fun t => { t with captures := vset t.captures n c }) s

/-- A record of *Capture page*, 16 bytes. -/
def captureBytes (c : Capture) : Bytes :=
  le 6 c.at_.sec ++ le 1 (b2n (!c.rising)) ++ zeros 1 ++ le 4 c.at_.ns ++ le 4 c.seq.toNat

/-- The capture page, 336 bytes (R439). -/
def capturePage (s : State) (seq : Nat) : Bytes :=
  let t := tickStamp s
  le 6 t.sec ++ zeros 2 ++ le 4 t.ns ++ le 4 seq ++
    (List.range 4).flatMap fun n =>
      let c := vget s.time.captures n CapIn.reset
      le 4 c.count.toNat ++ le 4 c.overrun.toNat ++ zeros 8 ++ fit 64 (c.newest.flatMap captureBytes)

/-- CAPTURE_PAGE_PUBLISH: after a capture, the page is published with the newest four records of each input (R439). -/
def capturePublish (s : State) : State :=
  if !triggersRun s || s.time.captures.toList.all (fun c => c.ring.isEmpty) then s else
  let s := updTime
    (fun t => { t with
      captures := t.captures.map fun c => { c with newest := (c.ring ++ c.newest).take 4, ring := [] } }) s
  let n := s.time.pageSeq + 1
  updTime (fun t => { t with page := t.page.write s (capturePage s n.toNat), pageSeq := n }) s

/-- TIME_CAPTURE_GET (R439). The page before the first publication is all zero. -/
def effCaptureGet (_ : Req) (s : State) : CmdRes := .ok (fit 336 s.time.page.now) s

/-! ### Parameters and reset (R440, R441) -/

/-- TIME_STATE (R441). -/
def timeState (s : State) : Nat :=
  let t := s.time
  512 * b2n (t.leap == 1) + 256 * b2n (t.leap == 2) + 128 * b2n t.utcValid +
    64 * b2n (t.ppsUs.any fun u => decide (s.clock.real ≤ u + 2000000)) + 32 * b2n t.fromRtc + t.servo.code

/-- UTC_CURRENT (R441). -/
def utcCurrent (s : State) : Nat := s.time.leap * 65536 + unsgn 16 s.time.utcOffset

/-- A value waits for the next tick. -/
def waitsTick (p : PendingValue) : Bool := (pinfo p.id).any fun q => q.bound == .tick

/-- The values that wait for the tick take effect, and PTP_CONFIG or PTP_PRIORITY restarts the servo (R386, R441, R543). -/
def tickValues (s : State) : State :=
  if s.cfgPending.any waitsTick then
    let s' := applyBoundary .tick s
    if timeRuns s && (s.cfgPending.any fun p => p.id == 0x0D10 || p.id == 0x0D11) then servoRestart s' else s'
  else s

/-- A TIME parameter has been written (R434). -/
def timeHook (id : Nat) (s : State) : State :=
  if !timeRuns s then s
  else if id = 0x0D15 then (if s.time.utcFromMaster then s else takeUtcConfig s)
  else s

/-- Levels of the trigger outputs at their inactive level, every program gone (R435). -/
def triggersOff (s : State) : State := updTime (fun t => { t with triggers := Vector.replicate 8 Trigger.off }) s

/-- TIME at the end of BOOT, after the clock has been loaded from the calendar as `ns` (R427 to R429). -/
def timeBoot (ns : Nat) (s : State) : State :=
  let s := { s with time := TimeB.reset, clock := { s.clock with ptp := ns * nsUnit, mono := 0, increment := nominalIncrement } }
  let v := getP s 0x0D15
  let s := updTime (fun t => { t with utcOffset := sgn 16 v, leap := v / 65536, utcValid := true }) s
  let s := updTime (fun t => { t with leapAt := if t.leap = 0 then 0 else dayEnd { s with time := { t with leap := 0 } } }) s
  servoRestart s

end Sys2Proof.Machine
end

