-- ==== Sys2Proof/Machine/Eth.lean ====
section
/-! DEFINITION. The Ethernet switch: filtering, VLANs, learning, forwarding and the transparent clock (R414 to R422,
R440). -/

namespace Sys2Proof.Machine

/-- The switch forwards (R417). -/
def switchRuns (s : State) : Bool := timeRuns s && s.sys.mode != .holdup

/-- A port is in service; the internal port always is. -/
def portEnabled (s : State) (p : Nat) : Bool := p == 4 || bit (getP s (0x0C10 + p)) 0

/-- The VLAN_ENTRY of a VID (R418). -/
def vlanEntry (s : State) (vid : Nat) : Option Nat :=
  if vid = 0 then none else ((List.range 32).map fun k => getP s (0x0C20 + k)).find? fun v => v % 4096 == vid

/-- A port is a member of a VLAN_ENTRY. -/
def isMember (entry p : Nat) : Bool := bit entry (12 + p)

/-- The VLAN of a frame: its tag's, or the PVID of its port (R418). -/
def frameVid (s : State) (f : EthFrame) : Nat :=
  let pvid := if f.port.val < 4 then getP s (0x0C10 + f.port.val) / 2 ^ 20 else 0
  match f.tag with
  | some (v, _) => if v.val = 0 then pvid else v.val
  | none => pvid

/-- A group address. -/
def isGroup (mac : Nat) : Bool := bit mac 40

/-- A source address learned (R416): refreshed if known, entered if there is room. -/
def learn (vid mac port now : Nat) (l : List Learned) : List Learned :=
  if isGroup mac then l
  else if l.any fun x => x.vid == vid && x.mac == mac then
    l.map fun x => if x.vid = vid ∧ x.mac = mac then { x with port := port, seen := now } else x
  else if l.length < 1024 then l ++ [⟨vid, mac, port, now⟩] else l

/-- Egress ports of a frame, in ascending order (R416). -/
def egressPorts (s : State) (entry vid port dst : Nat) : List Nat :=
  let open_ := (List.range 5).filter fun p => isMember entry p && p != port && portEnabled s p
  if isGroup dst then open_
  else match s.eth.table.find? fun x => x.vid == vid && x.mac == dst with
    | some x => open_.filter (· == x.port)
    | none => open_

/-- What the transparent clock adds to correctionField at an egress port, in ns (R421, R422; the sign of the asymmetry
terms is that of IEEE 1588-2019, log entry 27). -/
def tcCorrection (s : State) (f : EthFrame) (egress : Nat) : Int :=
  let asym (p : Nat) : Int := if p < 4 then portAsymmetry s p else 0
  match f.ptp with
  | none => 0
  | some .sync =>
    f.residence + (if peerToPeer s && decide (f.port.val < 4) then ((vget s.time.linkDelay f.port.val 0 : Nat) : Int) else 0) +
      asym f.port.val
  | some .pdelayResp => f.residence + asym f.port.val
  | some .delayReq | some .pdelayReq => f.residence - asym egress

/-- The priority code point that an endpoint sends with (R59, R419). -/
def endpointPcp : Endpoint → Nat
  | .pairLink => 7
  | .ptp => 6
  | .host => 4
  | .subl => 2

/-- The queue of the internal port in which frames wait for an endpoint (R72, R419). -/
def endpointQueue : Endpoint → Nat
  | .pairLink => 3
  | .ptp => 3
  | .host => 2
  | .subl => 1

/-- The queue of an egress port that takes a priority code point (R419). -/
def pcpQueue (pcp : Nat) : Nat := pcp / 2

/-- The priority code point of a frame: that of the endpoint that sends it, its tag's, or 0 where it is untagged (R419). -/
def framePcp (f : EthFrame) : Nat :=
  match f.port.val, f.endpoint, f.tag with
  | 4, some e, _ => endpointPcp e
  | _, _, some (_, c) => c.val
  | _, _, none => 0

/-- The queue that a frame goes to at an egress port: by endpoint on the internal port, else by PCP (R419). -/
def egressQueue (f : EthFrame) (p : Nat) : Nat :=
  match p, f.endpoint with
  | 4, some e => endpointQueue e
  | _, _ => pcpQueue (framePcp f)

/-- A frame leaves by one port, or is dropped because the queue it goes to is full (R418, R419). -/
def emit (f : EthFrame) (entry : Nat) (s : State) (p : Nat) : State :=
  if f.full.getLsbD (4 * p + egressQueue f p) then
    { s with eth := { s.eth with queueDrops := vset s.eth.queueDrops p (vget s.eth.queueDrops p 0 + 1) } }
  else { s with out := s.out ++ [.frame p (egressQueue f p) (!bit entry (17 + p)) (tcCorrection s f p)] }

/-- ETHERNET_FRAME (R415 to R422). -/
def etherFrame (f : EthFrame) (s : State) : State :=
  let p := f.port.val
  if !switchRuns s || !portEnabled s p then s
  else if !f.fcsOk || decide (1522 < f.length) then
    { s with eth := { s.eth with rxErrors := vset s.eth.rxErrors p (vget s.eth.rxErrors p 0 + 1) } }
  else if f.pause || decide (f.length < 64) then s
  else
    let vid := frameVid s f
    match (vlanEntry s vid).filter fun e => isMember e p with
    | none => { s with eth := { s.eth with vlanDrops := s.eth.vlanDrops + 1 } }
    | some e =>
      let s := { s with eth := { s.eth with table := learn vid f.src.toNat p s.clock.real s.eth.table } }
      (egressPorts s e vid p f.dst.toNat).foldl (emit f e) s

/-- PHY_SPEED_POLL: what the PHY of a port reports (R414, R440). -/
def phyPoll (p : Nat) (up : Bool) (speed : Nat) (high : Bool) (s : State) : State :=
  if s.sys.inReset || s.sys.mode == .backup || !s.hif.up then s else
  let t1l := decide (p < 2)
  let x : PortLink :=
    { up := up && portEnabled s p, speed := if t1l then 0 else speed,
      high := t1l && up && high && bit (getP s (0x0C10 + p)) 8 }
  { s with eth := { s.eth with links := vset s.eth.links p x } }

/-- ADDRESS_AGE_OUT: a learned address without traffic for 300 s is forgotten (R416). -/
def ageOut (vid mac : Nat) (s : State) : State :=
  { s with
      eth := { s.eth with
        table := s.eth.table.filter fun x => !(x.vid == vid && x.mac == mac && decide (x.seen + 300000000 ≤ s.clock.real)) } }

/-- PORT_STATUS (R440). -/
def portStatus (s : State) (p : Nat) : Nat :=
  let x := vget s.eth.links p ⟨false, 0, false⟩
  4 * x.speed + 2 * b2n x.high + b2n x.up

end Sys2Proof.Machine
end

