-- ==== Sys2Proof/Machine/Memory.lean ====
section
/-! DEFINITION. Byte-addressed memories: the control engines' TCMs and the LPDDR4X test region, as lists of
cells in canonical form. An unlisted address reads 0 (log entry 20). -/

namespace Sys2Proof.Machine

/-- A memory: cells in strictly rising address, none holding what an unlisted address reads as. -/
abbrev Memory := List Host.Cell

/-- What an unlisted address reads as (log entry 20). -/
def Memory.blank : Byte := 0

/-- The canonical form. -/
def Memory.wf : Memory → Bool
  | [] => true
  | (a, b) :: t => b != Memory.blank && t.all (fun c => decide (a < c.1)) && Memory.wf t

/-- One byte read. -/
def Memory.read : Memory → Nat → Byte
  | [], _ => Memory.blank
  | (k, b) :: t, a => if k = a then b else Memory.read t a

/-- One byte written, in canonical form. -/
def Memory.write : Memory → Nat → Byte → Memory
  | [], a, b => if b = Memory.blank then [] else [(a, b)]
  | (k, c) :: t, a, b =>
    if a < k then (if b = Memory.blank then (k, c) :: t else (a, b) :: (k, c) :: t)
    else if a = k then (if b = Memory.blank then t else (a, b) :: t)
    else (k, c) :: Memory.write t a b

/-- `n` bytes read from an address upward. -/
def Memory.reads (m : Memory) (a : Nat) : Nat → Bytes
  | 0 => []
  | n + 1 => m.read a :: m.reads (a + 1) n

/-- Bytes written from an address upward. -/
def Memory.writes (m : Memory) (a : Nat) : Bytes → Memory
  | [] => m
  | b :: bs => (m.write a b).writes (a + 1) bs

/-- Cells of a byte string from an address upward: a region loaded whole. -/
def Memory.ofBytes (a : Nat) : Bytes → Memory
  | [] => []
  | b :: bs => if b = Memory.blank then Memory.ofBytes (a + 1) bs else (a, b) :: Memory.ofBytes (a + 1) bs

/-- The cells outside a range of addresses. -/
def Memory.outside (m : Memory) (lo hi : Nat) : Memory := m.filter fun c => decide (c.1 < lo) || decide (hi ≤ c.1)

/-! ### Memories whose contents no rule states (R137, R139, log entry 41) -/

/-- A byte listed, whatever it is. -/
def Memory.list : Memory → Nat → Byte → Memory
  | [], a, b => [(a, b)]
  | (k, c) :: t, a, b =>
    if a < k then (a, b) :: (k, c) :: t else if a = k then (a, b) :: t else (k, c) :: Memory.list t a b

/-- The canonical form of such a memory: addresses strictly rise. -/
def Memory.ordered : Memory → Bool
  | [] => true
  | (a, _) :: t => t.all (fun c => decide (a < c.1)) && Memory.ordered t

/-- The canonical form of a region. -/
def Region.wf (r : Region) : Bool := if r.free.isNone then Memory.wf r.cells else Memory.ordered r.cells

/-- A region whose contents are zero. -/
def Region.zero : Region := ⟨[], none⟩

/-- A region whose contents are open from a draw on. -/
def Region.unknown (d : Nat) : Region := ⟨[], some d⟩

/-- One byte of a region: what was written last, else zero or a free value. -/
def Region.read (r : Region) (a : Nat) : Byte :=
  match r.cells.find? fun c => c.1 == a, r.free with
  | some c, _ => c.2
  | none, none => 0
  | none, some d => BitVec.ofNat 8 (Config.openValue 40 (d * 2 ^ 34 + a))

/-- One byte written into a region. -/
def Region.write (r : Region) (a : Nat) (b : Byte) : Region :=
  { r with cells := if r.free.isNone then Memory.write r.cells a b else Memory.list r.cells a b }

end Sys2Proof.Machine
end

