-- ==== Sys2Proof/Machine/CtrlExec.lean ====
section
/-! DEFINITION. What the instructions of a control engine compute (R245 to R247, R261, R274, R275): integer and binary64
operations, addresses, the link stack and the journal, on one execution and its data TCM. -/

namespace Sys2Proof.Machine

/-! ### Encodings (R274) -/

/-- Format R. -/
def encR (op d a b fn : Nat) : Nat := op * 2 ^ 26 + d * 2 ^ 22 + a * 2 ^ 18 + b * 2 ^ 14 + fn

/-- Format I. -/
def encI (op d a imm : Nat) : Nat := op * 2 ^ 26 + d * 2 ^ 22 + a * 2 ^ 18 + imm

/-- Format J. -/
def encJ (op off : Nat) : Nat := op * 2 ^ 26 + off

/-! ### Operations (R275) -/

/-- An integer operation: the result, and whether it divides by zero; none for an FN that is not listed. -/
def aluOp (fn : Nat) (x y : W64) : Option (W64 × Bool) :=
  let z (v : Nat) : Option (W64 × Bool) := some (BitVec.ofNat 64 v, false)
  match fn with
  | 0 => some (x + y, false)
  | 1 => some (x - y, false)
  | 2 => some (x * y, false)
  | 3 => some (if y = 0 then (0, true) else (x.sdiv y, false))
  | 4 => some (if y = 0 then (0, true) else (x / y, false))
  | 5 => some (if y = 0 then (x, true) else (x.srem y, false))
  | 6 => some (if y = 0 then (x, true) else (x % y, false))
  | 7 => some (x &&& y, false)
  | 8 => some (x ||| y, false)
  | 9 => some (x ^^^ y, false)
  | 10 => some (x <<< (y.toNat % 64), false)
  | 11 => some (x >>> (y.toNat % 64), false)
  | 12 => some (x.sshiftRight (y.toNat % 64), false)
  | 13 => z (b2n (x.slt y))
  | 14 => z (b2n (x.ult y))
  | 15 => some (if y.slt x then y else x, false)
  | 16 => some (if x.slt y then y else x, false)
  | _ => none

/-- Minimum or maximum of IEEE 754-2019: a NaN propagates, −0 lies below +0 (log entry 47). -/
def fMinMax (big : Bool) (a b : Nat) : Nat :=
  match fcmp f64 a b with
  | none => Fp.qnan f64
  | some .lt => if big then b else a
  | some .gt => if big then a else b
  | some .eq => if fSign f64 a != big then a else b

/-- CVTFI: toward zero, saturating, 0 for a NaN. -/
def cvtFI (a : Nat) : Int :=
  match Fp.unpack f64 a with
  | .nan => 0
  | .inf s => if s then -(2 ^ 63) else 2 ^ 63 - 1
  | .fin s m e =>
    let t : Int := if 0 ≤ e then (m * 2 ^ e.toNat : Nat) else (m / 2 ^ (-e).toNat : Nat)
    satInt 64 (if s then -t else t)

/-- A binary64 operation on D, A and B; none for an FN that is not listed. -/
def fpuOp (fn : Nat) (d x y : W64) : Option W64 :=
  let a := x.toNat
  let b := y.toNat
  let r (v : Nat) : Option W64 := some (BitVec.ofNat 64 v)
  match fn with
  | 0 => r (fadd f64 a b)
  | 1 => r (fsub f64 a b)
  | 2 => r (fmul f64 a b)
  | 3 => r (fdiv f64 a b)
  | 4 => r (fsqrt f64 a)
  | 5 => r (fMinMax false a b)
  | 6 => r (fMinMax true a b)
  | 7 => r (fabs f64 a)
  | 8 => r (fneg f64 a)
  | 9 => r (b2n (flt f64 a b))
  | 10 => r (b2n (fle f64 a b))
  | 11 => r (b2n (feq f64 a b))
  | 12 => r (Fp.ofInt f64 x.toInt)
  | 13 => some (BitVec.ofInt 64 (cvtFI a))
  | 14 => r (fconv f32 f64 (a % 2 ^ 32))
  | 15 => r (fconv f64 f32 a)
  | 16 => r (fma f64 a b d.toNat)
  | _ => none

/-! ### One execution -/

/-- What an instruction does to its execution: it goes on with new registers and data, or ends in a task fault of a cause of
R261 with an address. -/
inductive CtrlRes where
  | cont (r : Run) (data : Memory)
  | fault (cause addr : Nat)
  deriving DecidableEq, Repr

/-- Register n; g0 reads as 0 (R274). -/
def Run.get (r : Run) (n : Nat) : W64 := if n = 0 then 0 else vget r.regs n 0

/-- Register n written; writes of g0 are ignored (R274). -/
def Run.set (r : Run) (n : Nat) (v : W64) : Run := if n = 0 then r else { r with regs := vset r.regs n v }

/-- The pc moved on to the next instruction. -/
def Run.step (r : Run) : Run := { r with pc := r.pc + 4 }

/-- The pc moved by a number of instructions from this one. -/
def Run.jump (r : Run) (n : Int) : Run := { r with pc := r.pc + BitVec.ofInt 32 (4 * n) }

/-- The cause of R261 for an access of `n` bytes at an address, if it faults: outside the map, a store into the code TCM, the
journal, misaligned; the first that holds (log entry 48). -/
def accessFault (store : Bool) (ea n : Nat) : Option Nat :=
  if 0x80000 < ea + n then some 1
  else if store && decide (0x40000 < ea + n) then some 2
  else if decide (ea < 0x3C000) && decide (0x34000 < ea + n) then some 3
  else if ea % n ≠ 0 then some 4
  else none

/-- The effective address A + sext(IMM). -/
def effAddr (r : Run) (a : Nat) (imm : BitVec 18) : Nat := (r.get a + imm.signExtend 64).toNat

/-- Size and sign extension of a load by its place from LB to LD. -/
def loadShape : Nat → Nat × Bool
  | 0 => (1, true)
  | 1 => (1, false)
  | 2 => (2, true)
  | 3 => (2, false)
  | 4 => (4, true)
  | 5 => (4, false)
  | _ => (8, false)

/-- A value loaded from the data or code TCM. -/
def loadValue (data code : Memory) (ea n : Nat) (signed : Bool) : W64 :=
  let v := ofLE (if ea < 0x40000 then data.reads ea n else code.reads (ea - 0x40000) n)
  if signed then BitVec.ofInt 64 (sgn (8 * n) v) else BitVec.ofNat 64 v

/-- A load (R275). -/
def ctrlLoad (kind d a : Nat) (imm : BitVec 18) (code : Memory) (r : Run) (data : Memory) : CtrlRes :=
  let ea := effAddr r a imm
  let sh := loadShape kind
  match accessFault false ea sh.1 with
  | some c => .fault c ea
  | none => .cont (r.set d (loadValue data code ea sh.1 sh.2)).step data

/-- A store, journaled while the journal has room (R247). `used` counts the entries of the executions below. -/
def ctrlStore (kind d a : Nat) (imm : BitVec 18) (used : Nat) (r : Run) (data : Memory) : CtrlRes :=
  let ea := effAddr r a imm
  let n := 2 ^ kind
  match accessFault true ea n with
  | some c => .fault c ea
  | none =>
    let r := if 2048 ≤ used + r.journal.length then { r with overflowed := true }
      else { r with journal := ⟨ea, data.reads ea n⟩ :: r.journal }
    .cont r.step (data.writes ea (le n (r.get d).toNat))

/-- A link stack entry pushed; `used` counts the entries of the executions below (R245, R275). -/
def pushLink (g14 : Option W64) (used : Nat) (r : Run) : Option Run :=
  if 64 ≤ used + r.links.length then none else some { r with links := (r.pc + 4, g14) :: r.links }

/-- The comparison of a branch: BEQ, BNE, BLT, BLTU (R275). -/
def branchHolds (kind : Nat) (x y : W64) : Bool :=
  match kind with
  | 0 => x == y
  | 1 => x != y
  | 2 => x.slt y
  | _ => x.ult y

end Sys2Proof.Machine
end

