-- ==== Sys2Proof/Machine/CtrlImage.lean ====
section
/-! DEFINITION. The block image of the control engines (R265, R266): its section table, its checks in the order of
*Validation codes*, and its parsing. -/

namespace Sys2Proof.Machine

/-! ### Sections -/

/-- A section table entry. -/
structure BSec where
  kind : Nat
  engine : Nat
  rsv : Nat
  off : Nat
  len : Nat
  count : Nat
  deriving DecidableEq, Repr

/-- The section table entries that lie before the CRC. -/
def biSecs (im : Bytes) : List BSec :=
  (List.range (min (fld im 20 4) ((im.length - 36) / 16))).map fun k =>
    let at_ := 32 + 16 * k
    ⟨fld im at_ 2, fld im (at_ + 2) 1, fld im (at_ + 3) 1, fld im (at_ + 4) 4, fld im (at_ + 8) 4, fld im (at_ + 12) 4⟩

/-- Entry size of a kind (*Section kinds*). -/
def biSize : Nat → Nat
  | 3 => 32
  | 4 => 16
  | 5 => 8
  | 6 => 16
  | 7 => 16
  | 8 => 16
  | _ => 0

/-- Greatest length in bytes (kinds 1 and 2) or number of entries of a section. -/
def biMax : Nat → Nat
  | 1 => 262144
  | 2 => 163840
  | 3 => 16
  | 4 => 1024
  | 5 => 512
  | 6 => 8192
  | 7 => 512
  | 8 => 16384
  | _ => 0

/-- The number of an engine's section of a kind in image order, from 1, and the section. -/
def biSec (im : Bytes) (kind e : Nat) : Option (Nat × BSec) :=
  ((biSecs im).zipIdx.find? fun x => x.1.kind == kind && x.1.engine == e).map fun x => (x.2 + 1, x.1)

/-- The number of an engine's section of a kind; 0 if the image has none. -/
def biNo (im : Bytes) (kind e : Nat) : Nat := (biSec im kind e).elim 0 (·.1)

/-- The bytes of an engine's CODE or INIT. -/
def biBytes (im : Bytes) (kind e : Nat) : Bytes := (biSec im kind e).elim [] fun x => slice im x.2.off x.2.len

/-- The entries of an engine's section, each as its bytes, with their places. -/
def biEntries (im : Bytes) (kind e : Nat) : List (Bytes × Nat) :=
  match biSec im kind e with
  | some (_, x) =>
    (List.range (min x.count ((im.length - x.off) / max 1 (biSize kind)))).map fun i =>
      (slice im (x.off + biSize kind * i) (biSize kind), i)
  | none => []

/-! ### Parsing -/

/-- A task entry. -/
def biTask (e : Nat) (b : Bytes) : BTask :=
  { engine := e, task := fld b 0 1, prio := fld b 1 1, flags := fld b 2 2, cycle := fld b 4 4, phase := fld b 8 4,
    entry := fld b 12 4, inAddr := fld b 16 4, inLen := fld b 20 2, outLen := fld b 22 2, outAddr := fld b 24 4,
    abortLimit := fld b 28 1 }

/-- The entries of both engines read by `f`. -/
def biAll {α : Type} (im : Bytes) (kind : Nat) (f : Nat → Bytes → α) : List α :=
  [0, 1].flatMap fun e => (biEntries im kind e).map fun x => f e x.1

/-- The image as CTRL reads it. -/
def biParse (im : Bytes) : BImg :=
  { id := fld im 8 4, rev := fld im 12 4, code := Vector.ofFn fun e => biBytes im 1 e.val,
    init := Vector.ofFn fun e => biBytes im 2 e.val, tasks := biAll im 3 biTask,
    ins := biAll im 4 fun e b => ⟨e, fld b 0 1, fld b 1 1, fld b 2 2, fld b 4 4, fld b 8 2, fld b 10 2⟩,
    outs := biAll im 5 fun e b => ⟨e, fld b 0 1, fld b 1 1, fld b 2 2, fld b 4 2⟩,
    insts := biAll im 6 fun e b => ⟨e, fld b 0 4, fld b 4 2, fld b 6 1, fld b 8 4, fld b 12 4⟩,
    types := biAll im 7 fun e b => ⟨e, fld b 0 2, fld b 2 2, fld b 4 4, fld b 8 4, fld b 12 4⟩,
    vars := biAll im 8 fun e b => ⟨e, fld b 0 4, fld b 4 1, fld b 6 1, fld b 8 4⟩, raw := im }

/-! ### Control words (R274, R275) -/

/-- Fields of an instruction word. -/
def wOp (w : Nat) : Nat := w / 2 ^ 26 % 64
def wImm (w : Nat) : Int := sgn 18 w
def wOff (w : Nat) : Int := sgn 26 w

/-- A legal instruction word for a number of TYPES entries: OP and FN as listed, A of LUI zero (R275), and the entry that a
CALLB names exists (R266). Fields that an instruction does not use are not looked at (log entry 45). -/
def wLegal (types w : Nat) : Bool :=
  let op := wOp w
  let fn := w % 2 ^ 14
  if op = 0 ∨ op = 1 then decide (fn ≤ 16)
  else if op = 6 then w / 2 ^ 18 % 16 == 0
  else if op = 0x1E then decide (w % 2 ^ 18 < types)
  else if op = 0x20 then decide (fn ≤ 2)
  else (decide (2 ≤ op) && decide (op ≤ 5)) || (decide (8 ≤ op) && decide (op ≤ 0x0E)) || (decide (0x10 ≤ op) && decide (op ≤ 0x13)) ||
    (decide (0x18 ≤ op) && decide (op ≤ 0x1D)) || op == 0x1F || op == 0x21 || op == 0x3E || op == 0x3F

/-- The places that may follow an instruction at a code offset, in bytes. -/
def wNext (pc : Int) (w : Nat) : List Int :=
  let op := wOp w
  if 0x18 ≤ op ∧ op ≤ 0x1B then [pc + 4, pc + 4 * wImm w]
  else if op = 0x1C then [pc + 4 * wOff w]
  else if op = 0x1D then [pc + 4, pc + 4 * wOff w]
  else if op = 0x1F ∨ op = 0x21 ∨ op = 0x3E ∨ op = 0x3F then []
  else [pc + 4]

/-- Words of CODE reached from a list of offsets, with a bound on the places looked at. Constant pools share the section,
so only these words are instructions (log entry 46). -/
def wReached (code : Bytes) : Nat → List Int → List Nat → List Nat
  | 0, _, seen => seen
  | _, [], seen => seen
  | n + 1, p :: todo, seen =>
    let q := p.toNat
    if p < 0 ∨ code.length < q + 4 ∨ q % 4 ≠ 0 ∨ seen.contains q = true then wReached code n todo seen
    else wReached code n (wNext p (fld code q 4) ++ todo) (q :: seen)

/-! ### Checks (R266) -/

/-- A check of an image: its condition, and the code, section, entry and field reported if it fails. -/
abbrev BCheck := Bool × Nat × Nat × Nat × Nat

/-- Checks of every entry of a section: a condition and a field offset each, reported under a code. -/
def biEach (im : Bytes) (kind code : Nat) (f : Nat → Bytes → Nat → List (Bool × Nat)) : List BCheck :=
  [0, 1].flatMap fun e => (biEntries im kind e).flatMap fun x =>
    (f e x.1 x.2).map fun c => (c.1, code, biNo im kind e, x.2, c.2)

/-- No entry before place `i` has the same value of `f`. -/
def firstOf {β : Type} [BEq β] (l : List (Bytes × Nat)) (i : Nat) (f : Bytes → β) (v : β) : Bool :=
  !(l.any fun x => decide (x.2 < i) && f x.1 == v)

/-- The task entry of an engine and task number. -/
def biTaskOf (im : Bytes) (e t : Nat) : Option BTask := ((biEntries im 3 e).map fun x => biTask e x.1).find? fun x => x.task == t

/-- Reserved bits of the entries (code 0x02): field offset and value that must be 0. -/
def biRsv (kind : Nat) (b : Bytes) : List (Bool × Nat) :=
  match kind with
  | 3 => [(fld b 2 2 / 4 == 0, 2), (fld b 29 3 == 0, 29)]
  | 4 => [(fld b 12 4 == 0, 12)]
  | 5 => [(fld b 6 2 == 0, 6)]
  | 6 => [(fld b 7 1 == 0, 7)]
  | 8 => [(fld b 5 1 == 0, 5), (fld b 7 1 == 0, 7), (fld b 12 4 == 0, 12)]
  | _ => []

/-- Code 0x02. A zero IMAGE_ID counts as a header fault (log entry 46). -/
def biHeader (im : Bytes) : List BCheck :=
  [(fld im 0 4 == 0x31594854, 2, 0, 0, 0), (fld im 4 2 == 0x0100, 2, 0, 0, 4), (fld im 6 2 == 0, 2, 0, 0, 6),
    (fld im 8 4 != 0, 2, 0, 0, 8), (fld im 28 4 == 0, 2, 0, 0, 28)] ++
    (biSecs im).zipIdx.flatMap (fun x =>
      (x.1.rsv == 0, 2, 0, x.2, 3) ::
        (List.range (min x.1.count ((im.length - 4 - x.1.off) / max 1 (biSize x.1.kind)))).flatMap fun i =>
          (biRsv x.1.kind (slice im (x.1.off + biSize x.1.kind * i) (biSize x.1.kind))).map fun c => (c.1, 2, x.2 + 1, i, c.2))

/-- Code 0x03: the section table, each entry with the one before it. -/
def biTable (im : Bytes) : List BCheck :=
  let n := fld im 20 4
  let secs := biSecs im
  [(decide (1 ≤ n) && decide (n ≤ 32) && secs.length == n, 3, 0, 0, 20), (fld im 24 4 == im.length, 3, 0, 0, 24)] ++
    secs.zipIdx.flatMap fun x =>
      let k := x.1
      let low := if x.2 = 0 then 32 + 16 * n else (secs[x.2 - 1]?).elim 0 fun y => y.off + y.len
      let after := x.2 == 0 || (secs[x.2 - 1]?).any fun y => decide (y.kind * 2 + y.engine < k.kind * 2 + k.engine)
      [(decide (1 ≤ k.kind) && decide (k.kind ≤ 8) && after, 3, 0, x.2, 0), (decide (k.engine ≤ 1), 3, 0, x.2, 2),
        (k.off % 8 == 0 && decide (low ≤ k.off), 3, 0, x.2, 4),
        ((if biSize k.kind = 0 then k.count == 0 else k.len == k.count * biSize k.kind), 3, 0, x.2, 12),
        (decide (k.off + k.len ≤ im.length - 4), 3, 0, x.2, 8)]

/-- Code 0x04: sizes and counts, and the sums of the images of an engine. -/
def biSizes (im : Bytes) : List BCheck :=
  (biSecs im).zipIdx.map (fun x =>
    if biSize x.1.kind = 0 then (decide (x.1.len ≤ biMax x.1.kind), 4, 0, x.2, 8)
    else (decide (x.1.count ≤ biMax x.1.kind), 4, 0, x.2, 12)) ++
  [0, 1].flatMap fun e =>
    let ts := biEntries im 3 e
    let upTo (i off : Nat) : Nat := ((ts.take (i + 1)).map fun x => fld x.1 off 2).foldl (· + ·) 0
    ts.flatMap fun x =>
      [(decide (upTo x.2 20 ≤ 32768), 4, biNo im 3 e, x.2, 20), (decide (upTo x.2 22 ≤ 16384), 4, biNo im 3 e, x.2, 22)]

/-- Code 0x05: task entries (R248). -/
def biTasks (im : Bytes) : List BCheck :=
  biEach im 3 5 fun e b i =>
    let ts := biEntries im 3 e
    let t := biTask e b
    [(decide (t.task ≤ 15) && firstOf ts i (fun x => fld x 0 1) t.task, 0),
      (decide (t.prio ≤ 15) && firstOf ts i (fun x => fld x 1 1) t.prio, 1),
      (decide (500 ≤ t.cycle) && decide (t.cycle ≤ 60000000) && t.cycle % 100 == 0, 4),
      (decide (t.phase + 100 ≤ t.cycle) && t.phase % 100 == 0, 8),
      (decide (0x28000 ≤ t.inAddr) && decide (t.inAddr ≤ 0x2FFFF) && t.inAddr % 16 == 0, 16),
      (decide (32 ≤ t.inLen) && decide (t.inLen ≤ 8192) && t.inLen % 16 == 0, 20),
      (decide (16 ≤ t.outLen) && decide (t.outLen ≤ 4096) && t.outLen % 16 == 0, 22),
      (decide (0x30000 ≤ t.outAddr) && decide (t.outAddr ≤ 0x33FFF) && t.outAddr % 16 == 0, 24),
      (decide (1 ≤ t.abortLimit), 28)]

/-- Length of an input source (R254); none for an index out of range. The layout of window page 4 is not given, so its length
bounds nothing (log entry 46). -/
def sourceLen (im : Bytes) (src idx : Nat) : Option Nat :=
  match src with
  | 1 => if idx = 0 then some 1248 else none
  | 2 => if idx ≤ 1 then some 1056 else if idx ≤ 3 then some 544 else if idx = 4 then some (2 ^ 32) else none
  | 3 => if idx = 0 then some 2048 else none
  | 4 => if idx ≤ 7 then some 64 else none
  | 5 => if idx < 32 then (biTaskOf im (idx / 16) (idx % 16)).map (·.outLen) else none
  | 6 => if idx = 0 then some 336 else none
  | _ => none

/-- Bytes of an output map entry by DEST. -/
def destLen : Nat → Nat
  | 1 => 1
  | 2 => 4
  | _ => 32

/-- Outputs of a DEST: 24 digital outputs, 8 PWM outputs, 8 axes. -/
def destCount : Nat → Nat
  | 1 => 24
  | _ => 8

/-- Code 0x06: map entries. -/
def biMaps (im : Bytes) : List BCheck :=
  biEach im 4 6 (fun e b _ =>
    let t := biTaskOf im e (fld b 1 1)
    let len := fld b 10 2
    let src := sourceLen im (fld b 0 1) (fld b 2 2)
    [(decide (1 ≤ fld b 0 1) && decide (fld b 0 1 ≤ 6), 0), (t.isSome, 1), (src.isSome, 2),
      (decide (1 ≤ len) && decide (len ≤ 2048), 10),
      (decide (32 ≤ fld b 8 2) && t.any fun x => decide (fld b 8 2 + len ≤ x.inLen), 8),
      (src.any fun n => decide (fld b 4 4 + len ≤ n), 4)]) ++
  biEach im 5 6 (fun e b _ =>
    let t := biTaskOf im e (fld b 1 1)
    let d := fld b 0 1
    [(decide (1 ≤ d) && decide (d ≤ 3), 0), (t.isSome, 1), (decide (fld b 2 2 < destCount d), 2),
      (t.any fun x => decide (fld b 4 2 + destLen d ≤ x.outLen), 4)])

/-- Code 0x07: an output claimed twice (R257), over both engines. -/
def biClaims (im : Bytes) : List BCheck :=
  let other := biEntries im 5 0
  biEach im 5 7 fun e b i =>
    let key (x : Bytes) : Nat × Nat := (fld x 0 1, fld x 2 2)
    [(firstOf (biEntries im 5 e) i key (key b) && (e == 0 || !other.any fun x => key x.1 == key b), 2)]

/-- Code 0x08: identifiers not unique. A TYPE_INDEX outside TYPES and a KIND or DATA_TYPE outside its range are reported here
too (log entry 46). -/
def biIds (im : Bytes) : List BCheck :=
  let also (kind e : Nat) (v : Nat) : Bool := e == 0 || !(biEntries im kind 0).any fun x => fld x.1 0 4 == v
  biEach im 7 8 (fun e b i => [(firstOf (biEntries im 7 e) i (fun x => fld x 0 4) (fld b 0 4), 0)]) ++
  biEach im 6 8 (fun e b i =>
    let v := fld b 0 4
    [(v != 0 && firstOf (biEntries im 6 e) i (fun x => fld x 0 4) v && also 6 e v, 0),
      (decide (fld b 4 2 < (biEntries im 7 e).length), 4)]) ++
  biEach im 8 8 (fun e b i =>
    let v := fld b 0 4
    [(firstOf (biEntries im 8 e) i (fun x => fld x 0 4) v && also 8 e v, 0), (decide (fld b 4 1 ≤ 3), 4),
      (decide (1 ≤ fld b 6 1) && decide (fld b 6 1 ≤ 6), 6)])

/-- A range lies in a region and meets no range listed before it. -/
def apart (lo hi a n : Nat) (before : List (Nat × Nat)) : Bool :=
  decide (lo ≤ a) && decide (a + n ≤ hi) && before.all fun x => decide (x.1 + x.2 ≤ a) || decide (a + n ≤ x.1)

/-- Code 0x09: instances and images overlap or lie outside their regions. -/
def biSpans (im : Bytes) : List BCheck :=
  biEach im 6 9 (fun e b i =>
    [(fld b 8 4 % 8 == 0 &&
      apart 0 0x28000 (fld b 8 4) (fld b 12 4) (((biEntries im 6 e).take i).map fun x => (fld x.1 8 4, fld x.1 12 4)), 8)]) ++
  biEach im 3 9 (fun e b i =>
    [(apart 0x28000 0x30000 (fld b 16 4) (fld b 20 2) (((biEntries im 3 e).take i).map fun x => (fld x.1 16 4, fld x.1 20 2)), 16),
      (apart 0x30000 0x34000 (fld b 24 4) (fld b 22 2) (((biEntries im 3 e).take i).map fun x => (fld x.1 24 4, fld x.1 22 2)), 24)])

/-- An engine address of an instruction of CODE (R246, R265). -/
def codeAddr (im : Bytes) (e a : Nat) : Bool :=
  decide (0x40000 ≤ a) && decide (a + 4 ≤ 0x40000 + (biBytes im 1 e).length) && a % 4 == 0

/-- Code 0x0A: code. The section is CODE's and the entry the lowest illegal word. -/
def biCode (im : Bytes) : List BCheck :=
  biEach im 3 10 (fun e b _ => [(codeAddr im e (fld b 12 4), 12)]) ++
  biEach im 7 10 (fun e b _ => [(codeAddr im e (fld b 4 4), 4)]) ++
  [0, 1].map fun e =>
    let code := biBytes im 1 e
    let types := biEntries im 7 e
    let starts := ((biEntries im 3 e).map fun x => (fld x.1 12 4 : Int) - 0x40000) ++
      types.map fun x => (fld x.1 4 4 : Int) - 0x40000
    let bad := (wReached code (3 * code.length + 1024) starts []).filter fun q => !wLegal types.length (fld code q 4)
    (bad.isEmpty, 10, biNo im 1 e, (bad.foldl min (2 ^ 32)) / 4, 0)

/-- The validation of a block image: its code, and the section, entry and field of the first failure. SECTION numbers the
image's sections from 1, with 0 for header and table and SECTIONS + 1 for the CRC (log entry 46). -/
def biValidate (im : Bytes) : Nat × Nat × Nat × Nat :=
  let crc : BCheck :=
    (decide (36 ≤ im.length) && crc32c (im.take (im.length - 4)) == fld im (im.length - 4) 4, 1, min (fld im 20 4) 32 + 1, 0, 0)
  let run (l : List BCheck) : Option (Nat × Nat × Nat × Nat) := (l.find? fun c => !c.1).map (·.2)
  let stages : List (Unit → List BCheck) :=
    [fun _ => [crc], fun _ => biHeader im, fun _ => biTable im, fun _ => biSizes im, fun _ => biTasks im, fun _ => biMaps im,
      fun _ => biClaims im, fun _ => biIds im, fun _ => biSpans im, fun _ => biCode im]
  (stages.findSome? fun f => run (f ())).getD (0, 0, 0, 0)

end Sys2Proof.Machine
end

