-- ==== Sys2Proof/Machine/Keys.lean ====
section
/-! DEFINITION. The key slots of the Cloister (R494, R495, R499): a slot holds two shares whose XOR is the key. -/

namespace Sys2Proof.Machine

/-- Two byte strings combined by XOR. -/
def xorBytes (a b : Bytes) : Bytes := (a.zip b).map fun p => p.1 ^^^ p.2

/-- The key in a slot; none if the slot is empty. -/
def slotKey (s : State) (n : Nat) : Option Bytes :=
  (s.sec.slots.find? fun x => x.1 == n).map fun x => xorBytes x.2.share0 x.2.share1

/-- A slot written in a list of ascending slots. -/
def putKeyIn (n : Nat) (k : KeySlot) : List (Nat × KeySlot) → List (Nat × KeySlot)
  | [] => [(n, k)]
  | y :: t => if n < y.1 then (n, k) :: y :: t else if n = y.1 then (n, k) :: t else y :: putKeyIn n k t

/-- A key written into a slot, split under a random mask of the TRNG (R494). -/
def putKey (n attrs : Nat) (key : Bytes) (s : State) : State :=
  let (mask, s) := trngBytes key.length s
  { s with sec := { s.sec with slots := putKeyIn n ⟨xorBytes key mask, mask, attrs⟩ s.sec.slots } }

/-- A slot erased. -/
def eraseKey (n : Nat) (s : State) : State :=
  { s with sec := { s.sec with slots := s.sec.slots.filter fun x => x.1 != n } }

/-- A key derived from K_site for a substation and a generation (R222). -/
def sublDerive (site : Bytes) (label : String) (index gen : Nat) : Bytes :=
  hkdfExpand site (ascii label ++ le 2 index ++ le 1 gen) 32

/-- What the Cloister writes into the substation table for a registration: the uplink and the downlink key under the wrap key;
nothing while K_site or the wrap key is absent (R222, R224). The spec names no wrapping: AES-256-GCM with the number of the wrapping as
nonce and the index and generation as AAD, as records are wrapped under R499 (log entry 108, DESIGN CHOICE). -/
def wrapFor (index gen : Nat) (s : State) : List SublKeys × State :=
  match slotKey s 5, slotKey s 3 with
  | some site, some w =>
    let nonce := le 12 s.subl.wraps
    let c := gcmSeal w nonce (le 2 index ++ le 1 gen)
      (sublDerive site "AKN SUBL up" index gen ++ sublDerive site "AKN SUBL down" index gen)
    ([⟨gen, nonce, c.1, c.2⟩], { s with subl := { s.subl with wraps := s.subl.wraps + 1 } })
  | _, _ => ([], s)

/-- The substation table written at BOOT: the keys of every registered substation, of both generations while two are held (R224,
R228). -/
def fillKeys (s : State) : State :=
  s.subl.entries.foldl (fun s x =>
    let (k, s) := wrapFor x.index x.gen s
    let (old, s) := match x.prevGen with
      | some g => wrapFor x.index g s
      | none => ([], s)
    { s with subl := { s.subl with
        entries := s.subl.entries.map fun y => if y.index = x.index then { y with keys := k ++ old } else y } }) s

/-- The two keys of a substation's generation unwrapped by the ingest engine: from the substation table, with the wrap key
(R224). -/
def sublUnwrap (s : State) (index gen : Nat) : Option Bytes :=
  match s.subl.entries.find? (fun x => x.index == index), slotKey s 3 with
  | some x, some w =>
    match x.keys.find? fun k => k.gen == gen with
    | some k => gcmOpen w k.nonce (le 2 index ++ le 1 gen) k.wrapped k.tag
    | none => none
  | _, _ => none

/-- The uplink key of a substation (R222). -/
def kUp (s : State) (index gen : Nat) : Option Bytes := (sublUnwrap s index gen).map (·.take 32)

/-- The downlink key of a substation (R222). -/
def kDown (s : State) (index gen : Nat) : Option Bytes := (sublUnwrap s index gen).map (·.drop 32)

end Sys2Proof.Machine
end

