-- ==== Sys2Proof/Machine/Subl.lean ====
section
/-! DEFINITION. The substation link and the Concourse (R220 to R244): ingest, confirmation, setpoints, the cut vector and
registration. -/

namespace Sys2Proof.Machine

/-- EST_PERIOD in force, s (R217). -/
def estPeriod (s : State) : Nat := fld s.nmod.roundCfg 0 2

/-- The Concourse processes datagrams (R236). -/
def sublRuns (s : State) : Bool :=
  !s.sys.inReset && (match s.sys.mode with
    | .commission | .run | .reduced | .shadow | .fallback | .service | .safe | .lockdown => true
    | .backup | .boot | .holdup | .fault => false)

/-- The entry of a substation. -/
def sublEntry (s : State) (index : Nat) : Option SublEntry := s.subl.entries.find? fun x => x.index == index

/-- An entry updated. -/
def updSubl (index : Nat) (f : SublEntry → SublEntry) (s : State) : State :=
  { s with subl := { s.subl with entries := s.subl.entries.map fun x => if x.index = index then f x else x } }

/-- The report offset of an entry, µs (R230). -/
def reportOffset (s : State) (index : Nat) : Nat :=
  let p := estPeriod s * 1000000
  let w := min (getP s 0x0512) p
  let g := getP s 0x0513
  let r := (s.subl.entries.filter fun x => decide (x.index < index)).length
  p - w + r * (w - g) / s.subl.entries.length

/-! ### Counting (R232, R242) -/

/-- The six outcomes of a report. -/
inductive RepEnd where
  | accepted
  | duplicate
  | full
  | auth
  | stale
  deriving DecidableEq, Repr

/-- One received report counted with its outcome, in one write (R232). -/
def SublCounts.add (e : RepEnd) (c : SublCounts) : SublCounts :=
  let c := { c with received := c.received + 1 }
  match e with
  | .accepted => { c with accepted := c.accepted + 1 }
  | .duplicate => { c with duplicate := c.duplicate + 1 }
  | .full => { c with full := c.full + 1 }
  | .auth => { c with auth := c.auth + 1 }
  | .stale => { c with stale := c.stale + 1 }

/-- A report's classification ends. -/
def countReport (index : Nat) (e : RepEnd) (s : State) : State :=
  let s := updSubl index (fun x => { x with counts := x.counts.add e }) s
  { s with subl := { s.subl with totals := s.subl.totals.add e } }

/-- A setpoint count of an entry and of the device updated alike (R242). -/
def countSet (index : Nat) (f : SetCounts → SetCounts) (s : State) : State :=
  let s := updSubl index (fun x => { x with sets := f x.sets }) s
  { s with subl := { s.subl with setTotals := f s.subl.setTotals } }

/-- A datagram counted as foreign. -/
def countForeign (s : State) : State := { s with subl := { s.subl with foreign := s.subl.foreign + 1 } }

/-! ### Message checks (R220, R221, R231) -/

/-- The ordering value of a message (R221). -/
def orderOf (d : Bytes) : Nat := fld d 8 4 * 2 ^ 32 + fld d 12 4

/-- The nonce of a message: TYPE, SUBL_INDEX, KEY_GEN, EPOCH, SEQUENCE (R221). -/
def sublNonce (hdr : Bytes) : Bytes := slice hdr 1 1 ++ slice hdr 2 2 ++ slice hdr 4 1 ++ slice hdr 8 4 ++ slice hdr 12 4

/-- Step 5 of R231 for a message of a type and body length: the decrypted body if it holds. -/
def sublOpen (s : State) (x : SublEntry) (type len : Nat) (m : SublMsg) : Option Bytes :=
  let d := m.data
  let gen := fld d 4 1
  if fld d 0 1 != 1 || fld d 1 1 != type || fld d 6 2 != len || d.length != 32 + len ||
      !(gen == x.gen || x.prevGen == some gen) || (x.sourceIp != 0 && m.ip != x.sourceIp) then none
  else
    match kUp s x.index gen with
    | some k => gcmOpen k (sublNonce (d.take 16)) (d.take 16) (slice d 16 len) (slice d (16 + len) 16)
    | none => none

/-- The highest ordering value and the marks that apply to a message: none of them under a new generation, whose first
acceptance restarts the window (R228, R231). -/
def windowOf (x : SublEntry) (gen : Nat) : Option Nat × List Nat :=
  if gen != x.gen || x.prevGen.isNone then (x.highest, x.seen) else (none, [])

/-- Step 6 of R231: none if it decides nothing. -/
def windowCheck (x : SublEntry) (gen v : Nat) : Option RepEnd :=
  match windowOf x gen with
  | (none, _) => none
  | (some h, seen) =>
    if v + 64 ≤ h then some .stale else if v ≤ h && seen.contains v then some .duplicate else none

/-- Step 8 of R231: the message is accepted, the window marks it, and a first message under the new generation drops
the previous one (R228). -/
def windowAccept (gen v : Nat) (x : SublEntry) : SublEntry :=
  let w := windowOf x gen
  let h := max v (w.1.getD v)
  { x with
    prevGen := if gen = x.gen then none else x.prevGen,
    keys := if gen = x.gen then x.keys.filter fun k => k.gen == gen else x.keys,
    highest := some h, seen := (v :: w.2).filter fun u => decide (h < u + 64) }

/-! ### Downlink (R235, R239, R240) -/

/-- A downlink message sealed with its header under K_down (R220 to R222). -/
def sublSeal (k : Bytes) (type index gen epoch seq : Nat) (body : Bytes) : Bytes :=
  let hdr := le 1 1 ++ le 1 type ++ le 2 index ++ le 1 gen ++ le 1 0 ++ le 2 body.length ++ le 4 epoch ++ le 4 seq
  let c := gcmSeal k (sublNonce hdr) hdr body
  hdr ++ c.1 ++ c.2

/-- The EPOCH of a message issued now (R240). -/
def epochNow (s : State) : Nat := min (max (ptpSec s - 946684800) s.subl.epochHigh) 0xFFFFFFFF

/-- A downlink message to an entry, from SUBL_PORT on SUBL_VLAN (R220): sent under the next ordering value, or withheld when SEQUENCE is used up; nothing
when no key can protect it (R240, R42). -/
def sublSend (index type ip port : Nat) (body : Bytes) (s : State) : State × Bool :=
  match sublEntry s index with
  | none => (s, false)
  | some x =>
    match kDown s index x.gen with
    | none => (s, false)
    | some k =>
      let e := epochNow s
      let n := if x.epoch = e then x.nextSeq else 0
      if 0x7FFFFFFF < n then ({ s with subl := { s.subl with withheld := s.subl.withheld + 1 } }, false) else
      let m := sublSeal k type index x.gen e (getP s 0x0121 % 2 * 2 ^ 31 + n) body
      let s := updSubl index (fun x => { x with epoch := e, nextSeq := n + 1 }) s
      ({ s with subl := { s.subl with epochHigh := e }, out := s.out ++ udpFrames .subl (getP s 0x0511) (getP s 0x0510) (some ip) port m }, true)

/-- RETRY_AFTER for a report rejected_full: at most one per entry in 100 ms (R235). -/
def retryAfter (index : Nat) (m : SublMsg) (s : State) : State :=
  match sublEntry s index with
  | none => s
  | some x =>
    if x.lastRetry.any fun t => decide (monoUs s < t + 100000) then
      { s with subl := { s.subl with retrySuppressed := s.subl.retrySuppressed + 1 } }
    else
      let body := le 4 (s.subl.buffer.length * 2 + index % 64 * 50) ++ le 4 (reportOffset s index) ++ le 8 (orderOf m.data)
      let r := sublSend index 2 m.ip m.port body s
      if r.2 then updSubl index (fun x => { x with lastRetry := some (monoUs s) }) r.1 else r.1

/-! ### Ingest (R231 to R237) -/

/-- A SETPOINT_CONFIRM is classified (R241, R242): one that comes after its setpoint has stopped being outstanding changes nothing but
CONFIRM_LATE and the uplink window that accepted it. -/
def confirmMsg (x : SublEntry) (m : SublMsg) (s : State) : State :=
  let rejected := countSet x.index (fun c => { c with rejected := c.rejected + 1 })
  match sublOpen s x 4 16 m with
  | none => rejected s
  | some body =>
    let gen := fld m.data 4 1
    let v := orderOf m.data
    match windowCheck x gen v with
    | some _ => rejected s
    | none =>
      let s := updSubl x.index (windowAccept gen v) s
      match x.outstanding with
      | some (round, at_) =>
        if round = fld body 0 8 ∧ monoUs s ≤ at_ + getP s 0x0515 * 1000 then
          countSet x.index (fun c => { c with confirmed := c.confirmed + 1 })
            (updSubl x.index (fun x => { x with outstanding := none, lastResult := fld body 8 2 }) s)
        else countSet x.index (fun c => { c with late := c.late + 1 }) s
      | none => countSet x.index (fun c => { c with late := c.late + 1 }) s

/-- The message of a datagram received now. -/
def sublMsg (ip port : Nat) (data : Bytes) (s : State) : SublMsg := ⟨ip, port, data, ⟨ptpSec s, ptpNs s⟩⟩

/-- Steps 1 to 4 of R231 at the arrival of a datagram's payload. -/
def sublPayload (ip port : Nat) (data : Bytes) (s : State) : State :=
  let m := sublMsg ip port data s
  let index := fld data 2 2
  match sublEntry s index with
  | none => countForeign s
  | some x =>
    if data.length < 16 then countForeign s
    else if fld data 1 1 = 4 then confirmMsg x m s
    else if 4096 ≤ s.subl.buffer.length then retryAfter index m (countReport index .full s)
    else
      let b := s.subl.buffer ++ [m]
      { s with subl := { s.subl with buffer := b, peak := max s.subl.peak b.length } }

/-- A datagram is for the Concourse: unicast, whole, and on SUBL_PORT and SUBL_VLAN (R220). -/
def forConcourse (s : State) (f : UdpFrag) : Bool :=
  f.unicast && decide (f.vlan = getP s 0x0511) && decide (f.dstPort.toNat = getP s 0x0510) && decide (f.offset = 0) && !f.more

/-- A datagram arrives at the Concourse (R220, R231, R236): what it cannot be for, a fragment among it, is dropped. -/
def sublDatagram (f : UdpFrag) (s : State) : State :=
  if sublRuns s && forConcourse s f then sublPayload f.srcIp.toNat f.srcPort.toNat f.data s else s

/-- Step 7 of R231: the measurement time against the arrival time. -/
def measStale (s : State) (meas at_ : Stamp) : Bool :=
  decide (meas.total + getP s 0x0514 * 1000000 < at_.total) || decide (at_.total + 10000000 < meas.total)

/-- An accepted report is filed if it is later than the filed one (R233). -/
def fileReport (f : Filed) (old : Option Filed) : Option Filed :=
  match old with
  | none => some f
  | some o =>
    if o.meas.total < f.meas.total || (o.meas.total == f.meas.total && decide (o.order < f.order)) then some f else some o

/-- A report filed into the slots of an entry: a slot is written only where the report is filed (R233, R237). -/
def fileSlot (s : State) (f : Filed) (p : Paged (Option Filed)) : Paged (Option Filed) :=
  if fileReport f p.now = p.now then p else p.write s (fileReport f p.now)

/-- Steps 5 to 8 of R231 for the report at the head of the buffer. -/
def classify (x : SublEntry) (m : SublMsg) (s : State) : State :=
  match sublOpen s x 1 96 m with
  | none => countReport x.index .auth s
  | some body =>
    let gen := fld m.data 4 1
    let v := orderOf m.data
    match windowCheck x gen v with
    | some e => countReport x.index e s
    | none =>
      let meas : Stamp := ⟨fld body 0 6, fld body 8 4⟩
      if measStale s meas m.at_ then countReport x.index .stale s
      else
        let s := countReport x.index .accepted s
        updSubl x.index (fun x => { windowAccept gen v x with
          addr := some (m.ip, m.port), filed := fileSlot s ⟨meas, v, body⟩ x.filed }) s

/-- REPORT_CLASSIFICATION: the ingest engine takes the oldest report of the buffer (R231). A report whose entry has been
removed meanwhile is foreign (R229). -/
def reportClassification (s : State) : State :=
  if !sublRuns s then s else
  match s.subl.buffer with
  | [] => s
  | m :: rest =>
    let s := { s with subl := { s.subl with buffer := rest } }
    match sublEntry s (fld m.data 2 2) with
    | none => countForeign s
    | some x => classify x m s

/-! ### The cut (R237, R238) -/

/-- Every entry's current slot is frozen, as it stood before the tick of the cut (R237). -/
def freezeReports (s : State) : State :=
  { s with subl := { s.subl with entries := s.subl.entries.map fun x => { x with frozen := x.filed.start s } } }

/-- The cut entry of a frozen slot: its flags, age and body (R238). -/
def cutEntry (maxAge : Nat) (cut : Stamp) (x : SublEntry) : Bytes :=
  match x.frozen with
  | some f =>
    let aged := decide (f.meas.total + maxAge * 1000000 < cut.total)
    le 2 x.index ++ le 2 (2 * b2n aged + 1) ++ le 4 (min 0xFFFFFFFF ((cut.total - f.meas.total) / 1000)) ++ fit 96 f.body
  | none => le 2 x.index ++ le 2 0 ++ le 4 0xFFFFFFFF ++ zeros 96

/-- The section of the cut vector is filled in ascending SUBL_INDEX and COMPLETE is set (R238). -/
def sealCut (s : State) : State :=
  let c := s.subl.cut
  transfer iConcourse (.bank 1) (64 * s.subl.entries.length) { s with subl := { s.subl with
      sealedUs := monoUs s
      cut := { c with
        subl := s.subl.entries.map fun x => (x.index, cutEntry (getP s 0x0514) c.at_ x), complete := true } } }

/-! ### Setpoints (R239, R242) -/

/-- Setpoint issue is enabled (R239, R39, R42). -/
def setpointModes (s : State) : Bool :=
  !s.sys.inReset && (match s.sys.mode with
    | .run | .reduced | .fallback | .service => true
    | _ => false)

/-- The staged supply temperature, differential pressure and comfort temperature of a registered substation; the manual gives
none for one that the model of the round does not hold: free values (log entry 68). -/
def staged (s : State) (index : Nat) : (Nat × Nat × Nat) × State :=
  match s.nmod.staging.entries.find? fun e => e.1 == index with
  | some (_, v) => (v, s)
  | none =>
    let (t, s) := openVal 66 s
    let (dp, s) := openVal 66 s
    let (comfort, s) := openVal 66 s
    ((t, dp, comfort), s)

/-- One SETPOINT to an entry with a known address; the older one expires (R239, R242). -/
def sendSetpoint (s : State) (x : SublEntry) : State :=
  match x.addr with
  | none => s
  | some (ip, port) =>
    let g := s.nmod.staging
    let ((t, dp, comfort), s) := staged s x.index
    let body := le 8 g.round ++ le 8 t ++ le 8 dp ++ le 8 comfort ++ le 4 (reportOffset s x.index) ++ le 2 g.status ++
      le 1 g.source ++ le 1 0 ++ le 6 (g.cutSec + getP s 0x0516) ++ le 2 0
    let r := sublSend x.index 3 ip port body s
    if r.2 then
      let s := if x.outstanding.isSome then countSet x.index (fun c => { c with expired := c.expired + 1 }) r.1 else r.1
      countSet x.index (fun c => { c with issued := c.issued + 1 })
        (updSubl x.index (fun x => { x with outstanding := some (g.round, monoUs s) }) s)
    else r.1

/-- SETPOINT_ISSUE: once for each round that published with a status other than NO_SOLUTION (R239). The mode alone enables it, as in
R190. -/
def setpointIssue (s : State) : State :=
  if s.nmod.staging.fresh && setpointModes s then
    let s := { s with nmod := { s.nmod with staging := { s.nmod.staging with fresh := false } } }
    if s.nmod.staging.status = stNoSolution then s else s.subl.entries.foldl sendSetpoint s
  else s

/-- CONFIRM_TIMEOUT_EXPIRY: the outstanding setpoint of an entry expires once CONFIRM_TIMEOUT has passed (R242). -/
def confirmTimeout (index : Nat) (s : State) : State :=
  match sublEntry s index with
  | none => s
  | some x =>
    match x.outstanding with
    | some (_, at_) =>
      if at_ + getP s 0x0515 * 1000 < monoUs s then
        countSet index (fun c => { c with expired := c.expired + 1 }) (updSubl index (fun x => { x with outstanding := none }) s)
      else s
    | none => s

/-- The place of a substation's SEQUENCE under a key generation in what is saved (R240). -/
def seqPlace (index gen : Nat) : Nat := index * 256 + gen

/-- DOWNLINK_STATE_SAVE (R240). -/
def downlinkSave (s : State) : State :=
  if !sublRuns s then s else
  let q := s.subl.entries.foldl (fun t x => tableSet (fun _ => 0) t (seqPlace x.index x.gen) x.nextSeq)
    (s.subl.left.foldl (fun t x => tableSet (fun _ => 0) t (seqPlace x.1 x.2.1) x.2.2.2) s.subl.seqSaved)
  { s with subl := { s.subl with
      epochSaved := s.subl.epochHigh, seqSaved := if s.subl.epochHigh = 0xFFFFFFFF then q else s.subl.seqSaved } }

/-! ### Registration (R227 to R229) -/

/-- A registration put among the entries in ascending SUBL_INDEX. -/
def insertEntry (x : SublEntry) : List SublEntry → List SublEntry
  | [] => [x]
  | y :: t => if x.index < y.index then x :: y :: t else if x.index = y.index then x :: t else y :: insertEntry x t

/-- SUBL_STATUS body (R243). -/
def sublStatusBody (s : State) (x : SublEntry) : Bytes :=
  let c := x.counts
  let b := (s.subl.buffer.filter fun m => fld m.data 2 2 == x.index).length
  le 2 x.index ++ le 1 x.gen ++ le 1 (2 * b2n x.prevGen.isSome + b2n x.addr.isSome) ++
    le 4 (x.addr.elim 0 (·.1)) ++ le 8 x.subId ++
    le 4 c.received.toNat ++ le 4 c.accepted.toNat ++ le 4 c.duplicate.toNat ++ le 4 c.full.toNat ++
    le 4 c.auth.toNat ++ le 4 c.stale.toNat ++ le 4 b ++ le 4 (reportOffset s x.index) ++ le 8 (x.highest.getD 0) ++
    le 6 (x.filed.now.elim 0 (·.meas.sec)) ++ le 2 x.lastResult ++
    le 4 x.sets.issued.toNat ++ le 4 x.sets.confirmed.toNat ++ le 4 x.sets.expired.toNat ++ le 4 x.sets.late.toNat ++
    le 4 x.sets.rejected.toNat ++ le 4 0

/-- The ordering that a generation resumes, if an entry has used it before (R240). -/
def leftOf (s : State) (index gen : Nat) : Option (Nat × Nat) :=
  (s.subl.left.find? fun l => l.1 == index && l.2.1 == gen).map fun l => l.2.2

/-- A first registration as it comes into force (R227, R231, R240). -/
def newEntry (o : SublOp) (s : State) : SublEntry :=
  let l := (leftOf s o.index o.gen).getD (0, 0)
  { index := o.index, gen := o.gen, prevGen := none, sourceIp := o.sourceIp, subId := o.subId, highest := none,
    seen := [], addr := none, counts := SublCounts.zero, sets := SetCounts.zero, keys := o.keys, filed := .both none,
    frozen := none, outstanding := none, lastResult := 0xFFFF, epoch := l.1, nextSeq := l.2, lastRetry := none }

/-- A replacement as it comes into force (R228). Under a generation used before, SEQUENCE resumes where it stood, so that no nonce
repeats (R240). -/
def replaced (o : SublOp) (s : State) (x : SublEntry) : SublEntry :=
  if x.gen = o.gen then { x with sourceIp := o.sourceIp, subId := o.subId }
  else
    { x with
      gen := o.gen, prevGen := some x.gen, sourceIp := o.sourceIp, subId := o.subId,
      keys := o.keys ++ x.keys.filter fun k => k.gen == x.gen,
      highest := if x.prevGen.isSome then none else x.highest, seen := if x.prevGen.isSome then [] else x.seen,
      nextSeq := if s.subl.epochHigh = 0xFFFFFFFF then ((leftOf s o.index o.gen).getD (0, 0)).2 else x.nextSeq }

/-- A registration or replacement comes into force (R227, R228). -/
def register (o : SublOp) (s : State) : State :=
  let old := sublEntry s o.index
  let x := match old with
    | some x => replaced o s x
    | none => newEntry o s
  let past := match old with
    | some y => if y.gen = o.gen then [] else [(y.index, y.gen, y.epoch, y.nextSeq)]
    | none => []
  { s with subl := { s.subl with
      entries := insertEntry x s.subl.entries,
      left := (s.subl.left.filter fun l => !(l.1 == o.index && l.2.1 == o.gen)) ++ past } }

/-- A removal comes into force: the entry goes, an outstanding setpoint expires, and its counts stay in the totals
(R229, R232, R242). -/
def unregister (index : Nat) (s : State) : State :=
  match sublEntry s index with
  | none => s
  | some x =>
    let s := if x.outstanding.isSome then countSet index (fun c => { c with expired := c.expired + 1 }) s else s
    { s with subl := { s.subl with
        entries := s.subl.entries.filter fun y => y.index != index,
        left := s.subl.left ++ [(index, x.gen, x.epoch, x.nextSeq)] } }

/-- A registration or removal at the cut, and the reply to its command (R227, R229). -/
def applySublOp (s : State) (c : SublOp × Nat) : State :=
  let o := c.1
  let mine : Wait → Bool := fun w => w == .sublCut c.2
  if o.remove then
    let body := match sublEntry s o.index with
      | some x => sublStatusBody s x
      | none => []
    completeAll mine stOK false body (unregister o.index s)
  else completeAll mine stOK false [] (register o s)

/-- The registrations and removals that wait take effect (R227, R229). -/
def sublOps (s : State) : State :=
  let ops := s.subl.ops
  ops.zipIdx.foldl applySublOp { s with subl := { s.subl with ops := [] } }

/-- The registration that a command sees: those in force with the ones that wait for the cut applied. -/
def registered (s : State) (index : Nat) : Bool :=
  match (s.subl.ops.filter fun o => o.index == index).getLast? with
  | some o => !o.remove
  | none => (sublEntry s index).isSome

/-- SUBL_REGISTER (R227). The 2,048 indices bound the registered substations. -/
def effRegister (p : Bytes) (s : State) : CmdRes :=
  let i := fld p 0 2
  let rep := bit (fld p 3 1) 0
  let (k, s') := wrapFor i (fld p 2 1) s
  checked [(decide (i < 2048) && (registered s i == rep), 0), (decide (fld p 3 1 < 2), 3), (allZero (slice p 16 8), 16)]
    (.wait (.sublCut s.subl.ops.length) { s' with subl := { s'.subl with
      ops := s.subl.ops ++ [⟨i, false, fld p 2 1, fld p 4 4, fld p 8 8, k⟩] } })

/-- SUBL_UNREGISTER (R229). -/
def effUnregister (p : Bytes) (s : State) : CmdRes :=
  let i := fld p 0 2
  checked [(registered s i, 0), (allZero (slice p 2 2), 2)]
    (.wait (.sublCut s.subl.ops.length) { s with subl := { s.subl with ops := s.subl.ops ++ [⟨i, true, 0, 0, 0, []⟩] } })

/-- SUBL_STATUS (R243). -/
def effSublStatus (p : Bytes) (s : State) : CmdRes :=
  match sublEntry s (fld p 0 2) with
  | none => .badParam 0
  | some x => checked [(allZero (slice p 2 2), 2)] (.ok (sublStatusBody s x) s)

/-- BUFFER_STATE, and its read, which resets PEAK to the current level (R244). -/
def bufferState (s : State) : Nat := s.subl.peak * 65536 + s.subl.buffer.length
def bufferRead (s : State) : State := { s with subl := { s.subl with peak := s.subl.buffer.length } }

/-- What the Concourse holds in Atrium bank 2 is lost at a main reset; registrations stay, and the downlink ordering resumes
above every value used (R231, R239, R240). -/
def sublBoot (s : State) : State :=
  let hi := min (s.subl.epochSaved + 61) 0xFFFFFFFF
  let capped := hi == 0xFFFFFFFF
  let resume (i g : Nat) : Nat := tableGet (fun _ => 0) s.subl.seqSaved (seqPlace i g) + 4096
  { s with subl := { s.subl with
      entries := s.subl.entries.map fun x => { x with
        highest := none, seen := [], addr := none, counts := SublCounts.zero, sets := SetCounts.zero, keys := [], filed := .both none,
        frozen := none, outstanding := none, lastResult := 0xFFFF, lastRetry := none,
        epoch := if capped then hi else 0, nextSeq := if capped then resume x.index x.gen else 0 },
      ops := [], buffer := [], peak := 0, foreign := 0, retrySuppressed := 0, totals := SublCounts.zero,
      setTotals := SetCounts.zero, withheld := 0, epochHigh := hi,
      left := if capped then s.subl.left.map fun l => (l.1, l.2.1, hi, resume l.1 l.2.1) else [],
      cut := CutVec.empty, prevCut := CutVec.empty, lastCut := none } }

end Sys2Proof.Machine
end

