-- ==== Sys2Proof/Machine/Mizon.lean ====
section
/-! DEFINITION. The Mizon image (R105, R120 to R126): its sections, parsing and validation. -/

namespace Sys2Proof.Machine

/-! ### Layout (R122, R123) -/

/-- Entry sizes of sections 1 to 12 in image order. -/
def mzSize : Nat → Nat
  | 1 => 16
  | 2 => 16
  | 3 => 32
  | 4 => 24
  | 5 => 48
  | 6 => 48
  | 7 => 32
  | 8 => 88
  | 9 => 48
  | 10 => 48
  | 11 => 48
  | 12 => 24
  | _ => 0

/-- Offset in the header of the count of a section. -/
def mzCountAt : Nat → Nat
  | 1 => 60
  | 2 => 48
  | 3 => 16
  | 4 => 20
  | 5 => 24
  | 6 => 28
  | 7 => 32
  | 8 => 52
  | 9 => 36
  | 10 => 40
  | 11 => 44
  | 12 => 56
  | _ => 0

/-- Capacity of the counts in header order (R123): the header offset, and the greatest count. Pipes are bounded by the
branches that must name them. -/
def mzCap : List (Nat × Nat) :=
  [(16, 16384), (20, 24576), (24, 24576), (28, 256), (32, 1024), (36, 2048), (40, 16), (44, 8), (48, 64), (52, 64),
   (56, 16384), (60, 16)]

/-- Entries of a section. -/
def mzCount (im : Bytes) (sec : Nat) : Nat := fld im (mzCountAt sec) 4

/-- Offset of a section: the header and the sections before it. -/
def mzBase (im : Bytes) (sec : Nat) : Nat :=
  (List.range sec).foldl (fun a k => if k = 0 then a else a + mzSize k * mzCount im k) 64

/-- An entry of a section. -/
def mzEntry (im : Bytes) (sec i : Nat) : Bytes := slice im (mzBase im sec + mzSize sec * i) (mzSize sec)

/-- The length that the counts imply, CRC included. -/
def mzLength (im : Bytes) : Nat := mzBase im 13 + 4

/-- The entries of a section. -/
def mzEntries (im : Bytes) (sec : Nat) : List Bytes := (List.range (mzCount im sec)).map (mzEntry im sec)

/-- An image as NMOD reads it. -/
def mzParse (im : Bytes) : Mizon :=
  { id := fld im 8 4, rev := fld im 12 4,
    zones := (mzEntries im 1).map fun e => fld e 0 8,
    stations := (mzEntries im 2).map fun e => ⟨fld e 0 4, fld e 8 8⟩,
    nodes := (mzEntries im 3).map fun e =>
      ⟨fld e 0 4, fld e 4 1, fld e 5 1, fld e 6 2, fld e 8 8, fld e 16 8, fld e 24 8⟩,
    branches := (mzEntries im 4).map fun e => ⟨fld e 0 4, fld e 4 2, fld e 6 2, fld e 8 1, fld e 10 2, fld e 16 8⟩,
    pipes := (mzEntries im 5).map fun e =>
      ⟨fld e 0 8, fld e 8 8, fld e 16 8, fld e 24 8, fld e 32 8, fld e 40 2⟩,
    pumps := (mzEntries im 6).map fun e => ⟨fld e 0 1, fld e 8 8, fld e 16 8, fld e 24 8, fld e 32 8, fld e 40 8⟩,
    valves := (mzEntries im 7).map fun e =>
      ⟨fld e 0 1, bit (fld e 1 1) 0, fld e 2 1, fld e 8 8, fld e 16 8, fld e 24 8⟩,
    tables := (mzEntries im 8).map fun e => (List.range 11).map fun k => fld e (8 * k) 8,
    substs := (mzEntries im 9).map fun e =>
      ⟨fld e 0 2, bit (fld e 2 2) 1, bit (fld e 2 2) 0, fld e 8 8, fld e 16 8, fld e 24 8, fld e 32 8, fld e 40 8⟩,
    plants := (mzEntries im 10).map fun e => ⟨fld e 0 1, fld e 8 8, fld e 16 8, fld e 24 8, fld e 32 8, fld e 40 8⟩,
    stores := (mzEntries im 11).map fun e =>
      ⟨fld e 0 1, fld e 2 2, fld e 8 8, fld e 16 8, fld e 24 8, fld e 32 8, fld e 40 8⟩,
    binds := (mzEntries im 12).map fun e =>
      ⟨fld e 0 1, fld e 1 1, fld e 2 2, fld e 4 1, fld e 5 1, fld e 6 2, fld e 8 8⟩,
    raw := im }

/-! ### Numbers -/

/-- The binary64 of an integer. -/
def fNat (n : Nat) : Nat := Fp.ofInt f64 (n : Int)

/-- The binary64 nearest to a decimal fraction `n / d`. -/
def fRat (n : Int) (d : Nat) : Nat := Fp.ofRatio f64 n d

/-- A finite value within bounds given as ratios over `d`. -/
def inRange (v : Nat) (lo hi : Int) (d : Nat) : Bool :=
  fFinite f64 v && fle f64 (fRat lo d) v && fle f64 v (fRat hi d)

/-- A finite value greater than 0 and at most a bound. -/
def posTo (v : Nat) (hi : Int) : Bool := inRange v 0 hi 1 && flt f64 0 v

/-! ### Validation (R126) -/

/-- A failure: section, entry, field offset. -/
abbrev MzErr := Nat × Nat × Nat

/-- The first failure of a list of checks of one entry, each a condition with its field. -/
def firstField (sec i : Nat) (cs : List (Bool × Nat)) : Option MzErr := (firstBad cs).map fun off => (sec, i, off)

/-- The entries of a section that lie whole within the received bytes, the CRC apart. -/
def mzPlaced (im : Bytes) (sec : Nat) : Nat := min (mzCount im sec) ((im.length - 4 - mzBase im sec) / mzSize sec)

/-- The first failure over the placed entries of a section. -/
def overPlaced (im : Bytes) (sec : Nat) (f : Nat → Bytes → List (Bool × Nat)) : Option MzErr :=
  (List.range (mzPlaced im sec)).findSome? fun i => firstField sec i (f i (mzEntry im sec i))

/-- The first failure over the entries of a section. -/
def overEntries (im : Bytes) (sec : Nat) (f : Nat → Bytes → List (Bool × Nat)) : Option MzErr :=
  ((mzEntries im sec).zipIdx).findSome? fun e => firstField sec e.2 (f e.2 e.1)

/-- The first failure over several sections in image order. -/
def overSections (l : List (Option MzErr)) : Option MzErr := l.findSome? id

/-- The first entry of a section whose identifier has stood before, the identifier being the first `n` bytes. -/
def dupEntry (im : Bytes) (sec n : Nat) : Option MzErr :=
  let ids := (mzEntries im sec).map fun e => fld e 0 n
  ((List.range ids.length).find? fun i => (ids.take i).contains (nth ids i 0)).map fun i => (sec, i, 0)

/-- Reserved fields of every section (code 0x02): an image whose length differs from what its counts imply is checked as far as its
entries lie within it (log entry 32). -/
def mzReserved (im : Bytes) : Option MzErr :=
  overSections [
    overPlaced im 1 fun _ e => [(fld e 8 8 == 0, 8)],
    overPlaced im 2 fun _ e => [(fld e 4 4 == 0, 4)],
    overPlaced im 4 fun _ e => [(fld e 9 1 == 0, 9), (fld e 12 4 == 0, 12)],
    overPlaced im 5 fun _ e => [(fld e 42 6 == 0, 42)],
    overPlaced im 6 fun _ e => [(fld e 1 7 == 0, 1)],
    overPlaced im 7 fun _ e => [(decide (fld e 1 1 < 2), 1), (fld e 3 5 == 0, 3)],
    overPlaced im 9 fun _ e => [(decide (fld e 2 2 < 4), 2), (fld e 4 4 == 0, 4)],
    overPlaced im 10 fun _ e => [(fld e 1 7 == 0, 1)],
    overPlaced im 11 fun _ e => [(fld e 1 1 == 0, 1), (fld e 4 4 == 0, 4)],
    overPlaced im 12 fun _ e => [(fld e 16 8 == 0, 16)]]

/-- The section of an element type (R105). -/
def typeSection : Nat → Option Nat
  | 1 => some 5
  | 2 => some 6
  | 3 => some 7
  | 4 => some 9
  | 5 => some 10
  | 6 => some 11
  | _ => none

/-- Element references (code 0x07). A TYPE outside 1 to 6 has no section; it is reported at TYPE (log entry 32). -/
def mzElements (im : Bytes) : Option MzErr :=
  let bs := (mzEntries im 4).map fun e => (fld e 8 1, fld e 10 2)
  let bad := (List.range bs.length).findSome? fun i =>
    let b := nth bs i (0, 0)
    match typeSection b.1 with
    | none => some (4, i, 8)
    | some sec => if mzCount im sec ≤ b.2 || (bs.take i).contains b then some (4, i, 10) else none
  let unnamed (t sec : Nat) : Option MzErr :=
    ((List.range (mzCount im sec)).find? fun k => !bs.contains (t, k)).map fun k => (sec, k, 0)
  overSections [bad, unnamed 1 5, unnamed 2 6, unnamed 3 7, unnamed 4 9, unnamed 5 10, unnamed 6 11]

/-- Endpoint sides (code 0x08). -/
def mzSides (im : Bytes) : Option MzErr :=
  let side (n : Nat) : Nat := fld (mzEntry im 3 n) 4 1
  overEntries im 4 fun _ e =>
    let f := side (fld e 4 2)
    let t := side (fld e 6 2)
    match fld e 8 1 with
    | 4 => [(f == 0, 4), (t == 1, 6)]
    | 5 => [(f == 1, 4), (t == 0, 6)]
    | 6 => [(f == 0, 4), (t == 1, 6)]
    | _ => [(f == t || f == 2 || t == 2, 6)]

/-- Branches that have an opening binding. -/
def hasBind (m : Mizon) (qty target : Nat) : Bool := m.binds.any fun b => b.qty == qty && b.target == target

/-- The element of a branch is a substation. -/
def isSubst (m : Mizon) (b : Nat) : Bool := (m.branches[b]?).any fun x => x.type == 4

/-- A node takes a boundary value (R117): the TO node of a plant or substation, or the FROM node of a prosumer. -/
def isBoundary (m : Mizon) (n : Nat) : Bool :=
  m.branches.any fun b =>
    (b.dst == n && (b.type == 5 || b.type == 4)) ||
      (b.src == n && b.type == 4 && ((m.substs[b.elem]?).any fun x => x.prosumer))

/-- The role of a binding is an exact input (R120). -/
def isExact (m : Mizon) (b : MBind) : Bool :=
  match b.qty with
  | 1 => (m.nodes[b.target]?).any fun n => n.kind == 1
  | 3 => isSubst m b.target && !hasBind m 5 b.target
  | 5 => true
  | 6 => true
  | 7 => true
  | _ => false

/-- SIGMA fits the role; a boundary value and a layer value may have any (log entry 32). -/
def sigmaOk (m : Mizon) (b : MBind) : Bool :=
  fFinite f64 b.sigma && fle f64 0 b.sigma &&
    (if isExact m b then feq f64 b.sigma 0
     else b.qty == 9 || (b.qty == 2 && isBoundary m b.target) || flt f64 0 b.sigma)

/-- The greatest SOURCE_INDEX of a source (R120). -/
def srcMax : Nat → Nat
  | 1 => 2047
  | 2 => 15
  | 3 => 15
  | _ => 7

/-- Field ranges (code 0x09), in image order. -/
def mzRanges (im : Bytes) (m : Mizon) : Option MzErr :=
  let r (e : Bytes) (off : Nat) (lo hi : Int) (d : Nat) : Bool × Nat := (inRange (fld e off 8) lo hi d, off)
  overSections [
    firstField 0 0 [(fld im 8 4 != 0, 8)],
    overEntries im 1 fun _ e => [r e 0 (-20) 40 1],
    overEntries im 2 fun _ e => [r e 8 0 10000000 1],
    overEntries im 3 fun _ e =>
      [(decide (fld e 4 1 ≤ 2), 4), (decide (fld e 5 1 ≤ 1), 5), r e 8 (-500) 5000 1,
       r e 16 0 (if fld e 5 1 = 1 then 4000000 else 0) 1, r e 24 (-100) 100 1],
    overEntries im 4 fun _ e => [(fFinite f64 (fld e 16 8), 16)],
    overEntries im 5 fun _ e =>
      [r e 0 1 200000 10, r e 8 10 2000 1000,
       (fFinite f64 (fld e 16 8) && fle f64 0 (fld e 16 8) &&
         fle f64 (fld e 16 8) (fmul f64 (fRat 5 100) (fld e 8 8)), 16),
       r e 24 0 10 1, r e 32 0 1000 1],
    overEntries im 6 fun _ e =>
      [(posTo (fld e 8 8) 2500000, 8), (fFinite f64 (fld e 16 8), 16),
       (fFinite f64 (fld e 24 8) && fle f64 (fld e 24 8) 0, 24), (posTo (fld e 32 8) 500, 32), r e 40 5 100 100],
    overEntries im 7 fun _ e =>
      [(decide (fld e 0 1 ≤ 2), 0), (fld e 2 1 == 0 || fld e 0 1 == 2, 2), r e 8 1 100000 10,
       (fld e 0 1 == 2 || inRange (fld e 16 8) 10 1000 1, 16), r e 24 0 1 1],
    overEntries im 8 fun _ e => (List.range 11).map fun k =>
      let v := fld e (8 * k) 8
      (fFinite f64 v && (if k = 0 then fle f64 (fRat 1 1000) v else fle f64 (fld e (8 * (k - 1)) 8) v) &&
        (k != 10 || feq f64 v (fNat 1)), 8 * k),
    overEntries im 9 fun _ e =>
      [(decide (fld e 0 2 ≤ 2047), 0), r e 8 1 10000 10, r e 16 0 1000000000 1, r e 24 0 1000000 1,
       r e 32 0 20000000 1, r e 40 10 1000 1],
    overEntries im 10 fun _ e =>
      [(decide (fld e 0 1 ≤ 4), 0), r e 8 0 1000000000 1,
       (fFinite f64 (fld e 16 8) && fle f64 0 (fld e 16 8) && fle f64 (fld e 16 8) (fld e 24 8), 16),
       (posTo (fld e 24 8) 500000000, 24), r e 32 20 180 1, (posTo (fld e 40 8) 2000, 40)],
    overEntries im 11 fun _ e =>
      [(decide (4 ≤ fld e 0 1) && decide (fld e 0 1 ≤ 16), 0), r e 8 1 100000 1, r e 16 0 1000000 1,
       (fFinite f64 (fld e 24 8) && flt f64 0 (fld e 24 8), 24), (fFinite f64 (fld e 32 8) && flt f64 0 (fld e 32 8), 32),
       r e 40 0 1000000000 1],
    overEntries im 12 fun i e =>
      [(decide (1 ≤ fld e 0 1) && decide (fld e 0 1 ≤ 4), 0), (decide (fld e 2 2 ≤ srcMax (fld e 0 1)), 2),
       (decide (1 ≤ fld e 4 1) && decide (fld e 4 1 ≤ 9), 4), (fld e 5 1 == 0 || fld e 4 1 == 9, 5),
       ((m.binds[i]?).all (sigmaOk m), 8)]]

/-- Indices (code 0x0A). -/
def mzIndices (im : Bytes) : Option MzErr :=
  let z := mzCount im 1
  overSections [
    overEntries im 3 fun _ e => [(decide (fld e 6 2 < z), 6)],
    overEntries im 5 fun _ e => [(decide (fld e 40 2 ≤ 1024), 40)],
    overEntries im 6 fun _ e => [(decide (fld e 0 1 < mzCount im 2), 0)],
    overEntries im 7 fun _ e => [(fld e 0 1 != 2 || decide (fld e 2 1 < mzCount im 8), 2)],
    overEntries im 11 fun _ e => [(decide (fld e 2 2 < z), 2)]]

/-- The nodes reached from a set in one pass over the branches, either way. -/
def spread (m : Mizon) (seen : List Nat) : List Nat :=
  m.branches.foldl (fun a b =>
    if a.contains b.src && !a.contains b.dst then b.dst :: a
    else if a.contains b.dst && !a.contains b.src then b.src :: a else a) seen

/-- The nodes connected to a set. -/
def reachAll (m : Mizon) : Nat → List Nat → List Nat
  | 0, seen => seen
  | n + 1, seen =>
    let next := spread m seen
    if next.length = seen.length then seen else reachAll m n next

/-- Connection to a pressure reference node (code 0x0C, R106). -/
def mzConnected (m : Mizon) : Option MzErr :=
  let refs := (List.range m.nodes.length).filter fun n => (m.nodes[n]?).any fun x => x.kind == 1
  let seen := reachAll m m.nodes.length refs
  ((List.range m.nodes.length).find? fun n => !seen.contains n).map fun n => (3, n, 0)

/-- The quantity that a field of a source may bind: a substation field by *Report fields*, the one value of an analog
input any, a thermal field by its quantity, an axis opening (R120, R225, R375, R404). -/
def fieldFits (src field qty : Nat) : Bool :=
  match src, field with
  | 1, 0 => qty == 2
  | 1, 1 => qty == 2
  | 1, 2 => qty == 3
  | 1, 3 => qty == 4
  | 1, 4 => qty == 1
  | 1, 5 => qty == 1
  | 1, 6 => qty == 8
  | 1, 7 => qty == 5
  | 2, 0 => true
  | 3, 0 => qty == 3
  | 3, 1 => qty == 2
  | 3, 2 => qty == 2
  | 3, 3 => qty == 8
  | 4, 0 => qty == 5
  | _, _ => false

/-- The target of a binding fits its quantity. -/
def targetFits (m : Mizon) (b : MBind) : Bool :=
  let type := (m.branches[b.target]?).elim 0 (·.type)
  match b.qty with
  | 1 => decide (b.target < m.nodes.length)
  | 2 => decide (b.target < m.nodes.length)
  | 3 => decide (b.target < m.branches.length)
  | 4 => decide (b.target < m.branches.length)
  | 5 => type == 3 || type == 4
  | 6 => type == 2
  | 7 => decide (b.target < m.zones.length)
  | 8 => type == 4 || type == 5 || type == 6
  | 9 => type == 6 && ((m.branches[b.target]?).bind fun x => m.stores[x.elem]?).any fun x => decide (b.sub < x.layers)
  | _ => false

/-- Bindings (code 0x0D): source, field, quantity and target fit, and an exact input has one binding. -/
def mzBindings (m : Mizon) : Option MzErr :=
  (m.binds.zipIdx).findSome? fun c =>
    let b := c.1
    if !fieldFits b.src b.field b.qty then some (12, c.2, 1)
    else if !targetFits m b then some (12, c.2, 6)
    else if isExact m b && (m.binds.take c.2).any (fun x => x.qty == b.qty && x.target == b.target) then some (12, c.2, 6)
    else none

/-- Pumps without a speed binding, substations without opening and flow binding (code 0x0E). -/
def mzInputs (m : Mizon) : Option MzErr :=
  let branchOf (t e : Nat) : Nat := (m.branches.findIdx? fun b => b.type == t && b.elem == e).getD 0
  overSections [
    ((List.range m.pumps.length).find? fun k => !hasBind m 6 (branchOf 2 k)).map fun k => (6, k, 0),
    ((List.range m.substs.length).find? fun k =>
      !hasBind m 5 (branchOf 4 k) && !hasBind m 3 (branchOf 4 k)).map fun k => (9, k, 0)]

/-- The validation of an image: code, section, entry, field; all 0 if it is valid (R126). Reserved fields of entries can be
told only where the counts place them within the image (log entry 32). -/
def mzValidate (im : Bytes) : Nat × MzErr :=
  let n := im.length
  let m := mzParse im
  let placed := mzLength im == n
  let steps : List (Nat × (Unit → Option MzErr)) := [
    (1, fun _ => if crc32c (im.take (n - 4)) = fld im (n - 4) 4 then none else some (13, 0, 0)),
    (2, fun _ => overSections [
      firstField 0 0 [(fld im 0 4 == 0x314E5A4D, 0), (fld im 4 2 == 0x0100, 4), (fld im 6 2 == 0, 6)],
      mzReserved im]),
    (3, fun _ => overSections [
      firstField 0 0 (mzCap.map fun c => (decide (fld im c.1 4 ≤ c.2) && (c.1 != 60 || fld im 60 4 != 0), c.1))]),
    (4, fun _ => if placed then none else some (0, 0, 0)),
    (5, fun _ => overSections [dupEntry im 2 4, dupEntry im 3 4, dupEntry im 4 4]),
    (6, fun _ => overEntries im 4 fun _ e =>
      [(decide (fld e 4 2 < mzCount im 3), 4), (decide (fld e 6 2 < mzCount im 3) && fld e 6 2 != fld e 4 2, 6)]),
    (7, fun _ => mzElements im),
    (8, fun _ => mzSides im),
    (9, fun _ => mzRanges im m),
    (0x0A, fun _ => mzIndices im),
    (0x0B, fun _ => dupEntry im 9 2),
    (0x0C, fun _ => mzConnected m),
    (0x0D, fun _ => mzBindings m),
    (0x0E, fun _ => mzInputs m)]
  match steps.findSome? fun s => (s.2 ()).map fun e => (s.1, e) with
  | some r => r
  | none => (0, (0, 0, 0))

end Sys2Proof.Machine
end

