-- ==== Sys2Proof/Machine/Hydraulics.lean ====
section
/-! DEFINITION. Water properties, branch equations and thermal transport (R107 to R119). Core arithmetic is binary64 in
the order written here (log entry 34). -/

namespace Sys2Proof.Machine

/-! ### binary64 shorthands -/

def dadd (a b : Nat) : Nat := fadd f64 a b
def dsub (a b : Nat) : Nat := fsub f64 a b
def dmul (a b : Nat) : Nat := fmul f64 a b
def ddiv (a b : Nat) : Nat := fdiv f64 a b
def dabs (a : Nat) : Nat := fabs f64 a
def dneg (a : Nat) : Nat := fneg f64 a
def dlt (a b : Nat) : Bool := flt f64 a b
def dle (a b : Nat) : Bool := fle f64 a b
def dzero (a : Nat) : Bool := feq f64 a 0
def dmax (a b : Nat) : Nat := if dlt a b then b else a
def dsum (l : List Nat) : Nat := l.foldl dadd 0
def dsq (a : Nat) : Nat := dmul a a
def dclamp (a lo hi : Nat) : Nat := if dlt a lo then lo else if dlt hi a then hi else a

/-- π and ln 10 rounded to binary64. -/
def dpi : Nat := 0x400921FB54442D18
def dln10 : Nat := 0x40026BB1BBB55516

/-- A binary64 constant from a decimal fraction. -/
def dconst (n : Int) (d : Nat) : Nat := fRat n d

/-! ### Water properties (R107) -/

/-- *Water properties*: ρ in 0.1 kg/m³, μ in 10⁻⁶ Pa·s, c_p in J/(kg·K), every 20 °C from 0 °C. -/
def waterTable : List (Nat × Nat × Nat) :=
  [(9998, 1792, 4217), (9982, 1002, 4182), (9922, 653, 4179), (9832, 467, 4185), (9718, 355, 4197),
   (9584, 282, 4216), (9431, 232, 4245), (9261, 197, 4285), (9074, 170, 4339), (8870, 150, 4408)]

/-- ρ, μ and c_p at a temperature, and whether it was clamped. -/
structure Props where
  rho : Nat
  mu : Nat
  cp : Nat
  clamped : Bool
  deriving DecidableEq, Repr

/-- Linear interpolation between two values. -/
def lerp (a b x : Nat) : Nat := dadd a (dmul (dsub b a) x)

/-- Water properties at a temperature (R107). -/
def props (t : Nat) : Props :=
  let hi := fNat 180
  let c := dclamp t 0 hi
  let k := min 8 (((fToScaled f64 c 0).getD 0).toNat / 20)
  let x := ddiv (dsub c (fNat (20 * k))) (fNat 20)
  let a := nth waterTable k (0, 0, 0)
  let b := nth waterTable (k + 1) (0, 0, 0)
  { rho := lerp (dconst a.1 10) (dconst b.1 10) x, mu := lerp (dconst a.2.1 1000000) (dconst b.2.1 1000000) x,
    cp := lerp (fNat a.2.2) (fNat b.2.2) x, clamped := dlt t 0 || dlt hi t }

/-- How many of some temperatures are clamped in an evaluation at each (R107). -/
def clampsOf (ts : List Nat) : Nat := (ts.filter fun t => (props t).clamped).length

/-! ### Elements -/

def branchAt (m : Mizon) (b : Nat) : MBranch := nth m.branches b ⟨0, 0, 0, 0, 0, 0⟩
def pipeOf (m : Mizon) (b : Nat) : MPipe := nth m.pipes (branchAt m b).elem ⟨0, 0, 0, 0, 0, 0⟩
def nodeAt (m : Mizon) (n : Nat) : MNode := nth m.nodes n ⟨0, 0, 0, 0, 0, 0, 0⟩

/-- A = πD²/4. -/
def pipeArea (p : MPipe) : Nat := ddiv (dmul dpi (dsq p.dia)) (fNat 4)

/-- m·|m|. -/
def mAbs (m : Nat) : Nat := dmul m (dabs m)

/-- The branch temperature (R108): the mass-weighted mean of a pipe's plugs, or the temperature of the upstream node under the
flows of the previous advance, the FROM node for a flow of 0. -/
def branchTemp (m : Mizon) (n : NetState) (b : Nat) : Nat :=
  let x := branchAt m b
  if x.type = 1 then
    let ps := nth n.plugs x.elem []
    let w := ps.map fun p => dmul p.vol (props p.temp).rho
    ddiv (dsum ((ps.zip w).map fun c => dmul c.2 c.1.temp)) (dsum w)
  else nth n.temp (if dlt (nth n.adv b 0) 0 then x.dst else x.src) 0

/-- The properties of every branch in a round, from the state at the end of the previous one (R108). -/
def roundProps (m : Mizon) (n : NetState) : List Props :=
  (List.range m.branches.length).map fun b => props (branchTemp m n b)

/-- The clamped evaluations among those of a round's branch properties: one for each plug in the mean of its pipe, one for each
branch (R107, R108). -/
def propClamps (m : Mizon) (n : NetState) : Nat :=
  clampsOf (n.plugs.flatMap fun q => q.map (·.temp)) + ((roundProps m n).filter (·.clamped)).length

/-! ### Valve characteristics (R111) -/

/-- Kv(h) of a characteristic with its rangeability and table. -/
def kvOf (chr kvs rng : Nat) (table : List Nat) (h : Nat) : Nat :=
  let h := dclamp h 0 (fNat 1)
  match chr with
  | 0 =>
    let inv := ddiv (fNat 1) rng
    dmul kvs (dadd inv (dmul (dsub (fNat 1) inv) h))
  | 1 => dmul kvs (dpow rng (dsub h (fNat 1)))
  | _ =>
    let y := dmul h (fNat 10)
    let k := min 9 ((fToScaled f64 y 0).getD 0).toNat
    dmul kvs (lerp (nth table k 0) (nth table (k + 1) 0) (dsub y (fNat k)))

/-- 1.296 × 10⁹ / (ρ·Kv²). -/
def valveCoeff (rho kv : Nat) : Nat := ddiv (fNat 1296000000) (dmul rho (dsq kv))

/-! ### Branch equations (R109 to R113) -/

/-- Swamee–Jain: f, df/dRe, and ε·df/dε for the calibration of R133. -/
def swameeJain (rough dia re : Nat) : Nat × Nat × Nat :=
  let u1 := if dzero rough then 0 else ddiv rough (dmul (dconst 37 10) dia)
  let u2 := ddiv (dconst 574 100) (dpow re (dconst 9 10))
  let u := dadd u1 u2
  let l := dlog10 u
  let f := ddiv (dconst 1 4) (dsq l)
  let dl := ddiv (dneg (dmul (dconst 9 10) (ddiv u2 re))) (dmul u dln10)
  let g := ddiv (dconst (-1) 2) (dmul l (dsq l))
  (f, dmul g dl, dmul g (ddiv u1 (dmul u dln10)))

/-- The friction factor from Re = 2,000 up: f, df/dRe and ε·df/dε (R109). -/
def friction (p : MPipe) (re : Nat) : Nat × Nat × Nat :=
  if dlt re (fNat 4000) then
    let f4 := swameeJain p.rough p.dia (fNat 4000)
    let g := ddiv (dsub f4.1 (dconst 32 1000)) (fNat 2000)
    let x := dsub re (fNat 2000)
    (dadd (dconst 32 1000) (dmul x g), g, dmul (ddiv x (fNat 2000)) f4.2.2)
  else swameeJain p.rough p.dia re

/-- Re and dRe/d|m| of a pipe (R109). -/
def reynolds (p : MPipe) (w : Props) (m : Nat) : Nat × Nat :=
  let d := dmul (dmul dpi p.dia) w.mu
  (ddiv (dmul (fNat 4) (dabs m)) d, ddiv (fNat 4) d)

/-- 1 / (2ρA²) of a pipe. -/
def pipeQ (p : MPipe) (w : Props) : Nat := ddiv (fNat 1) (dmul (dmul (fNat 2) w.rho) (dsq (pipeArea p)))

/-- A pipe: Δ_b(m) and its slope (R109). -/
def pipeEq (p : MPipe) (zFrom zTo : Nat) (w : Props) (m : Nat) : Nat × Nat :=
  let q := pipeQ p w
  let (re, dre) := reynolds p w m
  let elev := dmul (dmul w.rho (dconst 980665 100000)) (dsub zTo zFrom)
  let zterm := dmul (dmul p.zeta (mAbs m)) q
  let zslope := dmul (dmul p.zeta (dmul (fNat 2) (dabs m))) q
  let ld := ddiv p.len p.dia
  if dle re (fNat 2000) then
    let k := ddiv (dmul (dmul (fNat 128) w.mu) p.len) (dmul (dmul w.rho dpi) (dsq (dsq p.dia)))
    (dadd (dadd (dmul k m) zterm) elev, dadd k zslope)
  else
    let fd := friction p re
    let fterm := dmul (dmul (dmul fd.1 ld) (mAbs m)) q
    let fslope := dmul (dmul ld q) (dadd (dmul (dmul (fNat 2) (dabs m)) fd.1) (dmul (dsq m) (dmul fd.2.1 dre)))
    (dadd (dadd fterm zterm) elev, dadd fslope zslope)

/-- ∂Δ_b/∂θ of a pipe, θ the logarithm of the roughness factor of its group (R133): 0 in laminar flow. -/
def roughSlope (p : MPipe) (w : Props) (m : Nat) : Nat :=
  let re := (reynolds p w m).1
  if dle re (fNat 2000) then 0
  else dmul (dmul (dmul (friction p re).2.2 (ddiv p.len p.dia)) (mAbs m)) (pipeQ p w)

/-- A pump: −head and its slope (R110). -/
def pumpEq (p : MPump) (sp m : Nat) : Nat × Nat :=
  let sh1 := dmul sp p.h1
  (dneg (dadd (dadd (dmul (dsq sp) p.h0) (dmul sh1 m)) (dmul p.h2 (dsq m))),
   dneg (dadd sh1 (dmul (dmul (fNat 2) p.h2) m)))

/-- A quadratic loss k·m|m| and its slope. -/
def quadEq (k m : Nat) : Nat × Nat := (dmul k (mAbs m), dmul (dmul (fNat 2) k) (dabs m))

/-- Δ_b(m), as p_FROM − p_TO, and dΔ_b/dm of a branch with its opening or speed ratio; a substation without an opening
binding omits the valve term (R112). -/
def branchEq (m : Mizon) (w : Props) (input : Option Nat) (b flow : Nat) : Nat × Nat :=
  let x := branchAt m b
  match x.type with
  | 1 => pipeEq (pipeOf m b) (nodeAt m x.src).elev (nodeAt m x.dst).elev w flow
  | 2 => pumpEq (nth m.pumps x.elem ⟨0, 0, 0, 0, 0, 0⟩) (input.getD 0) flow
  | 3 =>
    let v := nth m.valves x.elem ⟨0, false, 0, 0, 0, 0⟩
    quadEq (valveCoeff w.rho (kvOf v.chr v.kvs v.rng (nth m.tables v.table []) (input.getD v.fixed))) flow
  | 4 =>
    let u := nth m.substs x.elem ⟨0, false, false, 0, 0, 0, 0, 0⟩
    quadEq (match input with
      | some h => dadd u.khx (valveCoeff w.rho (kvOf 1 u.kvs u.rng [] h))
      | none => u.khx) flow
  | 5 => quadEq (nth m.plants x.elem ⟨0, 0, 0, 0, 0, 0⟩).kint flow
  | _ => quadEq (nth m.stores x.elem ⟨0, 0, 0, 0, 0, 0, 0⟩).kint flow

/-- c_b: the slope, at least 1 Pa/(kg/s) (R182). -/
def slopeOf (d : Nat × Nat) : Nat := dmax d.2 (fNat 1)

/-! ### Thermal transport (R114 to R119) -/

/-- What the thermal advance carries: the network, temperatures of the previous round, by node the exponents of the fluid
that arrived, what each branch delivers to its lower end (mass, temperature, exponents), nodes done, and counts. -/
structure Adv where
  net : NetState
  prev : List Nat
  exps : List (List (Nat × Nat))
  out : List (Option (Nat × Nat × List (Nat × Nat)))
  done : List Nat
  merges : Nat
  clamps : Nat
  broken : Bool
  deriving DecidableEq, Repr

/-- Exponents of at most four groups, newest first, with one added to (R114, R115). -/
def addExp (g x : Nat) (l : List (Nat × Nat)) : List (Nat × Nat) :=
  if g = 0 then l else
  match l.find? fun c => c.1 == g with
  | some c => (g, dadd c.2 x) :: l.filter fun c => c.1 != g
  | none => ((g, x) :: l).take 4

/-- Exponents mixed by mass, group by group: at most four (R118). The manual does not say which four remain where the parts hold more
between them: here the first met (log entry 113, DESIGN CHOICE). -/
def mixExps (parts : List (Nat × List (Nat × Nat))) : List (Nat × Nat) :=
  let total := dsum (parts.map (·.1))
  let groups := (parts.flatMap fun p => p.2.map (·.1)).eraseDups
  (groups.map fun g => (g, ddiv (dsum (parts.map fun p => dmul p.1 ((p.2.find? fun c => c.1 == g).elim 0 (·.2)))) total)).take 4

/-- Heat loss of one plug over `dt` seconds towards the ground (R115). -/
def plugLoss (p : MPipe) (tg dt : Nat) (q : Plug) : Plug :=
  let w := props q.temp
  let x := ddiv (dmul p.loss dt) (dmul (dmul w.rho (pipeArea p)) w.cp)
  { q with temp := dadd tg (dmul (dsub q.temp tg) (dexp (dneg x))), exps := addExp p.grp x q.exps }

/-- Plugs of a volume taken from the head of a queue: those that leave and those that stay; the last is split. -/
def takePlugs : List Plug → Nat → List Plug × List Plug
  | [], _ => ([], [])
  | q :: t, v =>
    if dle v 0 then ([], q :: t)
    else if dle q.vol v then
      let r := takePlugs t (dsub v q.vol)
      (q :: r.1, r.2)
    else ([{ q with vol := v }], { q with vol := dsub q.vol v } :: t)

/-- Two adjacent plugs as one: volumes added, temperature and exponents by mass (R118). -/
def joinPlugs (a b : Plug) : Plug :=
  let wa := dmul a.vol (props a.temp).rho
  let wb := dmul b.vol (props b.temp).rho
  { vol := dadd a.vol b.vol, temp := ddiv (dadd (dmul wa a.temp) (dmul wb b.temp)) (dadd wa wb),
    exps := mixExps [(wa, a.exps), (wb, b.exps)] }

/-- The place of the adjacent pair with the smallest temperature difference (R118); of equal ones the first from the end at which
plugs leave, the manual naming none (log entry 114, DESIGN CHOICE). -/
def closestPair (l : List Plug) : Nat :=
  let d := (l.zip (l.drop 1)).map fun c => dabs (dsub c.1.temp c.2.temp)
  ((d.zipIdx).foldl (fun (best : Nat × Nat) c => if dlt c.1 best.1 then c else best) (d.headD 0, 0)).2

/-- A queue merged down to 64 plugs, the merges made, and the clamped evaluations among theirs. -/
def mergePlugs : Nat → List Plug → List Plug × Nat × Nat
  | 0, l => (l, 0, 0)
  | n + 1, l =>
    if l.length ≤ 64 then (l, 0, 0) else
    let k := closestPair l
    match l.drop k with
    | a :: b :: t =>
      let r := mergePlugs n (l.take k ++ joinPlugs a b :: t)
      (r.1, r.2.1 + 1, r.2.2 + clampsOf [a.temp, b.temp])
    | _ => (l, 0, 0)

/-- The mass, mean temperature and mixed exponents of plugs that leave. -/
def plugsOut (mass : Nat) (l : List Plug) (t0 : Nat) : Nat × Nat × List (Nat × Nat) :=
  let w := l.map fun q => (dmul q.vol (props q.temp).rho, q)
  let total := dsum (w.map (·.1))
  (mass, if dzero total then t0 else ddiv (dsum (w.map fun c => dmul c.1 c.2.temp)) total,
    mixExps (w.map fun c => (c.1, c.2.exps)))

/-- One sub-step of a store: `cells` in the direction of flow, inflow mass and temperature, cell mass (R119). -/
def storeStep (cellMass dm : Nat) : Nat → List Nat → List Nat
  | _, [] => []
  | tin, t :: rest =>
    ddiv (dadd (dmul (dsub cellMass dm) t) (dmul dm tin)) cellMass :: storeStep cellMass dm t rest

/-- Equal sub-steps of a store: the cells, and the temperatures that left. -/
def storeSteps (cellMass dm tin : Nat) : Nat → List Nat → List Nat → List Nat × List Nat
  | 0, cells, left => (cells, left)
  | n + 1, cells, left => storeSteps cellMass dm tin n (storeStep cellMass dm tin cells) (left ++ [(cells.getLast?).getD tin])

/-- ⌈a / b⌉ of two values, at least 1. -/
def stepsFor (a b : Nat) : Nat :=
  let k := ((fToScaled f64 (ddiv a b) 0).getD 0).toNat
  max 1 (if dlt (dmul (fNat k) b) a then k + 1 else k)

/-- Fluid passes through a branch from its upper node at a temperature: what it delivers, and the network with its
plugs or cells moved (R116, R117, R119). `bound` gives the boundary temperature of a node, `ws` the properties of the round's branches,
`dt` seconds. A volume above a pipe's content takes the surplus of the injected plug out with it. A bound boundary temperature that is
absent or invalid in the round is taken as not bound (R117; log entry 115, DESIGN CHOICE). -/
def passBranch (m : Mizon) (bound : Nat → Option Nat) (ws : List Props) (dt b : Nat) (a : Adv) : Adv :=
  let x := branchAt m b
  let f := nth a.net.flow b 0
  let mass := dmul (dabs f) dt
  let up := if dlt f 0 then x.dst else x.src
  let down := if dlt f 0 then x.src else x.dst
  let t := nth a.net.temp up 0
  let ex := nth a.exps up []
  let w := nth ws b (props t)
  let deliver (d : Nat × Nat × List (Nat × Nat)) (a : Adv) : Adv :=
    if (nth a.out b none).isSome then a else { a with out := a.out.set b (some d) }
  match x.type with
  | 1 =>
    let v := ddiv mass w.rho
    let q := nth a.net.plugs x.elem []
    let fwd := !dlt f 0
    let q := if fwd then q.reverse else q
    let r := takePlugs (q ++ [⟨v, t, ex⟩]) v
    let merged := mergePlugs 64 r.2
    let q' := if fwd then merged.1.reverse else merged.1
    deliver (plugsOut mass r.1 t)
      { a with
        net := { a.net with plugs := a.net.plugs.set x.elem q' }, merges := a.merges + merged.2.1,
        clamps := a.clamps + clampsOf (r.1.map (·.temp)) + merged.2.2 }
  | 6 =>
    let st := nth m.stores x.elem ⟨0, 0, 0, 0, 0, 0, 0⟩
    let cells := nth a.net.cells x.elem []
    let charge := !dlt f 0
    let dir := if charge then cells else cells.reverse
    let cm := ddiv (dmul w.rho st.vol) (fNat st.layers)
    let n := stepsFor mass cm
    let r := storeSteps cm (ddiv mass (fNat n)) t n dir []
    let tout := ddiv (dsum r.2) (fNat n)
    deliver (mass, tout, ex)
      { a with net := { a.net with cells := a.net.cells.set x.elem (if charge then r.1 else r.1.reverse) } }
  | 5 => deliver (mass, (if forward f then bound down else none).getD t, ex) a
  | 4 => deliver (mass, (if forward f || isProsumer x.elem then bound down else none).getD t, ex) a
  | _ => deliver (mass, t, ex) a
where
  /-- Flow from FROM to TO. -/
  forward (f : Nat) : Bool := !dlt f 0
  isProsumer (e : Nat) : Bool := (m.substs[e]?).any fun u => u.prosumer

/-- Branches whose flow leaves a node, and those whose flow enters it. -/
def leaving (m : Mizon) (flow : List Nat) (n : Nat) : List Nat :=
  (List.range m.branches.length).filter fun b =>
    let f := nth flow b 0
    let x := branchAt m b
    (x.src == n && dlt 0 f) || (x.dst == n && dlt f 0)
def entering (m : Mizon) (flow : List Nat) (n : Nat) : List Nat :=
  (List.range m.branches.length).filter fun b =>
    let f := nth flow b 0
    let x := branchAt m b
    (x.dst == n && dlt 0 f) || (x.src == n && dlt f 0)

/-- One node processed (R116): its temperature from what arrives, then the branches that leave it. The manual gives the inflow of a
positive FIXED_INJECTION, and the make-up flow into a pressure reference node, no temperature: they are no part of the mean (log entry
116, DESIGN CHOICE). -/
def doNode (m : Mizon) (bound : Nat → Option Nat) (ws : List Props) (dt n : Nat) (a : Adv) : Adv :=
  let arr := (entering m a.net.flow n).filterMap fun b => nth a.out b none
  let total := dsum (arr.map (·.1))
  let a := if arr.isEmpty || dzero total then a else
    { a with
      net := { a.net with temp := a.net.temp.set n (ddiv (dsum (arr.map fun c => dmul c.1 c.2.1)) total) },
      exps := a.exps.set n (mixExps (arr.map fun c => (c.1, c.2.2))) }
  (leaving m a.net.flow n).foldl (fun a b => passBranch m bound ws dt b a) { a with done := n :: a.done }

/-- The nodes that a node reaches downstream through nodes not yet done. -/
def downstream (m : Mizon) (a : Adv) : Nat → List Nat → List Nat
  | 0, seen => seen
  | k + 1, seen =>
    let next := (seen.flatMap fun n => (leaving m a.net.flow n).map fun b =>
      if dlt (nth a.net.flow b 0) 0 then (branchAt m b).src else (branchAt m b).dst).filter fun n => !a.done.contains n
    let all := (seen ++ next).eraseDups
    if all.length = seen.length then seen else downstream m a k all

/-- A cycle is broken at its branch with the smallest |m|, which delivers the temperature its upstream node had in the
previous round (R116). -/
def breakCycle (m : Mizon) (dt : Nat) (a : Adv) : Adv :=
  let left := (List.range m.nodes.length).filter fun n => !a.done.contains n
  let cand := (left.flatMap fun n => entering m a.net.flow n).filter fun b =>
    let f := nth a.net.flow b 0
    let x := branchAt m b
    let up := if dlt f 0 then x.dst else x.src
    let down := if dlt f 0 then x.src else x.dst
    (nth a.out b none).isNone && (downstream m a m.nodes.length [down]).contains up
  match cand with
  | [] => { a with done := left ++ a.done }
  | b0 :: rest =>
    let b := rest.foldl (fun c b => if dlt (dabs (nth a.net.flow b 0)) (dabs (nth a.net.flow c 0)) then b else c) b0
    let f := nth a.net.flow b 0
    let x := branchAt m b
    let up := if dlt f 0 then x.dst else x.src
    { a with out := a.out.set b (some (dmul (dabs f) dt, nth a.prev up 0, nth a.exps up [])), broken := true }

/-- Nodes in topological order of the flows (R116). -/
def transport (m : Mizon) (bound : Nat → Option Nat) (ws : List Props) (dt : Nat) : Nat → Adv → Adv
  | 0, a => a
  | k + 1, a =>
    let ready := (List.range m.nodes.length).find? fun n =>
      !a.done.contains n && (entering m a.net.flow n).all fun b => (nth a.out b none).isSome
    match ready with
    | some n => transport m bound ws dt k (doNode m bound ws dt n a)
    | none => if a.done.length < m.nodes.length then transport m bound ws dt k (breakCycle m dt a) else a

/-- The thermal state advanced by one round period (R114 to R119): heat loss, transport, store losses and bound layers.
`ground` gives the temperature of a zone, `layer` a bound cell, `ws` the properties of the round's branches, `n` the network with the
round's flows. A pipe takes the zone of its FROM node (log entry 35). -/
def advanceThermal (m : Mizon) (ground : Nat → Nat) (bound : Nat → Option Nat) (layer : Nat → Nat → Option Nat)
    (ws : List Props) (dt : Nat) (n : NetState) : Adv :=
  let lossPipe (e : Nat) (q : List Plug) : List Plug :=
    match m.branches.find? fun x => x.type == 1 && x.elem == e with
    | some x => q.map (plugLoss (nth m.pipes e ⟨0, 0, 0, 0, 0, 0⟩) (ground (nodeAt m x.src).zone) dt)
    | none => q
  let a : Adv :=
    { net := { n with plugs := n.plugs.zipIdx.map fun c => lossPipe c.2 c.1 }, prev := n.temp,
      exps := List.replicate m.nodes.length [], out := List.replicate m.branches.length none, done := [], merges := 0,
      clamps := clampsOf (n.plugs.flatMap fun q => q.map (·.temp)), broken := false }
  let a := transport m bound ws dt (2 * m.nodes.length + m.branches.length) a
  let cool (e : Nat) (cells : List Nat) : List Nat :=
    let st := nth m.stores e ⟨0, 0, 0, 0, 0, 0, 0⟩
    let b := (m.branches.findIdx? fun x => x.type == 6 && x.elem == e).getD 0
    cells.zipIdx.map fun c =>
      let w := props c.1
      let cm := ddiv (dmul w.rho st.vol) (fNat st.layers)
      let q := dmul (dmul (ddiv st.ua (fNat st.layers)) (dsub c.1 (ground st.zone))) dt
      (layer b c.2).getD (dsub c.1 (ddiv q (dmul cm w.cp)))
  { a with
    net := { a.net with cells := a.net.cells.zipIdx.map fun c => cool c.2 c.1, adv := n.flow },
    clamps := a.clamps + clampsOf a.net.cells.flatten }

end Sys2Proof.Machine
end

