-- ==== Sys2Proof/Machine/Kernels.lean ====
section
/-! DEFINITION. The kernels of the flights (R153 to R166) over sparse matrices and vectors held as lists. Every sum is exact
in a long accumulator and rounded once, so no value depends on flights, partition, schedule or storage form
(R157 to R161). Values are binary64 bits; a binary32 factor entry is held widened, which is exact (R162). -/

namespace Sys2Proof.Machine

/-- The end of a kernel that does not commit: its reason code, the row or element (R147, R166), and what the completion
record still counts: iterations completed, pivots replaced and the first of them, and the initial and the recursively updated residual
norm as far as they were formed. -/
structure KErr where
  reason : Nat
  index : Nat
  iters : Nat
  regs : Nat
  regFirst : Nat
  resInitial : Option Nat
  resRec : Option Nat
  deriving DecidableEq, Repr

/-- An ending condition with nothing counted yet. -/
def KErr.at (reason index : Nat) : KErr := ⟨reason, index, 0, 0, 0xFFFFFFFF, none, none⟩

/-- What a step counts when it ends in an error. -/
def countErr {α : Type} (f : KErr → KErr) : Except KErr α → Except KErr α
  | .ok x => .ok x
  | .error e => .error (f e)

/-- The replacements made so far, in an error (R164). -/
def withRegs {α : Type} (regs first : Nat) (x : Except KErr α) : Except KErr α :=
  countErr (fun e => { e with regs := regs, regFirst := first }) x

/-- The iterations completed so far, in an error. -/
def withIters {α : Type} (k : Nat) (x : Except KErr α) : Except KErr α := countErr (fun e => { e with iters := k }) x

/-- The row or element at which an error is detected that has named none yet. -/
def atIndex {α : Type} (i : Nat) (x : Except KErr α) : Except KErr α :=
  countErr (fun e => if e.index = 0xFFFFFFFF then { e with index := i } else e) x

/-- The norms formed so far, in an error: the initial one, and the last recursively updated one. -/
def withNorms {α : Type} (r0 rk : Nat) (x : Except KErr α) : Except KErr α :=
  countErr (fun e => { e with resInitial := some r0, resRec := some (e.resRec.getD rk) }) x

/-- A sparse matrix: per row its entries, column and value, in ascending column. -/
abbrev SMat := List (List (Nat × Nat))

/-- A factor operand (R154): Jacobi reciprocals, an IC(0) factor by rows with the diagonal last, or block LDLᵀ rows
with the block start rows. -/
inductive Factor where
  | absent
  | jacobi (v : List Nat)
  | ic0 (l : SMat)
  | ldlt (starts : List Nat) (rows : List (List Nat))
  deriving DecidableEq, Repr

/-- What a job that ends OK leaves: the flags of its completion record, its counts, norms, and the vectors and factor it
commits. -/
structure KOut where
  flags : Nat
  iters : Nat
  regs : Nat
  regFirst : Nat
  resInitial : Nat
  resRec : Nat
  resTrue : Nat
  vecs : List (List Nat)
  factor : Factor
  deriving DecidableEq, Repr

/-- The record of a kernel that is neither Krylov nor RESIDUAL. -/
def KOut.plain : KOut :=
  { flags := 0, iters := 0, regs := 0, regFirst := 0xFFFFFFFF, resInitial := 0, resRec := 0, resTrue := 0, vecs := [],
    factor := .absent }

/-! ### Exact sums (R157 to R159) -/

/-- A finite datum in a long accumulator, in units of 2^-2148. Non-finite data never reach an accumulator (R166). -/
def longOf : Fp → Int
  | .fin s m e => Fp.scaledAt s m e (-2148)
  | _ => 0

/-- A product of two values in a long accumulator. -/
def accMul (a b : Nat) : Int := longOf (Fp.mulExact (Fp.unpack f64 a) (Fp.unpack f64 b))

/-- A value in a long accumulator. -/
def accVal (a : Nat) : Int := longOf (Fp.unpack f64 a)

/-- An accumulator rounded once to binary64; an exact zero is +0 (R159). -/
def accRound (v : Int) : Nat := Fp.ofScaled f64 v (-2148)

/-- A rounded result that is not finite ends the job with reason 2 (R166). -/
def fin64 (i v : Nat) : Except KErr Nat := if fFinite f64 v then .ok v else .error (KErr.at 2 i)

/-- A value rounded to binary32 and widened again (R162); past the binary32 range the job ends with reason 3. -/
def fin32 (i v : Nat) : Except KErr Nat :=
  let w := fconv f64 f32 v
  if fFinite f32 w then .ok (fconv f32 f64 w) else .error (KErr.at 3 i)

/-- An accumulator rounded once to the format of the preconditioner. -/
def accFin (p32 : Bool) (i : Nat) (v : Int) : Except KErr Nat :=
  if p32 then
    let w := Fp.ofScaled f32 v (-2148)
    if fFinite f32 w then .ok (fconv f32 f64 w) else .error (KErr.at 3 i)
  else fin64 i (accRound v)

/-- A value of a factor in its stored format (R162). -/
def storeFin (p32 : Bool) (i v : Nat) : Except KErr Nat :=
  match fin64 i v with
  | .ok w => if p32 then fin32 i w else .ok w
  | .error e => .error e

/-- Every element of an input is finite (R166, reason 1). -/
def inputOk (v : List Nat) : Except KErr Unit :=
  match v.findIdx? (fun x => !fFinite f64 x) with
  | some i => .error (KErr.at 1 i)
  | none => .ok ()

/-- Every stored entry of a matrix is finite (R166, reason 1). -/
def matrixOk (a : SMat) : Except KErr Unit :=
  match a.findIdx? (fun r => r.any fun x => !fFinite f64 x.2) with
  | some i => .error (KErr.at 1 i)
  | none => .ok ()

/-! ### The reduction unit (R160, R172) -/

/-- SUM: the accumulators of the flights added exactly and rounded once. -/
def reduceSum (parts : List Int) : Nat := accRound (parts.foldl (· + ·) 0)

/-- MAX: the largest magnitude of binary64 values. -/
def reduceMax (v : List Nat) : Nat := v.foldl (fun m d => if flt f64 m (fabs f64 d) then fabs f64 d else m) 0

/-- OR: the bitwise OR of 64-bit flag words, by which all flights of a job take the same decision. -/
def reduceOr (flags : List Nat) : Nat := flags.foldl Nat.lor 0 % 2 ^ 64

/-- An exact row product in a long accumulator. -/
def rowAcc (row : List (Nat × Nat)) (x : List Nat) : Int :=
  row.foldl (fun a c => a + accMul c.2 (nth x c.1 0)) 0

/-- y := A·x, each row exact and rounded once. -/
def spmv (a : SMat) (x : List Nat) : Except KErr (List Nat) :=
  (a.zipIdx).mapM fun r => fin64 r.2 (accRound (rowAcc r.1 x))

/-- The exact dot product rounded once. -/
def dotAcc (x y : List Nat) : Int := (x.zip y).foldl (fun a c => a + accMul c.1 c.2) 0

/-- DOT: whatever rows the flights own, the reduction unit adds their accumulators to the exact product (R160). -/
def dotK (x y : List Nat) : Except KErr Nat := fin64 0 (reduceSum [dotAcc x y])

/-- The 2-norm: the exact sum of squares rounded once, then a square root. -/
def norm2 (x : List Nat) : Except KErr Nat :=
  match dotK x x with
  | .ok d => fin64 0 (fsqrt f64 d)
  | .error e => .error e

/-- `a·x + y`, one fused multiply-add for each element. -/
def axpyK (a : Nat) (x y : List Nat) : Except KErr (List Nat) :=
  ((x.zip y).zipIdx).mapM fun c => fin64 c.2 (fma f64 a c.1.1 c.1.2)

/-- b − A·x, each row exact and rounded once. -/
def residualK (a : SMat) (b x : List Nat) : Except KErr (List Nat) :=
  (a.zipIdx).mapM fun r => fin64 r.2 (accRound (accVal (nth b r.2 0) - rowAcc r.1 x))

/-! ### Pivots (R163 to R165) -/

/-- The stored entry of a matrix at a place; +0 where none is stored. -/
def entryOf (a : SMat) (i j : Nat) : Nat :=
  match (nth a i []).find? fun c => c.1 == j with
  | some c => c.2
  | none => 0

/-- The diagonal of a matrix. -/
def diagOf (a : SMat) : List Nat := (List.range a.length).map fun i => entryOf a i i

/-- δ = τ·max|a_jj| (R163); reason 4 if every diagonal entry is zero (R165). -/
def pivotDelta (tau : Nat) (a : SMat) : Except KErr Nat :=
  let m := reduceMax (diagOf a)
  if feq f64 m 0 then .error (KErr.at 4 0xFFFFFFFF) else .ok (fmul f64 tau m)

/-- δ with the sign of a value, +δ for 0. -/
def withSign (delta v : Nat) : Nat := if feq f64 v 0 then delta else fSetSign f64 delta (fSign f64 v)

/-- A replacement recorded (R164). -/
def countReg (row : Nat) (regs first : Nat) : Nat × Nat := (regs + 1, if regs = 0 then row else first)

/-- JACOBI_SETUP. -/
def jacobiSetup (p32 : Bool) (tau : Nat) (a : SMat) : Except KErr KOut := do
  let delta ← pivotDelta tau a
  let step (acc : List Nat × Nat × Nat) (c : Nat × Nat) : Except KErr (List Nat × Nat × Nat) := do
    let small := flt f64 (fabs f64 c.1) delta
    let piv := if small then withSign delta c.1 else c.1
    let rc := if small then countReg c.2 acc.2.1 acc.2.2 else acc.2
    let v ← withRegs rc.1 rc.2 (storeFin p32 c.2 (fdiv f64 0x3FF0000000000000 piv))
    pure (acc.1 ++ [v], rc)
  let r ← (diagOf a).zipIdx.foldlM step ([], 0, 0xFFFFFFFF)
  pure { KOut.plain with
    flags := if r.2.1 = 0 then 0 else 2, regs := r.2.1, regFirst := r.2.2, factor := .jacobi r.1 }

/-- An exact sum over the common columns below `j` of two factor rows. -/
def commonAcc (x y : List (Nat × Nat)) (j : Nat) : Int :=
  x.foldl (fun a c => if c.1 < j then a + accMul c.2 ((y.find? fun d => d.1 == c.1).elim 0 (·.2)) else a) 0

/-- One off-diagonal entry of an IC(0) row. -/
def ic0Entry (p32 : Bool) (a l : SMat) (i : Nat) (row : List (Nat × Nat)) (j : Nat) : Except KErr (List (Nat × Nat)) := do
  let lj := nth l j []
  let num ← fin64 i (accRound (accVal (entryOf a i j) - commonAcc row lj j))
  let v ← storeFin p32 i (fdiv f64 num ((lj.find? fun d => d.1 == j).elim 0 (·.2)))
  pure (row ++ [(j, v)])

/-- IC(0): the factor on the pattern of OP1, row by row. -/
def ic0Rows (p32 : Bool) (tau delta : Nat) (a : SMat) :
    List (List Nat × Nat) → SMat → Nat → Nat → Except KErr (SMat × Nat × Nat)
  | [], l, regs, first => .ok (l, regs, first)
  | (cols, i) :: rest, l, regs, first => do
    let row ← withRegs regs first ((cols.filter (fun j => decide (j < i))).foldlM (ic0Entry p32 a l i) [])
    let aii := entryOf a i i
    let d ← withRegs regs first (fin64 i (accRound (accVal aii - commonAcc row row i)))
    let small := fle f64 d (fmul f64 tau (fabs f64 aii))
    let rc := if small then countReg i regs first else (regs, first)
    let piv ← withRegs rc.1 rc.2 (storeFin p32 i (fsqrt f64 (if small then delta else d)))
    ic0Rows p32 tau delta a rest (l ++ [row ++ [(i, piv)]]) rc.1 rc.2

/-- IC0. -/
def ic0K (p32 : Bool) (tau : Nat) (a : SMat) (pattern : List (List Nat)) : Except KErr KOut := do
  let delta ← pivotDelta tau a
  let r ← ic0Rows p32 tau delta a pattern.zipIdx [] 0 0xFFFFFFFF
  pure { KOut.plain with
    flags := if r.2.1 = 0 then 0 else 2, regs := r.2.1, regFirst := r.2.2, factor := .ic0 r.1 }

/-- The block that holds a row: its first row. -/
def blockStart (starts : List Nat) (i : Nat) : Nat := ((starts.filter fun b => decide (b ≤ i)).getLast?).getD 0

/-- The rounded products l_jk·d_k of a row of a block, of which each must be finite (R158, R166). -/
def scaledRow (rows : List (List Nat)) (b j i : Nat) (lj : List Nat) : Except KErr (List Nat) :=
  (lj.take (j - b)).zipIdx.mapM fun c => fin64 i (fmul f64 c.1 ((nth rows (b + c.2) []).getD c.2 0))

/-- LDLT_BLOCKS, row by row: the row of L below the diagonal and D last (R154, R158, R163). -/
def ldltRows (p32 : Bool) (tau delta : Nat) (a : SMat) (starts : List Nat) :
    List Nat → List (List Nat) → Nat → Nat → Except KErr (List (List Nat) × Nat × Nat)
  | [], rows, regs, first => .ok (rows, regs, first)
  | i :: rest, rows, regs, first => do
    let b := blockStart starts i
    let entry (row : List Nat) (k : Nat) : Except KErr (List Nat) := do
      let lj := nth rows (b + k) []
      let sc ← scaledRow rows b (b + k) i lj
      let num ← fin64 i (accRound (accVal (entryOf a i (b + k)) - dotAcc row sc))
      let v ← storeFin p32 i (fdiv f64 num (lj.getD k 0))
      pure (row ++ [v])
    let row ← withRegs regs first ((List.range (i - b)).foldlM entry [])
    let aii := entryOf a i i
    let sc ← withRegs regs first (scaledRow rows b i i row)
    let d ← withRegs regs first (fin64 i (accRound (accVal aii - dotAcc row sc)))
    let small := feq f64 d 0 || flt f64 (fabs f64 d) (fmul f64 tau (fabs f64 aii))
    let rc := if small then countReg i regs first else (regs, first)
    let piv ← withRegs rc.1 rc.2 (storeFin p32 i (if small then withSign delta d else d))
    ldltRows p32 tau delta a starts rest (rows ++ [row ++ [piv]]) rc.1 rc.2

/-- LDLT_BLOCKS. -/
def ldltK (p32 : Bool) (tau : Nat) (a : SMat) (starts : List Nat) : Except KErr KOut := do
  let delta ← pivotDelta tau a
  let r ← ldltRows p32 tau delta a starts (List.range a.length) [] 0 0xFFFFFFFF
  pure { KOut.plain with
    flags := if r.2.1 = 0 then 0 else 2, regs := r.2.1, regFirst := r.2.2, factor := .ldlt starts r.1 }

/-! ### Triangular solves and preconditioners (R153, R155, R158, R162) -/

/-- L·y = b by rows, the row sum exact and rounded once, then divided by the diagonal. -/
def forwardSolve (p32 : Bool) (b : List Nat) : List (List (Nat × Nat) × Nat) → List Nat → Except KErr (List Nat)
  | [], y => .ok y
  | (row, i) :: rest, y => do
    let s ← accFin p32 i (accVal (nth b i 0) - rowAcc (row.filter fun c => decide (c.1 < i)) y)
    let d := (row.find? fun c => c.1 == i).elim 0 (·.2)
    let v ← (if p32 then fin32 i (fdiv f64 s d) else fin64 i (fdiv f64 s d))
    forwardSolve p32 b rest (y ++ [v])

/-- Column `i` of a factor below its diagonal: the row of Lᵀ to the right of the diagonal. -/
def columnBelow (l : SMat) (i : Nat) : List (Nat × Nat) :=
  (l.zipIdx).filterMap fun r => if i < r.2 then ((r.1.find? fun c => c.1 == i).map fun c => (r.2, c.2)) else none

/-- Lᵀ·x = b from the last row up; `x` holds the rows after the one being solved. -/
def backwardSolve (p32 : Bool) (l : SMat) (b : List Nat) : Nat → List Nat → Except KErr (List Nat)
  | 0, x => .ok x
  | i + 1, x => do
    let acc := (columnBelow l i).foldl (fun a c => a + accMul c.2 (nth x (c.1 - (i + 1)) 0)) 0
    let s ← accFin p32 i (accVal (nth b i 0) - acc)
    let d := entryOf l i i
    let v ← (if p32 then fin32 i (fdiv f64 s d) else fin64 i (fdiv f64 s d))
    backwardSolve p32 l b i (v :: x)

/-- TRSV. -/
def trsvK (transpose : Bool) (l : SMat) (b : List Nat) : Except KErr (List Nat) :=
  if transpose then backwardSolve false l b l.length [] else forwardSolve false b l.zipIdx []

/-- The unit lower triangle of a block factor as a sparse matrix with a diagonal of ones. -/
def unitLower (starts : List Nat) (rows : List (List Nat)) : SMat :=
  (rows.zipIdx).map fun r =>
    let b := blockStart starts r.2
    ((r.1.take (r.2 - b)).zipIdx.map fun c => (b + c.2, c.1)) ++ [(r.2, 0x3FF0000000000000)]

/-- z := M⁻¹·r (R155, R162). `mag` takes |D| for MINRES. -/
def applyM (p32 mag : Bool) (m : Factor) (r : List Nat) : Except KErr (List Nat) := do
  let r ← (if p32 && m != .absent then (r.zipIdx).mapM (fun c => fin32 c.2 c.1) else pure r)
  match m with
  | .absent => pure r
  | .jacobi v => ((r.zip v).zipIdx).mapM fun c => storeFin p32 c.2 (fmul f64 c.1.1 c.1.2)
  | .ic0 l =>
    let y ← forwardSolve p32 r l.zipIdx []
    backwardSolve p32 l y l.length []
  | .ldlt starts rows =>
    let l := unitLower starts rows
    let y ← forwardSolve p32 r l.zipIdx []
    let w ← (y.zipIdx).mapM fun c =>
      let d := (nth rows c.2 []).getLast?.getD 0
      storeFin p32 c.2 (fdiv f64 c.1 (if mag then fabs f64 d else d))
    backwardSolve p32 l w l.length []

/-! ### Krylov kernels (R153, R155, R156) -/

/-- How a Krylov kernel ends: the flag of its record. -/
def kConverged : Nat := 4
def kLimit : Nat := 8
def kBreakdown : Nat := 16

/-- The zero vector. -/
def zeroVec (n : Nat) : List Nat := List.replicate n 0

/-- What a Krylov kernel is given: A, the preconditioner and whether it works in binary32 with |D|, b, the bound of the residual norm,
and RESTART. -/
structure KrylovIn where
  a : SMat
  m : Factor
  p32 : Bool
  mag : Bool
  b : List Nat
  tol : Nat
  restart : Nat

/-- The preconditioner applied. -/
def KrylovIn.apply (q : KrylovIn) (r : List Nat) : Except KErr (List Nat) := applyM q.p32 q.mag q.m r

/-- How a recurrence ends: the x it forms, the flag, the iterations completed and the recursively updated norm. -/
structure KrylovEnd where
  x : List Nat
  flag : Nat
  iters : Nat
  norm : Nat
  deriving DecidableEq, Repr

/-- An error of an iteration: the iterations completed before it and the norm they left. -/
def inIter {α : Type} (k norm : Nat) (x : Except KErr α) : Except KErr α :=
  countErr (fun e => { e with iters := k, resRec := some norm }) x

/-- What an iteration of PCG carries. -/
structure Pcg where
  x : List Nat
  r : List Nat
  p : List Nat
  rho : Nat
  norm : Nat
  deriving DecidableEq, Repr

/-- The PCG recurrence of R156. -/
def pcgLoop (q : KrylovIn) : Nat → Nat → Pcg → Except KErr KrylovEnd
  | 0, k, c => .ok ⟨c.x, kLimit, k, c.norm⟩
  | left + 1, k, c => do
    let ap ← inIter k c.norm (spmv q.a c.p)
    let d ← inIter k c.norm (dotK c.p ap)
    if fle f64 d 0 then pure ⟨c.x, kBreakdown, k, c.norm⟩ else
    let alpha ← inIter k c.norm (fin64 0 (fdiv f64 c.rho d))
    let x ← inIter k c.norm (axpyK alpha c.p c.x)
    let r ← inIter k c.norm (axpyK (fneg f64 alpha) ap c.r)
    let nrm ← inIter k c.norm (norm2 r)
    if fle f64 nrm q.tol then pure ⟨x, kConverged, k + 1, nrm⟩ else
    let z ← inIter k nrm (q.apply r)
    let rho ← inIter k nrm (dotK r z)
    if feq f64 rho 0 then pure ⟨x, kBreakdown, k + 1, nrm⟩ else
    let beta ← inIter (k + 1) nrm (fin64 0 (fdiv f64 rho c.rho))
    let p ← inIter (k + 1) nrm (axpyK beta c.p z)
    pcgLoop q left (k + 1) ⟨x, r, p, rho, nrm⟩

/-- PCG from its initial residual. As the recurrence is written, the first test of the residual follows the first update (R156). -/
def pcgStart (q : KrylovIn) (limit : Nat) (x r : List Nat) (r0 : Nat) : Except KErr KrylovEnd := do
  let z ← q.apply r
  let rho ← dotK r z
  pcgLoop q limit 0 ⟨x, r, z, rho, r0⟩

/-! The recurrences of BiCGSTAB, GMRES and MINRES are those of the literature, with the roundings of R156 and R158: the manual names the
methods, their workspaces and their ends, and writes out that of PCG alone (PRESUMED, log entry 31). -/

/-- A vector divided by a number, one division for each element. -/
def divK (x : List Nat) (d : Nat) : Except KErr (List Nat) := x.zipIdx.mapM fun c => fin64 c.2 (fdiv f64 c.1 d)

/-- A vector multiplied by a number. -/
def scaleK (a : Nat) (x : List Nat) : Except KErr (List Nat) := x.zipIdx.mapM fun c => fin64 c.2 (fmul f64 a c.1)

/-- One rounded operation on scalars of a recurrence. -/
def scalar (v : Nat) : Except KErr Nat := fin64 0 v

/-- What an iteration of BiCGSTAB carries. -/
structure Bicg where
  x : List Nat
  r : List Nat
  p : List Nat
  rho : Nat
  norm : Nat
  deriving DecidableEq, Repr

/-- The second half of an iteration of BiCGSTAB: the step along the stabilising direction. -/
def bicgStab (q : KrylovIn) (x s : List Nat) : Except KErr (Option (List Nat × List Nat × Nat)) := do
  let sh ← q.apply s
  let t ← spmv q.a sh
  let tt ← dotK t t
  if feq f64 tt 0 then pure none else
  let ts ← dotK t s
  let omega ← scalar (fdiv f64 ts tt)
  let x ← axpyK omega sh x
  let r ← axpyK (fneg f64 omega) t s
  pure (some (x, r, omega))

/-- The recurrence of BiCGSTAB with the shadow residual `rh`. -/
def bicgLoop (q : KrylovIn) (rh : List Nat) : Nat → Nat → Bicg → Except KErr KrylovEnd
  | 0, k, c => .ok ⟨c.x, kLimit, k, c.norm⟩
  | left + 1, k, c => do
    let ph ← inIter k c.norm (q.apply c.p)
    let v ← inIter k c.norm (spmv q.a ph)
    let d ← inIter k c.norm (dotK rh v)
    if feq f64 d 0 then pure ⟨c.x, kBreakdown, k, c.norm⟩ else
    let alpha ← inIter k c.norm (scalar (fdiv f64 c.rho d))
    let s ← inIter k c.norm (axpyK (fneg f64 alpha) v c.r)
    let half ← inIter k c.norm (axpyK alpha ph c.x)
    let ns ← inIter k c.norm (norm2 s)
    if fle f64 ns q.tol then pure ⟨half, kConverged, k + 1, ns⟩ else
    match ← inIter k ns (bicgStab q half s) with
    | none => pure ⟨half, kBreakdown, k, ns⟩
    | some (x, r, omega) =>
      let nrm ← inIter k ns (norm2 r)
      if fle f64 nrm q.tol then pure ⟨x, kConverged, k + 1, nrm⟩ else
      let rho ← inIter (k + 1) nrm (dotK rh r)
      if feq f64 rho 0 || feq f64 omega 0 then pure ⟨x, kBreakdown, k + 1, nrm⟩ else
      let b1 ← inIter (k + 1) nrm (scalar (fdiv f64 rho c.rho))
      let b2 ← inIter (k + 1) nrm (scalar (fdiv f64 alpha omega))
      let beta ← inIter (k + 1) nrm (scalar (fmul f64 b1 b2))
      let u ← inIter (k + 1) nrm (axpyK (fneg f64 omega) v c.p)
      let p ← inIter (k + 1) nrm (axpyK beta u r)
      bicgLoop q rh left (k + 1) ⟨x, r, p, rho, nrm⟩

/-- BICGSTAB. -/
def bicgStart (q : KrylovIn) (limit : Nat) (x r : List Nat) (r0 : Nat) : Except KErr KrylovEnd := do
  let rho ← dotK r r
  bicgLoop q r limit 0 ⟨x, r, r, rho, r0⟩

/-- What a cycle of GMRES carries: its start, the basis newest first, the columns of the triangular factor and the rotations oldest
first, the right-hand side g newest first, and |g_(k+1)|. -/
structure Gmres where
  x : List Nat
  basis : List (List Nat)
  cols : List (List Nat)
  rots : List (Nat × Nat)
  g : List Nat
  norm : Nat
  deriving DecidableEq, Repr

/-- A pair rotated: c·u + s·v and c·v − s·u. -/
def rotate (c s u v : Nat) : Except KErr (Nat × Nat) := do
  let sv ← scalar (fmul f64 s v)
  let a ← scalar (fma f64 c u sv)
  let su ← scalar (fmul f64 s u)
  let b ← scalar (fma f64 c v (fneg f64 su))
  pure (a, b)

/-- Modified Gram–Schmidt: `w` freed from the basis, oldest vector first, and its coefficients. -/
def gramSchmidt : List (List Nat) → List Nat → Except KErr (List Nat × List Nat)
  | [], w => .ok ([], w)
  | v :: t, w => do
    let h ← dotK w v
    let w ← axpyK (fneg f64 h) v w
    let r ← gramSchmidt t w
    pure (h :: r.1, r.2)

/-- The rotations applied to a column in order: the part above its last element, and that element. -/
def rotateColumn : List (Nat × Nat) → List Nat → Except KErr (List Nat × Nat)
  | (c, s) :: t, u :: v :: rest => do
    let p ← rotate c s u v
    let r ← rotateColumn t (p.2 :: rest)
    pure (p.1 :: r.1, r.2)
  | _, u :: _ => .ok ([], u)
  | _, [] => .ok ([], 0)

/-- The solution of the triangular system from its last row up, each row sum exact and rounded once (R158): columns and right-hand side
oldest first; `ys` are the unknowns found. -/
def solveUpper (cols : List (List Nat)) (g : List Nat) : Nat → List Nat → Except KErr (List Nat)
  | 0, ys => .ok ys
  | i + 1, ys => do
    let acc := ys.zipIdx.foldl (fun a y => a - accMul (nth (nth cols (i + 1 + y.2) []) i 0) y.1) (accVal (nth g i 0))
    let num ← fin64 i (accRound acc)
    let y ← fin64 i (fdiv f64 num (nth (nth cols i []) i 0))
    solveUpper cols g i (y :: ys)

/-- The combination of the basis, oldest vector first. -/
def combine : List Nat → List (List Nat) → List Nat → Except KErr (List Nat)
  | y :: ys, v :: vs, u => do
    let u ← axpyK y v u
    combine ys vs u
  | _, _, u => .ok u

/-- x of a cycle: x + M⁻¹·(V·y). -/
def gmresForm (q : KrylovIn) (c : Gmres) : Except KErr (List Nat) := do
  let n := c.cols.length
  let y ← solveUpper c.cols (c.g.drop 1).reverse n []
  let u ← combine y (c.basis.reverse.take n) (zeroVec c.x.length)
  let z ← q.apply u
  axpyK 0x3FF0000000000000 z c.x

/-- A cycle of GMRES begun at an x; none if its residual is zero. -/
def gmresBegin (q : KrylovIn) (x : List Nat) : Except KErr (Option Gmres) := do
  let r ← residualK q.a q.b x
  let beta ← norm2 r
  if feq f64 beta 0 then pure none else
  let v ← divK r beta
  pure (some ⟨x, [v], [], [], [beta], beta⟩)

/-- One inner step: the cycle with its new column, the next basis vector unrefined and its norm; none where a rotation has no
denominator. -/
def gmresStep (q : KrylovIn) (c : Gmres) : Except KErr (Option (Gmres × List Nat × Nat)) := do
  let z ← q.apply (c.basis.headD [])
  let w ← spmv q.a z
  let hw ← gramSchmidt c.basis.reverse w
  let hn ← norm2 hw.2
  let col ← rotateColumn c.rots hw.1
  let aa ← scalar (fmul f64 col.2 col.2)
  let bb ← scalar (fma f64 hn hn aa)
  let den ← scalar (fsqrt f64 bb)
  if feq f64 den 0 then pure none else
  let cs ← scalar (fdiv f64 col.2 den)
  let sn ← scalar (fdiv f64 hn den)
  let top := c.g.headD 0
  let g1 ← scalar (fmul f64 cs top)
  let g2 ← scalar (fmul f64 sn top)
  pure (some ({ c with
    cols := c.cols ++ [col.1 ++ [den]], rots := c.rots ++ [(cs, sn)], g := fneg f64 g2 :: g1 :: c.g.drop 1,
    norm := fabs f64 g2 }, hw.2, hn))

/-- The recurrence of GMRES, restarted when a cycle has RESTART columns. -/
def gmresLoop (q : KrylovIn) : Nat → Nat → Gmres → Except KErr KrylovEnd
  | 0, k, c => do
    let x ← inIter k c.norm (gmresForm q c)
    pure ⟨x, kLimit, k, c.norm⟩
  | left + 1, k, c => do
    match ← inIter k c.norm (gmresStep q c) with
    | none =>
      let x ← inIter k c.norm (gmresForm q c)
      pure ⟨x, kBreakdown, k, c.norm⟩
    | some (d, w, hn) =>
      if fle f64 d.norm q.tol then
        let x ← inIter (k + 1) d.norm (gmresForm q d)
        pure ⟨x, kConverged, k + 1, d.norm⟩
      else if feq f64 hn 0 then
        let x ← inIter (k + 1) d.norm (gmresForm q d)
        pure ⟨x, kBreakdown, k + 1, d.norm⟩
      else if d.cols.length = q.restart then
        let x ← inIter (k + 1) d.norm (gmresForm q d)
        if left = 0 then pure ⟨x, kLimit, k + 1, d.norm⟩ else
        match ← inIter (k + 1) d.norm (gmresBegin q x) with
        | none => pure ⟨x, kBreakdown, k + 1, d.norm⟩
        | some e => gmresLoop q left (k + 1) e
      else
        let v ← inIter (k + 1) d.norm (divK w hn)
        gmresLoop q left (k + 1) { d with basis := v :: d.basis }

/-- GMRES. -/
def gmresStart (q : KrylovIn) (limit : Nat) (x : List Nat) (r0 : Nat) : Except KErr KrylovEnd := do
  match ← gmresBegin q x with
  | none => pure ⟨x, kBreakdown, 0, r0⟩
  | some c => gmresLoop q limit 0 c

/-- What an iteration of MINRES carries: Lanczos vectors, directions and the scalars of the rotation. -/
structure Minres where
  x : List Nat
  r1 : List Nat
  r2 : List Nat
  y : List Nat
  w : List Nat
  w2 : List Nat
  beta : Nat
  oldb : Nat
  dbar : Nat
  epsln : Nat
  phibar : Nat
  cs : Nat
  sn : Nat
  deriving DecidableEq, Repr

/-- The Lanczos half of an iteration of MINRES: v, α, and the next vectors with their β². -/
def lanczos (q : KrylovIn) (k : Nat) (c : Minres) : Except KErr (List Nat × Nat × List Nat × List Nat × Nat) := do
  let v ← divK c.y c.beta
  let av ← spmv q.a v
  let t ← (if k = 0 then pure av else do
    let f ← scalar (fdiv f64 c.beta c.oldb)
    axpyK (fneg f64 f) c.r1 av)
  let alfa ← dotK v t
  let f ← scalar (fdiv f64 alfa c.beta)
  let r ← axpyK (fneg f64 f) c.r2 t
  let y ← q.apply r
  let bb ← dotK r y
  pure (v, alfa, r, y, bb)

/-- The recurrence of MINRES (Paige and Saunders). -/
def minresLoop (q : KrylovIn) : Nat → Nat → Minres → Except KErr KrylovEnd
  | 0, k, c => .ok ⟨c.x, kLimit, k, c.phibar⟩
  | left + 1, k, c => do
    if feq f64 c.beta 0 then pure ⟨c.x, kBreakdown, k, c.phibar⟩ else
    let l ← inIter k c.phibar (lanczos q k c)
    let (v, alfa, r, y, bb) := l
    let beta ← inIter k c.phibar (scalar (fsqrt f64 bb))
    let delta ← inIter k c.phibar (rotate c.cs c.sn c.dbar alfa)
    let gbar := fneg f64 delta.2
    let eps ← inIter k c.phibar (scalar (fmul f64 c.sn beta))
    let cb ← inIter k c.phibar (scalar (fmul f64 c.cs beta))
    let gg ← inIter k c.phibar (scalar (fmul f64 gbar gbar))
    let g2 ← inIter k c.phibar (scalar (fma f64 beta beta gg))
    let gamma ← inIter k c.phibar (scalar (fsqrt f64 g2))
    if feq f64 gamma 0 then pure ⟨c.x, kBreakdown, k, c.phibar⟩ else
    let cs ← inIter k c.phibar (scalar (fdiv f64 gbar gamma))
    let sn ← inIter k c.phibar (scalar (fdiv f64 beta gamma))
    let phi ← inIter k c.phibar (scalar (fmul f64 cs c.phibar))
    let phibar ← inIter k c.phibar (scalar (fmul f64 sn c.phibar))
    let u ← inIter k c.phibar (axpyK (fneg f64 c.epsln) c.w2 v)
    let u ← inIter k c.phibar (axpyK (fneg f64 delta.1) c.w u)
    let w ← inIter k c.phibar (divK u gamma)
    let x ← inIter k c.phibar (axpyK phi w c.x)
    if fle f64 (fabs f64 phibar) q.tol then pure ⟨x, kConverged, k + 1, fabs f64 phibar⟩ else
    minresLoop q left (k + 1)
      { x := x, r1 := c.r2, r2 := r, y := y, w := w, w2 := c.w, beta := beta, oldb := c.beta, dbar := fneg f64 cb, epsln := eps,
        phibar := phibar, cs := cs, sn := sn }

/-- MINRES. -/
def minresStart (q : KrylovIn) (limit : Nat) (x r : List Nat) : Except KErr KrylovEnd := do
  let y ← q.apply r
  let bb ← dotK r y
  let beta ← scalar (fsqrt f64 bb)
  let z := zeroVec x.length
  minresLoop q limit 0
    { x := x, r1 := r, r2 := r, y := y, w := z, w2 := z, beta := beta, oldb := 0, dbar := 0, epsln := 0, phibar := beta,
      cs := 0xBFF0000000000000, sn := 0 }

/-- A Krylov kernel (R153, R155, R156): its start `x0` unless X0_ZERO, TOLERANCE relative to ‖b‖₂ if REL_TOL, its recurrence, and
RES_TRUE of the x that it commits. -/
def krylovK (code : Nat) (a : SMat) (m : Factor) (b x0 : List Nat) (relTol x0Zero p32 : Bool) (tol restart limit : Nat) :
    Except KErr KOut := do
  let x := if x0Zero then zeroVec a.length else x0
  let r ← residualK a b x
  let r0 ← norm2 r
  let bn ← withNorms r0 r0 (if relTol then norm2 b else pure 0)
  let t ← withNorms r0 r0 (if relTol then fin64 0 (fmul f64 tol bn) else pure tol)
  let q : KrylovIn := { a := a, m := m, p32 := p32, mag := code == 0x13, b := b, tol := t, restart := restart }
  let e ← withNorms r0 r0 (match code with
    | 0x11 => bicgStart q limit x r r0
    | 0x12 => gmresStart q limit x r0
    | 0x13 => minresStart q limit x r
    | _ => pcgStart q limit x r r0)
  let res ← withNorms r0 e.norm (withIters e.iters (residualK a b e.x))
  let rt ← withNorms r0 e.norm (withIters e.iters (norm2 res))
  pure { KOut.plain with
    flags := e.flag, iters := e.iters, resInitial := r0, resRec := e.norm, resTrue := rt, vecs := [e.x] }

/-- PCG. -/
def pcgK (a : SMat) (m : Factor) (b x0 : List Nat) (relTol x0Zero p32 : Bool) (tol limit : Nat) : Except KErr KOut :=
  krylovK 0x10 a m b x0 relTol x0Zero p32 tol 0 limit

end Sys2Proof.Machine
end

