-- ==== Sys2Proof/Machine/Est.lean ====
section
/-! DEFINITION. The one-second round (R178 to R192, R205 to R216): bindings, the estimation problem, Newton steps, closing and
publication. -/

namespace Sys2Proof.Machine

/-- A round runs in this mode (R39, R178). -/
def roundsRun (s : State) : Bool :=
  !s.sys.inReset && (match s.sys.mode with
    | .commission | .run | .reduced | .shadow | .fallback | .service | .lockdown => true
    | .backup | .boot | .safe | .holdup | .fault => false)

/-! ### Configuration in force (R217) -/

def cfgDeadline (s : State) : Nat := fld s.nmod.roundCfg 4 4
def cfgNewtonMax (s : State) : Nat := fld s.nmod.roundCfg 8 1
def cfgCgExp (s : State) : Nat := fld s.nmod.roundCfg 9 1
def cfgCgMax (s : State) : Nat := fld s.nmod.roundCfg 10 2
def cfgPrecond (s : State) : Nat := fld s.nmod.roundCfg 12 1
def cfgPrec32 (s : State) : Bool := bit (fld s.nmod.roundCfg 13 1) 0
def cfgDpTol (s : State) : Nat := fld s.nmod.roundCfg 16 8
def cfgBranchTol (s : State) : Nat := fld s.nmod.roundCfg 24 8
def cfgSigma (s : State) : Nat := fld s.nmod.roundCfg 32 8

/-- The round deadline less the closing margin, ns: 5 % of the budget, at least 2 ms (R205). -/
def jobDeadlineOf (start budgetUs : Nat) : Nat := start + budgetUs * 1000 - max (budgetUs * 50) 2000000

/-! ### Bindings (R120, R121) -/

/-- The value that the cut vector brings for a binding, if valid: a report field (R226), an analog input (R375), a thermal
channel (R325), an axis opening (R404). -/
def cutValue (v : CutVec) (b : MBind) : Option Nat :=
  match b.src with
  | 1 =>
    match v.subl.find? fun e => e.1 == b.srcIdx with
    | some (_, e) =>
      let x := fld e (8 + 16 + 8 * b.field) 8
      if fld e 2 2 % 4 = 1 ∧ bit (fld e (8 + 6) 2) b.field = true ∧ fFinite f64 x = true then some x else none
    | none => none
  | 2 => if bit (fld v.pio (44 + 24 * b.srcIdx) 2) 0 then some (fld v.pio (32 + 24 * b.srcIdx) 8) else none
  | 3 =>
    let at_ := 32 + 64 * b.srcIdx
    let ok := fld v.thermal (at_ + 32) 1
    let pick (i off : Nat) : Option Nat := if bit ok i then some (fld v.thermal (at_ + off) 8) else none
    match b.field with
    | 0 => pick 2 0
    | 1 => pick 0 8
    | 2 => pick 1 16
    | _ => pick 3 24
  | _ => ((nth v.axes b.srcIdx none).map fun o => fconv f32 f64 o)

/-- What a binding substitutes when it has never been valid since activation (R121); none where the rule names nothing. -/
def substituteOf (m : Mizon) (b : MBind) : Option Nat :=
  match b.qty with
  | 5 =>
    let x := branchAt m b.target
    if x.type = 3 then some (nth m.valves x.elem ⟨0, false, 0, 0, 0, 0⟩).fixed else some (fNat 1)
  | 6 => some 0
  | 7 => some (nth m.zones b.target 0)
  | 1 => some (nodeAt m b.target).pref
  | _ => none

/-- One binding resolved: its value for the round, what is held for it, and whether it counts as held. The substitute of a
flow that has never been valid is open (log entry 36). -/
def resolveBind (m : Mizon) (v : CutVec) (s : State) (b : MBind) (held : Option Nat) :
    (Option Nat × Option Nat × Bool) × State :=
  let x := cutValue v b
  if isExact m b then
    match x, held with
    | some y, _ => ((some y, some y, false), s)
    | none, some h => ((some h, some h, true), s)
    | none, none =>
      match substituteOf m b with
      | some y => ((some y, none, false), s)
      | none =>
        let (k, s) := openVal 35 s
        ((some (k % 2 ^ 64), none, false), s)
  else ((x, none, false), s)

/-- Every binding resolved against the cut vector, in entry order. -/
def resolveBinds (m : Mizon) (v : CutVec) : List MBind → List (Option Nat) → State → List (Option Nat × Option Nat × Bool) × State
  | [], _, s => ([], s)
  | b :: bs, held, s =>
    let (r, s) := resolveBind m v s b (held.headD none)
    let (rs, s) := resolveBinds m v bs (held.drop 1) s
    (r :: rs, s)

/-- The value of a bound quantity of a target in a round. -/
def boundQty (m : Mizon) (vals : List (Option Nat)) (qty target : Nat) : Option Nat :=
  ((m.binds.zip vals).find? fun c => c.1.qty == qty && c.1.target == target).bind (·.2)

/-- A bound cell of a store branch. -/
def boundLayer (m : Mizon) (vals : List (Option Nat)) (b layer : Nat) : Option Nat :=
  ((m.binds.zip vals).find? fun c => c.1.qty == 9 && c.1.target == b && c.1.sub == layer).bind (·.2)

/-- The ground temperature of a zone. -/
def groundOf (m : Mizon) (vals : List (Option Nat)) (z : Nat) : Nat := (boundQty m vals 7 z).getD (nth m.zones z 0)

/-- The opening or speed ratio of a branch: bound, or FIXED_OPENING for a valve. -/
def inputOf (m : Mizon) (vals : List (Option Nat)) (b : Nat) : Option Nat :=
  let x := branchAt m b
  match x.type with
  | 2 => some ((boundQty m vals 6 b).getD 0)
  | 3 => some ((boundQty m vals 5 b).getD (nth m.valves x.elem ⟨0, false, 0, 0, 0, 0⟩).fixed)
  | 4 => boundQty m vals 5 b
  | _ => none

/-- The flow that a round's inputs fix on a branch (R180, R110, R111, R112). -/
def fixedFlow (m : Mizon) (vals : List (Option Nat)) (b : Nat) : Option Nat :=
  let x := branchAt m b
  match x.type with
  | 2 => if dlt ((inputOf m vals b).getD 0) (dconst 5 100) then some 0 else none
  | 3 =>
    if (nth m.valves x.elem ⟨0, false, 0, 0, 0, 0⟩).tight && dlt ((inputOf m vals b).getD 0) (dconst 1 1000) then some 0
    else none
  | 4 => if hasBind m 5 b then none else boundQty m vals 3 b
  | _ => none

/-- A measured binding: any role but an exact input or a boundary value (R120). -/
def isMeasured (m : Mizon) (b : MBind) : Bool := !isExact m b && !(b.qty == 2 && isBoundary m b.target)

/-! ### The estimation problem (R181 to R185) -/

/-- Nodes whose pressure is unknown. -/
def freeNodes (m : Mizon) : List Nat := (List.range m.nodes.length).filter fun n => (nodeAt m n).kind != 1

/-- The properties of a branch in the round (R108). -/
def branchProps (m : Mizon) (n : NetState) (b : Nat) : Props := props (branchTemp m n b)

/-- A branch is free: its flow is not fixed, nor its pump check-closed. -/
def isFree (r : EstRun) (b : Nat) : Bool := (nth r.fixed b none).isNone && !r.closed.contains b

/-- p_FROM − p_TO of a branch. -/
def dpOf (m : Mizon) (pres : List Nat) (b : Nat) : Nat :=
  dsub (nth pres (branchAt m b).src 0) (nth pres (branchAt m b).dst 0)

/-- The mass imbalance of a node (R106). -/
def imbalance (m : Mizon) (flow : List Nat) (n : Nat) : Nat :=
  dadd ((m.branches.zipIdx).foldl (fun a c =>
    let a := if c.1.dst = n then dadd a (nth flow c.2 0) else a
    if c.1.src = n then dsub a (nth flow c.2 0) else a) 0) (nodeAt m n).inj

/-- Δ_b and slope of a branch at a flow. -/
def deltaOf (m : Mizon) (net : NetState) (r : EstRun) (b flow : Nat) : Nat × Nat :=
  branchEq m (branchProps m net b) (inputOf m r.vals b) b flow

/-- The branch mismatch d_b (R185). -/
def mismatch (m : Mizon) (net : NetState) (r : EstRun) (pres flow : List Nat) (b : Nat) : Nat :=
  dsub (dpOf m pres b) (deltaOf m net r b (nth flow b 0)).1

/-- The valid measured bindings of quantities 1, 3 and 4 with their values. -/
def measures (m : Mizon) (r : EstRun) : List (MBind × Nat) :=
  (m.binds.zip r.vals).filterMap fun c =>
    if isMeasured m c.1 && (c.1.qty == 1 || c.1.qty == 3 || c.1.qty == 4) then c.2.map fun z => (c.1, z) else none

/-- h_i(x) (R181). -/
def modelOf (m : Mizon) (pres flow : List Nat) (b : MBind) : Nat :=
  match b.qty with
  | 1 => nth pres b.target 0
  | 3 => nth flow b.target 0
  | _ => dpOf m pres b.target

/-- Free branches of a round. -/
def freeBranches (m : Mizon) (r : EstRun) : List Nat := (List.range m.branches.length).filter (isFree r)

/-- ρ of a state of the network (R185). -/
def rhoOf (s : State) (m : Mizon) (r : EstRun) (pres flow : List Nat) : Nat :=
  let e := (freeNodes m).map fun n => dsq (ddiv (imbalance m flow n) (cfgSigma s))
  let q := (measures m r).map fun c => dsq (ddiv (dsub c.2 (modelOf m pres flow c.1)) c.1.sigma)
  let d := (freeBranches m r).map fun b => dsq (ddiv (mismatch m s.nmod.net r pres flow b) (cfgBranchTol s))
  fsqrt f64 (dadd (dadd (dsum e) (dsum q)) (dsum d))

/-- A residual affine in δp: its gradient by node, its value, and its weight (R182). -/
structure Affine where
  grad : List (Nat × Nat)
  value : Nat
  weight : Nat
  deriving DecidableEq, Repr

/-- A term added to a gradient. -/
def addGrad (n v : Nat) (l : List (Nat × Nat)) : List (Nat × Nat) :=
  match l.find? fun c => c.1 == n with
  | some _ => l.map fun c => if c.1 = n then (n, dadd c.2 v) else c
  | none => l ++ [(n, v)]

/-- The substituted flow of a branch at δp = 0 and its gradient (R182 step 2). -/
def substFlow (m : Mizon) (net : NetState) (r : EstRun) (b : Nat) : Nat × List (Nat × Nat) :=
  let f := nth r.cur.flow b 0
  if isFree r b then
    let d := deltaOf m net r b f
    let c := slopeOf d
    let inv := ddiv (fNat 1) c
    (dadd f (ddiv (dsub (dpOf m r.cur.pres b) d.1) c), [((branchAt m b).src, inv), ((branchAt m b).dst, dneg inv)])
  else (f, [])

/-- The affine residuals of Φ: the mass balances, then the measurements as model value less z (R181, R182). -/
def affines (net : NetState) (sigma : Nat) (m : Mizon) (r : EstRun) : List Affine :=
  let fl := (List.range m.branches.length).map (substFlow m net r)
  let flows := fl.map (·.1)
  let wb := ddiv (fNat 1) (dsq sigma)
  let bal (n : Nat) : Affine :=
    { grad := (m.branches.zipIdx).foldl (fun a c =>
        let g := (nth fl c.2 (0, [])).2
        let a := if c.1.dst = n then g.foldl (fun a x => addGrad x.1 x.2 a) a else a
        if c.1.src = n then g.foldl (fun a x => addGrad x.1 (dneg x.2) a) a else a) [],
      value := imbalance m flows n, weight := wb }
  let mea (c : MBind × Nat) : Affine :=
    { grad := match c.1.qty with
        | 1 => [(c.1.target, fNat 1)]
        | 3 => (nth fl c.1.target (0, [])).2
        | _ => [((branchAt m c.1.target).src, fNat 1), ((branchAt m c.1.target).dst, dneg (fNat 1))],
      value := dsub (modelOf m r.cur.pres flows c.1) c.2, weight := ddiv (fNat 1) (dsq c.1.sigma) }
  (freeNodes m).map bal ++ (measures m r).map mea

/-- The normal equations H·δp = g over the free nodes (R182 step 3). -/
def normalEqs (s : State) (m : Mizon) (r : EstRun) : SMat × List Nat :=
  let nodes := freeNodes m
  let idx (n : Nat) : Option Nat := nodes.findIdx? (· == n)
  let add (acc : SMat × List Nat) (a : Affine) : SMat × List Nat :=
    let g := a.grad.filterMap fun c => (idx c.1).map fun i => (i, c.2)
    g.foldl (fun acc ci =>
      let wi := dmul a.weight ci.2
      (acc.1.modify ci.1 (fun row => g.foldl (fun row cj => addGrad cj.1 (dmul wi cj.2) row) row),
       acc.2.modify ci.1 (fun v => dsub v (dmul wi a.value)))) acc
  let z := (affines s.nmod.net (cfgSigma s) m r).foldl add (List.replicate nodes.length [], zeroVec nodes.length)
  (z.1.map fun row => row.mergeSort fun a b => decide (a.1 ≤ b.1), z.2)

/-! ### Jobs (R182, R183, R189, R205) -/

/-- The flights of a job by the partition rule (R189): all eight if powered and free of host jobs, else flights 0 and 1. -/
def partitionMask (s : State) : Nat :=
  if (List.range 8).all (fun f => vget s.pwr.flights f .off == .idle || vget s.pwr.flights f .off == .active) &&
      s.solv.hrun.isNone then 0xFF else 0x03

/-- A job put into NMOD's ring (R146). -/
def submitJob (kind : NJobKind) (owner deadline : Nat) (s : State) : State :=
  { s with solv := { s.solv with
      ring := s.solv.ring ++ [⟨s.solv.jobSeq, kind, owner, partitionMask s, deadline⟩],
      jobSeq := (s.solv.jobSeq + 1) % 2 ^ 32 } }

/-- Jobs of a round that have not started are withdrawn (R209). -/
def withdraw (f : NJobKind → Bool) (s : State) : State :=
  { s with solv := { s.solv with ring := s.solv.ring.filter fun j => !f j.kind } }

/-- Kinds of the one-second round. -/
def isEstKind : NJobKind → Bool
  | .estFactor => true
  | .estPcg => true
  | _ => false

/-! ### Results (R190 to R192, R212, R214, R216) -/

/-- The candidates of R191 and R192: substations with CRITICAL_CANDIDATE, or every substation. -/
def candidates (m : Mizon) : List MSubst :=
  let c := m.substs.filter (·.critical)
  if c.isEmpty then m.substs else c

/-- The branch of a substation entry. -/
def substBranch (m : Mizon) (u : MSubst) : Nat :=
  (m.branches.findIdx? fun b => b.type == 4 && nth m.substs b.elem ⟨0, false, false, 0, 0, 0, 0, 0⟩ == u).getD 0

/-- The critical substation and its differential pressure (R191). -/
def criticalOf (m : Mizon) (pres : List Nat) : Option (Nat × Nat) :=
  let l := (candidates m).map fun u =>
    let dp := dpOf m pres (substBranch m u)
    (dsub dp u.dpMin, u.idx, dp)
  match l with
  | [] => none
  | x :: t =>
    let b := t.foldl (fun a c => if dlt c.1 a.1 || (feq f64 c.1 a.1 && decide (c.2.1 < a.2.1)) then c else a) x
    some (b.2.1, b.2.2)

/-- Fronts in one pipe from its lower end: boundaries of adjacent plugs 1.0 K or more apart, with their delay (R192). -/
def pipeFronts (volFlow delay0 : Nat) (idx : Nat) : List Plug → Nat → List (Nat × Nat)
  | a :: b :: t, at_ =>
    let d := dadd at_ (ddiv a.vol volFlow)
    let rest := pipeFronts volFlow delay0 idx (b :: t) d
    if dle (fNat 1) (dabs (dsub a.temp b.temp)) then (d, b.temp) :: rest else rest
  | _, _ => []

/-- The arriving branch of a node with the largest inflow. -/
def largestInflow (m : Mizon) (flow : List Nat) (n : Nat) : Option Nat :=
  match entering m flow n with
  | [] => none
  | b :: t => some (t.foldl (fun a c => if dlt (dabs (nth flow a 0)) (dabs (nth flow c 0)) then c else a) b)

/-- The supply path followed backwards from a node (R192): fronts met with their delays, nearest first. -/
def walkFronts (m : Mizon) (ws : List Props) (net : NetState) : Nat → Nat → Nat → List (Nat × Nat)
  | 0, _, _ => []
  | k + 1, n, delay =>
    match largestInflow m net.flow n with
    | none => []
    | some b =>
      let x := branchAt m b
      let f := nth net.flow b 0
      let up := if dlt f 0 then x.dst else x.src
      match x.type with
      | 1 =>
        if dzero f then [] else
        let q := nth net.plugs x.elem []
        let q := if dlt f 0 then q else q.reverse
        let vf := ddiv (dabs f) (nth ws b (props 0)).rho
        pipeFronts vf delay 0 q delay ++ walkFronts m ws net k up (dadd delay (ddiv (dsum (q.map (·.vol))) vf))
      | 5 => []
      | 6 => []
      | _ => walkFronts m ws net k up delay

/-- The fronts of the first 64 candidates, at most 8 each (R192). -/
def frontsOf (m : Mizon) (ws : List Props) (net : NetState) : List Front :=
  ((candidates m).take 64).flatMap fun u =>
    let l := (walkFronts m ws net m.branches.length (branchAt m (substBranch m u)).src 0).take 8
    l.zipIdx.map fun c => ⟨u.idx, c.2, fconv f64 f32 c.1.1, c.1.2⟩

/-- An estimation result body (R214). -/
def estBody (r : EstRes) : Bytes :=
  le 1 0 ++ le 1 0 ++ le 2 r.status ++ le 4 r.flags ++ le 8 r.round ++ le 6 r.cutSec ++ le 2 0 ++ le 4 r.modelId ++
    le 4 r.rev ++ le 8 r.rho ++ le 8 r.rhoWarm ++ le 2 r.steps ++ le 2 r.best ++ le 4 r.cgIters ++ le 4 r.regs ++
    le 4 r.held ++ le 4 r.measured ++ le 4 r.absent ++ le 8 r.makeup ++ le 8 r.critDp ++ le 2 r.critIdx ++
    le 2 r.checkClosed ++ le 4 0 ++ le 8 r.thermRes ++ le 6 r.published.sec ++ le 2 0 ++ le 4 r.published.ns ++
    le 4 r.pres.length ++ le 4 r.flow.length ++ le 4 r.fronts.length ++
    r.pres.flatMap (le 8) ++ r.temp.flatMap (le 8) ++ r.flow.flatMap (le 8) ++
    r.fronts.flatMap fun f => le 2 f.idx ++ le 1 f.ordinal ++ le 1 0 ++ le 4 f.delay ++ le 8 f.temp

/-! ### Forecast series and trajectories (R199, R200, R216) -/

/-- The value of a series at an instant and whether it was extended (R200). -/
def seriesAt (x : Series) (t : Nat) : Nat × Bool :=
  let (_, _, start, step, vals) := x
  if t < start then (vals.headD 0, true)
  else
    let k := (t - start) / step
    if k < vals.length then (nth vals k 0, false) else ((vals.getLast?).getD 0, true)

/-- A series of a kind and index. -/
def seriesOf (l : List Series) (kind index : Nat) : Option Series :=
  l.find? fun x => x.1 == kind && x.2.1 == index

/-- The comfort temperature of a substation at an instant under the series and the configuration of a round: its series, or
OPT_T_SUPPLY_MIN − 5 K (R199). -/
def comfortAt (series : List Series) (cfg : Bytes) (idx t : Nat) : Nat :=
  match seriesOf series 6 idx with
  | some x => (seriesAt x t).1
  | none => dsub (fld cfg 16 8) (fNat 5)

/-- The step of a trajectory that covers an instant; after its last step the last is held (R216). -/
def trajStep (t : Traj) (sec : Nat) : Nat := min (t.steps.length - 1) ((sec - t.start) / max 1 t.dt)

/-- The trajectory that the records of this tick use: one published in this tick does not count yet (R204). -/
def trajUsed (s : State) : Option Traj :=
  s.nmod.traj.start s

/-- SOURCE of the optimiser input record (R216). -/
def sourceOf (s : State) : Nat :=
  if (trajUsed s).isNone then 2 else if s.sys.mode = .fallback ∨ s.sys.mode = .lockdown then 1 else 0

/-- One candidate of the optimiser input record. -/
def candBytes (m : Mizon) (r : EstRes) (u : MSubst) : Bytes :=
  let dp := dpOf m r.pres (substBranch m u)
  let f := r.fronts.find? fun f => f.idx == u.idx && f.ordinal == 0
  le 2 u.idx ++ le 2 (b2n (r.critIdx == u.idx) + 2 * b2n f.isSome) ++ le 4 (fconv f64 f32 dp) ++
    le 4 (f.elim 0 (·.delay)) ++ le 4 (f.elim 0 fun f => fconv f64 f32 f.temp)

/-- Values of a step record from a place, padded with zeros to `n`. -/
def stepVals (st : List Nat) (off count n : Nat) : Bytes := fit (8 * n) (((st.drop off).take count).flatMap (le 8))

/-- The optimiser input record, 2,048 bytes (R216). -/
def recordBytes (s : State) (r : EstRes) : Bytes :=
  let t := trajUsed s
  let sec := r.cutSec
  let k := t.elim 0 fun t => trajStep t sec
  let st := t.elim [] fun t => nth t.steps k []
  let p := t.elim 0 (·.plants)
  let g := t.elim 0 (·.stations)
  let j := t.elim 0 (·.stores)
  let cands := match s.nmod.active with
    | some m => (((candidates m).take 64).map (candBytes m r))
    | none => []
  let unused := le 2 0xFFFF ++ zeros 14
  le 8 r.round ++ le 2 r.status ++ le 2 (t.elim stNoSolution (·.status)) ++ le 1 (sourceOf s) ++ le 1 0 ++ le 2 k ++
    le 6 (t.elim 0 (·.start)) ++ le 2 0 ++ le 4 r.flags ++ le 4 0 ++ le 8 r.critDp ++ le 2 r.critIdx ++ le 6 0 ++
    stepVals st 0 p 16 ++ stepVals st p p 16 ++ stepVals st (2 * p) g 64 ++ stepVals st (2 * p + g) j 8 ++
    stepVals st (2 * p + g + j) j 8 ++ zeros 80 ++ cands.flatten ++
    (List.replicate (64 - cands.length) unused).flatten

/-- The setpoint staging area (R190): the comfort temperature is that of the trajectory step covering the cut; with no trajectory in
force that of the cut itself, by the series and the configuration in effect (log entry 117, DESIGN CHOICE). -/
def stagingOf (s : State) (m : Mizon) (r : EstRes) : Staging :=
  let t := trajUsed s
  let comfort (idx : Nat) : Nat := match t with
    | some t => comfortAt t.series t.cfg idx (t.start + trajStep t r.cutSec * t.dt)
    | none => comfortAt s.nmod.forecasts s.nmod.optCfg idx r.cutSec
  { fresh := true, round := r.round, cutSec := r.cutSec, status := r.status, source := sourceOf s,
    entries := m.substs.map fun u =>
      let b := substBranch m u
      (u.idx, nth r.temp (branchAt m b).src 0, dpOf m r.pres b, comfort u.idx) }

/-! ### Counting (R46, R47, R211) -/

/-- The place of a round status among the four counters. -/
def statusPlace (st : Nat) : Nat := if st = stOK then 0 else if st = stDeadlineBest then 1 else if st = stStale then 2 else 3

/-- A round ended with OK or DEADLINE_BEST. -/
def goodStatus (st : Nat) : Bool := st == stOK || st == stDeadlineBest

/-- A mode change triggered in this step, arbitrated at its end (R45). -/
def trigger (m : Mode) (cause : Nat) (s : State) : State :=
  { s with sys := { s.sys with triggers := s.sys.triggers ++ [(m, cause)] } }

/-- FALLBACK after the third failure in RUN or REDUCED (R46). -/
def fallbackCheck (fails : Nat) (s : State) : State :=
  if (s.sys.mode = .run ∨ s.sys.mode = .reduced) ∧ 3 ≤ fails then trigger .fallback 2 s else s

/-- The conditions of recovery, checked when an optimisation round ends well (R47). -/
def recoveryCheck (s : State) : State :=
  if s.sys.mode == .fallback && s.sys.estOutcomes.length == 3 && s.sys.estOutcomes.all id then
    { s with sys := { s.sys with recovery := true } }
  else s

/-- A one-second round counted by the status it ended with. -/
def countEst (st : Nat) (s : State) : State :=
  let ok := goodStatus st
  let fails := if ok then 0 else min 15 (s.nmod.estFails + 1)
  let s := { s with
    nmod := { s.nmod with
      estCounts := vset s.nmod.estCounts (statusPlace st) (vget s.nmod.estCounts (statusPlace st) 0 + 1),
      estFails := fails, lastEst := st },
    sys := { s.sys with estOutcomes := (ok :: s.sys.estOutcomes).take 3 } }
  fallbackCheck fails (if ok then s else snapSource 7 s)

/-- An optimisation round counted. -/
def countOpt (st : Nat) (s : State) : State :=
  let ok := goodStatus st
  let fails := if ok then 0 else min 15 (s.nmod.optFails + 1)
  let s := { s with
    nmod := { s.nmod with
      optCounts := vset s.nmod.optCounts (statusPlace st) (vget s.nmod.optCounts (statusPlace st) 0 + 1),
      optFails := fails, lastOpt := st },
    sys := { s.sys with optOutcomes := (ok :: s.sys.optOutcomes).take 3 } }
  if ok then recoveryCheck s else fallbackCheck fails (snapSource 7 s)

/-! ### Pair digests (R60, R63) -/

/-- The pair link is in use and this device may send: 0 never, 1 active, 2 shadow. -/
def paired (s : State) : Bool := getP s 0x0120 == 1

/-- The pair key is in its slot: pair messages can be sent and checked (R60, R494). -/
def pairKeyed (s : State) : Bool := s.sec.slots.any fun x => x.1 == 4

/-- A pair message without its tag: its type, then its content (log entry 44). -/
def pairMessage (kind : Nat) (body : Bytes) : Bytes := le 1 kind ++ body

/-- The tag of a pair message: HMAC-SHA-384 under the pair key in its slot (R60). -/
def pairTag (s : State) (kind : Nat) (body : Bytes) : Bytes := hmac384 ((slotKey s 4).getD []) (pairMessage kind body)

/-- A pair message sent: in UDP from and to PAIR_PORT on PAIR_VLAN in the highest priority queue, with its tag (R58 to R60,
R419). -/
def sendPair (kind : Nat) (body : Bytes) (s : State) : State :=
  if paired s && pairKeyed s then
    let port := getP s 0x0123
    { s with out := s.out ++ udpFrames .pairLink (getP s 0x0122) port none port (pairMessage kind body ++ pairTag s kind body) }
  else s

/-- Digests that a device keeps until the peer's of the same item and round has come, and matches that it remembers (R63, log
entry 44). -/
def digestsKept : Nat := 8192

/-- The content of DIGEST: item kind, round number, SHA-384 digest (R60). -/
def digestContent (kind round : Nat) (d : Bytes) : Bytes := le 1 kind ++ le 8 round ++ d

/-- A digest of an own item kept and sent: kind 0 result, 1 trajectory, 2 output images; round number (R63). -/
def sendDigest (kind round : Nat) (item : Bytes) (s : State) : State :=
  if paired s then
    let d := sha384 item
    sendPair 5 (digestContent kind round d)
      { s with pair := { s.pair with digests := ((kind, round, d) :: s.pair.digests).take digestsKept } }
  else s

/-! ### Publication (R190, R30) -/

/-- The result of a state round replaced. -/
def StateRound.withRes (r : EstRes) (x : StateRound) : StateRound := { x with res := r }

/-- A result switched in: retained, counted, and the optimiser input record and staging written (R190, R212, R216). `sr` is what an
optimisation round may start from. -/
def publishEst (r : EstRes) (sr : Option StateRound) (s : State) : State :=
  let r := { r with published := ⟨ptpSec s, ptpNs s⟩ }
  let good := goodStatus r.status
  let s := { s with nmod := { s.nmod with
    estResults := (r :: s.nmod.estResults).take 16,
    estGood := if good then sr.map (StateRound.withRes r) else s.nmod.estGood,
    est := none,
    estLast := (ptpTotalNs s - r.cutSec * 1000000000) / 1000 } }
  let s := { s with nmod := { s.nmod with
    record := Paged.write s (recordBytes s r) s.nmod.record,
    staging := match s.nmod.active with
      | some m => stagingOf s m r
      | none => { Staging.empty with round := r.round, cutSec := r.cutSec, status := r.status } } }
  let s := recordRound good (fun f =>
    match f with
    | 0 => r.rho
    | 1 => r.critDp
    | 2 => r.makeup
    | _ => fi s.nmod.estLast) s
  sendDigest 0 r.round (estBody r) (countEst r.status (withdraw isEstKind s))

/-- What a result without a model or values holds (R132, R206). -/
def emptyRes (round cutSec status flags : Nat) (s : State) : EstRes :=
  { status := status, flags := flags, round := round, cutSec := cutSec,
    modelId := s.nmod.active.elim 0 (·.id), rev := s.nmod.active.elim 0 (·.rev), rho := 0, rhoWarm := 0, steps := 0,
    best := 0xFFFF, cgIters := 0, regs := 0, held := 0, measured := 0, absent := 0, makeup := 0, critDp := 0, critIdx := 0,
    checkClosed := 0, thermRes := 0, published := ⟨0, 0⟩, pres := [], temp := [], flow := [], fronts := [] }

/-- The valid measured bindings of quantities 2, 8 and 9 with their values; a binding with SIGMA 0 has no weight (R190, log entry
32). -/
def thermalMeasures (m : Mizon) (vals : List (Option Nat)) : List (MBind × Nat) :=
  (m.binds.zip vals).filterMap fun c =>
    if (c.1.qty == 2 || c.1.qty == 8 || c.1.qty == 9) && isMeasured m c.1 && !dzero c.1.sigma then c.2.map fun z => (c.1, z)
    else none

/-- T_model of a thermal binding: the node's temperature, the heat power m·c_p·(T_FROM − T_TO), or the cell's temperature. -/
def thermalModel (m : Mizon) (ws : List Props) (net : NetState) (b : MBind) : Nat :=
  let x := branchAt m b.target
  match b.qty with
  | 2 => nth net.temp b.target 0
  | 8 =>
    dmul (dmul (nth net.flow b.target 0) (nth ws b.target (props 0)).cp) (dsub (nth net.temp x.src 0) (nth net.temp x.dst 0))
  | _ => nth (nth net.cells x.elem []) b.sub 0

/-- THERMAL_RESIDUAL (R190). -/
def thermalResidual (m : Mizon) (ws : List Props) (vals : List (Option Nat)) (net : NetState) : Nat :=
  dsum ((thermalMeasures m vals).map fun c => dsq (ddiv (dsub c.2 (thermalModel m ws net c.1)) c.1.sigma))

/-- The make-up flow: the net imbalance at the pressure reference nodes (R106). -/
def makeupOf (m : Mizon) (flow : List Nat) : Nat :=
  dsum (((List.range m.nodes.length).filter fun n => (nodeAt m n).kind == 1).map (imbalance m flow))

/-- Calibration groups of a model, ascending. -/
def calGroups (m : Mizon) : List Nat := ((m.pipes.map (·.grp)).filter (· != 0)).eraseDups.mergeSort fun a b => decide (a ≤ b)

/-- The heat-loss derivative of the weighted thermal residuals for a group (R133): that of a temperature at a node is −(T − T_g)·E_g, and
that of a heat power follows from its two nodes; a bound cell takes its measured value and has none. -/
def lossDeriv (m : Mizon) (ws : List Props) (vals : List (Option Nat)) (net : NetState) (exps : List (List (Nat × Nat))) (g : Nat) : Nat :=
  let atNode (n : Nat) : Nat :=
    let e := ((nth exps n []).find? fun x => x.1 == g).elim 0 (·.2)
    dneg (dmul (dsub (nth net.temp n 0) (groundOf m vals (nodeAt m n).zone)) e)
  dsum ((thermalMeasures m vals).map fun c =>
    let b := c.1
    let x := branchAt m b.target
    let d := match b.qty with
      | 2 => atNode b.target
      | 8 => dmul (dmul (nth net.flow b.target 0) (nth ws b.target (props 0)).cp) (dsub (atNode x.src) (atNode x.dst))
      | _ => 0
    dmul (ddiv (dmul (fNat 2) (dsub (thermalModel m ws net b) c.2)) (dsq b.sigma)) d)

/-- The change of each free flow with θ_g at fixed pressures: −(∂Δ_b/∂θ)/c_b for the pipes of the group. -/
def flowSens (m : Mizon) (net : NetState) (r : EstRun) (g : Nat) : List Nat :=
  (List.range m.branches.length).map fun b =>
    let x := branchAt m b
    if x.type == 1 && (pipeOf m b).grp == g && isFree r b then
      let f := nth r.cur.flow b 0
      dneg (ddiv (roughSlope (pipeOf m b) (branchProps m net b) f) (slopeOf (deltaOf m net r b f)))
    else 0

/-- The gradient Jᵀ·W·r over the free nodes. -/
def phiGrad (m : Mizon) (l : List Affine) : List Nat :=
  let nodes := freeNodes m
  l.foldl (fun v a => a.grad.foldl (fun v c => match nodes.findIdx? (· == c.1) with
    | some i => v.modify i fun x => dadd x (dmul (dmul a.weight a.value) c.2)
    | none => v) v) (zeroVec nodes.length)

/-- ∂r/∂θ_g of the residuals of Φ in their order: the mass balances, then the measurements. -/
def residualSens (m : Mizon) (r : EstRun) (sens : List Nat) : List Nat :=
  ((freeNodes m).map fun n => dsub (imbalance m sens n) (nodeAt m n).inj) ++
    (measures m r).map fun c => if c.1.qty = 3 then nth sens c.1.target 0 else 0

/-- A calibration sample of a round that ended OK: its adjoint solve is submitted with the round's last H and factor (R133); `old` is the network of the
round's branch properties. The derivative of the minimised Φ by θ_g is 2·(r − J·λ)ᵀ·W·∂r/∂θ_g, where H·λ = Jᵀ·W·r (log entry 37). -/
def calibSample (m : Mizon) (old : NetState) (r : EstRun) (ws : List Props) (net : NetState) (exps : List (List (Nat × Nat))) (s : State) : State :=
  if getP s 0x0438 != 1 then s else
  let n := s.nmod.calRounds + 1
  let s := { s with nmod := { s.nmod with calRounds := n } }
  if n % getP s 0x043A != 0 then s else
  let l := affines old (cfgSigma s) m r
  let group (g : Nat) : Nat × Nat × List Nat × Nat :=
    let dr := residualSens m r (flowSens m old r g)
    let c := l.zip dr
    (g, dmul (fNat 2) (dsum (c.map fun a => dmul (dmul a.1.weight a.1.value) a.2)),
      phiGrad m (c.map fun a => { a.1 with value := a.2 }), lossDeriv m ws r.vals net exps g)
  let q : CalRun :=
    { cut := r.cut, h := r.h, factor := r.factor, factorRows := r.factorRows, grad := phiGrad m l, groups := (calGroups m).map group }
  submitJob .calib r.cut r.deadline { s with nmod := { s.nmod with calOpen := some q } }

/-- The sample that the solution λ of the adjoint solve completes: by group both derivatives (R133). -/
def calibValues (q : CalRun) (lam : List Nat) : List (Nat × Nat × Nat) :=
  q.groups.map fun g => (g.1, dsub g.2.1 (dmul (fNat 2) (dsum ((lam.zip g.2.2.1).map fun c => dmul c.1 c.2))), g.2.2.2)

/-- Pumps of a round that are stopped: with s below 0.05, or with m < 0 in a Newton iterate (R110). -/
def stoppedPumps (m : Mizon) (r : EstRun) : List Nat :=
  (List.range m.branches.length).filter fun b =>
    (branchAt m b).type == 2 && ((nth r.fixed b none).isSome || r.closed.contains b)

/-- Closing of a round (R190) with the iterate returned: residuals, thermal advance with the fixed values of fixed branches, critical
substation, fronts, result. A result that is OK or DEADLINE_BEST becomes the warm start of the next round (R188). -/
def closeWith (m : Mizon) (r : EstRun) (it : Iterate) (status flags best : Nat) (s : State) : State :=
  let rho := rhoOf s m r it.pres it.flow
  let good := goodStatus status
  let old := s.nmod.net
  let ws := roundProps m old
  let moved := it.flow.zipIdx.map fun c => (nth r.fixed c.2 none).getD c.1
  let a := advanceThermal m (groundOf m r.vals)
    (fun n => if isBoundary m n then boundQty m r.vals 2 n else none) (boundLayer m r.vals) ws (fNat (estPeriod s))
    { old with flow := moved }
  let net : NetState :=
    { a.net with
      pres := if good then it.pres else old.pres,
      flow := if good then it.flow else old.flow }
  let (open_, s1) := if (criticalOf m it.pres).isNone then openVal 36 s else (0, s)
  let crit := (criticalOf m it.pres).getD (open_ % 2 ^ 16, open_ / 2 ^ 16 % 2 ^ 64)
  let stopped := stoppedPumps m r
  let fl := flags + 128 * b2n (!stopped.isEmpty) + 256 * b2n a.broken + 512 * b2n s.nmod.fresh
  let res : EstRes :=
    { status := status, flags := fl, round := r.round, cutSec := r.cut / 1000000000, modelId := m.id, rev := m.rev,
      rho := rho, rhoWarm := r.rhoWarm, steps := r.cur.step, best := best, cgIters := r.cgIters, regs := r.regs,
      held := r.held, measured := r.measured, absent := r.absent, makeup := makeupOf m it.flow, critDp := crit.2,
      critIdx := crit.1, checkClosed := stopped.length, thermRes := thermalResidual m ws r.vals a.net,
      published := ⟨0, 0⟩, pres := it.pres, temp := a.net.temp, flow := it.flow, fronts := frontsOf m ws a.net }
  let sr : StateRound :=
    { res := res, net := { a.net with pres := it.pres }, vals := r.vals, h := r.h, factor := r.factor, factorRows := r.factorRows,
      closed := r.closed, fixed := r.fixed }
  let s := { s1 with nmod := { s1.nmod with
    net := net, fresh := false, plugMerges := s1.nmod.plugMerges + BitVec.ofNat 32 a.merges,
    propertyClamps := s1.nmod.propertyClamps + BitVec.ofNat 32 a.clamps } }
  let s := publishEst res (some sr) s
  if status = stOK then calibSample m old { r with cur := it } ws a.net a.exps s else s

/-- A round whose iteration ends without convergence: the best iterate if iterate 1 exists, else the previous result
re-evaluated, else the warm start (R206, R207). -/
def closeShort (m : Mizon) (r : EstRun) (flags : Nat) (s : State) : State :=
  match r.best with
  | some b => closeWith m r b stDeadlineBest flags b.step s
  | none =>
    match s.nmod.estGood with
    | some g => closeWith m r ⟨0, 0, g.res.pres, g.res.flow⟩ stStale flags 0xFFFF s
    | none => closeWith m r r.warm stNoSolution flags 0xFFFF s

/-! ### Newton steps (R182 to R187) -/

/-- The deadline of a job or round has passed: PTP time is later (R168). -/
def passed (s : State) (deadline : Nat) : Bool := decide (deadline < ptpTotalNs s)

/-- The jobs of the next Newton step are submitted, unless the job deadline has passed (R182, R186). -/
def nextNewton (m : Mizon) (r : EstRun) (s : State) : State :=
  if passed s r.jobDeadline then closeShort m r (r.flags + 8) s else
  let eq := normalEqs s m r
  let r := { r with h := eq.1, g := eq.2 }
  let s := { s with nmod := { s.nmod with est := some r } }
  submitJob .estPcg r.cut r.jobDeadline (submitJob .estFactor r.cut r.jobDeadline s)

/-- The factorisation that a step uses (R182, R183). -/
def factorOf (s : State) (r : EstRun) : Factor :=
  if cfgPrecond s = 1 then .jacobi r.factor else .ic0 r.factorRows

/-- A state moved along the step by α (R182 step 5). -/
def moveBy (m : Mizon) (net : NetState) (r : EstRun) (dp : List Nat) (alpha : Nat) : List Nat × List Nat :=
  let nodes := freeNodes m
  let full (n : Nat) : Nat := (nodes.findIdx? (· == n)).elim 0 fun i => nth dp i 0
  let pres := (r.cur.pres.zipIdx).map fun c => dadd c.1 (dmul alpha (full c.2))
  let flow := (r.cur.flow.zipIdx).map fun c =>
    let sf := substFlow m net r c.2
    let target := dadd sf.1 (dsum (sf.2.map fun g => dmul g.2 (full g.1)))
    if isFree r c.2 then dadd c.1 (dmul alpha (dsub target c.1)) else c.1
  (pres, flow)

/-- The step lengths of R184 in order. -/
def stepLengths : List Nat := [fNat 1, dconst 1 2, dconst 1 4, dconst 1 8]

/-- Pumps that an iterate gives m < 0 are check-closed, their flow 0 from here on (R110). -/
def checkClose (m : Mizon) (r : EstRun) (flow : List Nat) : EstRun × List Nat :=
  let bad := (List.range m.branches.length).filter fun b =>
    (branchAt m b).type == 2 && isFree r b && dlt (nth flow b 0) 0
  ({ r with closed := r.closed ++ bad }, flow.zipIdx.map fun c => if bad.contains c.2 then 0 else c.1)

/-- A Newton step is applied (R184, R186, R187), and the next is submitted or the round closes. -/
def applyStep (m : Mizon) (r : EstRun) (dp : List Nat) (s : State) : State :=
  let net := s.nmod.net
  let trial := stepLengths.map fun a => (a, moveBy m net r dp a)
  let rho (x : Nat × List Nat × List Nat) : Nat := rhoOf s m r x.2.1 x.2.2
  let x := (trial.find? fun x => dlt (rho x) r.cur.rho).getD (trial.getLast?.getD (0, [], []))
  let c := checkClose m r x.2.2
  let k := r.cur.step + 1
  let it : Iterate := { step := k, rho := rhoOf s m c.1 x.2.1 c.2, pres := x.2.1, flow := c.2 }
  let best := match r.best with
    | none => if dlt it.rho r.warm.rho then it else r.warm
    | some b => if dlt it.rho b.rho then it else b
  let r := { c.1 with cur := it, best := some best }
  let dpOk := dp.all fun d => dle (dabs (dmul x.1 d)) (cfgDpTol s)
  let dbOk := (freeBranches m r).all fun b => dle (dabs (mismatch m net r it.pres it.flow b)) (cfgBranchTol s)
  if dpOk && dbOk then closeWith m r it stOK (r.flags + 1) k s
  else if cfgNewtonMax s ≤ k then closeShort m r (r.flags + 4) s
  else nextNewton m r s

/-- A job of the one-second round ends: OK with its outputs, or with another status that ends the iteration (R186, R209). `out` is what
the kernel left; its counts enter the result whatever the job's status (R209, R214). -/
def estJobEnd (kind : NJobKind) (status : Nat) (out : KOut) (s : State) : State :=
  match s.nmod.active, s.nmod.est with
  | some m, some r =>
    let r := { r with
      regs := r.regs + out.regs, cgIters := if kind = .estPcg then r.cgIters + out.iters else r.cgIters }
    if status = stOK then
      let r := { r with flags := if out.regs = 0 then r.flags else Nat.lor r.flags 2 }
      match kind with
      | .estFactor =>
        { s with nmod := { s.nmod with est := some (match out.factor with
            | .jacobi v => { r with factor := v }
            | .ic0 l => { r with factorRows := l }
            | _ => r) } }
      | _ => applyStep m r (nth out.vecs 0 []) s
    else
      let f := if status = stNumeric then 16 else if status = stInternal then 32 else 8
      closeShort m r (Nat.lor r.flags f) s
  | _, _ => s

/-! ### Start (R178 to R180, R188) -/

/-- The bindings are resolved once the cut vector is complete, and step 1 is submitted (R180, R238). -/
def resolveEst (s : State) : State :=
  match s.nmod.active, s.nmod.est with
  | some m, some r =>
    if r.resolved then s else
    let (b, s) := resolveBinds m s.subl.cut m.binds s.nmod.net.held s
    let vals := b.map (·.1)
    let meas := (m.binds.zip vals).filter fun c => isMeasured m c.1
    let fixed := (List.range m.branches.length).map (fixedFlow m vals)
    let pres := (s.nmod.net.pres.zipIdx).map fun c =>
      let nd := nodeAt m c.2
      if nd.kind = 1 then (boundQty m vals 1 c.2).getD nd.pref else c.1
    let flow := (s.nmod.net.flow.zipIdx).map fun c => (nth fixed c.2 none).getD c.1
    let r := { r with
      resolved := true, vals := vals, fixed := fixed,
      held := (b.filter fun c => c.2.2).length,
      measured := (meas.filter fun c => c.2.isSome).length, absent := (meas.filter fun c => c.2.isNone).length }
    let w : Iterate := { step := 0, rho := rhoOf s m r pres flow, pres := pres, flow := flow }
    let clamps := propClamps m s.nmod.net
    let s := { s with nmod := { s.nmod with
      net := { s.nmod.net with held := b.map (·.2.1) },
      propertyClamps := s.nmod.propertyClamps + BitVec.ofNat 32 clamps } }
    nextNewton m { r with warm := w, cur := w, rhoWarm := w.rho } s
  | _, _ => s

/-- A one-second round starts at its cut, or is skipped (R178, R179); without an active model it ends at once with
NO_SOLUTION (R132). -/
def startEst (round cutSec : Nat) (s : State) : State :=
  if s.nmod.lastRound.any fun l => decide (round ≤ l) then
    { s with nmod := { s.nmod with skipped := s.nmod.skipped + 1 } }
  else
    let s := { s with nmod := { s.nmod with lastRound := some round } }
    let cut := cutSec * 1000000000
    match s.nmod.active with
    | none => publishEst (emptyRes round cutSec stNoSolution 0 s) none s
    | some _ =>
      let w : Iterate := ⟨0, 0, s.nmod.net.pres, s.nmod.net.flow⟩
      let r : EstRun :=
        { round := round, cut := cut, deadline := cut + cfgDeadline s * 1000, jobDeadline := jobDeadlineOf cut (cfgDeadline s),
          resolved := false, vals := [], held := 0, measured := 0, absent := 0, fixed := [], closed := [], warm := w, cur := w,
          best := none, rhoWarm := 0, cgIters := 0, regs := 0, flags := 0, h := [], g := [], factor := [], factorRows := [] }
      { s with nmod := { s.nmod with est := some r } }

/-- Core 0 publishes for a stalled core 1: the previous result unchanged, or nothing (R210); the first result on a model says so. -/
def stallEst (s : State) : State :=
  match s.nmod.est with
  | none => s
  | some r =>
    let sec := r.cut / 1000000000
    let fl := 64 + 512 * b2n s.nmod.fresh
    let res := match s.nmod.estGood with
      | some g => { g.res with status := stStale, flags := fl, round := r.round, cutSec := sec, best := 0xFFFF }
      | none => emptyRes r.round sec stNoSolution fl s
    let s := post 0x0402 1 (le 1 0 ++ le 2 res.status ++ le 8 r.round) 0 s
    publishEst res none { s with nmod := { s.nmod with stalls := s.nmod.stalls + 1, fresh := false } }

/-- A one-second round that still runs when a later one is to start: past its deadline + 1 ms core 0 publishes for it (R210); within it,
which only a change of EST_PERIOD or a step of the clock brings about, it ends as at its job deadline (log entry 118, DESIGN CHOICE). -/
def endRunningEst (s : State) : State :=
  match s.nmod.active, s.nmod.est with
  | some m, some r => if passed s (r.deadline + 999999) then stallEst s else closeShort m r (Nat.lor r.flags 8) s
  | none, some _ => stallEst s
  | _, none => s

end Sys2Proof.Machine
end

