-- ==== Sys2Proof/Machine/Qp.lean ====
section
/-! DEFINITION. The convex quadratic program of an optimisation round (R194 to R200) and the algebra of its interior-point method (R201):
coefficients from the state round, constraints and cost, KKT system, residuals, merit and steps. What the manual names without a formula
is read in log entries 38 and 119. -/

namespace Sys2Proof.Machine

/-! ### Configuration (R218) -/

def oSteps (c : Bytes) : Nat := fld c 2 2
def oStep (c : Bytes) : Nat := fld c 4 4
def oDeadline (c : Bytes) : Nat := fld c 8 4
def oIterMax (c : Bytes) : Nat := fld c 12 1
def oTolExp (c : Bytes) : Nat := fld c 13 1
def oCritMax (c : Bytes) : Nat := fld c 14 1
def oPrec32 (c : Bytes) : Bool := bit (fld c 15 1) 0
def oReal (c : Bytes) (off : Nat) : Nat := fld c off 8

/-- 10 to the power −n, rounded to binary64. -/
def tenTo (n : Nat) : Nat := fRat 1 (10 ^ n)

/-- Variables of a step: 2P + S + 2K + 4C + 1 (R195). -/
def stepWidth (p g j c : Nat) : Nat := 2 * p + g + 2 * j + 4 * c + 1

/-- The largest number of candidates that keeps n at or below 40,000 (R195). -/
def fitCands (n p g j : Nat) : Nat → Nat
  | 0 => 0
  | c + 1 => if n * stepWidth p g j (c + 1) ≤ 40000 then c + 1 else fitCands n p g j c

/-- The critical candidates before truncation (R194). -/
def wantCands (m : Mizon) (c : Bytes) : List MSubst := (m.substs.filter (·.critical)).take (min 64 (oCritMax c))

/-- The critical candidates of a round (R195). -/
def optCands (m : Mizon) (c : Bytes) : List MSubst :=
  let w := wantCands m c
  w.take (fitCands (oSteps c) m.plants.length m.stations.length m.stores.length w.length)

/-! ### The state round (R197) -/

/-- The branch of an element. -/
def elemBranch (m : Mizon) (type e : Nat) : Nat := (m.branches.findIdx? fun b => b.type == type && b.elem == e).getD 0

/-- ρ and c_p at the mean of the design temperatures (R196). -/
def designProps (c : Bytes) : Props := props (ddiv (dadd (oReal c 72) (oReal c 80)) (fNat 2))

/-- Pumps of a station, as branches. -/
def stationPumps (m : Mizon) (g : Nat) : List Nat :=
  (List.range m.branches.length).filter fun b =>
    (branchAt m b).type == 2 && ((m.pumps[(branchAt m b).elem]?).any fun p => p.station == g)

/-- What a program is built from: the model, the state round, the configuration and the series of its round, t_0, the SUBL_INDEX of the
candidates, and by candidate γ of each station with κ last. -/
structure QpIn where
  m : Mizon
  sr : StateRound
  cfg : Bytes
  series : List Series
  start : Nat
  crit : List Nat
  sens : List (List Nat)
  deriving DecidableEq, Repr

namespace QpIn

def plants (q : QpIn) : Nat := q.m.plants.length
def stations (q : QpIn) : Nat := q.m.stations.length
def stores (q : QpIn) : Nat := q.m.stores.length
def cands (q : QpIn) : Nat := q.crit.length

/-- Variables of a step, and equality rows of a step (R195). -/
def width (q : QpIn) : Nat := stepWidth q.plants q.stations q.stores q.cands
def rows (q : QpIn) : Nat := 1 + q.stores + 2 * q.cands

/-- Offsets of the groups of a step record (R215). -/
def offT (q : QpIn) : Nat := q.plants
def offD (q : QpIn) : Nat := 2 * q.plants
def offM (q : QpIn) : Nat := q.offD + q.stations
def offE (q : QpIn) : Nat := q.offM + q.stores
def offTc (q : QpIn) : Nat := q.offE + q.stores
def offPc (q : QpIn) : Nat := q.offTc + q.cands
def offU (q : QpIn) : Nat := q.offPc + q.cands
def offV (q : QpIn) : Nat := q.offU + q.cands
def offUn (q : QpIn) : Nat := q.offV + q.cands

/-- Flow of a branch in the state round. -/
def flow (q : QpIn) (b : Nat) : Nat := nth q.sr.net.flow b 0

/-- Temperature of a node in the state round. -/
def temp (q : QpIn) (n : Nat) : Nat := nth q.sr.net.temp n 0

/-- The branch of a candidate. -/
def critBranch (q : QpIn) (c : Nat) : Nat :=
  match q.m.substs.find? fun u => u.idx == nth q.crit c 0 with
  | some u => substBranch q.m u
  | none => 0

/-- The value of a series for step k, or a value if it was never loaded (R199, R200). -/
def forecast (q : QpIn) (kind index k dflt : Nat) : Nat :=
  match seriesOf q.series kind index with
  | some x => (seriesAt x (q.start + k * oStep q.cfg)).1
  | none => dflt

/-- The ground temperature of a zone in step k (R199). -/
def ground (q : QpIn) (z k : Nat) : Nat := q.forecast 7 z k (groundOf q.m q.sr.vals z)

/-- T_p⁰. -/
def plantT0 (q : QpIn) (p : Nat) : Nat := q.temp (branchAt q.m (elemBranch q.m 5 p)).dst

/-- D_s⁰: the head of the station's first pump. -/
def stationD0 (q : QpIn) (g : Nat) : Nat :=
  match stationPumps q.m g with
  | [] => 0
  | b :: _ => dneg (dpOf q.m q.sr.res.pres b)

/-- M̄_s and η̄_s. -/
def stationFlow (q : QpIn) (g : Nat) : Nat := dsum ((stationPumps q.m g).map fun b => dabs (q.flow b))
def stationEta (q : QpIn) (g : Nat) : Nat :=
  ddiv (dsum ((stationPumps q.m g).map fun b =>
    dmul (dabs (q.flow b)) (nth q.m.pumps (branchAt q.m b).elem ⟨0, 0, 0, 0, 0, 0⟩).eta)) (q.stationFlow g)

/-- E_j⁰: the store's content above the design return temperature. -/
def storeE0 (q : QpIn) (j : Nat) : Nat :=
  let st := nth q.m.stores j ⟨0, 0, 0, 0, 0, 0, 0⟩
  dsum ((nth q.sr.net.cells j []).map fun t =>
    let w := props t
    dmul (dmul (ddiv (dmul w.rho st.vol) (fNat st.layers)) w.cp) (dsub t (oReal q.cfg 80)))

/-- F⁰: the consumer heat of the state round, m·c_p·(T_FROM − T_TO) of every substation. -/
def demand0 (q : QpIn) : Nat :=
  let ws := roundProps q.m q.sr.net
  dsum (((List.range q.m.branches.length).filter fun b => (branchAt q.m b).type == 4).map fun b =>
    let x := branchAt q.m b
    dmul (dmul (q.flow b) (nth ws b (props 0)).cp) (dsub (q.temp x.src) (q.temp x.dst)))

/-- F_k. -/
def demand (q : QpIn) (k : Nat) : Nat := q.forecast 1 0 k q.demand0

/-- L⁰: the heat that the plugs of every pipe lose to the ground of its zone, λ for each metre that a plug fills. -/
def loss0 (q : QpIn) : Nat :=
  dsum ((List.range q.m.pipes.length).map fun e =>
    let p := nth q.m.pipes e ⟨0, 0, 0, 0, 0, 0⟩
    let tg := q.ground (nodeAt q.m (branchAt q.m (elemBranch q.m 1 e)).src).zone 0
    dsum ((nth q.sr.net.plugs e []).map fun u => dmul (dmul p.loss (ddiv u.vol (pipeArea p))) (dsub u.temp tg)))

/-- T̄_g: the mean ground temperature of the pipes, weighted by |m|. -/
def meanGround (q : QpIn) : Nat :=
  let l := ((List.range q.m.branches.length).filter fun b => (branchAt q.m b).type == 1).map fun b =>
    (dabs (q.flow b), q.ground (nodeAt q.m (branchAt q.m b).src).zone 0)
  ddiv (dsum (l.map fun c => dmul c.1 c.2)) (dsum (l.map (·.1)))

/-- λ_p = L⁰·w_p / (T_p⁰ − T̄_g). -/
def lambda (q : QpIn) (p : Nat) : Nat :=
  let f (i : Nat) : Nat := dabs (q.flow (elemBranch q.m 5 i))
  let total := dsum ((List.range q.plants).map f)
  if dzero total then 0 else ddiv (dmul q.loss0 (ddiv (f p) total)) (dsub (q.plantT0 p) q.meanGround)

/-- h_j: c_p times the difference between the top and the bottom cell. -/
def storeH (q : QpIn) (j : Nat) : Nat :=
  let l := nth q.sr.net.cells j []
  dmul (designProps q.cfg).cp (dsub (l.headD 0) ((l.getLast?).getD 0))

/-- T̄_j. -/
def storeMean (q : QpIn) (j : Nat) : Nat :=
  let l := nth q.sr.net.cells j []
  ddiv (dsum l) (fNat l.length)

/-- E_j,max (R196). -/
def storeMax (q : QpIn) (j : Nat) : Nat :=
  let w := designProps q.cfg
  dmul (dmul (dmul w.rho (nth q.m.stores j ⟨0, 0, 0, 0, 0, 0, 0⟩).vol) w.cp) (dsub (oReal q.cfg 72) (oReal q.cfg 80))

/-! ### Transport coefficients (R197) -/

/-- A pipe on the way to a candidate: its element, transit time, heat loss per second as an exponent, zone, volume flow, and whether it
delivers at its TO end. -/
structure Seg where
  elem : Nat
  transit : Nat
  rate : Nat
  zone : Nat
  volFlow : Nat
  fwd : Bool
  deriving DecidableEq, Repr

/-- A way of supply to a candidate: its share, its pipes from the candidate upstream, and its source: a plant, or a place with a
temperature of its own. -/
structure HeatPath where
  share : Nat
  segs : List Seg
  plant : Option Nat
  temp : Nat
  deriving DecidableEq, Repr

/-- The pipe of a branch as part of a way. -/
def segOf (q : QpIn) (ws : List Props) (b : Nat) : Seg :=
  let p := pipeOf q.m b
  let w := nth ws b (props 0)
  let vf := ddiv (dabs (q.flow b)) w.rho
  { elem := (branchAt q.m b).elem, transit := ddiv (dmul (pipeArea p) p.len) vf,
    rate := ddiv p.loss (dmul (dmul w.rho (pipeArea p)) w.cp), zone := (nodeAt q.m (branchAt q.m b).src).zone, volFlow := vf,
    fwd := !dlt (q.flow b) 0 }

/-- The ways of supply to a node, shares by inflow. A store, a substation or a node without inflow is a source with the temperature of
the state round. -/
def waysTo (q : QpIn) (ws : List Props) : Nat → Nat → Nat → List Seg → List HeatPath
  | 0, n, share, segs => [⟨share, segs, none, q.temp n⟩]
  | fuel + 1, n, share, segs =>
    let arr := entering q.m q.sr.net.flow n
    let total := dsum (arr.map fun b => dabs (q.flow b))
    if dzero total then [⟨share, segs, none, q.temp n⟩]
    else arr.flatMap fun b =>
      let x := branchAt q.m b
      let back := dlt (q.flow b) 0
      let up := if back then x.dst else x.src
      let sh := dmul share (ddiv (dabs (q.flow b)) total)
      match x.type with
      | 1 => waysTo q ws fuel up sh (segs ++ [q.segOf ws b])
      | 4 => [⟨sh, segs, none, q.temp n⟩]
      | 5 => if back then waysTo q ws fuel up sh segs else [⟨sh, segs, some x.elem, q.plantT0 x.elem⟩]
      | 6 =>
        let l := nth q.sr.net.cells x.elem []
        [⟨sh, segs, none, if back then l.headD 0 else (l.getLast?).getD 0⟩]
      | _ => waysTo q ws fuel up sh segs

/-- The ways of supply to a candidate's FROM node. -/
def ways (q : QpIn) (c : Nat) : List HeatPath :=
  q.waysTo (roundProps q.m q.sr.net) q.m.branches.length (branchAt q.m (q.critBranch c)).src (fNat 1) []

/-- A temperature cooled towards the ground for a time. -/
def cooled (q : QpIn) (g : Seg) (k t temp : Nat) : Nat :=
  let tg := q.ground g.zone k
  dadd tg (dmul (dsub temp tg) (dexp (dneg (dmul g.rate t))))

/-- The outflow of a way whose source has a temperature: cooled through each pipe. -/
def through (q : QpIn) (k src : Nat) : List Seg → Nat
  | [] => src
  | g :: rest => q.cooled g k g.transit (q.through k src rest)

/-- What arrives over a way `t` seconds after the state round: the plug that is on its way then, cooled, or the source. -/
def arriving (q : QpIn) (k src : Nat) : List Seg → Nat → Nat
  | [], _ => src
  | g :: rest, t =>
    if dlt t g.transit then
      let l := nth q.sr.net.plugs g.elem []
      let l := if g.fwd then l.reverse else l
      q.cooled g k t (((takePlugs l (dmul t g.volFlow)).2.head?).elim src (·.temp))
    else q.cooled g k g.transit (q.arriving k src rest (dsub t g.transit))

/-- The transit time of a way, and its interval d: ⌊transit / Δτ⌋, at most 16. -/
def transit (w : HeatPath) : Nat := dsum (w.segs.map (·.transit))
def delay (q : QpIn) (w : HeatPath) : Nat := min 16 ((fToScaled f64 (ddiv (transit w) (fNat (oStep q.cfg))) 0).getD 0).toNat

/-- α of a way: its share times the attenuation of its pipes. -/
def alpha (w : HeatPath) : Nat := dmul w.share (dexp (dneg (dsum (w.segs.map fun g => dmul g.rate g.transit))))

/-- The terms of T_c,k: by way from a plant whose d is at most k the plant, d and α; and β_c,k, which holds the rest: ground terms,
other sources, and the plugs already in the pipes. -/
def transport (q : QpIn) (c k : Nat) : List (Nat × Nat × Nat) × Nat :=
  let l := q.ways c
  let live (w : HeatPath) : Bool := w.plant.isSome && decide (q.delay w ≤ k)
  ((l.filter live).filterMap fun w => w.plant.map fun p => (p, q.delay w, alpha w),
   dsum (l.map fun w => dmul w.share
     (if live w then q.through k 0 w.segs else q.arriving k w.temp w.segs (fNat (k * oStep q.cfg)))))

/-! ### Pressure coefficients (R197) -/

/-- The state round as a run at its result, for the derivatives of its equations. -/
def run (q : QpIn) : EstRun :=
  let it : Iterate := ⟨0, 0, q.sr.res.pres, q.sr.net.flow⟩
  { round := q.sr.res.round, cut := 0, deadline := 0, jobDeadline := 0, resolved := true, vals := q.sr.vals, held := 0, measured := 0,
    absent := 0, fixed := q.sr.fixed, closed := q.sr.closed, warm := it, cur := it, best := none, rhoWarm := 0, cgIters := 0, regs := 0,
    flags := 0, h := q.sr.h, g := [], factor := q.sr.factor, factorRows := q.sr.factorRows }

/-- The right-hand side of a candidate's solve: the derivative of p_FROM − p_TO by the pressure of each free node. -/
def candRhs (q : QpIn) (c : Nat) : List Nat :=
  let x := branchAt q.m (q.critBranch c)
  (freeNodes q.m).map fun n => if n = x.src then fNat 1 else if n = x.dst then dneg (fNat 1) else 0

/-- The change of the flows at fixed pressures with the head of a station: 1/c_b of its free pumps. -/
def stationSens (q : QpIn) (g : Nat) : List Nat :=
  let r := q.run
  (List.range q.m.branches.length).map fun b =>
    if (stationPumps q.m g).contains b && isFree r b then ddiv (fNat 1) (slopeOf (deltaOf q.m q.sr.net r b (q.flow b))) else 0

/-- The change of the flows with the demand: every substation's flow in proportion. -/
def demandSens (q : QpIn) : List Nat :=
  (List.range q.m.branches.length).map fun b =>
    if (branchAt q.m b).type == 4 then ddiv (q.flow b) q.demand0 else 0

/-- γ_c,s for each station, then κ_c, from the solution μ of the candidate's solve: −μᵀ·Jᵀ·W·∂r. -/
def sensOf (q : QpIn) (sigma : Nat) (mu : List Nat) : List Nat :=
  let r := q.run
  let l := affines q.sr.net sigma q.m r
  let one (sens : List Nat) : Nat :=
    let g := phiGrad q.m ((l.zip (residualSens q.m r sens)).map fun a => { a.1 with value := a.2 })
    dneg (dsum ((mu.zip g).map fun c => dmul c.1 c.2))
  (List.range q.stations).map (fun g => one (q.stationSens g)) ++ [one q.demandSens]

/-! ### Constraints and cost (R196, R198) -/

/-- The bounds of the variables of step k, in the order of the step record. -/
def bounds (q : QpIn) (k : Nat) : List (Option Nat × Option Nat) :=
  let w := designProps q.cfg
  let heat (p : Nat) : Option Nat × Option Nat :=
    let x := nth q.m.plants p ⟨0, 0, 0, 0, 0, 0⟩
    let v := q.forecast 5 p k x.pmax
    if dzero v then (some 0, some 0)
    else (some (if dlt x.pmin v then x.pmin else v), some (if dlt v x.pmax then v else x.pmax))
  let head (g : Nat) : Option Nat × Option Nat :=
    let h := ((stationPumps q.m g).map fun b => (nth q.m.pumps (branchAt q.m b).elem ⟨0, 0, 0, 0, 0, 0⟩).h0).foldl dmax 0
    let f := q.stationFlow g
    let e := ddiv (dmul (dmul (nth q.m.stations g ⟨0, 0⟩).pmax w.rho) (q.stationEta g)) f
    (some 0, some (if !dzero f && dlt e h then e else h))
  let st (j : Nat) : MStore := nth q.m.stores j ⟨0, 0, 0, 0, 0, 0, 0⟩
  let least (j : Nat) : Nat := if k + 1 = oSteps q.cfg then dmul (oReal q.cfg 64) (q.storeMax j) else 0
  (List.range q.plants).map heat ++
    (List.range q.plants).map (fun p => (some (oReal q.cfg 16), some (nth q.m.plants p ⟨0, 0, 0, 0, 0, 0⟩).tmax)) ++
    (List.range q.stations).map head ++
    (List.range q.stores).map (fun j => (some (dneg (st j).mDischarge), some (st j).mCharge)) ++
    (List.range q.stores).map (fun j => (some (least j), some (q.storeMax j))) ++
    List.replicate (2 * q.cands) (none, none) ++ List.replicate (2 * q.cands + 1) (some 0, none)

/-- A row of a sparse matrix from terms, in ascending column. -/
def rowOf (l : List (Nat × Nat)) : List (Nat × Nat) :=
  (l.foldl (fun a c => addGrad c.1 c.2 a) []).mergeSort fun a b => decide (a.1 ≤ b.1)

/-- The equality rows of step k with their right-hand sides: heat balance, store contents, transport, pressure. -/
def equalities (q : QpIn) (k : Nat) : List (List (Nat × Nat) × Nat) :=
  let at_ (i : Nat) : Nat := k * q.width + i
  let dt := fNat (oStep q.cfg)
  let one := fNat 1
  let ps := List.range q.plants
  let js := List.range q.stores
  let heat :=
    (ps.map (fun p => (at_ p, one)) ++ ps.map (fun p => (at_ (q.offT + p), dneg (q.lambda p))) ++
      js.map (fun j => (at_ (q.offM + j), dneg (q.storeH j))) ++ [(at_ q.offUn, one)],
     dsub (dadd (q.demand k) q.loss0) (dsum (ps.map fun p => dmul (q.lambda p) (q.plantT0 p))))
  let store (j : Nat) : List (Nat × Nat) × Nat :=
    let st := nth q.m.stores j ⟨0, 0, 0, 0, 0, 0, 0⟩
    let rhs := dneg (dmul dt (dmul st.ua (dsub (q.storeMean j) (q.ground st.zone k))))
    let own := [(at_ (q.offM + j), dneg (dmul dt (q.storeH j))), (at_ (q.offE + j), one)]
    if k = 0 then (own, dadd rhs (q.storeE0 j)) else ((at_ (q.offE + j) - q.width, dneg one) :: own, rhs)
  let carry (c : Nat) : List (Nat × Nat) × Nat :=
    let t := q.transport c k
    ((at_ (q.offTc + c), one) :: t.1.map fun x => ((k - x.2.1) * q.width + q.offT + x.1, dneg x.2.2), t.2)
  let press (c : Nat) : List (Nat × Nat) × Nat :=
    let g := nth q.sens c []
    let gs := List.range q.stations
    ((at_ (q.offPc + c), one) :: gs.map fun i => (at_ (q.offD + i), dneg (nth g i 0)),
     dadd (dsub (dpOf q.m q.sr.res.pres (q.critBranch c)) (dsum (gs.map fun i => dmul (nth g i 0) (q.stationD0 i))))
       (dmul (nth g q.stations 0) (dsub (q.demand k) q.demand0)))
  let cs := List.range q.cands
  (heat :: js.map store ++ cs.map carry ++ cs.map press).map fun r => (rowOf r.1, r.2)

/-- The general inequalities of step k, two for each candidate: row · x ≥ bound. -/
def inequalities (q : QpIn) (k : Nat) : List (List (Nat × Nat) × Nat) :=
  let at_ (i : Nat) : Nat := k * q.width + i
  (List.range q.cands).flatMap fun c =>
    let u := (q.m.substs.find? fun u => u.idx == nth q.crit c 0).getD ⟨0, false, false, 0, 0, 0, 0, 0⟩
    [([(at_ (q.offTc + c), fNat 1), (at_ (q.offU + c), fNat 1)], comfortAt q.series q.cfg u.idx (q.start + k * oStep q.cfg)),
     ([(at_ (q.offPc + c), fNat 1), (at_ (q.offV + c), fNat 1)], u.dpMin)]

/-- The linear cost of the variables of step k: J without the move term. -/
def cost (q : QpIn) (k : Nat) : List Nat :=
  let dt := fNat (oStep q.cfg)
  let mwh := fNat 3600000000
  let w := designProps q.cfg
  let price := q.forecast 4 0 k 0
  (List.range q.plants).map (fun p => dmul dt
      (ddiv (dadd (q.forecast 2 p k 0) (dmul (oReal q.cfg 24) (q.forecast 3 p k 0))) mwh)) ++
    List.replicate q.plants 0 ++
    (List.range q.stations).map (fun g =>
      let f := q.stationFlow g
      if dzero f then 0 else dmul dt (dmul price (ddiv f (dmul (dmul w.rho (q.stationEta g)) mwh)))) ++
    List.replicate (2 * q.stores + 2 * q.cands) 0 ++
    List.replicate q.cands (dmul dt (ddiv (oReal q.cfg 40) (fNat 3600))) ++
    List.replicate q.cands (dmul dt (ddiv (ddiv (oReal q.cfg 48) (fNat 1000)) (fNat 3600))) ++
    [dmul dt (ddiv (oReal q.cfg 56) mwh)]

/-- J of a list of variables (R198). -/
def objective (q : QpIn) (x : List Nat) : Nat :=
  let n := oSteps q.cfg
  let lin := dsum ((((List.range n).flatMap q.cost).zip x).map fun c => dmul c.1 c.2)
  let t (k p : Nat) : Nat := nth x (k * q.width + q.offT + p) 0
  let move := dsum ((List.range n).flatMap fun k => (List.range q.plants).map fun p =>
    dsq (dsub (t k p) (if k = 0 then q.plantT0 p else t (k - 1) p)))
  dadd lin (dmul (oReal q.cfg 32) move)

end QpIn

/-! ### The program and its residuals (R201) -/

/-- A convex quadratic program: H, the linear cost, the equality rows, the bounds, the general inequalities; and the order of the KKT
system: its steps, their variables and equality rows. -/
structure Qp where
  h : SMat
  c : List Nat
  a : SMat
  b : List Nat
  lo : List (Option Nat)
  hi : List (Option Nat)
  g : SMat
  gb : List Nat
  steps : Nat
  width : Nat
  rows : Nat
  groups : List Nat
  deriving DecidableEq, Repr

/-- The Hessian of the move term: 2·w_Δ for each term that a temperature is in. -/
def moveHessian (q : QpIn) : SMat :=
  let n := oSteps q.cfg
  let w2 := dmul (fNat 2) (oReal q.cfg 32)
  (List.range n).flatMap fun k => (List.range q.width).map fun i =>
    if q.offT ≤ i ∧ i < q.offT + q.plants then
      let c := k * q.width + i
      (if k = 0 then [] else [(c - q.width, dneg w2)]) ++ [(c, if k + 1 = n then w2 else dmul (fNat 2) w2)] ++
        (if k + 1 = n then [] else [(c + q.width, dneg w2)])
    else []

/-- The program of a round. -/
def qpOf (q : QpIn) : Qp :=
  let ks := List.range (oSteps q.cfg)
  let eq := ks.flatMap q.equalities
  let ge := ks.flatMap q.inequalities
  let bs := ks.flatMap q.bounds
  let w2 := dmul (fNat 2) (oReal q.cfg 32)
  let lin (k : Nat) : List Nat :=
    (q.cost k).zipIdx.map fun c =>
      if k = 0 ∧ q.offT ≤ c.2 ∧ c.2 < q.offT + q.plants then dsub c.1 (dmul w2 (q.plantT0 (c.2 - q.offT))) else c.1
  { h := moveHessian q, c := ks.flatMap lin, a := eq.map (·.1), b := eq.map (·.2), lo := bs.map (·.1), hi := bs.map (·.2),
    g := ge.map (·.1), gb := ge.map (·.2), steps := oSteps q.cfg, width := q.width, rows := q.rows,
    groups := [q.plants, q.plants, q.stations, q.stores, q.stores, q.cands, q.cands, q.cands, q.cands, 1, q.rows] }

/-- A row times a vector, and a matrix times a vector. -/
def rowTimes (row : List (Nat × Nat)) (x : List Nat) : Nat := dsum (row.map fun c => dmul c.2 (nth x c.1 0))
def matTimes (a : SMat) (x : List Nat) : List Nat := a.map fun row => rowTimes row x

/-- The transpose of a matrix times a vector, added to `acc`. -/
def addTransTimes (a : SMat) (y acc : List Nat) : List Nat :=
  (a.zip y).foldl (fun v r => r.1.foldl (fun v c => v.modify c.1 fun x => dadd x (dmul c.2 r.2)) v) acc

def vAdd (x y : List Nat) : List Nat := (x.zip y).map fun c => dadd c.1 c.2
def vSub (x y : List Nat) : List Nat := (x.zip y).map fun c => dsub c.1 c.2
def vNeg (x : List Nat) : List Nat := x.map dneg

/-- The largest magnitude of some values. -/
def normInf (x : List Nat) : Nat := x.foldl (fun m v => dmax m (dabs v)) 0

namespace Qp

/-- A variable whose bounds coincide keeps its value (log entry 119). -/
def pinned (p : Qp) (i : Nat) : Bool :=
  match nth p.lo i none, nth p.hi i none with
  | some l, some h => dle h l
  | _, _ => false

/-- The distances of a variable from its bounds; none where it has no barrier. -/
def below (p : Qp) (x : List Nat) (i : Nat) : Option Nat :=
  if p.pinned i then none else (nth p.lo i none).map fun l => dsub (nth x i 0) l
def above (p : Qp) (x : List Nat) (i : Nat) : Option Nat :=
  if p.pinned i then none else (nth p.hi i none).map fun h => dsub h (nth x i 0)

/-- The primal residuals: A·x − b, and G·x − s − g. -/
def resEq (p : Qp) (u : QPoint) : List Nat := vSub (matTimes p.a u.x) p.b
def resGe (p : Qp) (u : QPoint) : List Nat := vSub (vSub (matTimes p.g u.x) u.sl) p.gb

/-- The dual residual H·x + c + Aᵀ·λ − z_l + z_u − Gᵀ·z; 0 for a variable that keeps its value. -/
def resDual (p : Qp) (u : QPoint) : List Nat :=
  let v := addTransTimes p.a u.lam (vAdd (matTimes p.h u.x) p.c)
  let v := addTransTimes p.g (vNeg u.zi) (vAdd (vSub v u.zl) u.zu)
  v.zipIdx.map fun c => if p.pinned c.2 then 0 else c.1

/-- The products of the complementarity conditions. -/
def products (p : Qp) (u : QPoint) : List Nat :=
  ((List.range u.x.length).flatMap fun i =>
    ((p.below u.x i).map fun d => dmul d (nth u.zl i 0)).toList ++ ((p.above u.x i).map fun d => dmul d (nth u.zu i 0)).toList) ++
    (u.sl.zip u.zi).map fun c => dmul c.1 c.2

/-- The complementarity gap. -/
def gap (p : Qp) (u : QPoint) : Nat := dsum (p.products u)

/-- ‖r_p‖∞, ‖r_d‖∞ and the merit φ at an objective J (R201). -/
def primalInf (p : Qp) (u : QPoint) : Nat := normInf (p.resEq u ++ p.resGe u)
def dualInf (p : Qp) (u : QPoint) : Nat := normInf (p.resDual u)
def merit (p : Qp) (u : QPoint) (j : Nat) : Nat :=
  let one := fNat 1
  dmax (dmax (ddiv (p.primalInf u) (dadd one (normInf (p.b ++ p.gb)))) (ddiv (p.dualInf u) (dadd one (normInf p.c))))
    (ddiv (p.gap u) (dadd one (dabs j)))

/-! ### The KKT system (R201 steps 1 and 2) -/

/-- The place of variable i and of equality row e in the step-major order. -/
def varAt (p : Qp) (i : Nat) : Nat := i / p.width * (p.width + p.rows) + i % p.width
def eqAt (p : Qp) (e : Nat) : Nat := e / p.rows * (p.width + p.rows) + p.width + e % p.rows

/-- The barrier term of a variable's bounds. -/
def barrier (p : Qp) (u : QPoint) (i : Nat) : Nat :=
  dadd ((p.below u.x i).elim 0 fun d => ddiv (nth u.zl i 0) d) ((p.above u.x i).elim 0 fun d => ddiv (nth u.zu i 0) d)

/-- The entries of the reduced KKT matrix [[H + Σ, Aᵀ], [A, −εI]], ε = 2⁻⁴⁰, the general inequalities folded into Σ. -/
def kktEntries (p : Qp) (u : QPoint) : List (Nat × Nat × Nat) :=
  let n := u.x.length
  let ok (i j : Nat) : Bool := !p.pinned i && !p.pinned j
  let hes := p.h.zipIdx.flatMap fun r => r.1.filterMap fun c => if ok r.2 c.1 then some (p.varAt r.2, p.varAt c.1, c.2) else none
  let bar := (List.range n).map fun i => (p.varAt i, p.varAt i, if p.pinned i then fNat 1 else p.barrier u i)
  let fold := (p.g.zip (u.sl.zip u.zi)).flatMap fun r =>
    let d := ddiv r.2.2 r.2.1
    r.1.flatMap fun a => r.1.filterMap fun b =>
      if ok a.1 b.1 then some (p.varAt a.1, p.varAt b.1, dmul (dmul a.2 d) b.2) else none
  let con := p.a.zipIdx.flatMap fun r => r.1.flatMap fun c =>
    if p.pinned c.1 then [] else [(p.eqAt r.2, p.varAt c.1, c.2), (p.varAt c.1, p.eqAt r.2, c.2)]
  let reg := (List.range p.a.length).map fun e => (p.eqAt e, p.eqAt e, dneg (fRat 1 (2 ^ 40)))
  hes ++ bar ++ fold ++ con ++ reg

/-- The reduced KKT matrix by rows. -/
def kkt (p : Qp) (u : QPoint) : SMat :=
  let n := p.steps * (p.width + p.rows)
  let m := (p.kktEntries u).foldl (fun (m : SMat) e => m.modify e.1 fun row => addGrad e.2.1 e.2.2 row) (List.replicate n [])
  m.map fun row => row.mergeSort fun a b => decide (a.1 ≤ b.1)

/-- The first rows of the diagonal blocks: cut at the boundaries of the groups of each step, and at 64 rows. -/
def blockStarts (p : Qp) : List Nat :=
  let cuts := p.groups.foldl (fun (a : List Nat × Nat) g =>
    (a.1 ++ (List.range (ceilDiv g 64)).map (fun i => a.2 + 64 * i), a.2 + g)) ([], 0)
  (List.range p.steps).flatMap fun k => cuts.1.map fun o => k * (p.width + p.rows) + o

/-! ### Steps (R201 step 3) -/

/-- The terms that a corrector adds to the complementarity conditions: σμ less the products of the predictor's changes. -/
structure Centre where
  lo : List Nat
  hi : List Nat
  ge : List Nat

/-- The change of every part of a point. -/
abbrev Step := QPoint

/-- The right-hand side of the KKT system in its step-major order. -/
def kktRhs (p : Qp) (u : QPoint) (c : Centre) : List Nat :=
  let rd := p.resDual u
  let rg := p.resGe u
  let low (i : Nat) : Nat := (p.below u.x i).elim 0 fun d => dsub (ddiv (nth c.lo i 0) d) (nth u.zl i 0)
  let upp (i : Nat) : Nat := (p.above u.x i).elim 0 fun d => dsub (ddiv (nth c.hi i 0) d) (nth u.zu i 0)
  let base := rd.zipIdx.map fun x => dsub (dsub (low x.2) (upp x.2)) x.1
  let ge := (List.range u.sl.length).map fun i =>
    let s := nth u.sl i 0
    let z := nth u.zi i 0
    dsub (ddiv (dsub (nth c.ge i 0) (dmul z (nth rg i 0))) s) z
  let top := (addTransTimes p.g ge base).zipIdx.map fun x => if p.pinned x.2 then 0 else x.1
  let bot := vNeg (p.resEq u)
  let w := p.width + p.rows
  (List.range (p.steps * w)).map fun r =>
    if r % w < p.width then nth top (r / w * p.width + r % w) 0 else nth bot (r / w * p.rows + (r % w - p.width)) 0

/-- The change of a point that a solution of the KKT system gives. -/
def stepOf (p : Qp) (u : QPoint) (c : Centre) (sol : List Nat) : Step :=
  let dx := (List.range u.x.length).map fun i => nth sol (p.varAt i) 0
  let dl := (List.range u.lam.length).map fun e => nth sol (p.eqAt e) 0
  let zl := (List.range u.x.length).map fun i =>
    (p.below u.x i).elim 0 fun d => dsub (ddiv (dsub (nth c.lo i 0) (dmul (nth u.zl i 0) (nth dx i 0))) d) (nth u.zl i 0)
  let zu := (List.range u.x.length).map fun i =>
    (p.above u.x i).elim 0 fun d => dsub (ddiv (dadd (nth c.hi i 0) (dmul (nth u.zu i 0) (nth dx i 0))) d) (nth u.zu i 0)
  let ds := vAdd (matTimes p.g dx) (p.resGe u)
  let zi := (List.range u.sl.length).map fun i =>
    dsub (ddiv (dsub (nth c.ge i 0) (dmul (nth u.zi i 0) (nth ds i 0))) (nth u.sl i 0)) (nth u.zi i 0)
  ⟨dx, dl, zl, zu, ds, zi⟩

/-- The largest part of a step, at most 2, that keeps `v + α·d` at or above 0. -/
def reach (l : List (Nat × Nat)) : Nat :=
  l.foldl (fun a c => if dlt c.2 0 then (let r := ddiv (dneg c.1) c.2; if dlt r a then r else a) else a) (fNat 2)

/-- The primal and the dual reach of a step. -/
def reaches (p : Qp) (u : QPoint) (d : Step) : Nat × Nat :=
  let is_ := List.range u.x.length
  (reach ((is_.filterMap fun i => (p.below u.x i).map fun b => (b, nth d.x i 0)) ++
      (is_.filterMap fun i => (p.above u.x i).map fun a => (a, dneg (nth d.x i 0))) ++ u.sl.zip d.sl),
   reach ((is_.filterMap fun i => (p.below u.x i).map fun _ => (nth u.zl i 0, nth d.zl i 0)) ++
      (is_.filterMap fun i => (p.above u.x i).map fun _ => (nth u.zu i 0, nth d.zu i 0)) ++ u.zi.zip d.zi))

/-- A point moved by parts of a step. -/
def move (u : QPoint) (d : Step) (ap ad : Nat) : QPoint :=
  let go (a : Nat) (x y : List Nat) : List Nat := (x.zip y).map fun c => dadd c.1 (dmul a c.2)
  ⟨go ap u.x d.x, go ad u.lam d.lam, go ad u.zl d.zl, go ad u.zu d.zu, go ap u.sl d.sl, go ad u.zi d.zi⟩

/-- The predictor aims at complementarity 0. -/
def noCentre (u : QPoint) : Centre := ⟨zeroVec u.x.length, zeroVec u.x.length, zeroVec u.sl.length⟩

/-- μ: the mean of the complementarity products. -/
def mean (p : Qp) (u : QPoint) : Nat :=
  let l := p.products u
  if l.isEmpty then 0 else ddiv (dsum l) (fNat l.length)

/-- Mehrotra's corrector from the predictor's step: σ = (μ_aff/μ)³, and the products of the predictor's changes (log entry 38). -/
def centre (p : Qp) (u : QPoint) (d : Step) : Centre :=
  let c := p.reaches u d
  let whole (a : Nat) : Nat := if dlt a (fNat 1) then a else fNat 1
  let mu := p.mean u
  let r := ddiv (p.mean (move u d (whole c.1) (whole c.2))) mu
  let sm := if dzero mu then 0 else dmul (dmul r (dmul r r)) mu
  { lo := (d.x.zip d.zl).map fun c => dsub sm (dmul c.1 c.2), hi := (d.x.zip d.zu).map fun c => dadd sm (dmul c.1 c.2),
    ge := (d.sl.zip d.zi).map fun c => dsub sm (dmul c.1 c.2) }

/-- The next iterate: 0.995 of the reach of the corrector's step, at most the whole step (R201). -/
def advance (p : Qp) (u : QPoint) (d : Step) : QPoint :=
  let r := p.reaches u d
  let part (a : Nat) : Nat :=
    let b := dmul (dconst 995 1000) a
    if dlt b (fNat 1) then b else fNat 1
  move u d (part r.1) (part r.2)

end Qp

end Sys2Proof.Machine
end

