-- ==== Sys2Proof/Machine/Opt.lean ====
section
/-! DEFINITION. The optimisation round (R193 to R204, R207, R208, R215): its warm start, its jobs, its iterates, its results and their
publication. -/

namespace Sys2Proof.Machine

/-! ### Warm start (R202) -/

/-- The values of a step record that hold the state round (R202). -/
def stateStep (q : QpIn) : List Nat :=
  let ws := roundProps q.m q.sr.net
  let heat (p : Nat) : Nat :=
    let b := elemBranch q.m 5 p
    dmul (dmul (q.flow b) (nth ws b (props 0)).cp) (dsub (q.temp (branchAt q.m b).dst) (q.temp (branchAt q.m b).src))
  (List.range q.plants).map heat ++ (List.range q.plants).map q.plantT0 ++ (List.range q.stations).map q.stationD0 ++
    (List.range q.stores).map (fun j => q.flow (elemBranch q.m 6 j)) ++ (List.range q.stores).map q.storeE0 ++
    (List.range q.cands).map (fun c => q.temp (branchAt q.m (q.critBranch c)).src) ++
    (List.range q.cands).map (fun c => dpOf q.m q.sr.res.pres (q.critBranch c)) ++ List.replicate (2 * q.cands + 1) 0

/-- A step of a trajectory as a step of this round: what it has of the same element or candidate, else the state round's value. -/
def takeStep (q : QpIn) (t : Traj) (old state : List Nat) : List Nat :=
  let n := t.crit.length
  let group (count from_ place has : Nat) : List Nat :=
    (List.range count).map fun i => if i < has then nth old (from_ + i) 0 else nth state (place + i) 0
  let crit (from_ place : Nat) : List Nat :=
    q.crit.zipIdx.map fun c => match t.crit.findIdx? (· == c.1) with
      | some i => nth old (from_ + i) 0
      | none => nth state (place + c.2) 0
  let d := 2 * t.plants
  let m := d + t.stations
  let e := m + t.stores
  let c := e + t.stores
  group q.plants 0 0 t.plants ++ group q.plants t.plants q.offT t.plants ++ group q.stations d q.offD t.stations ++
    group q.stores m q.offM t.stores ++ group q.stores e q.offE t.stores ++ crit c q.offTc ++ crit (c + n) q.offPc ++
    crit (c + 2 * n) q.offU ++ crit (c + 3 * n) q.offV ++ [nth old (c + 4 * n) 0]

/-- A step's values moved inward, to at least 10⁻⁴ of each bound range from its bounds (R202); from a bound on one side alone, which
has no range, to at least 10⁻⁴ (log entry 119, DESIGN CHOICE). -/
def inward (bs : List (Option Nat × Option Nat)) (vals : List Nat) : List Nat :=
  vals.zipIdx.map fun c =>
    match nth bs c.2 (none, none) with
    | (some lo, some hi) =>
      let d := dmul (dconst 1 10000) (dsub hi lo)
      dclamp c.1 (dadd lo d) (dsub hi d)
    | (some lo, none) => dmax c.1 (dadd lo (dconst 1 10000))
    | _ => c.1

/-- The warm start (R202): the trajectory in force shifted to the new steps, or the state held over every step. -/
def warmSteps (traj : Option Traj) (q : QpIn) : List (List Nat) :=
  let v := stateStep q
  let raw (k : Nat) : List Nat := match traj with
    | some t => takeStep q t (nth t.steps (trajStep t (q.start + k * oStep q.cfg)) []) v
    | none => v
  (List.range (oSteps q.cfg)).map fun k => inward (q.bounds k) (raw k)

/-- A positive number that the manual does not state: a multiplier or a slack of the warm start, which R202 gives its variables alone
(kind 38, log entry 38). -/
def openPos (i : Nat) : Nat :=
  let v := dabs (Config.openValue 38 i % 2 ^ 64)
  if fFinite f64 v && dlt 0 v then v else fNat 1

/-- Iterate 0 of a round. -/
def startPoint (p : Qp) (x : List Nat) : QPoint :=
  let n := x.length
  let e := p.a.length
  let g := p.g.length
  { x := x, lam := (List.range e).map openPos, zl := (List.range n).map fun i => openPos (e + i),
    zu := (List.range n).map fun i => openPos (e + n + i), sl := (List.range g).map fun i => openPos (e + 2 * n + i),
    zi := (List.range g).map fun i => openPos (e + 2 * n + g + i) }

/-! ### The problem of a round (R193 to R200) -/

/-- The state of the network as it stands, for a round that has found no state round. -/
def heldState (s : State) : StateRound :=
  let n := s.nmod.net
  { res := { emptyRes 0 0 stNoSolution 0 s with pres := n.pres, temp := n.temp, flow := n.flow },
    net := n, vals := [], h := [], factor := [], factorRows := [], closed := [], fixed := [] }

/-- A series whose INDEX names no element of the model is ignored (R200). -/
def seriesLive (m : Mizon) (x : Series) : Bool :=
  match x.1 with
  | 2 | 3 | 5 => decide (x.2.1 < m.plants.length)
  | 6 => m.substs.any fun u => u.idx == x.2.1
  | 7 => decide (x.2.1 < m.zones.length)
  | _ => true

/-- What the program of a round is built from. -/
def qpIn (s : State) (m : Mizon) (r : OptRun) : QpIn :=
  { m := m, sr := r.state.getD (s.nmod.estGood.getD (heldState s)), cfg := r.cfg, series := r.series.filter (seriesLive m),
    start := r.start, crit := (optCands m r.cfg).map (·.idx), sens := r.sens }

/-- The candidates' solves are done: iterate 0 and its merit; the factorisation of iteration 1 follows (R201, R202). -/
def problemBuilt (s : State) (m : Mizon) (r : OptRun) : OptRun :=
  let q := qpIn s m r
  let p := qpOf q
  let u := startPoint p (warmSteps s.nmod.traj.now q).flatten
  { r with point := u, merit := p.merit u (q.objective u.x), phase := .factor }

/-! ### Results (R215) -/

/-- An optimisation result body. -/
def optBody (r : OptRes) : Bytes :=
  let t := r.traj
  let n := t.steps.length
  let c := t.crit.length
  le 1 1 ++ le 1 0 ++ le 2 r.status ++ le 4 r.flags ++ le 6 r.start ++ le 2 0 ++ le 8 r.stateRound ++ le 4 r.modelId ++
    le 4 r.rev ++ le 2 n ++ le 2 t.dt ++ le 1 t.plants ++ le 1 t.stores ++ le 1 t.stations ++ le 1 c ++
    le 4 (n * stepWidth t.plants t.stations t.stores c) ++ le 4 (n * (1 + t.stores + 2 * c)) ++ le 2 r.iters ++
    le 2 r.bestIter ++ le 4 r.minresIters ++ le 4 r.regs ++ le 4 0 ++ le 8 t.objective ++ le 8 t.merit ++ le 8 t.primal ++
    le 8 t.dual ++ le 8 t.gap ++ le 6 r.published.sec ++ le 2 0 ++ le 4 r.published.ns ++ zeros 12 ++
    t.steps.flatMap (fun v => v.flatMap (le 8)) ++
    fit ((2 * c + 7) / 8 * 8) (t.crit.flatMap (le 2))

/-- `n` open values of a kind that depend on the draw, finite. -/
def openList (kind n : Nat) (s : State) : List Nat × State :=
  let fin (v : Nat) : Nat := if fFinite f64 (v % 2 ^ 64) then v % 2 ^ 64 else 0
  ((List.range n).map fun i => fin (Config.openValue kind (s.draws + i)), { s with draws := s.draws + n })

/-- The flags of a result that follow from its round and its steps: SERIES_EXTENDED, CANDIDATES_TRUNCATED, SLACK_ACTIVE. -/
def optMarks (m : Mizon) (r : OptRun) (t : Traj) : Nat :=
  let ext := (r.series.filter (seriesLive m)).any fun x =>
    (List.range (oSteps r.cfg)).any fun k => (seriesAt x (r.start + k * oStep r.cfg)).2
  let base := 2 * t.plants + t.stations + 2 * t.stores + 2 * t.crit.length
  let slack := t.steps.any fun v => (v.drop base).any fun u => dlt 0 u
  128 * b2n (decide ((optCands m r.cfg).length < (wantCands m r.cfg).length)) + 256 * b2n ext + 512 * b2n slack

/-- A list cut into steps. -/
def stepsOf (n w : Nat) (x : List Nat) : List (List Nat) := (List.range n).map fun k => (x.drop (k * w)).take w

/-- A point of a program as a trajectory, with J, φ, the residual norms and the gap (R198, R201). -/
def trajOf (q : QpIn) (status : Nat) (u : QPoint) : Traj :=
  let p := qpOf q
  let j := q.objective u.x
  { status := status, start := q.start, dt := oStep q.cfg, plants := q.plants, stations := q.stations, stores := q.stores,
    crit := q.crit, steps := stepsOf (oSteps q.cfg) q.width u.x, series := q.series, cfg := q.cfg, objective := j,
    merit := p.merit u j, primal := p.primalInf u, dual := p.dualInf u, gap := p.gap u, point := u, sens := q.sens }

/-- A trajectory evaluated again against another state round (R207): its own program, with the coefficients of that state. -/
def reevaluate (m : Mizon) (g : StateRound) (t : Traj) : Traj :=
  let q : QpIn := { m := m, sr := g, cfg := t.cfg, series := t.series, start := t.start, crit := t.crit, sens := t.sens }
  { trajOf q stStale t.point with steps := t.steps, dt := t.dt, plants := t.plants, stations := t.stations, stores := t.stores }

/-- Kinds of the optimisation round. -/
def isOptKind : NJobKind → Bool
  | .optCandidate => true
  | .optFactor => true
  | .optPredictor => true
  | .optCorrector => true
  | _ => false

/-- The result of an optimisation round is retained and counted; a good trajectory becomes the one in force at the end of
the tick, or waits for recovery in FALLBACK and LOCKDOWN (R204, R211, R212). -/
def publishOpt (res : OptRes) (startNs : Nat) (s : State) : State :=
  let res := { res with published := ⟨ptpSec s, ptpNs s⟩ }
  let s := { s with nmod := { s.nmod with
    optResults := (res :: s.nmod.optResults).take 4, opt := none, optLast := (ptpTotalNs s - startNs) / 1000000 } }
  let s := if goodStatus res.status then
      (if s.sys.mode = .fallback ∨ s.sys.mode = .lockdown then
        { s with nmod := { s.nmod with trajNext := some res.traj } }
      else
        { s with nmod := { s.nmod with
          traj := Paged.write s (some res.traj) s.nmod.traj, trajNext := none } })
    else s
  let s := if goodStatus res.status then
      sendDigest 1 (res.stateRound) (res.traj.steps.flatMap fun v => v.flatMap (le 8)) s else s
  countOpt res.status (withdraw isOptKind s)

/-- A round ends with a trajectory, its status, flags and iterate (R206). -/
def closeOpt (m : Mizon) (r : OptRun) (t : Traj) (status flags best : Nat) (s : State) : State :=
  let t := { t with status := status }
  publishOpt
    { start := r.start, status := status, flags := Nat.lor (Nat.lor r.flags flags) (optMarks m r t),
      stateRound := r.state.elim 0 (·.res.round), modelId := m.id, rev := m.rev, iters := r.iter, bestIter := best,
      minresIters := r.minresIters, regs := r.regs, published := ⟨0, 0⟩, traj := t } r.startNs s

/-- The warm start as what a NO_SOLUTION round returns (R206); what is evaluated of it is open where no state round gives the
coefficients or core 0 publishes without evaluation (R210, kind 39, log entry 38). -/
def warmTraj (m : Mizon) (r : OptRun) (evaluated : Bool) (s : State) : Traj × State :=
  let q := qpIn s m r
  let x := (warmSteps s.nmod.traj.now q).flatten
  if evaluated && r.state.isSome && r.sens.length == q.cands then (trajOf q stNoSolution (startPoint (qpOf q) x), s)
  else
    let (o, s) := openList 39 5 s
    ({ status := stNoSolution, start := q.start, dt := oStep q.cfg, plants := q.plants, stations := q.stations, stores := q.stores,
       crit := q.crit, steps := stepsOf (oSteps q.cfg) q.width x, series := q.series, cfg := q.cfg, objective := nth o 0 0,
       merit := dabs (nth o 1 0), primal := dabs (nth o 2 0), dual := dabs (nth o 3 0), gap := dabs (nth o 4 0),
       point := ⟨x, [], [], [], [], []⟩, sens := [] }, s)

/-- A round whose iteration ends without convergence (R206, R207, R208). -/
def closeOptShort (m : Mizon) (r : OptRun) (flags : Nat) (s : State) : State :=
  match r.best with
  | some (k, _, u) => closeOpt m r (trajOf (qpIn s m r) stDeadlineBest u) stDeadlineBest flags k s
  | none =>
    match s.nmod.traj.now, s.nmod.estGood with
    | some t, some g => closeOpt m { r with state := some g } (reevaluate m g t) stStale flags 0xFFFF s
    | _, _ =>
      let (t, s) := warmTraj m r true s
      closeOpt m r t stNoSolution flags 0xFFFF s

/-! ### Jobs (R197, R201, R203) -/

/-- A job of the optimisation round is in the ring or executes. -/
def optJobOut (s : State) : Bool := s.solv.ring.any (fun j => isOptKind j.kind) || s.solv.nrun.any fun j => isOptKind j.kind

/-- The kind of job that a phase submits. -/
def phaseKind : OptPhase → Option NJobKind
  | .waiting => none
  | .stalled => none
  | .candidates _ => some .optCandidate
  | .factor => some .optFactor
  | .predictor => some .optPredictor
  | .corrector => some .optCorrector

/-- The next job of the round, if one is due: none between a cut and the publication of its one-second round (R203). -/
def optPump (s : State) : State :=
  match s.nmod.active, s.nmod.opt with
  | some m, some r =>
    match phaseKind r.phase with
    | none => s
    | some k =>
      if optJobOut s || s.nmod.est.isSome || s.nmod.cutOpen then s
      else if passed s r.jobDeadline then closeOptShort m r 8 s
      else submitJob k r.startNs r.jobDeadline s
  | _, _ => s

/-- TOLERANCE of the inner solves: max(10⁻¹⁰, 0.01·φ_(i−1)) (R201). -/
def innerTol (r : OptRun) : Nat := dmax (tenTo 10) (dmul (dconst 1 100) r.merit)

/-- The right-hand side of an iteration's predictor or corrector. -/
def innerRhs (p : Qp) (r : OptRun) (corrector : Bool) : List Nat :=
  let c := Qp.noCentre r.point
  p.kktRhs r.point (if corrector then p.centre r.point (p.stepOf r.point c r.pred) else c)

/-- The pivot threshold of NMOD's factorisations: the default 2⁻⁴⁰ (R163). -/
def nmodTau : Nat := (1023 - 40) * 2 ^ 52

/-- What a job of the optimisation round computes: a candidate's PCG solve with the state round's H and factor, the block factor of the
KKT matrix, or the MINRES solve of the predictor or the corrector. ITER_LIMIT follows from a measured time and is open (R203, kind 43,
log entry 38). -/
def optKernel (s : State) (m : Mizon) (r : OptRun) (k : NJobKind) : Except KErr KOut :=
  let q := qpIn s m r
  match k with
  | .optCandidate =>
    let f : Factor := if q.sr.factorRows.isEmpty then .jacobi q.sr.factor else .ic0 q.sr.factorRows
    pcgK q.sr.h f (q.candRhs r.sens.length) (zeroVec q.sr.h.length) true true (cfgPrec32 s) (tenTo (cfgCgExp s)) (cfgCgMax s)
  | .optFactor =>
    let p := qpOf q
    ldltK (oPrec32 r.cfg) nmodTau (p.kkt r.point) p.blockStarts
  | k =>
    let p := qpOf q
    let a := p.kkt r.point
    krylovK 0x13 a (.ldlt p.blockStarts r.blocks) (innerRhs p r (k == .optCorrector)) (r.inner.getD (zeroVec a.length)) true
      r.inner.isNone (oPrec32 r.cfg) (innerTol r) 0 (Config.openValue 43 s.draws % 1000000 + 1)

/-- One-second results with OK or DEADLINE_BEST so far. -/
def goodCount (s : State) : Nat := (vget s.nmod.estCounts 0 0 + vget s.nmod.estCounts 1 0).toNat

/-- A waiting round takes the first one-second result with status OK or DEADLINE_BEST after its start as its state (R31). -/
def optStateReady (s : State) : State :=
  match s.nmod.active, s.nmod.opt, s.nmod.estGood with
  | some m, some r, some g =>
    if r.phase = .waiting ∧ goodCount s ≠ r.goodBefore then
      let n := (optCands m r.cfg).length
      let r := { r with state := some g }
      let seen := clampsOf (ddiv (dadd (oReal r.cfg 72) (oReal r.cfg 80)) (fNat 2) :: g.net.cells.flatten)
      { s with nmod := { s.nmod with
        opt := some (if n = 0 then problemBuilt s m r else { r with phase := .candidates n }),
        propertyClamps := s.nmod.propertyClamps + BitVec.ofNat 32 seen } }
    else s
  | _, _, _ => s

/-- After a one-second result: the waiting round takes it, and held-back jobs go out. -/
def afterEst (s : State) : State := if s.nmod.est.isNone then optPump (optStateReady s) else s

/-- Series loaded since a round start in the place of earlier ones of the same KIND and INDEX (R199). -/
def mergeSeries (old new : List Series) : List Series :=
  new.foldl (fun l x => l.filter (fun y => !(y.1 == x.1 && y.2.1 == x.2.1)) ++ [x]) old

/-- An optimisation round starts at a cut (R193), and with it the configuration and the series loaded since the last start take effect
(R199, R218). -/
def startOpt (cutSec : Nat) (s : State) : State :=
  match s.nmod.active with
  | none => s
  | some _ =>
    let c := s.nmod.optPend.getD s.nmod.optCfg
    let series := mergeSeries s.nmod.forecasts s.nmod.forecastPend
    let start := cutSec * 1000000000
    let r : OptRun :=
      { start := cutSec, startNs := start, deadline := start + oDeadline c * 1000000000,
        jobDeadline := jobDeadlineOf start (oDeadline c * 1000000), cfg := c, phase := .waiting, goodBefore := goodCount s,
        state := none, series := series, iter := 0, sens := [], point := ⟨[], [], [], [], [], []⟩, merit := 0, blocks := [],
        inner := none, pred := [], best := none, minresIters := 0, regs := 0, flags := 0 }
    { s with nmod := { s.nmod with opt := some r, optCfg := c, optPend := none, forecasts := series, forecastPend := [] } }

/-- An interior-point iteration has completed with the corrector's solution: the new iterate and its merit; the round converges, reaches
its limit, or goes on. The best iterate is chosen under R187, the warm start among them (R201). -/
def optIterate (m : Mizon) (r : OptRun) (sol : List Nat) (s : State) : State :=
  let q := qpIn s m r
  let p := qpOf q
  let c := p.centre r.point (p.stepOf r.point (Qp.noCentre r.point) r.pred)
  let u := p.advance r.point (p.stepOf r.point c sol)
  let phi := p.merit u (q.objective u.x)
  let k := r.iter + 1
  let best := match r.best with
    | some b => if dlt phi b.2.1 then (k, phi, u) else b
    | none => if dlt phi r.merit then (k, phi, u) else (0, r.merit, r.point)
  let r := { r with iter := k, merit := phi, point := u, best := some best, inner := none, pred := [], phase := .factor }
  if dle phi (tenTo (oTolExp r.cfg)) then closeOpt m r (trajOf q stOK u) stOK 1 k s
  else if oIterMax r.cfg ≤ k then closeOptShort m r 4 s
  else optPump { s with nmod := { s.nmod with opt := some r } }

/-- A job of the optimisation round ends (R201, R203, R209): a MINRES job that ends with LIMIT is resubmitted from the x that it has
committed. Its counts enter the result whatever its status. -/
def optJobEnd (kind : NJobKind) (status : Nat) (out : KOut) (s : State) : State :=
  match s.nmod.active, s.nmod.opt with
  | some m, some r =>
    let r := { r with
      regs := r.regs + out.regs,
      minresIters := if kind = .optPredictor ∨ kind = .optCorrector then r.minresIters + out.iters else r.minresIters }
    if status = stOK then
      let r := { r with flags := if out.regs = 0 then r.flags else Nat.lor r.flags 2 }
      let go (r : OptRun) : State := optPump { s with nmod := { s.nmod with opt := some r } }
      let x := nth out.vecs 0 []
      match kind with
      | .optCandidate =>
        let r := { r with sens := r.sens ++ [(qpIn s m r).sensOf (cfgSigma s) x] }
        (match r.phase with
        | .candidates (n + 2) => go { r with phase := .candidates (n + 1) }
        | _ => go (problemBuilt s m r))
      | .optFactor =>
        go { r with
          phase := .predictor, inner := none,
          blocks := match out.factor with
            | .ldlt _ rows => rows
            | _ => [] }
      | .optPredictor =>
        if out.flags = kLimit then go { r with inner := some x } else go { r with inner := none, pred := x, phase := .corrector }
      | _ => if out.flags = kLimit then go { r with inner := some x } else optIterate m r x s
    else
      closeOptShort m r (if status = stNumeric then 16 else if status = stInternal then 32 else 8) s
  | _, _ => s

/-- OPTIMISATION_WAIT_EXPIRY: a round still waiting when its job deadline has passed (R208). -/
def optWaitExpiry (s : State) : State :=
  match s.nmod.active, s.nmod.opt with
  | some m, some r => if r.phase = .waiting ∧ passed s r.jobDeadline = true then closeOptShort m r 8 s else s
  | _, _ => s

/-- Core 0 publishes for a stalled core 2 (R210): the trajectory in force with its values and residual fields unchanged, or the warm
start; no trajectory is published. -/
def stallOpt (s : State) : State :=
  match s.nmod.active, s.nmod.opt with
  | some m, some r =>
    let (status, t, s) := match s.nmod.traj.now, s.nmod.estGood with
      | some t, some _ => (stStale, t, s)
      | _, _ =>
        let (t, s) := warmTraj m r false s
        (stNoSolution, t, s)
    let s := post 0x0402 2 (le 1 1 ++ le 2 status ++ le 8 r.start) 0 s
    publishOpt
      { start := r.start, status := status, flags := 64, stateRound := r.state.elim 0 (·.res.round), modelId := m.id, rev := m.rev,
        iters := r.iter, bestIter := 0xFFFF, minresIters := r.minresIters, regs := r.regs, published := ⟨0, 0⟩,
        traj := { t with status := status } } r.startNs
      { s with nmod := { s.nmod with stalls := s.nmod.stalls + 1 } }
  | _, _ => s

/-- An optimisation round that still runs when a later one is to start: as for a one-second round (log entry 118). -/
def endRunningOpt (s : State) : State :=
  match s.nmod.active, s.nmod.opt with
  | some m, some r => if passed s (r.deadline + 999999) then stallOpt s else closeOptShort m r 8 s
  | _, _ => s

/-- CORE_STALL: a round not published 1 ms after its deadline (R210). -/
def coreStall (s : State) : State :=
  let s := if s.nmod.est.any fun r => passed s (r.deadline + 999999) then afterEst (stallEst s) else s
  if s.nmod.opt.any fun r => passed s (r.deadline + 999999) then stallOpt s else s

/-- Rounds are abandoned: a mode without rounds, HOLDUP or a reset (R39). -/
def abandonRounds (s : State) : State :=
  { s with
    nmod := { s.nmod with est := none, opt := none, calOpen := none, optExtra := false, cutOpen := false },
    solv := { s.solv with ring := [], nrun := none } }

/-- A running optimisation round is cancelled (R130). -/
def cancelOpt (s : State) : State :=
  match s.nmod.opt with
  | some _ =>
    withdraw isOptKind { s with nmod := { s.nmod with opt := none, cancelled := s.nmod.cancelled + 1 } }
  | none => s

/-! ### Host commands (R199, R213, R217, R218) -/

/-- NMOD_FORECAST_LOAD (R199): the series takes effect at the next round start. -/
def effForecast (p : Bytes) (s : State) : CmdRes :=
  let kind := fld p 0 1
  let idx := fld p 2 2
  let n := fld p 4 2
  let step := fld p 16 4
  let vals := (List.range n).map fun k => fld p (24 + 8 * k) 8
  let rest := (mergeSeries s.nmod.forecasts s.nmod.forecastPend).filter fun x => !(x.1 == kind && x.2.1 == idx)
  let idxOk := match kind with
    | 1 => idx == 0
    | 4 => idx == 0
    | _ => true
  let bad := (List.range n).find? fun k => !fFinite f64 (fld p (24 + 8 * k) 8)
  checked [(decide (1 ≤ kind) && decide (kind ≤ 7) && decide (rest.length < 256), 0), (fld p 1 1 == 0, 1), (idxOk, 2),
      (decide (1 ≤ n) && decide (n ≤ 384) && decide (p.length = 24 + 8 * n), 4), (fld p 6 2 == 0, 6), (fld p 14 2 == 0, 14),
      ([300, 600, 900, 1800, 3600].contains step, 16), (fld p 20 4 == 0, 20), (bad.isNone, 24 + 8 * bad.getD 0)]
    (.ok [] { s with nmod := { s.nmod with
      forecastPend := s.nmod.forecastPend ++ [(kind, idx, fld p 8 6, step, vals)] } })

/-- A real in a payload within bounds over a denominator. -/
def realIn (p : Bytes) (off : Nat) (lo hi : Int) (d : Nat) : Bool × Nat := (inRange (fld p off 8) lo hi d, off)

/-- A number in a payload within bounds. -/
def natIn (p : Bytes) (off n lo hi : Nat) : Bool × Nat := (decide (lo ≤ fld p off n) && decide (fld p off n ≤ hi), off)

/-- The checks of NMOD_OPT_CONFIG, in order (R218). -/
def optChecks (p : Bytes) (s : State) : List (Bool × Nat) :=
  let period := fld p 0 2
  let est := match s.nmod.roundPend.getLast? with
    | some q => fld q.payload 0 2
    | none => estPeriod s
  [(decide (60 ≤ period) && decide (period ≤ 3600) && period % est == 0, 0), natIn p 2 2 1 192,
    ([300, 600, 900, 1800, 3600].contains (fld p 4 4), 4),
    (decide (10 ≤ fld p 8 4) && decide (fld p 8 4 ≤ 2880) && decide (10 * fld p 8 4 ≤ 8 * period), 8),
    natIn p 12 1 10 200, natIn p 13 1 3 10, natIn p 14 1 0 64, (decide (fld p 15 1 < 2), 15), realIn p 16 20 180 1,
    realIn p 24 0 1000000 1, realIn p 32 0 1000000 1, realIn p 40 0 1000000000 1, realIn p 48 0 1000000000 1,
    realIn p 56 0 1000000000 1, realIn p 64 0 1 1, realIn p 72 20 180 1,
    (fFinite f64 (fld p 80 8) && dle 0 (fld p 80 8) && dle (fld p 80 8) (fld p 72 8), 80)]

/-- NMOD_OPT_CONFIG (R217, R218): it takes effect at the next round start; LENGTH 0 returns what is in effect. -/
def effOptConfig (p : Bytes) (s : State) : CmdRes :=
  if p.isEmpty then .ok s.nmod.optCfg s
  else checked (optChecks p s) (.ok [] { s with nmod := { s.nmod with optPend := some p } })

/-- The checks of NMOD_ROUND_CONFIG, in order (R217). -/
def roundChecks (p : Bytes) (s : State) : List (Bool × Nat) :=
  let period := fld p 0 2
  [(decide (1 ≤ period) && decide (period ≤ 10) && fld (s.nmod.optPend.getD s.nmod.optCfg) 0 2 % period == 0, 0), (fld p 2 2 == 0, 2),
   natIn p 4 4 20000 (900000 * period), natIn p 8 1 1 20, natIn p 9 1 3 12, natIn p 10 2 10 2000, natIn p 12 1 1 2,
   (decide (fld p 13 1 < 2), 13), (fld p 14 2 == 0, 14), realIn p 16 1 1000000 1000, realIn p 24 1 1000000 1000,
   realIn p 32 1 10000000 1000000]

/-- NMOD_RESULT_GET (R213): status, REGULARISED flag and body. -/
def resultGet (p : Bytes) (s : State) : Option (Nat × Bool × Bytes) :=
  match fld p 0 1, fld p 1 1 with
  | 0, 0 => (s.nmod.estResults.head?).map fun r => (r.status, bit r.flags 1, estBody r)
  | 0, _ => (s.nmod.estResults.find? fun r => r.round == fld p 8 8).map fun r => (r.status, bit r.flags 1, estBody r)
  | 1, 0 => (s.nmod.optResults.head?).map fun r => (r.status, bit r.flags 1, optBody r)
  | 1, _ => (s.nmod.optResults.find? fun r => r.start == fld p 8 8).map fun r => (r.status, bit r.flags 1, optBody r)
  | _, _ => some (stOK, false, s.nmod.record.now)

end Sys2Proof.Machine
end

