-- ==== Sys2Proof/Machine/Rtc.lean ====
section
/-! DEFINITION. Calendar, alarms, summer time and trim (R442 to R460). The calendar is a count of seconds from
2000-01-01 00:00:00 within the 400-year Gregorian cycle. -/

namespace Sys2Proof.Machine

/-! ### The Gregorian cycle (R444, R445) -/

/-- Days of the 400-year cycle. -/
def cycleDays : Nat := 146097

/-- Seconds of the 400-year cycle. -/
def cycleSec : Nat := cycleDays * 86400

/-- PTP seconds of 2000-01-01 00:00:00 on the scale of seconds since 1970. -/
def epoch2000 : Nat := 946684800

/-- Leap years (R444). -/
def isLeap (y : Nat) : Bool := y % 4 == 0 && (y % 100 != 0 || y % 400 == 0)

/-- The length of a month. -/
def monthDays (y m : Nat) : Nat :=
  if m = 2 then (if isLeap y then 29 else 28) else if m = 4 ∨ m = 6 ∨ m = 9 ∨ m = 11 then 30 else 31

/-- Days from 2000-01-01 to a date of the cycle. Years are counted from 1 March. -/
def daysOf (y m d : Nat) : Nat :=
  let mp := (m + 9) % 12
  let yy := (y - 2000 + 400 - (if m ≤ 2 then 1 else 0)) % 400
  (yy * 365 + yy / 4 - yy / 100 + (153 * mp + 2) / 5 + d - 1 + 60) % cycleDays

/-- Year, month and day of a day of the cycle. -/
def dateOf (days : Nat) : Nat × Nat × Nat :=
  let doe := (days + cycleDays - 60) % cycleDays
  let yoe := (doe - doe / 1460 + doe / 36524 - doe / 146096) / 365
  let doy := doe - (365 * yoe + yoe / 4 - yoe / 100)
  let mp := (5 * doy + 2) / 153
  let m := if mp < 10 then mp + 3 else mp - 9
  (2000 + (yoe + (if m ≤ 2 then 1 else 0)) % 400, m, doy - (153 * mp + 2) / 5 + 1)

/-- 1 Monday to 7 Sunday; 2000-01-01 is a Saturday (R442). -/
def weekdayOf (days : Nat) : Nat := (days + 5) % 7 + 1

/-- The count of seconds of a date and time. -/
def calOf (y m d h mi sec : Nat) : Nat := daysOf y m d * 86400 + h * 3600 + mi * 60 + sec

/-- RTC_DATE of a count of seconds. -/
def rtcDateOf (cal : Nat) : Nat :=
  let (y, m, d) := dateOf (cal / 86400)
  weekdayOf (cal / 86400) * 2 ^ 28 + y * 2 ^ 16 + m * 256 + d

/-- RTC_TIME of a count of seconds with DST and REPEATED. -/
def rtcTimeOf (cal : Nat) (dst rep : Bool) : Nat :=
  let t := cal % 86400
  b2n dst * 2 ^ 31 + b2n rep * 2 ^ 30 + t / 3600 * 2 ^ 16 + t / 60 % 60 * 256 + t % 60

/-- RTC_DATE (R442). -/
def rtcDate (s : State) : Nat := rtcDateOf s.rtc.cal
/-- RTC_TIME (R442). -/
def rtcTime (s : State) : Nat := rtcTimeOf s.rtc.cal s.rtc.dst s.rtc.repeated
/-- RTC_SUBSEC (R442). -/
def rtcSubsec (s : State) : Nat := min 32767 ((s.clock.real - s.rtc.since) * 32768 / 1000000)

/-- RTC changed. -/
def updRtc (f : Rtc → Rtc) (s : State) : State := { s with rtc := f s.rtc }

/-! ### Zone (R447) -/

/-- ZONE_MIN + 60 min × DST, in seconds. -/
def zoneSec (s : State) : Int := sgn 16 (getP s 0x0E13) * 60 + 3600 * b2n s.rtc.dst

/-- UTC seconds since 1970 of a calendar count (R447). -/
def utcOfCal (s : State) (cal : Nat) : Int := (cal + epoch2000 : Nat) - zoneSec s

/-- The local time computed from the PTP clock, in seconds of the calendar's scale. -/
def localOfPtp (s : State) : Int := (meterSec s : Int) + zoneSec s - epoch2000

/-- PTP nanoseconds that BOOT loads from the calendar (R428, R447), with the offset of UTC_CONFIG. -/
def ptpOfCal (s : State) : Nat :=
  ((utcOfCal s s.rtc.cal + sgn 16 (getP s 0x0D15)) * 1000000000).toNat + rtcSubsec s * 1000000000 / 32768

/-! ### Alarms (R453 to R457) -/

/-- A field of an alarm accepts a value: masked or equal. `f` is the field's offset in *RTC_ALARM_SET request*. -/
def alarmField (a : Bytes) (maskBit f v : Nat) : Bool := bit (fld a 1 1) maskBit || fld a (f - 1) 1 == v

/-- A day of the cycle matches the date fields of an alarm. -/
def alarmDay (a : Bytes) (day : Nat) : Bool :=
  let (_, m, d) := dateOf day
  alarmField a 5 8 (weekdayOf day) && alarmField a 4 7 m && alarmField a 3 6 d

/-- A second of the day matches the time fields of an alarm. -/
def alarmTime (a : Bytes) (t : Nat) : Bool :=
  alarmField a 2 5 (t / 3600) && alarmField a 1 4 (t / 60 % 60) && alarmField a 0 3 (t % 60)

/-- A calendar second matches an alarm (R454). -/
def alarmMatch (a : Bytes) (cal : Nat) : Bool := alarmDay a (cal / 86400) && alarmTime a (cal % 86400)

/-- Some second of the day from `lo` to `hi` matches the time fields. -/
def alarmTimeIn (a : Bytes) (lo hi : Nat) : Bool :=
  (List.range 24).any fun h =>
    alarmField a 2 5 h && decide (h * 3600 ≤ hi) && decide (lo ≤ h * 3600 + 3599) &&
      (List.range 60).any fun m =>
        alarmField a 1 4 m && (List.range 60).any fun x =>
          alarmField a 0 3 x && decide (lo ≤ h * 3600 + m * 60 + x) && decide (h * 3600 + m * 60 + x ≤ hi)

/-- Some second from `lo` to `hi` matches (`lo ≤ hi`). -/
def alarmIn (a : Bytes) (lo hi : Nat) : Bool :=
  let d0 := lo / 86400
  let d1 := hi / 86400
  if d0 = d1 then alarmDay a d0 && alarmTimeIn a (lo % 86400) (hi % 86400)
  else
    (alarmDay a d0 && alarmTimeIn a (lo % 86400) 86399) || (alarmDay a d1 && alarmTimeIn a 0 (hi % 86400)) ||
      (alarmTimeIn a 0 86399 && (List.range (d1 - d0 - 1)).any fun k => alarmDay a (d0 + 1 + k))

/-- The calendar is in the hands of the housekeeping controller (R457). -/
def rtcAlone (s : State) : Bool := s.sys.mode == .backup || s.sys.inReset

/-- RTC_ALARM: alarm number, RTC_DATE, RTC_TIME and flags: [0] SKIPPED_OVER, [1] SUPPRESSED, [2] BACKUP. -/
def alarmEvent (k date time fl : Nat) (s : State) : State := post 0x0E05 k (le 1 k ++ le 4 date ++ le 4 time ++ le 1 fl) 0 s

/-- An alarm fires, with or without SKIPPED_OVER (R454, R457). -/
def alarmFire (k : Nat) (skipped : Bool) (s : State) : State :=
  let soon := (vget s.rtc.fired k none).any fun u => decide (monoUs s < u + 2000000)
  if soon then s else
  let s := updRtc
    (fun r => { r with
      alarm0 := r.alarm0 || k == 0, alarm1 := r.alarm1 || k == 1, fired := vset r.fired k (some (monoUs s)) }) s
  if rtcAlone s then
    updRtc (fun r => { r with inBackup := true, backupFired := r.backupFired.or (some (k, rtcDate s, rtcTime s)) }) s
  else alarmEvent k (rtcDate s) (rtcTime s) (b2n skipped) s

/-- An alarm at a change of the calendar from `a` to its present value, by an adjustment or not (R454 to R456). -/
def alarmCheck (k a : Nat) (adj : Bool) (s : State) : State :=
  let c := vget s.rtc.alarms k []
  let b := s.rtc.cal
  if !bit (fld c 0 1) 0 || (s.rtc.repeated && !bit (fld c 1 1) 2) then s
  else if adj && decide (a + 1 < b) && alarmIn c (a + 1) (b - 1) then
    (if bit (fld c 0 1) 1 then (if rtcAlone s then s else alarmEvent k (rtcDate s) (rtcTime s) 3 s) else alarmFire k true s)
  else if alarmMatch c b && !alarmMatch c a then alarmFire k false s
  else s

/-- Both alarms. -/
def alarmsCheck (a : Nat) (adj : Bool) (s : State) : State := alarmCheck 1 a adj (alarmCheck 0 a adj s)

/-- The repeated hour ends when the calendar reaches its end (R452). -/
def repeatEnds (s : State) : State :=
  if s.rtc.repeated && decide (s.rtc.repEnd ≤ s.rtc.cal) then updRtc (fun r => { r with repeated := false }) s else s

/-- The calendar takes a value by an adjustment (R455). -/
def rtcAdjust (a new : Nat) (s : State) : State :=
  alarmsCheck a true (repeatEnds (updRtc (fun r => { r with cal := new, adjustments := r.adjustments + 1 }) s))

/-! ### Trim (R458) -/

/-- The table interval and the weight of its upper point, in thousandths, at a temperature in 0.01 °C; the ends of the
table hold beyond it (log entry 29). -/
def trimPlace (t : Int) : Nat × Nat :=
  let u := (max 0 (min 16000 (t + 4000))).toNat
  if u = 16000 then (15, 1000) else (u / 1000, u % 1000)

/-- RTC_CURVE_k. -/
def curvePoint (s : State) (k : Nat) : Int := sgn 32 (getP s (0x0E20 + k))

/-- f of R458 in thousandths of a ppb, without the phase term. -/
def trimAt (s : State) (t : Int) : Int :=
  let (k, w) := trimPlace t
  let mix (v : Nat → Int) : Int := v k * (1000 - w : Nat) + v (k + 1) * w
  sgn 32 (getP s 0x0E19) * 1000 + mix (curvePoint s) + mix fun i => vget s.rtc.learned i 0

/-- TRIM_APPLIED: f with the phase term, clamped and rounded (R458, R460). -/
def trimApplied (s : State) : Int := max (-500000) (min 500000 (roundDiv (s.rtc.trim + s.rtc.phase * 1000) 1000))

/-- The second that begins counts 32,768 × (1 + f·10⁻⁹) crystal cycles, by a fractional accumulator of 2^-16 cycle (R458). -/
def countCycles (s : State) : State :=
  let f : Int := max (-500000000) (min 500000000 (s.rtc.trim + s.rtc.phase * 1000))
  let n := (roundDiv (2 ^ 31 * (1000000000000 + f)) 1000000000000).toNat + s.rtc.cycleFrac
  updRtc (fun r => { r with cycles := n / 65536, cycleFrac := n % 65536 }) s

/-! ### The second boundary (R444, R445, R448, R449, R452) -/

/-- A deleted leap second is due at this UTC second (R449). -/
def leapDeletes (s : State) (utc : Int) : Bool :=
  (s.time.leap == 2 && utc + 1 == s.time.leapAt && s.rtc.leapShown != s.time.leapAt) ||
    (s.rtc.leapSkip.any fun t => utc + 1 == (t : Int))

/-- The comparison of R448: a step due at the next boundary, or a phase term of at most 10 ppm, whose law is the
firmware's (log entry 28). -/
def rtcCompare (s : State) : State :=
  if !servoLocked s || s.rtc.dstPending.isSome || rtcAlone s || localOfPtp s < 0 || (cycleSec : Int) ≤ localOfPtp s then
    updRtc (fun r => { r with phase := 0 }) s
  else
    let diff : Int := (localOfPtp s - s.rtc.cal) * 1000000 + (ptpNs s / 1000 : Nat)
    if getP s 0x0E18 < diff.natAbs then updRtc (fun r => { r with stepDue := some diff, phase := 0 }) s
    else if diff = 0 then updRtc (fun r => { r with phase := 0 }) s
    else
      let (v, s) := openVal 28 s
      updRtc (fun r => { r with phase := (v % 20001 : Nat) - 10000 }) s

/-- The pending summer-time adjustment is made: the calendar shows the value it would have shown, moved by the hour
(R452). -/
def dstMake (fwd : Bool) (a next : Nat) (s : State) : State :=
  let new := if fwd then next + 3600 else next - 3600
  let s := updRtc
    (fun r => { r with
      dst := fwd, repeated := !fwd, repEnd := next, dstPending := none, cal := new, adjustments := r.adjustments + 1 }) s
  completeAll (fun w => w == .rtcDst) stOK false [] (alarmsCheck a true s)

/-- A step of R448 is made at this boundary: the computed value, with its fraction, is written. -/
def rtcSyncStep (a : Nat) (diff : Int) (s : State) : State :=
  let new := localOfPtp s
  if new < 0 ∨ (cycleSec : Int) ≤ new then updRtc (fun r => { r with stepDue := none }) s else
  let s := post 0x0E03 0 (le 8 (unsgn 64 diff)) 0 s
  let s := updRtc (fun r => { r with stepDue := none, since := s.clock.real - ptpNs s / 1000 }) s
  rtcAdjust a new.toNat s

/-- SECOND_BOUNDARY (R444, R445, R448, R449, R452, R454). -/
def secondBoundary (s : State) : State :=
  let s := if rtcAlone s then s else applyOne 0x0E13 s
  let a := s.rtc.cal
  let utc := utcOfCal s (a + 1)
  let s := countCycles (updRtc (fun r => { r with since := s.clock.real }) s)
  if !rtcAlone s && s.time.leap == 1 && utc == (s.time.leapAt : Int) && s.rtc.leapShown != s.time.leapAt then
    updRtc (fun r => { r with leapShown := s.time.leapAt }) s
  else
    let del := !rtcAlone s && leapDeletes s utc
    let step := if del then 2 else 1
    let next := (a + step) % cycleSec
    let wrap := decide (cycleSec ≤ a + step)
    let s := if wrap then updRtc (fun r => { r with wrapped := true }) s else s
    let s := if wrap && !rtcAlone s then post 0x0E01 0 [] 0 s else s
    let s := if del then updRtc (fun r => { r with leapShown := (utc + 1).toNat, leapSkip := none }) s else s
    match s.rtc.dstPending, s.rtc.stepDue with
    | some fwd, _ => dstMake fwd a next s
    | none, some d => rtcSyncStep a d s
    | none, none =>
      let s := if del then rtcAdjust a next s else alarmsCheck a false (repeatEnds (updRtc (fun r => { r with cal := next }) s))
      rtcCompare s

/-! ### Commands (R450 to R453) -/

/-- RTC_SET (R450, R451, R455). -/
def effRtcSet (q : Req) (s : State) : CmdRes :=
  let pl := q.payload
  let f (i : Nat) := fld pl i 1
  let y := fld pl 0 2
  checked
    [(decide (2000 ≤ y) && decide (y ≤ 2399), 0), (decide (1 ≤ f 2) && decide (f 2 ≤ 12), 2),
      (decide (1 ≤ f 3) && decide (f 3 ≤ monthDays y (f 2)), 3), (decide (f 4 ≤ 23), 4), (decide (f 5 ≤ 59), 5),
      (decide (f 6 ≤ 59), 6), (decide (f 7 ≤ 1), 7)]
    (if servoLocked s || s.rtc.dstPending.isSome then .reject stBusy []
      else
        let a := s.rtc.cal
        let old := le 4 (rtcDate s) ++ le 4 (rtcTime s)
        let s := updRtc
          (fun r => { r with dst := f 7 == 1, repeated := false, since := s.clock.real, stepDue := none }) s
        let s := rtcAdjust a (calOf y (f 2) (f 3) (f 4) (f 5) (f 6)) s
        .ok [] (post 0x0E04 0 (old ++ le 4 (rtcDate s) ++ le 4 (rtcTime s)) q.auth.keyId s))

/-- RTC_DST_ADJUST (R452). -/
def effDstAdjust (q : Req) (s : State) : CmdRes :=
  let d := fld q.payload 0 1
  let next := (s.rtc.cal + 1) % cycleSec
  let ok := if d = 1 then !s.rtc.dst && decide (next + 3600 < cycleSec) else d == 2 && s.rtc.dst && decide (3600 ≤ next)
  checked [(ok, 0), (allZero (slice q.payload 1 3), 1)]
    (if s.rtc.dstPending.isSome then .reject stBusy []
      else .wait .rtcDst (updRtc (fun r => { r with dstPending := some (d == 1), stepDue := none }) s))

/-- A field of RTC_ALARM_SET: in its range if unmasked, 0 if masked (R453). -/
def alarmFieldOk (pl : Bytes) (off maskBit lo hi : Nat) : Bool :=
  let v := fld pl off 1
  if bit (fld pl 2 1) maskBit then v == 0 else decide (lo ≤ v) && decide (v ≤ hi)

/-- RTC_ALARM_SET (R453). A day that its month never has is charged to DAY. -/
def effAlarmSet (q : Req) (s : State) : CmdRes :=
  let pl := q.payload
  let k := fld pl 0 1
  let mask := fld pl 2 1
  let dayMax := if !bit mask 4 && !bit mask 3 && decide (1 ≤ fld pl 7 1) && decide (fld pl 7 1 ≤ 12) then monthDays 2000 (fld pl 7 1) else 31
  checked
    [(decide (k ≤ 1), 0), (decide (fld pl 1 1 ≤ 3), 1),
      (decide (mask ≤ 0x3F) && !(bit (fld pl 1 1) 0 && mask == 0x3F), 2), (alarmFieldOk pl 3 0 0 59, 3),
      (alarmFieldOk pl 4 1 0 59, 4), (alarmFieldOk pl 5 2 0 23, 5), (alarmFieldOk pl 6 3 1 dayMax, 6),
      (alarmFieldOk pl 7 4 1 12, 7), (alarmFieldOk pl 8 5 1 7, 8), (allZero (slice pl 9 3), 9)]
    (let c := slice pl 1 8
    .ok [] (updRtc (fun r => { r with alarms := vset r.alarms k c, alarmStore := vset r.alarmStore k c }) s))

/-! ### Temperature and learning (R458, R459) -/

/-- RTC_TEMPERATURE_SAMPLE (R458, R460). -/
def rtcTempSample (t : Int) (s : State) : State :=
  let s := if rtcAlone s then s else
    (List.range 17).foldl (fun s k => applyOne (0x0E20 + k) s) (applyOne 0x0E19 s)
  updRtc (fun r => { r with temp := t, trim := trimAt s t }) s

/-- RTC_LEARNING_WINDOW: a window of 256 s with residual `r` in ppb, its mean temperature and span (R459). -/
def learningWindow (r : Int) (mean : Int) (span : Nat) (s : State) : State :=
  let long := s.time.lockedUs.any fun u => decide (u + 60000000 ≤ s.clock.real)
  if !timeRuns s || !servoLocked s || !long || decide (200 < span) then s else
  let (k, w) := trimPlace mean
  let move (i wt : Nat) (l : Vector Int 17) : Vector Int 17 :=
    vset l i (max (-20000) (min 20000 (vget l i 0 + roundDiv (r * wt) 8000)))
  updRtc (fun x => { x with learned := move (k + 1) w (move k (1000 - w) x.learned), hasLearned := true }) s

/-- LEARNED_TABLE_SAVE: PWR writes the learned table to MRAM (R459). -/
def learnedSave (s : State) : State :=
  if timeRuns s then updRtc (fun r => { r with saved := r.learned, savedAny := r.hasLearned }) s else s

/-- A write of TRIM_BASE or of a point of RTC_CURVE clears the learned table (R459). -/
def rtcHook (id : Nat) (s : State) : State :=
  if id = 0x0E19 ∨ (0x0E20 ≤ id ∧ id ≤ 0x0E30) then
    updRtc
      (fun r => { r with
        learned := Vector.replicate 17 0, hasLearned := false, saved := Vector.replicate 17 0, savedAny := false }) s
  else s

/-! ### Parameters and reset (R443, R446, R457, R460) -/

/-- RTC_STATUS (R460). -/
def rtcStatus (s : State) : Nat :=
  let r := s.rtc
  32 * b2n r.dstPending.isSome + 16 * b2n r.wrapped + 8 * b2n r.lost + 4 * b2n r.inBackup + 2 * b2n r.alarm1 + b2n r.alarm0

/-- Flags of RTC_STATUS written with 1 are cleared (R9, R460). -/
def clearRtcStatus (mask : Nat) (s : State) : State :=
  updRtc
    (fun r => { r with
      wrapped := r.wrapped && !bit mask 4, lost := r.lost && !bit mask 3, inBackup := r.inBackup && !bit mask 2,
      alarm1 := r.alarm1 && !bit mask 1, alarm0 := r.alarm0 && !bit mask 0 }) s

/-- A read of RTC_DATE latches RTC_TIME and RTC_SUBSEC for a transport (R443). -/
def rtcLatch (t : Nat) (s : State) : State :=
  updRtc (fun r => { r with latch := vset r.latch t (some (rtcTime s, rtcSubsec s)) }) s

/-- The calendar restarts with the always-on domain (R446). -/
def rtcRestart (s : State) : State :=
  updRtc (fun r => { Rtc.reset with alarmStore := r.alarmStore, saved := r.saved, savedAny := r.savedAny, since := s.clock.real }) s

/-- What BOOT does for the calendar (R446, R457): the loss or a firing in BACKUP is recorded. -/
def rtcBoot (s : State) : State :=
  let r := s.rtc
  let s := if r.restarted then
      post 0x0E02 0 [] 0
        (updRtc (fun r => { r with alarms := r.alarmStore, learned := r.saved, hasLearned := r.savedAny, restarted := false }) s)
    else s
  let s := match r.backupFired with
    | some (k, d, t) => alarmEvent k d t 4 s
    | none => s
  updRtc
    (fun r => { r with
      backupFired := none, adjustments := 0, dstPending := none, stepDue := none, phase := 0,
      latch := Vector.replicate 3 none, fired := Vector.replicate 2 none }) s

end Sys2Proof.Machine
end

