-- ==== Sys2Proof/Machine/Model.lean ====
section
/-! DEFINITION. Loading, activation and recalibration of the network model (R124 to R135), and the round configuration at a cut
(R217). -/

namespace Sys2Proof.Machine

/-! ### Chunked images (R124, R266) -/

/-- The checks of a chunk of an image: IMAGE_OFFSET, IMAGE_LENGTH, identity and revision, DATA (R124, R266). -/
def chunkChecks (st : Stage) (lo hi : Nat) (p : Bytes) : List (Bool × Nat) :=
  let off := fld p 0 4
  let len := fld p 4 4
  let n := p.length - 16
  let first := off == 0
  [(first || (st.code == 1 && off == st.received.length), 0),
   (decide (lo ≤ len) && decide (len ≤ hi) && (first || len == st.length), 4),
   (first || fld p 8 4 == st.id, 8), (first || fld p 12 4 == st.rev, 12), (decide (off + n ≤ len), 16)]

/-- The stage after a chunk: loading, or validating when the last byte has arrived. -/
def chunkTake (st : Stage) (p : Bytes) : Stage :=
  let data := p.drop 16
  let st := if fld p 0 4 = 0 then
      { Stage.empty with code := 1, id := fld p 8 4, rev := fld p 12 4, length := fld p 4 4 }
    else st
  let got := st.received ++ data
  { st with received := got, code := if got.length = st.length then 2 else 1 }

/-- *NMOD_MODEL_LOAD reply* and its twin of R266: the digest while the image is valid. -/
def stageBody (st : Stage) : Bytes :=
  le 4 st.received.length ++ le 1 st.code ++ le 1 st.validation ++ le 2 st.section_ ++ le 4 st.entry ++ le 4 st.field ++
    (if st.code = 3 then sha384 st.received else zeros 48)

/-- NMOD_MODEL_LOAD (R124, R125). -/
def effModelLoad (p : Bytes) (s : State) : CmdRes :=
  let st := s.nmod.stage
  if st.code = 2 ∨ st.code = 5 then .reject stBusy [] else
  checked (chunkChecks st 68 2693956 p)
    (let st' := chunkTake st p
     let s' := { s with nmod := { s.nmod with stage := st', staged := none } }
     if st'.code = 2 then .wait .modelValidation s' else .ok (stageBody st') s')

/-- MODEL_VALIDATION_COMPLETE (R125, R126). -/
def modelValidated (s : State) : State :=
  let st := s.nmod.stage
  if st.code != 2 then s else
  let v := mzValidate st.received
  let ok := v.1 == 0
  let st' := { st with
    code := if ok then 3 else 4, validation := v.1, section_ := v.2.1, entry := v.2.2.1, field := v.2.2.2 }
  let s := { s with nmod := { s.nmod with
    stage := st', staged := if ok then some (mzParse st.received) else none } }
  completeAll (· == .modelValidation) stOK false (stageBody st') s

/-- NMOD_MODEL_ACTIVATE (R127). -/
def effActivate (p : Bytes) (s : State) : CmdRes :=
  let st := s.nmod.stage
  if st.code = 5 then .reject stBusy [] else
  match s.nmod.staged with
  | none => .badParam 0
  | some m =>
    checked [((st.code == 3 || st.code == 6) && m.id == fld p 0 4, 0), (m.rev == fld p 4 4, 4)]
      (.wait .modelActivation { s with nmod := { s.nmod with stage := { st with code := 5 }, built := false } })

/-- MODEL_BUILD_COMPLETE (R127). -/
def modelBuilt (s : State) : State :=
  if s.nmod.stage.code = 5 then { s with nmod := { s.nmod with built := true } } else s

/-! ### State carried at activation (R129) -/

/-- A value by persistent identifier from the old list, or a given one. -/
def carryBy {α β : Type} (ids : List Nat) (vals : List β) (id : Nat) (f : β → α) (d : α) : α :=
  match ids.findIdx? (· == id) with
  | some i => match vals[i]? with
    | some v => f v
    | none => d
  | none => d

/-- The temperature of the first plug injected at a node, as the kept pipes hold it: the plug at the delivering end of the first branch
whose flow enters the node, or through another element the temperature of its upstream node (R129). `temp` holds what is known. -/
def firstPlug (m : Mizon) (flow : List Nat) (plugs : List (Option (List Plug))) (temp : List (Option Nat)) (n : Nat) : Option Nat :=
  (entering m flow n).findSome? fun b =>
    let x := branchAt m b
    let back := dlt (nth flow b 0) 0
    if x.type = 1 then
      (nth plugs x.elem none).bind fun q => (if back then q.head? else q.getLast?).map (·.temp)
    else nth temp (if back then x.dst else x.src) none

/-- The temperatures of new nodes found one after the other along the flow. -/
def firstPlugs (m : Mizon) (flow : List Nat) (plugs : List (Option (List Plug))) : Nat → List (Option Nat) → List (Option Nat)
  | 0, temp => temp
  | k + 1, temp =>
    firstPlugs m flow plugs k (temp.zipIdx.map fun c => match c.1 with
      | some t => some t
      | none => firstPlug m flow plugs temp c.2)

/-- The network state of a new model (R129): pressures, temperatures, flows, plugs and cells carried by identifier. A new node takes the
temperature of the first plug injected at it; one that no plug reaches, and the pressure of a new junction, are open (log entry 39). -/
def carryState (old : Option Mizon) (n : NetState) (m : Mizon) (v : CutVec) (s : State) : NetState × State :=
  let oldNodes := old.elim [] fun o => o.nodes.map (·.id)
  let oldBranches := old.elim [] fun o => o.branches.map (·.id)
  let (op, s) := openList 34 m.nodes.length s
  let (ot, s) := openList 33 m.nodes.length s
  let pres := m.nodes.zipIdx.map fun c => carryBy oldNodes n.pres c.1.id id (if c.1.kind = 1 then c.1.pref else nth op c.2 0)
  let flow := m.branches.map fun b => carryBy oldBranches n.flow b.id id b.init
  let oldElem (type e : Nat) : Option MBranch :=
    (m.branches.find? fun b => b.type == type && b.elem == e).bind fun b =>
      old.bind fun o => o.branches.find? fun x => x.id == b.id && x.type == type
  let kept := m.pipes.zipIdx.map fun c =>
    (oldElem 1 c.2).bind fun x => old.bind fun o => o.pipes[x.elem]?.bind fun p =>
      if p.len = c.1.len ∧ p.dia = c.1.dia then n.plugs[x.elem]? else none
  let known := m.nodes.map fun x => carryBy oldNodes n.temp x.id some none
  let temp := (firstPlugs m flow kept m.nodes.length known).zipIdx.map fun c => c.1.getD (nth ot c.2 0)
  let plugs := m.pipes.zipIdx.map fun c =>
    match nth kept c.2 none with
    | some q => q
    | none =>
      let b := branchAt m (elemBranch m 1 c.2)
      [⟨dmul (pipeArea c.1) c.1.len, ddiv (dadd (nth temp b.src 0) (nth temp b.dst 0)) (fNat 2), []⟩]
  let cells := m.stores.zipIdx.map fun c =>
    let same := (oldElem 6 c.2).bind fun x => old.bind fun o => o.stores[x.elem]?.bind fun p =>
      if p.layers = c.1.layers ∧ p.vol = c.1.vol then n.cells[x.elem]? else none
    match same with
    | some q => q
    | none =>
      let br := elemBranch m 6 c.2
      let bound := (List.range c.1.layers).map fun l =>
        (m.binds.find? fun b => b.qty == 9 && b.target == br && b.sub == l).bind (cutValue v)
      let measured := bound.filterMap id
      let mean := if measured.isEmpty then nth ot 0 0 else ddiv (dsum measured) (fNat measured.length)
      bound.map fun x => x.getD mean
  (⟨pres, temp, flow, plugs, cells, List.replicate m.binds.length none, flow⟩, s)

/-- *NMOD_MODEL_ACTIVATE reply* (R127). -/
def activateBody (old : Option Mizon) (m : Mizon) (cutSec : Nat) : Bytes :=
  let ids := old.elim [] fun o => o.branches.map (·.id)
  let carried := (m.branches.filter fun b => ids.contains b.id).length
  le 4 (old.elim 0 (·.id)) ++ le 4 (old.elim 0 (·.rev)) ++ le 6 cutSec ++ le 2 0 ++ le 4 carried ++
    le 4 (m.branches.length - carried) ++ sha384 m.raw

/-- The model regions swap at a cut (R127 to R130); true if they did. -/
def activateAt (cutSec : Nat) (s : State) : State × Bool :=
  if s.nmod.stage.code != 5 || !s.nmod.built then (s, false) else
  match s.nmod.staged with
  | none => (s, false)
  | some m =>
    let old := s.nmod.active
    let s := cancelOpt s
    let (net, s) := carryState old s.nmod.net m s.subl.cut s
    let back : Stage := match old with
      | some o => { Stage.empty with code := 6, id := o.id, rev := o.rev, length := o.raw.length, received := o.raw }
      | none => Stage.empty
    let s := { s with nmod := { s.nmod with
      active := some m, net := net, fresh := true, staged := old, stage := back, built := false, flashWrite := true,
      calSamples := [], calOpen := none, calRounds := 0, estGood := none, optExtra := true } }
    (completeAll (· == .modelActivation) stOK false (activateBody old m cutSec) s, true)

/-- MODEL_FLASH_WRITE: the active image has been written to the slot that the selector does not name, and the selector
follows (R131). -/
def modelFlashed (s : State) : State :=
  match s.nmod.flashWrite, s.nmod.active with
  | true, some m =>
    let toB := !s.nmod.selector
    { s with nmod := { s.nmod with
      flashA := if toB then s.nmod.flashA else some m.raw, flashB := if toB then some m.raw else s.nmod.flashB,
      selector := toB, flashWrite := false } }
  | _, _ => s

/-- At boot the slot that the selector names is revalidated; its model is activated at the first cut (R131). What lay in
LPDDR4X and the Atrium is lost; configurations stay (R212; log entry 40). -/
def nmodBoot (s : State) : State :=
  let im := if s.nmod.selector then s.nmod.flashB else s.nmod.flashA
  let n := s.nmod
  let base : Nmod := { Nmod.reset with
    flashA := n.flashA, flashB := n.flashB, selector := n.selector, roundCfg := n.roundCfg, optCfg := n.optCfg,
    optPend := n.optPend,
    proposals := n.proposals, calSeq := n.calSeq, calDate := n.calDate }
  let loaded := match im with
    | some b =>
      if (mzValidate b).1 = 0 then
        { base with
          staged := some (mzParse b), built := true,
          stage := { Stage.empty with
            code := 5, id := fld b 8 4, rev := fld b 12 4, length := b.length, received := b } }
      else base
    | none => base
  { s with nmod := loaded }

/-! ### Round configuration at a cut (R217) -/

/-- One waiting configuration at a cut: every value takes effect, EST_PERIOD at a multiple of itself. -/
def takeConfig (cutSec : Nat) (s : State) (q : RoundPend) : State :=
  let period := fld q.payload 0 2
  let full := period == estPeriod s || cutSec % period == 0
  if full then
    completeAll (· == .roundConfig q.place) stOK false []
      { s with nmod := { s.nmod with
        roundCfg := q.payload, roundPend := s.nmod.roundPend.filter fun x => x.place != q.place } }
  else if q.begun then s
  else
    { s with nmod := { s.nmod with
      roundCfg := s.nmod.roundCfg.take 2 ++ q.payload.drop 2,
      roundPend := s.nmod.roundPend.map fun x => if x.place = q.place then { x with begun := true } else x } }

/-- The waiting configurations at a cut, oldest first. -/
def takeConfigs (cutSec : Nat) (s : State) : State := s.nmod.roundPend.foldl (takeConfig cutSec) s

/-- NMOD_ROUND_CONFIG (R217). -/
def effRoundConfig (p : Bytes) (s : State) : CmdRes :=
  if p.isEmpty then .ok s.nmod.roundCfg s else
  let place := (s.nmod.roundPend.getLast?).elim 0 (·.place + 1)
  checked (roundChecks p s)
    (.wait (.roundConfig place) { s with nmod := { s.nmod with roundPend := s.nmod.roundPend ++ [⟨place, p, false⟩] } })

/-! ### Calibration (R133 to R135) -/

/-- The adjoint solve of a sampled round has ended with λ: a sample whose solve ended OK, before the round deadline, counts (R133). -/
def calibDone (ok : Bool) (lam : List Nat) (s : State) : State :=
  match s.nmod.calOpen with
  | some q =>
    { s with nmod := { s.nmod with
      calOpen := none, calSamples := if ok then s.nmod.calSamples ++ [calibValues q lam] else s.nmod.calSamples } }
  | none => s

/-- The factor of one parameter of a group from its derivatives (R134); none if it is not proposed. -/
def calFactor (s : State) (d : List Nat) : Option Nat :=
  let info := ddiv (dsum (d.map dsq)) (fNat 2)
  let minInfo := dconst (getP s 0x043C) 1000
  let prior := dconst (getP s 0x043B) 1000
  if dlt info minInfo then none else
  let lim := dconst 22314 100000
  let f := dexp (dclamp (ddiv (dneg (dsum d)) (dadd info prior)) (dneg lim) lim)
  if dlt (dconst 98 100) f && dlt f (dconst 102 100) then none else some f

/-- A pipe with the factors of its group applied and clamped to its field ranges, and whether each was clamped. -/
def scalePipe (rough loss : Option Nat) (p : MPipe) : MPipe × Bool × Bool :=
  let r := dmul p.rough (rough.getD (fNat 1))
  let l := dmul p.loss (loss.getD (fNat 1))
  let rMax := dmul (dconst 5 100) p.dia
  let lMax := fNat 10
  ({ p with rough := dclamp r 0 rMax, loss := dclamp l 0 lMax }, dlt rMax r, dlt lMax l)

/-- The entry of a group in a proposal. -/
def calEntry (m : Mizon) (s : State) (g : Nat) : Option Bytes :=
  let col (f : Nat × Nat → Nat) : List Nat :=
    s.nmod.calSamples.map fun x => (x.find? fun y => y.1 == g).elim 0 fun y => f (y.2.1, y.2.2)
  let r := calFactor s (col (·.1))
  let l := calFactor s (col (·.2))
  if r.isNone && l.isNone then none else
  let sc := (m.pipes.filter fun p => p.grp == g).map (scalePipe r l)
  let fl := b2n r.isSome + 2 * b2n l.isSome + 4 * b2n (sc.any fun x => x.2.1) + 8 * b2n (sc.any fun x => x.2.2)
  some (le 2 g ++ le 2 fl ++ le 4 0 ++ le 8 (r.getD (fNat 1)) ++ le 8 (l.getD (fNat 1)))

/-- The proposal of a calendar date, or CALIB_SKIPPED (R134). -/
def calibPropose (date : Nat) (s : State) : State :=
  let s := { s with nmod := { s.nmod with calDate := some date } }
  let n := s.nmod.calSamples.length
  if 2 * n * (estPeriod s * getP s 0x043A) < 86400 then post 0x0401 0 [] 0 s
  else match s.nmod.active with
    | none => s
    | some m =>
      let es := (calGroups m).filterMap (calEntry m s)
      let q := s.nmod.calSeq + 1
      let b := le 4 q ++ le 4 m.id ++ le 4 m.rev ++ le 4 n ++ le 6 (ptpSec s) ++ le 2 es.length ++ le 8 0 ++ es.flatten
      { s with nmod := { s.nmod with proposals := (b :: s.nmod.proposals).take 4, calSeq := q, calSamples := [] } }

/-- At a cut: calendar time has reached CALIB_TIME since the previous cut, once per calendar date (R134). Calendar minutes are
counted from 2000. -/
def calibCut (s : State) : State :=
  let now := s.rtc.cal / 60
  let day := now / 1440
  let t := getP s 0x0439
  let due := match s.nmod.calMinute with
    | some (pd, pm) =>
      let prev := pd * 1440 + pm
      [day - 1, day].any fun d => decide (prev < d * 1440 + t) && decide (d * 1440 + t ≤ now) && s.nmod.calDate != some d
    | none => false
  let s := { s with nmod := { s.nmod with calMinute := some (day, now % 1440) } }
  if due then calibPropose day s else s

/-- NMOD_CALIB_GET (R135). -/
def effCalibGet (s : State) : CmdRes := .ok (s.nmod.proposals.headD []) s

/-- The active image with the selected factors applied, REVISION raised, and its CRC renewed (R135). -/
def adoptImage (m : Mizon) (prop mask : Bytes) : Bytes :=
  let factors (g : Nat) : Option Nat × Option Nat :=
    if bit (fld mask (g / 8) 1) (g % 8) then
      match (List.range (fld prop 22 2)).find? fun k => fld prop (32 + 24 * k) 2 == g with
      | some k =>
        let fl := fld prop (34 + 24 * k) 2
        (if bit fl 0 then some (fld prop (40 + 24 * k) 8) else none, if bit fl 1 then some (fld prop (48 + 24 * k) 8) else none)
      | none => (none, none)
    else (none, none)
  let base := mzBase m.raw 5
  let pipe (e : Bytes) (p : MPipe) : Bytes :=
    let f := factors p.grp
    let q := (scalePipe f.1 f.2 p).1
    e.take 16 ++ le 8 q.rough ++ le 8 q.loss ++ e.drop 32
  let pipes := (m.pipes.zipIdx).flatMap fun c => pipe (mzEntry m.raw 5 c.2) c.1
  let body := m.raw.take 12 ++ le 4 (m.rev + 1) ++ slice m.raw 16 (base - 16) ++ pipes ++
    slice m.raw (base + 48 * m.pipes.length) (m.raw.length - 4 - (base + 48 * m.pipes.length))
  body ++ le 4 (crc32c body)

/-- NMOD_CALIB_ADOPT (R135). Bit k of byte j selects group 8·j + k, so bit 0 of byte 0 names no group. A staged model that is being
validated is replaced like any other; the chunk that waits for its validation is answered with that of the copy (log entry 120, DESIGN
CHOICE). -/
def effCalibAdopt (p : Bytes) (s : State) : CmdRes :=
  match s.nmod.proposals.head?, s.nmod.active with
  | some prop, some m =>
    checked [(fld prop 0 4 == fld p 0 4 && fld prop 4 4 == m.id && fld prop 8 4 == m.rev, 0), (fld p 4 4 == 0, 4)]
      (if s.nmod.stage.code = 5 then .reject stBusy [] else
       let im := adoptImage m prop (p.drop 8)
       .wait .modelValidation { s with nmod := { s.nmod with
         staged := none,
         stage := { Stage.empty with
           code := 2, id := m.id, rev := (m.rev + 1) % 2 ^ 32, length := im.length, received := im } } })
  | _, _ => .badParam 0

/-! ### Parameters (R136, R219) -/

/-- STAGE_STATE of a stage. -/
def stageState (st : Stage) : Nat := st.validation * 256 + st.code

/-- ROUND_STATE (R219). -/
def statusCode (st : Nat) : Nat := st
def roundState (s : State) : Nat :=
  let n := s.nmod
  n.optFails * 2 ^ 20 + n.estFails * 2 ^ 16 + statusCode n.lastOpt * 2 ^ 12 + statusCode n.lastEst * 256 +
    8 * b2n n.traj.now.isSome + 4 * b2n (n.opt.any fun r => r.phase == .waiting) + 2 * b2n n.opt.isSome + b2n n.est.isSome

/-- A read-only parameter of NMOD. -/
def nmodParam (s : State) (i : Nat) : Nat :=
  let n := s.nmod
  if 0x41 ≤ i ∧ i ≤ 0x44 then (vget n.estCounts (i - 0x41) 0).toNat
  else if 0x45 ≤ i ∧ i ≤ 0x48 then (vget n.optCounts (i - 0x45) 0).toNat
  else match i with
    | 0x30 => n.active.elim 0 (·.id)
    | 0x31 => n.active.elim 0 (·.rev)
    | 0x32 => stageState n.stage
    | 0x33 => n.stage.received.length
    | 0x34 => n.plugMerges.toNat
    | 0x35 => n.propertyClamps.toNat
    | 0x36 => 2 * b2n n.flashWrite + b2n n.selector
    | 0x40 => roundState s
    | 0x49 => n.cancelled.toNat
    | 0x4A => n.skipped.toNat
    | 0x4B => n.stalls.toNat
    | 0x4C => n.estLast % 2 ^ 32
    | 0x4D => n.optLast % 2 ^ 32
    | _ => 0

end Sys2Proof.Machine
end

