-- ==== Sys2Proof/Machine/Solv.lean ====
section
/-! DEFINITION. The solver array (R137 to R177): job descriptors and their checks, operands in memory, start, completion
and deadline miss of jobs, the completion record, and the host's jobs and test region. -/

namespace Sys2Proof.Machine

/-! ### The solver address map (R139, R140) -/

/-- The test region of LPDDR4X. -/
def testBase : Nat := 0x0100000000
def testSize : Nat := 16777216

/-- An address lies in the test region. -/
def inTest (a : Nat) : Bool := decide (testBase ≤ a) && decide (a < testBase + testSize)

/-- The memories of the map: the local memory of a flight, Atrium banks 4 to 7, the test region, and the rest of LPDDR4X. -/
inductive JobPlace where
  | flight (n : Nat)
  | work
  | test
  | ddr
  deriving DecidableEq, Repr

/-- The memory and offset of an address as flight `f` sees it (*Solver address map*); none outside the map. -/
def locate (f a : Nat) : Option (JobPlace × Nat) :=
  if a < 0x100000 then some (.flight f, a)
  else if 0x01000000 ≤ a ∧ a < 0x01800000 then some (.flight ((a - 0x01000000) / 0x100000), a % 0x100000)
  else if 0x04800000 ≤ a ∧ a < 0x05000000 then some (.work, a - 0x04800000)
  else if inTest a then some (.test, a - testBase)
  else if testBase + testSize ≤ a ∧ a < 0x0300000000 then some (.ddr, a - testBase - testSize)
  else none

/-- An address lies in the map (R139). -/
def inMap (a : Nat) : Bool := (locate 0 a).isSome

/-- Flight `f` may write an address: its own local memory, Atrium banks 4 to 7 and LPDDR4X (R140). -/
def mayWrite (f a : Nat) : Bool :=
  match locate f a with
  | some (.flight n, _) => n == f
  | some _ => true
  | none => false

/-- The place where the errors of a byte are marked: memory code, and word address, counted in words of 8 bytes of the map (R529, R531,
log entry 111). -/
def markOf (p : JobPlace) (off : Nat) : Nat × Nat :=
  match p with
  | .flight n => (2, (0x01000000 + n * 0x100000 + off) / 8)
  | .work => (1, (0x04800000 + off) / 8)
  | .test => (10, (testBase + off) / 8)
  | .ddr => (10, (testBase + testSize + off) / 8)

/-- A byte of a memory of the map. -/
def placeByte (s : State) (p : JobPlace) (off : Nat) : Byte :=
  match p with
  | .flight n => (vget s.solv.locals n Region.zero).read off
  | .work => s.solv.work.read off
  | .test => Memory.read s.solv.test off
  | .ddr => s.solv.ddr.read off

/-- A byte of a memory of the map written. -/
def putByte (p : JobPlace) (off : Nat) (b : Byte) (v : Solv) : Solv :=
  match p with
  | .flight n => { v with locals := vset v.locals n ((vget v.locals n Region.zero).write off b) }
  | .work => { v with work := v.work.write off b }
  | .test => { v with test := Memory.write v.test off b }
  | .ddr => { v with ddr := v.ddr.write off b }

/-- `n` bytes read by flight `f`, least significant first: outside the map the job ends with reason 8, and at a word marked uncorrectable
with reason 5 (R140, R167, R531). -/
def jobRead (s : State) (f a : Nat) : Nat → Except KErr Nat
  | 0 => .ok 0
  | n + 1 =>
    match locate f a with
    | none => .error (KErr.at 8 0xFFFFFFFF)
    | some (p, off) =>
      if s.intg.marked.contains (markOf p off) then .error (KErr.at 5 0xFFFFFFFF)
      else do
        let rest ← jobRead s f (a + 1) n
        pure ((placeByte s p off).toNat + 256 * rest)

/-- A structure that is not as its table says: reason 10. -/
def need (c : Bool) : Except KErr Unit := if c then .ok () else .error (KErr.at 10 0xFFFFFFFF)

/-! ### Descriptor fields (R142) -/

def dId (d : Bytes) : Nat := fld d 0 4
def dKernel (d : Bytes) : Nat := fld d 4 1
def dFlags (d : Bytes) : Nat := fld d 5 1
def dMask (d : Bytes) : Nat := fld d 6 1
def dPrecond (d : Bytes) : Nat := fld d 7 1
def dDeadline (d : Bytes) : Nat := fld d 8 6 * 1000000000 + fld d 16 4
def dLimit (d : Bytes) : Nat := fld d 20 4
def dTol (d : Bytes) : Nat := fld d 32 8
def dRestart (d : Bytes) : Nat := fld d 24 1
def dPartition (d : Bytes) : Nat := fld d 48 8
def dBuf (d : Bytes) (k b : Nat) : Nat := fld d (64 + 24 * k + 8 * b) 8
def dSelect (d : Bytes) (k : Nat) : Nat := fld d (64 + 24 * k + 16) 8
def dP32 (d : Bytes) : Bool := bit (dFlags d) 1

/-- τ = 2^−TAU_EXP in binary64, 40 for 0. -/
def dTau (d : Bytes) : Nat :=
  let e := fld d 25 1
  (1023 - (if e = 0 then 40 else e)) * 2 ^ 52

/-- The Krylov kernels. -/
def isKrylov (k : Nat) : Bool := decide (0x10 ≤ k) && decide (k ≤ 0x13)

/-- The codes of *Kernels*. -/
def isKernel (k : Nat) : Bool := (decide (1 ≤ k) && decide (k ≤ 8)) || isKrylov k

/-- The lowest-numbered flight of a job: it reads descriptors and select words, and commits (R144). -/
def leadFlight (d : Bytes) : Nat := ((List.range 8).find? fun f => bit (dMask d) f).getD 0

/-- The operands that a kernel uses; OP0 gives the length of every vector (R142, R153; log entry 42). -/
def usedOps (k precond : Nat) : List Nat :=
  match k with
  | 1 => [0, 2, 3]
  | 2 => [0, 2, 3, 4]
  | 3 => [0, 2, 3]
  | 4 => [0, 2, 3, 4]
  | 5 => [0, 1]
  | 6 => [0, 1]
  | 7 => [0, 1]
  | 8 => [0, 1, 2, 3]
  | _ => if precond = 0 then [0, 2, 3, 4] else [0, 1, 2, 3, 4]

/-- The output operand of a kernel (R153). -/
def outOp (k : Nat) : Nat :=
  match k with
  | 2 => 4
  | 4 => 4
  | 5 => 1
  | 6 => 1
  | 7 => 1
  | _ => 3

/-! ### Operands (R143, R148 to R152, R154) -/

/-- What the job's descriptor is read by. -/
def leadRead (s : State) (d : Bytes) (a n : Nat) : Except KErr Nat := jobRead s (leadFlight d) a n

/-- The flight that owns a row: by the partition of the job, or its only flight (R151). -/
def ownerOfRow (s : State) (d : Bytes) (row : Nat) : Nat :=
  if dPartition d = 0 then leadFlight d else
  match leadRead s d (dPartition d) 80 with
  | .error _ => leadFlight d
  | .ok v =>
    let b := le 80 v
    ((List.range 8).find? fun f => decide (fld b (16 + 8 * f) 4 ≤ row) && decide (row < fld b (20 + 8 * f) 4)).getD (leadFlight d)

/-- Bytes of row or element `i` read by the flight that owns it (log entry 109). -/
def rowRead (s : State) (d : Bytes) (i a n : Nat) : Except KErr Nat := atIndex i (jobRead s (ownerOfRow s d i) a n)

/-- The value of an operand's select word: 0 without one (R143). -/
def selOf (s : State) (d : Bytes) (k : Nat) : Except KErr Nat :=
  if dSelect d k = 0 then .ok 0 else do
    let v ← leadRead s d (dSelect d k) 8
    need (decide (v ≤ 1))
    pure v

/-- The current buffer of an operand. -/
def curBuf (s : State) (d : Bytes) (k : Nat) : Except KErr Nat := do
  let v ← selOf s d k
  pure (dBuf d k v)

/-- The buffer that is not current. -/
def otherBuf (s : State) (d : Bytes) (k : Nat) : Except KErr Nat := do
  let v ← selOf s d k
  pure (dBuf d k (1 - v))

/-- The 48-byte matrix descriptor (R148). -/
structure MatDesc where
  format : Nat
  wide : Bool
  rows : Nat
  cols : Nat
  nnz : Nat
  ptr : Nat
  idx : Nat
  val : Nat
  deriving DecidableEq, Repr

/-- A matrix descriptor read and checked; binary32 values are for factors under PREC32 only. -/
def matDesc (s : State) (d : Bytes) (p32 : Bool) (a : Nat) : Except KErr MatDesc := do
  let b ← leadRead s d a 48
  let b := le 48 b
  let f := fld b 0 1
  need ((f == 1 || f == 2) && decide (fld b 1 1 ≤ b2n p32) && fld b 2 1 == (if f = 2 then 8 else 0) && fld b 3 1 == 0 &&
    decide (1 ≤ fld b 4 4) && decide (fld b 4 4 ≤ 1048576) && decide (1 ≤ fld b 8 4) && decide (fld b 8 4 ≤ 1048576) &&
    decide (fld b 12 4 ≤ 67108864) && fld b 40 8 == 0)
  pure { format := f, wide := fld b 1 1 == 0, rows := fld b 4 4, cols := fld b 8 4, nnz := fld b 12 4, ptr := fld b 16 8,
         idx := fld b 24 8, val := fld b 32 8 }

/-- A stored value of row `i`: binary64, or binary32 widened. -/
def jobValue (s : State) (d : Bytes) (i : Nat) (wide : Bool) (a k : Nat) : Except KErr Nat :=
  if wide then rowRead s d i (a + 8 * k) 8 else do
    let v ← rowRead s d i (a + 4 * k) 4
    pure (fconv f32 f64 v)

/-- The entries of row `i` at the given places of the index and value arrays; padding is skipped (R150). -/
def rowEntries (s : State) (d : Bytes) (m : MatDesc) (i : Nat) (places : List Nat) : Except KErr (List (Nat × Nat)) := do
  let es ← places.mapM fun k => do
    let c ← rowRead s d i (m.idx + 4 * k) 4
    if m.format = 2 ∧ c = 0xFFFFFFFF then pure none else do
      need (decide (c < m.cols))
      let v ← jobValue s d i m.wide m.val k
      pure (some (c, v))
  pure (es.filterMap id)

/-- Ascending in the strict sense. -/
def rising : List Nat → Bool
  | [] => true
  | [_] => true
  | a :: b :: t => decide (a < b) && rising (b :: t)

/-- The places of the entries of each row (R149, R150). -/
def rowPlaces (s : State) (d : Bytes) (m : MatDesc) : Except KErr (List (List Nat)) := do
  let at_ (i k : Nat) : Except KErr Nat := rowRead s d i (m.ptr + 4 * k) 4
  (List.range m.rows).mapM fun i => do
    if m.format = 1 then
      let lo ← at_ i i
      let hi ← at_ i (i + 1)
      need (decide (lo ≤ hi) && decide (hi - lo ≤ 65536))
      pure ((List.range (hi - lo)).map (lo + ·))
    else
      let lo ← at_ i (i / 8)
      let hi ← at_ i (i / 8 + 1)
      need (decide (lo ≤ hi) && (hi - lo) % 8 == 0)
      pure ((List.range ((hi - lo) / 8)).map fun j => lo + 8 * j + i % 8)

/-- A matrix read whole. -/
def matRead (s : State) (d : Bytes) (p32 : Bool) (a : Nat) : Except KErr (MatDesc × SMat) := do
  let m ← matDesc s d p32 a
  let places ← rowPlaces s d m
  let rows ← places.zipIdx.mapM fun r => rowEntries s d m r.2 r.1
  need (m.format == 2 || rows.all fun r => rising (r.map (·.1)))
  need (rows.all (fun r => decide (r.length ≤ 65536)) && (rows.foldl (fun n r => n + r.length) 0) == m.nnz)
  matrixOk rows
  pure (m, rows)

/-- A vector of `n` elements read. -/
def vecRead (s : State) (d : Bytes) (wide : Bool) (n a : Nat) : Except KErr (List Nat) := do
  let v ← (List.range n).mapM fun i => jobValue s d i wide a i
  inputOk v
  pure v

/-- The matrix that a matrix operand names. -/
def matOp (s : State) (d : Bytes) (p32 : Bool) (k : Nat) : Except KErr (MatDesc × SMat) := do
  let b ← curBuf s d k
  let a ← leadRead s d b 8
  matRead s d p32 a

/-- ROWS of OP0, of which every vector operand has as many elements (R142). -/
def rowsOp (s : State) (d : Bytes) : Except KErr Nat := do
  let b ← curBuf s d 0
  let a ← leadRead s d b 8
  let m ← matDesc s d false a
  pure m.rows

/-- A vector operand. -/
def vecOp (s : State) (d : Bytes) (n k : Nat) : Except KErr (List Nat) := do
  let b ← curBuf s d k
  vecRead s d true n b

/-- The block start rows of a factor table (R154), the last equal to `n`. -/
def blockTable (s : State) (d : Bytes) (n a : Nat) : Except KErr (List Nat) := do
  let k ← leadRead s d a 4
  let r ← leadRead s d (a + 4) 4
  need (r == 0 && decide (1 ≤ k) && decide (k ≤ n))
  let st ← (List.range (k + 1)).mapM fun i => leadRead s d (a + 8 + 4 * i) 4
  need (st.headD 1 == 0 && st.getLast? == some n && rising st &&
    (st.zip (st.drop 1)).all fun p => decide (p.2 - p.1 ≤ 64) && ownerOfRow s d p.1 == ownerOfRow s d (p.2 - 1))
  pure (st.dropLast)

/-- A block factor read: its start rows and its rows, L below the diagonal and D last. -/
def blockFactor (s : State) (d : Bytes) (n a : Nat) : Except KErr Factor := do
  let st ← blockTable s d n a
  let base := a + 8 + 4 * (st.length + 1)
  let rec go : List Nat → Nat → Except KErr (List (List Nat))
    | [], _ => .ok []
    | i :: t, at_ => do
      let w := i - blockStart st i + 1
      let row ← (List.range w).mapM fun j => jobValue s d i (!dP32 d) base (at_ + j)
      let rest ← go t (at_ + w)
      pure (row :: rest)
  let rows ← go (List.range n) 0
  match rows.findIdx? (fun r => r.any fun x => !fFinite f64 x) with
  | some i => .error (KErr.at 1 i)
  | none => pure (.ldlt st rows)

/-- The preconditioner of a Krylov job. -/
def precondOp (s : State) (d : Bytes) (n : Nat) : Except KErr Factor := do
  match dPrecond d with
  | 0 => pure .absent
  | 1 =>
    let b ← curBuf s d 1
    let v ← vecRead s d (!dP32 d) n b
    pure (.jacobi v)
  | 2 =>
    let m ← matOp s d (dP32 d) 1
    need (m.1.format == 1 && m.1.rows == n && m.1.wide == !dP32 d)
    pure (.ic0 m.2)
  | _ =>
    let b ← curBuf s d 1
    let a ← leadRead s d b 8
    blockFactor s d n a

/-! ### Partitions and level schedules (R151, R152) -/

/-- The rows on which each row depends in a job that works level by level: by the factor it writes, solves with or applies; none for
other kernels. -/
def rowDeps (s : State) (d : Bytes) : Except KErr (List (List Nat)) := do
  let k := dKernel d
  if k = 6 ∨ k = 8 ∨ (isKrylov k = true ∧ dPrecond d = 2) then
    let b ← (if k = 6 then otherBuf s d 1 else curBuf s d 1)
    let a ← leadRead s d b 8
    let m ← matDesc s d (dP32 d) a
    let places ← rowPlaces s d m
    let cols ← places.zipIdx.mapM fun r => r.1.mapM fun j => rowRead s d r.2 (m.idx + 4 * j) 4
    if k = 8 ∧ bit (dFlags d) 2 = true then
      pure ((List.range m.rows).map fun i => (cols.zipIdx.filter fun r => decide (i < r.2) && r.1.contains i).map (·.2))
    else pure (cols.zipIdx.map fun r => r.1.filter fun c => decide (c < r.2))
  else pure []

/-- A level schedule holds its offsets, a permutation of all rows, and no row that depends on one of its own level or a later one
(R152). -/
def levelsOk (s : State) (d : Bytes) (a levels n : Nat) : Bool :=
  match (do
      let off ← (List.range (levels + 1)).mapM fun i => leadRead s d (a + 4 * i) 4
      let perm ← (List.range n).mapM fun i => leadRead s d (a + 4 * (levels + 1) + 4 * i) 4
      let deps ← rowDeps s d
      pure (off, perm, deps) : Except KErr (List Nat × List Nat × List (List Nat))) with
  | .error _ => false
  | .ok (off, perm, deps) =>
    let levelOf (row : Nat) : Nat := (off.filter fun o => decide (o ≤ perm.idxOf row)).length
    off.headD 1 == 0 && off.getLast? == some n && (off.zip (off.drop 1)).all (fun p => decide (p.1 ≤ p.2)) &&
      (List.range n).all (fun r => perm.contains r) &&
      deps.zipIdx.all fun r => r.1.all fun c => decide (levelOf c < levelOf r.2)

/-- The partition descriptor of a job on rows `n`: its ranges, and its level schedule if it names one (R151, R152). -/
def partitionOk (s : State) (d : Bytes) (n : Nat) : Bool :=
  match leadRead s d (dPartition d) 80 with
  | .error _ => false
  | .ok v =>
    let b := le 80 v
    let mask := dMask d
    let rng (f : Nat) : Nat × Nat := (fld b (16 + 8 * f) 4, fld b (20 + 8 * f) 4)
    let own := ((List.range 8).filter fun f => bit mask f).map rng
    fld b 0 4 == n &&
      (own.foldl (fun (acc : Bool × Nat) r => (acc.1 && r.1 == acc.2 && decide (r.1 ≤ r.2), r.2)) (true, 0)) == (true, n) &&
      ((List.range 8).all fun f => bit mask f || (rng f).1 == (rng f).2) &&
      (if fld b 4 4 = 0 then fld b 8 8 == 0 else fld b 8 8 != 0 && levelsOk s d (fld b 8 8) (fld b 4 4) n)

/-! ### Execution (R153 to R166) -/

/-- What a job leaves: its record, and the bytes that a flight writes at each address. -/
structure JobOut where
  out : KOut
  writes : List (Nat × Nat × Bytes)
  deriving DecidableEq, Repr

/-- A value in its stored form. -/
def storeVal (wide : Bool) (x : Nat) : Bytes := if wide then le 8 x else le 4 (fconv f64 f32 x)

/-- The elements of a vector written by the flights that own them. -/
def vecWrites (s : State) (d : Bytes) (wide : Bool) (dest : Nat) (v : List Nat) : List (Nat × Nat × Bytes) :=
  v.zipIdx.map fun c => (ownerOfRow s d c.2, dest + (if wide then 8 else 4) * c.2, storeVal wide c.1)

/-- The rows of a block factor, stored one after the other and written by the flights that own them. -/
def rowsWrites (s : State) (d : Bytes) (wide : Bool) : Nat → List (List Nat × Nat) → List (Nat × Nat × Bytes)
  | _, [] => []
  | a, (row, i) :: t =>
    (ownerOfRow s d i, a, row.flatMap (storeVal wide)) :: rowsWrites s d wide (a + (if wide then 8 else 4) * row.length) t

/-- A kernel run on its operands with at most `limit` iterations: the output goes to the buffer of its output operand that is not
current. -/
def runKernel (s : State) (d : Bytes) (limit : Nat) : Except KErr JobOut := do
  let k := dKernel d
  let dest ← otherBuf s d (outOp k)
  let vec (o : KOut) : JobOut := ⟨o, vecWrites s d true dest (nth o.vecs 0 [])⟩
  match k with
  | 1 => do
    let a ← matOp s d false 0
    let x ← vecOp s d a.1.rows 2
    let y ← spmv a.2 x
    pure (vec { KOut.plain with vecs := [y] })
  | 2 => do
    let n ← rowsOp s d
    let x ← vecOp s d n 2
    let y ← vecOp s d n 3
    let v ← dotK x y
    pure ⟨{ KOut.plain with vecs := [[v]] }, [(leadFlight d, dest, le 8 v)]⟩
  | 3 => do
    let n ← rowsOp s d
    let x ← vecOp s d n 2
    let y ← vecOp s d n 3
    let v ← axpyK (fld d 40 8) x y
    pure (vec { KOut.plain with vecs := [v] })
  | 4 => do
    let a ← matOp s d false 0
    let b ← vecOp s d a.1.rows 2
    let x ← vecOp s d a.1.rows 3
    let r ← residualK a.2 b x
    let nr ← norm2 r
    pure (vec { KOut.plain with vecs := [r], resInitial := nr, resTrue := nr })
  | 5 => do
    let a ← matOp s d false 0
    let o ← jacobiSetup (dP32 d) (dTau d) a.2
    match o.factor with
    | .jacobi v => pure ⟨o, vecWrites s d (!dP32 d) dest v⟩
    | _ => pure ⟨o, []⟩
  | 6 => do
    let a ← matOp s d false 0
    let fa ← leadRead s d dest 8
    let f ← matDesc s d (dP32 d) fa
    need (f.format == 1 && f.rows == a.1.rows && f.wide == !dP32 d)
    let places ← rowPlaces s d f
    let pattern ← places.zipIdx.mapM fun r => r.1.mapM fun i => rowRead s d r.2 (f.idx + 4 * i) 4
    need (pattern.zipIdx.all fun r => rising r.1 && r.1.getLast? == some r.2)
    let o ← ic0K (dP32 d) (dTau d) a.2 pattern
    match o.factor with
    | .ic0 l =>
      pure ⟨o, ((places.zip l).zipIdx).flatMap fun p => (p.1.1.zip p.1.2).map fun c =>
        (ownerOfRow s d p.2, f.val + (if f.wide then 8 else 4) * c.1, storeVal f.wide c.2.2)⟩
    | _ => pure ⟨o, []⟩
  | 7 => do
    let a ← matOp s d false 0
    let ta ← leadRead s d dest 8
    let st ← blockTable s d a.1.rows ta
    let o ← ldltK (dP32 d) (dTau d) a.2 st
    match o.factor with
    | .ldlt _ rows => pure ⟨o, rowsWrites s d (!dP32 d) (ta + 8 + 4 * (st.length + 1)) rows.zipIdx⟩
    | _ => pure ⟨o, []⟩
  | 8 => do
    let n ← rowsOp s d
    let l ← matOp s d (dP32 d) 1
    need (l.1.rows == n)
    let b ← vecOp s d n 2
    let x ← trsvK (bit (dFlags d) 2) l.2 b
    pure (vec { KOut.plain with vecs := [x] })
  | _ => do
    let a ← matOp s d false 0
    let n := a.1.rows
    let m ← precondOp s d n
    let b ← vecOp s d n 2
    let x0 ← (if bit (dFlags d) 3 then pure (zeroVec n) else vecOp s d n 3)
    let o ← krylovK k a.2 m b x0 (bit (dFlags d) 4) (bit (dFlags d) 3) (dP32 d) (dTol d) (dRestart d) limit
    pure (vec o)

/-- Every byte of a write lies where its flight may write (R140). -/
def writeOk (w : Nat × Nat × Bytes) : Bool := (List.range w.2.2.length).all fun i => mayWrite w.1 (w.2.1 + i)

/-- A host job run to its commit: the writes and the select word of the output operand, or the condition that ends it
(R143, R144). -/
def runJob (s : State) (d : Bytes) : Except KErr JobOut := do
  let o ← runKernel s d (dLimit d)
  if o.writes.all writeOk then
    let v ← selOf s d (outOp (dKernel d))
    pure { o with writes := o.writes ++ [(leadFlight d, dSelect d (outOp (dKernel d)), le 8 (1 - v))] }
  else .error (KErr.at 8 0xFFFFFFFF)

/-- Elements of the Krylov workspace, counted in binary64 (*Kernels*). -/
def workspaceLen (d : Bytes) (n : Nat) : Nat :=
  match dKernel d with
  | 0x10 => 4 * n
  | 0x12 => (dRestart d + 3) * n + (dRestart d + 1) * (dRestart d + 1)
  | _ => 7 * n

/-- Bytes written by a flight, each where the map puts it; words written whole lose their marks (R531). -/
def jobWrite (s : State) (w : Nat × Nat × Bytes) : State :=
  let put (v : Solv) (c : Byte × Nat) : Solv :=
    match locate w.1 (w.2.1 + c.2) with
    | some (p, off) => putByte p off c.1 v
    | none => v
  let s := { s with solv := w.2.2.zipIdx.foldl put s.solv }
  match locate w.1 w.2.1 with
  | some (p, off) =>
    let m := markOf p (off + 7)
    unmark m.1 m.2 (markOf p (off + w.2.2.length)).2 s
  | none => s

/-- After a Krylov job the contents of its workspace are undefined (R143): free values in every byte of it, drawn once (kind 69, log
entry 41). -/
def spoilWorkspace (d : Bytes) (s : State) : State :=
  match isKrylov (dKernel d), rowsOp s d, curBuf s d 4 with
  | true, .ok n, .ok a =>
    let v := (List.range (8 * workspaceLen d n)).map fun i => BitVec.ofNat 8 (Config.openValue 69 (s.draws * 2 ^ 40 + i))
    jobWrite (draw s) (leadFlight d, a, v)
  | _, _, _ => s

/-! ### Flights (R146, R551, R552) -/

/-- Every flight of a mask is free and powered (R146). -/
def flightsFree (s : State) (mask : Nat) : Bool :=
  (List.range 8).all fun f => !bit mask f || vget s.pwr.flights f .off == .idle

/-- The flights of a mask in a power state. -/
def setFlights (mask : Nat) (p : FlightPower) (s : State) : State :=
  { s with pwr := { s.pwr with flights := s.pwr.flights.mapFinIdx fun i x _ => if bit mask i then p else x } }

/-- The flights of a job that has ended are IDLE again, unless they have been switched off meanwhile. -/
def releaseFlights (mask : Nat) (s : State) : State :=
  { s with pwr := { s.pwr with
      flights := s.pwr.flights.mapFinIdx fun i x _ => if bit mask i && x == .active then .idle else x } }

/-- In REDUCED, flights 2 to 7 are OFF once they execute no job and, with REDUCED_GATE, flights 0 and 1 once no round of either
kind runs (R552). -/
def gateFlights (s : State) : State :=
  if s.sys.mode = .reduced then
    let s := { s with pwr := { s.pwr with
      flights := s.pwr.flights.mapFinIdx fun i x _ => if 2 ≤ i ∧ x = .idle then .off else x } }
    if getP s 0x1412 = 1 ∧ s.nmod.est = none ∧ s.nmod.opt = none ∧ s.solv.nrun = none ∧ s.solv.ring = [] then
      setFlights 3 .off s
    else s
  else s

/-- The local memory of a flight cleared to zero as it is powered again (R551): every word of it is written whole (R531). -/
def clearLocal (n : Nat) (s : State) : State :=
  unmark 2 ((0x01000000 + n * 0x100000) / 8) ((0x01100000 + n * 0x100000) / 8)
    { s with solv := { s.solv with locals := vset s.solv.locals n Region.zero } }

/-! ### Ends of jobs (R144, R147, R167 to R170, R177) -/

/-- How a job ended: status, flags, counts, reason, index and norms of its completion record. -/
structure JobEnd where
  status : Nat
  flags : Nat
  iters : Nat
  regs : Nat
  regFirst : Nat
  reason : Nat
  index : Nat
  resInitial : Nat
  resRec : Nat
  resTrue : Nat
  deriving DecidableEq, Repr

/-- Committed. -/
def JobEnd.ok (o : KOut) : JobEnd :=
  ⟨stOK, o.flags + 1, o.iters, o.regs, o.regFirst, 0, 0xFFFFFFFF, o.resInitial, o.resRec, o.resTrue⟩

/-- The status of a reason (*Reason codes*); reason 0 is a deadline missed during execution. -/
def reasonStatus (reason : Nat) : Nat :=
  if reason = 10 then stBadParam
  else if 1 ≤ reason ∧ reason ≤ 4 then stNumeric
  else if 5 ≤ reason ∧ reason ≤ 8 then stInternal
  else stDeadlineMiss

/-- What is known of the norms of a record without a commit: whether the kernel forms any, those that were formed, and the operands
on which the others depend where R161 makes the record a function of them. -/
structure NormsKnown where
  formed : Bool
  initial : Option Nat
  recursive : Option Nat
  key : Option Nat

/-- A kernel without norms. -/
def NormsKnown.none_ : NormsKnown := ⟨false, none, none, none⟩

/-- A norm that the manual does not state: a magnitude in binary64 that depends on the operands alone, or on the draw where the job met
a deadline or a fault (kind 44, log entry 43). -/
def openNorm (k : NormsKnown) (i draws : Nat) : Nat :=
  dabs (Config.openValue 44 (match k.key with
    | some q => 2 * (3 * q + i)
    | none => 2 * (3 * draws + i) + 1) % 2 ^ 64)

/-- Ended without a commit. No x is committed, so that RES_TRUE is open for a kernel with norms, as is a norm that was not formed. -/
def JobEnd.short (k : NormsKnown) (reason index iters regs first : Nat) (s : State) : JobEnd × State :=
  let v (i : Nat) (x : Option Nat) : Nat := if k.formed then x.getD (openNorm k i s.draws) else 0
  (⟨reasonStatus reason, 2 * b2n (regs != 0), iters, regs, if regs = 0 then 0xFFFFFFFF else first, reason, index,
    v 0 k.initial, v 1 k.recursive, v 2 none⟩, draw s)

/-- The completion record, 72 bytes (R147). -/
def jobRecord (s : State) (id : Nat) (e : JobEnd) : Bytes :=
  le 4 id ++ le 2 e.status ++ le 2 e.flags ++ le 4 e.iters ++ le 4 e.regs ++ le 4 e.regFirst ++ le 1 e.reason ++ zeros 3 ++
    le 4 e.index ++ zeros 4 ++ le 8 e.resInitial ++ le 8 e.resRec ++ le 8 e.resTrue ++ le 6 (ptpSec s) ++ zeros 2 ++
    le 4 (ptpNs s) ++ zeros 4

/-- A completion record is written: the counters of R177. -/
def countJob (e : JobEnd) (s : State) : State :=
  let v := s.solv
  { s with solv := { v with
      completed := v.completed + 1, misses := if e.status = stDeadlineMiss then v.misses + 1 else v.misses,
      numeric := if e.status = stNumeric then v.numeric + 1 else v.numeric,
      internal := if e.status = stInternal then v.internal + 1 else v.internal,
      regJobs := if bit e.flags 1 then v.regJobs + 1 else v.regJobs,
      regPivots := v.regPivots + BitVec.ofNat 32 e.regs,
      breakdowns := if bit e.flags 4 then v.breakdowns + 1 else v.breakdowns,
      parity := if e.reason = 7 then v.parity + 1 else v.parity } }

/-- The error that ends a job with INTERNAL is counted against SOLV (R167, R173, R531): a Gallery timeout, which is no error of a memory,
in BLOCK_ERRORS alone, besides its count by target (R21, log entry 111). -/
def countFault (f : JobFault) (s : State) : State :=
  match f with
  | .memory .atrium a => uncorrectable 1 0x03 a.toNat s
  | .memory .flight a => uncorrectable 2 0x03 a.toNat s
  | .memory .ddr a => uncorrectable 10 0x03 a.toNat s
  | .gallery => bumpErrors 0x03 s
  | .parity => pathError 12 0x03 0 s

/-- Reason code of a fault (*Reason codes*). -/
def faultReason : JobFault → Nat
  | .memory _ _ => 5
  | .gallery => 6
  | .parity => 7

/-- The end of a job that a kernel error stops. -/
def errEnd (k : NormsKnown) (q : KErr) (s : State) : JobEnd × State :=
  JobEnd.short { k with initial := q.resInitial, recursive := q.resRec, key := if reasonStatus q.reason = stNumeric then k.key else none }
    q.reason q.index q.iters q.regs q.regFirst s

/-- The end of a job stopped by a fault, by a numeric error that its flights have met, or by the deadline: INTERNAL before NUMERIC before
DEADLINE_MISS (R167). `run` is what the kernel comes to. -/
def stopEnd {α : Type} (k : NormsKnown) (run : Except KErr α) (x : JobStop) (s : State) : JobEnd × State :=
  match x.fault, x.numeric, run with
  | some f, _, _ =>
    JobEnd.short k (faultReason f) x.index.toNat x.iters.toNat x.regs.toNat x.regFirst.toNat (countFault f s)
  | none, true, .error q => errEnd k q s
  | none, _, _ => JobEnd.short k 0 0xFFFFFFFF x.iters.toNat x.regs.toNat x.regFirst.toNat s

/-- The reads of a job's flights at its end: abandoned at a deadline, else answered (R21, R168). -/
def settleReads (mask : Nat) (e : JobEnd) (s : State) : State :=
  if e.status = stDeadlineMiss then abandonReads mask s else endReads mask s

/-- A host job ends: its flights are freed, its record counted, and its command completes (R174). -/
def endHost (j : HJob) (e : JobEnd) (s : State) : State :=
  let s := countJob e (releaseFlights j.mask (settleReads j.mask e { s with solv := { s.solv with hrun := none } }))
  complete j.tag e.status (bit e.flags 1) (jobRecord s (dId j.desc) e) s

/-- What the record of a job that did not end OK counts. -/
def KOut.counted (e : JobEnd) : KOut := { KOut.plain with iters := e.iters, regs := e.regs }

/-- A job of NMOD ends: its flights are freed, its record counted, and its round goes on. -/
def endNmod (j : NJob) (e : JobEnd) (out : KOut) (s : State) : State :=
  let s := countJob e (releaseFlights j.mask (settleReads j.mask e { s with solv := { s.solv with nrun := none } }))
  let estOwn := s.nmod.est.any fun r => r.cut == j.owner
  let s := match j.kind with
    | .calib => if s.nmod.calOpen.any fun q => q.cut == j.owner then calibDone (e.status == stOK) (nth out.vecs 0 []) s else s
    | .estFactor => if estOwn then estJobEnd .estFactor e.status out s else s
    | .estPcg => if estOwn then estJobEnd .estPcg e.status out s else s
    | k => if s.nmod.opt.any fun r => r.startNs == j.owner && r.phase != .stalled then optJobEnd k e.status out s else s
  gateFlights (afterEst s)

/-- What a job of NMOD computes: the factorisation and the PCG solve of a Newton step (R182, R183), the adjoint solve of a calibration
sample with the settings of R183 (R133, log entry 37), or a job of the optimisation round (R197, R201, R203). -/
def nmodKernel (s : State) (k : NJobKind) : Except KErr KOut :=
  let none_ : Except KErr KOut := .ok KOut.plain
  match k with
  | .estFactor => s.nmod.est.elim none_ fun r =>
    if cfgPrecond s = 1 then jacobiSetup (cfgPrec32 s) nmodTau r.h
    else ic0K (cfgPrec32 s) nmodTau r.h (r.h.zipIdx.map fun x => (x.1.map (·.1)).filter fun c => decide (c ≤ x.2))
  | .estPcg => s.nmod.est.elim none_ fun r =>
    pcgK r.h (factorOf s r) r.g (zeroVec r.h.length) true true (cfgPrec32 s) (tenTo (cfgCgExp s)) (cfgCgMax s)
  | .calib => s.nmod.calOpen.elim none_ fun q =>
    pcgK q.h (if q.factorRows.isEmpty then .jacobi q.factor else .ic0 q.factorRows) q.grad (zeroVec q.h.length) true true (cfgPrec32 s)
      (tenTo (cfgCgExp s)) (cfgCgMax s)
  | k => match s.nmod.active, s.nmod.opt with
    | some m, some r => optKernel s m r k
    | _, _ => none_

/-- JOB_COMPLETION of NMOD's job: fault, numeric end, the last deadline check, or OK (R167, R169). Its record is not read from outside,
and NMOD uses no norm of it. -/
def nmodCompletion (x : Option JobStop) (s : State) : State :=
  match s.solv.nrun with
  | none => s
  | some j =>
    let run := nmodKernel s j.kind
    match x, run with
    | some q, _ =>
      let (e, s) := stopEnd NormsKnown.none_ run q s
      endNmod j e (KOut.counted e) s
    | none, .error q =>
      let (e, s) := errEnd NormsKnown.none_ q s
      endNmod j e (KOut.counted e) s
    | none, .ok o =>
      if passed s j.deadline then
        let (e, s) := JobEnd.short NormsKnown.none_ 0 0xFFFFFFFF o.iters o.regs o.regFirst s
        endNmod j e (KOut.counted e) s
      else endNmod j (JobEnd.ok o) o (draw s)

/-- Numbers in one number, none of them lost. -/
def numList (l : List Nat) : Nat := l.foldl (fun a v => a * 2 ^ 65 + (v + 1)) 1

/-- The numbers of a matrix. -/
def SMat.nums (a : SMat) : List Nat := a.flatMap fun r => r.length :: r.flatMap fun c => [c.1, c.2]

/-- The numbers of a factor. -/
def Factor.nums : Factor → List Nat
  | .absent => []
  | .jacobi v => v
  | .ic0 l => SMat.nums l
  | .ldlt st rows => st ++ rows.flatten

/-- What the outputs and the record of a job depend on (R161): the descriptor but for JOB_ID, FLIGHT_MASK, PARTITION and the deadline, and
the values of its operands. -/
def operandKey (s : State) (d : Bytes) : Nat :=
  let got (x : Except KErr (List Nat)) : List Nat := match x with
    | .ok v => v.length :: v
    | .error _ => [0]
  let n := match rowsOp s d with
    | .ok n => n
    | .error _ => 0
  numList ([dKernel d, dFlags d, dPrecond d, dLimit d, dRestart d, fld d 25 1, dTol d, fld d 40 8] ++
    got (do let a ← matOp s d false 0; pure (SMat.nums a.2)) ++ got (do let m ← precondOp s d n; pure m.nums) ++
    got (vecOp s d n 2) ++ got (vecOp s d n 3))

/-- The norms of a job that stops without a commit after `iters` iterations (R147): those that its recurrence has formed by then. -/
def normsAt (s : State) (d : Bytes) (iters : Nat) : NormsKnown :=
  if isKrylov (dKernel d) then
    match runKernel s d iters with
    | .ok o => ⟨true, some o.out.resInitial, some o.out.resRec, none⟩
    | .error e => ⟨true, e.resInitial, e.resRec, none⟩
  else ⟨dKernel d == 4, none, none, none⟩

/-- The norms of a job that a numeric error ends: functions of the operands (R161). -/
def normsNumeric (s : State) (d : Bytes) : NormsKnown :=
  ⟨isKrylov (dKernel d) || dKernel d == 4, none, none, some (operandKey s d)⟩

/-- JOB_COMPLETION of the host's job. -/
def hostCompletion (x : Option JobStop) (s : State) : State :=
  match s.solv.hrun with
  | none => s
  | some j =>
    let run := runJob s j.desc
    let s' := spoilWorkspace j.desc s
    match x, run with
    | some q, _ =>
      let k := { normsAt s j.desc q.iters.toNat with key := (normsNumeric s j.desc).key }
      let (e, s') := stopEnd k run q s'
      endHost j e s'
    | none, .error q =>
      let (e, s') := errEnd (normsNumeric s j.desc) q s'
      endHost j e s'
    | none, .ok o =>
      if passed s j.deadline then
        let (e, s') := JobEnd.short (normsAt s j.desc o.out.iters) 0 0xFFFFFFFF o.out.iters o.out.regs o.out.regFirst s'
        endHost j e s'
      else endHost j (JobEnd.ok o.out) (o.writes.foldl jobWrite s')

/-- JOB_COMPLETION (R144): of NMOD's job or of the host's; `x` says how far it came if a fault ended it. -/
def jobCompletion (host : Bool) (x : Option JobStop) (s : State) : State :=
  if host then hostCompletion (x.filter fun q => q.fault.isSome) s else nmodCompletion (x.filter fun q => q.fault.isSome) s

/-- JOB_DEADLINE_MISS: a flight finds the deadline passed (R168); a fault or a numeric error met before all flights have stopped comes
first (R167). -/
def jobDeadlineMiss (host : Bool) (x : JobStop) (s : State) : State :=
  match host, s.solv.hrun, s.solv.nrun with
  | true, some j, _ => if passed s j.deadline then hostCompletion (some x) s else s
  | false, _, some j => if passed s j.deadline then nmodCompletion (some x) s else s
  | _, _, _ => s

/-! ### Start (R146, R170) -/

/-- What a job of NMOD works on is reloaded: the words of the local memories of its flights and of Atrium banks 4 to 7 lose their marks,
and their contents and those of LPDDR4X are what NMOD lays out there (R531, R552, log entry 41). -/
def reloadWork (mask : Nat) (s : State) : State :=
  let s := unmark 1 (0x04800000 / 8) (0x05000000 / 8) s
  let s := (List.range 8).foldl (fun s f =>
    if bit mask f then unmark 2 ((0x01000000 + f * 0x100000) / 8) ((0x01100000 + f * 0x100000) / 8) s else s) s
  let new := Region.unknown s.draws
  draw { s with solv := { s.solv with
    locals := s.solv.locals.mapFinIdx fun i r _ => if bit mask i then new else r, work := new, ddr := new } }

/-- NMOD's next job starts if its flights are free; with its deadline passed it ends at once with reason 9. -/
def startNmod (s : State) : State :=
  match s.solv.nrun, s.solv.ring with
  | none, j :: rest =>
    if flightsFree s j.mask then
      let s := { s with solv := { s.solv with ring := rest } }
      if passed s j.deadline then
        let (e, s) := JobEnd.short NormsKnown.none_ 9 0xFFFFFFFF 0 0 0xFFFFFFFF s
        endNmod j e (KOut.counted e) s
      else
        startReads j.mask (reloadWork j.mask (setFlights j.mask .active { s with solv := { s.solv with nrun := some j } }))
    else s
  | _, _ => s

/-- NMOD is served first: the head of its ring could start now. -/
def nmodReady (s : State) : Bool :=
  match s.solv.nrun, s.solv.ring with
  | none, j :: _ => flightsFree s j.mask
  | _, _ => false

/-- The host's next job starts if its flights are free, no other host job executes, and NMOD's next job does not start. -/
def startHost (s : State) : State :=
  match s.solv.hrun, s.solv.queue with
  | none, j :: rest =>
    if flightsFree s j.mask && !nmodReady s then
      let s := { s with solv := { s.solv with queue := rest } }
      if passed s j.deadline then
        let (e, s) := JobEnd.short ⟨isKrylov (dKernel j.desc) || dKernel j.desc == 4, none, none, none⟩ 9 0xFFFFFFFF 0 0 0xFFFFFFFF s
        endHost j e s
      else startReads j.mask (setFlights j.mask .active { s with solv := { s.solv with hrun := some j } })
    else s
  | _, _ => s

/-- JOB_START (R146). -/
def jobStart (host : Bool) (s : State) : State := if host then startHost s else startNmod s

/-- The mode no longer admits host jobs: the one that executes stops without commit, and all complete NOT_IN_STATE
(R176). -/
def dropHostJobs (s : State) : State :=
  let js := s.solv.hrun.toList ++ s.solv.queue
  let mask := s.solv.hrun.elim 0 (·.mask)
  let s := releaseFlights mask (abandonReads mask { s with solv := { s.solv with hrun := none, queue := [] } })
  js.foldl (fun s j => complete j.tag stNotInState false (notInStateBody s) s) s

/-- ABANDONED_READ_RESPONSE: discarded and counted, and the tag of an abandoned read is returned; that of a read that timed out went
back with its timeout (R21, R168). -/
def abandonedRead (s : State) : State :=
  updGal (respondFirst (·.abandoned))
    { s with solv := { s.solv with abandoned := s.solv.abandoned + 1 }, out := s.out ++ [.gallery 3 2] }

/-! ### Host commands (R174, R175) -/

/-- The partition field of a host job: 0 only for one flight; else in the test region and as R151 says. -/
def partitionField (s : State) (d : Bytes) : Bool :=
  if dPartition d = 0 then popCount 8 (dMask d) == 1
  else inTest (dPartition d) &&
    (match rowsOp s d with
    | .ok n => partitionOk s d n
    | .error _ => false)

/-- The three addresses of operand `k` (R142, R145, R174): BUF1 is 0 for an operand that is only read, which an output operand and the
workspace of a Krylov kernel are not. -/
def operandChecks (d : Bytes) (k : Nat) : List (Bool × Nat) :=
  let used := (usedOps (dKernel d) (dPrecond d)).contains k
  let out := outOp (dKernel d) == k
  let off := 64 + 24 * k
  let onlyRead := used && !out && !(isKrylov (dKernel d) && k == 4)
  [((dBuf d k 0 == 0 && !used) || inTest (dBuf d k 0), off), ((dBuf d k 1 == 0 && !out) || (inTest (dBuf d k 1) && !onlyRead), off + 8),
    ((dSelect d k == 0 && !out) || inTest (dSelect d k), off + 16)]

/-- The checks of R142, R145 and R174 in payload order. -/
def jobChecks (s : State) (d : Bytes) : List (Bool × Nat) :=
  let k := dKernel d
  let kry := isKrylov k
  let now := ptpTotalNs s
  [(isKernel k, 4), (dFlags d % 2 == 0 && decide (dFlags d < 32), 5),
    (dMask d != 0 && dMask d % 16 == 0, 6), (if kry then decide (dPrecond d ≤ 3) else dPrecond d == 0, 7),
    (decide (now < dDeadline d) && decide (dDeadline d ≤ now + 60000000000), 8), (fld d 14 2 == 0, 14),
    (decide (fld d 16 4 ≤ 999999999), 16),
    (if kry then decide (1 ≤ dLimit d) && decide (dLimit d ≤ 1000000) else dLimit d == 0, 20),
    (if k = 0x12 then decide (2 ≤ fld d 24 1) && decide (fld d 24 1 ≤ 64) else fld d 24 1 == 0, 24),
    (fld d 25 1 == 0 || (decide (20 ≤ fld d 25 1) && decide (fld d 25 1 ≤ 60)), 25), (fld d 26 6 == 0, 26),
    (if kry then fFinite f64 (dTol d) && flt f64 0 (dTol d) else dTol d == 0, 32), (k == 3 || fld d 40 8 == 0, 40),
    (partitionField s d, 48), (fld d 56 8 == 0, 56)] ++ (List.range 5).flatMap (operandChecks d) ++ [(fld d 184 8 == 0, 184)]

/-- SOLV_JOB_SUBMIT (R174). -/
def effJobSubmit (tag : Nat) (p : Bytes) (s : State) : CmdRes :=
  checked (jobChecks s p)
    (.wait (.job tag)
      { s with solv := { s.solv with queue := s.solv.queue ++ [⟨tag, p, dMask p, dDeadline p⟩] } })

/-- SOLV_TEST_WRITE (R175). -/
def effTestWrite (p : Bytes) (s : State) : CmdRes :=
  checked [(decide (fld p 0 4 + (p.length - 8) ≤ testSize), 0), (fld p 4 4 == 0, 4)]
    (.ok [] (jobWrite s (0, testBase + fld p 0 4, p.drop 8)))

/-- SOLV_TEST_READ (R175). -/
def effTestRead (p : Bytes) (s : State) : CmdRes :=
  checked [(decide (fld p 0 4 + fld p 4 2 ≤ testSize), 0), (decide (1 ≤ fld p 4 2) && decide (fld p 4 2 ≤ 4096), 4),
      (fld p 6 2 == 0, 6)]
    (.ok (Memory.reads s.solv.test (fld p 0 4) (fld p 4 2)) s)

/-- A read-only parameter of SOLV (R177). -/
def solvParam (s : State) (i : Nat) : Nat :=
  let v := s.solv
  let flag (f : FlightPower → Bool) : Nat := (List.range 8).foldl (fun a n => a + b2n (f (vget s.pwr.flights n .off)) * 2 ^ n) 0
  match i with
  | 0x10 => v.hrun.elim 0 (·.mask) * 65536 + flag (fun p => p == .idle || p == .active) * 256 + flag (· == .active)
  | 0x11 => v.completed.toNat
  | 0x12 => v.misses.toNat
  | 0x13 => v.numeric.toNat
  | 0x14 => v.internal.toNat
  | 0x15 => v.regJobs.toNat
  | 0x16 => v.regPivots.toNat
  | 0x17 => v.breakdowns.toNat
  | 0x18 => v.parity.toNat
  | 0x19 => v.abandoned.toNat
  | _ => 0

end Sys2Proof.Machine
end

