-- ==== Sys2Proof/Machine/Control.lean ====
section
/-! DEFINITION. Tasks, releases, executions, faults, lockstep, forces and the block image of the control engines (R245 to R267,
R276 to R278, R290 to R297). -/

namespace Sys2Proof.Machine

/-! ### Engines and executions -/

/-- An engine. -/
def engOf (s : State) (e : Nat) : Engine := vget s.ctrl.engines e Engine.reset

/-- An engine replaced. -/
def setEng (e : Nat) (x : Engine) (s : State) : State := { s with ctrl := { s.ctrl with engines := vset s.ctrl.engines e x } }

/-- CTRL changed. -/
def updCtrl (f : Ctrl → Ctrl) (s : State) : State := { s with ctrl := f s.ctrl }

/-- The execution of a task that is in progress. -/
def runOf (s : State) (e t : Nat) : Option Run := (engOf s e).runs.find? fun r => r.task == t

/-- An execution put in its place: the highest priority, the lowest number, stands first (R250). -/
def insertRun (r : Run) : List Run → List Run
  | [] => [r]
  | x :: t => if r.prio < x.prio then r :: x :: t else x :: insertRun r t

/-- Journal entries and link stack entries in use by executions (R245, R247). -/
def journalUsed (l : List Run) : Nat := l.foldl (fun a r => a + r.journal.length) 0
def linksUsed (l : List Run) : Nat := l.foldl (fun a r => a + r.links.length) 0

/-- The data TCM after the roll-back of an execution; one with OVERFLOWED set cannot be rolled back (R247, R260). -/
def rollback (r : Run) (data : Memory) : Memory :=
  if r.overflowed then data else r.journal.foldl (fun m j => m.writes j.addr j.old) data

/-- A register file at zero. -/
def zeroRegs : Vector W64 16 := Vector.replicate 16 0

/-- An execution abandoned and rolled back (R252, R260, R276). -/
def dropRun (e t : Nat) (s : State) : State :=
  match runOf s e t with
  | some r =>
    let x := engOf s e
    let head := (x.runs.head?).any fun h => h.task == t
    let x : Engine := { x with
      runs := x.runs.filter fun y => y.task != t, data := rollback r x.data,
      regs := if head && r.started then r.regs else x.regs }
    updTask e t (fun y => { y with
      overflowed := r.overflowed, div0 := r.div0, journalPeak := max y.journalPeak r.journal.length }) (setEng e x s)
  | none => s

/-- Every execution of an engine abandoned, the running one first. -/
def dropRuns (e : Nat) (s : State) : State := (engOf s e).runs.foldl (fun s r => dropRun e r.task s) s

/-- Tasks stop on entry to a mode in which they do not execute (R252). -/
def stopTasks (s : State) : State :=
  updCtrl (fun c => { c with tasks := c.tasks.map fun x => { x with restarted := true } }) (dropRuns 1 (dropRuns 0 s))

/-- Every stopped task restarts when the device leaves SERVICE (R262). -/
def restartTasks (s : State) : State :=
  updCtrl (fun c => { c with
    tasks := c.tasks.map fun x => if x.mode = .waiting then x else { x with mode := .waiting, restarted := true } }) s

/-- A task's outputs go to their safe states and its axes to standstill (R260, R261, R276). -/
def taskOutputsSafe (e t : Nat) (s : State) : State :=
  match s.ctrl.running with
  | some b =>
    (b.outs.filter fun o => o.engine == e && o.task == t).foldl (fun s o =>
      match o.dest with
      | 1 => doSafe o.index s
      | 2 => pwmSafe false o.index s
      | _ => axisSafe false o.index s) s
  | none => s

/-! ### Forces at the force points (R290) -/

/-- Bytes of a DATA_TYPE (*Instance, type and variable entries*). -/
def dtypeSize : Nat → Nat
  | 1 => 1
  | 2 => 4
  | 3 => 4
  | 5 => 4
  | _ => 8

/-- The variable of an image with a VAR_ID. -/
def varOf (b : BImg) (id : Nat) : Option BVar := b.vars.find? fun v => v.id == id

/-- The forces of the variables that `p` selects, written into an engine's data. -/
def applyForces (s : State) (e : Nat) (p : BVar → Bool) (data : Memory) : Memory :=
  match s.ctrl.running with
  | some b =>
    s.ctrl.forces.foldl (fun m f =>
      match varOf b f.var with
      | some v => if v.engine == e && p v then m.writes v.addr (le (dtypeSize f.dtype) f.value) else m
      | none => m) data
  | none => data

/-- An instance field or a global. -/
def isData (v : BVar) : Bool := v.kind == 0 || v.kind == 3

/-- A variable of a task's input image, and of its output image. -/
def inInput (d : BTask) (v : BVar) : Bool := v.kind == 1 && decide (d.inAddr ≤ v.addr) && decide (v.addr < d.inAddr + d.inLen)
def inOutput (d : BTask) (v : BVar) : Bool := v.kind == 2 && decide (d.outAddr ≤ v.addr) && decide (v.addr < d.outAddr + d.outLen)

/-! ### Heartbeats (R64) -/

/-- The designated task (R58). -/
def designated (s : State) (e t : Nat) : Bool := getP s 0x0124 == e * 16 + t

/-- The active device sends heartbeats: from COMMISSION to SAFE but SHADOW, with the role not given up. -/
def sendsHeartbeats (s : State) : Bool :=
  paired s && s.pair.active && !s.pair.gaveUp && !s.sys.inReset &&
    (match s.sys.mode with
    | .commission | .run | .reduced | .fallback | .service | .safe => true
    | .backup | .boot | .shadow | .holdup | .lockdown | .fault => false)

/-- The content of HEARTBEAT: pair sequence number, mode, RETURN_MODE or 0, round number, tick (R60). -/
def heartbeatContent (n : W32) (mode : Mode) (ret : Option Mode) (round : Nat) (t : Stamp) : Bytes :=
  le 4 n.toNat ++ le 1 mode.code ++ le 1 (ret.elim 0 (·.code)) ++ le 8 round ++ le 6 t.sec ++ le 4 t.ns

/-- The content of IMAGE_SEGMENT: engine, task, release tick, input image (R60). -/
def imageContent (e t : Nat) (at_ : Stamp) (image : Bytes) : Bytes := le 1 e ++ le 1 t ++ le 6 at_.sec ++ le 4 at_.ns ++ image

/-- HEARTBEAT sent at this tick (log entry 44). -/
def heartbeat (s : State) : State :=
  if sendsHeartbeats s then
    let n := s.pair.sequence + 1
    let ret := if s.sys.mode == .fallback then s.sys.returnMode else none
    sendPair 1 (heartbeatContent n s.sys.mode ret (s.nmod.lastRound.getD 0) (tickStamp s)) { s with pair := { s.pair with sequence := n } }
  else s

/-! ### Input images (R254) -/

/-- A section of the held snapshot by block. -/
def heldSection (s : State) (blk : Nat) : Bytes :=
  (s.intg.held.bind fun h => h.sections.find? fun x => x.1 == blk).elim [] (·.2)

/-- The bytes of an input source as it stood at the start of the tick. -/
def sourceBytes (s : State) (src idx : Nat) : Bytes :=
  match src with
  | 1 => latchBuffer s
  | 2 => (match idx with
    | 0 => s.mth.page0.start s
    | 1 => s.mth.page1.start s
    | 2 => s.mel.page2.start s
    | 3 => s.mel.page3.start s
    | _ => heldSection s 7 ++ heldSection s 8 ++ heldSection s 9)
  | 3 => s.nmod.record.start s
  | 4 => statusRead s (axisOf s idx)
  | 5 => (taskSt s (idx / 16) (idx % 16)).elim [] fun x => if x.landUs = monoUs s then x.landPrev else x.landOut
  | _ => s.time.page.start s

/-- The header of an input image for a release instant in µs of PTP time. -/
def imageHeader (s : State) (e : Nat) (d : BTask) (x : TaskSt) (rel relMono : Nat) : Bytes :=
  let test := !(drives s e d.task) && (s.sys.mode == .commission || s.sys.mode == .shadow)
  let fl := 64 * b2n x.stepped + 32 * b2n x.restarted + 16 * b2n test + 8 * b2n x.afterChange + 4 * b2n (!servoLocked s) +
    2 * b2n (bit d.flags 1) + b2n x.firstScan
  let t := stampOfUs rel
  le 6 t.sec ++ le 2 fl ++ le 4 t.ns ++ le 4 (x.cycleCount.toNat + 1) ++ le 4 x.skipped.toNat ++ le 4 x.lastRun.toNat ++
    le 4 (if x.firstScan then 0 else relMono - x.releaseMono) ++ le 1 s.sys.mode.code ++ zeros 3

/-- An input image written into an engine's data at IN_ADDR: the header, then the entries of the map. -/
def assemble (s : State) (e : Nat) (d : BTask) (x : TaskSt) (rel relMono : Nat) (data : Memory) : Memory :=
  let ins := (s.ctrl.running.elim [] (·.ins)).filter fun i => i.engine == e && i.task == d.task
  ins.foldl (fun m i => m.writes (d.inAddr + i.imgOff) (fit i.len (slice (sourceBytes s i.source i.index) i.srcOff i.len)))
    (data.writes d.inAddr (imageHeader s e d x rel relMono))

/-- The words of an engine's data that a write of `len` bytes from an address on replaces whole lose their marks (R531). -/
def unmarkWhole (e addr len : Nat) (s : State) : State :=
  unmark 5 (e * 2 ^ 20 + ceilDiv addr 8 * 8) (e * 2 ^ 20 + (addr + len) / 8 * 8) s

/-- The words that the header and the entries of an input image replace whole (R254, R531). -/
def unmarkInputs (e : Nat) (d : BTask) (s : State) : State :=
  ((s.ctrl.running.elim [] (·.ins)).filter fun i => i.engine == e && i.task == d.task).foldl
    (fun s i => unmarkWhole e (d.inAddr + i.imgOff) i.len s) (unmarkWhole e d.inAddr 32 s)

/-- A release latched: the image, read from bank 0 in class P0, lies in the data TCM, is kept in the Landing, sent to the shadow, and its
execution is ready (R16, R249, R254, R290, R292). -/
def latchRun (e : Nat) (d : BTask) (rel relMono : Nat) (data : Memory) (s : State) : State :=
  let image := data.reads d.inAddr d.inLen
  let r : Run :=
    { task := d.task, prio := d.prio, started := false, pc := BitVec.ofNat 32 d.entry, regs := zeroRegs, links := [], journal := [],
      overflowed := false, div0 := false, release := rel, beganUs := 0, again := false }
  let s := transfer (iCtrl e) (.bank 0) d.inLen s
  let x := engOf s e
  let s := setEng e { x with data := applyForces s e (inInput d) data, runs := insertRun r x.runs } s
  let s := updTask e d.task (fun y =>
    { y with
      cycleCount := y.cycleCount + 1, skipped := 0, release := rel, releaseMono := relMono, misses := 0, firstScan := false,
      restarted := false, afterChange := false, stepped := false, landIn := image }) s
  if sendsHeartbeats s then
    sendPair 3 (imageContent e d.task (stampOfUs rel) image) s
  else s

/-- Host moves on the axes of a task end as it takes ownership (R41). -/
def ownAxes (e t : Nat) (s : State) : State :=
  if !drives s e t then s else
  match s.ctrl.running with
  | some b =>
    (b.outs.filter fun o => o.dest == 3 && o.engine == e && o.task == t).foldl (fun s o =>
      if (axisOf s o.index).host.isSome then takeOver o.index s else s) s
  | none => s

/-- A release executed: image from the sources, execution; `relMono` is the monotonic µs of its release instant, which no step of the
PTP clock moves (R249, R254, R374). -/
def executeRelease (e : Nat) (d : BTask) (x : TaskSt) (rel relMono : Nat) (s : State) : State :=
  let windows := (s.ctrl.running.elim [] (·.ins)).filter fun i => i.engine == e && i.task == d.task && i.source == 2
  let s := windows.foldl (fun s i => readWindow (iCtrl e) i.len s) s
  let s := unmarkInputs e d (ownAxes e d.task s)
  latchRun e d rel relMono (assemble s e d x rel relMono (engOf s e).data) s

/-! ### Aborts, faults and skipped releases (R259 to R261) -/

/-- An abort at ABORT_LIMIT skipped releases (R260). -/
def abortTask (e t : Nat) (s : State) : State :=
  let pc := (runOf s e t).elim 0 fun r => r.pc.toNat
  let s := dropRun e t s
  let s := updTask e t (fun y => { y with mode := .aborted, faultPc := pc }) s
  let s := updCtrl (fun c => { c with aborts := c.aborts + 1 }) s
  taskOutputsSafe e t (post 0x0602 (e * 16 + t) (le 4 pc) 0 s)

/-- The running execution ends in a task fault at a pc with an address and a cause of R261. -/
def taskFault (e pc cause addr : Nat) (s : State) : State :=
  match (engOf s e).runs.head? with
  | some r =>
    let t := r.task
    let s := dropRun e t s
    let s := updTask e t (fun y =>
      { y with mode := .faulted, faultPc := pc, faultAddr := cause * 2 ^ 24 + addr % 2 ^ 24 }) s
    let s := updCtrl (fun c => { c with taskFaults := c.taskFaults + 1 }) s
    taskOutputsSafe e t (post 0x0603 (e * 16 + t) (le 4 pc ++ le 4 addr ++ le 1 cause) 0 s)
  | none => s

/-- A release that finds the previous execution still in progress (R259, R260). -/
def skipRelease (e : Nat) (d : BTask) (x : TaskSt) (s : State) : State :=
  let s := updTask e d.task (fun y =>
    { y with
      skipped := y.skipped + 1, skippedAll := y.skippedAll + 1, overruns := y.overruns + 1, misses := y.misses + 1 }) s
  let s := updCtrl (fun c => { c with overruns := c.overruns + 1 }) s
  let s := post 0x0601 (e * 16 + d.task) [] 0 s
  if d.abortLimit ≤ x.misses + 1 then abortTask e d.task s else s

/-! ### Instructions (R250, R261, R274) -/

/-- Word at a pc of an engine's code TCM. -/
def codeWord (x : Engine) (pc : Nat) : Nat := ofLE (Memory.reads x.code (pc - 0x40000) 4)

/-- The running execution of an engine stands at the given instruction. -/
def atWord (s : State) (e word : Nat) : Bool :=
  let x := engOf s e
  tasksExecute s && (x.runs.head?).any fun r =>
    decide (0x40000 ≤ r.pc.toNat) && decide (r.pc.toNat + 4 ≤ 0x80000) && codeWord x r.pc.toNat == word

/-- The start of an execution: its registers, and the forces of the engine's instance fields and globals (R274, R290). The
registers but g15 hold what the engine's registers hold; after a reset of the cores they are 0 (R263). -/
def startRun (s : State) (e : Nat) (x : Engine) : Engine :=
  match x.runs with
  | r :: below =>
    if r.started then x else
    let under := below.find? (·.started)
    let regs := if r.again then zeroRegs else under.elim x.regs (·.regs)
    let top : W64 := under.elim 0x40000 fun u => vget u.regs 15 0
    { x with
      data := applyForces s e isData x.data,
      runs := { r with started := true, regs := vset regs 15 top, beganUs := monoUs s } :: below }
  | [] => x

/-- The running execution of an engine runs one instruction: what the instruction does is given the execution, the
data, and the executions below it. One that would leave the code addresses faults at its own pc, with the target as the address
(R246, R261). -/
def runInstr (e word : Nat) (f : Engine → Run → List Run → CtrlRes) (s : State) : State :=
  if !atWord s e word then s else
  let x := startRun s e (engOf s e)
  match x.runs with
  | r :: below =>
    (match f x r below with
    | .fault c a => taskFault e r.pc.toNat c a (setEng e x s)
    | .cont r' data =>
      let s := setEng e { x with data := data, runs := r' :: below } s
      let s := if r'.overflowed && !r.overflowed then updCtrl (fun c => { c with journalOverflows := c.journalOverflows + 1 }) s else s
      let pc := r'.pc.toNat
      if pc < 0x40000 ∨ 0x80000 < pc + 4 then taskFault e r.pc.toNat 1 pc s else s)
  | [] => s

/-- ALU. -/
def ctrlAlu (e d a b fn : Nat) : State → State :=
  runInstr e (encR 0 d a b fn) fun x r _ =>
    match aluOp fn (r.get a) (r.get b) with
    | some (v, z) => .cont { (r.set d v).step with div0 := r.div0 || z } x.data
    | none => .fault 6 r.pc.toNat

/-- FPU. -/
def ctrlFpu (e d a b fn : Nat) : State → State :=
  runInstr e (encR 1 d a b fn) fun x r _ =>
    match fpuOp fn (r.get d) (r.get a) (r.get b) with
    | some v => .cont (r.set d v).step x.data
    | none => .fault 6 r.pc.toNat

/-- ADDI. -/
def ctrlAddi (e d a : Nat) (imm : BitVec 18) : State → State :=
  runInstr e (encI 2 d a imm.toNat) fun x r _ => .cont (r.set d (r.get a + imm.signExtend 64)).step x.data

/-- ANDI, ORI, XORI by kind 0, 1, 2. -/
def ctrlLogic (e kind d a : Nat) (imm : BitVec 18) : State → State :=
  runInstr e (encI (3 + kind) d a imm.toNat) fun x r _ =>
    let y := r.get a
    let z := imm.setWidth 64
    .cont (r.set d (match kind with
      | 0 => y &&& z
      | 1 => y ||| z
      | _ => y ^^^ z)).step x.data

/-- LUI; A must be 0. -/
def ctrlLui (e d a : Nat) (imm : BitVec 18) : State → State :=
  runInstr e (encI 6 d a imm.toNat) fun x r _ =>
    if a ≠ 0 then .fault 6 r.pc.toNat else .cont (r.set d (imm.signExtend 64 <<< 18)).step x.data

/-- Branches by kind 0 to 3. -/
def ctrlBranch (e kind d a : Nat) (imm : BitVec 18) : State → State :=
  runInstr e (encI (0x18 + kind) d a imm.toNat) fun x r _ =>
    .cont (if branchHolds kind (r.get d) (r.get a) then r.jump imm.toInt else r.step) x.data

/-- JMP. -/
def ctrlJmp (e : Nat) (off : BitVec 26) : State → State :=
  runInstr e (encJ 0x1C off.toNat) fun x r _ => .cont (r.jump off.toInt) x.data

/-- CALL. -/
def ctrlCall (e : Nat) (off : BitVec 26) : State → State :=
  runInstr e (encJ 0x1D off.toNat) fun x r below =>
    match pushLink none (linksUsed below) r with
    | some r' => .cont (r'.jump off.toInt) x.data
    | none => .fault 5 r.pc.toNat

/-- CODE_ADDR of a type entry of an engine. -/
def typeCode (s : State) (e i : Nat) : Option Nat :=
  s.ctrl.running.bind fun b => ((b.types.filter fun t => t.engine == e)[i]?).map (·.code)

/-- CALLB. -/
def ctrlCallb (e d a : Nat) (imm : BitVec 18) (s : State) : State :=
  runInstr e (encI 0x1E d a imm.toNat) (fun x r below =>
    match typeCode s e imm.toNat with
    | none => .fault 6 r.pc.toNat
    | some c =>
      match pushLink (some (r.get 14)) (linksUsed below) r with
      | some r' => .cont { r'.set 14 (r.get a) with pc := BitVec.ofNat 32 c } x.data
      | none => .fault 5 r.pc.toNat) s

/-- RET. -/
def ctrlRet (e d a b fn : Nat) : State → State :=
  runInstr e (encR 0x1F d a b fn) fun x r _ =>
    match r.links with
    | [] => .fault 5 r.pc.toNat
    | (ret, g) :: t =>
      let r : Run := { r with pc := ret, links := t }
      .cont (match g with
        | some v => r.set 14 v
        | none => r) x.data

/-- SYS. -/
def ctrlSys (e d a b fn : Nat) (s : State) : State :=
  runInstr e (encR 0x20 d a b fn) (fun x r _ =>
    match fn with
    | 0 => .cont (r.set d (BitVec.ofNat 64 (monoUs s))).step x.data
    | 1 => .cont (r.set d (BitVec.ofNat 64 r.release)).step x.data
    | 2 => .cont (r.set d (BitVec.ofNat 64 (e * 16 + r.task))).step x.data
    | _ => .fault 6 r.pc.toNat) s

/-- JR; a target that is not a multiple of 4 is a misaligned access. -/
def ctrlJr (e d a b fn : Nat) : State → State :=
  runInstr e (encR 0x21 d a b fn) fun x r _ =>
    let v := (r.get a).toNat
    if v % 4 ≠ 0 then .fault 4 v
    else if 2 ^ 32 ≤ v then .fault 1 v
    else .cont { r with pc := BitVec.ofNat 32 v } x.data

/-- TRAP with cause 7, and every illegal word with cause 6 (R261, R275). -/
def ctrlTrap (e : Nat) (w : W32) (s : State) : State :=
  if wOp w.toNat != 0x3F && wLegal (2 ^ 18) w.toNat then s else
  runInstr e w.toNat (fun _ r _ =>
    if wOp w.toNat = 0x3F then .fault 7 (w.toNat % 2 ^ 18) else .fault 6 r.pc.toNat) s

/-- The word of a TCM byte address in memory events (log entry 49). -/
def tcmWord (e ea : Nat) : Nat := e * 2 ^ 20 + ea / 8 * 8

/-- LB to LD by kind 0 to 6, with what the TCM's SECDED finds in the word read (R261, R275, R530, R531). -/
def ctrlLoadRow (e kind d a : Nat) (imm : BitVec 18) (err : MemErr) (s : State) : State :=
  let word := encI (8 + kind) d a imm.toNat
  if !atWord s e word then s else
  let ea := ((startRun s e (engOf s e)).runs.head?).elim 0 fun r => effAddr r a imm
  let inMap := (accessFault false ea (loadShape kind).1).isNone
  let bad := inMap && (err == .uncorrectable || s.intg.marked.contains (5, tcmWord e ea))
  let s := if inMap then
      (match err with
      | .none => s
      | .correctable => if bad then s else correctable 0x06 s
      | .uncorrectable => uncorrectable 5 0x06 (tcmWord e ea) s)
    else s
  runInstr e word (fun x r _ => if bad then .fault 8 ea else ctrlLoad kind d a imm x.code r x.data) s

/-- SB to SD by kind 0 to 3; a word written whole loses its mark (R531). -/
def ctrlStoreRow (e kind d a : Nat) (imm : BitVec 18) (s : State) : State :=
  let word := encI (0x10 + kind) d a imm.toNat
  if !atWord s e word then s else
  let ea := ((startRun s e (engOf s e)).runs.head?).elim 0 fun r => effAddr r a imm
  let s := if kind = 3 ∧ (accessFault true ea 8).isNone then unmark 5 (tcmWord e ea) (tcmWord e ea + 1) s else s
  runInstr e word (fun x r below => ctrlStore kind d a imm (journalUsed below) r x.data) s

/-! ### END and publication (R256, R257, R290) -/

/-- The running execution reaches END: forces, publication to bank 0 in class P0, and the end of its journal (R16, R32). -/
def publishRun (e : Nat) (s : State) : State :=
  let x := engOf s e
  match x.runs with
  | [] => s
  | r :: below =>
    let d := (taskDef s e r.task).getD ⟨e, r.task, r.prio, 0, 1, 0, 0, 0x28000, 32, 16, 0x30000, 1⟩
    let data := applyForces s e (inOutput d) (applyForces s e isData x.data)
    let image := data.reads d.outAddr d.outLen
    let took := BitVec.ofNat 32 (monoUs s - r.beganUs)
    let s := transfer (iCtrl e) (.bank 0) d.outLen (setEng e { x with data := data, runs := below, regs := r.regs } s)
    let s := updTask e r.task (fun y =>
      { y with
        lastRun := took, runPrev := y.lastRun, maxRun := if y.maxRun.ult took then took else y.maxRun,
        journalPeak := max y.journalPeak r.journal.length, overflowed := r.overflowed, div0 := r.div0, landPrev := y.landOut,
        landOut := image, landUs := monoUs s, toApply := true }) s
    let s := { s with pair := { s.pair with images := if paired s then s.pair.images ++ image else [] } }
    if designated s e r.task then heartbeat s else s

/-- END. -/
def ctrlEnd (e d a b fn : Nat) (s : State) : State :=
  if !atWord s e (encR 0x3E d a b fn) then s else publishRun e (setEng e (startRun s e (engOf s e)) s)

/-- OUTPUT_APPLY: PIO and VAX apply what has been published since the last tick, if it drives (R32, R258). -/
def applyTask (b : BImg) (x : TaskSt) (s : State) : State :=
  if !drives s x.engine x.task then s else
  (b.outs.filter fun o => o.engine == x.engine && o.task == x.task).foldl (fun s o =>
    let v := slice x.landOut o.imgOff (destLen o.dest)
    match o.dest with
    | 1 => publishDo o.index (bit (ofLE v) 0) s
    | 2 => publishPwm o.index (ofLE v) s
    | _ => setAxis o.index { axisOf s o.index with record := some v } s) s

def outputApply (s : State) : State :=
  match s.ctrl.running with
  | some b =>
    let due := s.ctrl.tasks.filter (·.toApply)
    updCtrl (fun c => { c with tasks := c.tasks.map fun x => { x with toApply := false } })
      (due.foldl (fun s x => applyTask b x s) s)
  | none => s

/-! ### Lockstep (R263, R264) -/

/-- A mismatch that is not recovered. While no task executes the manual names no task and no program counter for the event: they are
open, the latter an address of the map (R246; log entry 50). -/
def lockstepUnrecovered (e : Nat) (s : State) : State :=
  let r := (engOf s e).runs.head?
  let (free, s) := openVal 47 s
  let task := r.elim (free % 16) (·.task)
  let pc := r.elim (0x40000 + 4 * (free / 16 % 65536)) fun x => x.pc.toNat
  let s := post 0x0605 0 (le 1 e ++ le 1 task ++ le 4 pc) 0 s
  let s := stopTasks s
  let s := updCtrl (fun c => { c with lockstepStop := true, unrecovered := c.unrecovered + 1 }) s
  let s := snapSource 4 (axesSafe false (outputsSafe false s))
  if 2 ≤ s.sys.mode.code ∧ s.sys.mode.code ≤ 7 then trigger .safe 7 s else s

/-- LOCKSTEP_MISMATCH on an engine. `inRollback`: it occurs during a roll-back. -/
def lockstepMismatch (e : Nat) (inRollback : Bool) (s : State) : State :=
  if s.sys.inReset || s.sys.mode == .backup then s else
  let x := engOf s e
  let recent := x.mismatches.filter fun t => decide (monoUs s < t + 60000000)
  let s := setEng e { x with mismatches := monoUs s :: recent } s
  let x := engOf s e
  let third := decide (2 ≤ recent.length)
  match x.runs with
  | [] =>
    if inRollback || third then lockstepUnrecovered e s
    else
      let s := setEng e { x with regs := zeroRegs } s
      snapSource 4 (post 0x0604 e [] 0 (updCtrl (fun c => { c with recovered := c.recovered + 1 }) s))
  | r :: below =>
    if inRollback || third || r.again || r.overflowed then lockstepUnrecovered e s
    else
      let entry := (taskDef s e r.task).elim 0x40000 (·.entry)
      let r' : Run :=
        { r with
          started := false, pc := BitVec.ofNat 32 entry, links := [], journal := [], div0 := false, again := true }
      let s := setEng e { x with regs := zeroRegs, data := rollback r x.data, runs := r' :: below } s
      let s := updTask e r.task (fun y => { y with journalPeak := max y.journalPeak r.journal.length }) s
      snapSource 4 (post 0x0604 e [] 0 (updCtrl (fun c => { c with recovered := c.recovered + 1 }) s))

/-! ### Loading an image (R253, R266, R267) -/

/-- Why a force does not survive in an image: 1 VAR_ID absent, 2 DATA_TYPE changed; 0 if it does (R296, R305). -/
def forceLoss (b : BImg) (f : Force) : Nat :=
  match varOf b f.var with
  | none => 1
  | some v => if v.dtype = f.dtype then 0 else 2

/-- Forces that an image does not match are removed and recorded (R296, R297). -/
def pruneForces (b : BImg) (s : State) : State :=
  let lost := s.ctrl.forces.filter fun f => forceLoss b f != 0
  let s := updCtrl (fun c => { c with forces := c.forces.filter fun f => forceLoss b f == 0 }) s
  lost.foldl (fun s f => post 0x0608 0 (le 4 f.var ++ le 8 f.value ++ le 2 f.keyId ++ le 1 (forceLoss b f)) f.keyId s) s

/-- CODE and INIT loaded into an engine. -/
def loadEngine (b : BImg) (e : Nat) (s : State) : State :=
  let x := engOf s e
  let code := vget b.code e []
  let init := vget b.init e []
  unmark 5 (e * 2 ^ 20) (e * 2 ^ 20 + init.length / 8 * 8)
    (unmark 5 (e * 2 ^ 20 + 0x40000) (e * 2 ^ 20 + 0x40000 + code.length / 8 * 8)
      (setEng e { x with code := Memory.writes x.code 0 code, data := Memory.writes x.data 0 init } s))

/-- A running image started cold: every instance from INIT, every task fresh (R253, R267). -/
def startImage (b : BImg) (s : State) : State :=
  let s := loadEngine b 1 (loadEngine b 0 s)
  pruneForces b
    (updCtrl (fun c => { c with running := some b, tasks := b.tasks.map fun d => TaskSt.fresh d.engine d.task }) s)

/-- The stage that keeps a former running image (R267, R302). -/
def formerStage (old : Option BImg) : Stage :=
  match old with
  | some o => { Stage.empty with code := 6, id := o.id, rev := o.rev, length := o.raw.length, received := o.raw }
  | none => Stage.empty

/-- Axes owned in an image lose what their task had published. -/
def releaseAxes (b : Option BImg) (s : State) : State :=
  (b.elim [] fun x => x.outs.filter fun o => o.dest == 3).foldl (fun s o =>
    axisSafe false o.index (setAxis o.index { axisOf s o.index with gained := false } s)) s

/-- A cold start with the staged image (R267). -/
def coldStart (b : BImg) (s : State) : State :=
  let old := s.ctrl.running
  let s := dropRuns 1 (dropRuns 0 s)
  let s := startImage b s
  let s := updCtrl (fun c => { c with stage := formerStage old, staged := old, flashWrite := true }) s
  releaseAxes (some b) (releaseAxes old (outputsSafe false s))

/-- CTRL_IMAGE_LOAD (R266). -/
def effCtrlImageLoad (p : Bytes) (s : State) : CmdRes :=
  let st := s.ctrl.stage
  if st.code = 2 ∨ st.code = 5 then .reject stBusy [] else
  checked (chunkChecks st 64 1048576 p)
    (let st' := chunkTake st p
     let s' := updCtrl (fun c => { c with stage := st', staged := none }) s
     if st'.code = 2 then .wait .blockValidation s' else .ok (stageBody st') s')

/-- BLOCK_IMAGE_VALIDATION_COMPLETE (R266). -/
def blockValidated (s : State) : State :=
  let st := s.ctrl.stage
  if st.code != 2 then s else
  let v := biValidate st.received
  let ok := v.1 == 0
  let st' := { st with
    code := if ok then 3 else 4, validation := v.1, section_ := v.2.1, entry := v.2.2.1, field := v.2.2.2 }
  let s := updCtrl (fun c => { c with stage := st', staged := if ok then some (biParse st.received) else none }) s
  completeAll (· == .blockValidation) stOK false (stageBody st') s

/-- CTRL_COLD_START (R267). While STAGE is 5 there is no staged image to start with: the rule names no BUSY, and the model answers
BAD_PARAM at offset 0 (log entry 121, DEDUCED). -/
def effColdStart (p : Bytes) (s : State) : CmdRes :=
  let st := s.ctrl.stage
  match s.ctrl.staged with
  | none => .badParam 0
  | some b =>
    checked [((st.code == 3 || st.code == 6) && b.id == fld p 0 4, 0), (b.rev == fld p 4 4, 4)] (.ok [] (coldStart b s))

/-- BLOCK_IMAGE_FLASH_WRITE (R131, R253, R307). -/
def blockFlashed (s : State) : State :=
  match s.ctrl.flashWrite, s.ctrl.running with
  | true, some b =>
    let toB := !s.ctrl.selector
    updCtrl (fun c => { c with
      flashA := if toB then c.flashA else some b.raw, flashB := if toB then some b.raw else c.flashB, selector := toB,
      flashWrite := false }) s
  | _, _ => s

/-- CTRL at the end of BOOT: the image of the slot that the selector names, cold; forces stay (R253, R296). -/
def ctrlBoot (s : State) : State :=
  let c := s.ctrl
  let s := updCtrl (fun _ => { Ctrl.reset with forces := c.forces, flashA := c.flashA, flashB := c.flashB, selector := c.selector }) s
  let s := { s with intg := { s.intg with marked := s.intg.marked.filter fun x => x.1 != 5 } }
  match if c.selector then c.flashB else c.flashA with
  | some b => if (biValidate b).1 = 0 then startImage (biParse b) s else s
  | none => s

/-! ### Commands (R276, R277, R293 to R295) -/

/-- A force put in its place, in ascending VAR_ID. -/
def putForce (f : Force) : List Force → List Force
  | [] => [f]
  | g :: t => if f.var < g.var then f :: g :: t else if f.var = g.var then f :: t else g :: putForce f t

/-- A value that a force may carry: upper bytes 0, BOOL 0 or 1, reals finite (R293). -/
def forceValueOk (dtype v : Nat) : Bool :=
  decide (v < 2 ^ (8 * dtypeSize dtype)) &&
    (match dtype with
    | 1 => decide (v ≤ 1)
    | 5 => v / 2 ^ 23 % 256 != 255
    | 6 => v / 2 ^ 52 % 2048 != 2047
    | _ => true)

/-- CTRL_FORCE_SET (R293, R297). -/
def effForceSet (p : Bytes) (keyId : Nat) (s : State) : CmdRes :=
  let id := fld p 0 4
  let v := s.ctrl.running.bind fun b => varOf b id
  let known := s.ctrl.forces.any fun f => f.var == id
  checked
    [(v.isSome && (known || decide (s.ctrl.forces.length < 256)), 0), (v.any fun x => x.dtype == fld p 4 1, 4),
      (allZero (slice p 5 3), 5), (forceValueOk (fld p 4 1) (fld p 8 8), 8)]
    (let f : Force := ⟨id, fld p 4 1, keyId, ptpSec s, fld p 8 8⟩
     .ok [] (post 0x0606 0 (le 4 id ++ le 8 f.value ++ le 2 keyId) keyId
       (updCtrl (fun c => { c with forces := putForce f c.forces }) s)))

/-- CTRL_FORCE_CLEAR (R294, R297). -/
def effForceClear (p : Bytes) (keyId : Nat) (s : State) : CmdRes :=
  let id := fld p 0 4
  let hit (f : Force) : Bool := id == 0xFFFFFFFF || f.var == id
  let gone := s.ctrl.forces.filter hit
  checked [(allZero (slice p 4 4), 4)]
    (.ok (le 4 gone.length ++ zeros 4)
      (gone.foldl (fun s f => post 0x0607 0 (le 4 f.var ++ le 8 f.value ++ le 2 keyId) keyId s)
        (updCtrl (fun c => { c with forces := c.forces.filter fun f => !hit f }) s)))

/-- CTRL_FORCE_LIST (R295). -/
def effForceList (s : State) : CmdRes :=
  let kind (f : Force) : Nat := (s.ctrl.running.bind fun b => varOf b f.var).elim 0 (·.kind)
  .ok (le 4 s.ctrl.forces.length ++ zeros 4 ++
    s.ctrl.forces.flatMap fun f =>
      le 4 f.var ++ le 1 f.dtype ++ le 1 (kind f) ++ le 2 f.keyId ++ le 6 f.sec ++ zeros 2 ++ le 8 f.value) s

/-- The axes of a task are released: the first record after it owns them again acts on no HOME_REQ or ACK_REQ (R276, R391). -/
def releaseTaskAxes (e t : Nat) (s : State) : State :=
  ((s.ctrl.running.elim [] (·.outs)).filter fun o => o.dest == 3 && o.engine == e && o.task == t).foldl (fun s o =>
    setAxis o.index { axisOf s o.index with gained := false } s) s

/-- CTRL_TASK_CONTROL (R276). -/
def effTaskControl (p : Bytes) (s : State) : CmdRes :=
  let e := fld p 0 1
  let t := fld p 1 1
  checked
    [(decide (e ≤ 1), 0), ((taskDef s e t).isSome, 1), (decide (fld p 2 1 ≤ 1), 2), (allZero (slice p 3 1), 3)]
    (if fld p 2 1 = 0 then
      .ok [] (releaseTaskAxes e t (taskOutputsSafe e t (updTask e t (fun y => { y with mode := .stopped }) (dropRun e t s))))
    else
      .ok [] (updTask e t (fun y => if y.mode = .waiting then y else { y with mode := .waiting, restarted := true }) s))

/-- STATE of a task (R277). -/
def taskState (s : State) (e : Nat) (x : TaskSt) : Nat :=
  match x.mode with
  | .stopped => 0
  | .aborted => 5
  | .faulted => 6
  | .waiting =>
    match runOf s e x.task with
    | none => 1
    | some r =>
      if !r.started then 2 else if ((engOf s e).runs.head?).any fun h => h.task == x.task then 3 else 4

/-- A task owns outputs that are being driven: it owns one, and its publications drive. -/
def drivesAny (s : State) (e t : Nat) : Bool :=
  drives s e t && (s.ctrl.running.elim false fun b => b.outs.any fun o => o.engine == e && o.task == t)

/-- CTRL_TASK_STATUS (R277). -/
def effTaskStatus (p : Bytes) (s : State) : CmdRes :=
  let e := fld p 0 1
  let t := fld p 1 1
  checked [(decide (e ≤ 1), 0), (decide (t ≤ 15), 1), (allZero (slice p 2 2), 2)]
    (match taskSt s e t with
    | none => .ok (le 1 7 ++ zeros 39 ++ le 4 0xFFFFFFFF ++ zeros 4) s
    | some x =>
      let rel := stampOfUs x.release
      .ok (le 1 (taskState s e x) ++ le 1 (4 * b2n x.overflowed + 2 * b2n x.div0 + b2n (drivesAny s e t)) ++ zeros 2 ++
        le 4 x.cycleCount.toNat ++ le 4 x.skippedAll.toNat ++ le 4 x.overruns.toNat ++ le 4 x.lastRun.toNat ++
        le 4 x.maxRun.toNat ++ le 6 rel.sec ++ zeros 2 ++ le 4 rel.ns ++ le 4 x.journalPeak ++ le 4 x.faultPc ++
        le 4 x.faultAddr) s)

/-! ### Parameters (R278, R309) -/

/-- An engine executes tasks. -/
def engineActive (s : State) (e : Nat) : Bool := tasksExecute s && s.ctrl.tasks.any fun x => x.engine == e

/-- CTRL_STATE. -/
def ctrlState (s : State) : Nat :=
  s.ctrl.stage.code * 2 ^ 16 + s.ctrl.stage.validation * 256 + 8 * b2n s.ctrl.lockstepStop + 4 * b2n s.ctrl.running.isSome +
    2 * b2n (engineActive s 1) + b2n (engineActive s 0)

/-- A read-only parameter of CTRL. -/
def ctrlParam (s : State) (i : Nat) : Nat :=
  let c := s.ctrl
  match i with
  | 0x10 => ctrlState s
  | 0x11 => c.running.elim 0 (·.id)
  | 0x12 => c.running.elim 0 (·.rev)
  | 0x13 => c.stage.received.length
  | 0x14 => c.recovered.toNat
  | 0x15 => c.unrecovered.toNat
  | 0x16 => c.overruns.toNat
  | 0x17 => c.aborts.toNat
  | 0x18 => c.taskFaults.toNat
  | 0x19 => c.journalOverflows.toNat
  | 0x1A => c.forces.length
  | 0x1C => c.onlineChanges.toNat
  | 0x1D => c.changesNotMade.toNat
  | _ => 0

end Sys2Proof.Machine
end

