-- ==== Sys2Proof/Machine/Change.lean ====
section
/-! DEFINITION. Task releases, and online change of the block image (R249 to R251, R255, R298 to R308). -/

namespace Sys2Proof.Machine

/-! ### What a change does (R302 to R306) -/

/-- The type entry of an instance in its image. -/
def instType (b : BImg) (i : BInst) : BType :=
  ((b.types.filter fun t => t.engine == i.engine)[i.typeIdx]?).getD ⟨0, 0, 0, 0, 0, 0⟩

/-- The instance of an image with an INSTANCE_ID. -/
def instOf (b : BImg) (id : Nat) : Option BInst := b.insts.find? fun i => i.id == id

/-- Fate of an instance of the new image: 0 carried, 1 and 2 re-initialised (TYPE_ID, LAYOUT_CRC), 3 added (R304). -/
def instFate (a b : BImg) (i : BInst) : Nat :=
  match instOf a i.id with
  | none => 3
  | some o =>
    let x := instType a o
    let y := instType b i
    if x.id ≠ y.id then 1 else if x.crc ≠ y.crc then 2 else 0

/-- The instances of the new image with a fate. -/
def withFate (a b : BImg) (p : Nat → Bool) : List BInst := b.insts.filter fun i => p (instFate a b i)

/-- Instances only in the old image. -/
def deletedInsts (a b : BImg) : List BInst := a.insts.filter fun i => (instOf b i.id).isNone

/-- Tasks of `a` that `b` lacks. -/
def lacking (a b : BImg) : List BTask := a.tasks.filter fun t => !b.tasks.any fun x => x.engine == t.engine && x.task == t.task

/-- Outputs and axes of the device, as DEST and number. -/
def allOutputs : List (Nat × Nat) :=
  (List.range 24).map (fun i => (1, i)) ++ (List.range 8).map (fun i => (2, i)) ++ (List.range 8).map (fun i => (3, i))

/-- A change entry (*Change result*). -/
def changeEntry (kind reason id old new : Nat) : Bytes := le 1 kind ++ le 1 reason ++ zeros 2 ++ le 4 id ++ le 4 old ++ le 4 new

/-- TYPE_ID and TYPE_REV of a type. -/
def typeWord (t : BType) : Nat := t.id + t.rev * 65536

/-- The entries of a change from image `a` to image `b`, kind after kind. -/
def changeEntries (a b : BImg) (forces : List Force) : List Bytes :=
  (withFate a b (fun k => k == 1 || k == 2)).map (fun i =>
    changeEntry 1 (instFate a b i) i.id (typeWord ((instOf a i.id).elim ⟨0, 0, 0, 0, 0, 0⟩ (instType a))) (typeWord (instType b i))) ++
  (deletedInsts a b).map (fun i => changeEntry 2 0 i.id 0 0) ++
  (forces.filter fun f => forceLoss b f != 0).map (fun f => changeEntry 3 (forceLoss b f) f.var 0 0) ++
  allOutputs.filterMap (fun o =>
    match ownerIn a o.1 o.2, ownerIn b o.1 o.2 with
    | some x, some y => if x = y then none else some (changeEntry 4 o.1 o.2 (x.1 * 16 + x.2) (y.1 * 16 + y.2))
    | _, _ => none) ++
  allOutputs.filterMap (fun o =>
    match ownerIn a o.1 o.2, ownerIn b o.1 o.2 with
    | some _, none => some (changeEntry 5 o.1 o.2 0 0)
    | _, _ => none) ++
  (lacking b a).map (fun t => changeEntry 6 0 (t.engine * 16 + t.task) 0 0) ++
  (lacking a b).map (fun t => changeEntry 7 0 (t.engine * 16 + t.task) 0 0)

/-- An engine is reloaded: its CODE, TASKS, INSTANCES or TYPES differ (R302). -/
def reloads (a b : BImg) (e : Nat) : Bool :=
  vget a.code e [] != vget b.code e [] ||
    a.tasks.filter (fun t => t.engine == e) != b.tasks.filter (fun t => t.engine == e) ||
    a.insts.filter (fun t => t.engine == e) != b.insts.filter (fun t => t.engine == e) ||
    a.types.filter (fun t => t.engine == e) != b.types.filter (fun t => t.engine == e)

/-- The change result from CARRIED to the last entry, at most 4,096 of them. -/
def changeCounts (a b : BImg) (forces : List Force) : Bytes :=
  let es := (changeEntries a b forces).take 4096
  let lost := (forces.filter fun f => forceLoss b f != 0).length
  le 4 (withFate a b (· == 0)).length ++ le 4 (withFate a b (fun k => k == 1 || k == 2)).length ++
    le 4 (withFate a b (· == 3)).length ++ le 4 (deletedInsts a b).length ++ le 4 (forces.length - lost) ++ le 4 lost ++
    le 4 es.length ++ es.flatten

/-- *Change result*. -/
def changeBody (a b : BImg) (c : Change) (outcome engines drain exchange : Nat) (counts : Bytes) : Bytes :=
  let t := stampOfUs c.at_
  le 4 b.id ++ le 4 b.rev ++ le 4 a.id ++ le 4 a.rev ++ le 1 outcome ++ le 1 engines ++ le 6 t.sec ++ le 4 t.ns ++ le 4 drain ++
    le 4 exchange ++ counts

/-! ### The exchange (R302, R304) -/

/-- STATE in the header of an instance set after INIT: STARTED 0, and REINIT if it is re-initialised (R304). -/
def initInstance (b : BImg) (i : BInst) (reinit : Bool) (m : Memory) : Memory :=
  let m := m.writes i.addr (slice (vget b.init i.engine []) i.addr i.size)
  let st := ofLE (m.reads (i.addr + 8) 2)
  m.writes (i.addr + 8) (le 2 (st / 4 * 4 + (if reinit then 2 else st / 2 % 2 * 2)))

/-- The data of engine `e` after the exchange, from the data of both engines before it. -/
def exchangedData (a b : BImg) (old : Nat → Memory) (e : Nat) : Memory :=
  let m := (b.insts.filter fun i => i.engine == e).foldl (fun m i =>
    match instFate a b i, instOf a i.id with
    | 0, some o => m.writes i.addr ((old o.engine).reads o.addr (min i.size o.size))
    | k, _ => initInstance b i (k != 3) m) (old e)
  (b.vars.filter fun v => v.engine == e && v.kind == 3).foldl (fun m v =>
    match varOf a v.id with
    | some o =>
      if o.kind = 3 ∧ o.dtype = v.dtype then m.writes v.addr ((old o.engine).reads o.addr (dtypeSize v.dtype))
      else m.writes v.addr (slice (vget b.init e []) v.addr (dtypeSize v.dtype))
    | none => m.writes v.addr (slice (vget b.init e []) v.addr (dtypeSize v.dtype))) m

/-- Task states after the exchange (R303, R306). -/
def exchangedTasks (b : BImg) (old : List TaskSt) : List TaskSt :=
  b.tasks.map fun d =>
    match old.find? fun x => x.engine == d.engine && x.task == d.task with
    | some x => { x with afterChange := true }
    | none => { TaskSt.fresh d.engine d.task with firstScan := false, afterChange := true }

/-- EXCHANGE: once no execution is in progress on either engine (R299, R302). -/
def exchange (s : State) : State :=
  match s.ctrl.change, s.ctrl.running, s.ctrl.staged with
  | some c, some a, some b =>
    if c.phase != .draining || !(engOf s 0).runs.isEmpty || !(engOf s 1).runs.isEmpty then s else
    let counts := changeCounts a b s.ctrl.forces
    let eng := b2n (reloads a b 0) + 2 * b2n (reloads a b 1)
    let old (e : Nat) : Memory := (engOf s e).data
    let load (e : Nat) (x : Engine) : Engine :=
      { x with
        code := if reloads a b e then Memory.writes x.code 0 (vget b.code e []) else x.code, data := exchangedData a b old e }
    let s := setEng 1 (load 1 (engOf s 1)) (setEng 0 (load 0 (engOf s 0)) s)
    let s := pruneForces b s
    updCtrl (fun x => { x with
      running := some b, staged := some a, stage := formerStage (some a), tasks := exchangedTasks b x.tasks, flashWrite := true,
      onlineChanges := x.onlineChanges + 1,
      change := some { c with phase := .exchanged, exchangeMono := monoUs s, body := le 1 eng ++ counts } }) s
  | _, _, _ => s

/-! ### Releases (R249 to R251, R303) -/

/-- An input image of the active device latched in SHADOW, header and all, with FLAGS bit 4 set (R62, R255). -/
def latchImage (d : BTask) (image : Bytes) (s : State) : State :=
  let im := fit d.inLen image
  let im := im.take 6 ++ le 1 (setBit (fld im 6 1) 4 true) ++ im.drop 7
  let rel := fld im 0 6 * 1000000 + fld im 8 4 / 1000
  latchRun d.engine d rel (monoUs s) (Memory.writes (engOf s d.engine).data d.inAddr im) (unmarkWhole d.engine d.inAddr im.length s)

/-- Task entries by priority, the highest first (R251). -/
def byPriority (l : List BTask) : List BTask := (List.range 16).flatMap fun p => l.filter fun d => d.prio == p

/-- The held releases latched (R251, R303): of each task the latest, in priority order, the earlier ones counted. -/
def latchHeld (held : List HeldRelease) (s : State) : State :=
  if !tasksExecute s then s else
  let order := (s.ctrl.running.elim [] (·.tasks)).filter fun d => held.any fun h => h.engine == d.engine && h.task == d.task
  let one (s : State) (d : BTask) : State :=
    let mine := held.filter fun h => h.engine == d.engine && h.task == d.task
    match taskSt s d.engine d.task, mine.getLast? with
    | some x, some h =>
      if x.mode != .waiting then s else
      (match h.image with
      | some im => latchImage d im s
      | none =>
        let n := BitVec.ofNat 32 (mine.length - 1)
        let x := { x with skipped := x.skipped + n, skippedAll := x.skippedAll + n }
        executeRelease d.engine d x h.rel h.mono (updTask d.engine d.task (fun _ => x) s))
    | _, _ => s
  (byPriority order).foldl one (takeSample s)

/-- CHANGE_TICK of a switch of the control runtime: from its T releases are held (R299, R518). -/
def swapTick (s : State) : State :=
  match s.ctrl.swap with
  | some x =>
    if !x.draining && decide (x.atMono ≤ monoUs s) then updCtrl (fun c => { c with swap := some { x with draining := true } }) s
    else s
  | none => s

/-- A switch of the control runtime drains. -/
def swapping (s : State) : Bool := s.ctrl.swap.any (·.draining)

/-- The held releases of a change are latched, or held on while the control runtime switches. -/
def releaseHeld (held : List HeldRelease) (s : State) : State :=
  match s.ctrl.swap with
  | some x =>
    if x.draining then updCtrl (fun y => { y with swap := some { x with held := held ++ x.held } }) s else latchHeld held s
  | none => latchHeld held s

/-- A change that is not made ends: its command completes, the held releases execute with the old code (R300, R301,
R308). Fields that describe an exchange that has not run are open (log entry 50). -/
def changeNotMade (outcome : Nat) (s : State) : State :=
  match s.ctrl.change, s.ctrl.running, s.ctrl.staged with
  | some c, some a, some b =>
    let (drain, s) := openVal 45 s
    let (ex, s) := openVal 46 s
    let body := changeBody a b c outcome 0 (drain % 2 ^ 32) (ex % 2 ^ 32) (changeCounts a b s.ctrl.forces)
    let s := updCtrl (fun x => { x with
      change := none, changesNotMade := x.changesNotMade + 1, stage := { x.stage with code := c.prior } }) s
    let s := post 0x060A 0 (le 4 b.id ++ le 4 b.rev ++ le 4 a.id ++ le 4 a.rev ++ le 1 outcome) 0 s
    releaseHeld c.held (completeAll (· == .onlineChange) stOK false body s)
  | _, _, _ => s

/-- CHANGE_TICK: at T the options are checked against the forces in force, and releases are held from then on (R299,
R300). -/
def changeTick (s : State) : State :=
  match s.ctrl.change, s.ctrl.running, s.ctrl.staged with
  | some c, some a, some b =>
    if (c.phase != .preparing && c.phase != .prepared) || decide (monoUs s < c.atMono) then s
    else if bit c.options 0 && !(withFate a b (fun k => k == 1 || k == 2)).isEmpty then changeNotMade 1 s
    else if bit c.options 1 && s.ctrl.forces.any (fun f => forceLoss b f != 0) then changeNotMade 2 s
    else updCtrl (fun x => { x with change := some { c with phase := .draining } }) s
  | _, _, _ => s

/-- ONLINE_CHANGE_PREPARED (R299). -/
def changePrepared (s : State) : State :=
  match s.ctrl.change with
  | some c => if c.phase = .preparing then updCtrl (fun x => { x with change := some { c with phase := .prepared } }) s else s
  | none => s

/-- CHANGE_DRAIN_TIMEOUT (R301). -/
def changeDrainTimeout (s : State) : State :=
  match s.ctrl.change with
  | some c =>
    if c.phase == .draining && decide (c.atMono + c.drainMax ≤ monoUs s) &&
        !((engOf s 0).runs.isEmpty && (engOf s 1).runs.isEmpty) then changeNotMade 3 s
    else s
  | none => s

/-- A mode is entered in which CTRL_ONLINE_CHANGE is not legal, before the exchange has begun (R301). -/
def dropChange (s : State) : State :=
  match s.ctrl.change with
  | some c => if c.phase = .exchanged then s else changeNotMade 4 s
  | none => s

/-- Outputs and axes that lost their owner (R306). -/
def orphansSafe (a b : BImg) (s : State) : State :=
  allOutputs.foldl (fun s o =>
    match ownerIn a o.1 o.2, ownerIn b o.1 o.2 with
    | some _, none =>
      (match o.1 with
      | 1 => doSafe o.2 s
      | 2 => pwmSafe false o.2 s
      | _ => axisSafe false o.2 (setAxis o.2 { axisOf s o.2 with gained := false } s))
    | some x, some y =>
      if o.1 = 3 ∧ x ≠ y then setAxis o.2 { axisOf s o.2 with gained := false } s else s
    | _, _ => s) s

/-- LATCH_TICK: the change is made, the command completes and the held releases are latched (R299, R303, R308). -/
def latchTick (s : State) : State :=
  match s.ctrl.change, s.ctrl.running, s.ctrl.staged with
  | some c, some b, some a =>
    if c.phase != .exchanged then s else
    let body := changeBody a b c 0 (fld c.body 0 1) (c.exchangeMono - c.atMono) (monoUs s - c.exchangeMono) (c.body.drop 1)
    let s := updCtrl (fun x => { x with change := none }) (orphansSafe a b s)
    let s := post 0x0609 0 (le 4 b.id ++ le 4 b.rev ++ le 4 a.id ++ le 4 a.rev ++ le 1 0) 0 s
    releaseHeld c.held (completeAll (· == .onlineChange) stOK false body s)
  | _, _, _ => s

/-- CTRL_ONLINE_CHANGE (R298). -/
def effOnlineChange (p : Bytes) (s : State) : CmdRes :=
  let st := s.ctrl.stage
  if st.code = 5 then .reject stBusy [] else
  match s.ctrl.running, s.ctrl.staged with
  | some _, some b =>
    checked
      [((st.code == 3 || st.code == 6) && b.id == fld p 0 4, 0), (b.rev == fld p 4 4, 4), (decide (fld p 8 1 < 4), 8),
        (allZero (slice p 9 3), 9)]
      (.wait .onlineChange (updCtrl (fun c => { c with
        stage := { c.stage with code := 5 },
        change := some
          { options := fld p 8 1, at_ := tickUs s + 250000, atMono := monoUs s + 250000, drainMax := getP s 0x061B,
            phase := .preparing, held := [], exchangeMono := 0, prior := st.code, body := [] } }) s))
  | _, _ => .badParam 0

/-- Releases are held: a change drains or has exchanged (R299). -/
def holding (s : State) : Bool := s.ctrl.change.any fun c => c.phase == .draining || c.phase == .exchanged

/-- A release of a task that has been dealt with is remembered by its instant. -/
def markInstant (e t : Nat) (s : State) : State := updTask e t (fun y => { y with instant := some (monoUs s) }) s

/-- A task new to the image is first released after the latch tick (R306). -/
def newTask (s : State) (e t : Nat) : Bool :=
  s.ctrl.change.any (fun c => c.phase == .exchanged) &&
    s.ctrl.staged.any fun a => !a.tasks.any fun x => x.engine == e && x.task == t

/-- A release is held, if a switch of the control runtime or a change holds it (R299, R518). -/
def holdRelease (h : HeldRelease) (s : State) : State :=
  if swapping s then updCtrl (fun c => { c with swap := c.swap.map fun x => { x with held := x.held ++ [h] } }) s
  else updCtrl (fun c => { c with change := c.change.map fun x => { x with held := x.held ++ [h] } }) s

/-- The release of a task at its release instant: held, skipped, or executed (R249, R259, R260, R299). -/
def releaseOne (e : Nat) (d : BTask) (s : State) : State :=
  let s := markInstant e d.task s
  if !tasksExecute s || !taskGoes s e d.task then (if designated s e d.task then heartbeat s else s)
  else
    let s := swapTick (changeTick s)
    if swapping s || holding s then
      (if newTask s e d.task then s else holdRelease ⟨e, d.task, tickUs s, monoUs s, none⟩ s)
    else
      let s := takeSample s
      match taskSt s e d.task with
      | none => s
      | some x => if (runOf s e d.task).isSome then skipRelease e d x s else executeRelease e d x (tickUs s) (monoUs s) s

/-- This tick is a release instant of the task, and the task has not been released at it yet. -/
def releaseDue (s : State) (e : Nat) (d : BTask) : Bool :=
  tickUs s % d.cycle == d.phase && !(taskSt s e d.task).any (fun x => x.instant == some (monoUs s))

/-- The tasks of an engine above a priority that are due in this tick: they are latched first, the highest first (R251). -/
def dueAbove (s : State) (e prio : Nat) : List BTask :=
  byPriority ((s.ctrl.running.elim [] (·.tasks)).filter fun d => d.engine == e && decide (d.prio < prio) && releaseDue s e d)

/-- The releases of this tick that come before one of a priority on an engine. -/
def releaseAbove (e prio : Nat) (s : State) : State := (dueAbove s e prio).foldl (fun s d => releaseOne e d s) s

/-- TASK_RELEASE of a task at its release instant, after those of higher priority on its engine in the same tick (R249, R251). In
SHADOW the releases come from the active device (R255). -/
def taskRelease (e t : Nat) (s : State) : State :=
  match taskDef s e t with
  | none => s
  | some d => if !releaseDue s e d || s.sys.mode == .shadow then s else releaseOne e d (releaseAbove e d.prio s)

/-- In SHADOW an axis takes POSITION from an input image whose map entry for its status covers offsets 16 to 19 (R403). -/
def shadowAxes (e t : Nat) (image : Bytes) (s : State) : State :=
  ((s.ctrl.running.elim [] (·.ins)).filter fun i =>
    i.engine == e && i.task == t && i.source == 4 && decide (i.srcOff ≤ 16) && decide (20 ≤ i.srcOff + i.len)).foldl (fun s i =>
      setAxis i.index { axisOf s i.index with pos := sgn 32 (fld image (i.imgOff + 16 - i.srcOff) 4), frac := 0 } s) s

/-- IMAGE_SEGMENT received in SHADOW: the axes take their positions, and the task runs on the image of the active device, at once or
once a hold ends (R62, R255, R299, R403). -/
def imageSegment (e t : Nat) (image : Bytes) (s : State) : State :=
  if s.sys.mode != .shadow then s else
  match taskDef s e t, taskSt s e t with
  | some d, some x =>
    let s := shadowAxes e t image s
    if !tasksExecute s || !taskGoes s e t then s
    else
      let s := swapTick (changeTick s)
      if swapping s || holding s then holdRelease ⟨e, t, tickUs s, monoUs s, some image⟩ s
      else if (runOf s e t).isSome then skipRelease e d x s
      else latchImage d image s
  | _, _ => s

end Sys2Proof.Machine
end

