-- ==== Sys2Proof/Machine/Epd.lean ====
section
/-! DEFINITION. The status display: images, updates, temperature bands, supply, the frame memory check and EPD_DRAW
(R463 to R479). -/

namespace Sys2Proof.Machine

/-! ### Images (R463, R464) -/

/-- A pixel of an image; white where it is not listed. -/
def pixel (img : List (Nat × Nat)) (i : Nat) : Nat := tableGet (fun _ => 15) img i

/-- A pixel written. -/
def putPixel (img : List (Nat × Nat)) (i v : Nat) : List (Nat × Nat) := tableSet (fun _ => 15) img i v

/-- Pixel number of a column and a line: two pixels a byte, 800 bytes a line (R463). -/
def pixelNo (x y : Nat) : Nat := y * 1600 + x

/-- A pixel lies in the columns of a rectangle and on one of the given lines. -/
def onLines (r : Rect) (lines : List Nat) (i : Nat) : Bool :=
  lines.contains (i / 1600) && decide (r.x ≤ i % 1600) && decide (i % 1600 < r.x + r.w)

/-- The given lines of a rectangle copied from one image to another (R470, R472). -/
def copyLines (r : Rect) (lines : List Nat) (src dst : List (Nat × Nat)) : List (Nat × Nat) :=
  (src.filter fun p => onLines r lines p.1).foldl (fun d p => putPixel d p.1 p.2)
    (dst.filter fun p => !onLines r lines p.1)

/-- The lines of a rectangle in which two images differ (R470). -/
def changedLines (r : Rect) (a b : List (Nat × Nat)) : List Nat :=
  ((List.range r.h).map (· + r.y)).filter fun y =>
    (a ++ b).any fun p => onLines r [y] p.1 && pixel a p.1 != pixel b p.1

/-- Two rectangles overlap. -/
def overlaps (a b : Rect) : Bool :=
  decide (a.x < b.x + b.w) && decide (b.x < a.x + a.w) && decide (a.y < b.y + b.h) && decide (b.y < a.y + a.h)

/-! ### Strips (R476, R477) -/

/-- The values that a strip shows (*Strip contents*). -/
def stripBytes (s : State) (k : Nat) : Bytes :=
  if k = 0 then
    le 1 s.sys.mode.code ++ le 1 s.sec.lifecycle.code ++ le 2 (s.rtc.cal % 86400 / 60) ++ le 1 (b2n s.rtc.dst) ++
      le 1 s.time.servo.code ++
      le 1 (if getP s 0x0120 = 1 then 1 + b2n s.pair.active * 2 + b2n s.pair.qualified else 0) ++
      le 4 s.ctrl.forces.length ++ le 1 (if s.sys.mode = .fault then s.sys.cause else 0)
  else
    le 4 (metroVersion s) ++ fit 48 (imageOf s 3).digest ++ le 4 s.bill.changeCounter.toNat ++ le 1 (b2n (billingSet s)) ++
      le 1 (b2n (tamperMark s))

/-- Both strips as they stand. -/
def stripsNow (s : State) : Vector Bytes 2 := Vector.ofFn fun k => stripBytes s k.val

/-- What a strip shows is drawn without a new request: one is queued, or the update that runs, or else the panel, shows it. -/
def stripDrawn (s : State) (k : Nat) (b : Bytes) : Bool :=
  s.epd.queue.any (fun q => q.region == k || q.region == 16) ||
    match s.epd.running.find? fun u => u.req.region == k || u.req.region == 16 with
    | some u => vget u.strips k [] == b
    | none => vget s.epd.shown k [] == b

/-- A strip whose values have changed since it was requested is requested with QUIET (R477). -/
def stripCheck (k : Nat) (s : State) : State :=
  let b := stripBytes s k
  if !epdRuns s || vget s.epd.asked k [] == b then s
  else
    let t := updEpd (fun e => { e with asked := vset e.asked k b }) s
    if stripDrawn s k b then t else requestStrip k 2 t

/-- STRIP_REFRESH: every 60 minutes both strips are requested with FULL (R477). -/
def stripRefresh (s : State) : State := requestStrip 1 1 (requestStrip 0 1 s)

/-! ### Temperature (R466 to R468) -/

/-- TEMP_CONFIG. -/
def tempConfig (s : State) : Nat := getP s 0x0F11

/-- A temperature of `n` K in the unit of 2^-32 °C. -/
def kelvin (n : Int) : Int := n * 2 ^ 32

/-- Lower limit of a band in °C. -/
def bandLow (b : Nat) : Int := if b = 7 then 40 else 5 * b

/-- The band that a temperature lies in, without hysteresis (R466). -/
def bandOf (t : Int) : Nat := ((List.range 8).filter fun b => b != 0 && decide (kelvin (bandLow b) ≤ t)).length

/-- The band after a sample: a limit counts only once it is passed by more than 0.5 K (R466). -/
def bandNext (old : Nat) (t : Int) : Nat :=
  let up := ((List.range 8).filter fun b => b != 0 && decide (kelvin (bandLow b) + 2 ^ 31 < t)).length
  let down := ((List.range 8).filter fun b => b != 0 && decide (kelvin (bandLow b) - 2 ^ 31 ≤ t)).length
  if old < up then up else if down < old then down else old

/-- TEMP_INVALID: no source, or no valid sample for 60 s (R467). -/
def tempInvalid (s : State) : Bool :=
  tempConfig s % 4 == 0 || s.epd.temp.isNone || decide (s.epd.sampleUs + 60000000 ≤ s.clock.real)

/-- TEMP_HOLD: the latest valid sample lies outside 0 °C to 50 °C (R467). -/
def tempHold (s : State) : Bool :=
  tempConfig s % 4 != 0 && s.epd.temp.any fun t => decide (t < 0) || decide (kelvin 50 < t)

/-- A valid sample taken: its band, and the drift of running updates (R466, R468). -/
def takeTemp (t : Int) (s : State) : State :=
  let raw := bandOf t
  updEpd
    (fun e => { e with
      temp := some t, sampleUs := s.clock.real, band := if e.temp.isNone then raw else bandNext e.band t,
      running := e.running.map fun u => { u with drift := u.drift || decide (u.band + 2 ≤ raw) || decide (raw + 2 ≤ u.band) } }) s

/-- PANEL_TEMPERATURE_SAMPLE: the panel temperature is sampled, and the strips are compared with what they show (R466,
R477). `i2c` is the sensor's reading, or none if it does not acknowledge. -/
def panelSample (i2c : Option (BitVec 16)) (s : State) : State :=
  if !epdRuns s then s else
  let s := applyOne 0x0F11 s
  let ain := bits (tempConfig s) 15 12
  let s := match tempConfig s % 4 with
    | 1 =>
      if bit (ainStatus s ain (vget s.pio.ain ain Ain.reset)) 0 then
        (match fToScaledNear f64 (vget s.pio.ain ain Ain.reset).value.toNat 32 with
        | some t => takeTemp t s
        | none => s)
      else s
    | 2 => match i2c with
      | some v => takeTemp (v.toInt * 2 ^ 24) s
      | none => s
    | _ => s
  stripCheck 1 (stripCheck 0 s)

/-! ### Updates (R470 to R473) -/

/-- *EPD_DRAW reply* of an update that ran. -/
def drawBody (s : State) (u : EpdRun) (count : Nat) : Bytes :=
  le 1 0 ++ le 1 (2 * b2n u.invalid + b2n u.drift) ++ le 1 u.band ++ zeros 1 ++ le 2 count ++ zeros 2 ++
    le 6 u.start.sec ++ zeros 2 ++ le 4 u.start.ns ++ le 4 (monoUs s - u.startUs)

/-- The frame memory has been written: CRC_REF follows it. Its value depends on contents that the manual does not give
(log entry 30). -/
def crcTouch (s : State) : State :=
  let (v, s) := openVal 30 s
  updEpd (fun e => { e with crcRef := BitVec.ofNat 32 v }) s

/-- An automatic refresh is queued, or merges into the request that is queued for its region (R468). -/
def autoRefresh (r : EpdReq) (s : State) : State :=
  if s.epd.queue.any fun q => q.region == r.region then
    updEpd (fun e => { e with queue := e.queue.map fun q => if q.region = r.region then { q with waveform := 1, all := true } else q }) s
  else
    updEpd
      (fun e => { e with
        nextId := e.nextId + 1,
        queue := e.queue ++ [{ r with id := e.nextId, waveform := 1, all := true, auto := true }] }) s

/-- A running update completes with a number of changed lines (R468, R470, R472). -/
def epdComplete (u : EpdRun) (count : Nat) (s : State) : State :=
  let s := updEpd
    (fun e => { e with
      running := e.running.filter (fun x => x.req.id != u.req.id), endUs := monoUs s, updates := e.updates + 1,
      bandDrifts := if u.drift then e.bandDrifts + 1 else e.bandDrifts,
      recovery := e.recovery && u.req.region != 16 }) s
  let s := completeAll (fun w => w == .display u.req.id) stOK false (drawBody s u count) s
  if u.drift && !u.req.auto && u.req.region != 16 then autoRefresh u.req s else s

/-- The changed lines of an update become the current image, and the strips it drew are shown (R472). -/
def epdShow (u : EpdRun) (s : State) : State :=
  let r := u.req.region
  crcTouch
    (updEpd
      (fun e => { e with
        current := copyLines u.req.rect u.lines e.target e.current,
        shown := e.shown.mapFinIdx fun k b _ => if r = k ∨ r = 16 then vget u.strips k b else b }) s)

/-- A request may start now (R467, R470, R471, R473, R475). -/
def epdEligible (s : State) (r : EpdReq) : Bool :=
  !tempHold s && decide (s.epd.running.length < 4) &&
    !(s.epd.running.any fun u => u.req.region == r.region || overlaps u.req.rect r.rect) &&
    (r.region == 16 || !(s.epd.recovery || s.epd.queue.any fun q => q.region == 16))

/-- The lines that a starting request marks as changed. A strip that shows other values changes some of its lines, of a
number that the manual does not give (log entry 30). -/
def startLines (r : EpdReq) (s : State) : List Nat × State :=
  let every := (List.range r.rect.h).map (· + r.rect.y)
  if r.all then (every, s)
  else if r.region < 2 then
    (if vget s.epd.shown r.region [] == stripBytes s r.region then ([], s)
      else
        let (v, s) := openVal 31 s
        (every.take (1 + v % max 1 r.rect.h), s))
  else (changedLines r.rect s.epd.canvas s.epd.current, s)

/-- A request starts (R470): band latched, changed lines found and copied to the target image, supply asserted. -/
def epdStart (r : EpdReq) (s : State) : State :=
  let s := updEpd (fun e => { e with queue := e.queue.filter fun q => q.id != r.id }) s
  let inv := tempInvalid s
  let band := if inv then bits (tempConfig s) 10 8 else s.epd.band
  let (lines, s) := startLines r s
  let (n, s) := openVal 32 s
  let u : EpdRun :=
    { req := r, band := band, lines := lines, count := lines.length, left := 1 + n % 64, start := tickStamp s,
      startUs := monoUs s, invalid := inv, drift := false, strips := stripsNow s }
  if lines.isEmpty then epdComplete u 0 s
  else
    crcTouch
      (updEpd
        (fun e => { e with
          target := copyLines r.rect lines e.canvas e.target, running := e.running ++ [u],
          good := e.good && (e.power || !e.running.isEmpty), power := true }) s)

/-- UPDATE_START: the first request, in the order made, that may start does so (R471). -/
def updateStart (s : State) : State :=
  if !epdRuns s then s else
  match s.epd.queue.find? (epdEligible s) with
  | some r => epdStart r s
  | none => s

/-- DISPLAY_PHASE: the engine drives one phase of every running update and completes those whose last it was (R462,
R472). -/
def displayPhase (s : State) : State :=
  if !epdRuns s || !s.epd.power || !s.epd.good then s else
  let s := updEpd (fun e => { e with running := e.running.map fun u => { u with left := u.left - 1 } }) s
  (s.epd.running.filter fun u => u.left == 0).foldl (fun s u => epdComplete u u.count (epdShow u s)) s

/-- EPD_POWER_GOOD rises (R470). -/
def epdPowerGood (s : State) : State := if s.epd.power then updEpd (fun e => { e with good := true }) s else s

/-- EPD_POWER: the supply is not good within 50 ms; an update that has waited so long completes without a phase (R470). -/
def epdPowerFail (s : State) : State :=
  if !epdRuns s || !s.epd.power || s.epd.good then s else
  (s.epd.running.filter fun u => decide (u.startUs + 50000 ≤ monoUs s)).foldl
    (fun s u => epdComplete u 0 (post 0x0F01 0 [] 0 s)) s

/-- EPD_POWER_OFF: 100 ms after the last update has ended (R470). -/
def epdPowerOff (s : State) : State :=
  if s.epd.running.isEmpty && decide (s.epd.endUs + 100000 ≤ monoUs s) then
    updEpd (fun e => { e with power := false, good := false }) s
  else s

/-- HOLDUP entry or a reset: nothing more is driven, requests are discarded and host requests end without reply
(R473). -/
def epdStop (s : State) : State :=
  let tags := waiting (fun w => match w with
    | .display _ => true
    | _ => false) s
  let s := tags.foldl (fun s t => freeTag t s) s
  updEpd (fun e => { e with queue := [], running := [], power := false, good := false, recovery := false }) s

/-- The whole panel is put first in line for CLEAR (R473, R475). -/
def queueClear (s : State) : State :=
  let r : EpdReq := { id := s.epd.nextId, region := 16, rect := regionRect s 16, waveform := 0, all := true, auto := false }
  updEpd (fun e => { e with nextId := e.nextId + 1, queue := r :: e.queue }) s

/-- The end of BOOT: both strips composed, the host area white, CLEAR of the whole panel first (R473, R477). -/
def epdBoot (s : State) : State :=
  let s := updEpd (fun e => { Epd.reset with current := e.current, target := e.target, shown := e.shown }) s
  let s := updEpd (fun e => { e with asked := stripsNow s }) s
  if panelOn s then crcTouch (queueClear s) else s

/-- DISPLAY_SCAN: a scan of the frame memory completes; a mismatch starts recovery (R474, R475). -/
def displayScan (ok : Bool) (s : State) : State :=
  if !epdRuns s then s else
  let s := applyOne 0x0F13 s
  if ok || s.epd.recovery then s else
  let n := tableGet (fun _ => 0) s.intg.blockErrors 0x0F
  let s := { s with intg := { s.intg with blockErrors := tableSet (fun _ => 0) s.intg.blockErrors 0x0F ((n + 1) % 2 ^ 32) } }
  let s := post 0x0F02 0 [] 0 (updEpd (fun e => { e with crcErrors := e.crcErrors + 1, recovery := true }) s)
  queueClear s

/-! ### EPD_DRAW and parameters (R478, R479) -/

/-- The pixels of an EPD_DRAW, row by row. -/
def drawPixels (r : Rect) (px : Bytes) (img : List (Nat × Nat)) : List (Nat × Nat) :=
  (List.range (2 * px.length)).foldl
    (fun img k =>
      let b := (nth px (k / 2) 0).toNat
      putPixel img (pixelNo (r.x + k % r.w) (r.y + k / r.w)) (if k % 2 = 0 then b % 16 else b / 16))
    img

/-- EPD_DRAW (R478). -/
def effEpdDraw (q : Req) (s : State) : CmdRes :=
  let pl := q.payload
  let reg := fld pl 0 1
  let fl := fld pl 1 1
  let wf := bits fl 2 1
  let r : Rect := ⟨fld pl 4 2, fld pl 6 2, fld pl 8 2, fld pl 10 2⟩
  let px := pl.drop 16
  let upd := bit fl 0
  let area := r.w % 2 == 0 && r.w != 0 && r.h != 0 && decide (r.x + r.w ≤ panelWidth s) &&
    decide (panelHeight s / 8 * 2 ≤ r.y) && decide (r.y + r.h ≤ panelHeight s)
  checked
    [(panelOn s && decide (2 ≤ reg) && decide (reg ≤ 15), 0), (wf != 0 && decide (fl < 8), 1), (fld pl 2 2 == 0, 2),
      (area, 4), (fld pl 12 4 == 0, 12), (px.length == r.w * r.h / 2 || (upd && px.isEmpty), 16)]
    (let s := updEpd (fun e => { e with canvas := drawPixels r px e.canvas }) s
    if !upd then .ok [] s
    else
      let id := s.epd.nextId
      let s := updEpd (fun e => { e with nextId := id + 1, rects := vset e.rects reg r }) s
      .wait (.display id)
        (epdRequest { id := id, region := reg, rect := r, waveform := wf, all := false, auto := false } s))

/-- EPD_STATUS (R479). A scan is one step here, so SCANNING reads 0. -/
def epdStatus (s : State) : Nat :=
  let e := s.epd
  bitsOf 16 (fun r => e.running.any fun u => u.req.region == r) * 65536 + e.band * 256 + 16 * b2n e.recovery +
    4 * b2n (tempInvalid s) + 2 * b2n (tempHold s) + b2n e.power

/-- PANEL_TEMP: the latest valid sample in 0.01 °C. -/
def panelTemp (s : State) : Int := roundDiv (s.epd.temp.getD 0 * 100) (2 ^ 32)

end Sys2Proof.Machine
end

