-- ==== Sys2Proof/Machine/Sec.lean ====
section
/-! DEFINITION. The Cloister: derived, imported and generated keys, attestation, lifecycle transitions, firmware images and their
verification, staging and switching; and the tamper unit (R493 to R527). -/

namespace Sys2Proof.Machine

/-- SEC changed. -/
def updSec (f : Sec → Sec) (s : State) : State := { s with sec := f s.sec }

/-! ### Attributes and records (R494, R499, R506) -/

/-- *Key attributes*: USAGE, CLASS, LIFECYCLE, VOLATILE, IMPORTED, DERIVED, GENERATED_INSIDE; NON_EXPORTABLE is always 1. -/
def keyAttrs (usage cls lc : Nat) (vol imp der gen : Bool) : Nat :=
  usage * 4096 + cls * 256 + lc * 32 + 16 * b2n vol + 8 * b2n imp + 4 * b2n der + 2 + b2n gen

/-- The AAD of a record: its slot number and attributes. -/
def recAad (slot attrs : Nat) : Bytes := le 1 slot ++ le 4 attrs

/-- A record put in its place. -/
def putRec (r : KeyRec) : List KeyRec → List KeyRec
  | [] => [r]
  | x :: t => if r.slot < x.slot then r :: x :: t else if r.slot = x.slot then r :: t else x :: putRec r t

/-- A key stored as a record wrapped under a storage key, with a fresh nonce. -/
def wrapRec (storage : Bytes) (slot attrs : Nat) (key : Bytes) (s : State) : State :=
  let (nonce, s) := trngBytes 12 s
  let c := gcmSeal storage nonce (recAad slot attrs) key
  updSec (fun x => { x with records := putRec ⟨slot, attrs, nonce, c.1, c.2⟩ x.records }) s

/-- The key of a record under a storage key. -/
def unwrapRec (storage : Bytes) (r : KeyRec) : Option Bytes := gcmOpen storage r.nonce (recAad r.slot r.attrs) r.wrapped r.tag

/-- The PUF key of this device: a physical value (R497; FREE VALUE of kind 48, log entry 13). -/
def pufKey : Bytes := le 32 (Config.openValue 48 0)

/-- AAD of the wrapped root secret (R498). -/
def rootAad (s : State) : Bytes := s.sec.deviceId ++ ascii "AKN ROOT"

/-- The root secret unwrapped. -/
def rootSecret (s : State) : Option Bytes := s.sec.root.bind fun r => gcmOpen pufKey r.1 (rootAad s) r.2.1 r.2.2

/-- PRK of R499. -/
def prkOf (s : State) : Option Bytes := (rootSecret s).map fun r => hkdfExtract s.sec.deviceId r

/-- A scalar derived from a PRK (R499). -/
def deriveScalar (prk label : Bytes) : Nat := ofBE (hkdfExpand prk label 72) % (p384n - 1) + 1

/-- The storage key of a lifecycle code. -/
def storageKey (prk : Bytes) (lc : Nat) : Bytes := hkdfExpand prk (ascii "AKN STORE" ++ le 1 lc) 32

/-- An operation that needs random bits cannot run (R498). -/
def noRandom (s : State) : Bool := s.sec.trngStopped

/-- INTERNAL, as an operation that needs random bits answers while the TRNG is stopped. -/
def needRandom (s : State) (k : CmdRes) : CmdRes := if noRandom s then .done stInternal false [] s else k

/-! ### Sessions and zeroisation (R98, R523) -/

/-- The first of the two key slots of a transport's session (R495). -/
def sessionSlot : Transport → Nat
  | .xspi => 6
  | .udp => 8
  | .uart => 10

/-- The session of a transport ends and its keys are erased. -/
def endSession (t : Transport) (s : State) : State :=
  let s := setLink t { linkOf s t with session := none } s
  eraseKey (sessionSlot t + 1) (eraseKey (sessionSlot t) s)

/-- Every session ends. -/
def endSessions (s : State) : State := endSession .uart (endSession .udp (endSession .xspi s))

/-- Every slot and buffer zeroised (R523). Every session ends with its keys, also where no LOCKDOWN follows (log entry 127, DESIGN
CHOICE: R98 does not list it). -/
def zeroise (s : State) : State := updSec (fun x => { x with slots := [], keysLoaded := false }) (endSessions s)

/-! ### BOOT (R497 to R499, R511, R516) -/

/-- The key of a record loaded into its slot. -/
def loadRec (storage : Bytes) (s : State) (r : KeyRec) : State :=
  match unwrapRec storage r with
  | some k => putKey r.slot r.attrs k s
  | none => s

/-- The keys derived and loaded at BOOT (R495, R499). -/
def loadKeys (prk : Bytes) (s : State) : State :=
  let lc := s.sec.lifecycle.code
  let st := storageKey prk lc
  let s := putKey 0 (keyAttrs 1 1 1 false false true true) (be 48 (deriveScalar prk (ascii "AKN ID"))) s
  let s := putKey 1 (keyAttrs 4 2 lc false false true true) st s
  let s := putKey 2 (keyAttrs 2 2 lc false false true true) (be 48 (deriveScalar prk (ascii "AKN IMPORT" ++ le 1 lc))) s
  updSec (fun x => { x with keysLoaded := true }) (s.sec.records.foldl (loadRec st) s)

/-- The root secret drawn and wrapped at the first BOOT in ENROLLED (R498). -/
def createRoot (s : State) : State :=
  let (root, s) := trngBytes 48 s
  let (nonce, s) := trngBytes 12 s
  let c := gcmSeal pufKey nonce (rootAad s) root
  updSec (fun x => { x with root := some (nonce, c.1, c.2), helper := true, bootCount := x.bootCount + 1 }) s

/-- BOOT_COUNT counts a BOOT of a device that has its root secret, however that BOOT ends (R526). -/
def countBoot (s : State) : State :=
  if s.sec.root.isSome then updSec (fun x => { x with bootCount := x.bootCount + 1 }) s else s

/-- The Concourse wrap key drawn at BOOT (R224). -/
def drawWrapKey (s : State) : State :=
  let (k, s) := trngBytes 32 { s with subl := { s.subl with wraps := 0 } }
  putKey 3 (keyAttrs 4 0 s.sec.lifecycle.code true false false true) k s

/-- Key classes destroyed by the transition out of a lifecycle code, as a bitmap (R510; log entry 51). -/
def destroyedClasses : Nat → Nat
  | 0 => 0x65
  | 1 => 0x01
  | 2 => 0x39
  | _ => 0x79

/-- Class of a host key: 6 authority, 5 else (R510). -/
def hostKeyClass (k : HostKey) : Nat := if k.role = 3 then 6 else 5

/-- Steps 4 of R509 but for the event: slots zeroised, destroyed classes overwritten, kept records rewrapped under the storage key
of the new state, the metrology section emptied where the table says so. -/
def destroyClasses (old : Nat) (s : State) : State :=
  let gone := destroyedClasses old
  let cls (a : Nat) : Nat := a / 256 % 16
  let prk := prkOf s
  let kept := (s.sec.records.filter fun r => !bit gone (cls r.attrs)).filterMap fun r =>
    prk.bind fun p => (unwrapRec (storageKey p old) r).map fun k => (r.slot, r.attrs, k)
  let s := zeroise s
  let s := updSec (fun x => { x with
    records := [], hostKeys := x.hostKeys.map fun h => h.bind fun k => if bit gone (hostKeyClass k) then none else some k }) s
  let s := match prk with
    | some p => kept.foldl (fun s k => wrapRec (storageKey p (old + 1)) k.1 k.2.1 k.2.2 s) s
    | none => s
  if old ≤ 1 then { s with evr := { s.evr with metro := [] } } else s

/-- Step 4 of R509 with its event LIFECYCLE_ADVANCE. -/
def transitionKeys (old : Nat) (keyId : Nat) (s : State) : State :=
  post 0x1101 0 (le 1 old ++ le 1 (old + 1) ++ le 2 (destroyedClasses old)) keyId (destroyClasses old s)

/-- An interrupted transition at BOOT (R511). -/
def bootTransition (s : State) : State :=
  match s.sec.transition with
  | some (old, new) =>
    let s := updSec (fun x => { x with transition := none }) s
    if s.sec.lifecycle.code = new then transitionKeys old 0 s else s
  | none => s

/-- The key side of BOOT after the latch check found it clear (R224, R498, R499, R516). `reads`: PUF reads made. -/
def bootKeys (reads : Nat) (s : State) : State :=
  let s := bootTransition (updSec (fun x => { x with pufReads := reads }) s)
  let s := drawWrapKey s
  if s.sec.lifecycle = .blank then s else
  let s := if s.sec.root.isNone then createRoot s else s
  match prkOf s with
  | some p => fillKeys (loadKeys p s)
  | none => s

/-! ### Firmware images (R512 to R516) -/

/-- Slot size of a class (*Flash map*). -/
def imageSlotSize : Nat → Nat
  | 1 => 0x1000000
  | 2 => 0x200000
  | 6 => 0x400000
  | _ => 0x100000

/-- The image digest of R513. -/
def imageDigest (im : Image) : Bytes := sha384 (im.header.take 80)

/-- The public key that an installed host key has in a role. -/
def authorityKey (s : State) (n : Nat) : Option Bytes :=
  (s.sec.hostKeys.toList.filterMap id).findSome? fun k => if k.keyId = n ∧ k.role = 3 then some k.pub else none

/-- The image bears a valid co-signature by an installed metrology authority key. -/
def coSigned (s : State) (im : Image) : Bool :=
  let h := im.header
  bit (fld h 5 1) 0 &&
    ((authorityKey s (fld h 18 2)).any fun k => ecdsaVerify k (sha384 (h.take 176)) (slice h 176 96))

/-- The verification code of an image in a class (R514). `readable`: no uncorrectable flash read; `classOk`: the class check. -/
def imageCode (s : State) (cls : Nat) (im : Image) (readable classOk : Bool) : Nat :=
  let h := im.header
  let n := fld h 12 4
  let signer := fld h 16 2
  let cosigned := bit (fld h 5 1) 0
  let needCo := cls == 3 && (decide (2 ≤ s.sec.lifecycle.code) || cosigned)
  if !(h.length == 512 && fld h 0 4 == 0x4D494B41 && fld h 4 1 == cls && fld h 5 1 / 2 == 0 && decide (fld h 6 2 ≤ 256) &&
      n == im.body.length && decide (512 + n ≤ imageSlotSize cls) && (cls != 3 || decide (n ≤ 163840)) &&
      allZero (slice h 20 12) && allZero (slice h 272 240) && (cosigned || (fld h 18 2 == 0 && allZero (slice h 176 96)))) then 1
  else if !readable then 2
  else if sha384 im.body != slice h 32 48 then 3
  else if !(decide (0xFF01 ≤ signer) && decide (signer ≤ 0xFF04) &&
      ecdsaVerify (vget s.sec.fwKeys (signer - 0xFF01) []) (sha384 (h.take 80)) (slice h 80 96)) then 4
  else if needCo && !coSigned s im then 5
  else if fld h 6 2 < (imageOf s cls).counter then 6
  else if !classOk then 7
  else 0

/-- The slot of a class: false A, true B. -/
def imageSlot (x : ImageClass) (b : Bool) : ImageSlot := if b then x.slotB else x.slotA

/-- A slot replaced. -/
def setImageSlot (b : Bool) (v : ImageSlot) (x : ImageClass) : ImageClass := if b then { x with slotB := v } else { x with slotA := v }

/-- A class of firmware changed. -/
def updClass (cls : Nat) (f : ImageClass → ImageClass) (s : State) : State :=
  updSec (fun x => { x with images := vset x.images (cls - 1) (f (imageOf s cls)) }) s

/-- VERSION, ROLLBACK, COSIGNER and digest of what a slot holds; those of production are 0 (log entry 2). -/
def slotVersion : ImageSlot → W32
  | .held im => BitVec.ofNat 32 (fld im.header 8 4)
  | _ => 0
def slotRollback : ImageSlot → Nat
  | .held im => fld im.header 6 2
  | _ => 0
def slotCosigner : ImageSlot → Nat
  | .held im => fld im.header 18 2
  | _ => 0
def slotDigest : ImageSlot → Bytes
  | .held im => imageDigest im
  | _ => zeros 48

/-- A slot that can run. -/
def slotGood (s : State) (cls : Nat) (v : ImageSlot) (readable : Bool) : Bool :=
  match v with
  | .erased => false
  | .factory => readable && (imageOf s cls).counter == 0
  | .held im => imageCode s cls im readable true == 0

/-- A class runs the image of a slot. -/
def runSlot (b : Bool) (x : ImageClass) : ImageClass :=
  let v := imageSlot x b
  { x with running := b, version := slotVersion v, rollback := slotRollback v, cosigner := slotCosigner v, digest := slotDigest v }

/-- The event IMAGE_ACTIVATED (R518). -/
def imageEvent (cls outcome : Nat) (old new : W32) (v : ImageSlot) (keyId : Nat) (s : State) : State :=
  post 0x1103 0 (le 1 cls ++ le 1 outcome ++ le 4 old.toNat ++ le 4 new.toNat ++ le 2 (slotRollback v) ++ (slotDigest v).take 16) keyId s

/-- Whether the slot of a class can be read at this BOOT: bit 2·(class − 1), plus 1 for slot B, marks one that cannot. -/
def slotReadable (bad cls : Nat) (b : Bool) : Bool := !bit bad (2 * (cls - 1) + b2n b)

/-- The images of every class selected at BOOT: the class's selected slot, or the other one with OUTCOME 4 (R516). A stage lost its
place at the reset (R517). The flag tells that some class has no image that can run. -/
def bootImages (bad : Nat) (s : State) : State × Bool :=
  [7, 1, 2, 3, 4, 5, 6].foldl
    (fun (s, failed) cls =>
      let x := imageOf s cls
      let clear (x : ImageClass) : ImageClass := { x with stage := 0, verify := 0, length := 0, received := [] }
      if slotGood s cls (imageSlot x x.selector) (slotReadable bad cls x.selector) then
        (updClass cls (fun y => runSlot y.selector (clear y)) s, failed)
      else if slotGood s cls (imageSlot x (!x.selector)) (slotReadable bad cls (!x.selector)) then
        let v := imageSlot x (!x.selector)
        (imageEvent cls 4 (slotVersion (imageSlot x x.selector)) (slotVersion v) v 0
          (updClass cls (fun y => runSlot (!y.selector) (clear y)) s), failed)
      else (s, true))
    (s, false)

/-! ### Staging and activation (R517 to R519, R577) -/

/-- The body of SEC_IMAGE_STAGE (R577): *NMOD_MODEL_LOAD reply* of the class's stage. -/
def imageStageBody (x : ImageClass) : Bytes :=
  le 4 x.received.length ++ le 1 x.stage ++ le 1 x.verify ++ zeros 10 ++
    (if x.stage = 3 then slotDigest (imageSlot x (!x.running)) else zeros 48)

/-- SEC_IMAGE_STAGE (R517). -/
def effImageStage (p : Bytes) (s : State) : CmdRes :=
  let cls := fld p 0 1
  let x := imageOf s cls
  let off := fld p 4 4
  let len := fld p 8 4
  let data := p.drop 12
  let first := off == 0
  let known := decide (1 ≤ cls) && decide (cls ≤ 7)
  if known && (x.stage = 2 || x.stage = 5) then .reject stBusy [] else
  checked
    [(known, 0), (allZero (slice p 1 3), 1), (first || (x.stage == 1 && off == x.received.length), 4),
      (decide (512 ≤ len) && decide (len ≤ imageSlotSize cls) && (first || len == x.length), 8),
      (decide (off + data.length ≤ len), 12)]
    (let got := if first then data else x.received ++ data
     let y : ImageClass := setImageSlot (!x.running) .erased
       { x with stage := if got.length = len then 2 else 1, verify := 0, length := len, received := got }
     let s' := updClass cls (fun _ => y) s
     if y.stage = 2 then .wait (.imageVerify cls) s' else .ok (imageStageBody y) s')

/-- IMAGE_VERIFICATION_COMPLETE (R514, R517). -/
def imageVerified (cls : Nat) (readable classOk : Bool) (s : State) : State :=
  let x := imageOf s cls
  if x.stage != 2 then s else
  let im : Image := ⟨x.received.take 512, x.received.drop 512⟩
  let code := imageCode s cls im readable classOk
  let y : ImageClass := setImageSlot (!x.running) (.held im) { x with stage := if code = 0 then 3 else 4, verify := code }
  completeAll (· == .imageVerify cls) stOK false (imageStageBody y) (updClass cls (fun _ => y) s)

/-- SEC_IMAGE_ACTIVATE (R518). A switch of the control runtime takes its T as an online change does. -/
def effImageActivate (p : Bytes) (s : State) : CmdRes :=
  let cls := fld p 0 1
  let x := imageOf s cls
  if decide (1 ≤ cls) && decide (cls ≤ 7) && x.stage = 5 then .reject stBusy [] else
  checked
    [(decide (1 ≤ cls) && decide (cls ≤ 7), 0), (allZero (slice p 1 3), 1),
      (x.stage == 3 && slotDigest (imageSlot x (!x.running)) == slice p 4 48, 4)]
    (let s := updClass cls (fun x => { x with stage := 5, pendUs := monoUs s }) s
     .wait (.imageSwitch cls)
       (if cls = 2 then updCtrl (fun c => { c with swap := some ⟨monoUs s + 250000, getP s 0x061B, false, []⟩ }) s else s))

/-- The body with which an activation completes (R518). -/
def activationBody (cls outcome : Nat) (old new : ImageSlot) : Bytes :=
  le 1 cls ++ le 1 outcome ++ zeros 2 ++ le 4 (slotVersion old).toNat ++ le 4 (slotVersion new).toNat ++ slotDigest new

/-- The key that authorised the activation of a class, with the counter of its signature. -/
def activationKey (cls : Nat) (s : State) : Nat × Nat :=
  ((executing s).find? fun x => x.2.wait == .imageSwitch cls).elim (0, 0) fun x => (x.2.auth.keyId, x.2.auth.counter)

/-- An activation ends with an outcome (R518, R519). A slot whose activation was not made keeps STAGE 3. -/
def endActivation (cls outcome : Nat) (s : State) : State :=
  let x := imageOf s cls
  let old := imageSlot x x.running
  let new := imageSlot x (!x.running)
  let key := (activationKey cls s).1
  let s := updClass cls (fun y =>
    match outcome with
    | 0 =>
      let z := { runSlot (!y.running) y with selector := !y.running, counter := max y.counter (slotRollback new) }
      let back := decide (slotRollback old < z.counter)
      { z with stage := if back then 4 else 3, verify := if back then 6 else 0, length := 0, received := [] }
    | 1 => { y with stage := 4, verify := 7 }
    | _ => { y with stage := 3 }) s
  let s := imageEvent cls outcome (slotVersion old) (slotVersion new) new key s
  completeAll (· == .imageSwitch cls) stOK false (activationBody cls outcome old new) s

/-- The switch point of a class has come (*Switch points*). -/
def atSwitchPoint (cls : Nat) (s : State) : Bool :=
  match cls with
  | 1 => s.nmod.est.isNone && (executing s).all fun x => x.2.wait == .imageSwitch 1
  | 2 => s.ctrl.swap.any (·.draining) && (engOf s 0).runs.isEmpty && (engOf s 1).runs.isEmpty && s.ctrl.change.all fun c => c.phase != .exchanged
  | 3 => meterSec s % 60 == 0 && decide (ptpNs s < 1000) && meteringMode s
  | 4 => s.subl.cut.complete && decide ((imageOf s 4).pendUs ≤ s.subl.sealedUs ∧ s.subl.sealedUs < monoUs s)
  | 5 => (List.range 8).all fun a => (axisOf s a).state == .standstill || !axisEnabled s a
  | 6 => s.epd.running.isEmpty
  | _ => true

/-- A metrology image switches: the intervals that open at this boundary carry PARAM_CHANGED, the change counter counts, the metrology
strip is requested; the entry names the image's COSIGNER and the signature counter 0 (R369, R370, R477, R601). -/
def metroSwitch (old new : W32) (cosigner : Nat) (s : State) : State :=
  let m := ptpSec s
  let fl (start flags : Nat) : Nat := if start = m then Nat.lor flags 4 else flags
  let s := { s with
    mth := { s.mth with chans := s.mth.chans.map fun c => { c with opens := c.opens.map fun o => { o with flags := fl o.start o.flags } } },
    mel := { s.mel with
      systems := s.mel.systems.map fun c => { c with opens := c.opens.map fun o => { o with flags := fl o.start o.flags } } } }
  let s := bumpCounter s
  post 0x0901 0 (le 4 s.bill.changeCounter.toNat ++ le 2 0xFFFF ++ le 8 old.toNat ++ le 8 new.toNat ++ le 4 0) cosigner
    (requestStrip 1 2 s)

/-- What a made switch does beside the class's own slot (*Switch points*). `restartUs`: how long the supervisor cores restart. -/
def switchEffects (cls restartUs : Nat) (s : State) : State :=
  match cls with
  | 1 => cancelOpt { s with sys := { s.sys with coresUntil := monoUs s + restartUs } }
  | 2 =>
    (match s.ctrl.swap with
    | some x => latchHeld x.held (updCtrl (fun c => { c with swap := none }) s)
    | none => s)
  | 6 => crcTouch s
  | _ => s

/-- IMAGE_SWITCH: at its switch point a pending image switches, runs its self-test and is kept or reverted (R518, R519). An axis that
never comes to standstill ends the wait of 60 s. -/
def imageSwitch (cls restartUs : Nat) (selfTest : Bool) (s : State) : State :=
  let x := imageOf s cls
  if x.stage != 5 then s
  else if !atSwitchPoint cls s then
    (if cls == 5 && decide (x.pendUs + 60000000 ≤ monoUs s) then endActivation 5 2 s else s)
  else
    let s := if cls = 3 then intervalBoundary s else s
    let old := slotVersion (imageSlot x x.running)
    let new := slotVersion (imageSlot x (!x.running))
    let cosigner := slotCosigner (imageSlot x (!x.running))
    let s := if cls = 3 ∧ selfTest then metroSwitch old new cosigner s else s
    let s := endActivation cls (if selfTest then 0 else 1) s
    switchEffects cls restartUs s

/-- The drain of a switch of the control runtime exceeds CHANGE_DRAIN_MAX (R301, R518). -/
def swapTimeout (s : State) : State :=
  match s.ctrl.swap with
  | some x =>
    if x.draining && decide (x.atMono + x.drainMax ≤ monoUs s) && !((engOf s 0).runs.isEmpty && (engOf s 1).runs.isEmpty) then
      latchHeld x.held (endActivation 2 2 (updCtrl (fun c => { c with swap := none }) s))
    else s
  | none => s

/-- Pending activations end with OUTCOME 3: the mode is left, or a tamper comes (R518, R525). -/
def dropActivations (s : State) : State :=
  let s := [1, 2, 3, 4, 5, 6, 7].foldl (fun s c => if (imageOf s c).stage = 5 then endActivation c 3 s else s) s
  match s.ctrl.swap with
  | some x => latchHeld x.held (updCtrl (fun c => { c with swap := none }) s)
  | none => s

/-! ### Host keys and imported keys (R500 to R504) -/

/-- Installed keys of a role. -/
def keysOfRole (s : State) (role : Nat) : List HostKey := (s.sec.hostKeys.toList.filterMap id).filter fun k => k.role == role

/-- An installed host key. -/
def hostKey (s : State) (id_ : Nat) : Option HostKey := (s.sec.hostKeys.toList.filterMap id).find? fun k => k.keyId == id_

/-- A removal that R502 bars. -/
def removalBarred (s : State) (k : HostKey) : Bool :=
  (k.role == 2 && (keysOfRole s 2).length == 1) || (imageOf s 3).cosigner == k.keyId ||
    (k.role == 3 && (keysOfRole s 3).length == 1 && (s.sec.lifecycle == .sealed || s.sec.lifecycle == .returned))

/-- SEC_KEY_INSTALL (R501, R502). -/
def effKeyInstall (p : Bytes) (s : State) : CmdRes :=
  let id_ := fld p 0 2
  let role := fld p 2 1
  let pub := slice p 4 97
  let free := s.sec.hostKeys.toList.findIdx? (·.isNone)
  let idOk :=
    if role = 0 then (hostKey s id_).any fun k => !removalBarred s k
    else decide (1 ≤ id_) && decide (id_ ≤ 0xFEFF) && (hostKey s id_).isNone && free.isSome
  checked
    [(idOk, 0), (decide (role ≤ 3), 2), (fld p 3 1 == 0, 3), (if role = 0 then allZero pub else (pointOf pub).isSome, 4),
      (allZero (slice p 101 3), 101)]
    (.ok [] (updSec (fun x => { x with
      hostKeys :=
        if role = 0 then x.hostKeys.map fun h => h.bind fun k => if k.keyId = id_ then none else some k
        else vset x.hostKeys (free.getD 0) (some ⟨id_, role, pub⟩) }) s))

/-- The 48-byte key that an import carries, if its tag holds (R503). -/
def importedKey (s : State) (p : Bytes) : Option Bytes :=
  match slotKey s 2 with
  | none => none
  | some d =>
    (ecdh (ofBE d) (slice p 4 97)).bind fun z =>
      let kek := hkdfExpand (hkdfExtract s.sec.deviceId z) (ascii "AKN IMPORT" ++ le 1 (fld p 0 1)) 32
      gcmOpen kek (slice p 104 12) (p.take 4) (slice p 116 48) (slice p 164 16)

/-- SEC_KEY_IMPORT (R503). The pair key takes effect at the next boot. -/
def effKeyImport (p : Bytes) (s : State) : CmdRes :=
  let t := fld p 0 1
  checked
    [((t == 2) || (t == 1 && s.subl.entries.isEmpty), 0), (allZero (slice p 1 3), 1), ((pointOf (slice p 4 97)).isSome, 4),
      (allZero (slice p 101 3), 101), ((importedKey s p).isSome, 164)]
    (needRandom s
      (match importedKey s p, slotKey s 1 with
      | some k, some st =>
        let a := keyAttrs (if t = 1 then 5 else 3) 3 s.sec.lifecycle.code false true false false
        let slot := if t = 1 then 5 else 4
        let s := wrapRec st slot a k s
        .ok [] (if t = 1 then putKey 5 a k s else s)
      | _, _ => .done stInternal false [] s))

/-- SEC_KEY_GENERATE (R504). -/
def effKeyGenerate (p : Bytes) (s : State) : CmdRes :=
  let n := fld p 0 1
  checked [(decide (32 ≤ n) && decide (n ≤ 63) && (slotKey s n).isNone, 0), (allZero (slice p 1 3), 1)]
    (needRandom s
      (match slotKey s 1 with
      | none => .done stInternal false [] s
      | some st =>
        let (r, s) := trngBytes 72 s
        let d := ofBE r % (p384n - 1) + 1
        let a := keyAttrs 1 4 s.sec.lifecycle.code false false false true
        .ok (le 4 a ++ publicOf d ++ zeros 3) (putKey n a (be 48 d) (wrapRec st n a (be 48 d) s))))

/-- An ECDSA signature with the key of a slot, its nonce drawn from the TRNG. -/
def signWith (d digest : Bytes) (s : State) : Bytes × State :=
  let (k, s) := trngBytes 72 s
  (ecdsaSign (ofBE d) (ofBE k % (p384n - 1) + 1) digest, s)

/-- SEC_KEY_SIGN (R504). -/
def effKeySign (p : Bytes) (s : State) : CmdRes :=
  let n := fld p 0 1
  match slotKey s n with
  | none => .badParam 0
  | some d =>
    checked [(decide (32 ≤ n) && decide (n ≤ 63), 0), (allZero (slice p 1 3), 1)]
      (needRandom s (let r := signWith d (slice p 4 48) s; .ok r.1 r.2))

/-- SEC_KEY_DELETE (R504). -/
def effKeyDelete (p : Bytes) (s : State) : CmdRes :=
  let n := fld p 0 1
  checked [(decide (32 ≤ n) && decide (n ≤ 63) && (slotKey s n).isSome, 0), (allZero (slice p 1 3), 1)]
    (.ok [] (eraseKey n (updSec (fun x => { x with records := x.records.filter fun r => r.slot != n }) s)))

/-! ### Attestation (R505, R507) -/

/-- Where a byte string first occurs in another. -/
def findBytes (pat : Bytes) : Bytes → Nat → Option Nat
  | [], _ => none
  | b :: t, i => if (b :: t).take pat.length = pat then some i else findBytes pat t (i + 1)

/-- The public key of the first certificate of a chain: the point that follows the P-384 parameters of its
SubjectPublicKeyInfo in DER. -/
def certPublic (c : Bytes) : Option Bytes :=
  (findBytes [0x06, 0x05, 0x2B, 0x81, 0x04, 0x00, 0x22, 0x03, 0x62, 0x00] c 0).map fun i => slice c (i + 10) 97

/-- The key that a SELECT names, with its attributes: private scalar and attributes of the slot. -/
def selected (s : State) (sel : Nat) : Option (Bytes × Nat) :=
  let slot := if sel = 1 then 0 else sel
  if sel = 0 then none else
  match slotKey s slot, s.sec.slots.find? fun x => x.1 == slot with
  | some d, some x => some (d, x.2.attrs)
  | _, _ => none

/-- The attestation report without its signature, 576 bytes. -/
def attestBytes (s : State) (sel : Nat) (nonce : Bytes) : Bytes :=
  let signed := (slotKey s 0).isSome
  let k := selected s sel
  let pub :=
    match k with
    | some (d, _) => publicOf (ofBE d)
    | none => if sel = 1 then ((s.sec.cert.bind certPublic).getD []) else []
  le 2 1 ++ le 1 (4 * b2n (s.sys.mode == .lockdown) + 2 * b2n s.tamp.set_ + b2n signed) ++ le 1 s.sec.lifecycle.code ++
    le 1 s.sys.mode.code ++ le 1 sel ++ zeros 2 ++ fit 16 s.sec.deviceId ++ fit 32 nonce ++ le 6 (ptpSec s) ++ zeros 2 ++
    le 4 (ptpNs s) ++ le 4 s.sec.bootCount.toNat ++ le 4 s.bill.changeCounter.toNat ++ le 4 (k.elim 0 (·.2)) ++
    fit 97 pub ++ zeros 3 ++
    ([1, 2, 3, 4, 5, 6, 7].flatMap fun c =>
      let x := imageOf s c
      le 4 x.version.toNat ++ le 2 x.rollback ++ le 1 (b2n x.running) ++ zeros 1 ++ fit 48 x.digest) ++
    le 4 s.tamp.sources

/-- SEC_ATTEST (R505). -/
def effAttest (p : Bytes) (s : State) : CmdRes :=
  let sel := fld p 0 1
  let gen := decide (32 ≤ sel) && decide (sel ≤ 63)
  let ok := decide (sel ≤ 2) || sel == 0xFE || (gen && ((selected s sel).isSome || s.sys.mode == .lockdown))
  checked [(ok, 0), (allZero (slice p 1 3), 1)]
    (if sel = 0xFE then .ok (s.sec.cert.getD []) s
     else
      let b := attestBytes s sel (slice p 4 32)
      match slotKey s 0 with
      | some d => needRandom s (let r := signWith d (sha384 b) s; .ok (b ++ r.1) r.2)
      | none => .ok (b ++ zeros 96) s)

/-- SEC_IDENTITY_CERT (R507). -/
def effIdentityCert (p : Bytes) (s : State) : CmdRes :=
  match slotKey s 0 with
  | none => .badParam 0
  | some d =>
    checked [(certPublic p == some (publicOf (ofBE d)), 0)] (.ok [] (updSec (fun x => { x with cert := some p }) s))

/-! ### Lifecycle (R508, R509) -/

/-- The lifecycle of a code. -/
def Lifecycle.ofCode : Nat → Lifecycle
  | 0 => .blank
  | 1 => .enrolled
  | 2 => .sealed
  | 3 => .returned
  | _ => .retired

/-- The running metrology image carries a valid co-signature (R508). -/
def metroCosigned (s : State) : Bool :=
  match imageSlot (imageOf s 3) (imageOf s 3).running with
  | .held im => coSigned s im
  | _ => false

/-- SEC_LIFECYCLE_ADVANCE (R55, R508, R509): the fuse, the reply, then the keys, the save and the pending reset. -/
def effLifecycle (p : Bytes) (keyId : Nat) (s : State) : CmdRes :=
  let old := s.sec.lifecycle.code
  let t := fld p 0 1
  checked
    [(t == old + 1 && decide (t ≤ 4) && (old != 1 || (s.sec.cert.isSome && metroCosigned s)), 0), (allZero (slice p 1 3), 1)]
    (.doneThen []
      { updSec (fun x => { x with lifecycle := Lifecycle.ofCode t }) s with sys := { s.sys with modeChanges := 0 } }
      fun s =>
        let s := orderlyStop (transitionKeys old keyId s)
        { s with sys := { s.sys with resetPending := some 4 } })

/-! ### Tamper (R520 to R525) -/

/-- A source is armed. -/
def tampArmed (s : State) (k : Nat) : Bool := bit (getP s 0x1210) k

/-- The situation code of a detection (*Tamper response*). Commands are whole steps, so no key operation is in progress (log
entry 52). -/
def tampSituation (s : State) : Nat :=
  match s.sys.mode with
  | .backup => 0
  | .boot => if s.pair.listening.isSome then 3 else 1
  | .lockdown => 4
  | .holdup | .fault => 5
  | _ => 3

/-- The TAMPER event (R522). -/
def tamperEvent (src sit count first keyId : Nat) (s : State) : State :=
  post 0x1102 0 (le 1 src ++ le 1 sit ++ le 4 count ++ le 6 first) keyId s

/-- TAMPER: an armed source is detected (R522, R523). -/
def tamper (k : Nat) (s : State) : State :=
  if !tampArmed s k || (k == 4 && s.sys.mode == .backup) then s else
  let sit := tampSituation s
  let t := s.tamp
  let now := if s.sys.mode == .backup then ptpOfCal s / 1000000000 else ptpSec s
  let count := if t.count = 0xFFFFFFFF then t.count else t.count + 1
  let first := if t.set_ then t.first else now
  let srcs := Nat.lor t.sources (2 ^ k)
  let t := { t with
    set_ := true, sources := srcs, situation := if t.set_ then t.situation else sit, count := count, first := first }
  let s := { s with tamp := t }
  let s := if meteringMode s then markTamper s else s
  if sit = 0 then { s with tamp := { t with unrecorded := t.unrecorded ++ [(srcs, 0, count.toNat, first)] } }
  else
    let s := snapSource 9 (tamperEvent srcs sit count.toNat first 0 s)
    match sit with
    | 1 => s
    | 4 => s
    | 5 => zeroise s
    | _ => trigger .lockdown 5 (zeroise (dropActivations s))

/-- Whether a sign is a detection under the present arming, and of which source (*Tamper sources*, R520); VDD_SOC is not monitored while
PWR_SOC_EN is low (R545). -/
def tamperSource (x : TamperSign) (s : State) : Option Nat :=
  let arm := getP s 0x1210
  let backup := s.sys.mode == .backup
  match x with
  | .lid level held => if level != bit arm 9 && decide (10000 ≤ held) then some 2 else none
  | .light level held => if level == bit arm 8 && decide (1000 ≤ held) then some 3 else none
  | .voltage soc mv ns => if !backup && (!soc || socEn s) && decide ((mv < 680 ∨ 920 < mv) ∧ 5 ≤ ns ∧ ns ≤ 2000) then some 4 else none
  | .clock permille us => if !backup && decide (50 < permille ∧ 10 ≤ us) then some 5 else none
  | .crystal us => if backup && decide (100000 ≤ us) then some 5 else none
  | .temperature t => if t < -550 ∨ 1350 < t then some 6 else none

/-- TAMPER: a sensor shows a sign, which is a detection if *Tamper sources* says so. -/
def tamperSign (x : TamperSign) (s : State) : State := (tamperSource x s).elim s fun k => tamper k s

/-- Detections in BACKUP recorded at BOOT (R522). -/
def recordBackupTamper (s : State) : State :=
  s.tamp.unrecorded.foldl (fun s d => tamperEvent d.1 d.2.1 d.2.2.1 d.2.2.2 0 s) { s with tamp := { s.tamp with unrecorded := [] } }

/-- MESH_COMPARISON of a loop (R520): a mismatch is counted; a second consecutive one is a detection. -/
def meshComparison (loop : Nat) (mismatch : Bool) (s : State) : State :=
  if !tampArmed s loop then s else
  let n := vget s.tamp.meshRun loop 0
  let set_ (v : Nat) (s : State) : State := { s with tamp := { s.tamp with meshRun := vset s.tamp.meshRun loop v } }
  if !mismatch then set_ 0 s
  else
    match n with
    | 0 => set_ 1 { s with tamp := { s.tamp with meshMismatches := s.tamp.meshMismatches + 1 } }
    | 1 => tamper loop (set_ 2 s)
    | _ => s

/-- SEC_TAMPER_RELEASE (R525). -/
def effTamperRelease (p : Bytes) (keyId : Nat) (s : State) : CmdRes :=
  checked [(fld p 0 4 == s.tamp.count.toNat, 0), (allZero (slice p 4 4), 4)]
    (let t := s.tamp
     let s := tamperEvent t.sources 6 t.count.toNat t.first keyId { s with tamp := { t with
       set_ := false, sources := 0, situation := 0, count := 0, first := 0 } }
     .doneThen [] s fun s => { s with sys := { s.sys with resetPending := some 5 } })

/-! ### The Cloister's own steps (R494, R498) -/

/-- REMASK: a fresh mask into both shares of every occupied slot. -/
def remask (s : State) : State :=
  if s.sys.inReset || s.sys.mode == .backup || noRandom s then s else
  let s := s.sec.slots.foldl (fun s x =>
    let (m, s) := trngBytes x.2.share0.length s
    updSec (fun y => { y with
      slots := putKeyIn x.1 ⟨xorBytes x.2.share0 m, xorBytes x.2.share1 m, x.2.attrs⟩ y.slots }) s) s
  updSec (fun x => { x with remasks := x.remasks + 1 }) s

/-- TRNG_HEALTH_FAILURE: output stops (R498). -/
def trngFailure (s : State) : State :=
  if s.sys.inReset || s.sys.mode == .backup then s else
  updSec (fun x => { x with trngFailures := x.trngFailures + 1, trngStopped := true }) s

/-! ### Parameters (R526, R527) -/

/-- SEC_STATE. -/
def secState (s : State) : Nat :=
  s.sec.pufReads * 2 ^ 16 + s.sec.slots.length * 256 + 16 * b2n s.sec.transition.isSome + 8 * b2n s.sec.cert.isSome +
    4 * b2n (!(keysOfRole s 3).isEmpty) + 2 * b2n s.sec.keysLoaded + b2n s.sec.root.isSome

/-- A read-only parameter of SEC. -/
def secParam (s : State) (i : Nat) : Nat :=
  if 0x21 ≤ i ∧ i ≤ 0x27 then (imageOf s (i - 0x20)).version.toNat
  else if 0x29 ≤ i ∧ i ≤ 0x2F then
    let x := imageOf s (i - 0x28)
    x.verify * 256 + 8 * b2n x.running + x.stage
  else if 0x30 ≤ i ∧ i ≤ 0x4F then (vget s.sec.hostKeys (i - 0x30) none).elim 0 fun k => k.keyId * 65536 + k.role * 256
  else if 0x51 ≤ i ∧ i ≤ 0x57 then (imageOf s (i - 0x50)).counter
  else match i with
    | 0x10 => secState s
    | 0x11 => s.sec.remasks.toNat
    | 0x12 => s.sec.bootCount.toNat
    | 0x13 => s.sec.trngFailures.toNat
    | _ => 0

/-- A read-only parameter of TAMP. -/
def tampParam (s : State) (i : Nat) : Nat :=
  match i with
  | 0x11 => s.tamp.situation * 256 + 128 * b2n s.tamp.set_ + s.tamp.sources
  | 0x12 => s.tamp.count.toNat
  | 0x13 => s.tamp.first
  | 0x14 => s.tamp.meshMismatches.toNat
  | _ => 0

end Sys2Proof.Machine
end

