-- ==== Sys2Proof/Machine/Intg.lean ====
section
/-! DEFINITION. Snapshots, fault records, engine watchdogs, scrubbing, the errors of the Gallery and the Balustrade, and the
status words they report (R21, R24, R43, R71, R528 to R543, R560). -/

namespace Sys2Proof.Machine

/-- INTG changed. -/
def updIntg (f : Intg → Intg) (s : State) : State := { s with intg := f s.intg }

/-! ### Status words -/

/-- MODE_STATE (R43). -/
def modeState (s : State) : Nat :=
  s.sec.lifecycle.code * 2 ^ 24 + (if s.sys.mode = .fallback then (s.sys.returnMode.elim 0 Mode.code) else 0) * 2 ^ 20 +
    s.sys.prevMode * 2 ^ 16 + s.sys.cause * 2 ^ 8 + 128 * b2n s.sys.trans.isSome + s.sys.mode.code

/-- XSPI_STATUS (R71). -/
def xspiStatus (s : State) : Nat :=
  let q := s.hif.xspiQ.length
  q * 16 + 8 * b2n s.hif.xspi.unsync + 4 * b2n s.hif.xspi.session.isSome + 2 * b2n (decide (0 < q)) + b2n (rxReady s)

/-- The takeover timeout in µs: 3 cycles of the designated task, or 50 ms (R64). -/
def takeoverUs (s : State) : Nat :=
  let v := getP s 0x0124
  max 50000 (3 * (taskDef s (v / 16) (v % 16)).elim 0 (·.cycle))

/-- A heartbeat of the peer is present: one has been received within the takeover timeout (R58, log entry 94). -/
def peerPresent (s : State) : Bool := s.pair.peer && decide (monoUs s ≤ s.pair.lastHeard + takeoverUs s)

/-- PAIR_STATE (R58): on the active device, the qualification the shadow last reported. -/
def pairState (s : State) : Nat :=
  if paired s then
    4 * b2n (peerPresent s) + 2 * b2n (if s.pair.active then s.pair.peerQualified else s.pair.qualified) + b2n s.pair.active
  else 0

/-- PWR_STATE (R560). -/
def pwrState (s : State) : Nat :=
  s.pwr.lastReset * 2 ^ 16 + s.pwr.uvRails * 2 ^ 8 + 16 * b2n s.pwr.vbatLow + 8 * b2n (socEn s) +
    4 * b2n s.pwr.pllDdrLock + 2 * b2n s.pwr.pllSysLock + b2n s.pwr.pfw

/-- FLIGHT_POWER (R560). -/
def flightPower (s : State) : Nat :=
  (List.range 8).foldl (fun a n => a + (vget s.pwr.flights n .off).code * 4 ^ n) 0

/-- INTG_STATE (R543). -/
def intgState (s : State) : Nat :=
  (s.intg.ring ++ s.intg.mramRing).head?.elim 0 (·.cause) * 256 + 4 * b2n s.intg.scrubbing + 2 * b2n s.intg.held.isSome +
    b2n s.intg.armed

/-! ### Snapshots (R535 to R539) -/

/-- The jobs and kernels of *Kernels* that NMOD submits (R182, R183, R197, R201). -/
def nmodKernelCode (s : State) : NJobKind → Nat
  | .estFactor => if cfgPrecond s = 1 then 5 else 6
  | .estPcg => 0x10
  | .calib => 0x10
  | .optCandidate => 0x10
  | .optFactor => 7
  | .optPredictor => 0x13
  | .optCorrector => 0x13

/-- The job of a flight: JOB_ID and KERNEL. -/
def flightJob (s : State) (n : Nat) : Option (Nat × Nat) :=
  match s.solv.nrun, s.solv.hrun with
  | some j, h => if bit j.mask n then some (j.id, nmodKernelCode s j.kind)
      else h.bind fun j => if bit j.mask n then some (dId j.desc, dKernel j.desc) else none
  | none, some j => if bit j.mask n then some (dId j.desc, dKernel j.desc) else none
  | none, none => none

/-- What a section reports of the running or last execution of an engine (R537). -/
def engineSection (s : State) (e : Nat) : Bytes :=
  let x := engOf s e
  match x.runs with
  | r :: _ =>
    le 1 (e * 16 + r.task) ++ le 1 r.prio ++ le 2 (journalUsed x.runs) ++ le 4 r.pc.toNat ++ le 1 (linksUsed x.runs) ++ zeros 3
  | [] => le 1 0xFF ++ zeros 11

/-- The sum of a table of counters, as a field of 4 bytes. -/
def tableSum (l : List (Nat × Nat)) : Nat := l.foldl (fun a x => a + x.2) 0

/-- The open values that a snapshot reports: frames in the switch queues, Gallery tags of transfers that begin and end within the
tick, beside those the state holds, and of each flight ITERATIONS and REG_COUNT, drawn once for the snapshot (log entry 54). -/
structure SnapOpen where
  queues : Nat → Nat
  tags : Nat
  iters : Nat → Nat
  regs : Nat → Nat

/-- The open values at a draw. -/
def snapOpen (d held : Nat) : SnapOpen :=
  { queues := fun k => Config.openValue 49 (d + k) % 65, tags := held + Config.openValue 50 d % (513 - held),
    iters := fun n => Config.openValue 51 (d + n) % 2 ^ 32, regs := fun n => Config.openValue 52 (d + n) % 2 ^ 32 }

/-- The sections of *Snapshot sections* by block code (R537). -/
def snapSections (s : State) (o : SnapOpen) : List (Nat × Bytes) :=
  let link (t : Transport) : Bytes :=
    let l := linkOf s t
    let h := deviceHeld s t
    le 2 l.epoch.toNat ++ le 2 h.1 ++ le 2 h.2 ++ zeros 2 ++ le 4 (l.expected.elim 0 (·.toNat))
  [ (0x01, le 4 (modeState s) ++ le 2 (executing s).length ++ zeros 2 ++ fit 8 (s.sys.lastOps.flatMap (le 2))),
    (0x02, le 4 (xspiStatus s) ++ link .xspi ++ link .udp ++ link .uart),
    (0x03, le 4 (solvParam s 0x10) ++ zeros 4 ++ (List.range 8).flatMap fun n =>
      match flightJob s n with
      | some (i, k) => le 4 i ++ le 1 k ++ zeros 3 ++ le 4 (o.iters n) ++ le 4 (o.regs n)
      | none => zeros 16),
    (0x04, le 4 (roundState s) ++ le 2 (s.nmod.est.elim 0 (·.cur.step)) ++ zeros 2 ++ le 8 (s.nmod.est.elim 0 (·.round)) ++
      le 8 (s.nmod.est.elim 0 fun r => r.best.elim r.rhoWarm (·.rho)) ++ le 2 (s.nmod.opt.elim 0 (·.iter)) ++ zeros 6),
    (0x05, le 4 (bufferState s) ++ le 4 s.subl.entries.length ++ le 4 s.subl.totals.received.toNat ++
      le 4 s.subl.totals.accepted.toNat ++ le 4 s.subl.totals.duplicate.toNat ++ le 4 s.subl.totals.full.toNat ++
      le 4 s.subl.totals.auth.toNat ++ le 4 s.subl.totals.stale.toNat),
    (0x06, le 4 (ctrlState s) ++ zeros 4 ++ engineSection s 0 ++ engineSection s 1),
    (0x07, (List.range 16).flatMap fun c =>
      let x := vget s.mth.chans c MthChan.reset
      le 4 (chStatus s c) ++ le 4 x.fwd.toNat ++ le 4 x.rev.toNat ++ le 4 x.dirChanges.toNat),
    (0x08, (List.range 4).flatMap fun k => le 4 (sysStatusOf s k) ++ le 4 (melSys s k).cycles.toNat),
    (0x09, le 4 (billStatus s) ++ le 4 s.bill.saves.toNat ++ le 8 s.bill.lastSeq),
    (0x0A, le 4 (bitsOf 32 (diLevel s)) ++ le 4 (bitsOf 24 fun o => (vget s.pio.dos o DOut.reset).level) ++
      le 4 (bitsOf 24 fun o => (vget s.pio.dos o DOut.reset).pad) ++ le 4 s.pio.fault.toNat),
    (0x0B, (List.range 8).flatMap fun a =>
      let b := axisStatus s a (axisOf s a)
      slice b 16 4 ++ slice b 24 4 ++ slice b 6 2 ++ slice b 12 1 ++ zeros 1),
    (0x0C, (List.range 4).flatMap fun p =>
      le 4 (portStatus s p) ++ le 4 (vget s.eth.rxErrors p 0).toNat ++ le 4 (vget s.eth.queueDrops p 0).toNat ++
        (List.range 4).flatMap fun q => le 1 (o.queues (4 * p + q))),
    (0x0D, le 4 (timeState s) ++ le 4 (unsgn 32 (satInt 32 s.time.offset)) ++ le 8 s.clock.increment ++
      le 4 s.time.steps.toNat ++ zeros 4),
    (0x0E, le 4 (rtcDate s) ++ le 4 (rtcTime s) ++ le 4 (rtcSubsec s) ++ le 4 (rtcStatus s)),
    (0x0F, le 4 (epdStatus s) ++ le 4 s.epd.updates.toNat),
    (0x10, le 4 s.evr.logSeq.toNat ++ le 4 (metroFree s) ++ le 4 s.evr.staging.length ++ le 4 s.evr.stagingFull.toNat),
    (0x11, le 4 (secState s) ++ le 4 s.sec.remasks.toNat),
    (0x12, le 4 (tampParam s 0x11) ++ le 4 s.tamp.count.toNat),
    (0x13, le 4 (tableSum s.intg.ceCount) ++ le 4 (tableSum s.intg.blockErrors) ++ le 4 (intgState s) ++ le 2 o.tags ++ zeros 2 ++
      le 4 (tableSum s.intg.timeouts) ++ le 4 s.intg.scrubPos ++ le 6 s.intg.snapIn.sec ++ zeros 2 ++ le 4 s.intg.snapIn.ns ++
      zeros 4),
    (0x14, le 2 s.pwr.vddCore.toNat ++ le 2 s.pwr.vddSoc.toNat ++ le 2 s.pwr.vddAna.toNat ++ le 2 s.pwr.vbat.toNat ++
      le 2 s.pwr.dieTemp.toNat ++ zeros 6) ]

/-- SNAPSHOT_TICK, the first row of the snapshot tick, which begins after the detection: every block latches its section (R536), and
SNAPSHOT_TRIGGER completes (R538). -/
def snapshotTick (s : State) : State :=
  match s.intg.pending with
  | none => s
  | some src =>
    if !s.intg.armed || !mainRuns s || !decide (s.intg.pendingUs < monoUs s) then s else
    let seq := s.intg.snapSequence + 1
    let h : Snapshot :=
      { seq := seq, sources := src, mode := s.sys.mode.code, at_ := tickStamp s, sections := snapSections s (snapOpen s.draws s.gal.held.length) }
    let s := updIntg (fun x => { x with armed := false, held := some h, pending := none, snapSequence := seq }) { s with draws := s.draws + 16 }
    completeAll (· == .snapshot) stOK false (le 4 seq.toNat ++ zeros 4) s

/-- SNAPSHOT_TRIGGER (R538). -/
def effSnapshotTrigger (p : Bytes) (s : State) : CmdRes :=
  checked [(decide (fld p 0 1 ≤ 1), 0), (allZero (slice p 1 3), 1)]
    (let a := updIntg (fun x => { x with armed := true, held := none, pending := if x.armed then x.pending else none }) s
     if fld p 0 1 = 0 then .ok [] a else .wait .snapshot (snapSource 0 a))

/-- SNAPSHOT_READ (R539). -/
def effSnapshotRead (p : Bytes) (s : State) : CmdRes :=
  let b := fld p 0 1
  let secs := (s.intg.held.elim [] (·.sections)).filter fun x => b == 0 || x.1 == b
  checked [(!secs.isEmpty, 0), (allZero (slice p 1 3), 1)]
    (match s.intg.held with
     | none => .badParam 0
     | some h =>
       let body := secs.flatMap (·.2)
       .ok (le 4 h.seq.toNat ++ le 2 h.sources ++ le 1 b ++ le 1 h.mode ++ le 6 h.at_.sec ++ le 2 body.length ++ le 4 h.at_.ns ++
         zeros 4 ++ body) s)

/-- SNAP_IN_EDGE: a filtered edge of SNAP_IN; one of SNAP_IN_POLARITY is a source (R535). -/
def snapInEdge (rising : Bool) (s : State) : State :=
  if timeRuns s && (rising != bit (getP s 0x1311) 11) then
    snapSource 1 (updIntg (fun x => { x with snapIn := ⟨ptpSec s, ptpNs s⟩ }) s)
  else s

/-! ### Fault records (R540 to R542) -/

/-- A fault record as INTG_FAULT_READ returns it. -/
def faultBytes (r : FaultRec) : Bytes :=
  let b := le 4 r.seq ++ le 1 r.cause ++ le 1 r.block ++ le 1 r.mode ++ zeros 1 ++ le 6 r.at_.sec ++ zeros 2 ++ le 4 r.at_.ns ++
    fit 20 r.detail ++ le 4 r.snapSeq
  b ++ le 4 (crc32c b)

/-- A fault is detected: its record is written, and FAULT entered unless HOLDUP or BACKUP prevails (R541, R45). -/
def faultEntry (cause block : Nat) (detail : Bytes) (s : State) : State :=
  let n := s.intg.faultCount + 1
  let r : FaultRec :=
    { seq := n.toNat, cause := cause, block := block, mode := s.sys.mode.code, at_ := ⟨ptpSec s, ptpNs s⟩, detail := detail,
      snapSeq := s.intg.held.elim 0 (·.seq.toNat), intact := true }
  trigger .fault 6 (updIntg (fun x => { x with ring := (r :: x.ring).take 8, faultCount := n }) s)

/-- Fault records not yet copied go to MRAM at BOOT (R541). -/
def copyFaults (s : State) : State :=
  let new := s.intg.ring.filter fun r => decide (s.intg.copied < r.seq)
  updIntg (fun x => { x with mramRing := (new ++ x.mramRing).take 32, copied := x.faultCount.toNat }) s

/-- Every fault record, newest first (R542). -/
def faultRecs (s : State) : List FaultRec :=
  s.intg.ring ++ s.intg.mramRing.filter fun r => !(s.intg.ring.any fun q => q.seq == r.seq)

/-- INTG_FAULT_READ (R542). -/
def effFaultRead (p : Bytes) (s : State) : CmdRes :=
  let a := fld p 0 1
  let r := if a ≤ 31 then (faultRecs s)[a]? else none
  checked [(r.any (·.intact), 0), (allZero (slice p 1 3), 1)]
    (match r with
     | some r => .ok (faultBytes r) s
     | none => .badParam 0)

/-! ### Engine watchdogs (R533, R534) -/

/-- The commands under some tags of which `f` holds complete with INTERNAL. -/
def failCommands (f : Exec → Bool) (tags : List Byte) (s : State) : State :=
  tags.foldl (fun s t =>
    match tagOf s t.toNat with
    | some (.executing e) => if f e then complete t.toNat stInternal false [] s else s
    | _ => s) s

/-- The commands executing on a restarted core complete with INTERNAL: those of `tags` that it runs (R14, R534). -/
def coreCommands (core : Nat) (tags : List Byte) (s : State) : State := failCommands (fun e => coreOf e.op == core) tags s

/-- What a restarted core leaves behind: rounds stall until R210 ends them, a calibration sample is lost, the servo resumes
in HOLDOVER (R534). -/
def coreRestart (core : Nat) (s : State) : State :=
  let orphan (f : NJobKind → Bool) (s : State) : State :=
    withdraw f { s with solv := { s.solv with nrun := s.solv.nrun.map fun j => if f j.kind then { j with owner := 0 } else j } }
  match core with
  | 1 => orphan (fun k => isEstKind k)
      { s with nmod := { s.nmod with est := s.nmod.est.map fun r => { r with resolved := true } } }
  | 2 => orphan (fun k => !isEstKind k)
      { s with nmod := { s.nmod with opt := s.nmod.opt.map fun r => { r with phase := .stalled }, calOpen := none } }
  | _ =>
    if timeRuns s then
      let pps := s.time.servo == .gmPps
      updTime (fun t => { t with heldFromPps := pps || (t.servo == .holdover && t.heldFromPps) }) (servoTo .holdover s)
    else s

/-- An engine restarts: counted, and its blocks show it for a time within `bound` µs where the manual gives a bound; the time itself is
open (R33, R533, kind 70, log entry 74). -/
def restarted (blocks : List Nat) (bound : Option Nat) (s : State) : State :=
  let v := Config.openValue 70 s.draws
  let till := monoUs s + bound.elim v fun b => v % (b + 1)
  { updIntg (fun x => { x with
      wdtRestarts := x.wdtRestarts + 1,
      restarting := (x.restarting.filter fun r => !blocks.contains r.1) ++ blocks.map fun b => (b, till) }) s with
    draws := s.draws + 1 }

/-- The blocks of a supervisor core's firmware: SYS, and NMOD for cores 1 and 2 (R13, R14). -/
def coreBlocks (core : Nat) : List Nat := if core = 3 then [0x01] else [0x01, 0x04]

/-- WATCHDOG_EXPIRY of cores 1 to 3: a restart, or FAULT at the second expiry within 600 s (R533). -/
def coreExpiry (core pc : Nat) (tags : List Byte) (s : State) : State :=
  let last := vget s.intg.lastExpiry (core - 1) none
  let now := monoUs s
  let s := updIntg (fun x => { x with lastExpiry := vset x.lastExpiry (core - 1) (some now) }) s
  if last.any fun t => decide (now ≤ t + 600000000) then faultEntry 2 0x01 (le 1 core ++ le 4 pc) s
  else restarted (coreBlocks core) (some 5000) (coreRestart core (coreCommands core tags s))

/-- The metrology engine restarts: metering stops abruptly with CAUSE 4, and selection and gap record follow as at BOOT (R360, R362,
R533). -/
def metrologyRestart (bad : List (Fin 64)) (s : State) : State :=
  let s := restarted [0x07, 0x08, 0x09] (some 60000) s
  if meteringMode s then billBoot bad (abruptStop 4 s) else s

/-- WATCHDOG_EXPIRY (R533). -/
def watchdogExpiry (e : WdtEngine) (s : State) : State :=
  match e with
  | .housekeeping => snapSource 6 (restarted [0x14] none s)
  | .supervisor core pc tags =>
    if !mainRuns s || (s.sys.mode == .fault && (core.val == 1 || core.val == 2)) then s
    else if core.val = 0 then faultEntry 1 0x01 (le 4 pc.toNat) (snapSource 6 s)
    else coreExpiry core.val pc.toNat tags (snapSource 6 s)
  | .security pc => if mainRuns s then faultEntry 3 0x11 (le 4 pc.toNat) (zeroise (snapSource 6 s)) else s
  | .motion pc => if vaxRuns s then faultEntry 4 0x0B (le 4 pc.toNat) (axesSafe true (snapSource 6 { s with vax := { s.vax with enLow := true } })) else s
  | .metrology bad =>
    if !mainRuns s then s
    else metrologyRestart bad (snapSource 6 s)
  | .concourse => if sublRuns s then restarted [0x05] (some 2000) (snapSource 6 s) else s
  | .display =>
    if epdRuns s then
      queueClear (restarted [0x0F] none (snapSource 6 (updEpd (fun x => { x with recovery := true }) s)))
    else s

/-! ### Scrubbing (R529 to R532) -/

/-- What follows when a word marked uncorrectable is read (*Memory error handling*): FAULT for the code in L2 and for the Cloister, whose
slots are zeroised first, INTERNAL for the operation in progress on data in L2, a restart of the metrology engine. -/
def wordUsed (mem addr : Nat) (u : WordUse) (s : State) : State :=
  match u with
  | .code => if mem = 3 then faultEntry 5 0x01 (le 4 addr) s else s
  | .data tags => if mem = 3 then failCommands (fun _ => true) tags s else s
  | .metrology bad => if mem = 6 then metrologyRestart bad s else s
  | .security => if mem = 7 then faultEntry 6 0x11 (le 4 addr) (zeroise s) else s

/-- What a scrub finds in a word: a correctable error is counted and corrected, an uncorrectable one is counted, recorded and marked,
and gives no error response to any block (R530 to R532); only a read of the word that follows has a consequence (log entry 53). -/
def scrubFinding (s : State) (f : ScrubFinding) : State :=
  let blk := memBlock f.mem.val f.addr.toNat f.owner.val
  if !scrubbedMem f.mem.val || f.bits == 0 then s
  else if f.bits ≤ correctsBits f.mem.val then correctable blk s
  else
    let s := uncorrectable f.mem.val blk f.addr.toNat s
    match f.used with
    | some u => wordUsed f.mem.val f.addr.toNat u s
    | none => s

/-- SCRUB_PASS: a pass over the scrubbed memories and what it found (R530 to R532). -/
def scrubPass (fs : List ScrubFinding) (s : State) : State :=
  if mainRuns s then
    applyOne 0x1312 (updIntg (fun x => { x with scrubbing := false, scrubPos := 0 }) (fs.foldl scrubFinding s))
  else s

/-! ### Gallery and Balustrade (R18, R21, R24) -/

/-- The code of the target block behind a port. -/
def GPort.target : GPort → Nat
  | .bank _ => 0x15
  | .block c => c

/-- GALLERY_TIMEOUT: a target has not responded within 100 µs; the timeout error response returns the tag, and a timeout of a P0 target is
a fault (R21, R540). -/
def galleryTimeout (target initiator addr : Nat) (p0 : Bool) (s : State) : State :=
  if !mainRuns s then s else
  let n := (tableGet (fun _ => 0) s.intg.timeouts target + 1) % 2 ^ 32
  let s := updIntg (fun x => { x with timeouts := tableSet (fun _ => 0) x.timeouts target n }) s
  let s := updGal (respondFirst fun b => b.src == initiator && b.port.target == target && !b.abandoned) s
  let s := snapSource 10 (post 0x1302 0 (le 1 target) 0 { s with out := s.out ++ [.gallery target 1] })
  if p0 then faultEntry 8 target (le 1 target ++ le 1 initiator ++ le 4 addr) s else s

/-- GALLERY_PROMOTION: a P3 request of 10 µs becomes P2 for its next arbitration (R18). -/
def galleryPromotion (s : State) : State :=
  if mainRuns s then
    updGal (promoteFirst (monoUs s)) (updIntg (fun x => { x with promotions := x.promotions + 1 }) s)
  else s

/-- BALUSTRADE_WRITE: an outside write to the Mezzanine is discarded, answered with an error and recorded (R24). -/
def balustradeWrite (s : State) : State :=
  if mainRuns s then
    post 0x0905 0 [] 0
      { updIntg (fun x => { x with balustrade := x.balustrade + 1 }) s with out := s.out ++ [.gallery 0x09 3] }
  else s

/-- A read-only parameter of INTG (R543). -/
def intgParam (s : State) (i : Nat) : Nat :=
  let x := s.intg
  if 0x21 ≤ i ∧ i ≤ 0x35 then tableGet (fun _ => 0) x.ceCount (i - 0x20)
  else if 0x41 ≤ i ∧ i ≤ 0x55 then tableGet (fun _ => 0) x.timeouts (i - 0x40)
  else match i with
    | 0x10 => intgState s
    | 0x13 => x.snapSequence.toNat
    | 0x14 => x.snapMissed.toNat
    | 0x15 => x.wdtRestarts.toNat
    | 0x16 => x.faultCount.toNat
    | _ => 0

/-- A read-only parameter of PWR (R560). -/
def pwrParam (s : State) (i : Nat) : Nat :=
  match i with
  | 0x10 => pwrState s
  | 0x11 => flightPower s
  | 0x13 => s.pwr.vddSoc.toNat * 65536 + s.pwr.vddCore.toNat
  | 0x14 => s.pwr.vbat.toNat * 65536 + s.pwr.vddAna.toNat
  | 0x15 => s.pwr.dieTemp.toNat
  | 0x16 => s.pwr.holdups.toNat
  | 0x17 => s.pwr.undervoltages.toNat
  | 0x18 => s.pwr.pllLosses.toNat
  | _ => 0

end Sys2Proof.Machine
end

