-- ==== Sys2Proof/Machine/Modes.lean ====
section
/-! DEFINITION. The mode machine: what entering a mode does, the arbitration of triggers, host requests, HOLDUP, resets,
clocks and supplies (R39 to R57, R65, R544 to R558). -/

namespace Sys2Proof.Machine

/-! ### What a mode change does (R39, R252, R382, R396, R552) -/

/-- SYS changed. -/
def updSys (f : Sys → Sys) (s : State) : State := { s with sys := f s.sys }

/-- The pair state changed. -/
def updPair (f : Pair → Pair) (s : State) : State := { s with pair := f s.pair }

/-- PWR changed. -/
def updPwr (f : Pwr → Pwr) (s : State) : State := { s with pwr := f s.pwr }

/-- Modes in which control tasks execute (R252). -/
def taskMode : Mode → Bool
  | .commission | .run | .reduced | .shadow | .fallback | .service | .lockdown => true
  | .backup | .boot | .safe | .holdup | .fault => false

/-- Modes of legality class A (R561). -/
def classA : Mode → Bool
  | .commission | .run | .reduced | .fallback | .service => true
  | _ => false

/-- Modes of legality class W. -/
def classW : Mode → Bool
  | .commission | .run | .reduced | .fallback | .service | .safe => true
  | _ => false

/-- Flights of the mask that are OFF begin to wake (R551). -/
def wakeFlights (mask : Nat) (s : State) : State :=
  updPwr (fun p => { p with flights := p.flights.mapFinIdx fun i x _ => if bit mask i && x == .off then .waking else x }) s

/-- The power states of the flights after a mode change (R39, R552, log entry 57). -/
def modeFlights (old m : Mode) (s : State) : State :=
  match m with
  | .backup | .boot | .safe | .holdup | .fault => setFlights 0xFF .off s
  | .reduced => gateFlights (wakeFlights 3 s)
  | .fallback => wakeFlights 3 s
  | .lockdown => wakeFlights (if old = .reduced ∨ old = .fallback then 3 else 0xFF) s
  | .commission | .run | .shadow | .service => wakeFlights 0xFF s

/-- Outputs and axes go to their safe states where the mode says so (R39, R382, R396). -/
def modeOutputs (m : Mode) (s : State) : State :=
  match m with
  | .safe => axesSafe false (outputsSafe true s)
  | .holdup | .fault => axesSafe true (outputsSafe true s)
  | .shadow => axesSafe false (outputsSafe false s)
  | .commission =>
    s.ctrl.tasks.foldl (fun s x => if testEnable s x.engine x.task then s else taskOutputsSafe x.engine x.task s) s
  | _ => s

/-- Host moves and homings end where the mode no longer admits them (R411). -/
def endHostAxes (m : Mode) (s : State) : State :=
  (List.range 8).foldl (fun s a =>
    match (axisOf s a).host with
    | some homing => if m = .service ∨ (m = .commission ∧ homing = true) then s else axisSafe false a s
    | none => s) s

/-- Commands that wait for a tick of effect which the new mode no longer admits complete with NOT_IN_STATE (R567). -/
def lateRefusal (f : Wait → Bool) (s : State) : State :=
  (waiting f s).foldl (fun s t => complete t stNotInState false (notInStateBody s) (post 0x0102 0 [] 0 s)) s

/-- The waits of class W: round configurations, registrations, a TIME_SET at a PPS edge, a summer-time adjustment. -/
def waitsW : Wait → Bool
  | .roundConfig _ | .sublCut _ | .pps | .rtcDst => true
  | _ => false

/-- Pending effects that the mode does not admit are dropped (R567). -/
def dropLate (m : Mode) (s : State) : State :=
  let s :=
    if classA m then s
    else
      let s := dropChange s
      if (waiting (· == .modelActivation) s).isEmpty then s
      else
        lateRefusal (· == .modelActivation)
          { s with nmod := { s.nmod with built := false, stage := { s.nmod.stage with code := if s.nmod.stage.code = 5 then 3 else s.nmod.stage.code } } }
  let s :=
    if classW m then s
    else
      lateRefusal waitsW
        { s with
            nmod := { s.nmod with roundPend := [] }, subl := { s.subl with ops := [] },
            time := { s.time with atPps := none }, rtc := { s.rtc with dstPending := none } }
  if classW m && m != .fallback then s else dropActivations s

/-- The listening window of R65 and R66 ends without its outcome where the mode entered is not one that waits for it. -/
def endListening (m : Mode) (s : State) : State :=
  match m with
  | .fault | .lockdown | .holdup | .safe | .shadow => updPair (fun p => { p with listening := none, heard := false }) s
  | _ => s

/-- The active role is given up (R65): outputs and axes to safe state, PAIR_ACTIVE_DO deasserted. -/
def giveUpRole (cause : Nat) (m : Mode) (s : State) : State :=
  if !paired s then s
  else
    match m with
    | .shadow =>
      drivePairOutput
        (updPair
          (fun p => { p with
            active := false, gaveUp := false, qualified := false, resynced := false, toShadow := false, peer := peerPresent s,
            matched := [], segments := [], lastHeard := monoUs s }) s)
    | .lockdown | .holdup | .fault =>
      drivePairOutput (axesSafe false (outputsSafe false (updPair (fun p => { p with active := false, toShadow := false }) s)))
    | .safe => if cause = 7 ∧ s.pair.active = true then
        drivePairOutput (updPair (fun p => { p with active := false, gaveUp := true }) s) else s
    | _ => s

/-- The mode as MODE_STATE shows it changes: the record, the event and the snapshot sources (R43, R480, R535). A request that
was on its way ends with the mode reached: OK if that is the mode it named, otherwise NOT_IN_STATE (R49). FAULT and LOCKDOWN are
left only as R44 lists, so a reset pending from before is not made there. -/
def showMode (m : Mode) (cause : Nat) (ret : Option Mode) (s : State) : State :=
  let old := s.sys.mode
  let tr := s.sys.trans
  let s := updSys
    (fun x => { x with
      mode := m, prevMode := old.code, cause := cause, returnMode := ret, trans := none, recovery := false,
      modeChanges := x.modeChanges + 1,
      resetPending := if m = .fault ∨ m = .lockdown then none else x.resetPending }) s
  let s := post 0x0101 0 (le 1 old.code ++ le 1 m.code ++ le 1 cause) 0 s
  let s := if cause = 1 then s else snapSource 3 s
  let s := if m = .fault then snapSource 2 s else s
  match tr with
  | some t => completeAll (· == .modeEnd) (if t.target = m then stOK else stNotInState) false (notInStateBody s) s
  | none => s

/-- Every other command executing on the supervisor cores ends with INTERNAL as FAULT resets or halts them (R534, R541, R566;
log entry 59). A pending snapshot still answers. -/
def endInFault (s : State) : State :=
  completeAll (fun w => match w with
    | .snapshot => false
    | .imageVerify _ => false
    | _ => true) stInternal false [] s

/-- A mode is entered. -/
def modeTo (m : Mode) (cause : Nat) (ret : Option Mode) (s : State) : State :=
  let old := s.sys.mode
  let s := showMode m cause ret s
  let s := dropLate m (endHostAxes m s)
  let s := if taskMode m then s else stopTasks s
  let s := if old = .service ∧ m ≠ .service then restartTasks s else s
  let s := if old = .safe ∧ taskMode m = true then updCtrl (fun c => { c with lockstepStop := false }) s else s
  let s := if m = .commission ∨ m = .service then s else dropHostJobs s
  let s := if roundsRun s then s else abandonRounds s
  let s := modeFlights old m (modeOutputs m s)
  let s := endListening m (giveUpRole cause m s)
  match m with
  | .fault => endInFault s
  | .lockdown => if meteringMode s then markTamper s else s
  | _ => s

/-! ### The ends of transitions (R49, R54, R64, R65) -/

/-- A mode is entered at the end of BOOT; outputs and axes leave their reset state in safe state (R382, R397). -/
def bootEnter (m : Mode) (cause : Nat) (s : State) : State := vaxStart (pioStart (modeTo m cause none s))

/-- A host's transition ends in its mode, and its request is answered OK (R49). A device that gave up the role in SAFE first
listens for its peer (R65). The manual names no listening for a device that has left SHADOW on host request for SERVICE or SAFE, and
the model lets it enter RUN without the role (log entry 103, DESIGN CHOICE). -/
def endTransition (t : Transition) (s : State) : State :=
  let listen := s.sys.mode == .safe && s.pair.gaveUp && paired s && (t.target == .run || t.target == .commission || t.target == .service)
  let s := modeTo t.target t.cause none (updSys (fun x => { x with trans := none }) s)
  let s := completeAll (· == .modeEnd) stOK false (notInStateBody s) s
  if listen then updPair (fun p => { p with listening := some (t.target, 1), heard := false }) s else s

/-- The shadow takes the active role in the mode of the last heartbeat (R64, R403). -/
def takeRole (s : State) : State :=
  let s := if s.pair.qualified then s else post 0x0104 0 [] 0 s
  let m : Mode := match s.pair.lastMode with
    | .run => .run
    | .reduced => .reduced
    | .fallback => .fallback
    | _ => .safe
  let ret := if m = .fallback then s.pair.lastReturn else none
  let s := { s with vax := { s.vax with axes := s.vax.axes.map fun x => { x with homed := false, unverified := true } } }
  let s := modeTo m 8 ret
    (updPair (fun p => { p with active := true, peer := false, gaveUp := false, segments := [], logWaiting := [] }) s)
  drivePairOutput s

/-! ### Arbitration of triggers (R45) -/

/-- The rank of a trigger, a mode with its cause (R45). HOLDUP is entered within its own row and prevails over each of these;
recovery acts at a cut. A request for SAFE ranks as SAFE (log entry 58). -/
def triggerRank (t : Mode × Nat) : Nat :=
  match t.2, t.1 with
  | 8, _ => 3
  | 9, _ => 2
  | 1, .safe => 5
  | 1, _ => 1
  | _, .fault => 7
  | _, .lockdown => 6
  | _, .safe => 5
  | _, .fallback => 4
  | _, _ => 0

/-- A trigger can act from the current mode (R44, R66). A tamper acts in BOOT from the latch check on, in the listening window. -/
def triggerActs (s : State) (t : Mode × Nat) : Bool :=
  let cur := s.sys.mode
  match t.2, t.1 with
  | 8, _ => cur == .shadow
  | 1, m => s.sys.trans.any fun x => x.target == m
  | _, .fault => cur != .backup && cur != .holdup && cur != .fault
  | _, .lockdown => (decide (2 ≤ cur.code) && decide (cur.code ≤ 8)) || (cur == .boot && s.pair.listening.isSome)
  | _, .safe => decide (2 ≤ cur.code) && decide (cur.code ≤ 7)
  | _, .fallback => (cur == .run || cur == .reduced) && !s.sys.trans.any fun x => x.target == .safe
  | _, _ => false

/-- The trigger that prevails among those that can act. -/
def topTrigger (s : State) : Option (Mode × Nat) :=
  s.sys.triggers.foldl
    (fun best t =>
      if !triggerActs s t then best
      else match best with
        | some b => if triggerRank b < triggerRank t then some t else best
        | none => some t)
    none

/-- What a trigger does. -/
def actTrigger (t : Mode × Nat) (s : State) : State :=
  match t.2 with
  | 8 => takeRole s
  | 1 => (match s.sys.trans with
    | some x => endTransition x s
    | none => s)
  | c =>
    if s.sys.mode = .boot then bootEnter t.1 c s
    else modeTo t.1 c (if t.1 = .fallback then some s.sys.mode else none) s

/-- A peer's digest and the own one of the same item and round meet (R63). -/
def matchDigests (s : State) : State :=
  s.pair.peerDigests.foldl (fun s d =>
    match s.pair.digests.find? fun o => o.1 == d.1 && o.2.1 == d.2.1 with
    | none => s
    | some o =>
      let s := updPair (fun p => { p with peerDigests := p.peerDigests.filter fun x => x != d }) s
      if o.2.2 = d.2.2 then
        let m := ((d.1, d.2.1) :: s.pair.matched).take digestsKept
        let all := [0, 1, 2].all fun k => m.contains (k, d.2.1)
        updPair
          (fun p => { p with
            matched := m, lastMatch := if all then d.2.1 else p.lastMatch,
            qualified := p.qualified || (all && p.resynced), resynced := p.resynced && !all }) s
      else if s.sys.mode = .shadow then
        sendPair 6 (le 8 d.2.1)
          (snapSource 8 (post 0x0103 0 (le 1 d.1 ++ le 8 d.2.1) 0
            (updPair (fun p => { p with qualified := false, matched := [] }) s)))
      else s) s

/-- The triggers asserted since the last arbitration are gone. -/
def clearTriggers (s : State) : State := updSys (fun x => { x with triggers := [] }) s

/-- Of the triggers asserted in one tick the prevailing one acts, and the others are without effect (R45): a tamper stays latched, a
fault recorded, a failed round counted, and a request on its way ends as the mode entered decides (R49). -/
def arbitrate (s : State) : State :=
  match topTrigger s with
  | some t => actTrigger t (clearTriggers s)
  | none => s

/-- The end of a tick: the prevailing trigger acts (R45), and digests that have met are compared (R63). -/
def settle (s : State) : State :=
  let s := arbitrate s
  clearTriggers (if s.pair.peerDigests.isEmpty then s else matchDigests s)

/-! ### Host requests (R44, R49, R54, R570) -/

/-- The lifecycle lets a mode be entered (R54). -/
def lifecycleAdmits (s : State) (m : Mode) : Bool :=
  match s.sec.lifecycle with
  | .enrolled | .sealed => true
  | .blank | .returned => m == .commission || m == .service || m == .safe
  | .retired => m == .safe

/-- The transitions a host may request: whether one leads from the current mode to the target, and whether it ends at a cut
(R44). -/
def requestTo (s : State) (m : Mode) : Option Bool :=
  let cur := s.sys.mode
  if !lifecycleAdmits s m then none
  else match m with
    | .run =>
      if cur = .reduced then some false
      else if (cur = .commission ∨ cur = .service ∨ cur = .safe) ∧ s.nmod.active.isSome = true ∧ s.ctrl.running.isSome = true then
        some true
      else none
    | .reduced => if cur = .run then some false else none
    | .shadow =>
      if (cur = .run ∨ cur = .reduced ∨ cur = .fallback) ∧ paired s = true ∧ s.pair.active = true ∧ s.pair.peerQualified = true then
        some true
      else none
    | .service =>
      if cur = .commission ∨ cur = .run ∨ cur = .reduced ∨ cur = .shadow ∨ cur = .fallback ∨ cur = .safe then some false
      else none
    | .safe => if 2 ≤ cur.code ∧ cur.code ≤ 7 then some false else none
    | .commission => if cur = .safe ∨ cur = .service then some false else none
    | _ => none

/-- The modes that a request may name as the current one (R49). -/
def namable : Mode → Bool
  | .commission | .run | .reduced | .shadow | .service | .safe => true
  | _ => false

/-- SYS_MODE_REQUEST (R49, R570). -/
def effModeRequest (p : Bytes) (s : State) : CmdRes :=
  checked [(decide (fld p 0 1 ≤ 11), 0), (allZero (slice p 1 3), 1)]
    (if s.sys.trans.isSome then .reject stBusy (notInStateBody s)
     else
      match Mode.ofCode (fld p 0 1) with
      | none => .badParam 0
      | some m =>
        if m = s.sys.mode ∧ namable m = true then .ok (notInStateBody s) s
        else
          match requestTo s m with
          | none => .done stNotInState false (notInStateBody s) s
          | some atCut =>
            .wait .modeEnd (updSys (fun x => { x with trans := some { target := m, cause := 1, tag := none, atCut := atCut } }) s))

/-- MODE_TRANSITION_END: a timed transition finishes, unless a higher trigger of the tick prevails (R44, R45). -/
def modeTransitionEnd (s : State) : State :=
  match s.sys.trans with
  | some t => if t.atCut then s else trigger t.target t.cause s
  | none => s

/-- Recovery at a cut: RETURN_MODE is entered and the new trajectory replaces that of FALLBACK (R47). -/
def recover (m : Mode) (s : State) : State :=
  modeTo m 9 none
    { s with nmod := { s.nmod with
      traj := (match s.nmod.trajNext with
        | some t => Paged.write s (some t) s.nmod.traj
        | none => s.nmod.traj), trajNext := none } }

/-- The part of a cut that ends mode transitions: a pair role, recovery, or a request (R44, R45, R47, R65, R67). Where a higher
trigger of the tick prevails, none of them acts. The role is settled by R67 in every lifecycle state, also where R54 does not list
SHADOW (log entry 101, DESIGN CHOICE), and TRANSITION reads 1 only for a transition that a request has begun (log entry 102, DESIGN
CHOICE). -/
def cutTransitions (s : State) : State :=
  let cur := s.sys.mode
  if (topTrigger s).any fun t => decide (2 < triggerRank t) then s
  else if s.pair.toShadow && decide (2 ≤ cur.code) && decide (cur.code ≤ 8) && cur != .shadow then modeTo .shadow 0x0C none s
  else
    match s.sys.recovery, s.sys.returnMode, s.sys.trans with
    | true, some m, _ => if cur = .fallback then recover m s else s
    | _, _, some t => if t.atCut then endTransition t s else s
    | _, _, none => s

/-! ### HOLDUP (R547 to R549) -/

/-- The MRAM write path of HOLDUP closes; a save being written is abandoned (R549). -/
def closeMram (s : State) : State :=
  let s := updPwr (fun p => { p with mramOpen := false }) s
  match s.bill.saving with
  | some n => endSlot n false s
  | none => s

/-- HOLDUP is entered, on PFW or on an undervoltage of the given rail (R547 to R549). -/
def enterHoldup (uv : Option Nat) (s : State) : State :=
  let onPfw := s.pwr.pfw
  let s := abruptStop (if onPfw then 1 else 2) s
  let s := { s with hif := { s.hif with tags := s.hif.tags.filter fun x => match x.2 with
    | .executing _ => false
    | .held _ => true } }
  let s := modeTo .holdup (if onPfw then 3 else 4) none s
  let s := updPwr
    (fun p => { p with
      holdups := p.holdups + 1, uvRails := uv.elim 0 (2 ^ ·),
      undervoltages := if uv.isSome then p.undervoltages + 1 else p.undervoltages, mramOpen := onPfw && uv.isNone }) s
  let s := if s.pwr.mramOpen then { s with evr := counterCopy s.evr } else closeMram s
  epdStop (triggersOff (retainAxes s))

/-- The device can enter HOLDUP. -/
def holdupFrom (s : State) : Bool := mainRuns s && s.sys.mode != .holdup

/-- PFW_ASSERTED (R547). -/
def pfwAsserted (s : State) : State :=
  let s := updPwr (fun p => { p with pfw := true }) s
  if holdupFrom s then enterHoldup none s else s

/-- The number of a rail in UV_RAILS. -/
def railNum : Rail → Nat
  | .core => 0
  | .soc => 1
  | .io _ => 2
  | .vdd2 => 3
  | .vddq => 4
  | .t1l => 5
  | .ana => 6

/-- The threshold of a rail in mV, that of a bank of VDD_IO by the level sampled in the last main reset (*Supply rails*, R582). -/
def uvLimit (s : State) : Rail → Nat
  | .core | .soc => 680
  | .io b => if bit s.pwr.ioBanks.toNat b.val then 2900 else 1600
  | .vdd2 => 1000
  | .vddq => 540
  | .t1l => 2900
  | .ana => 3000

/-- A rail has been at `mv` for `ns`: below its threshold, for longer than its filter (*Supply rails*). -/
def uvSeen (s : State) (r : Rail) (mv ns : Nat) : Bool :=
  decide (mv < uvLimit s r) && decide ((if r = .core ∨ r = .soc then 2000 else 10000) < ns)

/-- UNDERVOLTAGE of a rail, numbered as in UV_RAILS; VDD_SOC is not monitored while PWR_SOC_EN is low (R544, R545, R547,
R549). -/
def undervoltage (rail : Nat) (s : State) : State :=
  if !mainRuns s || (rail == 1 && !socEn s) then s
  else if s.sys.mode = .holdup then
    closeMram (updPwr (fun p => { p with uvRails := Nat.lor p.uvRails (2 ^ rail), undervoltages := p.undervoltages + 1 }) s)
  else enterHoldup (some rail) s

/-- UNDERVOLTAGE: the monitor of a rail acts if what it has seen is an undervoltage (R544). -/
def railLow (r : Rail) (mv ns : Nat) (s : State) : State := if uvSeen s r mv ns then undervoltage (railNum r) s else s

/-- MRAM_WRITE_PATH_CLOSE, 2 ms after entry (R549). -/
def mramPathClose (s : State) : State := if s.sys.mode = .holdup then closeMram s else s

/-- The host interface as a reset leaves it: the stored baud rate and credit shares (R87, R104). -/
def hifRestart (s : State) : State :=
  let c := getP s 0x0210
  { s with hif := { Hif.reset with baud := getP s 0x0214, shareUdp := c / 256 % 256, shareUart := c % 256 } }

/-- HOLDUP_END: BACKUP is entered and the main domain isolated (R48, R549). -/
def holdupEnd (s : State) : State :=
  if s.sys.mode = .holdup then
    hifRestart
      (updSys (fun x => { x with mode := .backup, prevMode := Mode.holdup.code, modeChanges := x.modeChanges + 1, trans := none })
        (closeMram s))
  else s

/-! ### Resets (R87, R556, R557) -/

/-- Parameter values that wait for anything but a minute of metering time are in effect after a reset (R35, R331, R352). -/
def paramsReset (s : State) : State :=
  let stay (p : PendingValue) : Bool := (pinfo p.id).any fun q => q.bound == .minute
  { s with
      cfg := (s.cfgPending.filter fun p => !stay p).foldl (fun c p => tableSet pdflt c p.id p.value) s.cfg,
      cfgPending := s.cfgPending.filter stay }

/-- The levels of the banks IO0 to IO7 by the mV sampled of each: above 2.4 V a 3.3 V bank (R582). -/
def bankLevels (mv : Vector W16 8) : Byte :=
  BitVec.ofNat 8 (bitsOf 8 fun k => decide (2400 < (vget mv k 0).toNat))

/-- Every block of the main domain is reset into BOOT, LAST_RESET as given (R556, R557). Staged events reach MRAM (log entry
56); always-on state, MRAM, OTP and flash stay. -/
def mainReset (code : Nat) (banks : Byte) (s : State) : State :=
  let old := s.sys.mode
  let s := paramsReset (periodsHold (epdStop s))
  let listed := old == .backup || old == .lockdown || old == .fault
  let changes := if listed then s.sys.modeChanges + 1 else s.sys.modeChanges
  let e := drainAll (s.evr.staging.length + s.evr.heldPosts.length + 1) s.evr
  let s := { s with
    clock := { Clock.reset with real := s.clock.real },
    sys := { Sys.reset with modeChanges := changes },
    pair := Pair.reset,
    evr := { e with winRecorded := [], winLimited := [], logOverwritten := 0, auditOverwritten := 0, metroOverflow := 0, stagingFull := 0, sampled := none },
    sec := { s.sec with slots := [], keysLoaded := false, remasks := 0, trngFailures := 0, trngStopped := false, pufReads := 0 },
    tamp := { s.tamp with meshMismatches := 0, meshRun := Vector.replicate 2 0 },
    intg := { s.intg with
      armed := true, held := none, pending := none, snapIn := ⟨0, 0⟩, snapSequence := 0, snapMissed := 0, wdtRestarts := 0, ceCount := [],
      blockErrors := [], timeouts := [], scrubbing := false, scrubPos := 0, lastExpiry := Vector.replicate 3 none, restarting := [],
      marked := s.intg.marked.filter fun x => x.1 == 11, promotions := 0, balustrade := 0 },
    pwr := { s.pwr with
      lastReset := code, pllSysLock := false, pllDdrLock := false, flights := Vector.replicate 8 .off, mramOpen := false, ioBanks := banks,
      pllLost := Vector.replicate 2 none, flash := .single },
    mth := Mth.reset, mel := Mel.reset, pio := Pio.reset,
    time := { TimeB.reset with utcOffset := sgn 16 (getP s 0x0D15) },
    eth := EthB.reset, gal := Gallery.reset,
    solv := { Solv.reset with work := Region.unknown s.draws, ddr := Region.unknown s.draws }, draws := s.draws + 1,
    ctrl := { Ctrl.reset with
      forces := s.ctrl.forces, flashA := s.ctrl.flashA, flashB := s.ctrl.flashB, selector := s.ctrl.selector },
    vax := { Vax.reset with retained := s.vax.retained },
    bill := { s.bill with saving := none, saves := 0, saveErrors := 0, ringFallbacks := 0 },
    nmod := { s.nmod with est := none, opt := none, calOpen := none, active := none } }
  let s := hifRestart s
  if listed then post 0x0101 0 (le 1 old.code ++ le 1 1 ++ le 1 0) 0 s else s

/-- MAIN_RESET: the pending reset begins and releases into BOOT (R557, R568); after a tamper release it stops metering abruptly
(R360). -/
def mainResetRow (banks : Vector W16 8) (s : State) : State :=
  match s.sys.resetPending with
  | some c => if mainRuns s && s.sys.mode != .holdup then mainReset c (bankLevels banks) (if c = 5 then abruptStop 4 s else s) else s
  | none => s

/-- RESET_N goes low (R557): metering stops abruptly with CAUSE 3 and the main domain is held in reset; HOLDUP and BACKUP go
on. -/
def resetN (s : State) : State :=
  let s := updPwr (fun p => { p with resetNLow := true }) s
  if s.sys.mode = .holdup ∨ s.sys.mode = .backup ∨ s.sys.inReset = true then s
  else
    let s := mainReset 2 s.pwr.ioBanks (abruptStop 3 s)
    updSys (fun x => { x with inReset := true }) s

/-- RESET_N_RELEASE: the main reset releases into BOOT (R557). PFW asserted by then enters HOLDUP (R547). -/
def resetNRelease (banks : Vector W16 8) (s : State) : State :=
  let s := updPwr (fun p => { p with resetNLow := false }) s
  if s.sys.inReset then
    let s := updPwr (fun p => { p with ioBanks := bankLevels banks }) (updSys (fun x => { x with inReset := false }) s)
    if s.pwr.pfw then enterHoldup none s else s
  else s

/-- BACKUP_EXIT: every main rail is within limits with PFW deasserted (R48, R550, R557). -/
def backupExit (banks : Vector W16 8) (s : State) : State :=
  if s.sys.mode = .backup ∧ s.pwr.resetNLow = false then
    updPwr (fun p => { p with pfw := false }) (mainReset (if s.pwr.alwaysOnFresh then 0 else 1) (bankLevels banks) s)
  else s

/-- ALWAYS_ON_RESET: VDD_CORE and VBAT were both absent, and one returns (R446, R527, R556). The main domain has lost its supply
and waits as in BACKUP; metering that ran then ended without a stop time (R365). -/
def alwaysOnReset (s : State) : State :=
  let s :=
    if meteringMode s then stopEngines (closeMram { s with bill := { s.bill with orderly := false } }) else closeMram s
  let s := periodsLost (rtcRestart s)
  hifRestart
    { s with
        sys := { s.sys with mode := .backup, inReset := false, trans := none, resetPending := none, triggers := [] },
        tamp := Tamp.reset,
        bill := { s.bill with stop := none },
        evr := { s.evr with heldPosts := [] },
        intg := { s.intg with ring := [] },
        vax := { s.vax with retained := none },
        pwr := { Pwr.reset with
          pfw := s.pwr.pfw, resetNLow := s.pwr.resetNLow, vddCore := s.pwr.vddCore, vddSoc := s.pwr.vddSoc, vddAna := s.pwr.vddAna,
          vbat := s.pwr.vbat, vbatLow := s.pwr.vbatLow, dieTemp := s.pwr.dieTemp, ioBanks := s.pwr.ioBanks } }

/-- SYS_RESET (R571). -/
def effSysReset (p : Bytes) (s : State) : CmdRes :=
  checked [(fld p 0 4 == 0x5AA5C33C, 0)]
    (.doneThen [] s fun s => updSys (fun x => { x with resetPending := some 3 }) (orderlyStop s))

/-! ### Clocks and supplies (R551, R552, R555, R560) -/

/-- A main PLL is locked: 0 PLL_SYS, 1 PLL_DDR. -/
def pllLock (s : State) (n : Nat) : Bool := if n = 0 then s.pwr.pllSysLock else s.pwr.pllDdrLock

/-- Its lock bit set. -/
def setPll (n : Nat) (v : Bool) (s : State) : State :=
  updPwr (fun p => if n = 0 then { p with pllSysLock := v } else { p with pllDdrLock := v }) s

/-- PLL_LOCK_LOSS (R555). -/
def pllLoss (n : Nat) (s : State) : State :=
  if mainRuns s && pllLock s n then
    updPwr (fun p => { p with pllLosses := p.pllLosses + 1, pllLost := vset p.pllLost n (some (monoUs s)) }) (setPll n false s)
  else s

/-- PLL_LOCK_TIMEOUT: a loss of more than 100 µs is a fault, DETAIL the lock bits at detection (R540, R555). -/
def pllTimeout (n : Nat) (s : State) : State :=
  if mainRuns s && !pllLock s n && (vget s.pwr.pllLost n none).any (fun t => decide (t + 100 < monoUs s)) then faultEntry 7 0x14 (le 1 (pwrState s / 2 % 4)) s else s

/-- PLL_LOCK_REGAINED (R555). -/
def pllRegained (n : Nat) (s : State) : State :=
  if mainRuns s then updPwr (fun p => { p with pllLost := vset p.pllLost n none }) (setPll n true s) else s

/-- The rate of the LPDDR4X interface in MT/s: 2,133 in REDUCED, otherwise as configured (R553). -/
def ddrRate (s : State) : Nat := if s.sys.mode = .reduced then 2133 else Config.ddrRate

/-- FLIGHT_WAKE: in REDUCED, flights 0 and 1 wake before the cut (R552). -/
def flightWake (s : State) : State := if mainRuns s && s.sys.mode == .reduced then wakeFlights 3 s else s

/-- FLIGHT_WAKE_END: a waking flight is IDLE, its local memory cleared (R551). -/
def flightWakeEnd (n : Nat) (s : State) : State :=
  if mainRuns s && vget s.pwr.flights n .off == .waking then clearLocal n (setFlights (2 ^ n) .idle s) else s

/-- SUPPLY_MEASUREMENT (R559, R560): mV, and the die temperature in 0.01 °C. -/
def supplyMeasure (core soc ana vbat : W16) (temp : W32) (s : State) : State :=
  if mainRuns s then
    updPwr
      (fun p => { p with
        vddCore := core, vddSoc := soc, vddAna := ana, vbat := vbat, dieTemp := temp, vbatLow := decide (vbat.toNat < 2200) }) s
  else s

end Sys2Proof.Machine
end

