-- ==== Sys2Proof/Machine/Boot.lean ====
section
/-! DEFINITION. The end of BOOT: what every block restores, verification and self-tests, the latch check, keys, and the mode
entered (R54, R66, R253, R362, R427, R428, R516, R540). -/

namespace Sys2Proof.Machine

/-- HOST_INTERFACE_START (R52). -/
def hostInterfaceStart (s : State) : State :=
  if s.sys.mode = .boot ∧ s.sys.inReset = false then { s with hif := { s.hif with up := true } } else s

/-- The verification code of a flash slot (R514). -/
def slotCode (s : State) (cls : Nat) (v : ImageSlot) (readable : Bool) : Nat :=
  match v with
  | .erased => 1
  | .factory => if readable then (if (imageOf s cls).counter = 0 then 0 else 6) else 2
  | .held im => imageCode s cls im readable true

/-- The first class with no verifiable image: DETAIL of cause 0x22 (R540). -/
def imageFault (s : State) (bad : Nat) : Option Bytes :=
  [7, 1, 2, 3, 4, 5, 6].findSome? fun cls =>
    let x := imageOf s cls
    let a := slotCode s cls x.slotA (slotReadable bad cls false)
    let b := slotCode s cls x.slotB (slotReadable bad cls true)
    if a ≠ 0 ∧ b ≠ 0 then some (le 1 cls ++ le 1 a ++ le 1 b) else none

/-- A failed self-test as a fault: cause and DETAIL. A PUF or TRNG failure arises only after the latch check, the latter only at
the first BOOT in ENROLLED (R497, R498). -/
def bootFault (s : State) (latched : Bool) : BootFault → Option (Nat × Nat × Bytes)
  | .otp w => some (0x25, 0x11, le 2 w.toNat)
  | .memory c => some (0x23, 0x15, le 1 c.val)
  | .ddr c => some (0x24, 0x15, le 1 c.toNat)
  | .selfTest e => some (0x26, 0x01, le 1 e.toNat)
  | .puf => if latched ∨ s.sec.root.isNone then none else some (0x20, 0x11, le 1 3)
  | .trng t => if latched ∨ s.sec.root.isSome ∨ s.sec.lifecycle = .blank then none else some (0x21, 0x11, le 1 t.toNat)

/-- A datum of the retention SRAM with a parity error is treated as absent, counted and recorded (R529, R531). -/
def retainedLost (s : State) (x : Retained × W32) : State :=
  let s := uncorrectable 9 0x14 x.2.toNat s
  match x.1 with
  | .axes => { s with vax := { s.vax with retained := none } }
  | .counts => restoreCounts s
  | .fault k => updIntg (fun i => { i with ring := i.ring.eraseIdx k.val }) s

/-- The boot ROM starts the flash port in 1S-1S-1S and goes on in the mode that the SFDP table declares, or in 1S-1S-1S if the table
cannot be read (R592). -/
def startFlash (sfdp : Option Bool) (s : State) : State :=
  updPwr (fun p => { p with flash := match sfdp with
    | some true => .octalDouble
    | some false => .octal
    | none => .single }) s

/-- The highest clock of the flash port in MHz (R592). -/
def flashClock (s : State) : Nat :=
  match s.pwr.flash with
  | .single => 25
  | .octal => 100
  | .octalDouble => 200

/-- Every block restores what it keeps (R253, R362, R364, R402, R428, R446, R482, R489, R522, R541). -/
def startBlocks (x : BootReport) (s : State) : State :=
  let s := copyFaults (x.lost.foldl retainedLost (startFlash x.sfdp s))
  let s := if s.pwr.alwaysOnFresh then restoreCounts s else s
  let s := recordBackupTamper s
  let s := rtcBoot s
  let s := timeBoot (ptpOfCal s) s
  let stop := match s.bill.stop with
    | some t => some t.1.sec
    | none => (chooseSlot s).map fun r => r.at_.sec
  let s := periodsBoot stop (billBoot x.badSlots s)
  let s := vaxBoot (sublBoot (nmodBoot (ctrlBoot s)))
  let s := epdBoot s
  let s := setPll 1 true (setPll 0 true s)
  { s with hif := { s.hif with up := true }, pwr := { s.pwr with alwaysOnFresh := false } }

/-- The mode in which BOOT ends and its cause (R54). -/
def bootTarget (s : State) : Mode × Nat :=
  let want := getP s 0x0111
  let m : Mode := match s.sec.lifecycle with
    | .blank => .commission
    | .enrolled | .sealed => (Mode.ofCode want).getD .safe
    | .returned => if want = 2 then .commission else .safe
    | .retired => .safe
  (m, if m.code = want then 0x0A else 0x0B)

/-- BOOT_END (R54, R66, R516, R540). -/
def bootEnd (x : BootReport) (s : State) : State :=
  if s.sys.mode ≠ .boot ∨ s.sys.inReset = true ∨ s.pair.listening.isSome = true then s else
  let latched := s.tamp.set_
  let bad := imageFault s x.badFlash.toNat
  let fault := x.fault.bind (bootFault s latched)
  let s := countBoot (startBlocks x (bootImages x.badFlash.toNat s).1)
  match bad, fault with
  | some d, _ => bootEnter .fault 6 (updSys (fun y => { y with triggers := [] }) (faultEntry 0x22 0x11 d s))
  | none, some (c, b, d) => bootEnter .fault 6 (updSys (fun y => { y with triggers := [] }) (faultEntry c b d s))
  | none, none =>
    if latched then bootEnter .lockdown 5 s
    else
      let s := bootKeys (x.pufReads.val + 1) s
      let (m, c) := bootTarget s
      if m = .run ∧ paired s = true then updPair (fun p => { p with listening := some (m, c), heard := false }) s
      else bootEnter m c s

/-- PAIR_LISTEN_END: 200 ms of listening end (R65, R66). R66 names no cause for the SHADOW that a heartbeat leads to, and the model
gives that of pair role resolution (log entry 101, DESIGN CHOICE). -/
def pairListenEnd (s : State) : State :=
  match s.pair.listening with
  | none => s
  | some (m, c) =>
    let heard := s.pair.heard
    let s := updPair (fun p => { p with listening := none, heard := false }) s
    if s.sys.mode = .boot then
      let s := timeBoot (ptpOfCal s) s
      if heard then bootEnter .shadow 0x0C s else bootEnter m c s
    else if heard then updPair (fun p => { p with toShadow := true }) s
    else if s.pair.gaveUp then drivePairOutput (updPair (fun p => { p with active := true, gaveUp := false }) s)
    else s

end Sys2Proof.Machine
end

