-- ==== Sys2Proof/Machine/Pair.lean ====
section
/-! DEFINITION. Hot standby: the takeover, and the messages of the pair link as the model lays them out (R58 to R67, R255,
R403; log entry 44 for the layouts). -/

namespace Sys2Proof.Machine

/-! ### Receiving (R60) -/

/-- A pair message of a type arrives with its content and tag: it is taken if the tag verifies under the pair key, and otherwise
discarded and counted. -/
def pairTaken (kind : Nat) (body tag : Bytes) (f : State → State) (s : State) : State :=
  if !paired s || !mainRuns s || !s.hif.up then s
  else if pairKeyed s && tag == pairTag s kind body then f s
  else updPair (fun p => { p with badTags := p.badTags + 1 }) s

/-- HEARTBEAT received (R64 to R67): what it says of the peer is kept, whatever the role of this device, and it restarts the takeover
timer. -/
def heartbeatRx (mode : Mode) (ret : Option Mode) (s : State) : State :=
  let s := updPair (fun p => { p with
    heard := p.heard || p.listening.isSome, lastMode := mode, lastReturn := ret, lastHeard := monoUs s, peer := true }) s
  if sendsHeartbeats s then
    post 0x0105 0 [] 0 (if getP s 0x0121 = 1 then updPair (fun p => { p with toShadow := true }) s else s)
  else s

/-- TAKEOVER: the timer expires and the shadow takes the active role, unless a higher trigger of the tick prevails (R45, R64). -/
def takeover (s : State) : State :=
  if s.sys.mode == .shadow && paired s && decide (s.pair.lastHeard + takeoverUs s ≤ monoUs s) then trigger .shadow 8 s else s

/-! ### The cut vector on the pair link (R60, R62) -/

/-- The bytes of a cut vector. -/
def cutBytes (v : CutVec) : Bytes :=
  le 8 v.round ++ le 6 v.at_.sec ++ le 4 v.at_.ns ++ le 2 v.pio.length ++ le 2 v.thermal.length ++ le 2 v.electrical.length ++
    le 2 v.subl.length ++ le 2 v.axes.length ++
    v.axes.flatMap (fun x => match x with
      | some o => le 1 1 ++ le 4 o
      | none => zeros 5) ++
    v.pio ++ v.thermal ++ v.electrical ++ v.subl.flatMap (fun x => fit 104 x.2)

/-- Bytes that a cut vector whose first part is `b` takes. -/
def cutLength (b : Bytes) : Nat := 28 + 5 * fld b 26 2 + fld b 18 2 + fld b 20 2 + fld b 22 2 + 104 * fld b 24 2

/-- A cut vector read back. -/
def cutParse (b : Bytes) : CutVec :=
  let na := fld b 26 2
  let o := 28 + 5 * na
  let np := fld b 18 2
  let nt := fld b 20 2
  let ne := fld b 22 2
  let es := (List.range (fld b 24 2)).map fun i => slice b (o + np + nt + ne + 104 * i) 104
  { round := fld b 0 8, at_ := ⟨fld b 8 6, fld b 14 4⟩, pio := slice b o np, thermal := slice b (o + np) nt,
    electrical := slice b (o + np + nt) ne,
    axes := (List.range na).map fun i => if fld b (28 + 5 * i) 1 = 1 then some (fld b (29 + 5 * i) 4) else none,
    subl := es.map fun e => (fld e 0 2, e), complete := true }

/-- The content of CUT_SEGMENT (R60). -/
def cutContent (round index : Nat) (part : Bytes) : Bytes := le 8 round ++ le 2 index ++ part

/-- The content of SHADOW_STATUS (R60). -/
def statusContent (qualified : Bool) (last : Nat) : Bytes := le 1 (b2n qualified) ++ le 8 last

/-- CUT_SEGMENT sent from the sealing of a cut vector, 1,408 bytes at a time (R60). -/
def sendCut (s : State) : State :=
  if paired s && s.pair.active then
    let b := cutBytes s.subl.cut
    (List.range (ceilDiv b.length 1408)).foldl
      (fun s i => sendPair 2 (cutContent s.subl.cut.round i (slice b (1408 * i) 1408)) s) s
  else s

/-- The parts of a round's cut vector in order, as far as they follow one another. -/
def joinSegments (l : List (Nat × Nat × Bytes)) (round : Nat) : Nat → Nat → Bytes
  | 0, _ => []
  | n + 1, i =>
    match l.find? fun x => x.1 == round && x.2.1 == i with
    | some x => x.2.2 ++ joinSegments l round n (i + 1)
    | none => []

/-- The mode whose rounds a device computes: in SHADOW that of the active device, as its last heartbeat gave it (R39, R62, R64). -/
def roundMode (s : State) : Mode := if s.sys.mode = .shadow then s.pair.lastMode else s.sys.mode

/-- An optimisation round starts at a cut whose seconds are a multiple of its period (R31, R40, R193). R40 names REDUCED, and in a
FALLBACK or LOCKDOWN entered from REDUCED the model uses the configured period as it stands (log entry 100, DESIGN CHOICE). -/
def optDue (s : State) (sec : Nat) : Bool :=
  let p := fld s.nmod.optCfg 0 2 * (if roundMode s = .reduced then getP s 0x0112 else 1)
  s.nmod.active.isSome && p != 0 && sec % p == 0

/-- A cut whose round number is not above that of the last round started starts none (R179). -/
def skipsRound (round : Nat) (s : State) : Bool := s.nmod.lastRound.any fun l => decide (round ≤ l)

/-- The rounds of a cut start (R178, R193), one still running having ended first. At a cut that starts no one-second round (R179) no
optimisation round is due under R31; on a model that has just become active one starts in any case (R130). -/
def startRounds (round sec : Nat) (s : State) : State :=
  let skip := skipsRound round s
  let due := (!skip && optDue s sec) || s.nmod.optExtra
  let s := if skip then s else afterEst (endRunningEst s)
  let s := if due then endRunningOpt s else s
  let s := { s with nmod := { s.nmod with optExtra := false, cutOpen := false } }
  let s := startEst round sec s
  if due then startOpt sec s else s

/-- CUT_SEGMENT received by the shadow: the round starts once its cut vector is complete (R62, R178). -/
def cutSegment (round index : Nat) (part : Bytes) (s : State) : State :=
  if s.sys.mode ≠ .shadow then s else
  let segs := (s.pair.segments.filter fun x => decide (round ≤ x.1) && !(x.1 == round && x.2.1 == index)) ++ [(round, index, part)]
  let s := updPair (fun p => { p with segments := segs }) s
  let b := joinSegments segs round segs.length 0
  if 28 ≤ b.length ∧ cutLength b ≤ b.length then
    let v := cutParse b
    let s := { updPair (fun p => { p with segments := p.segments.filter fun x => x.1 != round }) s with
      subl := { s.subl with cut := v, prevCut := s.subl.cut, sealedUs := monoUs s } }
    afterEst (resolveEst (startRounds v.round v.at_.sec s))
  else s

/-! ### STATE_SEGMENT (R60, R63) -/

/-- Numbers with their count first. -/
def putList (l : List Nat) : List Nat := l.length :: l

/-- A counted list read. -/
def getList (l : List Nat) : List Nat × List Nat :=
  match l with
  | [] => ([], [])
  | n :: t => (t.take n, t.drop n)

/-- Counted lists, `n` of them. -/
def getLists : Nat → List Nat → List (List Nat) × List Nat
  | 0, l => ([], l)
  | n + 1, l =>
    let (a, l) := getList l
    let (b, l) := getLists n l
    (a :: b, l)

/-- A counted list of counted lists. -/
def putLists (l : List (List Nat)) : List Nat := l.length :: l.flatMap putList

/-- Read back. -/
def getListList (l : List Nat) : List (List Nat) × List Nat :=
  match l with
  | [] => ([], [])
  | n :: t => getLists (min n t.length) t

/-- A plug as numbers. -/
def plugNums (p : Plug) : List Nat := p.vol :: p.temp :: p.exps.flatMap fun e => [e.1, e.2]

/-- Pairs of numbers. -/
def pairsOf : List Nat → List (Nat × Nat)
  | a :: b :: t => (a, b) :: pairsOf t
  | _ => []

/-- A plug read back. -/
def plugOf : List Nat → Plug
  | v :: t :: e => ⟨v, t, pairsOf e⟩
  | _ => ⟨0, 0, []⟩

/-- A series as numbers, and read back. -/
def seriesNums (x : Series) : List Nat := x.1 :: x.2.1 :: x.2.2.1 :: x.2.2.2.1 :: x.2.2.2.2
def seriesOfNums (l : List Nat) : Series := (nth l 0 0, nth l 1 0, nth l 2 0, nth l 3 0, l.drop 4)

/-- A trajectory as lists: its numbers, candidates, configuration and point, then its series, coefficients and steps. -/
def trajNums (t : Option Traj) : List (List Nat) :=
  match t with
  | some t =>
    [[t.status, t.start, t.dt, t.plants, t.stations, t.stores, t.objective, t.merit, t.primal, t.dual, t.gap, t.series.length,
        t.sens.length], t.crit, t.cfg.map (·.toNat), t.point.x, t.point.lam, t.point.zl, t.point.zu, t.point.sl, t.point.zi] ++
      t.series.map seriesNums ++ t.sens ++ t.steps
  | none => []

/-- A trajectory read back. -/
def trajOfNums (l : List (List Nat)) : Option Traj :=
  if l.length < 9 then none else
  let h := nth l 0 []
  let n := nth h 11 0
  let k := nth h 12 0
  let rest := l.drop 9
  some
    { status := nth h 0 0, start := nth h 1 0, dt := nth h 2 0, plants := nth h 3 0, stations := nth h 4 0, stores := nth h 5 0,
      objective := nth h 6 0, merit := nth h 7 0, primal := nth h 8 0, dual := nth h 9 0, gap := nth h 10 0,
      crit := nth l 1 [], cfg := (nth l 2 []).map (BitVec.ofNat 8),
      point := ⟨nth l 3 [], nth l 4 [], nth l 5 [], nth l 6 [], nth l 7 [], nth l 8 []⟩,
      series := (rest.take n).map seriesOfNums, sens := (rest.drop n).take k, steps := rest.drop (n + k) }

/-- The instance data of the running image as numbers: engine, address, then the bytes, of each instance. -/
def instanceNums (s : State) : List (List Nat) :=
  match s.ctrl.running with
  | some b => b.insts.map fun i => i.engine :: i.addr :: (Memory.reads (engOf s i.engine).data i.addr i.size).map (·.toNat)
  | none => []

/-- STATE_SEGMENT: warm-start vectors, trajectory, task instance data, as 8-byte numbers (R60). -/
def stateBytes (s : State) : Bytes :=
  let n := s.nmod.net
  (putList n.pres ++ putList n.temp ++ putList n.flow ++ putList n.adv ++
    (n.plugs.length :: n.plugs.flatMap fun p => putLists (p.map plugNums)) ++ putLists n.cells ++
    putLists (trajNums s.nmod.traj.now) ++ putLists (instanceNums s)).flatMap (le 8)

/-- Plug lists, `n` of them. -/
def getPlugs : Nat → List Nat → List (List Plug) × List Nat
  | 0, l => ([], l)
  | n + 1, l =>
    let (a, l) := getListList l
    let (b, l) := getPlugs n l
    (a.map plugOf :: b, l)

/-- The 8-byte numbers of a message. -/
def numsOf (b : Bytes) : List Nat := (List.range (b.length / 8)).map fun i => fld b (8 * i) 8

/-- STATE_SEGMENT applied by the shadow; it may then qualify again (R63). -/
def stateSegment (b : Bytes) (s : State) : State :=
  if s.sys.mode ≠ .shadow then s else
  let l := numsOf b
  let (pres, l) := getList l
  let (temp, l) := getList l
  let (flow, l) := getList l
  let (adv, l) := getList l
  let (plugs, l) := match l with
    | n :: t => getPlugs (min n t.length) t
    | [] => ([], [])
  let (cells, l) := getListList l
  let (traj, l) := getListList l
  let (insts, _) := getListList l
  let s := { s with nmod := { s.nmod with
    net := { s.nmod.net with pres := pres, temp := temp, flow := flow, plugs := plugs, cells := cells, adv := adv }, traj := .both (trajOfNums traj) } }
  let s := insts.foldl (fun s i => match i with
    | e :: a :: d =>
      let x := engOf s e
      if e < 2 then setEng e { x with data := Memory.writes x.data a (d.map (BitVec.ofNat 8)) } s else s
    | _ => s) s
  updPair (fun p => { p with resynced := true, matched := [] }) s

/-- STATE_SEGMENT goes out with the cut after RESYNC_REQUEST (R60). -/
def sendState (s : State) : State :=
  if s.pair.owesState && s.pair.active then
    sendPair 7 (stateBytes s) (updPair (fun p => { p with owesState := false }) s)
  else s

/-! ### The other messages -/

/-- RESYNC_REQUEST received by the active device (R60). -/
def resyncRequest (s : State) : State :=
  if s.pair.active then updPair (fun p => { p with owesState := true }) s else s

/-- SHADOW_STATUS received by the active device (R60). -/
def shadowStatus (qualified : Bool) (s : State) : State :=
  if s.pair.active then updPair (fun p => { p with peerQualified := qualified }) s else s

/-- SHADOW_STATUS_SEND, once per second (R60). -/
def shadowStatusSend (s : State) : State :=
  if s.sys.mode = .shadow then sendPair 8 (statusContent s.pair.qualified s.pair.lastMatch) s else s

/-- DIGEST received: compared with the own digest when both are there (R63). -/
def digestRx (kind round : Nat) (d : Bytes) (s : State) : State :=
  updPair (fun p => { p with peerDigests := ((kind, round, d) :: p.peerDigests).take 32 }) s

/-- The digest of the output images that a round period published (R63). -/
def imagesDigest (round : Nat) (s : State) : State :=
  if paired s then updPair (fun p => { p with images := [] }) (sendDigest 2 round s.pair.images s) else s

/-! ### The cut (R28 to R31, R35, R127, R178, R193, R217, R227) -/

/-- The openings that the cut vector carries: of the axes whose position is known (R404). -/
def cutAxes (s : State) : List (Option Nat) :=
  s.vax.axes.toList.zipIdx.map fun x => if x.1.homed && !x.1.unverified then some (opening s x.2 x.1) else none

/-- CUT: in the first tick of a second that is a multiple of the round period (R28). A second that comes again after a backward step of
the clock has its cut again (R179). -/
def cut (s : State) : State :=
  let sec := ptpSec s
  let this := (s.time.steps.toNat, sec)
  if !mainRuns s || s.sys.mode == .boot || s.sys.mode == .holdup || s.subl.lastCut == some this || sec % estPeriod s != 0 then s else
  let s := takeConfigs sec { s with subl := { s.subl with lastCut := some this } }
  let round := sec / estPeriod s
  let s := applyBoundary .cut (takeSample s)
  let s := freezeReports (publishPage2 round (publishPage0 round s))
  let s := if s.sys.mode = .shadow then s else
    { s with subl := { s.subl with
      prevCut := s.subl.cut,
      cut := { round := round, at_ := ⟨sec, 0⟩, pio := latchBuffer s, thermal := s.mth.page0.now, electrical := s.mel.page2.now,
               axes := cutAxes s, subl := [], complete := false } } }
  let s := readWindow iConcourse 544 (readWindow iConcourse 1056 s)
  let s := imagesDigest (round - 1) (sublOps s)
  let s := cutTransitions s
  let s := if roundsRun s && !skipsRound round s then afterEst (endRunningEst s) else s
  let s := if s.sys.mode = .fault then s else (activateAt sec s).1
  let s :=
    if roundsRun s then
      calibCut
        (if s.sys.mode = .shadow then { s with nmod := { s.nmod with cutOpen := !skipsRound round s } }
        else if monoUs s < s.sys.coresUntil then { s with nmod := { s.nmod with optExtra := false } }
        else startRounds round sec s)
    else { s with nmod := { s.nmod with optExtra := false } }
  gateFlights (sendState s)

/-- CUT_VECTOR_SEAL (R238): the vector is complete, and the round resolves its bindings (R180). -/
def cutSeal (s : State) : State :=
  if s.subl.cut.complete || s.sys.mode == .shadow || !mainRuns s || s.subl.cut.pio.isEmpty then s
  else afterEst (resolveEst (sendCut (sealCut s)))

end Sys2Proof.Machine
end

