-- ==== Sys2Proof/Machine/Flags.lean ====
section
/-! DEFINITION. The value that each parameter reads: the status words, counts and identifiers of the read-only parameters of
every block, and the value in effect of the others (R33, R572), and the body of SYS_STATUS (R569). -/

namespace Sys2Proof.Machine

/-- The class of firmware image of a block (*Firmware of each block*). -/
def blockImageClass (b : Nat) : Nat :=
  if b = 0x06 then 2 else if 0x07 ≤ b ∧ b ≤ 0x09 then 3 else if b = 0x05 then 4 else if b = 0x0B then 5
  else if b = 0x0F then 6 else if b = 0x11 ∨ b = 0x12 then 7 else 1

/-- BLOCK_VERSION: silicon step A, and the build of the running image (R33). -/
def blockVersion (s : State) (b : Nat) : Nat := 0x10000 + (imageOf s (blockImageClass b)).version.toNat % 65536

/-- BLOCK_STATE: 2 while the block's engine restarts, else whether the block runs in the current mode (R33). -/
def blockState (s : State) (b : Nat) : Nat :=
  let runs := match b with
    | 0x03 => roundsRun s
    | 0x04 => roundsRun s
    | 0x05 => sublRuns s
    | 0x06 => tasksExecute s
    | 0x07 => meteringMode s
    | 0x08 => meteringMode s
    | 0x09 => meteringMode s
    | 0x0A => pioRuns s
    | 0x0B => vaxRuns s
    | 0x0C => switchRuns s
    | 0x0D => timeRuns s
    | 0x0F => epdRuns s
    | _ => mainRuns s
  if runs && s.intg.restarting.any fun r => r.1 == b && decide (monoUs s < r.2) then 2 else b2n runs

/-- The common indices of R33. -/
def commonParam (s : State) (b i : Nat) : Nat :=
  match i with
  | 0 => blockVersion s b
  | 1 => blockState s b
  | 2 => blockEvents s b
  | _ => tableGet (fun _ => 0) s.intg.blockErrors b

/-- A read-only parameter of SYS (R43, R58). -/
def sysParam (s : State) (i : Nat) : Nat :=
  match i with
  | 0x10 => modeState s
  | 0x13 => s.sys.modeChanges.toNat
  | 0x27 => pairState s
  | _ => 0

/-- A read-only parameter of HIF (R104). -/
def hifParam (s : State) (i : Nat) : Nat :=
  match i with
  | 0x17 => xspiStatus s
  | 0x20 => s.hif.xspiDropped.toNat
  | 0x21 => s.hif.udpDropped.toNat
  | 0x22 => s.hif.uartDropped.toNat
  | 0x23 => s.hif.crcErrors.toNat
  | 0x24 => s.hif.sequenceErrors.toNat
  | 0x25 => s.hif.creditOverruns.toNat
  | 0x26 => s.hif.authFailures.toNat
  | 0x27 => s.hif.creditDiscrepancies.toNat
  | _ => 0

/-- A read-only parameter of EVR (R492). -/
def evrParam (s : State) (i : Nat) : Nat :=
  match i with
  | 0x10 => s.evr.logSeq.toNat
  | 0x11 => metroFree s
  | 0x12 => s.evr.logOverwritten.toNat
  | 0x13 => s.evr.auditOverwritten.toNat
  | 0x14 => s.evr.metroOverflow.toNat
  | 0x15 => s.evr.stagingFull.toNat
  | _ => 0

/-- A read-only parameter of MTH (R331). -/
def mthParam (s : State) (i : Nat) : Nat :=
  if 0x10 ≤ i ∧ i ≤ 0x8F then
    let c := (i - 0x10) / 8
    if i % 8 = 6 then chStatus s c else if i % 8 = 7 then (vget s.mth.chans c MthChan.reset).rejected.toNat else 0
  else if i = 0x90 then s.mth.framesLost.toNat
  else if i = 0x91 then s.mth.refExcluded.toNat else 0

/-- A read-only parameter of MEL (R354). -/
def melParam (s : State) (i : Nat) : Nat :=
  if 0x40 ≤ i ∧ i ≤ 0x5F then
    let k := (i - 0x40) / 8
    match i % 8 with
    | 4 => sysStatusOf s k
    | 5 => frequencyMhz (melSys s k)
    | 6 => (melSys s k).cycles.toNat
    | _ => 0
  else if i = 0x60 then s.mel.paritySubstituted.toNat
  else if i = 0x61 then s.mel.forcedCycles.toNat else 0

/-- A read-only parameter of BILL (R372). -/
def billParam (s : State) (i : Nat) : Nat :=
  match i with
  | 0x11 => billStatus s
  | 0x12 => s.bill.changeCounter.toNat
  | 0x13 => s.bill.gapCount.toNat
  | 0x14 => s.bill.saves.toNat
  | 0x15 => s.bill.saveErrors.toNat
  | 0x16 => s.bill.ringFallbacks.toNat
  | 0x17 => metroVersion s
  | _ => 0

/-- A read-only parameter of PIO (R386), PIO_FAULT among them. -/
def pioParam (s : State) (i : Nat) : Nat :=
  match i with
  | 0x98 => s.pio.fault.toNat
  | 0x99 => s.pio.samples.toNat
  | _ => 0

/-- A read-only parameter of VAX (R413). -/
def vaxParam (s : State) (i : Nat) : Nat :=
  match i with
  | 0x90 => s.vax.stalls.toNat
  | 0x91 => s.vax.driveFaults.toNat
  | 0x92 => s.vax.homings.toNat
  | _ => 0

/-- A read-only parameter of ETH (R440). -/
def ethParam (s : State) (i : Nat) : Nat :=
  if 0x14 ≤ i ∧ i ≤ 0x17 then portStatus s (i - 0x14)
  else if 0x40 ≤ i ∧ i ≤ 0x43 then (vget s.eth.rxErrors (i - 0x40) 0).toNat
  else if 0x44 ≤ i ∧ i ≤ 0x48 then (vget s.eth.queueDrops (i - 0x44) 0).toNat
  else if i = 0x49 then s.eth.vlanDrops.toNat else 0

/-- A read-only parameter of TIME (R441). -/
def timeParam (s : State) (i : Nat) : Nat :=
  match i with
  | 0x16 => utcCurrent s
  | 0x17 => timeState s
  | 0x18 => s.clock.increment
  | 0x19 => unsgn 32 (satInt 32 s.time.offset)
  | 0x1A => s.time.pathDelay % 2 ^ 32
  | 0x1B => s.time.steps.toNat
  | 0x1C => s.time.missed.toNat
  | _ => 0

/-- A parameter of RTC that follows the calendar, RTC_STATUS among them (R460). -/
def rtcParam (s : State) (i : Nat) : Nat :=
  if 0x40 ≤ i ∧ i ≤ 0x50 then unsgn 32 (vget s.rtc.learned (i - 0x40) 0)
  else match i with
    | 0x10 => rtcDate s
    | 0x11 => rtcTime s
    | 0x12 => rtcSubsec s
    | 0x14 => rtcStatus s
    | 0x15 => fld (vget s.rtc.alarms 0 []) 0 8
    | 0x16 => fld (vget s.rtc.alarms 1 []) 0 8
    | 0x17 => s.rtc.adjustments.toNat
    | 0x1A => unsgn 32 (trimApplied s)
    | 0x1B => unsgn 32 s.rtc.temp
    | _ => 0

/-- A read-only parameter of EPD (R479). -/
def epdParam (s : State) (i : Nat) : Nat :=
  match i with
  | 0x12 => epdStatus s
  | 0x14 => unsgn 32 (panelTemp s)
  | 0x15 => s.epd.updates.toNat
  | 0x16 => s.epd.superseded.toNat
  | 0x17 => s.epd.bandDrifts.toNat
  | 0x18 => s.epd.crcErrors.toNat
  | 0x19 => s.epd.crcRef.toNat
  | _ => 0

/-- A read-only parameter of SUBL (R244). -/
def sublParam (s : State) (i : Nat) : Nat :=
  let u := s.subl
  match i with
  | 0x17 => u.entries.length
  | 0x18 => bufferState s
  | 0x19 => u.foreign.toNat
  | 0x1A => u.retrySuppressed.toNat
  | 0x20 => u.totals.received.toNat
  | 0x21 => u.totals.accepted.toNat
  | 0x22 => u.totals.duplicate.toNat
  | 0x23 => u.totals.full.toNat
  | 0x24 => u.totals.auth.toNat
  | 0x25 => u.totals.stale.toNat
  | 0x26 => u.setTotals.issued.toNat
  | 0x27 => u.setTotals.confirmed.toNat
  | 0x28 => u.setTotals.expired.toNat
  | 0x29 => u.setTotals.late.toNat
  | 0x2A => u.setTotals.rejected.toNat
  | 0x2B => u.withheld.toNat
  | _ => 0

/-- The read-only parameters and the flags cleared by writing 1, by block. -/
def blockParam (s : State) (b i : Nat) : Nat :=
  match b with
  | 0x01 => sysParam s i
  | 0x02 => hifParam s i
  | 0x03 => solvParam s i
  | 0x04 => nmodParam s i
  | 0x05 => sublParam s i
  | 0x06 => ctrlParam s i
  | 0x07 => mthParam s i
  | 0x08 => melParam s i
  | 0x09 => billParam s i
  | 0x0A => pioParam s i
  | 0x0B => vaxParam s i
  | 0x0C => ethParam s i
  | 0x0D => timeParam s i
  | 0x0E => rtcParam s i
  | 0x0F => epdParam s i
  | 0x10 => evrParam s i
  | 0x11 => secParam s i
  | 0x12 => tampParam s i
  | 0x13 => intgParam s i
  | 0x14 => pwrParam s i
  | _ => 0

/-- The value a parameter reads at an instant (R572). -/
def paramValue (s : State) (id : Nat) : Nat :=
  if id % 256 < 4 then commonParam s (id / 256) (id % 256)
  else match pinfo id with
    | some q => if q.rw = 0 ∧ q.am = 0 then blockParam s (id / 256) (id % 256) else getP s id
    | none => 0

/-- The tags EXECUTING (R569). -/
def tagsExecuting (s : State) : Nat := (executing s).length

/-- SYS_STATUS body (R569). In BOOT, TIME, NMOD, CTRL and the metrology engine have not started and their values read 0 (log
entry 61). -/
def sysStatusBody (tr : Transport) (s : State) : Bytes :=
  let up := s.sys.mode != .boot
  let v (n : Nat) : Nat := if up then n else 0
  let l := linkOf s tr
  let flags := 64 * b2n (paired s && s.pair.active) + 32 * b2n (paired s) + 16 * b2n s.tamp.set_ + 8 * b2n (up && servoLocked s) +
    4 * b2n l.session.isSome + 2 * b2n l.unsync + b2n s.sys.trans.isSome
  fit 16 s.sec.deviceId ++ le 1 s.sec.grade ++ le 1 s.sys.mode.code ++ le 1 s.sec.lifecycle.code ++ le 1 flags ++
    le 4 (modeState s) ++ le 6 (v (ptpSec s)) ++ zeros 2 ++ le 4 (v (ptpNs s)) ++ le 1 (v s.time.servo.code) ++
    le 1 (pairState s) ++ le 2 (tagsExecuting s) ++ le 4 s.sec.bootCount.toNat ++ le 4 (v (roundState s)) ++
    le 4 (v (nmodParam s 0x30)) ++ le 4 (v (nmodParam s 0x31)) ++ le 4 (v (ctrlParam s 0x11)) ++ le 4 (v (ctrlParam s 0x12)) ++
    le 4 (imageOf s 1).version.toNat ++ le 4 (v (metroVersion s)) ++ le 4 (v s.bill.changeCounter.toNat) ++
    le 4 (v s.ctrl.forces.length) ++ le 4 s.intg.faultCount.toNat ++ le 4 (intgState s / 256 % 256) ++ zeros 8

end Sys2Proof.Machine
end

