-- ==== Sys2Proof/Machine/ParamCmd.lean ====
section
/-! DEFINITION. PARAM_READ and PARAM_WRITE: the ranges of every parameter, the checks in payload order, the authorisation that
the entries require, and how a written value is stored and takes effect (R9 to R11, R33 to R35, R331, R352, R572 to R576). -/

namespace Sys2Proof.Machine

/-! ### Ranges -/

/-- A number within bounds. -/
def between (v lo hi : Nat) : Bool := decide (lo ≤ v) && decide (v ≤ hi)

/-- A signed 32-bit number within bounds. -/
def betweenI (v : Nat) (lo hi : Int) : Bool := decide (lo ≤ sgn 32 v) && decide (sgn 32 v ≤ hi)

/-- A VLAN's entry names a 10BASE-T1L port as a member (R59). `look` gives the resulting value of a parameter. -/
def vlanOnT1l (look : Nat → Nat) (vid : Nat) : Bool :=
  (List.range 32).any fun k =>
    let e := look (0x0C20 + k)
    bits e 11 0 == vid && (bit e 12 || bit e 13)

/-- SYS (R43, R58, R59). -/
def sysRange (look : Nat → Nat) (i v : Nat) : Bool :=
  match i with
  | 0x11 => v == 2 || v == 3 || v == 5 || v == 8
  | 0x12 => between v 1 12
  | 0x20 => between v 0 1 && !(v == 1 && vlanOnT1l look (look 0x0122))
  | 0x21 => between v 0 1
  | 0x22 => between v 1 4094
  | 0x24 => decide (v / 16 ≤ 1)
  | 0x25 => between v 500 20000
  | 0x26 => between v 0 23 || v == 0xFF
  | _ => true

/-- HIF (R104). -/
def hifRange (i v : Nat) : Bool :=
  match i with
  | 0x10 => decide (v / 256 ≤ 128) && decide (v % 256 ≤ 32) && decide (v / 256 + v % 256 ≤ 192)
  | 0x11 => between v 1 65535
  | 0x13 => between v 1 4094
  | 0x14 => [115200, 230400, 460800, 921600, 1000000, 1500000, 2000000, 3000000].contains v
  | 0x15 => between v 10 86400
  | 0x16 => between v 0 1000
  | _ => true

/-- NMOD (R136). -/
def nmodRange (i v : Nat) : Bool :=
  match i with
  | 0x38 => between v 0 1
  | 0x39 => between v 0 1439
  | 0x3A => between v 1 600
  | 0x3B => between v 0 1000000
  | 0x3C => between v 1 10000000
  | _ => true

/-- SUBL (R244): SLOT_GUARD stays below SLOT_WINDOW. -/
def sublRange (look : Nat → Nat) (i v : Nat) : Bool :=
  match i with
  | 0x10 => between v 1 65535
  | 0x11 => between v 1 4094
  | 0x12 => between v 10000 10000000 && decide (look 0x0513 < v)
  | 0x13 => between v 1000 100000 && decide (v < look 0x0512)
  | 0x14 => between v 1000 600000
  | 0x15 => between v 10 10000
  | 0x16 => between v 1 3600
  | _ => true

/-- MTH (R331). -/
def mthRange (i v : Nat) : Bool :=
  match i % 8 with
  | 0 => v % 4 != 3
  | 1 => between v 0x1999999A 0x000F424000000000
  | 2 => between v 150000 4000000
  | 3 => betweenI v (-5000) 5000
  | 4 => betweenI v (-5000) 5000
  | 5 => between v 10 1000
  | _ => true

/-- MEL (R354): V_NOM stays between 0.7 × V_FS of its system. -/
def melRange (look : Nat → Nat) (i v : Nat) : Bool :=
  if i < 0x40 then (if i % 2 = 0 then between v 0x20000000 0x7FFFFFFF else betweenI v (-16384) 16383)
  else match i % 8 with
    | 0 => bits v 13 11 != 0 && between (v % 256) 10 90
    | 1 => between v 1000 1000000000 && decide (10 * look (0x0800 + i + 2) ≤ 7 * v)
    | 2 => between v 10 100000000
    | 3 => decide (1000 ≤ v) && decide (10 * v ≤ 7 * look (0x0800 + i - 2))
    | _ => true

/-- AIN_SCALE is in the range of a MODE (R386). -/
def scaleOk (mode v : Nat) : Bool :=
  match mode with
  | 1 => between v 10000 500000
  | 2 => between v 1000 100000
  | _ => between v 1000 500000

/-- PIO (R386). `written` tells whether the same command writes a parameter: a command that writes both AIN_CONFIG and
AIN_SCALE is judged at AIN_SCALE. -/
def pioRange (look : Nat → Nat) (written : Nat → Bool) (i v : Nat) : Bool :=
  if 0x10 ≤ i ∧ i ≤ 0x4F then
    match i % 4 with
    | 0 => decide (v % 8 ≤ 3) && decide (v / 256 ≤ 5) && (written (0x0A00 + i + 3) || scaleOk (v % 8) (look (0x0A00 + i + 3)))
    | 1 => true
    | 2 => fcmp f32 v (look (0x0A00 + i - 1)) != some .eq
    | _ => scaleOk (look (0x0A00 + i - 3) % 8) v
  else if 0x50 ≤ i ∧ i ≤ 0x6F then decide (v / 65536 ≤ 10000)
  else if 0x70 ≤ i ∧ i ≤ 0x87 then between (v / 65536) 1 10000 && v % 4 != 3
  else if 0x88 ≤ i ∧ i ≤ 0x97 ∧ i % 2 = 0 then between v 2500 250000000
  else true

/-- VAX (R413). -/
def vaxRange (look : Nat → Nat) (i v : Nat) : Bool :=
  let base := 0x0B00 + (i - i % 16)
  match i % 16 with
  | 0 => between (v / 2 ^ 24) 60 170 && bits v 19 18 != 3 && bits v 17 16 != 3 && bits v 15 14 != 3
  | 1 => between v 50 8000
  | 2 => decide (v ≤ look (base + 1))
  | 3 => between v 256 1024000
  | 4 => between v 256 16384000
  | 5 => between v 256 2147483647
  | 6 => between v 256 16384000
  | 7 => between v 0 25600
  | 9 => v != look (base + 8)
  | 10 => between v 10 100000
  | 11 => between v 10 1000000
  | 12 => v / 2 ^ 30 != 3 && decide (1 ≤ v % 65536)
  | 14 => between v 1024 2147483647
  | 15 => between (v / 65536) 100 20000 && between (v % 65536) 100 10000
  | _ => true

/-- ETH (R440). A VID is unique among the entries. -/
def ethRange (look : Nat → Nat) (i v : Nat) : Bool :=
  if 0x10 ≤ i ∧ i ≤ 0x13 then between (v / 2 ^ 20) 1 4094 && (if i ≤ 0x11 then bits v 10 9 == 0 else !bit v 8)
  else if 0x18 ≤ i ∧ i ≤ 0x19 then v == 0
  else if 0x1A ≤ i ∧ i ≤ 0x1B then decide (v / 65536 ≤ 2000) && decide (v % 65536 ≤ 2000)
  else if 0x1C ≤ i ∧ i ≤ 0x1F then betweenI v (-100000) 100000
  else if 0x20 ≤ i ∧ i ≤ 0x3F then
    decide (bits v 11 0 ≤ 4094) &&
      (bits v 11 0 == 0 || (List.range 32).all fun k => 0x20 + k == i || bits (look (0x0C20 + k)) 11 0 != bits v 11 0)
  else true

/-- TIME (R441). -/
def timeRange (i v : Nat) : Bool :=
  match i with
  | 0x10 =>
    decide (v / 2 ^ 24 ≤ 127) && decide (-4 ≤ sgn 4 (v / 2 ^ 20)) && decide (sgn 4 (v / 2 ^ 20) ≤ 1) && bits v 15 14 != 3 &&
      bits v 11 10 != 3
  | 0x12 => between v 1 1000000
  | 0x13 => between v 50 100000
  | 0x14 => between v 1 500
  | 0x15 => bits v 17 16 != 3
  | _ => true

/-- RTC (R460). -/
def rtcRange (i v : Nat) : Bool :=
  match i with
  | 0x13 => decide (-720 ≤ sgn 16 v) && decide (sgn 16 v ≤ 840) && sgn 16 v % 15 == 0
  | 0x18 => between v 100 1000000
  | 0x19 => betweenI v (-200000) 200000
  | _ => true

/-- EPD (R479). -/
def epdRange (i v : Nat) : Bool :=
  match i with
  | 0x10 =>
    let h := bits v 31 20
    let w := bits v 19 8
    (h == 0 || between h 128 1200) && (w == 0 || (between w 256 1600 && w % 8 == 0)) && decide (5 ≤ bits v 7 4)
  | 0x11 => v % 4 != 3
  | 0x13 => between v 1 3600
  | _ => true

/-- EVR (R483, R492). -/
def evrRange (look : Nat → Nat) (i v : Nat) : Bool :=
  if i = 0x16 then between v 0 1000
  else if i = 0x17 then between v 1 1000
  else if 0x20 ≤ i ∧ i ≤ 0x2F then
    let c := v / 65536
    decide (v % 65536 ≤ 1000) &&
      (c == 0 ||
        ((eventClass c == some 0 || eventClass c == some 1) && c != 0x1301 &&
          (List.range 16).all fun k => 0x20 + k == i || look (0x1020 + k) / 65536 != c))
  else if 0x40 ≤ i ∧ i ≤ 0x5F then
    decide (v % 16 ≤ 7) &&
      decide (bits v 11 8 ≤ (match v % 16 with
        | 2 => 3
        | 3 => 7
        | 4 => 3
        | _ => 0))
  else if 0x60 ≤ i ∧ i ≤ 0x7F then flt f32 v (look (0x1000 + i + 0x20))
  else true

/-- TAMP (R521): in SEALED and RETURNED bits 4 to 6 are not cleared. -/
def tampRange (s : State) (v : Nat) : Bool :=
  !(s.sec.lifecycle == .sealed || s.sec.lifecycle == .returned) ||
    [4, 5, 6].all fun k => bit v k || !bit (getP s 0x1210) k

/-- A value lies in the range its table gives, `look` being the resulting value of any parameter. -/
def rangeOk (s : State) (look : Nat → Nat) (written : Nat → Bool) (id v : Nat) : Bool :=
  let i := id % 256
  match id / 256 with
  | 0x01 => sysRange look i v
  | 0x02 => hifRange i v
  | 0x04 => nmodRange i v
  | 0x05 => sublRange look i v
  | 0x06 => between v 100 50000
  | 0x07 => mthRange i v
  | 0x08 => melRange look i v
  | 0x09 => between v 1 60
  | 0x0A => pioRange look written i v
  | 0x0B => vaxRange look i v
  | 0x0C => ethRange look i v
  | 0x0D => timeRange i v
  | 0x0E => rtcRange i v
  | 0x0F => epdRange i v
  | 0x10 => evrRange look i v
  | 0x12 => tampRange s v
  | 0x13 => if i = 0x12 then between v 60 86400 else true
  | 0x14 => between v 0 1
  | _ => true

/-! ### The entries of a PARAM_WRITE -/

/-- A parameter entry as received: PARAM_ID, WIDTH, its reserved byte and VALUE. -/
structure PEntry where
  id : Nat
  width : Nat
  res : Nat
  value : Nat
  deriving DecidableEq, Repr

/-- Entry `k` of a payload. -/
def entryAt (p : Bytes) (k : Nat) : PEntry :=
  let o := 4 + 12 * k
  ⟨fld p o 2, fld p (o + 2) 1, fld p (o + 3) 1, fld p (o + 4) 8⟩

/-- The entries as received: COUNT of them, at most as many as the payload holds. -/
def entriesOf (p : Bytes) : List PEntry := (List.range (min (fld p 0 2) ((p.length - 4) / 12))).map (entryAt p)

/-- The blocks whose writes a paired device logs (R575). -/
def loggedBlock (b : Nat) : Bool := b == 0x04 || b == 0x05 || b == 0x06 || b == 0x0A || b == 0x0B

/-- The VALUE that a write of a parameter holds, by its WIDTH. -/
def PEntry.val (e : PEntry) : Nat := if (pinfo e.id).any fun q => q.width == 8 then e.value else e.value % 2 ^ 32

/-- An entry changes an AM field, judged against its resulting value (R11). -/
def PEntry.changesAm (s : State) (e : PEntry) : Bool :=
  match pinfo e.id with
  | some q => Nat.land e.val q.am != Nat.land (resultingP s e.id) q.am
  | none => false

/-- A parameter has a field that a write can change. -/
def PInfo.writable (q : PInfo) : Bool := q.rw != 0 || q.am != 0 || q.w1c != 0

/-- Every bit that is neither RW, AM, W1C nor RO is 0 (R10). -/
def PInfo.reservedOk (q : PInfo) (v : Nat) : Bool :=
  Nat.land v (2 ^ (8 * q.width) - 1 - Nat.lor (Nat.lor q.rw q.am) (Nat.lor q.w1c q.ro)) == 0

/-- The value stored: RW and AM fields as written, RO fields kept (R9). -/
def PInfo.merge (q : PInfo) (old v : Nat) : Nat := Nat.lor (Nat.land v (Nat.lor q.rw q.am)) (Nat.land old q.ro)

/-- The value of a parameter that results from a write: the entry of the same command, the value last written, or the value
in effect (R244, R354, R386). -/
def lookup (s : State) (es : List PEntry) (id : Nat) : Nat :=
  match es.find? fun e => e.id == id with
  | some e => e.val
  | none => resultingP s id

/-- The level that a PARAM_WRITE requires (R574). -/
def paramLevel (s : State) (p : Bytes) : Nat :=
  let es := entriesOf p
  if es.any fun e => e.changesAm s then 3
  else if !es.isEmpty && es.all fun e => (pinfo e.id).any fun q => q.rw == 0 && q.am == 0 && q.w1c != 0 then 1
  else 2

/-- A PARAM_WRITE is logged (R575). -/
def paramLogged (p : Bytes) : Bool := !(entriesOf p).isEmpty && (entriesOf p).all fun e => loggedBlock (e.id / 256)

/-- The checks of an entry, in payload order (R573). -/
def entryChecks (s : State) (es : List PEntry) (k : Nat) (e : PEntry) : List (Bool × Nat) :=
  let o := 4 + 12 * k
  let info := pinfo e.id
  let first := es.head?.elim 0 (·.id)
  [(info.any fun q => q.writable, o),
   ((es.take k).all fun x => x.id != e.id, o),
   (loggedBlock (e.id / 256) == loggedBlock (first / 256), o),
   (!e.changesAm s || (decide (256 ≤ metroFree s) && s.bill.changeCounter != 0xFFFFFFFF), o),
   (info.any fun q => q.width == e.width, o + 2),
   (e.res == 0, o + 3),
   (info.any (fun q => decide (e.value < 2 ^ (8 * q.width)) && q.reservedOk e.val) &&
      rangeOk s (lookup s es) (fun id => es.any fun x => x.id == id) e.id e.val, o + 4)]

/-- The checks of a PARAM_WRITE (R573). -/
def paramChecks (s : State) (p : Bytes) : List (Bool × Nat) :=
  let n := fld p 0 2
  let es := entriesOf p
  [(between n 1 16 && p.length == 4 + 12 * n, 0), (fld p 2 2 == 0, 2)] ++
    (es.zipIdx.flatMap fun x => entryChecks s es x.2 x.1)

/-! ### Storing a value (R35, R331, R352, R576) -/

/-- A written value that waits for its boundary replaces one that waits already. -/
def putPending (v : PendingValue) (s : State) : State :=
  { s with cfgPending := (s.cfgPending.filter fun x => x.id != v.id) ++ [v] }

/-- A metrology value written: one equal to the resulting value leaves it untouched; a value it replaces is recorded as
superseded (R11, R331, R369). -/
def storeMetro (v : PendingValue) (s : State) : State :=
  if v.value = resultingP s v.id then s else
  match pendingOf s v.id with
  | some old =>
    putPending v (post 0x0902 0 (le 2 v.id ++ le 8 old.value ++ le 8 v.value ++ le 4 old.counter) old.keyId s)
  | none => putPending v s

/-- A parameter whose written value acts when it is in effect. -/
def paramHook (id : Nat) (s : State) : State := rtcHook id (timeHook id (pioHook id s))

/-- One entry stored, with the key and counter of the signature that wrote it. -/
def storeEntry (a : Auth) (s : State) (e : PEntry) : State :=
  match pinfo e.id with
  | none => s
  | some q =>
    if e.id = 0x0A98 then clearPioFault e.val s
    else if e.id = 0x0E14 then clearRtcStatus e.val s
    else
      let v := q.merge (getP s e.id) e.val
      if q.bound = .minute then storeMetro ⟨e.id, v, a.keyId, a.counter⟩ s
      else if q.bound = .reply then
        (if e.id / 256 = 0x10 then recWrite e.id v s else paramHook e.id (setP e.id v s))
      else paramHook e.id (putPending ⟨e.id, v, a.keyId, a.counter⟩ s)

/-- UART_BAUD takes effect (R104). -/
def baudEffect (s : State) : State :=
  let s := applyOne 0x0214 s
  { s with hif := { s.hif with baud := getP s 0x0214, baudPending := none } }

/-- UART_BAUD waits for the last byte of the reply just sent on a transport; on UDP the reply has left at once (R85, R104). -/
def baudAfter (tr : Transport) (s : State) : State :=
  match pendingOf s 0x0214 with
  | none => s
  | some v =>
    if tr = .udp then baudEffect s
    else { s with hif := { s.hif with baudPending := some (tr, (linkOf s tr).replySeq - 1, v.value) } }

/-- PARAM_WRITE (R573 to R576). -/
def effParamWrite (q : Req) (s : State) : CmdRes :=
  checked (paramChecks s q.payload)
    (let es := entriesOf q.payload
     let s := es.foldl (storeEntry q.auth) s
     .doneThen [] s (if es.any fun e => e.id == 0x0214 then baudAfter q.org.tr else fun s => s))

/-! ### PARAM_READ (R443, R572) -/

/-- A value read on a transport, and the read's own effect: RTC_DATE latches the time of day, BUFFER_STATE resets PEAK. -/
def readParam (tr : Transport) (id : Nat) (s : State) : Nat × State :=
  if id = 0x0E10 then (rtcDate s, rtcLatch (Transport.num tr) s)
  else if id = 0x0E11 then (((vget s.rtc.latch (Transport.num tr) none).elim (rtcTime s) (·.1)), s)
  else if id = 0x0E12 then (((vget s.rtc.latch (Transport.num tr) none).elim (rtcSubsec s) (·.2)), s)
  else if id = 0x0518 then (bufferState s, bufferRead s)
  else (paramValue s id, s)

/-- A run of parameters read in ascending index. -/
def readRun (tr : Transport) : List Nat → State → Bytes × State
  | [], s => ([], s)
  | id :: t, s =>
    let (v, s) := readParam tr id s
    let w := (pinfo id).elim 4 (·.width)
    let (b, s) := readRun tr t s
    (le 2 id ++ le 1 w ++ [0] ++ le 8 v ++ b, s)

/-- PARAM_READ (R572). -/
def effParamRead (q : Req) (s : State) : CmdRes :=
  let p := q.payload
  let id := fld p 0 2
  let n := fld p 2 1
  let ids := (List.range n).map (id + ·)
  checked
    [((pinfo id).isSome, 0),
     (between n 1 64 && decide (id % 256 + n ≤ 256) && ids.all fun x => (pinfo x).isSome, 2), (fld p 3 1 == 0, 3)]
    (let r := readRun q.org.tr ids s
     .ok r.1 r.2)

end Sys2Proof.Machine
end

