-- ==== Sys2Proof/Machine/Operands.lean ====
section
/-! DEFINITION. The operands of a host command: packets as they are received and as the rows of the table spell them, and for
every opcode its payload lengths, legality, authorisation and logging (R74, R83, R561 to R565). -/

namespace Sys2Proof.Machine

/-! ### Request packets (R74) -/

/-- A request packet that has passed check 1, taken apart. `pre` holds the bytes that precede the session trailer. -/
structure Pkt where
  org : Origin
  hdr : Hdr
  size : Nat
  payload : Bytes
  sig : Bytes
  sess : Bytes
  pre : Bytes
  deriving DecidableEq, Repr

/-- The bits of VER_FLAGS (R74). -/
def Pkt.signed (p : Pkt) : Bool := bit p.hdr.verFlags 1
def Pkt.session (p : Pkt) : Bool := bit p.hdr.verFlags 0
def Pkt.e2e (p : Pkt) : Bool := bit p.hdr.verFlags 2

/-- The 16 header bytes. -/
def Hdr.bytes (h : Hdr) : Bytes :=
  le 1 h.verFlags ++ le 1 h.tag ++ le 2 h.opcode ++ le 2 h.length ++ le 2 h.epoch ++ le 4 h.seq ++ le 4 h.reserved

/-- The header at the start of some bytes. -/
def hdrOf (b : Bytes) : Hdr := ⟨fld b 0 1, fld b 1 1, fld b 2 2, fld b 4 2, fld b 6 2, fld b 8 4, fld b 12 4⟩

/-- Bytes of both trailers by VER_FLAGS. -/
def trailerBytes (verFlags : Nat) : Nat := 104 * b2n (bit verFlags 1) + 48 * b2n (bit verFlags 0)

/-- A received packet taken apart by its header. -/
def parsePkt (org : Origin) (raw : Bytes) : Pkt :=
  let h := hdrOf raw
  let body := raw.take (raw.length - 4)
  let ses := if bit h.verFlags 0 then 48 else 0
  { org := org, hdr := h, size := raw.length, payload := slice body 16 h.length,
    sig := if bit h.verFlags 1 then slice body (16 + h.length) 104 else [],
    sess := body.drop (body.length - ses), pre := body.take (body.length - ses) }

/-- The bytes of a signature trailer (R96). -/
def SigTrailer.bytes (t : SigTrailer) : Bytes :=
  le 2 t.keyId.toNat ++ le 2 t.reserved.toNat ++ le 4 t.counter.toNat ++ fit 96 t.signature

/-- The packet of a row: its opcode, what surrounds it, and its payload. -/
def envPkt (op : Nat) (q : Env) (pl : Bytes) : Pkt :=
  let h : Hdr :=
    { verFlags := 0x10 + 4 * b2n q.e2e + 2 * b2n q.sig.isSome + b2n q.sess.isSome, tag := q.tag.toNat, opcode := op,
      length := pl.length, epoch := q.epoch.toNat, seq := q.seq.toNat, reserved := 0 }
  let sig := q.sig.elim [] SigTrailer.bytes
  let sess := q.sess.elim [] (fit 48)
  let pre := h.bytes ++ pl ++ sig
  { org := ⟨q.tr, q.srcIp.toNat, q.srcPort.toNat⟩, hdr := h, size := pre.length + sess.length + 4, payload := pl, sig := sig,
    sess := sess, pre := pre }

/-- The bytes of a packet with its CRC (R74, R76). -/
def Pkt.bytes (p : Pkt) : Bytes := let b := p.pre ++ p.sess; b ++ le 4 (crc32c b)

/-- Slot and buffer credits that a packet of an opcode debits (R83). -/
def debit (op size : Nat) : Nat × Nat :=
  let bufs := ceilDiv size 256
  if op = 0x0201 then (0, 0) else if op = 0x0120 ∨ op = 0x0121 then (0, bufs) else (1, bufs)

/-! ### The opcode table (R561 to R565) -/

/-- What check 7 requires (R95, R562): a level, the signature of a named OTP key, or HOST_SIGNATURE. -/
inductive Need where
  | level (n : Nat)
  | otp (keyId : Nat)
  | host
  deriving DecidableEq, Repr

/-- A row of *Opcodes* with the effect of its command: payload lengths, the modes of its class outside LOCKDOWN, legality in
LOCKDOWN, the authorisation and the logging decided from the request. -/
structure Cmd where
  op : Nat
  lens : Nat → Bool
  modes : Mode → Bool
  lock : Bool
  need : Pkt → State → Need
  logged : Bytes → Bool
  eff : Req → State → CmdRes

/-- Class S: every mode in which commands are processed. -/
def classS (m : Mode) : Bool := m != .backup && m != .holdup

/-- Class R, outside LOCKDOWN. -/
def classR (m : Mode) : Bool := between m.code 2 8 || m == .fault

/-- Class M. -/
def classM (m : Mode) : Bool := between m.code 2 8

/-- Class C. -/
def classC (m : Mode) : Bool := m == .commission || m == .service || m == .safe

/-- Class E. -/
def classE (m : Mode) : Bool := m == .commission || m == .service

/-- An exact payload length. -/
def exactly (n : Nat) (l : Nat) : Bool := l == n

/-- A range of payload lengths. -/
def lengths (lo hi : Nat) (l : Nat) : Bool := between l lo hi

/-- A fixed level. -/
def needs (n : Nat) (_ : Pkt) (_ : State) : Need := .level n

/-- A row that requires a fixed level, has one class, and is logged or not. -/
def row (op : Nat) (lens : Nat → Bool) (modes : Mode → Bool) (lock : Bool) (level : Nat) (logged : Bool)
    (eff : Req → State → CmdRes) : Cmd :=
  { op := op, lens := lens, modes := modes, lock := lock, need := needs level, logged := fun _ => logged, eff := eff }

/-- The opcodes that are legal in RETIRED (R57). -/
def retiredOps : List Nat := [0x0101, 0x0110, 0x0201, 0x0120, 0x0121, 0x0901, 0x1001, 0x1101]

/-- The class of a command admits the current mode, for a payload (R52, R53). -/
def Cmd.modeOk (c : Cmd) (payload : Bytes) (s : State) : Bool :=
  match s.sys.mode with
  | .lockdown => c.lock
  | .shadow =>
    if c.op = 0x0111 then !(entriesOf payload).any fun e => loggedBlock (e.id / 256) else c.modes .shadow
  | m => c.modes m

/-- Check 6 (R51 to R53, R57, R507, R563, R564). -/
def Cmd.legal (c : Cmd) (p : Pkt) (s : State) : Bool :=
  c.modeOk p.payload s && (s.sec.lifecycle != .retired || retiredOps.contains c.op) &&
    (s.sys.mode != .lockdown || c.op == 0x1150 || (!p.signed && !p.session)) &&
    (c.op != 0x1111 || (s.sec.lifecycle == .enrolled && s.sec.cert.isNone)) &&
    (c.op != 0x0202 || s.sec.lifecycle != .blank)

/-- SEC_KEY_INSTALL: the level by the role of the entry installed or removed (*Key installation*, R501). -/
def needKeyInstall (p : Pkt) (s : State) : Need :=
  let role := if fld p.payload 2 1 = 0 then (hostKey s (fld p.payload 0 2)).elim 0 (·.role) else fld p.payload 2 1
  let sealed_ := s.sec.lifecycle == .sealed
  if role = 3 then .level (if sealed_ || !(keysOfRole s 3).isEmpty then 3 else 2)
  else if role = 2 ∧ sealed_ = false ∧ p.org.tr = .uart ∧ (keysOfRole s 2).isEmpty = true then .level 0
  else .level 2

/-- SEC_LIFECYCLE_ADVANCE: by the transition out of the current state (*Lifecycle transitions*, R508). -/
def needLifecycle (_ : Pkt) (s : State) : Need :=
  match s.sec.lifecycle with
  | .blank => .otp 0xFF10
  | .enrolled => .level 3
  | .sealed => .level 3
  | .returned => .level 2
  | .retired => .level 2

end Sys2Proof.Machine
end

