-- ==== Sys2Proof/Machine/Host.lean ====
section
/-! DEFINITION. The host interface: the acceptance checks, authorisation, sessions, results, the log of a paired device, and
the three transports (R50 to R53, R61, R68 to R103, R561 to R571). -/

namespace Sys2Proof.Machine

/-! ### Check 7 (R95 to R99, R562) -/

/-- The outcome of check 7. -/
inductive AuthRes where
  | ok (a : Auth)
  | fail (status : Nat) (body : Bytes)
  deriving DecidableEq, Repr

/-- AUTH_FAILED with a reason of *Error reply bodies*. -/
def authFailed (reason : Nat) : AuthRes := .fail stAuthFailed (le 1 reason ++ zeros 3)

/-- AUTH_REQUIRED with the level required. -/
def authRequired (level : Nat) : AuthRes := .fail stAuthRequired (le 1 level ++ zeros 3)

/-- An identifier of an OTP key (R500). -/
def isOtpKey (id_ : Nat) : Bool := between id_ 0xFF01 0xFF04 || id_ == 0xFF10

/-- The public key of an identifier: an OTP key or an entry of the key table. -/
def publicKey (s : State) (id_ : Nat) : Option Bytes :=
  if id_ = 0xFF10 then some s.sec.prodKey
  else if between id_ 0xFF01 0xFF04 then some (vget s.sec.fwKeys (id_ - 0xFF01) [])
  else (hostKey s id_).map (·.pub)

/-- The role of an identifier; 0 for an OTP key and for none installed. -/
def keyRole (s : State) (id_ : Nat) : Nat := (hostKey s id_).elim 0 (·.role)

/-- The last counter accepted for an identifier (R96). -/
def lastCounter (s : State) (id_ : Nat) : Nat := tableGet (fun _ => 0) s.sec.counters id_

/-- Why a signature trailer fails, if it does (R96, R99). -/
def sigReason (p : Pkt) (s : State) : Option Nat :=
  let id_ := fld p.sig 0 2
  match publicKey s id_ with
  | none => some 4
  | some pub =>
    let digest := sha384 (fit 16 s.sec.deviceId ++ p.hdr.bytes ++ p.payload ++ p.sig.take 8)
    if !ecdsaVerify pub digest (p.sig.drop 8) then some 3
    else if fld p.sig 4 4 ≤ lastCounter s id_ then some 5 else none

/-- Why a session trailer fails, if it does (R98, R99). -/
def sessReason (p : Pkt) (s : State) : Option Nat :=
  match (linkOf s p.org.tr).session with
  | none => some 1
  | some x => if hmac384 x.h2d p.pre = p.sess then none else some 2

/-- Why a trailer that is present fails, the signature first. -/
def trailerReason (p : Pkt) (s : State) : Option Nat :=
  match if p.signed then sigReason p s else none with
  | some r => some r
  | none => if p.session then sessReason p s else none

/-- Who authorises a request whose trailers hold: the level carried, the key, and the session (R95, R96). -/
def authOf (p : Pkt) (s : State) : Auth :=
  let key := fld p.sig 0 2
  let sig := if p.signed then keyRole s key else 0
  let sess := (linkOf s p.org.tr).session
  let ses := if p.session then sess.elim 0 (·.role) else 0
  { level := max sig ses, keyId := if p.signed then key else if p.session then sess.elim 0 (·.keyId) else 0,
    counter := if p.signed then fld p.sig 4 4 else 0, signed := p.signed, a3 := p.signed && sig == 3,
    session := if p.session then sess.map (·.serial) else none }

/-- HOST_SIGNATURE of HIF_SESSION_OPEN under the payload's KEY_ID (R97). A signature trailer beside it keeps its own key and counter
(R96). -/
def hostSignature (p : Pkt) (s : State) : AuthRes :=
  let id_ := fld p.payload 0 2
  let digest := sha384 (fit 16 s.sec.deviceId ++ p.hdr.bytes ++ p.payload.take 136)
  if isOtpKey id_ || keyRole s id_ == 3 then authFailed 6
  else match hostKey s id_ with
    | none => authFailed 4
    | some k =>
      if ecdsaVerify k.pub digest (slice p.payload 136 96) then .ok { authOf p s with session := none } else authFailed 3

/-- Check 7. -/
def authCheck (need : Need) (p : Pkt) (s : State) : AuthRes :=
  let named := match need with
    | .otp k => p.signed && fld p.sig 0 2 == k
    | _ => true
  if !named then authRequired 4
  else match trailerReason p s with
    | some r => authFailed r
    | none =>
      match need with
      | .host => hostSignature p s
      | .otp _ => .ok (authOf p s)
      | .level n => if n ≤ (authOf p s).level then .ok (authOf p s) else authRequired n

/-! ### Replies to packets that are not accepted (R75, R78, R84, R103) -/

/-- A reply issued at once to a packet, with the credits it returns and those its request holds until then. -/
def replyTo (p : Pkt) (status flags : Nat) (body : Bytes) (crcs : Nat × Nat) (back held : Nat × Nat) (s : State) : State :=
  sendReply
    { org := p.org, tag := p.hdr.tag, opcode := p.hdr.opcode, status := status, body := body, slots := back.1, bufs := back.2,
      heldSlots := held.1, heldBufs := held.2, seq := 0, flags := flags, e2e := if p.e2e then some crcs else none,
      session := if p.session then (linkOf s p.org.tr).session.map (·.serial) else none } s

/-- The two CRCs of the end-to-end trailer of a reply to a packet that has passed check 5 (R100). -/
def crcsOf (p : Pkt) (body : Bytes) : Nat × Nat := (crc32c p.payload, crc32c body)

/-- HIF changed. -/
def updHif (f : Hif → Hif) (s : State) : State := { s with hif := f s.hif }

/-- A packet that fails one of checks 2 to 5 is rejected. Its payload is not delimited, so the REQUEST_CRC of an end-to-end
trailer is open (log entry 62). -/
def refuse (p : Pkt) (status : Nat) (body : Bytes) (back : Bool) (s : State) : State :=
  let d := debit p.hdr.opcode p.size
  let (v, s) := if p.e2e then openVal 62 s else (0, s)
  replyTo p status 0 body (v % 2 ^ 32, crc32c body) (if back then d else (0, 0)) d s

/-- A packet that fails one of checks 6 to 8 is rejected (R78). A refusal for the mode is counted (R51). -/
def reject (p : Pkt) (status : Nat) (body : Bytes) (s : State) : State :=
  let d := debit p.hdr.opcode p.size
  let s := if status = stNotInState then post 0x0102 0 [] 0 s else s
  let s := if status = stAuthFailed then updHif (fun h => { h with authFailures := h.authFailures + 1 }) s else s
  replyTo p status 0 body (crcsOf p body) d d s

/-! ### Acceptance (R78, R89, R96, R565) -/

/-- BAD_PARAM body. -/
def badParamBody (off : Nat) : Bytes := le 2 off ++ zeros 2

/-- The opcodes that leave the state of the tag they name. -/
def tagless (op : Nat) : Bool := op == 0x0201 || op == 0x0120 || op == 0x0121

/-- What the command under a tag waits for. -/
def setWait (tag : Nat) (w : Wait) (s : State) : State :=
  match tagOf s tag with
  | some (.executing e) => setTag tag (.executing { e with wait := w }) s
  | _ => s

/-- The counter of a signature is written, and an A3 command recorded (R96). -/
def commitCounter (op : Nat) (a : Auth) (s : State) : State :=
  if !a.signed then s else
  let s := updSec (fun x => { x with counters := tableSet (fun _ => 0) x.counters a.keyId a.counter }) s
  if a.a3 then post 0x0202 0 (le 2 a.keyId ++ le 4 a.counter ++ le 2 op) a.keyId s else s

/-- What acceptance itself does: the counter, the newest opcodes of R537, and the tag EXECUTING. -/
def accept (p : Pkt) (a : Auth) (w : Wait) (s : State) : State :=
  let s := commitCounter p.hdr.opcode a s
  let s := updSys (fun x => { x with lastOps := (p.hdr.opcode :: x.lastOps).take 4 }) s
  if tagless p.hdr.opcode then s
  else
    setTag p.hdr.tag
      (.executing
        { op := p.hdr.opcode, org := p.org, bufs := (debit p.hdr.opcode p.size).2, e2e := p.e2e, reqCrc := crc32c p.payload,
          auth := a, wait := w, accUs := monoUs s, order := s.hif.accepted })
      (updHif (fun h => { h with accepted := h.accepted + 1 }) s)

/-- The end of an accepted command's effect: its completion, or what it waits for. A check that fails only at a tick of effect
completes with its status (log entry 63); BUSY is no status that a tag holds, so its tag is free again (R102). -/
def finish (tag : Nat) (r : CmdRes) (s : State) : State :=
  match r with
  | .badParam off => complete tag stBadParam false (badParamBody off) s
  | .reject st b =>
    if st = stBusy then completeFree tag st b s
    else complete tag st false b (if st = stNotInState then post 0x0102 0 [] 0 s else s)
  | .answer _ _ _ _ s => s
  | .done st reg b s => complete tag st reg b s
  | .doneThen b s after => after (complete tag stOK false b s)
  | .wait w s => setWait tag w s

/-- A paired device logs the command (R61, R565). -/
def logs (c : Cmd) (payload : Bytes) (s : State) : Bool := paired s && s.pair.active && c.logged payload

/-- The tick of effect of a command logged now, in µs of PTP time. -/
def effectTick (s : State) : Nat := tickUs s + getP s 0x0125

/-- The content of COMMAND_LOG: tick of effect, the command packet (R60). -/
def logContent (sec ns : Nat) (packet : Bytes) : Bytes := le 6 sec ++ le 4 ns ++ packet

/-- A command that has passed its checks: it is logged for its tick of effect, or runs at once. -/
def run (c : Cmd) (p : Pkt) (a : Auth) (s : State) : State :=
  let q : Req := ⟨p.org, p.hdr, p.payload, a⟩
  if logs c p.payload s then
    let t := effectTick s
    sendPair 4 (logContent (t / 1000000) (t % 1000000 * 1000) p.bytes) (accept p a (.logged q t) s)
  else
    let s := accept p a .now s
    match c.eff q s with
    | .answer st fl b crcs s =>
      let d := debit p.hdr.opcode p.size
      replyTo p st fl b (crcs.getD (crcsOf p b)) d d s
    | r => finish p.hdr.tag r s

/-- R487 bars an A3 command while the metrology section is nearly full; a PARAM_WRITE that changes an AM field is judged entry
by entry under R573. -/
def metroBars (c : Cmd) (p : Pkt) (a : Auth) (s : State) : Bool :=
  a.a3 && decide (metroFree s < 256) && c.op != 0x1110 && c.op != 0x1150 &&
    !(c.op == 0x0111 && (entriesOf p.payload).any fun e => e.changesAm s)

/-- Check 8 and acceptance (R78, R487, R568). -/
def check8 (c : Cmd) (p : Pkt) (a : Auth) (s : State) : State :=
  if s.sys.resetPending.isSome && c.op != 0x0101 && c.op != 0x0120 then reject p stBusy [] s
  else if metroBars c p a s then reject p stBadParam (badParamBody 0) s
  else match c.eff ⟨p.org, p.hdr, p.payload, a⟩ s with
    | .badParam off => reject p stBadParam (badParamBody off) s
    | .reject st b => reject p st b s
    | _ => run c p a s

/-- A session packet has been verified: the idle time of its session starts again (R98). -/
def touchSession (p : Pkt) (s : State) : State :=
  if !p.session then s else
  let l := linkOf s p.org.tr
  match l.session with
  | some x => if hmac384 x.h2d p.pre = p.sess then setLink p.org.tr { l with session := some { x with last := monoUs s } } s else s
  | none => s

/-- Checks 6 to 8. -/
def dispatch (c : Cmd) (p : Pkt) (s : State) : State :=
  if !c.legal p s then reject p stNotInState (notInStateBody s) s
  else
    match authCheck (c.need p s) p s with
    | .fail st b => reject p st b (touchSession p s)
    | .ok a => check8 c p a (touchSession p s)

/-! ### Checks 2 to 5 (R77 to R79) -/

/-- The lowest-numbered reason of CREDIT_OVERRUN that holds (R77, R103). -/
def overrunReason (p : Pkt) (s : State) : Option Nat :=
  let l := linkOf s p.org.tr
  let busy := match tagOf s p.hdr.tag with
    | some (.executing _) => p.hdr.opcode != 0x0120 && p.hdr.opcode != 0x0121
    | _ => false
  if p.hdr.opcode = 0x0201 then none
  else if !l.unsync && p.hdr.epoch != l.epoch.toNat then some 1
  else if !tagInRange s p.org.tr p.hdr.tag then some 2
  else if busy then some 3
  else if bufShare s p.org.tr - (deviceHeld s p.org.tr).2 < (debit p.hdr.opcode p.size).2 then some 4
  else none

/-- The header is one that check 4 passes, apart from the opcode. -/
def headerOk (h : Hdr) : Bool := h.verFlags / 16 == 1 && !bit h.verFlags 3 && h.reserved == 0

/-- Checks 3 to 8 of a packet in sequence, whose command is `c` if its opcode is assigned. -/
def inSequence (c : Option Cmd) (p : Pkt) (s : State) : State :=
  match overrunReason p s with
  | some r =>
    let e := (linkOf s p.org.tr).epoch.toNat
    refuse p stCreditOverrun (le 1 r ++ [0] ++ le 2 e) (p.hdr.epoch == e)
      (updHif (fun h => { h with creditOverruns := h.creditOverruns + 1 }) s)
  | none =>
    match c with
    | none => refuse p stBadOpcode [] true s
    | some c =>
      if !headerOk p.hdr then refuse p stBadOpcode [] true s
      else if p.size != 16 + p.hdr.length + trailerBytes p.hdr.verFlags + 4 || !c.lens p.hdr.length then refuse p stBadLength [] true s
      else dispatch c p s

/-- Checks 2 to 8 (R79). -/
def checks (c : Option Cmd) (p : Pkt) (s : State) : State :=
  let l := linkOf s p.org.tr
  let expected := l.expected.getD (BitVec.ofNat 32 p.hdr.seq)
  if p.hdr.opcode != 0x0201 && p.hdr.seq != expected.toNat then
    refuse p stSequenceError (le 4 expected.toNat) true (updHif (fun h => { h with sequenceErrors := h.sequenceErrors + 1 }) s)
  else inSequence c p (setLink p.org.tr { l with expected := some (BitVec.ofNat 32 p.hdr.seq + 1) } s)

/-! ### System and interface commands (R88, R92 to R94, R97, R569) -/

/-- SYS_STATUS (R569). -/
def effSysStatus (q : Req) (s : State) : CmdRes := .ok (sysStatusBody q.org.tr s) s

/-- HIF_CREDIT_SYNC (R88). A discrepancy outside the signed 16 bits of its field is given modulo 2^16 (log entry 104, DESIGN
CHOICE). -/
def effCreditSync (q : Req) (s : State) : CmdRes :=
  let p := q.payload
  let tr := q.org.tr
  checked [(decide (fld p 4 1 ≤ 1), 4), (allZero (slice p 5 3), 5)]
    (let l := linkOf s tr
     let epoch := l.epoch + 1
     let dev := deviceHeld s tr
     let entS : Int := (slotShare s tr : Int) - dev.1
     let entB : Int := (bufShare s tr : Int) - dev.2
     let difS : Int := (fld p 0 2 : Int) - entS
     let difB : Int := (fld p 2 2 : Int) - entB
     let i (v : Int) : Bytes := le 2 (unsgn 16 v)
     let s := setLink tr { l with epoch := epoch, unsync := false } s
     let s := if fld p 4 1 = 1 then
         updHif
           (fun h => { h with
             tags := h.tags.filter fun x => match x.2 with
               | .held _ => !tagInRange s tr x.1
               | .executing _ => true }) s
       else s
     let s := if difS = 0 ∧ difB = 0 then s else
       post 0x0201 (Transport.num tr) (i difS ++ i difB ++ le 2 epoch.toNat) 0
         (updHif (fun h => { h with creditDiscrepancies := h.creditDiscrepancies + 1 }) s)
     .answer stOK 0
       (le 2 epoch.toNat ++ le 2 dev.1 ++ le 2 dev.2 ++ i entS ++ i entB ++ i difS ++ i difB ++ zeros 2) none s)

/-- The next cut, in ns of PTP time. -/
def nextCut (s : State) : Nat := (ptpSec s / estPeriod s + 1) * estPeriod s * 1000000000

/-- The completion estimate of a command in ns of PTP time (R93): the cut or the tick of effect it waits for; otherwise open
(log entry 64). -/
def estimate (w : Wait) (s : State) : Nat × State :=
  match w with
  | .logged _ t => (t * 1000, s)
  | .modelActivation => (nextCut s, s)
  | .roundConfig _ => (nextCut s, s)
  | .sublCut _ => (nextCut s, s)
  | .modeEnd => if s.sys.trans.any (·.atCut) then (nextCut s, s) else openVal 64 s
  | _ => openVal 64 s

/-- RESULT_FETCH (R91 to R93). -/
def effFetch (q : Req) (s : State) : CmdRes :=
  let p := q.payload
  let off := fld p 0 4
  let t := tagOf s q.hdr.tag
  let inBody := match t with
    | some (.held h) => decide (off ≤ h.body.length)
    | _ => true
  checked [(inBody, 0), (decide (fld p 4 2 ≤ 4096), 4), (fld p 6 2 == 0, 6)]
    (match t with
    | some (.held h) =>
      let n := min (fld p 4 2) (h.body.length - off)
      .answer h.status (replyFlags (decide (off + n < h.body.length)) h.regularised true) (slice h.body off n)
        (some (h.reqCrc, h.resCrc)) s
    | some (.executing e) =>
      let (t, s) := estimate e.wait s
      .answer stPending 0 (le 6 (t / 1000000000) ++ le 4 (t % 1000000000) ++ zeros 2) none s
    | none => .answer stNoResult 0 [] none s)

/-- RESULT_RELEASE (R94). -/
def effRelease (q : Req) (s : State) : CmdRes :=
  match tagOf s q.hdr.tag with
  | some (.held _) => .answer stOK 0 [] none (freeTag q.hdr.tag s)
  | some (.executing _) => .answer stBusy 0 [] none s
  | none => .answer stNoResult 0 [] none s

/-- A session opened on a transport: its keys in their slots (R97, R495). -/
def openSession (tr : Transport) (x : Session) (s : State) : State :=
  let a := keyAttrs 3 0 s.sec.lifecycle.code true false true false
  let s := putKey (sessionSlot tr + 1) a x.d2h (putKey (sessionSlot tr) a x.h2d s)
  setLink tr { linkOf s tr with session := some x } s

/-- HIF_SESSION_OPEN (R97). Without the identity key or random bits it ends with INTERNAL (log entry 65). SESSION_ID is four bytes
of the TRNG (log entry 106, DESIGN CHOICE); the session itself is known by its serial number, which no other session has. -/
def effSessionOpen (q : Req) (s : State) : CmdRes :=
  let p := q.payload
  checked [(allZero (slice p 2 2), 2), ((pointOf (slice p 36 97)).isSome, 36), (allZero (slice p 133 3), 133)]
    (let s := endSession q.org.tr s
     needRandom s
      (match slotKey s 0 with
      | none => .done stInternal false [] s
      | some identity =>
        let (r, s) := trngBytes 72 s
        let (nonce, s) := trngBytes 32 s
        let serial := s.draws
        let (sid, s) := trngBytes 4 s
        let d := ofBE r % (p384n - 1) + 1
        let z := (ecdh d (slice p 36 97)).getD []
        let prk := hkdfExtract (slice p 4 32 ++ nonce) z
        let keyId := fld p 0 2
        let role := keyRole s keyId
        let body := nonce ++ publicOf d ++ le 1 role ++ zeros 2 ++ sid
        let sg := signWith identity (sha384 (fit 16 s.sec.deviceId ++ p.take 136 ++ body)) s
        .ok (body ++ sg.1)
          (openSession q.org.tr
            { serial := serial, id := ofLE sid, keyId := keyId, role := role, h2d := hkdfExpand prk (ascii "AKN HIF h2d" ++ sid) 48,
              d2h := hkdfExpand prk (ascii "AKN HIF d2h" ++ sid) 48, last := monoUs s } sg.2)))

/-- NMOD_RESULT_GET (R213). -/
def effResultGet (q : Req) (s : State) : CmdRes :=
  let p := q.payload
  checked
    [(decide (fld p 0 1 ≤ 2), 0), (decide (fld p 1 1 ≤ 1), 1), (allZero (slice p 2 6), 2), ((resultGet p s).isSome, 8)]
    (match resultGet p s with
    | some r => .done r.1 r.2.1 r.2.2 s
    | none => .badParam 8)

/-! ### The commands (R561) -/

def cmdSysStatus : Cmd := row 0x0101 (exactly 0) classS true 0 false effSysStatus
def cmdModeRequest : Cmd :=
  { row 0x0102 (exactly 4) classM false 1 false (fun q s => effModeRequest q.payload s) with
      need := fun p _ => .level (if fld p.payload 0 1 = 2 then 2 else 1) }
def cmdSysReset : Cmd := row 0x0103 (exactly 4) classM false 2 false (fun q s => effSysReset q.payload s)
def cmdParamRead : Cmd := row 0x0110 (exactly 4) classR true 0 false effParamRead
def cmdParamWrite : Cmd :=
  { row 0x0111 (lengths 16 196) classW false 2 false effParamWrite with
      need := fun p s => .level (paramLevel s p.payload), logged := paramLogged }
def cmdResultFetch : Cmd := row 0x0120 (exactly 8) classR true 0 false effFetch
def cmdResultRelease : Cmd := row 0x0121 (exactly 0) classR true 0 false effRelease
def cmdSnapshotTrigger : Cmd := row 0x0130 (exactly 4) classR true 0 false (fun q s => effSnapshotTrigger q.payload s)
def cmdSnapshotRead : Cmd := row 0x0131 (exactly 4) classR true 0 false (fun q s => effSnapshotRead q.payload s)
def cmdCreditSync : Cmd := row 0x0201 (exactly 8) classR true 0 false effCreditSync
def cmdSessionOpen : Cmd :=
  { row 0x0202 (exactly 232) classR false 0 false effSessionOpen with need := fun _ _ => .host }
def cmdJobSubmit : Cmd := row 0x0301 (exactly 192) classE false 2 false (fun q s => effJobSubmit q.hdr.tag q.payload s)
def cmdTestWrite : Cmd := row 0x0302 (lengths 9 4096) classE false 2 false (fun q s => effTestWrite q.payload s)
def cmdTestRead : Cmd := row 0x0303 (exactly 8) classE false 1 false (fun q s => effTestRead q.payload s)
def cmdModelLoad : Cmd := row 0x0401 (lengths 17 4096) classW false 2 true (fun q s => effModelLoad q.payload s)
def cmdModelActivate : Cmd := row 0x0402 (exactly 8) classA false 2 true (fun q s => effActivate q.payload s)
def cmdRoundConfig : Cmd :=
  { row 0x0410 (fun l => l == 0 || l == 40) classW false 2 true (fun q s => effRoundConfig q.payload s) with
      need := fun p _ => .level (if p.payload.isEmpty then 0 else 2), logged := fun b => !b.isEmpty }
def cmdResultGet : Cmd := row 0x0411 (exactly 16) classM true 0 false effResultGet
def cmdOptConfig : Cmd :=
  { row 0x0420 (fun l => l == 0 || l == 88) classW false 2 true (fun q s => effOptConfig q.payload s) with
      need := fun p _ => .level (if p.payload.isEmpty then 0 else 2), logged := fun b => !b.isEmpty }
def cmdForecastLoad : Cmd := row 0x0421 (lengths 32 3096) classW false 1 true (fun q s => effForecast q.payload s)
def cmdCalibGet : Cmd := row 0x0430 (exactly 0) classW false 0 false (fun _ s => effCalibGet s)
def cmdCalibAdopt : Cmd := row 0x0431 (exactly 136) classW false 2 true (fun q s => effCalibAdopt q.payload s)
def cmdSublRegister : Cmd := row 0x0501 (exactly 24) classW false 2 true (fun q s => effRegister q.payload s)
def cmdSublUnregister : Cmd := row 0x0502 (exactly 4) classW false 2 true (fun q s => effUnregister q.payload s)
def cmdSublStatus : Cmd := row 0x0510 (exactly 4) classR true 0 false (fun q s => effSublStatus q.payload s)
def cmdCtrlImageLoad : Cmd := row 0x0601 (lengths 17 4096) classW false 2 true (fun q s => effCtrlImageLoad q.payload s)
def cmdOnlineChange : Cmd := row 0x0602 (exactly 12) classA false 2 true (fun q s => effOnlineChange q.payload s)
def cmdColdStart : Cmd := row 0x0603 (exactly 8) classC false 2 true (fun q s => effColdStart q.payload s)
def cmdForceSet : Cmd := row 0x0610 (exactly 16) classE false 2 true (fun q s => effForceSet q.payload q.auth.keyId s)
def cmdForceClear : Cmd := row 0x0611 (exactly 8) classW false 1 true (fun q s => effForceClear q.payload q.auth.keyId s)
def cmdForceList : Cmd := row 0x0612 (exactly 0) classR true 0 false (fun _ s => effForceList s)
def cmdTaskControl : Cmd := row 0x0620 (exactly 4) classE false 1 true (fun q s => effTaskControl q.payload s)
def cmdTaskStatus : Cmd := row 0x0630 (exactly 4) classR true 0 false (fun q s => effTaskStatus q.payload s)
def cmdCalWindow : Cmd := row 0x0810 (exactly 24) classM false 2 false effCalWindow
def cmdBillRead : Cmd := row 0x0901 (exactly 8) classR true 0 false effBillRead
def cmdVaxMove : Cmd := row 0x0B01 (exactly 20) (· == .service) false 1 true effVaxMove
def cmdVaxHome : Cmd := row 0x0B02 (exactly 4) classE false 1 true effVaxHome
def cmdVaxStatus : Cmd := row 0x0B10 (exactly 4) classR true 0 false effVaxStatus
def cmdTimeSet : Cmd := row 0x0D01 (exactly 12) classW false 2 false effTimeSet
def cmdTriggerSet : Cmd := row 0x0D10 (exactly 40) classW false 1 false effTriggerSet
def cmdCaptureGet : Cmd := row 0x0D20 (exactly 0) classR true 0 false effCaptureGet
def cmdRtcSet : Cmd := row 0x0E01 (exactly 8) classW false 2 true effRtcSet
def cmdDstAdjust : Cmd := row 0x0E02 (exactly 4) classW false 1 true effDstAdjust
def cmdAlarmSet : Cmd := row 0x0E03 (exactly 12) classW false 1 false effAlarmSet
def cmdEpdDraw : Cmd := row 0x0F01 (lengths 16 4096) classW false 1 false effEpdDraw
def cmdEvrRead : Cmd :=
  { row 0x1001 (exactly 16) classR true 0 false effEvrRead with
      need := fun p _ => .level (if fld p.payload 0 1 = 2 then 1 else 0) }
def cmdEvrClear : Cmd := row 0x1002 (exactly 4) classC false 2 false effEvrClear
def cmdAttest : Cmd :=
  row 0x1101 (exactly 36) (fun m => classS m && m != .boot) true 0 false (fun q s => effAttest q.payload s)
def cmdLifecycle : Cmd :=
  { row 0x1110 (exactly 4) (fun m => m == .commission || m == .safe) false 0 false
      (fun q s => effLifecycle q.payload q.auth.keyId s) with need := needLifecycle }
def cmdIdentityCert : Cmd :=
  { row 0x1111 (lengths 1 4000) (fun m => m == .commission || m == .safe) false 0 false
      (fun q s => effIdentityCert q.payload s) with need := fun _ _ => .otp 0xFF10 }
def cmdImageStage : Cmd := row 0x1120 (lengths 13 4096) classW false 2 false (fun q s => effImageStage q.payload s)
def cmdImageActivate : Cmd :=
  row 0x1121 (exactly 52) (fun m => m == .commission || m == .run || m == .reduced || m == .service || m == .safe) false 2 false
    (fun q s => effImageActivate q.payload s)
def cmdKeyInstall : Cmd :=
  { row 0x1130 (exactly 104) classW false 2 false (fun q s => effKeyInstall q.payload s) with need := needKeyInstall }
def cmdKeyImport : Cmd := row 0x1131 (exactly 180) classW false 2 false (fun q s => effKeyImport q.payload s)
def cmdKeyGenerate : Cmd := row 0x1140 (exactly 4) classW false 2 false (fun q s => effKeyGenerate q.payload s)
def cmdKeySign : Cmd := row 0x1141 (exactly 52) classM false 1 false (fun q s => effKeySign q.payload s)
def cmdKeyDelete : Cmd := row 0x1142 (exactly 4) classW false 2 false (fun q s => effKeyDelete q.payload s)
def cmdTamperRelease : Cmd :=
  row 0x1150 (exactly 8) (fun _ => false) true 3 false (fun q s => effTamperRelease q.payload q.auth.keyId s)
def cmdFaultRead : Cmd := row 0x1301 (exactly 4) classR true 0 false (fun q s => effFaultRead q.payload s)

/-- The command of an opcode, if it is assigned (R561). -/
def cmdOf (op : Nat) : Option Cmd :=
  match op with
  | 0x0101 => some cmdSysStatus
  | 0x0102 => some cmdModeRequest
  | 0x0103 => some cmdSysReset
  | 0x0110 => some cmdParamRead
  | 0x0111 => some cmdParamWrite
  | 0x0120 => some cmdResultFetch
  | 0x0121 => some cmdResultRelease
  | 0x0130 => some cmdSnapshotTrigger
  | 0x0131 => some cmdSnapshotRead
  | 0x0201 => some cmdCreditSync
  | 0x0202 => some cmdSessionOpen
  | 0x0301 => some cmdJobSubmit
  | 0x0302 => some cmdTestWrite
  | 0x0303 => some cmdTestRead
  | 0x0401 => some cmdModelLoad
  | 0x0402 => some cmdModelActivate
  | 0x0410 => some cmdRoundConfig
  | 0x0411 => some cmdResultGet
  | 0x0420 => some cmdOptConfig
  | 0x0421 => some cmdForecastLoad
  | 0x0430 => some cmdCalibGet
  | 0x0431 => some cmdCalibAdopt
  | 0x0501 => some cmdSublRegister
  | 0x0502 => some cmdSublUnregister
  | 0x0510 => some cmdSublStatus
  | 0x0601 => some cmdCtrlImageLoad
  | 0x0602 => some cmdOnlineChange
  | 0x0603 => some cmdColdStart
  | 0x0610 => some cmdForceSet
  | 0x0611 => some cmdForceClear
  | 0x0612 => some cmdForceList
  | 0x0620 => some cmdTaskControl
  | 0x0630 => some cmdTaskStatus
  | 0x0810 => some cmdCalWindow
  | 0x0901 => some cmdBillRead
  | 0x0B01 => some cmdVaxMove
  | 0x0B02 => some cmdVaxHome
  | 0x0B10 => some cmdVaxStatus
  | 0x0D01 => some cmdTimeSet
  | 0x0D10 => some cmdTriggerSet
  | 0x0D20 => some cmdCaptureGet
  | 0x0E01 => some cmdRtcSet
  | 0x0E02 => some cmdDstAdjust
  | 0x0E03 => some cmdAlarmSet
  | 0x0F01 => some cmdEpdDraw
  | 0x1001 => some cmdEvrRead
  | 0x1002 => some cmdEvrClear
  | 0x1101 => some cmdAttest
  | 0x1110 => some cmdLifecycle
  | 0x1111 => some cmdIdentityCert
  | 0x1120 => some cmdImageStage
  | 0x1121 => some cmdImageActivate
  | 0x1130 => some cmdKeyInstall
  | 0x1131 => some cmdKeyImport
  | 0x1140 => some cmdKeyGenerate
  | 0x1141 => some cmdKeySign
  | 0x1142 => some cmdKeyDelete
  | 0x1150 => some cmdTamperRelease
  | 0x1301 => some cmdFaultRead
  | _ => none

/-! ### The log of a paired device (R61, R565, R567) -/

/-- The first command is dispatched before the second: by their ticks of effect, then in the order of acceptance, in which commands
of one tick on different transports stand as xSPI, UDP, UART (R81). -/
def dispatchedFirst (a b : Nat × Exec) : Bool :=
  let n (e : Nat × Exec) : Nat := Transport.num e.2.org.tr
  decide (a.1 < b.1) || (a.1 == b.1 &&
    (if a.2.accUs == b.2.accUs && n a != n b then decide (n a ≤ n b) else decide (a.2.order ≤ b.2.order)))

/-- The commands under tags whose tick of effect has come, in the order of dispatch (R61, R81). -/
def dueLogged (s : State) : List (Nat × Req) :=
  let due := (executing s).filterMap fun x => match x.2.wait with
    | .logged q t => if t ≤ tickUs s then some (x.1, q, t, x.2) else none
    | _ => none
  (due.mergeSort fun a b => dispatchedFirst a.2.2 b.2.2).map fun x => (x.1, x.2.1)

/-- A logged command executes at its tick of effect, if its class still admits the mode (R567). -/
def effectNow (s : State) (x : Nat × Req) : State :=
  let (tag, q) := x
  match cmdOf q.hdr.opcode with
  | none => s
  | some c =>
    if !c.modeOk q.payload s then complete tag stNotInState false (notInStateBody s) (post 0x0102 0 [] 0 s)
    else
      let s := setWait tag .now s
      finish tag (c.eff q s) s

/-- A logged command executes on the shadow without a reply. The key of a session is not in the log, so the identifier it
carries is open (log entry 66). -/
def shadowEffect (s : State) (raw : Bytes) : State :=
  let p := parsePkt ⟨.xspi, 0, 0⟩ raw
  let (k, s) := if !p.signed && p.session then openVal 63 s else (fld p.sig 0 2, s)
  let a : Auth := { Auth.none with keyId := k % 65536, signed := p.signed }
  match cmdOf p.hdr.opcode with
  | none => s
  | some c =>
    match c.eff ⟨p.org, p.hdr, p.payload, a⟩ s with
    | .done _ _ _ s => s
    | .doneThen _ s after => after s
    | .wait _ s => s
    | _ => s

/-- LOGGED_COMMAND_EFFECT: every logged command whose tick of effect has come executes, on the device that accepted it and, in
SHADOW, from the log received (R61). -/
def loggedEffect (s : State) : State :=
  let s := (dueLogged s).foldl effectNow s
  if s.sys.mode != .shadow then s else
  let due := s.pair.logWaiting.filter fun x => decide (x.1 ≤ tickUs s)
  let s := updPair (fun p => { p with logWaiting := p.logWaiting.filter fun x => !decide (x.1 ≤ tickUs s) }) s
  due.foldl (fun s x => shadowEffect s x.2) s

/-- COMMAND_LOG received: the command waits for its tick of effect, or is too late and clears the qualification (R61). -/
def commandLog (sec ns : Nat) (packet : Bytes) (s : State) : State :=
  if s.sys.mode != .shadow then s else
  let t := sec * 1000000 + ns / 1000
  if t < tickUs s then
    sendPair 6 (le 8 s.subl.cut.round) (updPair (fun p => { p with qualified := false, resynced := false, matched := [] }) s)
  else updPair (fun p => { p with logWaiting := p.logWaiting ++ [(t, packet)] }) s

/-! ### Transports (R70 to R73, R101) -/

/-- Commands are processed: not in BACKUP, HOLDUP or reset, and from the start of the host interface on (R52). -/
def hostOpen (s : State) : Bool := !s.sys.inReset && s.sys.mode != .backup && s.sys.mode != .holdup && s.hif.up

/-- Header bytes that a packet of fewer than 16 bytes lacks are open (log entry 67). -/
def padHeader (raw : Bytes) (s : State) : Bytes × State :=
  if 16 ≤ raw.length then (raw, s)
  else
    let (v, s) := openVal 65 s
    (raw ++ le (16 - raw.length) v, s)

/-- A packet that fails check 1: CRC_ERROR with its header as received and the number of bytes received, at most 4,268. It has not
passed check 1, so it holds no credits (R70, R85, R103). -/
def crcError (org : Origin) (raw : Bytes) (s : State) : State :=
  let n := min raw.length 4268
  let (b, s) := padHeader (raw.take 4268) s
  let h := hdrOf b
  let p : Pkt := { org := org, hdr := h, size := n, payload := [], sig := [], sess := [], pre := [] }
  let (v, s) := if p.e2e then openVal 62 s else (0, s)
  let body := le 4 n
  replyTo p stCrcError 0 body (v % 2 ^ 32, crc32c body) (debit h.opcode n) (0, 0)
    (updHif (fun h => { h with crcErrors := h.crcErrors + 1 }) s)

/-- Check 1 (R76, R77). -/
def crcOk (raw : Bytes) : Bool :=
  decide (raw.length ≤ 4268) && decide (4 ≤ raw.length) && fld raw (raw.length - 4) 4 == crc32c (raw.take (raw.length - 4))

/-- The bytes of one packet arrive: checks 1 to 8. A word of the Vestibule that SECDED cannot correct makes the answer CRC_ERROR; the
next packet replaces it, so it does not stay marked (R529, R531). -/
def arrive (org : Origin) (raw : Bytes) (v : VestibuleErr) (s : State) : State :=
  let s := match v.err with
    | .none => s
    | .correctable => correctable 0x02 s
    | .uncorrectable => unmark 8 v.addr.toNat (v.addr.toNat + 1) (uncorrectable 8 0x02 v.addr.toNat s)
  if crcOk raw && v.err != .uncorrectable then
    let (b, s) := padHeader raw s
    let p := { parsePkt org raw with hdr := hdrOf b }
    checks (cmdOf p.hdr.opcode) p s
  else crcError org raw s

/-- WRITE_PACKET (R70). -/
def writePacket (raw : Bytes) (v : VestibuleErr) (s : State) : State :=
  if !hostOpen s then s
  else if !rxReady s then updHif (fun h => { h with xspiDropped := h.xspiDropped + 1 }) s
  else arrive ⟨.xspi, 0, 0⟩ raw v s

/-- A reply has left: the UART_BAUD that waits for it takes effect (R104). -/
def replyLeft (r : Reply) (s : State) : State :=
  match s.hif.baudPending with
  | some (tr, seq, _) => if tr = r.org.tr ∧ seq = r.seq then baudEffect s else s
  | none => s

/-- READ_REPLY of `n` bytes (R71, R101). -/
def readHead (n : Nat) (s : State) : State :=
  match s.hif.xspiQ with
  | [] => { s with out := s.out ++ [.xspi (zeros n)] }
  | r :: rest =>
    let b := replyBytes s r
    let s := { s with out := s.out ++ [.xspi (b.take n)] }
    if n < b.length then s
    else
      let s := updHif (fun h => { h with xspiQ := rest }) s
      let s := if rest.isEmpty then
          updHif (fun h => { h with irq := false, holdoff := if h.irq then getP s 0x0216 != 0 else h.holdoff }) s
        else s
      replyLeft r s

/-- An xSPI transaction that reads `n` bytes: READ_REPLY, or READ_STATUS, which gives XSPI_STATUS least significant byte first; any
other instruction has no effect (R69, *xSPI target instructions*). -/
def readReply (code n : Nat) (s : State) : State :=
  if s.sys.inReset || s.sys.mode == .backup then s
  else if code = 0x0B then readHead n s
  else if code = 0x05 then { s with out := s.out ++ [.xspi ((le 4 (xspiStatus s)).take n)] }
  else s

/-- IRQ_HOLDOFF_END (R101). -/
def irqHoldoffEnd (s : State) : State := irqUpdate (updHif (fun h => { h with holdoff := false }) s)

/-- A UDP datagram from a source is admitted (R72). -/
def udpAdmits (s : State) (srcIp : Nat) : Bool := getP s 0x0212 == 0 || getP s 0x0212 == srcIp

/-- A datagram dropped (R72). -/
def udpDrop (s : State) : State := updHif (fun h => { h with udpDropped := h.udpDropped + 1 }) s

/-- A whole datagram. -/
def datagram (srcIp srcPort : Nat) (checksumOk : Bool) (data : Bytes) (v : VestibuleErr) (s : State) : State :=
  if !udpAdmits s srcIp || !checksumOk then udpDrop s else arrive ⟨.udp, srcIp, srcPort⟩ data v s

/-- A piece put among the pieces of a datagram, replacing one at the same offset. -/
def putPiece (off : Nat) (d : Bytes) (l : List (Nat × Bytes)) : List (Nat × Bytes) := (l.filter fun x => x.1 != off) ++ [(off, d)]

/-- The bytes that the pieces give from an offset on, at most `fuel` pieces. -/
def joinPieces (l : List (Nat × Bytes)) : Nat → Nat → Bytes
  | 0, _ => []
  | k + 1, off =>
    match l.find? fun x => x.1 == off && !x.2.isEmpty with
    | some x => x.2 ++ joinPieces l k (off + x.2.length)
    | none => []

/-- UDP_DATAGRAM (R72): one fragment of a datagram for the endpoint, or a datagram sent whole. -/
def udpDatagram (f : UdpFrag) (v : VestibuleErr) (s : State) : State :=
  if !hostOpen s || !f.unicast || f.vlan != getP s 0x0213 || f.dstPort.toNat != getP s 0x0211 then s
  else if f.offset = 0 ∧ f.more = false then datagram f.srcIp.toNat f.srcPort.toNat f.checksumOk f.data v s
  else
    let ip := f.srcIp.toNat
    let mine (r : Reassembly) : Bool := r.srcIp == ip && r.ident == f.ident.toNat
    let old := s.hif.frags.find? mine
    let rest := s.hif.frags.filter fun r => !mine r
    if old.isNone && decide (4 ≤ rest.length) then udpDrop s
    else
      let r := old.getD { srcIp := ip, srcPort := f.srcPort.toNat, ident := f.ident.toNat, pieces := [], total := none }
      let r := { r with
        pieces := putPiece f.offset f.data r.pieces,
        total := if f.more then r.total else some (f.offset + f.data.length) }
      let whole := joinPieces r.pieces r.pieces.length 0
      if 4268 < f.offset + f.data.length then udpDrop (updHif (fun h => { h with frags := rest }) s)
      else if r.total = some whole.length then
        datagram ip r.srcPort f.checksumOk whole v (updHif (fun h => { h with frags := rest }) s)
      else updHif (fun h => { h with frags := rest ++ [r] }) s

/-- FRAGMENT_DISCARD (R72): an incomplete datagram is dropped. -/
def fragmentDiscard (srcIp ident : Nat) (s : State) : State :=
  if s.hif.frags.any fun r => r.srcIp == srcIp && r.ident == ident then
    udpDrop (updHif (fun h => { h with frags := h.frags.filter fun r => !(r.srcIp == srcIp && r.ident == ident) }) s)
  else s

/-- The bytes of a frame after unstuffing; none if it ends in an abort (R73). -/
def unstuff : Bytes → Option Bytes
  | [] => some []
  | [b] => if b = 0x7D then none else some [b]
  | b :: c :: t => if b = 0x7D then (unstuff t).map (fun r => (c ^^^ 0x20#8) :: r) else (unstuff (c :: t)).map (b :: ·)

/-- UART_FRAME (R73): the bytes between the two flags. -/
def uartFrame (raw : Bytes) (v : VestibuleErr) (s : State) : State :=
  if !hostOpen s then s else
  let drop := updHif (fun h => { h with uartDropped := h.uartDropped + 1 }) s
  match unstuff raw with
  | none => drop
  | some b => if b.length < 20 then drop else arrive ⟨.uart, 0, 0⟩ b v s

/-- The bytes of a reply framed for the UART (R73). -/
def stuff (b : Bytes) : Bytes :=
  [0x7E#8] ++ (b.flatMap fun x => if x = 0x7E ∨ x = 0x7D then [0x7D#8, x ^^^ 0x20#8] else [x]) ++ [0x7E#8]

/-- UART_TRANSMIT_COMPLETE (R85, R104): the last byte of the reply at the head has been sent. -/
def uartSent (s : State) : State :=
  match s.hif.uartQ with
  | [] => s
  | r :: rest =>
    let s := { s with out := s.out ++ [.uart (stuff (replyBytes s r))] }
    replyLeft r (updHif (fun h => { h with uartQ := rest }) s)

/-- SESSION_IDLE_EXPIRY (R98): SESSION_IDLE seconds have passed without a verified session packet. -/
def sessionIdle (tr : Transport) (s : State) : State :=
  match (linkOf s tr).session with
  | some x => if x.last + getP s 0x0215 * 1000000 ≤ monoUs s then endSession tr s else s
  | none => s

/-- A host command of the table: its packet arrives whole on its transport and has passed check 1. -/
def hostCommand (c : Cmd) (q : Env) (pl : Bytes) (s : State) : State :=
  let p := envPkt c.op q pl
  if !hostOpen s then s
  else if q.tr = .xspi ∧ rxReady s = false then updHif (fun h => { h with xspiDropped := h.xspiDropped + 1 }) s
  else if q.tr = .udp ∧ udpAdmits s q.srcIp.toNat = false then udpDrop s
  else if 4268 < p.size then crcError p.org p.bytes s
  else checks (some c) p s

end Sys2Proof.Machine
end

