-- ==== Sys2Proof/WellFormed.lean ====
section
/-! DEFINITION. Which commands are well formed: what the operands' types do not already say. The meanings are total on the
others too. -/

namespace Sys2Proof

/-- A signature trailer holds 104 bytes, 96 of them the signature; a session trailer holds 48 (R96, R98). -/
def Env.wf (q : Env) : Bool := (q.sig.all fun t => t.signature.length == 96) && (q.sess.all fun t => t.length == 48)

/-- A payload holds at most 4,096 bytes (R74). -/
def payloadWf (pl : Bytes) : Bool := decide (pl.length ≤ 4096)

/-- A fragment starts at a multiple of 8 bytes of its datagram and lies within it (R72). -/
def UdpRest.wf (f : UdpRest) : Bool :=
  f.offset % 8 == 0 && decide (f.offset + f.data.length ≤ 65507)

/-- An image class (R512). -/
def classWf (cls : Fin 8) : Bool := cls != 0

/-- A digest is SHA-384, over one of the three items of R63. -/
def digestWf (kind : Nat) (dig : Bytes) : Bool := decide (kind < 3) && dig.length == 48

/-- Microseconds since the command before it. -/
def Instr.dt : Instr → Nat
  | .sysStatus dt _ _ => dt
  | .sysModeRequest dt _ _ => dt
  | .sysReset dt _ _ => dt
  | .paramRead dt _ _ => dt
  | .paramWrite dt _ _ => dt
  | .pioFaultClear dt _ _ => dt
  | .rtcStatusClear dt _ _ => dt
  | .bufferStateRead dt _ => dt
  | .rtcDateRead dt _ => dt
  | .resultFetch dt _ _ => dt
  | .resultRelease dt _ _ => dt
  | .snapshotTrigger dt _ _ => dt
  | .snapshotRead dt _ _ => dt
  | .hifCreditSync dt _ _ => dt
  | .hifSessionOpen dt _ _ => dt
  | .solvJobSubmit dt _ _ => dt
  | .solvTestWrite dt _ _ => dt
  | .solvTestRead dt _ _ => dt
  | .nmodModelLoad dt _ _ => dt
  | .nmodModelActivate dt _ _ => dt
  | .nmodRoundConfig dt _ _ => dt
  | .nmodResultGet dt _ _ => dt
  | .nmodOptConfig dt _ _ => dt
  | .nmodForecastLoad dt _ _ => dt
  | .nmodCalibGet dt _ _ => dt
  | .nmodCalibAdopt dt _ _ => dt
  | .sublRegister dt _ _ => dt
  | .sublUnregister dt _ _ => dt
  | .sublStatus dt _ _ => dt
  | .ctrlImageLoad dt _ _ => dt
  | .ctrlOnlineChange dt _ _ => dt
  | .ctrlColdStart dt _ _ => dt
  | .ctrlForceSet dt _ _ => dt
  | .ctrlForceClear dt _ _ => dt
  | .ctrlForceList dt _ _ => dt
  | .ctrlTaskControl dt _ _ => dt
  | .ctrlTaskStatus dt _ _ => dt
  | .melCalWindow dt _ _ => dt
  | .billRead dt _ _ => dt
  | .vaxMove dt _ _ => dt
  | .vaxHome dt _ _ => dt
  | .vaxStatus dt _ _ => dt
  | .timeSet dt _ _ => dt
  | .timeTriggerSet dt _ _ => dt
  | .timeCaptureGet dt _ _ => dt
  | .rtcSet dt _ _ => dt
  | .rtcDstAdjust dt _ _ => dt
  | .rtcAlarmSet dt _ _ => dt
  | .epdDraw dt _ _ => dt
  | .evrRead dt _ _ => dt
  | .evrClear dt _ _ => dt
  | .secAttest dt _ _ => dt
  | .secLifecycleAdvance dt _ _ => dt
  | .secIdentityCert dt _ _ => dt
  | .secImageStage dt _ _ => dt
  | .secImageActivate dt _ _ => dt
  | .secKeyInstall dt _ _ => dt
  | .secKeyImport dt _ _ => dt
  | .secKeyGenerate dt _ _ => dt
  | .secKeySign dt _ _ => dt
  | .secKeyDelete dt _ _ => dt
  | .secTamperRelease dt _ _ => dt
  | .intgFaultRead dt _ _ => dt
  | .writePacket dt _ => dt
  | .readReply dt _ => dt
  | .udpDatagram dt _ => dt
  | .uartFrame dt _ => dt
  | .fragmentDiscard dt _ _ => dt
  | .irqHoldoffEnd dt => dt
  | .sessionIdleExpiry dt _ => dt
  | .loggedCommandEffect dt => dt
  | .mainReset dt _ => dt
  | .resetN dt => dt
  | .resetNRelease dt _ => dt
  | .alwaysOnReset dt => dt
  | .backupExit dt _ => dt
  | .bootEnd dt _ => dt
  | .pfwAsserted dt => dt
  | .undervoltage dt _ => dt
  | .mramWritePathClose dt => dt
  | .holdupEnd dt => dt
  | .pllLockLoss dt _ => dt
  | .pllLockTimeout dt _ => dt
  | .flightWake dt => dt
  | .flightWakeEnd dt _ => dt
  | .supplyMeasurement dt _ _ _ _ _ => dt
  | .cut dt => dt
  | .cutVectorSeal dt => dt
  | .coreStall dt => dt
  | .optimisationWaitExpiry dt => dt
  | .modelBuildComplete dt => dt
  | .modelFlashWrite dt => dt
  | .jobStart dt _ => dt
  | .jobCompletion dt _ _ => dt
  | .jobDeadlineMiss dt _ _ => dt
  | .galleryTimeout dt _ _ _ _ => dt
  | .galleryPromotion dt => dt
  | .balustradeWrite dt => dt
  | .reportArrival dt _ _ _ => dt
  | .reportClassification dt => dt
  | .setpointConfirm dt _ _ _ => dt
  | .setpointIssue dt => dt
  | .confirmTimeoutExpiry dt _ => dt
  | .downlinkStateSave dt => dt
  | .taskRelease dt _ _ => dt
  | .outputApply dt => dt
  | .lockstepMismatch dt _ _ => dt
  | .alu dt _ _ _ _ _ => dt
  | .fpu dt _ _ _ _ _ => dt
  | .addi dt _ _ _ _ => dt
  | .andiOriXori dt _ _ _ _ _ => dt
  | .lui dt _ _ _ _ => dt
  | .loadInstruction dt _ _ _ _ _ _ => dt
  | .storeInstruction dt _ _ _ _ _ => dt
  | .branchInstruction dt _ _ _ _ _ => dt
  | .jmp dt _ _ => dt
  | .call dt _ _ => dt
  | .callb dt _ _ _ _ => dt
  | .ret dt _ _ _ _ _ => dt
  | .sys dt _ _ _ _ _ => dt
  | .jr dt _ _ _ _ _ => dt
  | .endRun dt _ _ _ _ _ => dt
  | .trap dt _ _ => dt
  | .onlineChangePrepared dt => dt
  | .changeTick dt => dt
  | .exchange dt => dt
  | .latchTick dt => dt
  | .changeDrainTimeout dt => dt
  | .frameEnd dt _ => dt
  | .flowPulse dt _ _ => dt
  | .intervalBoundary dt => dt
  | .lineCycleClose dt _ _ _ => dt
  | .electricalPagePublish dt => dt
  | .calWindowEnd dt _ => dt
  | .registerSave dt => dt
  | .saveReadback dt _ => dt
  | .analogConversion dt _ _ => dt
  | .digitalInputEdge dt _ _ => dt
  | .padFault dt _ _ => dt
  | .feedbackFault dt _ => dt
  | .profilePeriod dt _ _ => dt
  | .stall dt _ _ => dt
  | .driveFault dt _ _ => dt
  | .standstillDelayExpiry dt _ => dt
  | .ethernetFrame dt _ => dt
  | .phySpeedPoll dt _ _ _ _ => dt
  | .addressAgeOut dt _ _ => dt
  | .sync dt _ _ _ _ _ => dt
  | .announce dt _ _ => dt
  | .pdelayReq dt _ _ => dt
  | .pdelayReqSend dt => dt
  | .syncAnnounceSend dt _ => dt
  | .syncTimeout dt _ => dt
  | .holdoverTimeout dt => dt
  | .ppsEdge dt _ => dt
  | .rtcReferenceWindow dt _ => dt
  | .leapSecond dt => dt
  | .triggerPulseStart dt _ => dt
  | .triggerPulseEnd dt _ => dt
  | .captureEdge dt _ _ => dt
  | .capturePagePublish dt => dt
  | .secondBoundary dt => dt
  | .rtcTemperatureSample dt _ => dt
  | .rtcLearningWindow dt _ _ _ => dt
  | .learnedTableSave dt => dt
  | .updateStart dt => dt
  | .displayPhase dt => dt
  | .epdPower dt => dt
  | .epdPowerGood dt => dt
  | .epdPowerOff dt => dt
  | .panelTemperatureSample dt _ => dt
  | .displayScan dt _ => dt
  | .stripRefresh dt => dt
  | .stagingDrain dt => dt
  | .evrWindowEnd dt => dt
  | .counterCopy dt => dt
  | .recordSample dt => dt
  | .periodClose dt => dt
  | .remask dt => dt
  | .imageSwitch dt _ _ _ => dt
  | .tamper dt _ => dt
  | .trngHealthFailure dt => dt
  | .scrubPass dt _ => dt
  | .watchdogExpiry dt _ => dt
  | .snapshotTick dt => dt
  | .takeover dt => dt
  | .pairListenEnd dt => dt
  | .heartbeat dt _ _ _ => dt
  | .cutSegment dt _ _ _ _ => dt
  | .imageSegment dt _ _ _ _ => dt
  | .commandLog dt _ _ _ _ => dt
  | .digest dt _ _ _ _ => dt
  | .resyncRequest dt _ => dt
  | .stateSegment dt _ _ => dt
  | .shadowStatus dt _ _ => dt
  | .shadowStatusSend dt => dt
  | .hostInterfaceStart dt => dt
  | .modeTransitionEnd dt => dt
  | .modelValidationComplete dt => dt
  | .blockImageValidationComplete dt => dt
  | .imageVerificationComplete dt _ _ _ => dt
  | .blockImageFlashWrite dt => dt
  | .pllLockRegained dt _ => dt
  | .snapInEdge dt _ => dt
  | .electricalRawSample dt _ _ => dt
  | .flowEdgeRejected dt _ => dt
  | .pwmPeriodBoundary dt _ => dt
  | .abandonedReadResponse dt => dt
  | .followUp dt _ _ _ _ => dt
  | .delayReqSend dt => dt
  | .delayResp dt _ _ _ _ => dt
  | .pdelayResp dt _ _ _ => dt
  | .meshComparison dt _ _ => dt
  | .uartTransmitComplete dt => dt

/-- The same command after another time. -/
def Instr.withDt (us : Nat) : Instr → Instr
  | .sysStatus _ q pl => .sysStatus us q pl
  | .sysModeRequest _ q pl => .sysModeRequest us q pl
  | .sysReset _ q pl => .sysReset us q pl
  | .paramRead _ q pl => .paramRead us q pl
  | .paramWrite _ q pl => .paramWrite us q pl
  | .pioFaultClear _ q mask => .pioFaultClear us q mask
  | .rtcStatusClear _ q mask => .rtcStatusClear us q mask
  | .bufferStateRead _ q => .bufferStateRead us q
  | .rtcDateRead _ q => .rtcDateRead us q
  | .resultFetch _ q pl => .resultFetch us q pl
  | .resultRelease _ q pl => .resultRelease us q pl
  | .snapshotTrigger _ q pl => .snapshotTrigger us q pl
  | .snapshotRead _ q pl => .snapshotRead us q pl
  | .hifCreditSync _ q pl => .hifCreditSync us q pl
  | .hifSessionOpen _ q pl => .hifSessionOpen us q pl
  | .solvJobSubmit _ q pl => .solvJobSubmit us q pl
  | .solvTestWrite _ q pl => .solvTestWrite us q pl
  | .solvTestRead _ q pl => .solvTestRead us q pl
  | .nmodModelLoad _ q pl => .nmodModelLoad us q pl
  | .nmodModelActivate _ q pl => .nmodModelActivate us q pl
  | .nmodRoundConfig _ q pl => .nmodRoundConfig us q pl
  | .nmodResultGet _ q pl => .nmodResultGet us q pl
  | .nmodOptConfig _ q pl => .nmodOptConfig us q pl
  | .nmodForecastLoad _ q pl => .nmodForecastLoad us q pl
  | .nmodCalibGet _ q pl => .nmodCalibGet us q pl
  | .nmodCalibAdopt _ q pl => .nmodCalibAdopt us q pl
  | .sublRegister _ q pl => .sublRegister us q pl
  | .sublUnregister _ q pl => .sublUnregister us q pl
  | .sublStatus _ q pl => .sublStatus us q pl
  | .ctrlImageLoad _ q pl => .ctrlImageLoad us q pl
  | .ctrlOnlineChange _ q pl => .ctrlOnlineChange us q pl
  | .ctrlColdStart _ q pl => .ctrlColdStart us q pl
  | .ctrlForceSet _ q pl => .ctrlForceSet us q pl
  | .ctrlForceClear _ q pl => .ctrlForceClear us q pl
  | .ctrlForceList _ q pl => .ctrlForceList us q pl
  | .ctrlTaskControl _ q pl => .ctrlTaskControl us q pl
  | .ctrlTaskStatus _ q pl => .ctrlTaskStatus us q pl
  | .melCalWindow _ q pl => .melCalWindow us q pl
  | .billRead _ q pl => .billRead us q pl
  | .vaxMove _ q pl => .vaxMove us q pl
  | .vaxHome _ q pl => .vaxHome us q pl
  | .vaxStatus _ q pl => .vaxStatus us q pl
  | .timeSet _ q pl => .timeSet us q pl
  | .timeTriggerSet _ q pl => .timeTriggerSet us q pl
  | .timeCaptureGet _ q pl => .timeCaptureGet us q pl
  | .rtcSet _ q pl => .rtcSet us q pl
  | .rtcDstAdjust _ q pl => .rtcDstAdjust us q pl
  | .rtcAlarmSet _ q pl => .rtcAlarmSet us q pl
  | .epdDraw _ q pl => .epdDraw us q pl
  | .evrRead _ q pl => .evrRead us q pl
  | .evrClear _ q pl => .evrClear us q pl
  | .secAttest _ q pl => .secAttest us q pl
  | .secLifecycleAdvance _ q pl => .secLifecycleAdvance us q pl
  | .secIdentityCert _ q pl => .secIdentityCert us q pl
  | .secImageStage _ q pl => .secImageStage us q pl
  | .secImageActivate _ q pl => .secImageActivate us q pl
  | .secKeyInstall _ q pl => .secKeyInstall us q pl
  | .secKeyImport _ q pl => .secKeyImport us q pl
  | .secKeyGenerate _ q pl => .secKeyGenerate us q pl
  | .secKeySign _ q pl => .secKeySign us q pl
  | .secKeyDelete _ q pl => .secKeyDelete us q pl
  | .secTamperRelease _ q pl => .secTamperRelease us q pl
  | .intgFaultRead _ q pl => .intgFaultRead us q pl
  | .writePacket _ p => .writePacket us p
  | .readReply _ x => .readReply us x
  | .udpDatagram _ f => .udpDatagram us f
  | .uartFrame _ p => .uartFrame us p
  | .fragmentDiscard _ srcIp ident => .fragmentDiscard us srcIp ident
  | .irqHoldoffEnd _ => .irqHoldoffEnd us
  | .sessionIdleExpiry _ tr => .sessionIdleExpiry us tr
  | .loggedCommandEffect _ => .loggedCommandEffect us
  | .mainReset _ banks => .mainReset us banks
  | .resetN _ => .resetN us
  | .resetNRelease _ banks => .resetNRelease us banks
  | .alwaysOnReset _ => .alwaysOnReset us
  | .backupExit _ banks => .backupExit us banks
  | .bootEnd _ x => .bootEnd us x
  | .pfwAsserted _ => .pfwAsserted us
  | .undervoltage _ x => .undervoltage us x
  | .mramWritePathClose _ => .mramWritePathClose us
  | .holdupEnd _ => .holdupEnd us
  | .pllLockLoss _ n => .pllLockLoss us n
  | .pllLockTimeout _ n => .pllLockTimeout us n
  | .flightWake _ => .flightWake us
  | .flightWakeEnd _ n => .flightWakeEnd us n
  | .supplyMeasurement _ core soc ana vbat temp => .supplyMeasurement us core soc ana vbat temp
  | .cut _ => .cut us
  | .cutVectorSeal _ => .cutVectorSeal us
  | .coreStall _ => .coreStall us
  | .optimisationWaitExpiry _ => .optimisationWaitExpiry us
  | .modelBuildComplete _ => .modelBuildComplete us
  | .modelFlashWrite _ => .modelFlashWrite us
  | .jobStart _ host => .jobStart us host
  | .jobCompletion _ host x => .jobCompletion us host x
  | .jobDeadlineMiss _ host x => .jobDeadlineMiss us host x
  | .galleryTimeout _ target initiator addr p0 => .galleryTimeout us target initiator addr p0
  | .galleryPromotion _ => .galleryPromotion us
  | .balustradeWrite _ => .balustradeWrite us
  | .reportArrival _ ip port x => .reportArrival us ip port x
  | .reportClassification _ => .reportClassification us
  | .setpointConfirm _ ip port x => .setpointConfirm us ip port x
  | .setpointIssue _ => .setpointIssue us
  | .confirmTimeoutExpiry _ index => .confirmTimeoutExpiry us index
  | .downlinkStateSave _ => .downlinkStateSave us
  | .taskRelease _ e t => .taskRelease us e t
  | .outputApply _ => .outputApply us
  | .lockstepMismatch _ e inRollback => .lockstepMismatch us e inRollback
  | .alu _ e d a b fn => .alu us e d a b fn
  | .fpu _ e d a b fn => .fpu us e d a b fn
  | .addi _ e d a imm => .addi us e d a imm
  | .andiOriXori _ e kind d a imm => .andiOriXori us e kind d a imm
  | .lui _ e d a imm => .lui us e d a imm
  | .loadInstruction _ e kind d a imm err => .loadInstruction us e kind d a imm err
  | .storeInstruction _ e kind d a imm => .storeInstruction us e kind d a imm
  | .branchInstruction _ e kind d a imm => .branchInstruction us e kind d a imm
  | .jmp _ e off => .jmp us e off
  | .call _ e off => .call us e off
  | .callb _ e d a imm => .callb us e d a imm
  | .ret _ e d a b fn => .ret us e d a b fn
  | .sys _ e d a b fn => .sys us e d a b fn
  | .jr _ e d a b fn => .jr us e d a b fn
  | .endRun _ e d a b fn => .endRun us e d a b fn
  | .trap _ e w => .trap us e w
  | .onlineChangePrepared _ => .onlineChangePrepared us
  | .changeTick _ => .changeTick us
  | .exchange _ => .exchange us
  | .latchTick _ => .latchTick us
  | .changeDrainTimeout _ => .changeDrainTimeout us
  | .frameEnd _ fr => .frameEnd us fr
  | .flowPulse _ c x => .flowPulse us c x
  | .intervalBoundary _ => .intervalBoundary us
  | .lineCycleClose _ k x ph => .lineCycleClose us k x ph
  | .electricalPagePublish _ => .electricalPagePublish us
  | .calWindowEnd _ k => .calWindowEnd us k
  | .registerSave _ => .registerSave us
  | .saveReadback _ ok => .saveReadback us ok
  | .analogConversion _ a code => .analogConversion us a code
  | .digitalInputEdge _ n pin => .digitalInputEdge us n pin
  | .padFault _ o read => .padFault us o read
  | .feedbackFault _ o => .feedbackFault us o
  | .profilePeriod _ a m => .profilePeriod us a m
  | .stall _ a gammaU => .stall us a gammaU
  | .driveFault _ a openPhase => .driveFault us a openPhase
  | .standstillDelayExpiry _ a => .standstillDelayExpiry us a
  | .ethernetFrame _ f => .ethernetFrame us f
  | .phySpeedPoll _ p up speed high => .phySpeedPoll us p up speed high
  | .addressAgeOut _ vid mac => .addressAgeOut us vid mac
  | .sync _ port seq twoStep origin corr => .sync us port seq twoStep origin corr
  | .announce _ port a => .announce us port a
  | .pdelayReq _ port seq => .pdelayReq us port seq
  | .pdelayReqSend _ => .pdelayReqSend us
  | .syncAnnounceSend _ ann => .syncAnnounceSend us ann
  | .syncTimeout _ k => .syncTimeout us k
  | .holdoverTimeout _ => .holdoverTimeout us
  | .ppsEdge _ rising => .ppsEdge us rising
  | .rtcReferenceWindow _ r => .rtcReferenceWindow us r
  | .leapSecond _ => .leapSecond us
  | .triggerPulseStart _ k => .triggerPulseStart us k
  | .triggerPulseEnd _ k => .triggerPulseEnd us k
  | .captureEdge _ n rising => .captureEdge us n rising
  | .capturePagePublish _ => .capturePagePublish us
  | .secondBoundary _ => .secondBoundary us
  | .rtcTemperatureSample _ t => .rtcTemperatureSample us t
  | .rtcLearningWindow _ r mean span => .rtcLearningWindow us r mean span
  | .learnedTableSave _ => .learnedTableSave us
  | .updateStart _ => .updateStart us
  | .displayPhase _ => .displayPhase us
  | .epdPower _ => .epdPower us
  | .epdPowerGood _ => .epdPowerGood us
  | .epdPowerOff _ => .epdPowerOff us
  | .panelTemperatureSample _ t => .panelTemperatureSample us t
  | .displayScan _ ok => .displayScan us ok
  | .stripRefresh _ => .stripRefresh us
  | .stagingDrain _ => .stagingDrain us
  | .evrWindowEnd _ => .evrWindowEnd us
  | .counterCopy _ => .counterCopy us
  | .recordSample _ => .recordSample us
  | .periodClose _ => .periodClose us
  | .remask _ => .remask us
  | .imageSwitch _ cls restartUs selfTest => .imageSwitch us cls restartUs selfTest
  | .tamper _ x => .tamper us x
  | .trngHealthFailure _ => .trngHealthFailure us
  | .scrubPass _ fs => .scrubPass us fs
  | .watchdogExpiry _ w => .watchdogExpiry us w
  | .snapshotTick _ => .snapshotTick us
  | .takeover _ => .takeover us
  | .pairListenEnd _ => .pairListenEnd us
  | .heartbeat _ tag mode x => .heartbeat us tag mode x
  | .cutSegment _ tag round index part => .cutSegment us tag round index part
  | .imageSegment _ tag e t x => .imageSegment us tag e t x
  | .commandLog _ tag sec ns packet => .commandLog us tag sec ns packet
  | .digest _ tag kind round dig => .digest us tag kind round dig
  | .resyncRequest _ x => .resyncRequest us x
  | .stateSegment _ tag seg => .stateSegment us tag seg
  | .shadowStatus _ tag x => .shadowStatus us tag x
  | .shadowStatusSend _ => .shadowStatusSend us
  | .hostInterfaceStart _ => .hostInterfaceStart us
  | .modeTransitionEnd _ => .modeTransitionEnd us
  | .modelValidationComplete _ => .modelValidationComplete us
  | .blockImageValidationComplete _ => .blockImageValidationComplete us
  | .imageVerificationComplete _ cls readable classOk => .imageVerificationComplete us cls readable classOk
  | .blockImageFlashWrite _ => .blockImageFlashWrite us
  | .pllLockRegained _ n => .pllLockRegained us n
  | .snapInEdge _ rising => .snapInEdge us rising
  | .electricalRawSample _ k smp => .electricalRawSample us k smp
  | .flowEdgeRejected _ c => .flowEdgeRejected us c
  | .pwmPeriodBoundary _ p => .pwmPeriodBoundary us p
  | .abandonedReadResponse _ => .abandonedReadResponse us
  | .followUp _ port seq origin corr => .followUp us port seq origin corr
  | .delayReqSend _ => .delayReqSend us
  | .delayResp _ port seq t4 corr => .delayResp us port seq t4 corr
  | .pdelayResp _ port seq corr => .pdelayResp us port seq corr
  | .meshComparison _ loop mismatch => .meshComparison us loop mismatch
  | .uartTransmitComplete _ => .uartTransmitComplete us

/-- A command is well formed. -/
def Instr.wf : Instr → Bool
  | .sysStatus _ q pl => q.wf && payloadWf pl
  | .sysModeRequest _ q pl => q.wf && payloadWf pl
  | .sysReset _ q pl => q.wf && payloadWf pl
  | .paramRead _ q pl => q.wf && payloadWf pl
  | .paramWrite _ q pl => q.wf && payloadWf pl
  | .pioFaultClear _ q _ => q.wf
  | .rtcStatusClear _ q _ => q.wf
  | .bufferStateRead _ q => q.wf
  | .rtcDateRead _ q => q.wf
  | .resultFetch _ q pl => q.wf && payloadWf pl
  | .resultRelease _ q pl => q.wf && payloadWf pl
  | .snapshotTrigger _ q pl => q.wf && payloadWf pl
  | .snapshotRead _ q pl => q.wf && payloadWf pl
  | .hifCreditSync _ q pl => q.wf && payloadWf pl
  | .hifSessionOpen _ q pl => q.wf && payloadWf pl
  | .solvJobSubmit _ q pl => q.wf && payloadWf pl
  | .solvTestWrite _ q pl => q.wf && payloadWf pl
  | .solvTestRead _ q pl => q.wf && payloadWf pl
  | .nmodModelLoad _ q pl => q.wf && payloadWf pl
  | .nmodModelActivate _ q pl => q.wf && payloadWf pl
  | .nmodRoundConfig _ q pl => q.wf && payloadWf pl
  | .nmodResultGet _ q pl => q.wf && payloadWf pl
  | .nmodOptConfig _ q pl => q.wf && payloadWf pl
  | .nmodForecastLoad _ q pl => q.wf && payloadWf pl
  | .nmodCalibGet _ q pl => q.wf && payloadWf pl
  | .nmodCalibAdopt _ q pl => q.wf && payloadWf pl
  | .sublRegister _ q pl => q.wf && payloadWf pl
  | .sublUnregister _ q pl => q.wf && payloadWf pl
  | .sublStatus _ q pl => q.wf && payloadWf pl
  | .ctrlImageLoad _ q pl => q.wf && payloadWf pl
  | .ctrlOnlineChange _ q pl => q.wf && payloadWf pl
  | .ctrlColdStart _ q pl => q.wf && payloadWf pl
  | .ctrlForceSet _ q pl => q.wf && payloadWf pl
  | .ctrlForceClear _ q pl => q.wf && payloadWf pl
  | .ctrlForceList _ q pl => q.wf && payloadWf pl
  | .ctrlTaskControl _ q pl => q.wf && payloadWf pl
  | .ctrlTaskStatus _ q pl => q.wf && payloadWf pl
  | .melCalWindow _ q pl => q.wf && payloadWf pl
  | .billRead _ q pl => q.wf && payloadWf pl
  | .vaxMove _ q pl => q.wf && payloadWf pl
  | .vaxHome _ q pl => q.wf && payloadWf pl
  | .vaxStatus _ q pl => q.wf && payloadWf pl
  | .timeSet _ q pl => q.wf && payloadWf pl
  | .timeTriggerSet _ q pl => q.wf && payloadWf pl
  | .timeCaptureGet _ q pl => q.wf && payloadWf pl
  | .rtcSet _ q pl => q.wf && payloadWf pl
  | .rtcDstAdjust _ q pl => q.wf && payloadWf pl
  | .rtcAlarmSet _ q pl => q.wf && payloadWf pl
  | .epdDraw _ q pl => q.wf && payloadWf pl
  | .evrRead _ q pl => q.wf && payloadWf pl
  | .evrClear _ q pl => q.wf && payloadWf pl
  | .secAttest _ q pl => q.wf && payloadWf pl
  | .secLifecycleAdvance _ q pl => q.wf && payloadWf pl
  | .secIdentityCert _ q pl => q.wf && payloadWf pl
  | .secImageStage _ q pl => q.wf && payloadWf pl
  | .secImageActivate _ q pl => q.wf && payloadWf pl
  | .secKeyInstall _ q pl => q.wf && payloadWf pl
  | .secKeyImport _ q pl => q.wf && payloadWf pl
  | .secKeyGenerate _ q pl => q.wf && payloadWf pl
  | .secKeySign _ q pl => q.wf && payloadWf pl
  | .secKeyDelete _ q pl => q.wf && payloadWf pl
  | .secTamperRelease _ q pl => q.wf && payloadWf pl
  | .intgFaultRead _ q pl => q.wf && payloadWf pl
  | .writePacket _ _ => true
  | .readReply _ _ => true
  | .udpDatagram _ f => f.frag.toUdpRest.wf
  | .uartFrame _ _ => true
  | .fragmentDiscard _ _ _ => true
  | .irqHoldoffEnd _ => true
  | .sessionIdleExpiry _ _ => true
  | .loggedCommandEffect _ => true
  | .mainReset _ _ => true
  | .resetN _ => true
  | .resetNRelease _ _ => true
  | .alwaysOnReset _ => true
  | .backupExit _ _ => true
  | .bootEnd _ _ => true
  | .pfwAsserted _ => true
  | .undervoltage _ _ => true
  | .mramWritePathClose _ => true
  | .holdupEnd _ => true
  | .pllLockLoss _ _ => true
  | .pllLockTimeout _ _ => true
  | .flightWake _ => true
  | .flightWakeEnd _ _ => true
  | .supplyMeasurement _ _ _ _ _ _ => true
  | .cut _ => true
  | .cutVectorSeal _ => true
  | .coreStall _ => true
  | .optimisationWaitExpiry _ => true
  | .modelBuildComplete _ => true
  | .modelFlashWrite _ => true
  | .jobStart _ _ => true
  | .jobCompletion _ _ _ => true
  | .jobDeadlineMiss _ _ _ => true
  | .galleryTimeout _ _ _ _ _ => true
  | .galleryPromotion _ => true
  | .balustradeWrite _ => true
  | .reportArrival _ _ _ x => x.wf
  | .reportClassification _ => true
  | .setpointConfirm _ _ _ x => x.wf
  | .setpointIssue _ => true
  | .confirmTimeoutExpiry _ _ => true
  | .downlinkStateSave _ => true
  | .taskRelease _ _ _ => true
  | .outputApply _ => true
  | .lockstepMismatch _ _ _ => true
  | .alu _ _ _ _ _ _ => true
  | .fpu _ _ _ _ _ _ => true
  | .addi _ _ _ _ _ => true
  | .andiOriXori _ _ _ _ _ _ => true
  | .lui _ _ _ _ _ => true
  | .loadInstruction _ _ _ _ _ _ _ => true
  | .storeInstruction _ _ _ _ _ _ => true
  | .branchInstruction _ _ _ _ _ _ => true
  | .jmp _ _ _ => true
  | .call _ _ _ => true
  | .callb _ _ _ _ _ => true
  | .ret _ _ _ _ _ _ => true
  | .sys _ _ _ _ _ _ => true
  | .jr _ _ _ _ _ _ => true
  | .endRun _ _ _ _ _ _ => true
  | .trap _ _ _ => true
  | .onlineChangePrepared _ => true
  | .changeTick _ => true
  | .exchange _ => true
  | .latchTick _ => true
  | .changeDrainTimeout _ => true
  | .frameEnd _ _ => true
  | .flowPulse _ _ _ => true
  | .intervalBoundary _ => true
  | .lineCycleClose _ _ _ _ => true
  | .electricalPagePublish _ => true
  | .calWindowEnd _ _ => true
  | .registerSave _ => true
  | .saveReadback _ _ => true
  | .analogConversion _ _ _ => true
  | .digitalInputEdge _ _ _ => true
  | .padFault _ _ _ => true
  | .feedbackFault _ _ => true
  | .profilePeriod _ _ _ => true
  | .stall _ _ _ => true
  | .driveFault _ _ _ => true
  | .standstillDelayExpiry _ _ => true
  | .ethernetFrame _ _ => true
  | .phySpeedPoll _ _ _ _ _ => true
  | .addressAgeOut _ _ _ => true
  | .sync _ _ _ _ _ _ => true
  | .announce _ _ _ => true
  | .pdelayReq _ _ _ => true
  | .pdelayReqSend _ => true
  | .syncAnnounceSend _ _ => true
  | .syncTimeout _ _ => true
  | .holdoverTimeout _ => true
  | .ppsEdge _ _ => true
  | .rtcReferenceWindow _ _ => true
  | .leapSecond _ => true
  | .triggerPulseStart _ _ => true
  | .triggerPulseEnd _ _ => true
  | .captureEdge _ _ _ => true
  | .capturePagePublish _ => true
  | .secondBoundary _ => true
  | .rtcTemperatureSample _ _ => true
  | .rtcLearningWindow _ _ _ _ => true
  | .learnedTableSave _ => true
  | .updateStart _ => true
  | .displayPhase _ => true
  | .epdPower _ => true
  | .epdPowerGood _ => true
  | .epdPowerOff _ => true
  | .panelTemperatureSample _ _ => true
  | .displayScan _ _ => true
  | .stripRefresh _ => true
  | .stagingDrain _ => true
  | .evrWindowEnd _ => true
  | .counterCopy _ => true
  | .recordSample _ => true
  | .periodClose _ => true
  | .remask _ => true
  | .imageSwitch _ cls _ _ => classWf cls
  | .tamper _ _ => true
  | .trngHealthFailure _ => true
  | .scrubPass _ _ => true
  | .watchdogExpiry _ _ => true
  | .snapshotTick _ => true
  | .takeover _ => true
  | .pairListenEnd _ => true
  | .heartbeat _ _ _ _ => true
  | .cutSegment _ _ _ _ _ => true
  | .imageSegment _ _ _ _ _ => true
  | .commandLog _ _ _ _ _ => true
  | .digest _ _ kind _ dig => digestWf kind dig
  | .resyncRequest _ _ => true
  | .stateSegment _ _ _ => true
  | .shadowStatus _ _ _ => true
  | .shadowStatusSend _ => true
  | .hostInterfaceStart _ => true
  | .modeTransitionEnd _ => true
  | .modelValidationComplete _ => true
  | .blockImageValidationComplete _ => true
  | .imageVerificationComplete _ cls _ _ => classWf cls
  | .blockImageFlashWrite _ => true
  | .pllLockRegained _ _ => true
  | .snapInEdge _ _ => true
  | .electricalRawSample _ _ _ => true
  | .flowEdgeRejected _ _ => true
  | .pwmPeriodBoundary _ _ => true
  | .abandonedReadResponse _ => true
  | .followUp _ _ _ _ _ => true
  | .delayReqSend _ => true
  | .delayResp _ _ _ _ _ => true
  | .pdelayResp _ _ _ _ => true
  | .meshComparison _ _ _ => true
  | .uartTransmitComplete _ => true

end Sys2Proof
end

