-- ==== Sys2Proof/Machine/Event.lean ====
section
/-! DEFINITION. What every row does around its own effect: the time since the row before it passes first, and the mode changes that
its tick asks for are made when the tick ends (log entries 1, 3 and 107). -/

namespace Sys2Proof.Machine

/-- The tick goes on: the next command waits already and comes without time between, so its triggers are arbitrated with those of
this one (R45, log entry 107). -/
def tickGoesOn (queue : List Instr) : Bool := queue.head?.any fun c => c.dt == 0

/-- The end of a row: the end of the tick, unless the tick goes on. -/
def endRow (queue : List Instr) (s : State) : State := if tickGoesOn queue then s else settle s

/-- The time that passes before a command: the clock moves, and a new tick begins with the values that wait for it. -/
def elapse (dt : Nat) (s : State) : State := if dt = 0 then s else tickValues (passTime dt s)

/-- The effect of a row, `f`, after `dt` microseconds, on everything but the queue of commands. -/
def event (dt : Nat) (f : State → State) (s : State) : Host.Outcome State Fault Refusal :=
  .next { endRow s.pending (f (elapse dt s)) with pending := s.pending }

/-- The mode of a code of R39. -/
def modeAt (n : Fin 12) : Mode := (Mode.ofCode n.val).getD .backup

/-- The payload of a PARAM_WRITE of one parameter (R573). -/
def paramWriteOne (id width value : Nat) : Bytes := le 2 1 ++ zeros 2 ++ le 2 id ++ le 1 width ++ zeros 1 ++ le 8 value

/-- The payload of a PARAM_READ of one parameter (R572). -/
def paramReadOne (id : Nat) : Bytes := le 2 id ++ le 1 1 ++ zeros 1

end Sys2Proof.Machine
end

