-- ==== Sys2Proof/Machine/CalendarRows.lean ====
section
/-! DEFINITION. The rows of the calendar. -/

namespace Sys2Proof.Machine

/-- SECOND_BOUNDARY (R444): the calendar advances one second, synchronises, applies pending adjustments and evaluates
alarms. -/
def execSecondBoundary (dt : Nat) (s : State) : Host.Outcome State Fault Refusal :=
  event dt secondBoundary s

/-- RTC_TEMPERATURE_SAMPLE (R458): the always-on die temperature is sampled and the trim is recomputed. -/
def execRtcTemperatureSample (dt : Nat) (t : Int) (s : State) : Host.Outcome State Fault Refusal :=
  event dt (rtcTempSample t) s

/-- RTC_LEARNING_WINDOW (R459): a 256 s window updates the learned trim points. -/
def execRtcLearningWindow (dt : Nat) (r : Int) (mean : Int) (span : Nat) (s : State) : Host.Outcome State Fault Refusal :=
  event dt (learningWindow r mean span) s

/-- LEARNED_TABLE_SAVE (R459): PWR writes the learned RTC table to MRAM every hour. -/
def execLearnedTableSave (dt : Nat) (s : State) : Host.Outcome State Fault Refusal :=
  event dt learnedSave s

end Sys2Proof.Machine
end

