-- ==== Sys2Proof/Machine/CtrlRows.lean ====
section
/-! DEFINITION. The rows of the control engines: releases, instructions, lockstep, images and online change. -/

namespace Sys2Proof.Machine

/-- TASK_RELEASE (R249): at a release instant, a task is latched and executed, or skipped as an overrun. -/
def execTaskRelease (dt : Nat) (e : Fin 2) (t : Fin 16) (s : State) : Host.Outcome State Fault Refusal :=
  event dt (taskRelease e.val t.val) s

/-- OUTPUT_APPLY (R32): at the first tick after a publication completes, PIO and VAX apply the output map. -/
def execOutputApply (dt : Nat) (s : State) : Host.Outcome State Fault Refusal :=
  event dt outputApply s

/-- LOCKSTEP_MISMATCH (R263): a comparator mismatch rolls back and re-executes the execution, or stops the engines if
it is not recovered. -/
def execLockstepMismatch (dt : Nat) (e : Fin 2) (inRollback : Bool) (s : State) : Host.Outcome State Fault Refusal :=
  event dt (lockstepMismatch e.val inRollback) s

/-- ALU (R275): a control instruction that performs an integer operation selected by FN. -/
def execAlu (dt : Nat) (e : Fin 2) (d : Fin 16) (a : Fin 16) (b : Fin 16) (fn : BitVec 14)
    (s : State) : Host.Outcome State Fault Refusal :=
  event dt (ctrlAlu e.val d.val a.val b.val fn.toNat) s

/-- FPU (R275): a control instruction that performs a binary64 operation selected by FN. -/
def execFpu (dt : Nat) (e : Fin 2) (d : Fin 16) (a : Fin 16) (b : Fin 16) (fn : BitVec 14)
    (s : State) : Host.Outcome State Fault Refusal :=
  event dt (ctrlFpu e.val d.val a.val b.val fn.toNat) s

/-- ADDI (R275): a control instruction that adds a sign-extended immediate. -/
def execAddi (dt : Nat) (e : Fin 2) (d : Fin 16) (a : Fin 16) (imm : BitVec 18)
    (s : State) : Host.Outcome State Fault Refusal :=
  event dt (ctrlAddi e.val d.val a.val imm) s

/-- ANDI_ORI_XORI (R275): a control instruction that applies a logic operation with a zero-extended immediate. -/
def execAndiOriXori (dt : Nat) (e : Fin 2) (kind : Fin 3) (d : Fin 16) (a : Fin 16) (imm : BitVec 18)
    (s : State) : Host.Outcome State Fault Refusal :=
  event dt (ctrlLogic e.val kind.val d.val a.val imm) s

/-- LUI (R275): a control instruction that loads an upper immediate. -/
def execLui (dt : Nat) (e : Fin 2) (d : Fin 16) (a : Fin 16) (imm : BitVec 18)
    (s : State) : Host.Outcome State Fault Refusal :=
  event dt (ctrlLui e.val d.val a.val imm) s

/-- LOAD_INSTRUCTION (R275): a control instruction, LB to LD, that loads from memory. -/
def execLoadInstruction (dt : Nat) (e : Fin 2) (kind : Fin 7) (d : Fin 16) (a : Fin 16) (imm : BitVec 18) (err : MemErr)
    (s : State) : Host.Outcome State Fault Refusal :=
  event dt (ctrlLoadRow e.val kind.val d.val a.val imm err) s

/-- STORE_INSTRUCTION (R247): a control instruction, SB to SD, that journals and stores to memory. -/
def execStoreInstruction (dt : Nat) (e : Fin 2) (kind : Fin 4) (d : Fin 16) (a : Fin 16) (imm : BitVec 18)
    (s : State) : Host.Outcome State Fault Refusal :=
  event dt (ctrlStoreRow e.val kind.val d.val a.val imm) s

/-- BRANCH_INSTRUCTION (R275): a control instruction, BEQ to BLTU, that branches conditionally. -/
def execBranchInstruction (dt : Nat) (e : Fin 2) (kind : Fin 4) (d : Fin 16) (a : Fin 16) (imm : BitVec 18)
    (s : State) : Host.Outcome State Fault Refusal :=
  event dt (ctrlBranch e.val kind.val d.val a.val imm) s

/-- JMP (R275): a control instruction that jumps relative to pc. -/
def execJmp (dt : Nat) (e : Fin 2) (off : BitVec 26) (s : State) : Host.Outcome State Fault Refusal :=
  event dt (ctrlJmp e.val off) s

/-- CALL (R275): a control instruction that pushes a return address and jumps. -/
def execCall (dt : Nat) (e : Fin 2) (off : BitVec 26) (s : State) : Host.Outcome State Fault Refusal :=
  event dt (ctrlCall e.val off) s

/-- CALLB (R275): a control instruction that calls a block type with an instance address. -/
def execCallb (dt : Nat) (e : Fin 2) (d : Fin 16) (a : Fin 16) (imm : BitVec 18)
    (s : State) : Host.Outcome State Fault Refusal :=
  event dt (ctrlCallb e.val d.val a.val imm) s

/-- RET (R275): a control instruction that returns from a call. -/
def execRet (dt : Nat) (e : Fin 2) (d : Fin 16) (a : Fin 16) (b : Fin 16) (fn : BitVec 14)
    (s : State) : Host.Outcome State Fault Refusal :=
  event dt (ctrlRet e.val d.val a.val b.val fn.toNat) s

/-- SYS (R275): a control instruction that reads a time value or the task identity. -/
def execSys (dt : Nat) (e : Fin 2) (d : Fin 16) (a : Fin 16) (b : Fin 16) (fn : BitVec 14)
    (s : State) : Host.Outcome State Fault Refusal :=
  event dt (ctrlSys e.val d.val a.val b.val fn.toNat) s

/-- JR (R275): a control instruction that jumps to a register address. -/
def execJr (dt : Nat) (e : Fin 2) (d : Fin 16) (a : Fin 16) (b : Fin 16) (fn : BitVec 14)
    (s : State) : Host.Outcome State Fault Refusal :=
  event dt (ctrlJr e.val d.val a.val b.val fn.toNat) s

/-- END (R256): a control instruction that ends the execution, applies forces and publishes the output image. -/
def execEndRun (dt : Nat) (e : Fin 2) (d : Fin 16) (a : Fin 16) (b : Fin 16) (fn : BitVec 14)
    (s : State) : Host.Outcome State Fault Refusal :=
  event dt (ctrlEnd e.val d.val a.val b.val fn.toNat) s

/-- TRAP (R261): a control instruction that ends the execution in a task fault. -/
def execTrap (dt : Nat) (e : Fin 2) (w : W32) (s : State) : Host.Outcome State Fault Refusal :=
  event dt (ctrlTrap e.val w) s

/-- ONLINE_CHANGE_PREPARED (R299): online-change preparation of the matched instance data completes. -/
def execOnlineChangePrepared (dt : Nat) (s : State) : Host.Outcome State Fault Refusal :=
  event dt changePrepared s

/-- CHANGE_TICK (R299): at T, the options are checked and releases are held from then on. -/
def execChangeTick (dt : Nat) (s : State) : Host.Outcome State Fault Refusal :=
  event dt (fun s => swapTick (changeTick s)) s

/-- EXCHANGE (R302): once both engines have drained, the image exchange runs. -/
def execExchange (dt : Nat) (s : State) : Host.Outcome State Fault Refusal :=
  event dt exchange s

/-- LATCH_TICK (R303): at the first tick after the exchange, the held releases are latched and the change completes.
-/
def execLatchTick (dt : Nat) (s : State) : Host.Outcome State Fault Refusal :=
  event dt latchTick s

/-- CHANGE_DRAIN_TIMEOUT (R301): the drain exceeds CHANGE_DRAIN_MAX and the change is abandoned. -/
def execChangeDrainTimeout (dt : Nat) (s : State) : Host.Outcome State Fault Refusal :=
  event dt (fun s => swapTimeout (changeDrainTimeout s)) s

/-- BLOCK_IMAGE_VALIDATION_COMPLETE (R266): validation of a fully received block image ends, its STAGE and validation
code are set and the last chunk is answered. -/
def execBlockImageValidationComplete (dt : Nat) (s : State) : Host.Outcome State Fault Refusal :=
  event dt blockValidated s

/-- BLOCK_IMAGE_FLASH_WRITE (R307): the write of the new running block image to a flash slot completes and the
selector is updated. -/
def execBlockImageFlashWrite (dt : Nat) (s : State) : Host.Outcome State Fault Refusal :=
  event dt blockFlashed s

end Sys2Proof.Machine
end

