-- ==== Sys2Proof/Machine/GuardRows.lean ====
section
/-! DEFINITION. The rows of security, tamper detection, integrity and snapshots. -/

namespace Sys2Proof.Machine

/-- REMASK (R494): every 250 ms, every occupied key slot is re-masked. -/
def execRemask (dt : Nat) (s : State) : Host.Outcome State Fault Refusal :=
  event dt remask s

/-- IMAGE_SWITCH (R518): a pending firmware image switches at its switch point, runs its self-test and is kept or
reverted. -/
def execImageSwitch (dt : Nat) (cls : Fin 8) (restartUs : Fin 150001) (selfTest : Bool)
    (s : State) : Host.Outcome State Fault Refusal :=
  event dt (imageSwitch cls.val restartUs.val selfTest) s

/-- TAMPER (R522): an armed tamper source is detected; the latch is set, keys are zeroised and LOCKDOWN is entered. -/
def execTamper (dt : Nat) (x : TamperSign) (s : State) : Host.Outcome State Fault Refusal :=
  event dt (tamperSign x) s

/-- TRNG_HEALTH_FAILURE (R498): a TRNG health test fails and output stops. -/
def execTrngHealthFailure (dt : Nat) (s : State) : Host.Outcome State Fault Refusal :=
  event dt trngFailure s

/-- SCRUB_PASS (R532): INTG scrubs each scrubbed memory once per SCRUB_PERIOD. -/
def execScrubPass (dt : Nat) (fs : List ScrubFinding) (s : State) : Host.Outcome State Fault Refusal :=
  event dt (scrubPass fs) s

/-- WATCHDOG_EXPIRY (R533): an engine watchdog times out, and the engine restarts or FAULT is entered. -/
def execWatchdogExpiry (dt : Nat) (w : WdtEngine) (s : State) : Host.Outcome State Fault Refusal :=
  event dt (watchdogExpiry w) s

/-- SNAPSHOT_TICK (R536): at the first tick after a snapshot source, every block latches its section. -/
def execSnapshotTick (dt : Nat) (s : State) : Host.Outcome State Fault Refusal :=
  event dt snapshotTick s

/-- IMAGE_VERIFICATION_COMPLETE (R517): the Cloister finishes verifying a fully staged firmware image, and the slot
becomes STAGE 3 or 4 with its code and digest. -/
def execImageVerificationComplete (dt : Nat) (cls : Fin 8) (readable : Bool) (classOk : Bool)
    (s : State) : Host.Outcome State Fault Refusal :=
  event dt (imageVerified cls.val readable classOk) s

/-- SNAP_IN_EDGE (R535): a filtered SNAP_IN edge of the selected polarity is a snapshot source: it fixes the snapshot
tick when the trigger is armed, or counts in SNAP_MISSED when it is disarmed. -/
def execSnapInEdge (dt : Nat) (rising : Bool) (s : State) : Host.Outcome State Fault Refusal :=
  event dt (snapInEdge rising) s

/-- MESH_COMPARISON (R520): at each mesh comparison (1 kHz, or 32 Hz in BACKUP), a single pattern mismatch is counted
in MESH_MISMATCHES, and a second consecutive mismatch is a detection. -/
def execMeshComparison (dt : Nat) (loop : Fin 2) (mismatch : Bool) (s : State) : Host.Outcome State Fault Refusal :=
  event dt (meshComparison loop.val mismatch) s

end Sys2Proof.Machine
end

