-- ==== Sys2Proof/Machine/HostRows.lean ====
section
/-! DEFINITION. The rows of the host commands: each is a packet of its opcode put through the acceptance checks of
Machine/Host.lean. -/

namespace Sys2Proof.Machine

/-- SYS_STATUS (R569): host command that returns the device status body. -/
def execSysStatus (dt : Nat) (q : Env) (pl : Bytes) (s : State) : Host.Outcome State Fault Refusal :=
  event dt (hostCommand cmdSysStatus q pl) s

/-- SYS_MODE_REQUEST (R49): host command that requests a mode transition; it is answered when the transition ends. -/
def execSysModeRequest (dt : Nat) (q : Env) (pl : Bytes) (s : State) : Host.Outcome State Fault Refusal :=
  event dt (hostCommand cmdModeRequest q pl) s

/-- SYS_RESET (R571): host command that confirms a reset; it replies, makes an orderly save and leaves a main reset
pending. -/
def execSysReset (dt : Nat) (q : Env) (pl : Bytes) (s : State) : Host.Outcome State Fault Refusal :=
  event dt (hostCommand cmdSysReset q pl) s

/-- PARAM_READ (R572): host command that reads a run of consecutive parameters of one block as they stand in effect.
-/
def execParamRead (dt : Nat) (q : Env) (pl : Bytes) (s : State) : Host.Outcome State Fault Refusal :=
  event dt (hostCommand cmdParamRead q pl) s

/-- PARAM_WRITE (R573): host command that atomically writes 1 to 16 parameters; it covers writes to every register
without a row of its own. -/
def execParamWrite (dt : Nat) (q : Env) (pl : Bytes) (s : State) : Host.Outcome State Fault Refusal :=
  event dt (hostCommand cmdParamWrite q pl) s

/-- PIO_FAULT_CLEAR (R385): a W1C write of PIO_FAULT that clears the output fault bits written with 1. -/
def execPioFaultClear (dt : Nat) (q : Env) (mask : W64) (s : State) : Host.Outcome State Fault Refusal :=
  event dt (hostCommand cmdParamWrite q (paramWriteOne 0x0A98 4 mask.toNat)) s

/-- RTC_STATUS_CLEAR (R460): a W1C write of RTC_STATUS that clears the alarm, lost, wrap and backup-alarm flags. -/
def execRtcStatusClear (dt : Nat) (q : Env) (mask : W64) (s : State) : Host.Outcome State Fault Refusal :=
  event dt (hostCommand cmdParamWrite q (paramWriteOne 0x0E14 4 mask.toNat)) s

/-- BUFFER_STATE_READ (R244): a read of BUFFER_STATE, which returns PEAK and resets it to the current level. -/
def execBufferStateRead (dt : Nat) (q : Env) (s : State) : Host.Outcome State Fault Refusal :=
  event dt (hostCommand cmdParamRead q (paramReadOne 0x0518)) s

/-- RTC_DATE_READ (R443): a read of RTC_DATE, which latches RTC_TIME and RTC_SUBSEC for the transport. -/
def execRtcDateRead (dt : Nat) (q : Env) (s : State) : Host.Outcome State Fault Refusal :=
  event dt (hostCommand cmdParamRead q (paramReadOne 0x0E10)) s

/-- RESULT_FETCH (R92): host command that returns the state or the held body range of a tag. -/
def execResultFetch (dt : Nat) (q : Env) (pl : Bytes) (s : State) : Host.Outcome State Fault Refusal :=
  event dt (hostCommand cmdResultFetch q pl) s

/-- RESULT_RELEASE (R94): host command that frees a HELD tag. -/
def execResultRelease (dt : Nat) (q : Env) (pl : Bytes) (s : State) : Host.Outcome State Fault Refusal :=
  event dt (hostCommand cmdResultRelease q pl) s

/-- SNAPSHOT_TRIGGER (R538): host command that arms the snapshot trigger and, with ACTION 1, also triggers a snapshot.
-/
def execSnapshotTrigger (dt : Nat) (q : Env) (pl : Bytes) (s : State) : Host.Outcome State Fault Refusal :=
  event dt (hostCommand cmdSnapshotTrigger q pl) s

/-- SNAPSHOT_READ (R539): host command that returns snapshot sections. -/
def execSnapshotRead (dt : Nat) (q : Env) (pl : Bytes) (s : State) : Host.Outcome State Fault Refusal :=
  event dt (hostCommand cmdSnapshotRead q pl) s

/-- HIF_CREDIT_SYNC (R88): host command that resynchronises credits, increments the epoch and clears UNSYNC. -/
def execHifCreditSync (dt : Nat) (q : Env) (pl : Bytes) (s : State) : Host.Outcome State Fault Refusal :=
  event dt (hostCommand cmdCreditSync q pl) s

/-- HIF_SESSION_OPEN (R97): host command that verifies the host signature and derives session keys by ECDH. -/
def execHifSessionOpen (dt : Nat) (q : Env) (pl : Bytes) (s : State) : Host.Outcome State Fault Refusal :=
  event dt (hostCommand cmdSessionOpen q pl) s

/-- SOLV_JOB_SUBMIT (R174): host command that queues a job on flights 4 to 7 and completes when the job ends. -/
def execSolvJobSubmit (dt : Nat) (q : Env) (pl : Bytes) (s : State) : Host.Outcome State Fault Refusal :=
  event dt (hostCommand cmdJobSubmit q pl) s

/-- SOLV_TEST_WRITE (R175): host command that writes data into the LPDDR4X test region. -/
def execSolvTestWrite (dt : Nat) (q : Env) (pl : Bytes) (s : State) : Host.Outcome State Fault Refusal :=
  event dt (hostCommand cmdTestWrite q pl) s

/-- SOLV_TEST_READ (R175): host command that reads bytes from the test region. -/
def execSolvTestRead (dt : Nat) (q : Env) (pl : Bytes) (s : State) : Host.Outcome State Fault Refusal :=
  event dt (hostCommand cmdTestRead q pl) s

/-- NMOD_MODEL_LOAD (R124): host command that delivers one chunk of a Mizon image and validates the image after the
last chunk. -/
def execNmodModelLoad (dt : Nat) (q : Env) (pl : Bytes) (s : State) : Host.Outcome State Fault Refusal :=
  event dt (hostCommand cmdModelLoad q pl) s

/-- NMOD_MODEL_ACTIVATE (R127): host command that starts building the staged model so that it is activated at a cut.
-/
def execNmodModelActivate (dt : Nat) (q : Env) (pl : Bytes) (s : State) : Host.Outcome State Fault Refusal :=
  event dt (hostCommand cmdModelActivate q pl) s

/-- NMOD_ROUND_CONFIG (R217): host command that sets or reads the one-second round configuration. -/
def execNmodRoundConfig (dt : Nat) (q : Env) (pl : Bytes) (s : State) : Host.Outcome State Fault Refusal :=
  event dt (hostCommand cmdRoundConfig q pl) s

/-- NMOD_RESULT_GET (R213): host command that returns a retained estimation result, optimisation result or optimiser
input record. -/
def execNmodResultGet (dt : Nat) (q : Env) (pl : Bytes) (s : State) : Host.Outcome State Fault Refusal :=
  event dt (hostCommand cmdResultGet q pl) s

/-- NMOD_OPT_CONFIG (R218): host command that sets or reads the optimisation configuration. -/
def execNmodOptConfig (dt : Nat) (q : Env) (pl : Bytes) (s : State) : Host.Outcome State Fault Refusal :=
  event dt (hostCommand cmdOptConfig q pl) s

/-- NMOD_FORECAST_LOAD (R199): host command that loads or replaces one forecast series. -/
def execNmodForecastLoad (dt : Nat) (q : Env) (pl : Bytes) (s : State) : Host.Outcome State Fault Refusal :=
  event dt (hostCommand cmdForecastLoad q pl) s

/-- NMOD_CALIB_GET (R135): host command that returns the newest calibration proposal. -/
def execNmodCalibGet (dt : Nat) (q : Env) (pl : Bytes) (s : State) : Host.Outcome State Fault Refusal :=
  event dt (hostCommand cmdCalibGet q pl) s

/-- NMOD_CALIB_ADOPT (R135): host command that stages a copy of the active model with the proposed factors applied and
validates it. -/
def execNmodCalibAdopt (dt : Nat) (q : Env) (pl : Bytes) (s : State) : Host.Outcome State Fault Refusal :=
  event dt (hostCommand cmdCalibAdopt q pl) s

/-- SUBL_REGISTER (R227): host command that registers or replaces a substation; the registration takes effect at a
cut. -/
def execSublRegister (dt : Nat) (q : Env) (pl : Bytes) (s : State) : Host.Outcome State Fault Refusal :=
  event dt (hostCommand cmdSublRegister q pl) s

/-- SUBL_UNREGISTER (R229): host command that removes a substation entry at the next cut. -/
def execSublUnregister (dt : Nat) (q : Env) (pl : Bytes) (s : State) : Host.Outcome State Fault Refusal :=
  event dt (hostCommand cmdSublUnregister q pl) s

/-- SUBL_STATUS (R243): host command that returns the counters and state of one substation entry. -/
def execSublStatus (dt : Nat) (q : Env) (pl : Bytes) (s : State) : Host.Outcome State Fault Refusal :=
  event dt (hostCommand cmdSublStatus q pl) s

/-- CTRL_IMAGE_LOAD (R266): host command that delivers one chunk of a block image and validates the image after the
last chunk. -/
def execCtrlImageLoad (dt : Nat) (q : Env) (pl : Bytes) (s : State) : Host.Outcome State Fault Refusal :=
  event dt (hostCommand cmdCtrlImageLoad q pl) s

/-- CTRL_ONLINE_CHANGE (R298): host command that starts an online change to the staged block image. -/
def execCtrlOnlineChange (dt : Nat) (q : Env) (pl : Bytes) (s : State) : Host.Outcome State Fault Refusal :=
  event dt (hostCommand cmdOnlineChange q pl) s

/-- CTRL_COLD_START (R267): host command that loads the staged image and restarts every task with FIRST_SCAN. -/
def execCtrlColdStart (dt : Nat) (q : Env) (pl : Bytes) (s : State) : Host.Outcome State Fault Refusal :=
  event dt (hostCommand cmdColdStart q pl) s

/-- CTRL_FORCE_SET (R293): host command that forces a variable to a value. -/
def execCtrlForceSet (dt : Nat) (q : Env) (pl : Bytes) (s : State) : Host.Outcome State Fault Refusal :=
  event dt (hostCommand cmdForceSet q pl) s

/-- CTRL_FORCE_CLEAR (R294): host command that removes one force or every force. -/
def execCtrlForceClear (dt : Nat) (q : Env) (pl : Bytes) (s : State) : Host.Outcome State Fault Refusal :=
  event dt (hostCommand cmdForceClear q pl) s

/-- CTRL_FORCE_LIST (R295): host command that lists the forces in force. -/
def execCtrlForceList (dt : Nat) (q : Env) (pl : Bytes) (s : State) : Host.Outcome State Fault Refusal :=
  event dt (hostCommand cmdForceList q pl) s

/-- CTRL_TASK_CONTROL (R276): host command that stops or starts a control task. -/
def execCtrlTaskControl (dt : Nat) (q : Env) (pl : Bytes) (s : State) : Host.Outcome State Fault Refusal :=
  event dt (hostCommand cmdTaskControl q pl) s

/-- CTRL_TASK_STATUS (R277): host command that returns the state and counters of a task. -/
def execCtrlTaskStatus (dt : Nat) (q : Env) (pl : Bytes) (s : State) : Host.Outcome State Fault Refusal :=
  event dt (hostCommand cmdTaskStatus q pl) s

/-- MEL_CAL_WINDOW (R350): host command that schedules an electrical calibration accumulation window. -/
def execMelCalWindow (dt : Nat) (q : Env) (pl : Bytes) (s : State) : Host.Outcome State Fault Refusal :=
  event dt (hostCommand cmdCalWindow q pl) s

/-- BILL_READ (R371): host command that reads registers, save records, interval records, gap records or the firmware
identity. -/
def execBillRead (dt : Nat) (q : Env) (pl : Bytes) (s : State) : Host.Outcome State Fault Refusal :=
  event dt (hostCommand cmdBillRead q pl) s

/-- VAX_MOVE (R409): host command that moves a valve axis, or acknowledges a fault on it, in SERVICE. -/
def execVaxMove (dt : Nat) (q : Env) (pl : Bytes) (s : State) : Host.Outcome State Fault Refusal :=
  event dt (hostCommand cmdVaxMove q pl) s

/-- VAX_HOME (R410): host command that homes a valve axis. -/
def execVaxHome (dt : Nat) (q : Env) (pl : Bytes) (s : State) : Host.Outcome State Fault Refusal :=
  event dt (hostCommand cmdVaxHome q pl) s

/-- VAX_STATUS (R412): host command that returns the axis status record. -/
def execVaxStatus (dt : Nat) (q : Env) (pl : Bytes) (s : State) : Host.Outcome State Fault Refusal :=
  event dt (hostCommand cmdVaxStatus q pl) s

/-- TIME_SET (R433): host command that steps the PTP clock, either at once or at the next PPS edge. -/
def execTimeSet (dt : Nat) (q : Env) (pl : Bytes) (s : State) : Host.Outcome State Fault Refusal :=
  event dt (hostCommand cmdTimeSet q pl) s

/-- TIME_TRIGGER_SET (R437): host command that programs a time-trigger output. -/
def execTimeTriggerSet (dt : Nat) (q : Env) (pl : Bytes) (s : State) : Host.Outcome State Fault Refusal :=
  event dt (hostCommand cmdTriggerSet q pl) s

/-- TIME_CAPTURE_GET (R439): host command that returns the current capture page. -/
def execTimeCaptureGet (dt : Nat) (q : Env) (pl : Bytes) (s : State) : Host.Outcome State Fault Refusal :=
  event dt (hostCommand cmdCaptureGet q pl) s

/-- RTC_SET (R450): host command that sets the calendar at the next tick. -/
def execRtcSet (dt : Nat) (q : Env) (pl : Bytes) (s : State) : Host.Outcome State Fault Refusal :=
  event dt (hostCommand cmdRtcSet q pl) s

/-- RTC_DST_ADJUST (R452): host command that leaves a summer-time adjustment pending for the next second boundary. -/
def execRtcDstAdjust (dt : Nat) (q : Env) (pl : Bytes) (s : State) : Host.Outcome State Fault Refusal :=
  event dt (hostCommand cmdDstAdjust q pl) s

/-- RTC_ALARM_SET (R453): host command that configures a calendar alarm. -/
def execRtcAlarmSet (dt : Nat) (q : Env) (pl : Bytes) (s : State) : Host.Outcome State Fault Refusal :=
  event dt (hostCommand cmdAlarmSet q pl) s

/-- EPD_DRAW (R478): host command that writes pixels to the canvas and optionally requests an update of a host region.
-/
def execEpdDraw (dt : Nat) (q : Env) (pl : Bytes) (s : State) : Host.Outcome State Fault Refusal :=
  event dt (hostCommand cmdEpdDraw q pl) s

/-- EVR_READ (R490): host command that reads log entries, audit entries, period records or event counters. -/
def execEvrRead (dt : Nat) (q : Env) (pl : Bytes) (s : State) : Host.Outcome State Fault Refusal :=
  event dt (hostCommand cmdEvrRead q pl) s

/-- EVR_CLEAR (R491): host command that discards the event log or the period records. -/
def execEvrClear (dt : Nat) (q : Env) (pl : Bytes) (s : State) : Host.Outcome State Fault Refusal :=
  event dt (hostCommand cmdEvrClear q pl) s

/-- SEC_ATTEST (R505): host command that returns an attestation report or the identity certificate chain. -/
def execSecAttest (dt : Nat) (q : Env) (pl : Bytes) (s : State) : Host.Outcome State Fault Refusal :=
  event dt (hostCommand cmdAttest q pl) s

/-- SEC_LIFECYCLE_ADVANCE (R509): host command that advances the lifecycle state, destroys keys and leaves a reset
pending. -/
def execSecLifecycleAdvance (dt : Nat) (q : Env) (pl : Bytes) (s : State) : Host.Outcome State Fault Refusal :=
  event dt (hostCommand cmdLifecycle q pl) s

/-- SEC_IDENTITY_CERT (R507): host command that stores the identity certificate chain. -/
def execSecIdentityCert (dt : Nat) (q : Env) (pl : Bytes) (s : State) : Host.Outcome State Fault Refusal :=
  event dt (hostCommand cmdIdentityCert q pl) s

/-- SEC_IMAGE_STAGE (R517): host command that writes one chunk of a firmware image into the inactive slot and verifies
the image after the last chunk. -/
def execSecImageStage (dt : Nat) (q : Env) (pl : Bytes) (s : State) : Host.Outcome State Fault Refusal :=
  event dt (hostCommand cmdImageStage q pl) s

/-- SEC_IMAGE_ACTIVATE (R518): host command that leaves the activation of a verified image pending for its switch
point. -/
def execSecImageActivate (dt : Nat) (q : Env) (pl : Bytes) (s : State) : Host.Outcome State Fault Refusal :=
  event dt (hostCommand cmdImageActivate q pl) s

/-- SEC_KEY_INSTALL (R501): host command that installs or removes a host public key. -/
def execSecKeyInstall (dt : Nat) (q : Env) (pl : Bytes) (s : State) : Host.Outcome State Fault Refusal :=
  event dt (hostCommand cmdKeyInstall q pl) s

/-- SEC_KEY_IMPORT (R503): host command that imports K_site or the pair key, wrapped by ECDH. -/
def execSecKeyImport (dt : Nat) (q : Env) (pl : Bytes) (s : State) : Host.Outcome State Fault Refusal :=
  event dt (hostCommand cmdKeyImport q pl) s

/-- SEC_KEY_GENERATE (R504): host command that generates a signing key pair in a slot. -/
def execSecKeyGenerate (dt : Nat) (q : Env) (pl : Bytes) (s : State) : Host.Outcome State Fault Refusal :=
  event dt (hostCommand cmdKeyGenerate q pl) s

/-- SEC_KEY_SIGN (R504): host command that signs a digest with a generated key. -/
def execSecKeySign (dt : Nat) (q : Env) (pl : Bytes) (s : State) : Host.Outcome State Fault Refusal :=
  event dt (hostCommand cmdKeySign q pl) s

/-- SEC_KEY_DELETE (R504): host command that erases a generated key. -/
def execSecKeyDelete (dt : Nat) (q : Env) (pl : Bytes) (s : State) : Host.Outcome State Fault Refusal :=
  event dt (hostCommand cmdKeyDelete q pl) s

/-- SEC_TAMPER_RELEASE (R525): host command that clears the tamper latch in LOCKDOWN and leaves a reset pending. -/
def execSecTamperRelease (dt : Nat) (q : Env) (pl : Bytes) (s : State) : Host.Outcome State Fault Refusal :=
  event dt (hostCommand cmdTamperRelease q pl) s

/-- INTG_FAULT_READ (R542): host command that returns one fault record. -/
def execIntgFaultRead (dt : Nat) (q : Env) (pl : Bytes) (s : State) : Host.Outcome State Fault Refusal :=
  event dt (hostCommand cmdFaultRead q pl) s

end Sys2Proof.Machine
end

