-- ==== Sys2Proof/Machine/LinkRows.lean ====
section
/-! DEFINITION. The rows of the three transports, and of the log of a paired device. -/

namespace Sys2Proof.Machine

/-- WRITE_PACKET (R70): an xSPI transaction that delivers one request packet for the acceptance checks. -/
def execWritePacket (dt : Nat) (p : RxPacket) (s : State) : Host.Outcome State Fault Refusal :=
  event dt (writePacket p.bytes p.err) s

/-- READ_REPLY (R71): an xSPI transaction that reads the head reply and dequeues it when the read is complete. -/
def execReadReply (dt : Nat) (x : XspiRead) (s : State) : Host.Outcome State Fault Refusal :=
  event dt (readReply x.code.toNat x.count) s

/-- UDP_DATAGRAM (R72): a host UDP datagram arrives, is reassembled and filtered, and its packet enters the acceptance
checks. -/
def execUdpDatagram (dt : Nat) (f : RxFragment) (s : State) : Host.Outcome State Fault Refusal :=
  event dt (udpDatagram f.frag f.err) s

/-- UART_FRAME (R73): a service UART frame closes, is unstuffed, and its packet enters the acceptance checks. -/
def execUartFrame (dt : Nat) (p : RxPacket) (s : State) : Host.Outcome State Fault Refusal :=
  event dt (uartFrame p.bytes p.err) s

/-- FRAGMENT_DISCARD (R72): an incomplete datagram is discarded 100 ms after its first fragment. -/
def execFragmentDiscard (dt : Nat) (srcIp : W32) (ident : W16) (s : State) : Host.Outcome State Fault Refusal :=
  event dt (fragmentDiscard srcIp.toNat ident.toNat) s

/-- IRQ_HOLDOFF_END (R101): the IRQ_HOLDOFF period after a deassertion expires. -/
def execIrqHoldoffEnd (dt : Nat) (s : State) : Host.Outcome State Fault Refusal :=
  event dt irqHoldoffEnd s

/-- SESSION_IDLE_EXPIRY (R98): a session ends after SESSION_IDLE seconds without a verified packet. -/
def execSessionIdleExpiry (dt : Nat) (tr : Transport) (s : State) : Host.Outcome State Fault Refusal :=
  event dt (sessionIdle tr) s

/-- LOGGED_COMMAND_EFFECT (R61): a logged state-changing command executes and is answered at its tick of effect. -/
def execLoggedCommandEffect (dt : Nat) (s : State) : Host.Outcome State Fault Refusal :=
  event dt loggedEffect s

/-- UART_TRANSMIT_COMPLETE (R104): the last byte of a UART reply has been sent, so a UART_BAUD written by that
PARAM_WRITE takes effect. -/
def execUartTransmitComplete (dt : Nat) (s : State) : Host.Outcome State Fault Refusal :=
  event dt uartSent s

end Sys2Proof.Machine
end

