-- ==== Sys2Proof/Machine/MeterRows.lean ====
section
/-! DEFINITION. The rows of thermal and electrical metering and of the billing registers. -/

namespace Sys2Proof.Machine

/-- FRAME_END (R311): an RTD frame of 62.5 ms ends; temperatures, reference checks and fault conditions are updated.
-/
def execFrameEnd (dt : Nat) (fr : Vector RtdFrame 16) (s : State) : Host.Outcome State Fault Refusal :=
  event dt (frameEnd fr) s

/-- FLOW_PULSE (R317): a filtered pulse edge is counted by direction. -/
def execFlowPulse (dt : Nat) (c : Fin 16) (x : FlowEdge) (s : State) : Host.Outcome State Fault Refusal :=
  event dt (flowPulse c.val x.rising x.heldUs x.dir) s

/-- INTERVAL_BOUNDARY (R326): metering intervals close, records are written and pending metrology values take effect.
-/
def execIntervalBoundary (dt : Nat) (s : State) : Host.Outcome State Fault Refusal :=
  event dt intervalBoundary s

/-- LINE_CYCLE_CLOSE (R342): an electrical line cycle closes; its quanta are attributed and the supply conditions are
evaluated. -/
def execLineCycleClose (dt : Nat) (k : Fin 4) (x : CycleEnd) (ph : Phasors)
    (s : State) : Host.Outcome State Fault Refusal :=
  event dt (lineCycleClose k.val x ph) s

/-- ELECTRICAL_PAGE_PUBLISH (R348): electrical page 3 is published at each multiple of 200 ms. -/
def execElectricalPagePublish (dt : Nat) (s : State) : Host.Outcome State Fault Refusal :=
  event dt publishPage3 s

/-- CAL_WINDOW_END (R350): a calibration window ends, and MEL_CAL_WINDOW completes with its sums. -/
def execCalWindowEnd (dt : Nat) (k : Fin 4) (s : State) : Host.Outcome State Fault Refusal :=
  event dt (calWindowEnd k.val) s

/-- REGISTER_SAVE (R358): a periodic save takes a snapshot point and starts writing a save record. -/
def execRegisterSave (dt : Nat) (s : State) : Host.Outcome State Fault Refusal :=
  event dt registerSave s

/-- SAVE_READBACK (R358): a save write completes, is read back and compared. -/
def execSaveReadback (dt : Nat) (ok : Bool) (s : State) : Host.Outcome State Fault Refusal :=
  event dt (saveReadback ok) s

/-- ELECTRICAL_RAW_SAMPLE (R334): a decimated modulator sample arrives at 16 kHz: parity substitution, gain and delay
correction, MOD_FAULT density tracking, zero-crossing detection and calibration-window accumulation. -/
def execElectricalRawSample (dt : Nat) (k : Fin 4) (smp : Vector RawSample 6)
    (s : State) : Host.Outcome State Fault Refusal :=
  event dt (rawSample k.val smp) s

/-- FLOW_EDGE_REJECTED (R316): an edge on FLOWc_PULSE or FLOWc_DIR that the filter ignores is counted in
REJECTED_EDGES. -/
def execFlowEdgeRejected (dt : Nat) (c : Fin 16) (s : State) : Host.Outcome State Fault Refusal :=
  event dt (flowEdgeRejected c.val) s

end Sys2Proof.Machine
end

