-- ==== Sys2Proof/Machine/PairRows.lean ====
section
/-! DEFINITION. The rows of a device pair. -/

namespace Sys2Proof.Machine

/-- TAKEOVER (R64): the shadow's takeover timer expires and it takes the active role. -/
def execTakeover (dt : Nat) (s : State) : Host.Outcome State Fault Refusal :=
  event dt takeover s

/-- PAIR_LISTEN_END (R66): a 200 ms listening window ends; the device enters SHADOW or takes the active role. -/
def execPairListenEnd (dt : Nat) (s : State) : Host.Outcome State Fault Refusal :=
  event dt pairListenEnd s

/-- HEARTBEAT (R64): a received HEARTBEAT restarts the takeover timer or resolves a dual-active condition. -/
def execHeartbeat (dt : Nat) (tag : Bytes) (mode : Fin 12) (x : HeartbeatRest) (s : State) : Host.Outcome State Fault Refusal :=
  event dt (pairTaken 1 (heartbeatContent x.seq (modeAt mode) (x.back.map modeAt) x.round ⟨x.sec, x.ns⟩) tag
    (heartbeatRx (modeAt mode) (x.back.map modeAt))) s

/-- CUT_SEGMENT (R62): the shadow receives part of a cut vector and starts the round when it is complete. -/
def execCutSegment (dt : Nat) (tag : Bytes) (round : Nat) (index : Nat) (part : Bytes)
    (s : State) : Host.Outcome State Fault Refusal :=
  event dt (pairTaken 2 (cutContent round index part) tag (cutSegment round index part)) s

/-- IMAGE_SEGMENT (R255): the shadow receives an input image and runs the task on it. -/
def execImageSegment (dt : Nat) (tag : Bytes) (e : Fin 2) (t : Fin 16) (x : TimedImage) (s : State) : Host.Outcome State Fault Refusal :=
  event dt (pairTaken 3 (imageContent e.val t.val ⟨x.sec, x.ns⟩ x.image) tag (imageSegment e.val t.val x.image)) s

/-- COMMAND_LOG (R61): the shadow receives a logged command, or a late log entry clears its qualification. -/
def execCommandLog (dt : Nat) (tag : Bytes) (sec : Nat) (ns : Nat) (packet : Bytes)
    (s : State) : Host.Outcome State Fault Refusal :=
  event dt (pairTaken 4 (logContent sec ns packet) tag (commandLog sec ns packet)) s

/-- DIGEST (R63): a peer digest is compared with the own digest, and a mismatch clears qualification. -/
def execDigest (dt : Nat) (tag : Bytes) (kind : Nat) (round : Nat) (dig : Bytes)
    (s : State) : Host.Outcome State Fault Refusal :=
  event dt (pairTaken 5 (digestContent kind round dig) tag (digestRx kind round dig)) s

/-- RESYNC_REQUEST (R60): the active device receives a resync request and sends STATE_SEGMENT with the next cut. -/
def execResyncRequest (dt : Nat) (x : ResyncMsg) (s : State) : Host.Outcome State Fault Refusal :=
  event dt (pairTaken 6 (le 8 x.round) x.tag resyncRequest) s

/-- STATE_SEGMENT (R63): the shadow applies warm-start vectors, the trajectory and task instance data. -/
def execStateSegment (dt : Nat) (tag : Bytes) (seg : Bytes) (s : State) : Host.Outcome State Fault Refusal :=
  event dt (pairTaken 7 seg tag (stateSegment seg)) s

/-- SHADOW_STATUS (R60): the active device receives the shadow's qualification status. -/
def execShadowStatus (dt : Nat) (tag : Bytes) (x : ShadowReport) (s : State) : Host.Outcome State Fault Refusal :=
  event dt (pairTaken 8 (statusContent x.qualified x.last) tag (shadowStatus x.qualified)) s

/-- SHADOW_STATUS_SEND (R60): the shadow sends SHADOW_STATUS once per second. -/
def execShadowStatusSend (dt : Nat) (s : State) : Host.Outcome State Fault Refusal :=
  event dt shadowStatusSend s

end Sys2Proof.Machine
end

