-- ==== Sys2Proof/Machine/PanelRows.lean ====
section
/-! DEFINITION. The rows of the status display. -/

namespace Sys2Proof.Machine

/-- UPDATE_START (R470): a display update request starts once its region, overlap and concurrency rules allow. -/
def execUpdateStart (dt : Nat) (s : State) : Host.Outcome State Fault Refusal :=
  event dt updateStart s

/-- DISPLAY_PHASE (R462): the waveform engine drives one phase, every FRAME_US, and completes the update at its last
phase. -/
def execDisplayPhase (dt : Nat) (s : State) : Host.Outcome State Fault Refusal :=
  event dt displayPhase s

/-- EPD_POWER (R470): EPD_PWR_GOOD does not rise within 50 ms and the update completes without phases. -/
def execEpdPower (dt : Nat) (s : State) : Host.Outcome State Fault Refusal :=
  event dt epdPowerFail s

/-- EPD_POWER_GOOD (R470): EPD_PWR_GOOD rises and the first phase may follow. -/
def execEpdPowerGood (dt : Nat) (s : State) : Host.Outcome State Fault Refusal :=
  event dt epdPowerGood s

/-- EPD_POWER_OFF (R470): EPD_PWR_EN is deasserted 100 ms after the last update ends. -/
def execEpdPowerOff (dt : Nat) (s : State) : Host.Outcome State Fault Refusal :=
  event dt epdPowerOff s

/-- PANEL_TEMPERATURE_SAMPLE (R466): the panel temperature is sampled every 1 s and the band is updated. -/
def execPanelTemperatureSample (dt : Nat) (t : Option (BitVec 16)) (s : State) : Host.Outcome State Fault Refusal :=
  event dt (panelSample t) s

/-- DISPLAY_SCAN (R474): a frame-memory CRC scan completes and is compared with CRC_REF. -/
def execDisplayScan (dt : Nat) (ok : Bool) (s : State) : Host.Outcome State Fault Refusal :=
  event dt (displayScan ok) s

/-- STRIP_REFRESH (R477): every 60 minutes, core 3 requests the strips with FULL. -/
def execStripRefresh (dt : Nat) (s : State) : Host.Outcome State Fault Refusal :=
  event dt stripRefresh s

end Sys2Proof.Machine
end

