-- ==== Sys2Proof/Machine/PlantRows.lean ====
section
/-! DEFINITION. The rows of process I/O and of the valve axes. -/

namespace Sys2Proof.Machine

/-- ANALOG_CONVERSION (R376): a general analog conversion completes, and its value and status are updated. -/
def execAnalogConversion (dt : Nat) (a : Fin 16) (code : BitVec 24) (s : State) : Host.Outcome State Fault Refusal :=
  event dt (analogConversion a.val code) s

/-- DIGITAL_INPUT_EDGE (R379): a filtered digital input edge is counted and timestamped. -/
def execDigitalInputEdge (dt : Nat) (n : Fin 32) (pin : Bool) (s : State) : Host.Outcome State Fault Refusal :=
  event dt (digitalEdge n.val pin) s

/-- PAD_FAULT (R384): a pad mismatch lasts 20 µs, sets the output fault and optionally sets safe state. -/
def execPadFault (dt : Nat) (o : Fin 32) (read : Bool) (s : State) : Host.Outcome State Fault Refusal :=
  event dt (padFault o.val read) s

/-- FEEDBACK_FAULT (R384): a feedback mismatch lasts beyond FB_TIME and sets the output fault. -/
def execFeedbackFault (dt : Nat) (o : Fin 24) (s : State) : Host.Outcome State Fault Refusal :=
  event dt (feedbackFault o.val) s

/-- PROFILE_PERIOD (R388): a 40 µs axis period samples, regulates current, applies records and issues microsteps. -/
def execProfilePeriod (dt : Nat) (a : Fin 8) (m : AxisPeriod) (s : State) : Host.Outcome State Fault Refusal :=
  event dt (profilePeriod a.val m) s

/-- STALL (R399): the load angle exceeds STALL_ANGLE for the filter count, and a stall is detected. -/
def execStall (dt : Nat) (a : Fin 8) (gammaU : Int) (s : State) : Host.Outcome State Fault Refusal :=
  event dt (stallAt a.val gammaU) s

/-- DRIVE_FAULT (R407): an overcurrent or an open phase disables the bridges. -/
def execDriveFault (dt : Nat) (a : Fin 8) (openPhase : Bool) (s : State) : Host.Outcome State Fault Refusal :=
  event dt (driveFault a.val openPhase) s

/-- STANDSTILL_DELAY_EXPIRY (R395): after STANDSTILL_DELAY, the axis takes its standstill mode. -/
def execStandstillDelayExpiry (dt : Nat) (a : Fin 8) (s : State) : Host.Outcome State Fault Refusal :=
  event dt (standstillExpiry a.val) s

/-- PWM_PERIOD_BOUNDARY (R380): at the end of a PWM period, a pending duty, SAFE_DUTY or PWM_PERIOD takes effect on
the pin. -/
def execPwmPeriodBoundary (dt : Nat) (p : Fin 8) (s : State) : Host.Outcome State Fault Refusal :=
  event dt (pwmBoundary p.val) s

end Sys2Proof.Machine
end

