-- ==== Sys2Proof/Machine/PowerRows.lean ====
section
/-! DEFINITION. The rows of resets, supplies, clocks, BOOT and mode transitions. -/

namespace Sys2Proof.Machine

/-- MAIN_RESET (R556): a pending reset begins after SYS_RESET, a lifecycle advance or a tamper release, and resets the
main domain into BOOT. -/
def execMainReset (dt : Nat) (banks : Vector W16 8) (s : State) : Host.Outcome State Fault Refusal :=
  event dt (mainResetRow banks) s

/-- RESET_N (R557): RESET_N goes low, holds the main domain in reset and stops metering abruptly. -/
def execResetN (dt : Nat) (s : State) : Host.Outcome State Fault Refusal :=
  event dt resetN s

/-- RESET_N_RELEASE (R557): RESET_N returns high and the main reset releases into BOOT. -/
def execResetNRelease (dt : Nat) (banks : Vector W16 8) (s : State) : Host.Outcome State Fault Refusal :=
  event dt (resetNRelease banks) s

/-- ALWAYS_ON_RESET (R446): VDD_CORE or VBAT returns after both were lost, and the always-on domain restarts its
calendar, alarms and latch. -/
def execAlwaysOnReset (dt : Nat) (s : State) : Host.Outcome State Fault Refusal :=
  event dt alwaysOnReset s

/-- BACKUP_EXIT (R550): every main rail is within limits with PFW deasserted, and BACKUP is left for BOOT. -/
def execBackupExit (dt : Nat) (banks : Vector W16 8) (s : State) : Host.Outcome State Fault Refusal :=
  event dt (backupExit banks) s

/-- BOOT_END (R54): BOOT completes its verification, self-tests, register selection and gap record, and enters its
target mode. -/
def execBootEnd (dt : Nat) (x : BootReport) (s : State) : Host.Outcome State Fault Refusal :=
  event dt (bootEnd x) s

/-- PFW_ASSERTED (R547): PFW is asserted; HOLDUP is entered, metering stops and the outputs go to safe state. -/
def execPfwAsserted (dt : Nat) (s : State) : Host.Outcome State Fault Refusal :=
  event dt pfwAsserted s

/-- UNDERVOLTAGE (R547): a rail stays below its threshold; HOLDUP is entered, or the MRAM write path closes if already
in HOLDUP. -/
def execUndervoltage (dt : Nat) (x : RailDip) (s : State) : Host.Outcome State Fault Refusal :=
  event dt (railLow x.rail x.mv x.ns) s

/-- MRAM_WRITE_PATH_CLOSE (R549): the MRAM write path closes 2 ms after HOLDUP entry. -/
def execMramWritePathClose (dt : Nat) (s : State) : Host.Outcome State Fault Refusal :=
  event dt mramPathClose s

/-- HOLDUP_END (R549): HOLDUP ends 20 ms after entry, and BACKUP is entered. -/
def execHoldupEnd (dt : Nat) (s : State) : Host.Outcome State Fault Refusal :=
  event dt holdupEnd s

/-- PLL_LOCK_LOSS (R555): a main PLL loses lock and the loss is counted. -/
def execPllLockLoss (dt : Nat) (n : Fin 2) (s : State) : Host.Outcome State Fault Refusal :=
  event dt (pllLoss n.val) s

/-- PLL_LOCK_TIMEOUT (R555): a lock loss that lasts beyond 100 µs enters FAULT with cause 0x07. -/
def execPllLockTimeout (dt : Nat) (n : Fin 2) (s : State) : Host.Outcome State Fault Refusal :=
  event dt (pllTimeout n.val) s

/-- FLIGHT_WAKE (R552): in REDUCED, PWR wakes flights 0 and 1 200 µs before each cut. -/
def execFlightWake (dt : Nat) (s : State) : Host.Outcome State Fault Refusal :=
  event dt flightWake s

/-- FLIGHT_WAKE_END (R551): a waking flight finishes clearing its memory and becomes IDLE. -/
def execFlightWakeEnd (dt : Nat) (n : Fin 8) (s : State) : Host.Outcome State Fault Refusal :=
  event dt (flightWakeEnd n.val) s

/-- SUPPLY_MEASUREMENT (R560): the supplies and the die temperature are measured every 1 ms. -/
def execSupplyMeasurement (dt : Nat) (core : W16) (soc : W16) (ana : W16) (vbat : W16) (temp : W32)
    (s : State) : Host.Outcome State Fault Refusal :=
  event dt (supplyMeasure core soc ana vbat temp) s

/-- HOST_INTERFACE_START (R52): partway through BOOT the host interface starts, RX_READY rises, packets are no longer
dropped uncounted, and the ports and host pins are released. -/
def execHostInterfaceStart (dt : Nat) (s : State) : Host.Outcome State Fault Refusal :=
  event dt hostInterfaceStart s

/-- MODE_TRANSITION_END (R44): a timed mode transition (for example 100 µs to SAFE, 1 ms to SERVICE, 10 ms RUN to
REDUCED) finishes, TRANSITION returns to 0 and SYS_MODE_REQUEST is answered. -/
def execModeTransitionEnd (dt : Nat) (s : State) : Host.Outcome State Fault Refusal :=
  event dt modeTransitionEnd s

/-- PLL_LOCK_REGAINED (R555): a main PLL regains lock within 100 µs, its lock bit is set again and the pending FAULT
timeout is cancelled. -/
def execPllLockRegained (dt : Nat) (n : Fin 2) (s : State) : Host.Outcome State Fault Refusal :=
  event dt (pllRegained n.val) s

end Sys2Proof.Machine
end

