-- ==== Sys2Proof/Machine/RecorderRows.lean ====
section
/-! DEFINITION. The rows of the event recorder. -/

namespace Sys2Proof.Machine

/-- STAGING_DRAIN (R483): core 3 moves a staged event posting into MRAM. -/
def execStagingDrain (dt : Nat) (s : State) : Host.Outcome State Fault Refusal :=
  event dt stagingDrain s

/-- EVR_WINDOW_END (R484): a 60 s rate-limit window ends and EVR_SUPPRESSED entries are written. -/
def execEvrWindowEnd (dt : Nat) (s : State) : Host.Outcome State Fault Refusal :=
  event dt evrWindowEnd s

/-- COUNTER_COPY (R482): the event counters are copied to MRAM every 60 s. -/
def execCounterCopy (dt : Nat) (s : State) : Host.Outcome State Fault Refusal :=
  event dt counterCopyTick s

/-- RECORD_SAMPLE (R488): the record channels sample their sources on each whole second. -/
def execRecordSample (dt : Nat) (s : State) : Host.Outcome State Fault Refusal :=
  event dt recordSample s

/-- PERIOD_CLOSE (R489): an hourly or daily period record closes. -/
def execPeriodClose (dt : Nat) (s : State) : Host.Outcome State Fault Refusal :=
  event dt periodBoundary s

end Sys2Proof.Machine
end

