-- ==== Sys2Proof/Machine/RoundRows.lean ====
section
/-! DEFINITION. The rows of the cut, the rounds, the models, the solver jobs and the Gallery. -/

namespace Sys2Proof.Machine

/-- CUT (R28): at each multiple of the round period, reports, plant measurements and metrology values are frozen, and
rounds and deferred actions start. -/
def execCut (dt : Nat) (s : State) : Host.Outcome State Fault Refusal :=
  event dt cut s

/-- CUT_VECTOR_SEAL (R238): the Concourse seals the cut vector header and copies the frozen substation slots. -/
def execCutVectorSeal (dt : Nat) (s : State) : Host.Outcome State Fault Refusal :=
  event dt cutSeal s

/-- CORE_STALL (R210): at the round deadline + 1 ms without a published result, core 0 publishes on behalf of the
stalled core. -/
def execCoreStall (dt : Nat) (s : State) : Host.Outcome State Fault Refusal :=
  event dt coreStall s

/-- OPTIMISATION_WAIT_EXPIRY (R208): an optimisation round still waiting at its job deadline ends as STALE or
NO_SOLUTION. -/
def execOptimisationWaitExpiry (dt : Nat) (s : State) : Host.Outcome State Fault Refusal :=
  event dt optWaitExpiry s

/-- MODEL_BUILD_COMPLETE (R127): the working form of a staged model is built and waits for the next cut. -/
def execModelBuildComplete (dt : Nat) (s : State) : Host.Outcome State Fault Refusal :=
  event dt modelBuilt s

/-- MODEL_FLASH_WRITE (R131): the write of the active image to a flash slot completes and the slot selector is
updated. -/
def execModelFlashWrite (dt : Nat) (s : State) : Host.Outcome State Fault Refusal :=
  event dt modelFlashed s

/-- JOB_START (R146): a queued job starts once every flight of its mask is free and powered. -/
def execJobStart (dt : Nat) (host : Bool) (s : State) : Host.Outcome State Fault Refusal :=
  event dt (jobStart host) s

/-- JOB_COMPLETION (R144): a job ends, commits its outputs if OK and writes its completion record. -/
def execJobCompletion (dt : Nat) (host : Bool) (x : Option JobStop) (s : State) : Host.Outcome State Fault Refusal :=
  event dt (jobCompletion host x) s

/-- JOB_DEADLINE_MISS (R168): a flight finds the job deadline passed, and the job stops with DEADLINE_MISS. -/
def execJobDeadlineMiss (dt : Nat) (host : Bool) (x : JobStop) (s : State) : Host.Outcome State Fault Refusal :=
  event dt (jobDeadlineMiss host x) s

/-- GALLERY_TIMEOUT (R21): a target that has not responded within 100 µs receives a timeout error response from the
Gallery. -/
def execGalleryTimeout (dt : Nat) (target : Byte) (initiator : Byte) (addr : W32) (p0 : Bool)
    (s : State) : Host.Outcome State Fault Refusal :=
  event dt (galleryTimeout target.toNat initiator.toNat addr.toNat p0) s

/-- GALLERY_PROMOTION (R18): a P3 request that has waited 10 µs is promoted to P2. -/
def execGalleryPromotion (dt : Nat) (s : State) : Host.Outcome State Fault Refusal :=
  event dt galleryPromotion s

/-- BALUSTRADE_WRITE (R24): an outside write to the Mezzanine is discarded, answered with an error response and
recorded. -/
def execBalustradeWrite (dt : Nat) (s : State) : Host.Outcome State Fault Refusal :=
  event dt balustradeWrite s

/-- MODEL_VALIDATION_COMPLETE (R125): validation of a fully received Mizon image (or a NMOD_CALIB_ADOPT copy) ends,
STAGE becomes 3 or 4 and the last chunk is answered. -/
def execModelValidationComplete (dt : Nat) (s : State) : Host.Outcome State Fault Refusal :=
  event dt modelValidated s

/-- ABANDONED_READ_RESPONSE (R168): a response that arrives for an abandoned or timed-out read is discarded, counted
in ABANDONED_READS and its Gallery tag is returned. -/
def execAbandonedReadResponse (dt : Nat) (s : State) : Host.Outcome State Fault Refusal :=
  event dt abandonedRead s

end Sys2Proof.Machine
end

