-- ==== Sys2Proof/Machine/SublRows.lean ====
section
/-! DEFINITION. The rows of the substation link. -/

namespace Sys2Proof.Machine

/-- REPORT_ARRIVAL (R231): a substation datagram arrives and is counted as foreign, rejected because the buffer is
full, or buffered. -/
def execReportArrival (dt : Nat) (ip : W32) (port : W16) (x : UdpRest) (s : State) : Host.Outcome State Fault Refusal :=
  event dt (sublDatagram { toUdpRest := x, srcIp := ip, srcPort := port }) s

/-- REPORT_CLASSIFICATION (R231): the ingest engine takes a buffered report, classifies it and files it. -/
def execReportClassification (dt : Nat) (s : State) : Host.Outcome State Fault Refusal :=
  event dt reportClassification s

/-- SETPOINT_CONFIRM (R241): a SETPOINT_CONFIRM is classified and confirms an outstanding setpoint. -/
def execSetpointConfirm (dt : Nat) (ip : W32) (port : W16) (x : UdpRest) (s : State) : Host.Outcome State Fault Refusal :=
  event dt (sublDatagram { toUdpRest := x, srcIp := ip, srcPort := port }) s

/-- SETPOINT_ISSUE (R239): after a round publishes, SETPOINT messages are sent to every substation that has reported.
-/
def execSetpointIssue (dt : Nat) (s : State) : Host.Outcome State Fault Refusal :=
  event dt setpointIssue s

/-- CONFIRM_TIMEOUT_EXPIRY (R242): an outstanding setpoint expires after CONFIRM_TIMEOUT. -/
def execConfirmTimeoutExpiry (dt : Nat) (index : W16) (s : State) : Host.Outcome State Fault Refusal :=
  event dt (confirmTimeout index.toNat) s

/-- DOWNLINK_STATE_SAVE (R240): every 60 s, the highest EPOCH used, or the substation SEQUENCE values, are written to
MRAM. -/
def execDownlinkStateSave (dt : Nat) (s : State) : Host.Outcome State Fault Refusal :=
  event dt downlinkSave s

end Sys2Proof.Machine
end

