-- ==== Sys2Proof/Machine/TimeRows.lean ====
section
/-! DEFINITION. The rows of the Ethernet switch, PTP time, triggers and captures. -/

namespace Sys2Proof.Machine

/-- ETHERNET_FRAME (R416): a frame is received, filtered, learned and forwarded, with transparent-clock correction. -/
def execEthernetFrame (dt : Nat) (f : EthFrame) (s : State) : Host.Outcome State Fault Refusal :=
  event dt (etherFrame f) s

/-- PHY_SPEED_POLL (R414): the PHY speed is read over MDIO every 100 ms. -/
def execPhySpeedPoll (dt : Nat) (p : Fin 4) (up : Bool) (speed : Fin 3) (high : Bool)
    (s : State) : Host.Outcome State Fault Refusal :=
  event dt (phyPoll p.val up speed.val high) s

/-- ADDRESS_AGE_OUT (R416): a learned address ages out after 300 s without traffic. -/
def execAddressAgeOut (dt : Nat) (vid : Fin 4096) (mac : BitVec 48) (s : State) : Host.Outcome State Fault Refusal :=
  event dt (ageOut vid.val mac.toNat) s

/-- SYNC (R430): a Sync from the selected master updates the servo offset, steps or slews the clock, and changes the
servo state. -/
def execSync (dt : Nat) (port : Fin 4) (seq : W16) (twoStep : Bool) (origin : Nat) (corr : Int)
    (s : State) : Host.Outcome State Fault Refusal :=
  event dt (syncRx port.val seq.toNat twoStep origin corr) s

/-- ANNOUNCE (R434): an Announce updates master selection and the UTC offset. -/
def execAnnounce (dt : Nat) (port : Fin 4) (a : AnnounceMsg) (s : State) : Host.Outcome State Fault Refusal :=
  event dt (announce port.val a) s

/-- PDELAY_REQ (R423): a received Pdelay_Req is answered with a one-step Pdelay_Resp. -/
def execPdelayReq (dt : Nat) (port : Fin 4) (seq : W16) (s : State) : Host.Outcome State Fault Refusal :=
  event dt (pdelayReqRx port.val seq.toNat) s

/-- PDELAY_REQ_SEND (R423): each PTP-enabled port sends a Pdelay_Req once per second. -/
def execPdelayReqSend (dt : Nat) (s : State) : Host.Outcome State Fault Refusal :=
  event dt pdelayReqSend s

/-- SYNC_ANNOUNCE_SEND (R423): as master, the clock sends Announce and one-step Sync at its intervals. -/
def execSyncAnnounceSend (dt : Nat) (ann : Bool) (s : State) : Host.Outcome State Fault Refusal :=
  event dt (syncAnnounceSend ann) s

/-- SYNC_TIMEOUT (R429): a missing Sync, an Announce timeout, a link loss or a missing PPS moves the servo to
HOLDOVER. -/
def execSyncTimeout (dt : Nat) (k : LossKind) (s : State) : Host.Outcome State Fault Refusal :=
  event dt (syncTimeout k) s

/-- HOLDOVER_TIMEOUT (R429): a grandmaster in HOLDOVER for 3,600 s enters GM_FREE. -/
def execHoldoverTimeout (dt : Nat) (s : State) : Host.Outcome State Fault Refusal :=
  event dt holdoverTimeout s

/-- PPS_EDGE (R432): a PPS edge aligns the clock in the GM states or completes TIME_SET at AT_PPS. -/
def execPpsEdge (dt : Nat) (rising : Bool) (s : State) : Host.Outcome State Fault Refusal :=
  event dt (ppsEdge rising) s

/-- RTC_REFERENCE_WINDOW (R429): a 64 s TCXO-against-RTC window ends and INCREMENT is written. -/
def execRtcReferenceWindow (dt : Nat) (r : Nat) (s : State) : Host.Outcome State Fault Refusal :=
  event dt (rtcReferenceWindow r) s

/-- LEAP_SECOND (R434): a pending leap second takes effect at the UTC day boundary. -/
def execLeapSecond (dt : Nat) (s : State) : Host.Outcome State Fault Refusal :=
  event dt leapSecond s

/-- TRIGGER_PULSE_START (R435): a time-trigger output goes active at its programmed instant. -/
def execTriggerPulseStart (dt : Nat) (k : Fin 8) (s : State) : Host.Outcome State Fault Refusal :=
  event dt (triggerStart k.val) s

/-- TRIGGER_PULSE_END (R435): a time-trigger pulse ends after WIDTH_NS. -/
def execTriggerPulseEnd (dt : Nat) (k : Fin 8) (s : State) : Host.Outcome State Fault Refusal :=
  event dt (triggerEnd k.val) s

/-- CAPTURE_EDGE (R438): a capture input edge is timestamped into the ring. -/
def execCaptureEdge (dt : Nat) (n : Fin 4) (rising : Bool) (s : State) : Host.Outcome State Fault Refusal :=
  event dt (captureEdge n.val rising) s

/-- CAPTURE_PAGE_PUBLISH (R439): the capture page is published at the start of a tick after a capture. -/
def execCapturePagePublish (dt : Nat) (s : State) : Host.Outcome State Fault Refusal :=
  event dt capturePublish s

/-- FOLLOW_UP (R423): a Follow_Up from the selected master completes the two-step Sync measurement for the servo. -/
def execFollowUp (dt : Nat) (port : Fin 4) (seq : W16) (origin : Nat) (corr : Int)
    (s : State) : Host.Outcome State Fault Refusal :=
  event dt (followUp port.val seq.toNat origin corr) s

/-- DELAY_REQ_SEND (R423): in the end-to-end profile the slave clock sends a Delay_Req on PTP_PORT. -/
def execDelayReqSend (dt : Nat) (s : State) : Host.Outcome State Fault Refusal :=
  event dt delayReqSend s

/-- DELAY_RESP (R423): a Delay_Resp from the master updates the mean path delay (PATH_DELAY) used by the servo. -/
def execDelayResp (dt : Nat) (port : Fin 4) (seq : W16) (t4 : Nat) (corr : Int)
    (s : State) : Host.Outcome State Fault Refusal :=
  event dt (delayResp port.val seq.toNat t4 corr) s

/-- PDELAY_RESP (R423): a Pdelay_Resp answering the device's own Pdelay_Req yields the port's link delay. -/
def execPdelayResp (dt : Nat) (port : Fin 4) (seq : W16) (corr : Int) (s : State) : Host.Outcome State Fault Refusal :=
  event dt (pdelayResp port.val seq.toNat corr) s

end Sys2Proof.Machine
end

