-- ==== Sys2Proof/Machine/Dispatch.lean ====
section
/-! DEFINITION. The dispatcher: one arm for every row of the table. -/

namespace Sys2Proof.Machine

def exec (i : Instr) (s : State) : Host.Outcome State Fault Refusal :=
  match i with
  | .sysStatus dt q pl => Sys2Proof.Machine.execSysStatus dt q pl s
  | .sysModeRequest dt q pl => Sys2Proof.Machine.execSysModeRequest dt q pl s
  | .sysReset dt q pl => Sys2Proof.Machine.execSysReset dt q pl s
  | .paramRead dt q pl => Sys2Proof.Machine.execParamRead dt q pl s
  | .paramWrite dt q pl => Sys2Proof.Machine.execParamWrite dt q pl s
  | .pioFaultClear dt q mask => Sys2Proof.Machine.execPioFaultClear dt q mask s
  | .rtcStatusClear dt q mask => Sys2Proof.Machine.execRtcStatusClear dt q mask s
  | .bufferStateRead dt q => Sys2Proof.Machine.execBufferStateRead dt q s
  | .rtcDateRead dt q => Sys2Proof.Machine.execRtcDateRead dt q s
  | .resultFetch dt q pl => Sys2Proof.Machine.execResultFetch dt q pl s
  | .resultRelease dt q pl => Sys2Proof.Machine.execResultRelease dt q pl s
  | .snapshotTrigger dt q pl => Sys2Proof.Machine.execSnapshotTrigger dt q pl s
  | .snapshotRead dt q pl => Sys2Proof.Machine.execSnapshotRead dt q pl s
  | .hifCreditSync dt q pl => Sys2Proof.Machine.execHifCreditSync dt q pl s
  | .hifSessionOpen dt q pl => Sys2Proof.Machine.execHifSessionOpen dt q pl s
  | .solvJobSubmit dt q pl => Sys2Proof.Machine.execSolvJobSubmit dt q pl s
  | .solvTestWrite dt q pl => Sys2Proof.Machine.execSolvTestWrite dt q pl s
  | .solvTestRead dt q pl => Sys2Proof.Machine.execSolvTestRead dt q pl s
  | .nmodModelLoad dt q pl => Sys2Proof.Machine.execNmodModelLoad dt q pl s
  | .nmodModelActivate dt q pl => Sys2Proof.Machine.execNmodModelActivate dt q pl s
  | .nmodRoundConfig dt q pl => Sys2Proof.Machine.execNmodRoundConfig dt q pl s
  | .nmodResultGet dt q pl => Sys2Proof.Machine.execNmodResultGet dt q pl s
  | .nmodOptConfig dt q pl => Sys2Proof.Machine.execNmodOptConfig dt q pl s
  | .nmodForecastLoad dt q pl => Sys2Proof.Machine.execNmodForecastLoad dt q pl s
  | .nmodCalibGet dt q pl => Sys2Proof.Machine.execNmodCalibGet dt q pl s
  | .nmodCalibAdopt dt q pl => Sys2Proof.Machine.execNmodCalibAdopt dt q pl s
  | .sublRegister dt q pl => Sys2Proof.Machine.execSublRegister dt q pl s
  | .sublUnregister dt q pl => Sys2Proof.Machine.execSublUnregister dt q pl s
  | .sublStatus dt q pl => Sys2Proof.Machine.execSublStatus dt q pl s
  | .ctrlImageLoad dt q pl => Sys2Proof.Machine.execCtrlImageLoad dt q pl s
  | .ctrlOnlineChange dt q pl => Sys2Proof.Machine.execCtrlOnlineChange dt q pl s
  | .ctrlColdStart dt q pl => Sys2Proof.Machine.execCtrlColdStart dt q pl s
  | .ctrlForceSet dt q pl => Sys2Proof.Machine.execCtrlForceSet dt q pl s
  | .ctrlForceClear dt q pl => Sys2Proof.Machine.execCtrlForceClear dt q pl s
  | .ctrlForceList dt q pl => Sys2Proof.Machine.execCtrlForceList dt q pl s
  | .ctrlTaskControl dt q pl => Sys2Proof.Machine.execCtrlTaskControl dt q pl s
  | .ctrlTaskStatus dt q pl => Sys2Proof.Machine.execCtrlTaskStatus dt q pl s
  | .melCalWindow dt q pl => Sys2Proof.Machine.execMelCalWindow dt q pl s
  | .billRead dt q pl => Sys2Proof.Machine.execBillRead dt q pl s
  | .vaxMove dt q pl => Sys2Proof.Machine.execVaxMove dt q pl s
  | .vaxHome dt q pl => Sys2Proof.Machine.execVaxHome dt q pl s
  | .vaxStatus dt q pl => Sys2Proof.Machine.execVaxStatus dt q pl s
  | .timeSet dt q pl => Sys2Proof.Machine.execTimeSet dt q pl s
  | .timeTriggerSet dt q pl => Sys2Proof.Machine.execTimeTriggerSet dt q pl s
  | .timeCaptureGet dt q pl => Sys2Proof.Machine.execTimeCaptureGet dt q pl s
  | .rtcSet dt q pl => Sys2Proof.Machine.execRtcSet dt q pl s
  | .rtcDstAdjust dt q pl => Sys2Proof.Machine.execRtcDstAdjust dt q pl s
  | .rtcAlarmSet dt q pl => Sys2Proof.Machine.execRtcAlarmSet dt q pl s
  | .epdDraw dt q pl => Sys2Proof.Machine.execEpdDraw dt q pl s
  | .evrRead dt q pl => Sys2Proof.Machine.execEvrRead dt q pl s
  | .evrClear dt q pl => Sys2Proof.Machine.execEvrClear dt q pl s
  | .secAttest dt q pl => Sys2Proof.Machine.execSecAttest dt q pl s
  | .secLifecycleAdvance dt q pl => Sys2Proof.Machine.execSecLifecycleAdvance dt q pl s
  | .secIdentityCert dt q pl => Sys2Proof.Machine.execSecIdentityCert dt q pl s
  | .secImageStage dt q pl => Sys2Proof.Machine.execSecImageStage dt q pl s
  | .secImageActivate dt q pl => Sys2Proof.Machine.execSecImageActivate dt q pl s
  | .secKeyInstall dt q pl => Sys2Proof.Machine.execSecKeyInstall dt q pl s
  | .secKeyImport dt q pl => Sys2Proof.Machine.execSecKeyImport dt q pl s
  | .secKeyGenerate dt q pl => Sys2Proof.Machine.execSecKeyGenerate dt q pl s
  | .secKeySign dt q pl => Sys2Proof.Machine.execSecKeySign dt q pl s
  | .secKeyDelete dt q pl => Sys2Proof.Machine.execSecKeyDelete dt q pl s
  | .secTamperRelease dt q pl => Sys2Proof.Machine.execSecTamperRelease dt q pl s
  | .intgFaultRead dt q pl => Sys2Proof.Machine.execIntgFaultRead dt q pl s
  | .writePacket dt p => Sys2Proof.Machine.execWritePacket dt p s
  | .readReply dt x => Sys2Proof.Machine.execReadReply dt x s
  | .udpDatagram dt f => Sys2Proof.Machine.execUdpDatagram dt f s
  | .uartFrame dt p => Sys2Proof.Machine.execUartFrame dt p s
  | .fragmentDiscard dt srcIp ident => Sys2Proof.Machine.execFragmentDiscard dt srcIp ident s
  | .irqHoldoffEnd dt => Sys2Proof.Machine.execIrqHoldoffEnd dt s
  | .sessionIdleExpiry dt tr => Sys2Proof.Machine.execSessionIdleExpiry dt tr s
  | .loggedCommandEffect dt => Sys2Proof.Machine.execLoggedCommandEffect dt s
  | .mainReset dt banks => Sys2Proof.Machine.execMainReset dt banks s
  | .resetN dt => Sys2Proof.Machine.execResetN dt s
  | .resetNRelease dt banks => Sys2Proof.Machine.execResetNRelease dt banks s
  | .alwaysOnReset dt => Sys2Proof.Machine.execAlwaysOnReset dt s
  | .backupExit dt banks => Sys2Proof.Machine.execBackupExit dt banks s
  | .bootEnd dt x => Sys2Proof.Machine.execBootEnd dt x s
  | .pfwAsserted dt => Sys2Proof.Machine.execPfwAsserted dt s
  | .undervoltage dt x => Sys2Proof.Machine.execUndervoltage dt x s
  | .mramWritePathClose dt => Sys2Proof.Machine.execMramWritePathClose dt s
  | .holdupEnd dt => Sys2Proof.Machine.execHoldupEnd dt s
  | .pllLockLoss dt n => Sys2Proof.Machine.execPllLockLoss dt n s
  | .pllLockTimeout dt n => Sys2Proof.Machine.execPllLockTimeout dt n s
  | .flightWake dt => Sys2Proof.Machine.execFlightWake dt s
  | .flightWakeEnd dt n => Sys2Proof.Machine.execFlightWakeEnd dt n s
  | .supplyMeasurement dt core soc ana vbat temp => Sys2Proof.Machine.execSupplyMeasurement dt core soc ana vbat temp s
  | .cut dt => Sys2Proof.Machine.execCut dt s
  | .cutVectorSeal dt => Sys2Proof.Machine.execCutVectorSeal dt s
  | .coreStall dt => Sys2Proof.Machine.execCoreStall dt s
  | .optimisationWaitExpiry dt => Sys2Proof.Machine.execOptimisationWaitExpiry dt s
  | .modelBuildComplete dt => Sys2Proof.Machine.execModelBuildComplete dt s
  | .modelFlashWrite dt => Sys2Proof.Machine.execModelFlashWrite dt s
  | .jobStart dt host => Sys2Proof.Machine.execJobStart dt host s
  | .jobCompletion dt host x => Sys2Proof.Machine.execJobCompletion dt host x s
  | .jobDeadlineMiss dt host x => Sys2Proof.Machine.execJobDeadlineMiss dt host x s
  | .galleryTimeout dt target initiator addr p0 => Sys2Proof.Machine.execGalleryTimeout dt target initiator addr p0 s
  | .galleryPromotion dt => Sys2Proof.Machine.execGalleryPromotion dt s
  | .balustradeWrite dt => Sys2Proof.Machine.execBalustradeWrite dt s
  | .reportArrival dt ip port x => Sys2Proof.Machine.execReportArrival dt ip port x s
  | .reportClassification dt => Sys2Proof.Machine.execReportClassification dt s
  | .setpointConfirm dt ip port x => Sys2Proof.Machine.execSetpointConfirm dt ip port x s
  | .setpointIssue dt => Sys2Proof.Machine.execSetpointIssue dt s
  | .confirmTimeoutExpiry dt index => Sys2Proof.Machine.execConfirmTimeoutExpiry dt index s
  | .downlinkStateSave dt => Sys2Proof.Machine.execDownlinkStateSave dt s
  | .taskRelease dt e t => Sys2Proof.Machine.execTaskRelease dt e t s
  | .outputApply dt => Sys2Proof.Machine.execOutputApply dt s
  | .lockstepMismatch dt e inRollback => Sys2Proof.Machine.execLockstepMismatch dt e inRollback s
  | .alu dt e d a b fn => Sys2Proof.Machine.execAlu dt e d a b fn s
  | .fpu dt e d a b fn => Sys2Proof.Machine.execFpu dt e d a b fn s
  | .addi dt e d a imm => Sys2Proof.Machine.execAddi dt e d a imm s
  | .andiOriXori dt e kind d a imm => Sys2Proof.Machine.execAndiOriXori dt e kind d a imm s
  | .lui dt e d a imm => Sys2Proof.Machine.execLui dt e d a imm s
  | .loadInstruction dt e kind d a imm err => Sys2Proof.Machine.execLoadInstruction dt e kind d a imm err s
  | .storeInstruction dt e kind d a imm => Sys2Proof.Machine.execStoreInstruction dt e kind d a imm s
  | .branchInstruction dt e kind d a imm => Sys2Proof.Machine.execBranchInstruction dt e kind d a imm s
  | .jmp dt e off => Sys2Proof.Machine.execJmp dt e off s
  | .call dt e off => Sys2Proof.Machine.execCall dt e off s
  | .callb dt e d a imm => Sys2Proof.Machine.execCallb dt e d a imm s
  | .ret dt e d a b fn => Sys2Proof.Machine.execRet dt e d a b fn s
  | .sys dt e d a b fn => Sys2Proof.Machine.execSys dt e d a b fn s
  | .jr dt e d a b fn => Sys2Proof.Machine.execJr dt e d a b fn s
  | .endRun dt e d a b fn => Sys2Proof.Machine.execEndRun dt e d a b fn s
  | .trap dt e w => Sys2Proof.Machine.execTrap dt e w s
  | .onlineChangePrepared dt => Sys2Proof.Machine.execOnlineChangePrepared dt s
  | .changeTick dt => Sys2Proof.Machine.execChangeTick dt s
  | .exchange dt => Sys2Proof.Machine.execExchange dt s
  | .latchTick dt => Sys2Proof.Machine.execLatchTick dt s
  | .changeDrainTimeout dt => Sys2Proof.Machine.execChangeDrainTimeout dt s
  | .frameEnd dt fr => Sys2Proof.Machine.execFrameEnd dt fr s
  | .flowPulse dt c x => Sys2Proof.Machine.execFlowPulse dt c x s
  | .intervalBoundary dt => Sys2Proof.Machine.execIntervalBoundary dt s
  | .lineCycleClose dt k x ph => Sys2Proof.Machine.execLineCycleClose dt k x ph s
  | .electricalPagePublish dt => Sys2Proof.Machine.execElectricalPagePublish dt s
  | .calWindowEnd dt k => Sys2Proof.Machine.execCalWindowEnd dt k s
  | .registerSave dt => Sys2Proof.Machine.execRegisterSave dt s
  | .saveReadback dt ok => Sys2Proof.Machine.execSaveReadback dt ok s
  | .analogConversion dt a code => Sys2Proof.Machine.execAnalogConversion dt a code s
  | .digitalInputEdge dt n pin => Sys2Proof.Machine.execDigitalInputEdge dt n pin s
  | .padFault dt o read => Sys2Proof.Machine.execPadFault dt o read s
  | .feedbackFault dt o => Sys2Proof.Machine.execFeedbackFault dt o s
  | .profilePeriod dt a m => Sys2Proof.Machine.execProfilePeriod dt a m s
  | .stall dt a gammaU => Sys2Proof.Machine.execStall dt a gammaU s
  | .driveFault dt a openPhase => Sys2Proof.Machine.execDriveFault dt a openPhase s
  | .standstillDelayExpiry dt a => Sys2Proof.Machine.execStandstillDelayExpiry dt a s
  | .ethernetFrame dt f => Sys2Proof.Machine.execEthernetFrame dt f s
  | .phySpeedPoll dt p up speed high => Sys2Proof.Machine.execPhySpeedPoll dt p up speed high s
  | .addressAgeOut dt vid mac => Sys2Proof.Machine.execAddressAgeOut dt vid mac s
  | .sync dt port seq twoStep origin corr => Sys2Proof.Machine.execSync dt port seq twoStep origin corr s
  | .announce dt port a => Sys2Proof.Machine.execAnnounce dt port a s
  | .pdelayReq dt port seq => Sys2Proof.Machine.execPdelayReq dt port seq s
  | .pdelayReqSend dt => Sys2Proof.Machine.execPdelayReqSend dt s
  | .syncAnnounceSend dt ann => Sys2Proof.Machine.execSyncAnnounceSend dt ann s
  | .syncTimeout dt k => Sys2Proof.Machine.execSyncTimeout dt k s
  | .holdoverTimeout dt => Sys2Proof.Machine.execHoldoverTimeout dt s
  | .ppsEdge dt rising => Sys2Proof.Machine.execPpsEdge dt rising s
  | .rtcReferenceWindow dt r => Sys2Proof.Machine.execRtcReferenceWindow dt r s
  | .leapSecond dt => Sys2Proof.Machine.execLeapSecond dt s
  | .triggerPulseStart dt k => Sys2Proof.Machine.execTriggerPulseStart dt k s
  | .triggerPulseEnd dt k => Sys2Proof.Machine.execTriggerPulseEnd dt k s
  | .captureEdge dt n rising => Sys2Proof.Machine.execCaptureEdge dt n rising s
  | .capturePagePublish dt => Sys2Proof.Machine.execCapturePagePublish dt s
  | .secondBoundary dt => Sys2Proof.Machine.execSecondBoundary dt s
  | .rtcTemperatureSample dt t => Sys2Proof.Machine.execRtcTemperatureSample dt t s
  | .rtcLearningWindow dt r mean span => Sys2Proof.Machine.execRtcLearningWindow dt r mean span s
  | .learnedTableSave dt => Sys2Proof.Machine.execLearnedTableSave dt s
  | .updateStart dt => Sys2Proof.Machine.execUpdateStart dt s
  | .displayPhase dt => Sys2Proof.Machine.execDisplayPhase dt s
  | .epdPower dt => Sys2Proof.Machine.execEpdPower dt s
  | .epdPowerGood dt => Sys2Proof.Machine.execEpdPowerGood dt s
  | .epdPowerOff dt => Sys2Proof.Machine.execEpdPowerOff dt s
  | .panelTemperatureSample dt t => Sys2Proof.Machine.execPanelTemperatureSample dt t s
  | .displayScan dt ok => Sys2Proof.Machine.execDisplayScan dt ok s
  | .stripRefresh dt => Sys2Proof.Machine.execStripRefresh dt s
  | .stagingDrain dt => Sys2Proof.Machine.execStagingDrain dt s
  | .evrWindowEnd dt => Sys2Proof.Machine.execEvrWindowEnd dt s
  | .counterCopy dt => Sys2Proof.Machine.execCounterCopy dt s
  | .recordSample dt => Sys2Proof.Machine.execRecordSample dt s
  | .periodClose dt => Sys2Proof.Machine.execPeriodClose dt s
  | .remask dt => Sys2Proof.Machine.execRemask dt s
  | .imageSwitch dt cls restartUs selfTest => Sys2Proof.Machine.execImageSwitch dt cls restartUs selfTest s
  | .tamper dt x => Sys2Proof.Machine.execTamper dt x s
  | .trngHealthFailure dt => Sys2Proof.Machine.execTrngHealthFailure dt s
  | .scrubPass dt fs => Sys2Proof.Machine.execScrubPass dt fs s
  | .watchdogExpiry dt w => Sys2Proof.Machine.execWatchdogExpiry dt w s
  | .snapshotTick dt => Sys2Proof.Machine.execSnapshotTick dt s
  | .takeover dt => Sys2Proof.Machine.execTakeover dt s
  | .pairListenEnd dt => Sys2Proof.Machine.execPairListenEnd dt s
  | .heartbeat dt tag mode x => Sys2Proof.Machine.execHeartbeat dt tag mode x s
  | .cutSegment dt tag round index part => Sys2Proof.Machine.execCutSegment dt tag round index part s
  | .imageSegment dt tag e t x => Sys2Proof.Machine.execImageSegment dt tag e t x s
  | .commandLog dt tag sec ns packet => Sys2Proof.Machine.execCommandLog dt tag sec ns packet s
  | .digest dt tag kind round dig => Sys2Proof.Machine.execDigest dt tag kind round dig s
  | .resyncRequest dt x => Sys2Proof.Machine.execResyncRequest dt x s
  | .stateSegment dt tag seg => Sys2Proof.Machine.execStateSegment dt tag seg s
  | .shadowStatus dt tag x => Sys2Proof.Machine.execShadowStatus dt tag x s
  | .shadowStatusSend dt => Sys2Proof.Machine.execShadowStatusSend dt s
  | .hostInterfaceStart dt => Sys2Proof.Machine.execHostInterfaceStart dt s
  | .modeTransitionEnd dt => Sys2Proof.Machine.execModeTransitionEnd dt s
  | .modelValidationComplete dt => Sys2Proof.Machine.execModelValidationComplete dt s
  | .blockImageValidationComplete dt => Sys2Proof.Machine.execBlockImageValidationComplete dt s
  | .imageVerificationComplete dt cls readable classOk => Sys2Proof.Machine.execImageVerificationComplete dt cls readable classOk s
  | .blockImageFlashWrite dt => Sys2Proof.Machine.execBlockImageFlashWrite dt s
  | .pllLockRegained dt n => Sys2Proof.Machine.execPllLockRegained dt n s
  | .snapInEdge dt rising => Sys2Proof.Machine.execSnapInEdge dt rising s
  | .electricalRawSample dt k smp => Sys2Proof.Machine.execElectricalRawSample dt k smp s
  | .flowEdgeRejected dt c => Sys2Proof.Machine.execFlowEdgeRejected dt c s
  | .pwmPeriodBoundary dt p => Sys2Proof.Machine.execPwmPeriodBoundary dt p s
  | .abandonedReadResponse dt => Sys2Proof.Machine.execAbandonedReadResponse dt s
  | .followUp dt port seq origin corr => Sys2Proof.Machine.execFollowUp dt port seq origin corr s
  | .delayReqSend dt => Sys2Proof.Machine.execDelayReqSend dt s
  | .delayResp dt port seq t4 corr => Sys2Proof.Machine.execDelayResp dt port seq t4 corr s
  | .pdelayResp dt port seq corr => Sys2Proof.Machine.execPdelayResp dt port seq corr s
  | .meshComparison dt loop mismatch => Sys2Proof.Machine.execMeshComparison dt loop mismatch s
  | .uartTransmitComplete dt => Sys2Proof.Machine.execUartTransmitComplete dt s

end Sys2Proof.Machine
end

