-- ==== Sys2Proof/Safety.lean ====
section
/-! DEFINITION. The words in which the statements speak of a run: when nothing is left for the end of a command's step, when a
host command passes the acceptance checks and in what state its effect then runs, and the invariants of the block. -/

namespace Sys2Proof.Machine

/-! ### The end of a step -/

/-- Nothing is left for the end of the tick: no mode trigger is asserted (R45) and no digest of the peer waits for the own one
(R63). -/
abbrev Settled (s : State) : Prop := s.sys.triggers = [] ∧ s.pair.peerDigests = []

/-- Nothing waits for the end of the tick or for the beginning of the next: the state is settled, and no written parameter value waits
for a tick (R386, R441, R543). -/
abbrev Quiet (s : State) : Prop := s.sys.triggers = [] ∧ s.pair.peerDigests = [] ∧ s.cfgPending.any waitsTick = false

/-- No mode trigger outlives the command in which it was asserted (R45). -/
abbrev NoTriggerLeft (s : State) : Prop := s.sys.triggers = []

/-! ### Canonical form -/

/-- The memories of the solver address map stand in canonical form (R139). -/
def Solv.canonical (v : Solv) : Bool := Memory.wf v.test && v.locals.all Region.wf && Region.wf v.work && Region.wf v.ddr

/-- The TCMs of both control engines and the memories of the solver address map, the parameters in effect, the signature counters and
the tables of error counts stand in canonical form, so that what they hold is equal exactly if it reads the same; and the occupied key
slots stand in ascending order. -/
def Canonical (s : State) : Bool :=
  s.ctrl.engines.toList.all (fun x => Memory.wf x.code && Memory.wf x.data) && s.solv.canonical &&
    tableWf pdflt s.cfg && tableWf (fun _ => 0) s.sec.counters && tableWf (fun _ => 0) s.intg.timeouts &&
    tableWf (fun _ => 0) s.intg.ceCount && tableWf (fun _ => 0) s.intg.blockErrors &&
    decide ((s.sec.slots.map (·.1)).Pairwise (· < ·))

/-! ### Instructions of a control engine (R245, R250, R274) -/

/-- An engine whose first execution is about to run an instruction, `dt` µs later: a first instruction starts the execution. -/
def started (dt : Nat) (e : Fin 2) (s : State) : Engine := startRun (elapse dt s) e (engOf s e)

/-- Tasks execute, and the running execution `r` of an engine stands at an instruction word, the executions `below` under it. -/
structure Stands (dt : Nat) (e : Fin 2) (word : Nat) (r : Run) (below : List Run) (s : State) : Prop where
  quiet : Quiet s
  at_ : atWord s e word = true
  runs : (started dt e s).runs = r :: below

/-- A pc lies in the code TCM with room for one instruction. -/
abbrev InCode (pc : W32) : Prop := 0x40000 ≤ pc.toNat ∧ pc.toNat + 4 ≤ 0x80000

/-- The running execution of an engine has become `r` and its data TCM `data`; nothing else has changed. -/
def ran (dt : Nat) (e : Fin 2) (r : Run) (below : List Run) (data : Memory) (s : State) : State :=
  setEng e { started dt e s with data := data, runs := r :: below } (elapse dt s)

/-! ### The pair link (R58 to R60) -/

/-- A message of a type with its content comes over the pair link to a device of a keyed pair whose main domain runs; its tag
verifies. -/
abbrev PairMessage (kind : Nat) (content tag : Bytes) (s : State) : Prop :=
  Quiet s ∧ paired s = true ∧ pairKeyed s = true ∧ mainRuns s = true ∧ s.hif.up = true ∧ tag = pairTag s kind content

/-! ### The servo (R425, R430) -/

/-- An INCREMENT within its range. -/
abbrev IncrementOk (n : Nat) : Prop := 0x03FEF9DB23 ≤ n ∧ n ≤ 0x04010624DD

/-- A locked servo has used an offset without a step: it keeps the offset, counts it if it is above four times LOCK_THRESHOLD, and
writes a frequency estimate and an INCREMENT, whose values are its own (log entry 25). -/
def Tracked (off : Int) (s t : State) : Prop :=
  ∃ inc est, IncrementOk inc ∧ IncrementOk est ∧
    t = { s with
      clock := { s.clock with increment := inc },
      time := { s.time with
        offset := off, fromRtc := false, freqEst := est,
        badRun := if 4 * lockThreshold s < off.natAbs then s.time.badRun + 1 else 0 },
      draws := s.draws + 2 }

/-! ### Acceptance of a host command (R76 to R79, R95 to R99, R561 to R568) -/

/-- The request that a command's effect is given. -/
def requestOf (c : Cmd) (q : Env) (pl : Bytes) (a : Auth) : Req := let p := envPkt c.op q pl; ⟨p.org, p.hdr, p.payload, a⟩

/-- The sequence number after the packet's is the one expected next on its transport (R79). -/
def sequenced (q : Env) (s : State) : State :=
  setLink q.tr { linkOf s q.tr with expected := some (q.seq + 1) } s

/-- The state once the packet of a command has passed checks 2 to 7: the sequence number after its own is expected, and the idle
time of the session that it carries starts again (R79, R98). -/
def received (c : Cmd) (q : Env) (pl : Bytes) (s : State) : State := touchSession (envPkt c.op q pl) (sequenced q s)

/-- The state once the command is accepted: in addition the counter of its signature is written, its opcode stands among the
newest, and its tag is EXECUTING (R89, R96, R537, R565). -/
def accepted (c : Cmd) (q : Env) (pl : Bytes) (a : Auth) (s : State) : State :=
  accept (envPkt c.op q pl) a .now (received c q pl s)

/-- The packet of a command passes checks 1 to 5 (R76 to R79). -/
def passesFraming (c : Cmd) (q : Env) (pl : Bytes) (s : State) : Bool :=
  let p := envPkt c.op q pl
  hostOpen s && !(q.tr == .xspi && !rxReady s) && !(q.tr == .udp && !udpAdmits s q.srcIp.toNat) && decide (p.size ≤ 4268) &&
    (c.op == 0x0201 || (linkOf s q.tr).expected.getD q.seq == q.seq) && (overrunReason p (sequenced q s)).isNone &&
    headerOk p.hdr && p.size == 16 + p.hdr.length + trailerBytes p.hdr.verFlags + 4 && c.lens p.hdr.length

/-- The command passes every acceptance check that does not depend on what it asks for, and who authorises it; none if one of
the checks fails. -/
def admission (c : Cmd) (q : Env) (pl : Bytes) (s : State) : Option Auth :=
  let p := envPkt c.op q pl
  let s' := sequenced q s
  if passesFraming c q pl s && c.legal p s' then
    match authCheck (c.need p s') p s' with
    | .ok a =>
      let r := received c q pl s
      if (r.sys.resetPending.isSome && c.op != 0x0101 && c.op != 0x0120) || metroBars c p a r then none else some a
    | .fail _ _ => none
  else none

/-- Every check of a command that does not depend on what it asks for passes, and `a` authorises it. -/
abbrev Admitted (c : Cmd) (q : Env) (pl : Bytes) (a : Auth) (s : State) : Prop := admission c q pl s = some a

/-- What is known of an admitted host command when its effect runs: nothing else is left for the step, every check up to what it
asks for has passed at the time it arrives, and it executes at once, not from the log of a paired device (R61, R565). -/
structure Arrives (c : Cmd) (dt : Nat) (q : Env) (pl : Bytes) (a : Auth) (s : State) : Prop where
  quiet : Quiet s
  admitted : Admitted c q pl a (elapse dt s)
  direct : logs c pl s = false

/-- The result of a command is HELD under its tag and delivered (R89, R91). -/
def answered (q : Env) (status : Nat) (body : Bytes) (s : State) : State := complete q.tag.toNat status false body s

/-- The row completes at once: whenever its command arrives and `ok` holds of the request and the state, `exec` answers the next
state in which the effect is made on the accepted state and the result, with `status` and `body`, is HELD under the tag and
delivered (R89, R91). -/
def Completes (i : Nat → Env → Bytes → Instr) (c : Cmd) (ok : Req → State → Prop) (status : Nat) (body : Req → State → Bytes)
    (effect : Req → State → State) : Prop :=
  ∀ dt q pl a s, Arrives c dt q pl a s → ok (requestOf c q pl a) (elapse dt s) →
    exec (i dt q pl) s =
      .next (answered q status (body (requestOf c q pl a) (accepted c q pl a (elapse dt s)))
        (effect (requestOf c q pl a) (accepted c q pl a (elapse dt s))))

/-- The row begins work that ends later: its tag stays EXECUTING and waits for `w` (R89). -/
def Begins (i : Nat → Env → Bytes → Instr) (c : Cmd) (ok : Req → State → Prop) (w : Req → State → Wait)
    (effect : Req → State → State) : Prop :=
  ∀ dt q pl a s, Arrives c dt q pl a s → ok (requestOf c q pl a) (elapse dt s) →
    exec (i dt q pl) s =
      .next (setWait q.tag.toNat (w (requestOf c q pl a) (accepted c q pl a (elapse dt s)))
        (effect (requestOf c q pl a) (accepted c q pl a (elapse dt s))))

/-- The row is answered OK with `body`, its result HELD and delivered, and then does `after`, which also sees the accepted state
(R89, R91, R571). -/
def CompletesThen (i : Nat → Env → Bytes → Instr) (c : Cmd) (ok : Req → State → Prop) (body : Req → State → Bytes)
    (effect : Req → State → State) (after : Req → State → State → State) : Prop :=
  ∀ dt q pl a s, Arrives c dt q pl a s → ok (requestOf c q pl a) (elapse dt s) →
    exec (i dt q pl) s =
      .next (after (requestOf c q pl a) (accepted c q pl a (elapse dt s))
        (answered q stOK (body (requestOf c q pl a) (accepted c q pl a (elapse dt s)))
          (effect (requestOf c q pl a) (accepted c q pl a (elapse dt s)))))

/-- The row, which takes no tag, is answered at once with `status`, the flags of R92 and `body`, and nothing is HELD; its reply holds
the credits that its packet took (R83, R88, R92, R94). -/
def Replies (i : Nat → Env → Bytes → Instr) (c : Cmd) (ok : Req → State → Prop) (status : Nat) (body : Req → State → Bytes)
    (effect : Req → State → State) : Prop :=
  ∀ dt q pl a s, Arrives c dt q pl a s → ok (requestOf c q pl a) (elapse dt s) →
    exec (i dt q pl) s =
      .next (let p := envPkt c.op q pl
        let b := body (requestOf c q pl a) (accepted c q pl a (elapse dt s))
        replyTo p status 0 b (crcsOf p b) (debit c.op p.size) (debit c.op p.size)
          (effect (requestOf c q pl a) (accepted c q pl a (elapse dt s))))

/-- The rows of the host commands that carry a payload, each with its command. -/
def hostRows : List ((Nat → Env → Bytes → Instr) × Cmd) :=
  [(.sysStatus, cmdSysStatus), (.sysModeRequest, cmdModeRequest), (.sysReset, cmdSysReset), (.paramRead, cmdParamRead),
    (.paramWrite, cmdParamWrite), (.resultFetch, cmdResultFetch), (.resultRelease, cmdResultRelease),
    (.snapshotTrigger, cmdSnapshotTrigger), (.snapshotRead, cmdSnapshotRead), (.hifCreditSync, cmdCreditSync),
    (.hifSessionOpen, cmdSessionOpen), (.solvJobSubmit, cmdJobSubmit), (.solvTestWrite, cmdTestWrite),
    (.solvTestRead, cmdTestRead), (.nmodModelLoad, cmdModelLoad)] ++
  [(.nmodModelActivate, cmdModelActivate), (.nmodRoundConfig, cmdRoundConfig), (.nmodResultGet, cmdResultGet),
    (.nmodOptConfig, cmdOptConfig), (.nmodForecastLoad, cmdForecastLoad), (.nmodCalibGet, cmdCalibGet),
    (.nmodCalibAdopt, cmdCalibAdopt), (.sublRegister, cmdSublRegister), (.sublUnregister, cmdSublUnregister),
    (.sublStatus, cmdSublStatus), (.ctrlImageLoad, cmdCtrlImageLoad), (.ctrlOnlineChange, cmdOnlineChange),
    (.ctrlColdStart, cmdColdStart), (.ctrlForceSet, cmdForceSet), (.ctrlForceClear, cmdForceClear)] ++
  [(.ctrlForceList, cmdForceList), (.ctrlTaskControl, cmdTaskControl), (.ctrlTaskStatus, cmdTaskStatus),
    (.melCalWindow, cmdCalWindow), (.billRead, cmdBillRead), (.vaxMove, cmdVaxMove), (.vaxHome, cmdVaxHome),
    (.vaxStatus, cmdVaxStatus), (.timeSet, cmdTimeSet), (.timeTriggerSet, cmdTriggerSet), (.timeCaptureGet, cmdCaptureGet),
    (.rtcSet, cmdRtcSet), (.rtcDstAdjust, cmdDstAdjust), (.rtcAlarmSet, cmdAlarmSet), (.epdDraw, cmdEpdDraw)] ++
  [(.evrRead, cmdEvrRead), (.evrClear, cmdEvrClear), (.secAttest, cmdAttest), (.secLifecycleAdvance, cmdLifecycle),
    (.secIdentityCert, cmdIdentityCert), (.secImageStage, cmdImageStage), (.secImageActivate, cmdImageActivate),
    (.secKeyInstall, cmdKeyInstall), (.secKeyImport, cmdKeyImport), (.secKeyGenerate, cmdKeyGenerate),
    (.secKeySign, cmdKeySign), (.secKeyDelete, cmdKeyDelete), (.secTamperRelease, cmdTamperRelease),
    (.intgFaultRead, cmdFaultRead)]

/-- A selection that SEC_ATTEST attests (R505): the device, the identity key, the import key, or a generated key that exists, or any
such slot in LOCKDOWN. -/
abbrev Attestable (s : State) (sel : Nat) : Prop :=
  sel ≤ 2 ∨ (32 ≤ sel ∧ sel ≤ 63 ∧ ((selected s sel).isSome = true ∨ s.sys.mode = .lockdown))

/-- A chunk that SEC_IMAGE_STAGE takes (R517): the first of an image, `old` being empty, or the next after the bytes `old`. -/
abbrev ImageChunk (s : State) (p old : Bytes) : Prop :=
  let x := imageOf s (fld p 0 1)
  1 ≤ fld p 0 1 ∧ fld p 0 1 ≤ 7 ∧ x.stage ≠ 2 ∧ x.stage ≠ 5 ∧ allZero (slice p 1 3) = true ∧
    ((fld p 4 4 = 0 ∧ old = []) ∨ (fld p 4 4 ≠ 0 ∧ x.stage = 1 ∧ old = x.received ∧ fld p 4 4 = old.length ∧ fld p 8 4 = x.length)) ∧
    512 ≤ fld p 8 4 ∧ fld p 8 4 ≤ imageSlotSize (fld p 0 1)

/-- The class once the chunk is stored behind `old`, its slot that does not run erased, with a stage (R517). -/
def chunkStored (s : State) (p old : Bytes) (stage : Nat) : ImageClass :=
  let x := imageOf s (fld p 0 1)
  setImageSlot (!x.running) .erased { x with stage := stage, verify := 0, length := fld p 8 4, received := old ++ p.drop 12 }

/-- A packet has been rejected: its reply with `status` has gone to its transport at once, and nothing but the host interface, the
event recorder, the outputs and the draw counter has changed; every tag keeps its state (R78). -/
def Refused (q : Env) (status : Nat) (s t : State) : Prop :=
  ∃ h e o d, t = { s with hif := h, evr := e, out := o, draws := d } ∧ h.tags = s.hif.tags ∧
    match q.tr with
    | .xspi => o = s.out ∧ ∃ r, h.xspiQ = s.hif.xspiQ ++ [r] ∧ r.tag = q.tag.toNat ∧ r.status = status
    | .uart => o = s.out ∧ ∃ r, h.uartQ = s.hif.uartQ ++ [r] ∧ r.tag = q.tag.toNat ∧ r.status = status
    | .udp => ∃ r u, o = s.out ++ replyFrames u r ∧ r.org.ip = q.srcIp.toNat ∧ r.org.port = q.srcPort.toNat ∧ r.tag = q.tag.toNat ∧
        r.status = status

end Sys2Proof.Machine
end

