-- ==== Sys2Proof/Certificates/Slice0/Obligations.lean ====
section
/-! DEFINITION. The statements for the provers. Each names the rules of spec/ that it states, or the sections it rests on. -/

open Sys2Proof Sys2Proof.Machine

/-! ### Host commands -/

/-- SYS_STATUS is answered OK with the status body of its transport and changes nothing else (R569). A SYS_MODE_REQUEST for the
current mode, if a host may name it, is answered OK (R49, R570); one for another mode that R44 does not lead to is answered
NOT_IN_STATE, and both change nothing; any other begins a transition with cause 1 and waits for its end. SYS_RESET with its
confirmation is answered OK, then metering stops in order and a main reset with LAST_RESET code 3 is pending (R360, R571). -/
def Obligations.SystemCommandsComplete : Prop :=
  Completes .sysStatus cmdSysStatus (fun _ _ => True) stOK (fun r u => sysStatusBody r.org.tr u) (fun _ u => u) ∧
  Completes .sysModeRequest cmdModeRequest
    (fun r s => fld r.payload 0 1 = s.sys.mode.code ∧ namable s.sys.mode = true ∧ allZero (slice r.payload 1 3) = true ∧
      s.sys.trans = none)
    stOK (fun _ u => notInStateBody u) (fun _ u => u) ∧
  (∀ m : Mode, Completes .sysModeRequest cmdModeRequest
    (fun r s => fld r.payload 0 1 = m.code ∧ m ≠ s.sys.mode ∧ allZero (slice r.payload 1 3) = true ∧ s.sys.trans = none ∧
      requestTo s m = none)
    stNotInState (fun _ u => notInStateBody u) (fun _ u => u)) ∧
  (∀ (m : Mode) (atCut : Bool), Begins .sysModeRequest cmdModeRequest
    (fun r s => fld r.payload 0 1 = m.code ∧ m ≠ s.sys.mode ∧ allZero (slice r.payload 1 3) = true ∧ s.sys.trans = none ∧
      requestTo s m = some atCut)
    (fun _ _ => .modeEnd)
    (fun _ u => { u with sys := { u.sys with trans := some { target := m, cause := 1, tag := none, atCut := atCut } } })) ∧
  CompletesThen .sysReset cmdSysReset (fun r _ => fld r.payload 0 4 = 0x5AA5C33C) (fun _ _ => []) (fun _ u => u)
    (fun _ _ u => let v := orderlyStop u; { v with sys := { v.sys with resetPending := some 3 } })

/-- PARAM_READ answers its run of parameters in ascending index, and what its reads change is changed (R572). A read of BUFFER_STATE
alone answers PEAK and the level and sets PEAK to the level (R244); a read of RTC_DATE alone answers the date and latches the time of
day and the fraction of the second for its transport (R443). -/
def Obligations.ParameterReadsComplete : Prop :=
  Completes .paramRead cmdParamRead
    (fun r _ => (pinfo (fld r.payload 0 2)).isSome = true ∧ 1 ≤ fld r.payload 2 1 ∧ fld r.payload 2 1 ≤ 64 ∧
      fld r.payload 0 2 % 256 + fld r.payload 2 1 ≤ 256 ∧
      (∀ k < fld r.payload 2 1, (pinfo (fld r.payload 0 2 + k)).isSome = true) ∧ fld r.payload 3 1 = 0)
    stOK
    (fun r u => (readRun r.org.tr ((List.range (fld r.payload 2 1)).map (fld r.payload 0 2 + ·)) u).1)
    (fun r u => (readRun r.org.tr ((List.range (fld r.payload 2 1)).map (fld r.payload 0 2 + ·)) u).2) ∧
  (∀ dt q a s, Arrives cmdParamRead dt q (paramReadOne 0x0518) a s →
    exec (.bufferStateRead dt q) s =
      .next (answered q stOK
        (le 2 0x0518 ++ le 1 4 ++ [0] ++ le 8 (s.subl.peak * 65536 + s.subl.buffer.length))
        { accepted cmdParamRead q (paramReadOne 0x0518) a (elapse dt s) with
          subl := { s.subl with peak := s.subl.buffer.length } })) ∧
  (∀ dt q a s, Arrives cmdParamRead dt q (paramReadOne 0x0E10) a s →
    exec (.rtcDateRead dt q) s =
      .next (answered q stOK (le 2 0x0E10 ++ le 1 4 ++ [0] ++ le 8 (rtcDate s))
        { accepted cmdParamRead q (paramReadOne 0x0E10) a (elapse dt s) with
          rtc := { s.rtc with latch := vset s.rtc.latch (Transport.num q.tr) (some (rtcTime s, rtcSubsec (elapse dt s))) } }))

/-- A PARAM_WRITE whose entries all pass stores each of them in the order of the payload and answers OK (R573, R576); a UART_BAUD
among them waits for the last byte of its reply (R104). A PARAM_WRITE of PIO_FAULT alone clears the faults of the outputs written
with 1, and those outputs leave their fault level (R385); one of RTC_STATUS alone clears the flags written with 1 (R460). Neither
changes another parameter. -/
def Obligations.ParameterWritesComplete : Prop :=
  (∀ dt q pl a s, Arrives cmdParamWrite dt q pl a s → firstBad (paramChecks (elapse dt s) pl) = none →
    exec (.paramWrite dt q pl) s =
      .next (let t := answered q stOK [] ((entriesOf pl).foldl (storeEntry a) (accepted cmdParamWrite q pl a (elapse dt s)))
        if (entriesOf pl).any fun e => e.id == 0x0214 then baudAfter q.tr t else t)) ∧
  (∀ dt q (mask : W64) a s, Arrives cmdParamWrite dt q (paramWriteOne 0x0A98 4 mask.toNat) a s →
    firstBad (paramChecks (elapse dt s) (paramWriteOne 0x0A98 4 mask.toNat)) = none →
    ∃ t, exec (.pioFaultClear dt q mask) s = .next t ∧
      t.pio.fault = s.pio.fault &&& ~~~ (mask.setWidth 32) ∧
      (∀ o : Fin 24, (t.pio.dos[o]).faultSafe = ((s.pio.dos[o]).faultSafe && !mask.getLsbD o)) ∧
      t.cfg = s.cfg ∧ t.cfgPending = s.cfgPending ∧ t.rtc = s.rtc) ∧
  (∀ dt q (mask : W64) a s, Arrives cmdParamWrite dt q (paramWriteOne 0x0E14 4 mask.toNat) a s →
    firstBad (paramChecks (elapse dt s) (paramWriteOne 0x0E14 4 mask.toNat)) = none →
    exec (.rtcStatusClear dt q mask) s =
      .next (answered q stOK []
        { accepted cmdParamWrite q (paramWriteOne 0x0E14 4 mask.toNat) a (elapse dt s) with
          rtc := { s.rtc with
            wrapped := s.rtc.wrapped && !mask.getLsbD 4, lost := s.rtc.lost && !mask.getLsbD 3,
            inBackup := s.rtc.inBackup && !mask.getLsbD 2, alarm1 := s.rtc.alarm1 && !mask.getLsbD 1,
            alarm0 := s.rtc.alarm0 && !mask.getLsbD 0 } }))

/-- RESULT_FETCH answers from a HELD result the piece of its body that it asks for, with the result's status, its checksums and MORE
where the body goes on, PENDING with an estimate of the end for a command that executes, and NO_RESULT for a FREE tag; it leaves the
tag as it is (R92, R93). RESULT_RELEASE frees a HELD tag, and answers BUSY for one that executes and NO_RESULT for a FREE one,
freeing neither (R94). HIF_CREDIT_SYNC counts the epoch up, clears UNSYNC, answers the new epoch, what the device holds, what the
host is entitled to and the differences, frees the HELD tags of its transport if DISCARD asks for it, and counts and records a
discrepancy (R88). -/
def Obligations.ResultsAndCreditsComplete : Prop :=
  (∀ dt q pl a s (h : Held), Arrives cmdResultFetch dt q pl a s → tagOf s q.tag.toNat = some (.held h) →
    fld pl 0 4 ≤ h.body.length → fld pl 4 2 ≤ 4096 → fld pl 6 2 = 0 →
    exec (.resultFetch dt q pl) s =
      .next (let p := envPkt 0x0120 q pl
        let n := min (fld pl 4 2) (h.body.length - fld pl 0 4)
        replyTo p h.status (replyFlags (decide (fld pl 0 4 + n < h.body.length)) h.regularised true) (slice h.body (fld pl 0 4) n)
          (h.reqCrc, h.resCrc) (debit 0x0120 p.size) (debit 0x0120 p.size)
          (accepted cmdResultFetch q pl a (elapse dt s)))) ∧
  (∀ e : Exec, Replies .resultFetch cmdResultFetch
    (fun r s => tagOf s r.hdr.tag = some (.executing e) ∧ fld r.payload 4 2 ≤ 4096 ∧ fld r.payload 6 2 = 0)
    stPending
    (fun _ u => le 6 ((estimate e.wait u).1 / 1000000000) ++ le 4 ((estimate e.wait u).1 % 1000000000) ++ zeros 2)
    (fun _ u => (estimate e.wait u).2)) ∧
  Replies .resultFetch cmdResultFetch
    (fun r s => tagOf s r.hdr.tag = none ∧ fld r.payload 4 2 ≤ 4096 ∧ fld r.payload 6 2 = 0) stNoResult (fun _ _ => [])
    (fun _ u => u) ∧
  (∀ h : Held, Replies .resultRelease cmdResultRelease (fun r s => tagOf s r.hdr.tag = some (.held h)) stOK (fun _ _ => [])
    (fun r u => freeTag r.hdr.tag u)) ∧
  (∀ e : Exec, Replies .resultRelease cmdResultRelease (fun r s => tagOf s r.hdr.tag = some (.executing e)) stBusy (fun _ _ => [])
    (fun _ u => u)) ∧
  Replies .resultRelease cmdResultRelease (fun r s => tagOf s r.hdr.tag = none) stNoResult (fun _ _ => []) (fun _ u => u) ∧
  Replies .hifCreditSync cmdCreditSync (fun r _ => fld r.payload 4 1 ≤ 1 ∧ allZero (slice r.payload 5 3) = true) stOK
    (fun r u =>
      let tr := r.org.tr
      let i (v : Int) : Bytes := le 2 (unsgn 16 v)
      le 2 ((linkOf u tr).epoch + 1).toNat ++ le 2 (deviceHeld u tr).1 ++ le 2 (deviceHeld u tr).2 ++
        i (slotShare u tr - (deviceHeld u tr).1) ++ i (bufShare u tr - (deviceHeld u tr).2) ++
        i (fld r.payload 0 2 - (slotShare u tr - (deviceHeld u tr).1 : Int)) ++
        i (fld r.payload 2 2 - (bufShare u tr - (deviceHeld u tr).2 : Int)) ++ zeros 2)
    (fun r u =>
      let tr := r.org.tr
      let i (v : Int) : Bytes := le 2 (unsgn 16 v)
      let slots : Int := fld r.payload 0 2 - (slotShare u tr - (deviceHeld u tr).1 : Int)
      let bufs : Int := fld r.payload 2 2 - (bufShare u tr - (deviceHeld u tr).2 : Int)
      let synced := setLink tr { linkOf u tr with epoch := (linkOf u tr).epoch + 1, unsync := false } u
      let kept := { synced with hif := { synced.hif with
        tags := synced.hif.tags.filter fun x =>
          !(fld r.payload 4 1 == 1 && tagInRange u tr x.1 && (match x.2 with | .held _ => true | .executing _ => false)) } }
      if slots = 0 ∧ bufs = 0 then kept
      else post 0x0201 (Transport.num tr) (i slots ++ i bufs ++ le 2 ((linkOf u tr).epoch + 1).toNat) 0
        { kept with hif := { kept.hif with creditDiscrepancies := kept.hif.creditDiscrepancies + 1 } })

/-- SNAPSHOT_TRIGGER arms the trigger and drops the held snapshot; with ACTION 1 its source joins those of the snapshot tick to
come, which it fixes if none has, and it waits for the snapshot, or is missed where that tick has begun (R535, R536, R538).
SNAPSHOT_READ returns the sections asked for of the held snapshot (R539), and INTG_FAULT_READ an intact fault record (R542);
both change nothing. Log entry 54 says what of it is the model's choice. -/
def Obligations.SnapshotCommandsComplete : Prop :=
  Completes .snapshotTrigger cmdSnapshotTrigger (fun r _ => fld r.payload 0 1 = 0 ∧ allZero (slice r.payload 1 3) = true) stOK
    (fun _ _ => [])
    (fun _ u => { u with intg := { u.intg with
      armed := true, held := none, pending := if u.intg.armed then u.intg.pending else none } }) ∧
  Begins .snapshotTrigger cmdSnapshotTrigger (fun r _ => fld r.payload 0 1 = 1 ∧ allZero (slice r.payload 1 3) = true)
    (fun _ _ => .snapshot)
    (fun _ u =>
      let due := if u.intg.armed then u.intg.pending else none
      { u with intg :=
        if due.isSome && decide (u.intg.pendingUs < monoUs u) then
          { u.intg with armed := true, held := none, pending := due, snapMissed := u.intg.snapMissed + 1 }
        else
          { u.intg with
            armed := true, held := none, pending := some (Nat.lor (due.getD 0) 1),
            pendingUs := if due.isSome then u.intg.pendingUs else monoUs u } }) ∧
  (∀ x : Snapshot, Completes .snapshotRead cmdSnapshotRead
    (fun r s => s.intg.held = some x ∧ (∃ y ∈ x.sections, fld r.payload 0 1 = 0 ∨ y.1 = fld r.payload 0 1) ∧
      allZero (slice r.payload 1 3) = true)
    stOK
    (fun r _ =>
      let b := fld r.payload 0 1
      let body := (x.sections.filter fun y => b == 0 || y.1 == b).flatMap (·.2)
      le 4 x.seq.toNat ++ le 2 x.sources ++ le 1 b ++ le 1 x.mode ++ le 6 x.at_.sec ++ le 2 body.length ++ le 4 x.at_.ns ++
        zeros 4 ++ body)
    (fun _ u => u)) ∧
  (∀ x : FaultRec, Completes .intgFaultRead cmdFaultRead
    (fun r s => fld r.payload 0 1 ≤ 31 ∧ (faultRecs s)[fld r.payload 0 1]? = some x ∧ x.intact = true ∧
      allZero (slice r.payload 1 3) = true)
    stOK (fun _ _ => faultBytes x) (fun _ u => u))

/-- HIF_SESSION_OPEN ends the session of its transport and opens one whose keys are derived by ECDH from the host's ephemeral
key and one that the device draws; it answers with the device's key and nonce, the role and the session's identifier, signed by
the identity key (R97). SEC_ATTEST answers the attestation record of a selection, signed by the identity key or, while there is
none, with zeros for the signature, and the certificate for selection 0xFE (R505, R507). SEC_KEY_SIGN signs a digest with a
generated key, and SEC_KEY_GENERATE makes such a key, stores it wrapped and answers its attributes and public half (R504). Log
entries 10 and 65 say what of it is the model's choice. -/
def Obligations.KeyUseCommandsComplete : Prop :=
  (∀ identity : Bytes, Completes .hifSessionOpen cmdSessionOpen
    (fun r s => allZero (slice r.payload 2 2) = true ∧ (pointOf (slice r.payload 36 97)).isSome = true ∧
      allZero (slice r.payload 133 3) = true ∧ noRandom s = false ∧ slotKey (endSession r.org.tr s) 0 = some identity)
    stOK
    (fun r u =>
      let s := endSession r.org.tr u
      let d := ofBE (le 72 (Config.trng s.draws)) % (p384n - 1) + 1
      let body := le 32 (Config.trng (s.draws + 1)) ++ publicOf d ++ le 1 (keyRole s (fld r.payload 0 2)) ++ zeros 2 ++
        le 4 (Config.trng (s.draws + 2))
      body ++ (signWith identity (sha384 (fit 16 s.sec.deviceId ++ r.payload.take 136 ++ body)) (draw (draw (draw s)))).1)
    (fun r u =>
      let s := endSession r.org.tr u
      let d := ofBE (le 72 (Config.trng s.draws)) % (p384n - 1) + 1
      let nonce := le 32 (Config.trng (s.draws + 1))
      let sid := le 4 (Config.trng (s.draws + 2))
      let prk := hkdfExtract (slice r.payload 4 32 ++ nonce) ((ecdh d (slice r.payload 36 97)).getD [])
      openSession r.org.tr
        { id := ofLE sid, keyId := fld r.payload 0 2, role := keyRole s (fld r.payload 0 2),
          h2d := hkdfExpand prk (ascii "AKN HIF h2d" ++ sid) 48, d2h := hkdfExpand prk (ascii "AKN HIF d2h" ++ sid) 48,
          serial := s.draws + 2, last := monoUs s }
        (draw (draw (draw (draw s)))))) ∧
  (∀ d : Bytes, Completes .secAttest cmdAttest
    (fun r s => Attestable s (fld r.payload 0 1) ∧ allZero (slice r.payload 1 3) = true ∧ noRandom s = false ∧ slotKey s 0 = some d)
    stOK
    (fun r u =>
      let b := attestBytes u (fld r.payload 0 1) (slice r.payload 4 32)
      b ++ ecdsaSign (ofBE d) (ofBE (le 72 (Config.trng u.draws)) % (p384n - 1) + 1) (sha384 b))
    (fun _ u => draw u)) ∧
  Completes .secAttest cmdAttest
    (fun r s => Attestable s (fld r.payload 0 1) ∧ allZero (slice r.payload 1 3) = true ∧ slotKey s 0 = none)
    stOK (fun r u => attestBytes u (fld r.payload 0 1) (slice r.payload 4 32) ++ zeros 96) (fun _ u => u) ∧
  Completes .secAttest cmdAttest (fun r _ => fld r.payload 0 1 = 0xFE ∧ allZero (slice r.payload 1 3) = true) stOK
    (fun _ u => u.sec.cert.getD []) (fun _ u => u) ∧
  (∀ d : Bytes, Completes .secKeySign cmdKeySign
    (fun r s => 32 ≤ fld r.payload 0 1 ∧ fld r.payload 0 1 ≤ 63 ∧ slotKey s (fld r.payload 0 1) = some d ∧
      allZero (slice r.payload 1 3) = true ∧ noRandom s = false)
    stOK
    (fun r u => ecdsaSign (ofBE d) (ofBE (le 72 (Config.trng u.draws)) % (p384n - 1) + 1) (slice r.payload 4 48))
    (fun _ u => draw u)) ∧
  (∀ st : Bytes, Completes .secKeyGenerate cmdKeyGenerate
    (fun r s => 32 ≤ fld r.payload 0 1 ∧ fld r.payload 0 1 ≤ 63 ∧ slotKey s (fld r.payload 0 1) = none ∧
      allZero (slice r.payload 1 3) = true ∧ noRandom s = false ∧ slotKey s 1 = some st)
    stOK
    (fun _ u =>
      le 4 (keyAttrs 1 4 u.sec.lifecycle.code false false false true) ++
        publicOf (ofBE (le 72 (Config.trng u.draws)) % (p384n - 1) + 1) ++ zeros 3)
    (fun r u =>
      let d := ofBE (le 72 (Config.trng u.draws)) % (p384n - 1) + 1
      let a := keyAttrs 1 4 u.sec.lifecycle.code false false false true
      putKey (fld r.payload 0 1) a (be 48 d) (wrapRec st (fld r.payload 0 1) a (be 48 d) (draw u))))

/-- SEC_KEY_INSTALL enters a host key in the first free place of the table, or removes one whose removal is not barred (R501).
SEC_KEY_IMPORT stores, wrapped, the key that it unwraps, and a site key also in its slot (R503); SEC_KEY_DELETE erases a
generated key and its record (R504); SEC_IDENTITY_CERT stores a certificate of the identity key (R507). Each answers OK. Log
entry 88 says what of it is the model's choice. -/
def Obligations.KeyTableCommandsComplete : Prop :=
  (∀ place : Nat, Completes .secKeyInstall cmdKeyInstall
    (fun r s => 1 ≤ fld r.payload 0 2 ∧ fld r.payload 0 2 ≤ 0xFEFF ∧ hostKey s (fld r.payload 0 2) = none ∧
      s.sec.hostKeys.toList.findIdx? (·.isNone) = some place ∧ 1 ≤ fld r.payload 2 1 ∧ fld r.payload 2 1 ≤ 3 ∧
      fld r.payload 3 1 = 0 ∧ (pointOf (slice r.payload 4 97)).isSome = true ∧ allZero (slice r.payload 101 3) = true)
    stOK (fun _ _ => [])
    (fun r u => { u with sec := { u.sec with
      hostKeys := vset u.sec.hostKeys place (some ⟨fld r.payload 0 2, fld r.payload 2 1, slice r.payload 4 97⟩) } })) ∧
  (∀ k : HostKey, Completes .secKeyInstall cmdKeyInstall
    (fun r s => hostKey s (fld r.payload 0 2) = some k ∧ removalBarred s k = false ∧ fld r.payload 2 1 = 0 ∧
      fld r.payload 3 1 = 0 ∧ allZero (slice r.payload 4 97) = true ∧ allZero (slice r.payload 101 3) = true)
    stOK (fun _ _ => [])
    (fun r u => { u with sec := { u.sec with
      hostKeys := u.sec.hostKeys.map fun h => h.bind fun x => if x.keyId = fld r.payload 0 2 then none else some x } })) ∧
  (∀ k st : Bytes, Completes .secKeyImport cmdKeyImport
    (fun r s => (fld r.payload 0 1 = 2 ∨ (fld r.payload 0 1 = 1 ∧ s.subl.entries = [])) ∧
      allZero (slice r.payload 1 3) = true ∧ (pointOf (slice r.payload 4 97)).isSome = true ∧
      allZero (slice r.payload 101 3) = true ∧ importedKey s r.payload = some k ∧ noRandom s = false ∧ slotKey s 1 = some st)
    stOK (fun _ _ => [])
    (fun r u =>
      if fld r.payload 0 1 = 1 then
        let a := keyAttrs 5 3 u.sec.lifecycle.code false true false false
        putKey 5 a k (wrapRec st 5 a k u)
      else wrapRec st 4 (keyAttrs 3 3 u.sec.lifecycle.code false true false false) k u)) ∧
  (∀ k : Bytes, Completes .secKeyDelete cmdKeyDelete
    (fun r s => 32 ≤ fld r.payload 0 1 ∧ fld r.payload 0 1 ≤ 63 ∧ slotKey s (fld r.payload 0 1) = some k ∧
      allZero (slice r.payload 1 3) = true)
    stOK (fun _ _ => [])
    (fun r u => { u with sec := { u.sec with
      records := u.sec.records.filter fun x => x.slot != fld r.payload 0 1,
      slots := u.sec.slots.filter fun x => x.1 != fld r.payload 0 1 } })) ∧
  (∀ d : Bytes, Completes .secIdentityCert cmdIdentityCert
    (fun r s => slotKey s 0 = some d ∧ certPublic r.payload = some (publicOf (ofBE d)))
    stOK (fun _ _ => []) (fun r u => { u with sec := { u.sec with cert := some r.payload } }))

/-- SEC_LIFECYCLE_ADVANCE moves the lifecycle one state on, answers OK, makes the keys of the transition, stops metering in
order and leaves a main reset pending with LAST_RESET code 4 (R508, R509). SEC_TAMPER_RELEASE clears the latch and what it
recorded, records the release, answers OK and leaves a main reset pending with code 5 (R525). A chunk of an image, the first or
one that continues it, is stored and answered with the stage, and one that completes the image begins its verification (R517);
SEC_IMAGE_ACTIVATE begins the switch to a verified image, which for the control runtime takes its instant 250 ms ahead (R518).
Log entry 89 says what of it is the model's choice. -/
def Obligations.LifecycleAndImageCommandsComplete : Prop :=
  CompletesThen .secLifecycleAdvance cmdLifecycle
    (fun r s => fld r.payload 0 1 = s.sec.lifecycle.code + 1 ∧ fld r.payload 0 1 ≤ 4 ∧
      (s.sec.lifecycle.code = 1 → s.sec.cert.isSome = true ∧ metroCosigned s = true) ∧ allZero (slice r.payload 1 3) = true)
    (fun _ _ => [])
    (fun _ u => { u with
      sec := { u.sec with lifecycle := Lifecycle.ofCode (u.sec.lifecycle.code + 1) }, sys := { u.sys with modeChanges := 0 } })
    (fun r u v =>
      let w := orderlyStop (transitionKeys u.sec.lifecycle.code r.auth.keyId v)
      { w with sys := { w.sys with resetPending := some 4 } }) ∧
  CompletesThen .secTamperRelease cmdTamperRelease
    (fun r s => fld r.payload 0 4 = s.tamp.count.toNat ∧ allZero (slice r.payload 4 4) = true)
    (fun _ _ => [])
    (fun r u => post 0x1102 0 (le 1 u.tamp.sources ++ le 1 6 ++ le 4 u.tamp.count.toNat ++ le 6 u.tamp.first) r.auth.keyId
      { u with tamp := { u.tamp with set_ := false, sources := 0, situation := 0, count := 0, first := 0 } })
    (fun _ _ v => { v with sys := { v.sys with resetPending := some 5 } }) ∧
  (∀ old : Bytes, Completes .secImageStage cmdImageStage
    (fun r s => ImageChunk s r.payload old ∧ (old ++ r.payload.drop 12).length < fld r.payload 8 4)
    stOK (fun r u => imageStageBody (chunkStored u r.payload old 1))
    (fun r u => updClass (fld r.payload 0 1) (fun _ => chunkStored u r.payload old 1) u)) ∧
  (∀ old : Bytes, Begins .secImageStage cmdImageStage
    (fun r s => ImageChunk s r.payload old ∧ (old ++ r.payload.drop 12).length = fld r.payload 8 4)
    (fun r _ => .imageVerify (fld r.payload 0 1))
    (fun r u => updClass (fld r.payload 0 1) (fun _ => chunkStored u r.payload old 2) u)) ∧
  Begins .secImageActivate cmdImageActivate
    (fun r s => 1 ≤ fld r.payload 0 1 ∧ fld r.payload 0 1 ≤ 7 ∧ (imageOf s (fld r.payload 0 1)).stage = 3 ∧
      allZero (slice r.payload 1 3) = true ∧
      slotDigest (imageSlot (imageOf s (fld r.payload 0 1)) (!(imageOf s (fld r.payload 0 1)).running)) = slice r.payload 4 48)
    (fun r _ => .imageSwitch (fld r.payload 0 1))
    (fun r u =>
      let v := updClass (fld r.payload 0 1) (fun x => { x with stage := 5, pendUs := monoUs u }) u
      if fld r.payload 0 1 = 2 then
        { v with ctrl := { v.ctrl with swap := some ⟨monoUs u + 250000, getP u 0x061B, false, []⟩ } }
      else v)

/-- SOLV_JOB_SUBMIT puts a job behind those that wait and stays EXECUTING until it ends (R174). SOLV_TEST_WRITE answers OK and stores
its data at an offset of the test region, byte by byte: the region reads as before everywhere else, and nothing else of the solver is
changed; SOLV_TEST_READ returns the bytes from an offset on and changes nothing (R175). -/
def Obligations.SolverCommandsComplete : Prop :=
  (∀ dt q pl a s, Arrives cmdJobSubmit dt q pl a s → firstBad (jobChecks (elapse dt s) pl) = none →
    exec (.solvJobSubmit dt q pl) s =
      .next (setWait q.tag.toNat (.job q.tag.toNat)
        { accepted cmdJobSubmit q pl a (elapse dt s) with
          solv := { s.solv with queue := s.solv.queue ++ [⟨q.tag.toNat, pl, dMask pl, dDeadline pl⟩] } })) ∧
  (∀ dt q pl a s, Arrives cmdTestWrite dt q pl a s → Canonical s = true → fld pl 0 4 + (pl.length - 8) ≤ testSize → fld pl 4 4 = 0 →
    ∃ m, exec (.solvTestWrite dt q pl) s =
        .next (answered q stOK [] { accepted cmdTestWrite q pl a (elapse dt s) with solv := { s.solv with test := m } }) ∧
      (∀ k < pl.length - 8, Memory.read m (fld pl 0 4 + k) = pl.getD (8 + k) 0) ∧
      (∀ k, k < fld pl 0 4 ∨ fld pl 0 4 + (pl.length - 8) ≤ k → Memory.read m k = Memory.read s.solv.test k)) ∧
  Completes .solvTestRead cmdTestRead
    (fun r _ => fld r.payload 0 4 + fld r.payload 4 2 ≤ testSize ∧ 1 ≤ fld r.payload 4 2 ∧ fld r.payload 4 2 ≤ 4096 ∧
      fld r.payload 6 2 = 0)
    stOK (fun r u => (List.range (fld r.payload 4 2)).map fun k => Memory.read u.solv.test (fld r.payload 0 4 + k)) (fun _ u => u)

/-- A chunk of a Mizon image that does not complete it is stored and answered with the stage, and the last one begins its validation
(R124, R125). NMOD_MODEL_ACTIVATE begins the activation of the staged model (R127). NMOD_CALIB_GET answers the newest proposal, or
nothing while there is none, and NMOD_CALIB_ADOPT stages the active model with the factors that it selects of the newest proposal
applied and REVISION + 1, and begins its validation (R135). -/
def Obligations.ModelCommandsComplete : Prop :=
  Completes .nmodModelLoad cmdModelLoad
    (fun r s => s.nmod.stage.code ≠ 2 ∧ s.nmod.stage.code ≠ 5 ∧ firstBad (chunkChecks s.nmod.stage 68 2693956 r.payload) = none ∧
      (chunkTake s.nmod.stage r.payload).code = 1)
    stOK (fun r u => stageBody (chunkTake u.nmod.stage r.payload))
    (fun r u => { u with nmod := { u.nmod with stage := chunkTake u.nmod.stage r.payload, staged := none } }) ∧
  Begins .nmodModelLoad cmdModelLoad
    (fun r s => s.nmod.stage.code ≠ 2 ∧ s.nmod.stage.code ≠ 5 ∧ firstBad (chunkChecks s.nmod.stage 68 2693956 r.payload) = none ∧
      (chunkTake s.nmod.stage r.payload).code = 2)
    (fun _ _ => .modelValidation)
    (fun r u => { u with nmod := { u.nmod with stage := chunkTake u.nmod.stage r.payload, staged := none } }) ∧
  (∀ m : Mizon, Begins .nmodModelActivate cmdModelActivate
    (fun r s => s.nmod.staged = some m ∧ (s.nmod.stage.code = 3 ∨ s.nmod.stage.code = 6) ∧ m.id = fld r.payload 0 4 ∧
      m.rev = fld r.payload 4 4)
    (fun _ _ => .modelActivation)
    (fun _ u => { u with nmod := { u.nmod with stage := { u.nmod.stage with code := 5 }, built := false } })) ∧
  Completes .nmodCalibGet cmdCalibGet (fun _ _ => True) stOK (fun _ u => u.nmod.proposals.headD []) (fun _ u => u) ∧
  (∀ (p : Bytes) (m : Mizon), Begins .nmodCalibAdopt cmdCalibAdopt
    (fun r s => s.nmod.proposals.head? = some p ∧ s.nmod.active = some m ∧ fld p 0 4 = fld r.payload 0 4 ∧ fld p 4 4 = m.id ∧
      fld p 8 4 = m.rev ∧ fld r.payload 4 4 = 0 ∧ s.nmod.stage.code ≠ 5)
    (fun _ _ => .modelValidation)
    (fun r u => { u with nmod := { u.nmod with
      staged := none,
      stage := { Stage.empty with
        code := 2, id := m.id, rev := (m.rev + 1) % 2 ^ 32, length := (adoptImage m p (r.payload.drop 8)).length,
        received := adoptImage m p (r.payload.drop 8) } } }))

/-- NMOD_ROUND_CONFIG without a payload answers the configuration in effect; with one it waits behind the others for its cut (R217).
NMOD_OPT_CONFIG answers the configuration in effect, or keeps the one that it carries for the next round start (R218).
NMOD_RESULT_GET answers a retained estimation or optimisation result, the newest or the one of a round, with its status and
REGULARISED, and the output record (R213). NMOD_FORECAST_LOAD keeps its series for the next round start (R199). -/
def Obligations.RoundCommandsComplete : Prop :=
  Completes .nmodRoundConfig cmdRoundConfig (fun r _ => r.payload = []) stOK (fun _ u => u.nmod.roundCfg) (fun _ u => u) ∧
  Begins .nmodRoundConfig cmdRoundConfig (fun r s => r.payload ≠ [] ∧ firstBad (roundChecks r.payload s) = none)
    (fun _ u => .roundConfig ((u.nmod.roundPend.getLast?).elim 0 (·.place + 1)))
    (fun r u => { u with nmod := { u.nmod with
      roundPend := u.nmod.roundPend ++ [⟨(u.nmod.roundPend.getLast?).elim 0 (·.place + 1), r.payload, false⟩] } }) ∧
  (∀ dt q pl a s (x : EstRes), Arrives cmdResultGet dt q pl a s → fld pl 0 1 = 0 → allZero (slice pl 2 6) = true →
    ((fld pl 1 1 = 0 ∧ s.nmod.estResults.head? = some x) ∨
      (fld pl 1 1 = 1 ∧ s.nmod.estResults.find? (fun y => y.round == fld pl 8 8) = some x)) →
    exec (.nmodResultGet dt q pl) s =
      .next (complete q.tag.toNat x.status (bit x.flags 1) (estBody x) (accepted cmdResultGet q pl a (elapse dt s)))) ∧
  (∀ dt q pl a s (x : OptRes), Arrives cmdResultGet dt q pl a s → fld pl 0 1 = 1 → allZero (slice pl 2 6) = true →
    ((fld pl 1 1 = 0 ∧ s.nmod.optResults.head? = some x) ∨
      (fld pl 1 1 = 1 ∧ s.nmod.optResults.find? (fun y => y.start == fld pl 8 8) = some x)) →
    exec (.nmodResultGet dt q pl) s =
      .next (complete q.tag.toNat x.status (bit x.flags 1) (optBody x) (accepted cmdResultGet q pl a (elapse dt s)))) ∧
  Completes .nmodResultGet cmdResultGet
    (fun r _ => fld r.payload 0 1 = 2 ∧ fld r.payload 1 1 ≤ 1 ∧ allZero (slice r.payload 2 6) = true)
    stOK (fun _ u => u.nmod.record.now) (fun _ u => u) ∧
  Completes .nmodOptConfig cmdOptConfig (fun r _ => r.payload = []) stOK (fun _ u => u.nmod.optCfg) (fun _ u => u) ∧
  Completes .nmodOptConfig cmdOptConfig (fun r s => r.payload ≠ [] ∧ firstBad (optChecks r.payload s) = none) stOK (fun _ _ => [])
    (fun r u => { u with nmod := { u.nmod with optPend := some r.payload } }) ∧
  Completes .nmodForecastLoad cmdForecastLoad
    (fun r s =>
      let n := fld r.payload 4 2
      1 ≤ fld r.payload 0 1 ∧ fld r.payload 0 1 ≤ 7 ∧
      ((mergeSeries s.nmod.forecasts s.nmod.forecastPend).filter fun x =>
        !(x.1 == fld r.payload 0 1 && x.2.1 == fld r.payload 2 2)).length < 256 ∧
      fld r.payload 1 1 = 0 ∧ (fld r.payload 0 1 = 1 ∨ fld r.payload 0 1 = 4 → fld r.payload 2 2 = 0) ∧
      1 ≤ n ∧ n ≤ 384 ∧ r.payload.length = 24 + 8 * n ∧ fld r.payload 6 2 = 0 ∧ fld r.payload 14 2 = 0 ∧
      fld r.payload 16 4 ∈ [300, 600, 900, 1800, 3600] ∧ fld r.payload 20 4 = 0 ∧
      (∀ k < n, fFinite f64 (fld r.payload (24 + 8 * k) 8) = true))
    stOK (fun _ _ => [])
    (fun r u => { u with nmod := { u.nmod with
      forecastPend := u.nmod.forecastPend ++
        [(fld r.payload 0 1, fld r.payload 2 2, fld r.payload 8 6, fld r.payload 16 4,
          (List.range (fld r.payload 4 2)).map fun k => fld r.payload (24 + 8 * k) 8)] } })

/-- A registration or a replacement, with the keys of its entry unwrapped for it (R224, R227), and a removal (R229) wait for the
next cut, behind those sent before; SUBL_STATUS answers the counters of one entry and changes nothing (R243). Log entry 87 says
what of it is the model's choice. -/
def Obligations.SubstationCommandsComplete : Prop :=
  Begins .sublRegister cmdSublRegister
    (fun r s => fld r.payload 0 2 < 2048 ∧ fld r.payload 3 1 < 2 ∧
      registered s (fld r.payload 0 2) = bit (fld r.payload 3 1) 0 ∧ allZero (slice r.payload 16 8) = true)
    (fun _ u => .sublCut u.subl.ops.length)
    (fun r u =>
      let w := wrapFor (fld r.payload 0 2) (fld r.payload 2 1) u
      { w.2 with subl := { w.2.subl with
        ops := u.subl.ops ++
          [⟨fld r.payload 0 2, false, fld r.payload 2 1, fld r.payload 4 4, fld r.payload 8 8, w.1⟩] } }) ∧
  Begins .sublUnregister cmdSublUnregister
    (fun r s => registered s (fld r.payload 0 2) = true ∧ allZero (slice r.payload 2 2) = true)
    (fun _ u => .sublCut u.subl.ops.length)
    (fun r u => { u with subl := { u.subl with ops := u.subl.ops ++ [⟨fld r.payload 0 2, true, 0, 0, 0, []⟩] } }) ∧
  (∀ x : SublEntry, Completes .sublStatus cmdSublStatus
    (fun r s => sublEntry s (fld r.payload 0 2) = some x ∧ allZero (slice r.payload 2 2) = true)
    stOK (fun _ u => sublStatusBody u x) (fun _ u => u))

/-- A chunk of a block image that does not complete it is stored and answered with the stage, the last one begins its validation
(R266). CTRL_COLD_START makes the staged image the running one as a cold start does and answers OK (R267); CTRL_ONLINE_CHANGE
begins a change to the staged image, its instant 250 ms ahead (R298). Log entries 45 and 46 say what of it is the model's
choice. -/
def Obligations.BlockImageCommandsComplete : Prop :=
  Completes .ctrlImageLoad cmdCtrlImageLoad
    (fun r s => s.ctrl.stage.code ≠ 2 ∧ s.ctrl.stage.code ≠ 5 ∧ firstBad (chunkChecks s.ctrl.stage 64 1048576 r.payload) = none ∧
      (chunkTake s.ctrl.stage r.payload).code = 1)
    stOK (fun r u => stageBody (chunkTake u.ctrl.stage r.payload))
    (fun r u => { u with ctrl := { u.ctrl with stage := chunkTake u.ctrl.stage r.payload, staged := none } }) ∧
  Begins .ctrlImageLoad cmdCtrlImageLoad
    (fun r s => s.ctrl.stage.code ≠ 2 ∧ s.ctrl.stage.code ≠ 5 ∧ firstBad (chunkChecks s.ctrl.stage 64 1048576 r.payload) = none ∧
      (chunkTake s.ctrl.stage r.payload).code = 2)
    (fun _ _ => .blockValidation)
    (fun r u => { u with ctrl := { u.ctrl with stage := chunkTake u.ctrl.stage r.payload, staged := none } }) ∧
  (∀ b : BImg, Completes .ctrlColdStart cmdColdStart
    (fun r s => s.ctrl.staged = some b ∧ (s.ctrl.stage.code = 3 ∨ s.ctrl.stage.code = 6) ∧ b.id = fld r.payload 0 4 ∧
      b.rev = fld r.payload 4 4)
    stOK (fun _ _ => []) (fun _ u => coldStart b u)) ∧
  (∀ a b : BImg, Begins .ctrlOnlineChange cmdOnlineChange
    (fun r s => s.ctrl.running = some a ∧ s.ctrl.staged = some b ∧ (s.ctrl.stage.code = 3 ∨ s.ctrl.stage.code = 6) ∧
      b.id = fld r.payload 0 4 ∧ b.rev = fld r.payload 4 4 ∧ fld r.payload 8 1 < 4 ∧ allZero (slice r.payload 9 3) = true)
    (fun _ _ => .onlineChange)
    (fun r u => { u with ctrl := { u.ctrl with
      stage := { u.ctrl.stage with code := 5 },
      change := some
        { options := fld r.payload 8 1, at_ := tickUs u + 250000, atMono := monoUs u + 250000, drainMax := getP u 0x061B,
          phase := .preparing, held := [], exchangeMono := 0, prior := u.ctrl.stage.code, body := [] } } }))

/-- CTRL_FORCE_SET enters a force and records it (R293, R297), CTRL_FORCE_CLEAR removes one or all, answers their number and records
each (R294), CTRL_FORCE_LIST lists them (R295). CTRL_TASK_CONTROL stops a task, its outputs at their safe states and its axes released,
or lets a stopped one wait for its next release (R276); CTRL_TASK_STATUS answers the status of a task, and state 7 for one that the
running image does not define (R277). -/
def Obligations.ForceAndTaskCommandsComplete : Prop :=
  (∀ (b : BImg) (v : BVar), Completes .ctrlForceSet cmdForceSet
    (fun r s => s.ctrl.running = some b ∧ varOf b (fld r.payload 0 4) = some v ∧ v.dtype = fld r.payload 4 1 ∧
      ((∃ f ∈ s.ctrl.forces, f.var = fld r.payload 0 4) ∨ s.ctrl.forces.length < 256) ∧
      allZero (slice r.payload 5 3) = true ∧ forceValueOk (fld r.payload 4 1) (fld r.payload 8 8) = true)
    stOK (fun _ _ => [])
    (fun r u => post 0x0606 0 (le 4 (fld r.payload 0 4) ++ le 8 (fld r.payload 8 8) ++ le 2 r.auth.keyId) r.auth.keyId
      { u with ctrl := { u.ctrl with
        forces := putForce ⟨fld r.payload 0 4, fld r.payload 4 1, r.auth.keyId, ptpSec u, fld r.payload 8 8⟩ u.ctrl.forces } })) ∧
  Completes .ctrlForceClear cmdForceClear (fun r _ => allZero (slice r.payload 4 4) = true) stOK
    (fun r u =>
      le 4 (u.ctrl.forces.filter fun f => fld r.payload 0 4 == 0xFFFFFFFF || f.var == fld r.payload 0 4).length ++ zeros 4)
    (fun r u =>
      (u.ctrl.forces.filter fun f => fld r.payload 0 4 == 0xFFFFFFFF || f.var == fld r.payload 0 4).foldl
        (fun s f => post 0x0607 0 (le 4 f.var ++ le 8 f.value ++ le 2 r.auth.keyId) r.auth.keyId s)
        { u with ctrl := { u.ctrl with
          forces := u.ctrl.forces.filter fun f => !(fld r.payload 0 4 == 0xFFFFFFFF || f.var == fld r.payload 0 4) } }) ∧
  Completes .ctrlForceList cmdForceList (fun _ _ => True) stOK
    (fun _ u => le 4 u.ctrl.forces.length ++ zeros 4 ++
      u.ctrl.forces.flatMap fun f =>
        le 4 f.var ++ le 1 f.dtype ++ le 1 ((u.ctrl.running.bind fun b => varOf b f.var).elim 0 (·.kind)) ++ le 2 f.keyId ++
          le 6 f.sec ++ zeros 2 ++ le 8 f.value)
    (fun _ u => u) ∧
  (∀ d : BTask, Completes .ctrlTaskControl cmdTaskControl
    (fun r s => fld r.payload 0 1 ≤ 1 ∧ taskDef s (fld r.payload 0 1) (fld r.payload 1 1) = some d ∧ fld r.payload 2 1 = 0 ∧
      allZero (slice r.payload 3 1) = true)
    stOK (fun _ _ => [])
    (fun r u =>
      let e := fld r.payload 0 1
      let t := fld r.payload 1 1
      releaseTaskAxes e t (taskOutputsSafe e t (updTask e t (fun y => { y with mode := .stopped }) (dropRun e t u))))) ∧
  (∀ d : BTask, Completes .ctrlTaskControl cmdTaskControl
    (fun r s => fld r.payload 0 1 ≤ 1 ∧ taskDef s (fld r.payload 0 1) (fld r.payload 1 1) = some d ∧ fld r.payload 2 1 = 1 ∧
      allZero (slice r.payload 3 1) = true)
    stOK (fun _ _ => [])
    (fun r u => updTask (fld r.payload 0 1) (fld r.payload 1 1)
      (fun y => if y.mode = .waiting then y else { y with mode := .waiting, restarted := true }) u)) ∧
  Completes .ctrlTaskStatus cmdTaskStatus
    (fun r s => fld r.payload 0 1 ≤ 1 ∧ fld r.payload 1 1 ≤ 15 ∧ allZero (slice r.payload 2 2) = true ∧
      taskSt s (fld r.payload 0 1) (fld r.payload 1 1) = none)
    stOK (fun _ _ => le 1 7 ++ zeros 39 ++ le 4 0xFFFFFFFF ++ zeros 4) (fun _ u => u) ∧
  (∀ x : TaskSt, Completes .ctrlTaskStatus cmdTaskStatus
    (fun r s => fld r.payload 0 1 ≤ 1 ∧ fld r.payload 1 1 ≤ 15 ∧ allZero (slice r.payload 2 2) = true ∧
      taskSt s (fld r.payload 0 1) (fld r.payload 1 1) = some x)
    stOK
    (fun r u =>
      le 1 (taskState u (fld r.payload 0 1) x) ++
        le 1 (4 * b2n x.overflowed + 2 * b2n x.div0 + b2n (drivesAny u (fld r.payload 0 1) (fld r.payload 1 1))) ++ zeros 2 ++
        le 4 x.cycleCount.toNat ++ le 4 x.skippedAll.toNat ++ le 4 x.overruns.toNat ++ le 4 x.lastRun.toNat ++
        le 4 x.maxRun.toNat ++ le 6 (stampOfUs x.release).sec ++ zeros 2 ++ le 4 (stampOfUs x.release).ns ++
        le 4 x.journalPeak ++ le 4 x.faultPc ++ le 4 x.faultAddr)
    (fun _ u => u))

/-- MEL_CAL_WINDOW opens a calibration window on an enabled system and waits for its end (R350). BILL_READ answers the registers
of the last snapshot point as item 0, the saved record that a boot would choose as item 1, the frozen record as item 2, a kept
interval of a channel or a system as items 3 and 4, a gap record as item 5, and the metrology version, the change counter and
the image's digest as item 6; it changes nothing (R371). VAX_MOVE by a device that holds the active role starts a move or a stop
of an enabled axis that no running task drives, in place of the one before it, and waits for its end (R409, R411); MODE 0 also
clears the axis's latched stall and drive fault. VAX_HOME starts a homing (R410). VAX_STATUS answers the status record of an
axis and changes nothing, needs no authorisation and has the legality of PARAM_READ (R412). -/
def Obligations.MeteringAndValveCommandsComplete : Prop :=
  Begins .melCalWindow cmdCalWindow
    (fun r s =>
      let k := fld r.payload 0 1
      let start := fld r.payload 8 6 * 1000000000 + fld r.payload 16 4
      k ≤ 3 ∧ melEnabled s k = true ∧ allZero (slice r.payload 1 7) = true ∧ ptpTotalNs s + 10000000 ≤ start ∧
        start ≤ ptpTotalNs s + 3600000000000 ∧ allZero (slice r.payload 14 2) = true ∧ fld r.payload 16 4 ≤ 999999999 ∧
        1000 ≤ fld r.payload 20 4 ∧ fld r.payload 20 4 ≤ 3600000 ∧ (melSys s k).cal = none)
    (fun r _ => .calWindow (fld r.payload 0 1))
    (fun r u =>
      let start := fld r.payload 8 6 * 1000000000 + fld r.payload 16 4
      setMel (fld r.payload 0 1)
        { melSys u (fld r.payload 0 1) with
          cal := some
            { start := start, stop := start + fld r.payload 20 4 * 1000000, samples := 0, first := ⟨0, 0⟩,
              sums := Vector.replicate 3 PhaseSums.zero, flags := 0 } } u) ∧
  Completes .billRead cmdBillRead (fun r _ => r.payload = zeros 8) stOK
    (fun _ u => recBytes { u.bill.shown with seq := u.bill.lastSeq }) (fun _ u => u) ∧
  (∀ x : SaveRec, Completes .billRead cmdBillRead (fun r s => r.payload = 1 :: zeros 7 ∧ chooseSlot s = some x) stOK
    (fun _ _ => recBytes x) (fun _ u => u)) ∧
  (∀ x : SaveRec, Completes .billRead cmdBillRead (fun r s => r.payload = 2 :: zeros 7 ∧ s.bill.frozen = some x) stOK
    (fun _ _ => recBytes { x with set_ := 0 }) (fun _ u => u)) ∧
  (∀ (c : Fin 16) (l : Fin 3) x, Completes .billRead cmdBillRead
    (fun r s => fld r.payload 0 1 = 3 ∧ fld r.payload 1 1 = c ∧ fld r.payload 2 1 = l ∧ fld r.payload 3 1 = 0 ∧
      ((s.mth.chans[c]).kept[l])[fld r.payload 4 4]? = some x)
    stOK (fun _ _ => thermIntBytes c l x) (fun _ u => u)) ∧
  (∀ (k : Fin 4) (l : Fin 3) x, Completes .billRead cmdBillRead
    (fun r s => fld r.payload 0 1 = 4 ∧ fld r.payload 1 1 = k ∧ fld r.payload 2 1 = l ∧ fld r.payload 3 1 = 0 ∧
      ((melSys s k).kept[l])[fld r.payload 4 4]? = some x)
    stOK (fun _ _ => elecIntBytes k l x) (fun _ u => u)) ∧
  (∀ x, Completes .billRead cmdBillRead
    (fun r s => r.payload.take 4 = 5 :: zeros 3 ∧ s.bill.gaps[fld r.payload 4 4]? = some x) stOK
    (fun _ _ => gapBytes x) (fun _ u => u)) ∧
  Completes .billRead cmdBillRead (fun r _ => r.payload = 6 :: zeros 7) stOK
    (fun _ u => le 4 (metroVersion u) ++ le 4 u.bill.changeCounter.toNat ++ fit 48 (imageOf u 3).digest) (fun _ u => u) ∧
  Begins .vaxMove cmdVaxMove
    (fun r s =>
      let a := fld r.payload 0 1
      a ≤ 7 ∧ axisEnabled s a = true ∧ 1 ≤ fld r.payload 1 1 ∧ fld r.payload 1 1 ≤ 3 ∧ allZero (slice r.payload 2 2) = true ∧
        axisFree s a = true ∧ roleHeld s = true ∧ (axisOf s a).home = none ∧ (axisOf s a).host = none ∧
        (axisOf s a).stallLatched = false ∧ (axisOf s a).driveFault = false)
    (fun r _ => .axis (fld r.payload 0 1))
    (fun r u =>
      let a := fld r.payload 0 1
      setAxis a
        { startGoal u a (goalOf (fld r.payload 1 1) (r.payload.drop 4) 0) { axisOf u a with record := none } with
          host := some false } u) ∧
  Begins .vaxMove cmdVaxMove
    (fun r s =>
      let a := fld r.payload 0 1
      a ≤ 7 ∧ axisEnabled s a = true ∧ fld r.payload 1 1 = 0 ∧ allZero (slice r.payload 2 2) = true ∧ fld r.payload 4 4 = 0 ∧
        axisFree s a = true ∧ roleHeld s = true ∧ (axisOf s a).home = none ∧ (axisOf s a).host = none)
    (fun r _ => .axis (fld r.payload 0 1))
    (fun r u =>
      let a := fld r.payload 0 1
      let x := { axisOf u a with stallLatched := false, driveFault := false, faultCause := 0, record := none }
      setAxis a { startGoal u a (goalOf 0 (r.payload.drop 4) 0) x with host := some false } u) ∧
  Begins .vaxHome cmdVaxHome
    (fun r s =>
      let a := fld r.payload 0 1
      a ≤ 7 ∧ axisEnabled s a = true ∧ allZero (slice r.payload 1 3) = true ∧ axisFree s a = true ∧ roleHeld s = true ∧
        (axisOf s a).home = none ∧ (axisOf s a).host = none ∧
        (startHoming s a (axisOf s a).homeReq { axisOf s a with nextGoal := some Goal.stop, goal := Goal.stop }).home ≠ none)
    (fun r _ => .axis (fld r.payload 0 1))
    (fun r u =>
      let a := fld r.payload 0 1
      setAxis a
        { startHoming u a (axisOf u a).homeReq { axisOf u a with nextGoal := some Goal.stop, goal := Goal.stop } with
          host := some true } u) ∧
  Completes .vaxStatus cmdVaxStatus (fun r _ => fld r.payload 0 1 ≤ 7 ∧ allZero (slice r.payload 1 3) = true) stOK
    (fun r u => statusRead u (axisOf u (fld r.payload 0 1))) (fun _ u => u) ∧
  (∀ p s, cmdVaxStatus.need p s = .level 0) ∧
  (∀ m, cmdVaxStatus.modes m = cmdParamRead.modes m) ∧ cmdVaxStatus.lock = cmdParamRead.lock

/-- TIME_SET sets a clock that no reference holds at once and is answered OK, or waits for the next PPS edge (R433). TIME_TRIGGER_SET
programs a single pulse or a train of pulses of a trigger output, whose first pulse is the first of the train that is still at least
10 µs ahead, or switches the output off (R437). TIME_CAPTURE_GET answers the last capture page (R439). -/
def Obligations.TimeCommandsComplete : Prop :=
  Completes .timeSet cmdTimeSet
    (fun r s => fld r.payload 0 1 = 0 ∧ fld r.payload 1 1 = 0 ∧ 946684800 ≤ fld r.payload 2 6 ∧
      fld r.payload 2 6 < 13569465600 ∧ fld r.payload 8 4 ≤ 999999999 ∧ s.time.servo ≠ .acquiring ∧ servoLocked s = false)
    stOK (fun _ _ => []) (fun r u => clockSet (fld r.payload 2 6 * 1000000000 + fld r.payload 8 4) 1 u) ∧
  Begins .timeSet cmdTimeSet
    (fun r s => fld r.payload 0 1 = 1 ∧ fld r.payload 1 1 = 0 ∧ 946684800 ≤ fld r.payload 2 6 ∧
      fld r.payload 2 6 < 13569465600 ∧ fld r.payload 8 4 = 0 ∧ s.time.servo ≠ .acquiring ∧ servoLocked s = false)
    (fun _ _ => .pps) (fun r u => { u with time := { u.time with atPps := some (fld r.payload 2 6) } }) ∧
  Completes .timeTriggerSet cmdTriggerSet
    (fun r s =>
      let start := fld r.payload 8 6 * 1000000000 + fld r.payload 16 4
      fld r.payload 0 1 ≤ 7 ∧ fld r.payload 1 1 = 1 ∧ fld r.payload 2 1 ≤ 3 ∧ fld r.payload 3 1 = 0 ∧ fld r.payload 4 4 = 0 ∧
        ptpTotalNs s + 10000 ≤ start ∧ fld r.payload 14 2 = 0 ∧ fld r.payload 16 4 ≤ 999999999 ∧ fld r.payload 20 4 = 0 ∧
        fld r.payload 24 8 = 0 ∧ 4 ≤ fld r.payload 32 8 ∧ fld r.payload 32 8 ≤ 86400000000000)
    stOK (fun _ _ => [])
    (fun r u =>
      let start := fld r.payload 8 6 * 1000000000 + fld r.payload 16 4
      { u with time := { u.time with
        triggers := vset u.time.triggers (fld r.payload 0 1)
          { on := true, start := start, period := 0, width := fld r.payload 32 8, count := 0,
            activeLow := bit (fld r.payload 2 1) 0, suppress := bit (fld r.payload 2 1) 1, next := start, made := 0,
            level := false, endAt := 0 } } }) ∧
  Completes .timeTriggerSet cmdTriggerSet
    (fun r _ =>
      fld r.payload 0 1 ≤ 7 ∧ fld r.payload 1 1 = 2 ∧ fld r.payload 2 1 ≤ 3 ∧ fld r.payload 3 1 = 0 ∧ fld r.payload 14 2 = 0 ∧
        fld r.payload 16 4 ≤ 999999999 ∧ fld r.payload 20 4 = 0 ∧ 1000 ≤ fld r.payload 24 8 ∧
        fld r.payload 24 8 ≤ 3600000000000 ∧ 4 ≤ fld r.payload 32 8 ∧ fld r.payload 32 8 + 4 ≤ fld r.payload 24 8)
    stOK (fun _ _ => [])
    (fun r u =>
      let start := fld r.payload 8 6 * 1000000000 + fld r.payload 16 4
      let period := fld r.payload 24 8
      let soonest := ptpTotalNs u + 10000
      { u with time := { u.time with
        triggers := vset u.time.triggers (fld r.payload 0 1)
          { on := true, start := start, period := period, width := fld r.payload 32 8, count := fld r.payload 4 4,
            activeLow := bit (fld r.payload 2 1) 0, suppress := bit (fld r.payload 2 1) 1,
            next := if start < soonest then start + ceilDiv (soonest - start) period * period else start, made := 0,
            level := false, endAt := 0 } } }) ∧
  Completes .timeTriggerSet cmdTriggerSet
    (fun r _ =>
      fld r.payload 0 1 ≤ 7 ∧ fld r.payload 1 1 = 0 ∧ fld r.payload 2 1 ≤ 3 ∧ fld r.payload 3 1 = 0 ∧ fld r.payload 4 4 = 0 ∧
        fld r.payload 14 2 = 0 ∧ fld r.payload 16 4 ≤ 999999999 ∧ fld r.payload 20 4 = 0 ∧ fld r.payload 24 8 = 0)
    stOK (fun _ _ => [])
    (fun r u => { u with time := { u.time with
      triggers := vset u.time.triggers (fld r.payload 0 1) { Trigger.off with activeLow := bit (fld r.payload 2 1) 0 } } }) ∧
  Completes .timeCaptureGet cmdCaptureGet (fun _ _ => True) stOK (fun _ u => fit 336 u.time.page.now) (fun _ u => u)

/-- RTC_SET sets the calendar of a clock that no reference holds and records both times of day (R450, R451). RTC_DST_ADJUST leaves
the adjustment to the next second (R452), RTC_ALARM_SET programs an alarm, the copy in effect and the one that survives a reset
(R453), and EPD_DRAW writes its pixels to the canvas and with UPDATE requests an update of its region and waits for it (R478). -/
def Obligations.CalendarAndPanelCommandsComplete : Prop :=
  Completes .rtcSet cmdRtcSet
    (fun r s =>
      2000 ≤ fld r.payload 0 2 ∧ fld r.payload 0 2 ≤ 2399 ∧ 1 ≤ fld r.payload 2 1 ∧ fld r.payload 2 1 ≤ 12 ∧
        1 ≤ fld r.payload 3 1 ∧ fld r.payload 3 1 ≤ monthDays (fld r.payload 0 2) (fld r.payload 2 1) ∧
        fld r.payload 4 1 ≤ 23 ∧ fld r.payload 5 1 ≤ 59 ∧ fld r.payload 6 1 ≤ 59 ∧ fld r.payload 7 1 ≤ 1 ∧
        servoLocked s = false ∧ s.rtc.dstPending = none)
    stOK (fun _ _ => [])
    (fun r u =>
      let t := rtcAdjust u.rtc.cal
        (calOf (fld r.payload 0 2) (fld r.payload 2 1) (fld r.payload 3 1) (fld r.payload 4 1) (fld r.payload 5 1)
          (fld r.payload 6 1))
        { u with rtc := { u.rtc with
          dst := fld r.payload 7 1 == 1, repeated := false, since := u.clock.real, stepDue := none } }
      post 0x0E04 0 (le 4 (rtcDate u) ++ le 4 (rtcTime u) ++ (le 4 (rtcDate t) ++ le 4 (rtcTime t))) r.auth.keyId t) ∧
  Begins .rtcDstAdjust cmdDstAdjust
    (fun r s => fld r.payload 0 1 = 1 ∧ s.rtc.dst = false ∧ (s.rtc.cal + 1) % cycleSec + 3600 < cycleSec ∧
      allZero (slice r.payload 1 3) = true ∧ s.rtc.dstPending = none)
    (fun _ _ => .rtcDst) (fun _ u => { u with rtc := { u.rtc with dstPending := some true, stepDue := none } }) ∧
  Begins .rtcDstAdjust cmdDstAdjust
    (fun r s => fld r.payload 0 1 = 2 ∧ s.rtc.dst = true ∧ 3600 ≤ (s.rtc.cal + 1) % cycleSec ∧
      allZero (slice r.payload 1 3) = true ∧ s.rtc.dstPending = none)
    (fun _ _ => .rtcDst) (fun _ u => { u with rtc := { u.rtc with dstPending := some false, stepDue := none } }) ∧
  Completes .rtcAlarmSet cmdAlarmSet
    (fun r _ =>
      let mask := fld r.payload 2 1
      let p := r.payload
      fld p 0 1 ≤ 1 ∧ fld p 1 1 ≤ 3 ∧ mask ≤ 0x3F ∧ ¬(bit (fld p 1 1) 0 = true ∧ mask = 0x3F) ∧
        alarmFieldOk p 3 0 0 59 = true ∧ alarmFieldOk p 4 1 0 59 = true ∧ alarmFieldOk p 5 2 0 23 = true ∧
        alarmFieldOk p 6 3 1 31 = true ∧ alarmFieldOk p 7 4 1 12 = true ∧ alarmFieldOk p 8 5 1 7 = true ∧
        (bit mask 3 = false → bit mask 4 = false → fld p 6 1 ≤ monthDays 2000 (fld p 7 1)) ∧ allZero (slice p 9 3) = true)
    stOK (fun _ _ => [])
    (fun r u => { u with rtc := { u.rtc with
      alarms := vset u.rtc.alarms (fld r.payload 0 1) (slice r.payload 1 8),
      alarmStore := vset u.rtc.alarmStore (fld r.payload 0 1) (slice r.payload 1 8) } }) ∧
  Completes .epdDraw cmdEpdDraw
    (fun r s =>
      panelOn s = true ∧ 2 ≤ fld r.payload 0 1 ∧ fld r.payload 0 1 ≤ 15 ∧ bits (fld r.payload 1 1) 2 1 ≠ 0 ∧
        fld r.payload 1 1 < 8 ∧ bit (fld r.payload 1 1) 0 = false ∧ fld r.payload 2 2 = 0 ∧ fld r.payload 12 4 = 0 ∧
        fld r.payload 8 2 % 2 = 0 ∧ fld r.payload 8 2 ≠ 0 ∧ fld r.payload 10 2 ≠ 0 ∧
        fld r.payload 4 2 + fld r.payload 8 2 ≤ panelWidth s ∧ panelHeight s / 8 * 2 ≤ fld r.payload 6 2 ∧
        fld r.payload 6 2 + fld r.payload 10 2 ≤ panelHeight s ∧
        (r.payload.drop 16).length = fld r.payload 8 2 * fld r.payload 10 2 / 2)
    stOK (fun _ _ => [])
    (fun r u => { u with epd := { u.epd with
      canvas := drawPixels ⟨fld r.payload 4 2, fld r.payload 6 2, fld r.payload 8 2, fld r.payload 10 2⟩ (r.payload.drop 16)
        u.epd.canvas } }) ∧
  Begins .epdDraw cmdEpdDraw
    (fun r s =>
      panelOn s = true ∧ 2 ≤ fld r.payload 0 1 ∧ fld r.payload 0 1 ≤ 15 ∧ bits (fld r.payload 1 1) 2 1 ≠ 0 ∧
        fld r.payload 1 1 < 8 ∧ bit (fld r.payload 1 1) 0 = true ∧ fld r.payload 2 2 = 0 ∧ fld r.payload 12 4 = 0 ∧
        fld r.payload 8 2 % 2 = 0 ∧ fld r.payload 8 2 ≠ 0 ∧ fld r.payload 10 2 ≠ 0 ∧
        fld r.payload 4 2 + fld r.payload 8 2 ≤ panelWidth s ∧ panelHeight s / 8 * 2 ≤ fld r.payload 6 2 ∧
        fld r.payload 6 2 + fld r.payload 10 2 ≤ panelHeight s ∧
        ((r.payload.drop 16).length = fld r.payload 8 2 * fld r.payload 10 2 / 2 ∨ r.payload.drop 16 = []))
    (fun _ u => .display u.epd.nextId)
    (fun r u =>
      let area : Rect := ⟨fld r.payload 4 2, fld r.payload 6 2, fld r.payload 8 2, fld r.payload 10 2⟩
      epdRequest
        { id := u.epd.nextId, region := fld r.payload 0 1, rect := area, waveform := bits (fld r.payload 1 1) 2 1, all := false,
          auto := false }
        { u with epd := { u.epd with
          canvas := drawPixels area (r.payload.drop 16) u.epd.canvas, nextId := u.epd.nextId + 1,
          rects := vset u.epd.rects (fld r.payload 0 1) area } })

/-- EVR_READ answers up to 84 entries of the event log from a sequence number on, up to 63 of an audit section, a period of a record
channel, or the counters of an event code, and changes nothing (R490). EVR_CLEAR empties the event log, the periods of the record
channels, or both, answers what it removed and records it (R491). -/
def Obligations.RecorderCommandsComplete : Prop :=
  Completes .evrRead cmdEvrRead
    (fun r _ => fld r.payload 0 1 = 0 ∧ fld r.payload 1 1 = 0 ∧ 1 ≤ fld r.payload 2 2 ∧ fld r.payload 2 2 ≤ 84 ∧
      fld r.payload 4 4 = 0)
    stOK (fun r u => entriesBody logBytes (readRing u.evr.log (fld r.payload 8 8 % 2 ^ 32) (fld r.payload 2 2))) (fun _ u => u) ∧
  Completes .evrRead cmdEvrRead
    (fun r _ => fld r.payload 0 1 = 2 ∧ fld r.payload 1 1 = 0 ∧ 1 ≤ fld r.payload 2 2 ∧ fld r.payload 2 2 ≤ 63 ∧
      fld r.payload 4 4 = 0)
    stOK (fun r u => entriesBody auditBytes (readRing u.evr.general (fld r.payload 8 8) (fld r.payload 2 2))) (fun _ u => u) ∧
  Completes .evrRead cmdEvrRead
    (fun r _ => fld r.payload 0 1 = 1 ∧ fld r.payload 1 1 = 0 ∧ 1 ≤ fld r.payload 2 2 ∧ fld r.payload 2 2 ≤ 63 ∧
      fld r.payload 4 4 = 0)
    stOK (fun r u => entriesBody auditBytes (readRing u.evr.metro (fld r.payload 8 8) (fld r.payload 2 2))) (fun _ u => u) ∧
  (∀ x, Completes .evrRead cmdEvrRead
    (fun r s => fld r.payload 0 1 = 3 ∧ fld r.payload 1 1 ≤ 31 ∧ fld r.payload 2 2 = 0 ∧ fld r.payload 8 8 ≤ 1 ∧
      periodAt s (fld r.payload 1 1) (fld r.payload 4 4) (fld r.payload 8 8) = some x)
    stOK (fun r _ => periodBytes (fld r.payload 1 1) (fld r.payload 8 8 == 1) x) (fun _ u => u)) ∧
  Completes .evrRead cmdEvrRead
    (fun r _ => fld r.payload 0 1 = 4 ∧ fld r.payload 1 1 = 0 ∧ fld r.payload 2 2 = 0 ∧ fld r.payload 4 4 < 65536 ∧
      (eventClass (fld r.payload 4 4)).isSome = true ∧ fld r.payload 8 8 = 0)
    stOK
    (fun r u =>
      let k := countOf u.evr.counts (fld r.payload 4 4)
      le 4 k.occurred.toNat ++ le 4 k.recorded.toNat ++ le 4 k.limited.toNat ++
        le 2 ((limitOf u (fld r.payload 4 4)).getD 0xFFFF) ++ le 1 ((eventClass (fld r.payload 4 4)).getD 0) ++ [0])
    (fun _ u => u) ∧
  Completes .evrClear cmdEvrClear (fun r _ => fld r.payload 0 1 ≠ 0 ∧ fld r.payload 0 1 ≤ 3 ∧ allZero (slice r.payload 1 3) = true)
    stOK
    (fun r u =>
      let log := if bit (fld r.payload 0 1) 0 then u.evr.log else []
      le 4 ((log.getLast?.map (·.seq)).getD 0) ++ le 4 ((log.head?.map (·.seq)).getD 0) ++
        le 4 (log.length + if bit (fld r.payload 0 1) 1 then periodCount u else 0) ++ zeros 4)
    (fun r u =>
      let log := if bit (fld r.payload 0 1) 0 then u.evr.log else []
      let v := if bit (fld r.payload 0 1) 0 then { u with evr := { u.evr with log := [] } } else u
      post 0x1002 0
        (le 1 (fld r.payload 0 1) ++ le 4 ((log.getLast?.map (·.seq)).getD 0) ++ le 4 ((log.head?.map (·.seq)).getD 0) ++
          le 4 (log.length + if bit (fld r.payload 0 1) 1 then periodCount u else 0))
        r.auth.keyId (if bit (fld r.payload 0 1) 1 then clearPeriods v else v))

/-! ### Transports -/

/-- A packet as the three transports carry it is taken apart into the packet that was sent: every header field, the payload and
both trailers (R74, R75, R76). -/
def Obligations.PacketsParseBack : Prop :=
  ∀ (op : Nat) (q : Env) (pl : Bytes), op < 65536 → pl.length < 65536 →
    parsePkt ⟨q.tr, q.srcIp.toNat, q.srcPort.toNat⟩ (envPkt op q pl).bytes = envPkt op q pl

/-- The bytes of a command's packet have the effect of the command wherever they arrive: in an xSPI transaction (R70), in a UDP
datagram sent whole to the host endpoint or in two fragments (R72), and stuffed between the flags of a UART frame (R73), where no word
of the Vestibule fails. -/
def Obligations.TransportsDeliverPackets : Prop :=
  (∀ dt c q pl (v : VestibuleErr) s, q.tr = .xspi → q.srcIp = 0 → q.srcPort = 0 → cmdOf c.op = some c → v.err = .none →
    exec (.writePacket dt ⟨(envPkt c.op q pl).bytes, v⟩) s =
      .next { endRow s.pending (hostCommand c q pl (elapse dt s)) with pending := s.pending }) ∧
  (∀ dt c q pl ident (vlan : Nat) (port : W16) (v : VestibuleErr) s, q.tr = .udp → cmdOf c.op = some c →
    vlan = getP (elapse dt s) 0x0213 → port.toNat = getP (elapse dt s) 0x0211 → v.err = .none →
    exec (.udpDatagram dt
        ⟨{ srcIp := q.srcIp, srcPort := q.srcPort, ident := ident, offset := 0, more := false, checksumOk := true, unicast := true,
           vlan := vlan, dstPort := port, data := (envPkt c.op q pl).bytes }, v⟩) s =
      .next { endRow s.pending (hostCommand c q pl (elapse dt s)) with pending := s.pending }) ∧
  (∀ dt c q pl ident (vlan : Nat) (port : W16) (n : Nat) (v : VestibuleErr) s, q.tr = .udp → cmdOf c.op = some c → Quiet s →
    hostOpen s = true → vlan = getP s 0x0213 → port.toNat = getP s 0x0211 → v.err = .none → 0 < n → n < (envPkt c.op q pl).size →
    (envPkt c.op q pl).size ≤ 4268 →
    s.hif.frags = [⟨q.srcIp.toNat, q.srcPort.toNat, ident.toNat, [(0, (envPkt c.op q pl).bytes.take n)], none⟩] →
    exec (.udpDatagram dt
        ⟨{ srcIp := q.srcIp, srcPort := q.srcPort, ident := ident, offset := n, more := false, checksumOk := true, unicast := true,
           vlan := vlan, dstPort := port, data := (envPkt c.op q pl).bytes.drop n }, v⟩) s =
      .next { endRow s.pending (hostCommand c q pl { elapse dt s with hif := { s.hif with frags := [] } }) with
        pending := s.pending }) ∧
  (∀ dt c q pl (v : VestibuleErr) s, q.tr = .uart → q.srcIp = 0 → q.srcPort = 0 → cmdOf c.op = some c → v.err = .none →
    exec (.uartFrame dt ⟨((stuff (envPkt c.op q pl).bytes).drop 1).dropLast, v⟩) s =
      .next { endRow s.pending (hostCommand c q pl (elapse dt s)) with pending := s.pending })

/-- A packet whose checksum fails is answered CRC_ERROR with the number of bytes received, counted, and changes nothing else of
the host interface but the replies (R70, R103). A fragment that does not complete its datagram is kept (R72), and an incomplete
datagram is dropped and counted when its time ends. A reply read to its end leaves the xSPI queue, with the last one HIF_IRQ
falls and IRQ_HOLDOFF runs, and a part of it is read as it stands; an empty queue reads as zeros, and READ_STATUS gives
XSPI_STATUS (R69, R71, R101). The end of IRQ_HOLDOFF raises HIF_IRQ again for a reply that waits. A session ends when its idle
time is over, and its keys are erased (R98). The last byte of a UART reply has been sent: the UART_BAUD that waits for it takes
effect (R104). A command that a paired active device logs waits for its tick of effect, PAIR_LOG_DELAY after its acceptance, and
the peer is sent the tick and the packet (R60, R61, R565); at that tick it runs and is answered. Log entries 63 and 72 say what
of it is the model's choice. -/
def Obligations.TransportEventsComplete : Prop :=
  (∀ dt raw (v : VestibuleErr) s, Quiet s → hostOpen s = true → rxReady s = true → crcOk raw = false → v.err = .none →
    16 ≤ raw.length → raw.length ≤ 4268 → bit (hdrOf raw).verFlags 2 = false →
    ∃ r, exec (.writePacket dt ⟨raw, v⟩) s =
        .next (let u := setLink .xspi { linkOf s .xspi with replySeq := (linkOf s .xspi).replySeq + 1 } (elapse dt s)
          irqUpdate { u with hif := { u.hif with crcErrors := s.hif.crcErrors + 1, xspiQ := s.hif.xspiQ ++ [r] } }) ∧
      r.status = stCrcError ∧ r.body = le 4 raw.length ∧ r.tag = (hdrOf raw).tag ∧ r.heldSlots = 0 ∧ r.heldBufs = 0) ∧
  (∀ dt (f : UdpFrag) v s, Quiet s → hostOpen s = true → f.unicast = true → f.vlan = getP s 0x0213 →
    f.dstPort.toNat = getP s 0x0211 → f.more = true → f.offset + f.data.length ≤ 4268 → s.hif.frags.length < 4 →
    (∀ r ∈ s.hif.frags, r.srcIp ≠ f.srcIp.toNat ∨ r.ident ≠ f.ident.toNat) →
    exec (.udpDatagram dt ⟨f, v⟩) s =
      .next { elapse dt s with hif := { s.hif with
        frags := s.hif.frags ++ [⟨f.srcIp.toNat, f.srcPort.toNat, f.ident.toNat, [(f.offset, f.data)], none⟩] } }) ∧
  (∀ dt (ip : W32) (ident : W16) s, Quiet s → (∃ r ∈ s.hif.frags, r.srcIp = ip.toNat ∧ r.ident = ident.toNat) →
    exec (.fragmentDiscard dt ip ident) s =
      .next { elapse dt s with hif := { s.hif with
        frags := s.hif.frags.filter fun r => !(r.srcIp == ip.toNat && r.ident == ident.toNat),
        udpDropped := s.hif.udpDropped + 1 } }) ∧
  (∀ dt n r rest s, Quiet s → s.sys.inReset = false → s.sys.mode ≠ .backup → s.hif.xspiQ = r :: rest → s.hif.baudPending = none →
    (replyBytes (elapse dt s) r).length ≤ n →
    exec (.readReply dt ⟨0x0B, n⟩) s =
      .next { elapse dt s with
        out := s.out ++ [.xspi (replyBytes (elapse dt s) r)],
        hif := { s.hif with
          xspiQ := rest,
          irq := s.hif.irq && !rest.isEmpty,
          holdoff := if rest = [] ∧ s.hif.irq = true then getP s 0x0216 != 0 else s.hif.holdoff } }) ∧
  (∀ dt n r rest s, Quiet s → s.sys.inReset = false → s.sys.mode ≠ .backup → s.hif.xspiQ = r :: rest →
    n < (replyBytes (elapse dt s) r).length →
    exec (.readReply dt ⟨0x0B, n⟩) s = .next { elapse dt s with out := s.out ++ [.xspi ((replyBytes (elapse dt s) r).take n)] }) ∧
  (∀ dt n s, Quiet s → s.sys.inReset = false → s.sys.mode ≠ .backup → s.hif.xspiQ = [] →
    exec (.readReply dt ⟨0x0B, n⟩) s = .next { elapse dt s with out := s.out ++ [.xspi (zeros n)] }) ∧
  (∀ dt n s, Quiet s → s.sys.inReset = false → s.sys.mode ≠ .backup →
    exec (.readReply dt ⟨0x05, n⟩) s =
      .next { elapse dt s with out := s.out ++ [.xspi ((le 4 (xspiStatus (elapse dt s))).take n)] }) ∧
  (∀ dt s, Quiet s →
    exec (.irqHoldoffEnd dt) s =
      .next { elapse dt s with hif := { s.hif with holdoff := false, irq := s.hif.irq || !s.hif.xspiQ.isEmpty } }) ∧
  (∀ dt tr (x : Session) s, Quiet s → (linkOf s tr).session = some x →
    x.last + getP s 0x0215 * 1000000 ≤ monoUs (elapse dt s) →
    exec (.sessionIdleExpiry dt tr) s =
      .next { setLink tr { linkOf s tr with session := none } (elapse dt s) with
        sec := { s.sec with
          slots := s.sec.slots.filter fun k => k.1 != sessionSlot tr && k.1 != sessionSlot tr + 1 } }) ∧
  (∀ dt r rest s, Quiet s → s.hif.uartQ = r :: rest → s.hif.baudPending = none →
    exec (.uartTransmitComplete dt) s =
      .next { elapse dt s with
        out := s.out ++ [.uart (stuff (replyBytes (elapse dt s) r))], hif := { s.hif with uartQ := rest } }) ∧
  (∀ dt r rest v (p : PendingValue) s, Quiet s → Canonical s = true → s.hif.uartQ = r :: rest → s.hif.baudPending = some (.uart, r.seq, v) →
    r.org.tr = .uart → pendingOf s 0x0214 = some p →
    ∃ c w, exec (.uartTransmitComplete dt) s =
        .next { elapse dt s with
          out := s.out ++ [.uart (stuff (replyBytes (elapse dt s) r))],
          hif := { s.hif with uartQ := rest, baud := p.value, baudPending := none }, cfg := c, cfgPending := w } ∧
      (∀ id, tableGet pdflt c id = if id = 0x0214 then p.value else getP s id) ∧ w.all (fun x => x.id != 0x0214) = true ∧
      (∀ id, id ≠ 0x0214 → w.find? (fun x => x.id == id) = s.cfgPending.find? (fun x => x.id == id))) ∧
  (∀ rc ∈ hostRows, ∀ dt q pl a s, Quiet s → Admitted rc.2 q pl a (elapse dt s) → logs rc.2 pl s = true →
    (∀ off, rc.2.eff (requestOf rc.2 q pl a) (received rc.2 q pl (elapse dt s)) ≠ .badParam off) →
    (∀ st b, rc.2.eff (requestOf rc.2 q pl a) (received rc.2 q pl (elapse dt s)) ≠ .reject st b) →
    exec (rc.1 dt q pl) s =
      .next (let p := envPkt rc.2.op q pl
        let u := received rc.2 q pl (elapse dt s)
        let tick := tickUs u + getP u 0x0125
        sendPair 4 (le 6 (tick / 1000000) ++ le 4 (tick % 1000000 * 1000) ++ p.bytes)
          (accept p a (.logged (requestOf rc.2 q pl a) tick) u))) ∧
  (∀ dt (c : Cmd) tag (q : Req) st reg body u s, Quiet s → s.sys.mode ≠ .shadow → dueLogged (elapse dt s) = [(tag, q)] →
    cmdOf q.hdr.opcode = some c → c.modeOk q.payload s = true →
    c.eff q (setWait tag .now (elapse dt s)) = .done st reg body u → Quiet u → u.pending = s.pending →
    exec (.loggedCommandEffect dt) s = .next (complete tag st reg body u))

/-! ### Resets, supplies and modes -/

/-- A main reset releases into BOOT: LAST_RESET shows its code, the blocks of the main domain stand at their reset values,
sessions and tags are gone, and the wrapped keys, the lifecycle, the always-on state, the axis positions retained, the forces
and block images, and the calendar stay (R87, R556, R557). RESET_N stops metering abruptly and holds the main domain in reset,
but HOLDUP and BACKUP go on; its release lets BOOT begin, or leads to HOLDUP while PFW is asserted (R547, R557). BACKUP is left
for BOOT (R48, R550), and the always-on domain restarts when a lost supply returns (R446, R556). Log entries 2, 40 and 56 say
what of it is the model's choice. -/
def Obligations.ResetsComplete : Prop :=
  (∀ dt banks c s, Quiet s → s.sys.resetPending = some c → s.sys.inReset = false → s.sys.mode ≠ .backup → s.sys.mode ≠ .holdup →
    ∃ t, exec (.mainReset dt banks) s = .next t ∧ t.sys.mode = .boot ∧ t.sys.inReset = false ∧ t.sys.resetPending = none ∧
      t.pwr.lastReset = c ∧ t.pwr.ioBanks = bankLevels banks ∧ t.pwr.flights = Vector.replicate 8 .off ∧ t.pwr.pllSysLock = false ∧
      t.pwr.pllDdrLock = false ∧ t.hif.tags = [] ∧ t.hif.up = false ∧ (∀ tr, (linkOf t tr).session = none) ∧
      (∀ tr, (linkOf t tr).epoch = 0 ∧ (linkOf t tr).unsync = true) ∧
      t.sec.slots = [] ∧ t.sec.records = s.sec.records ∧ t.sec.lifecycle = s.sec.lifecycle ∧ t.rtc = s.rtc ∧
      t.tamp.set_ = s.tamp.set_ ∧ t.tamp.sources = s.tamp.sources ∧ t.intg.ring = s.intg.ring ∧ t.pio = Pio.reset ∧
      t.mth = Mth.reset ∧ t.mel = Mel.reset ∧ t.eth = EthB.reset ∧ t.gal = Gallery.reset ∧ t.pair = Pair.reset ∧
      t.vax = { Vax.reset with retained := s.vax.retained } ∧
      t.ctrl = { Ctrl.reset with
        forces := s.ctrl.forces, flashA := s.ctrl.flashA, flashB := s.ctrl.flashB, selector := s.ctrl.selector } ∧
      t.clock.ptp = 0 ∧ t.clock.mono = 0 ∧ t.clock.real = (elapse dt s).clock.real) ∧
  (∀ dt s, Quiet s → s.sys.inReset = false → s.sys.mode ≠ .backup → s.sys.mode ≠ .holdup →
    ∃ t, exec (.resetN dt) s = .next t ∧ t.sys.mode = .boot ∧ t.sys.inReset = true ∧ t.pwr.lastReset = 2 ∧ t.pwr.resetNLow = true ∧
      t.hif.up = false ∧ t.pio = Pio.reset ∧ t.rtc = s.rtc ∧ t.pwr.ioBanks = s.pwr.ioBanks ∧
      (meteringMode s = true → t.bill.stop = some (tickStamp (elapse dt s), 3))) ∧
  (∀ dt s, Quiet s → (s.sys.inReset = true ∨ s.sys.mode = .backup ∨ s.sys.mode = .holdup) →
    exec (.resetN dt) s = .next { elapse dt s with pwr := { s.pwr with resetNLow := true } }) ∧
  (∀ dt banks s, Quiet s → s.sys.inReset = true → s.pwr.pfw = false →
    exec (.resetNRelease dt banks) s =
      .next { elapse dt s with
        sys := { s.sys with inReset := false }, pwr := { s.pwr with resetNLow := false, ioBanks := bankLevels banks } }) ∧
  (∀ dt banks s, Quiet s → s.sys.inReset = true → s.pwr.pfw = true →
    ∃ t, exec (.resetNRelease dt banks) s = .next t ∧ t.sys.mode = .holdup ∧ t.sys.cause = 3 ∧ t.sys.inReset = false ∧
      t.pwr.resetNLow = false ∧ t.pwr.holdups = s.pwr.holdups + 1) ∧
  (∀ dt banks s, Quiet s → s.sys.mode = .backup → s.pwr.resetNLow = false →
    ∃ t, exec (.backupExit dt banks) s = .next t ∧ t.sys.mode = .boot ∧ t.pwr.pfw = false ∧ t.pwr.ioBanks = bankLevels banks ∧
      t.pwr.lastReset = (if s.pwr.alwaysOnFresh then 0 else 1) ∧ t.hif.up = false ∧ t.rtc = s.rtc) ∧
  (∀ dt s, Quiet s →
    ∃ t, exec (.alwaysOnReset dt) s = .next t ∧ t.sys.mode = .backup ∧ t.sys.resetPending = none ∧ t.tamp = Tamp.reset ∧
      t.pwr.alwaysOnFresh = true ∧ t.rtc.cal = 0 ∧ t.rtc.lost = true ∧ t.intg.ring = [] ∧ t.vax.retained = none ∧
      t.sec = s.sec ∧ t.evr.log = s.evr.log ∧ t.cfg = s.cfg)

/-- PFW and an undervoltage, a rail that has stood below its threshold for longer than its filter, lead to HOLDUP from every
mode outside BACKUP: metering stops abruptly, commands that execute end, and with PFW the MRAM stays writable for a time (R44,
R544, R547, R548, R549). In HOLDUP an undervoltage closes the MRAM, as its time limit does; the end of HOLDUP is BACKUP. A main
PLL loses its lock, which is counted, and regains it; a loss that has lasted more than 100 µs is a fault with cause 7 of the
clock block (R540, R555). Flights 0 and 1 wake before a cut in REDUCED, and a flight that has woken is IDLE, its local memory
cleared to zero (R551, R552). The supplies and the die temperature are measured (R559, R560). Log entry 57 says what of it is
the model's choice. -/
def Obligations.HoldupAndSuppliesComplete : Prop :=
  (∀ dt s, Quiet s → mainRuns s = true → s.sys.mode ≠ .holdup →
    ∃ t, exec (.pfwAsserted dt) s = .next t ∧ t.sys.mode = .holdup ∧ t.sys.cause = 3 ∧ t.sys.prevMode = s.sys.mode.code ∧
      t.pwr.pfw = true ∧ t.pwr.mramOpen = true ∧ t.pwr.uvRails = 0 ∧ t.pwr.holdups = s.pwr.holdups + 1 ∧ t.mth.running = false ∧
      executing t = [] ∧ t.epd.running = [] ∧ t.sys.trans = none ∧
      (meteringMode s = true → t.bill.stop = some (tickStamp (elapse dt s), 1))) ∧
  (∀ dt s, Quiet s → (mainRuns s = false ∨ s.sys.mode = .holdup) →
    exec (.pfwAsserted dt) s = .next { elapse dt s with pwr := { s.pwr with pfw := true } }) ∧
  (∀ dt rail mv ns s, Quiet s → mainRuns s = true → s.sys.mode ≠ .holdup → (rail = .soc → socEn s = true) →
    uvSeen s rail mv ns = true →
    ∃ t, exec (.undervoltage dt ⟨rail, mv, ns⟩) s = .next t ∧ t.sys.mode = .holdup ∧ t.sys.cause = (if s.pwr.pfw then 3 else 4) ∧
      t.pwr.uvRails = 2 ^ railNum rail ∧ t.pwr.undervoltages = s.pwr.undervoltages + 1 ∧ t.pwr.mramOpen = false ∧
      t.bill.saving = none ∧ executing t = []) ∧
  (∀ dt rail mv ns s, Quiet s → (uvSeen s rail mv ns = false ∨ (rail = .soc ∧ socEn s = false)) →
    exec (.undervoltage dt ⟨rail, mv, ns⟩) s = .next (elapse dt s)) ∧
  (∀ dt rail mv ns s, Quiet s → s.sys.inReset = false → s.sys.mode = .holdup → (rail = .soc → socEn s = true) →
    uvSeen s rail mv ns = true →
    ∃ t, exec (.undervoltage dt ⟨rail, mv, ns⟩) s = .next t ∧
      t.pwr = { s.pwr with
        uvRails := Nat.lor s.pwr.uvRails (2 ^ railNum rail), undervoltages := s.pwr.undervoltages + 1, mramOpen := false } ∧
      t.bill.saving = none ∧ t.sys = s.sys ∧ t.evr = s.evr) ∧
  (∀ dt s, Quiet s → s.sys.mode = .holdup →
    ∃ t, exec (.mramWritePathClose dt) s = .next t ∧ t.pwr = { s.pwr with mramOpen := false } ∧ t.bill.saving = none ∧
      t.sys = s.sys ∧ t.evr = s.evr ∧ t.rtc = s.rtc) ∧
  (∀ dt s, Quiet s → s.sys.mode = .holdup →
    ∃ t, exec (.holdupEnd dt) s = .next t ∧ t.sys.mode = .backup ∧ t.sys.prevMode = Mode.holdup.code ∧
      t.sys.modeChanges = s.sys.modeChanges + 1 ∧ t.hif.up = false ∧ t.hif.tags = [] ∧ t.pwr.mramOpen = false ∧ t.rtc = s.rtc ∧
      t.bill.regs = s.bill.regs) ∧
  (∀ dt s, Quiet s → mainRuns s = true → s.pwr.pllSysLock = true →
    exec (.pllLockLoss dt 0) s =
      .next { elapse dt s with pwr := { s.pwr with
        pllSysLock := false, pllLosses := s.pwr.pllLosses + 1, pllLost := s.pwr.pllLost.set 0 (some (monoUs (elapse dt s))) } }) ∧
  (∀ dt s, Quiet s → mainRuns s = true → s.pwr.pllDdrLock = true →
    exec (.pllLockLoss dt 1) s =
      .next { elapse dt s with pwr := { s.pwr with
        pllDdrLock := false, pllLosses := s.pwr.pllLosses + 1, pllLost := s.pwr.pllLost.set 1 (some (monoUs (elapse dt s))) } }) ∧
  (∀ dt s, Quiet s → mainRuns s = true →
    exec (.pllLockRegained dt 0) s = .next { elapse dt s with pwr := { s.pwr with pllSysLock := true, pllLost := s.pwr.pllLost.set 0 none } } ∧
    exec (.pllLockRegained dt 1) s = .next { elapse dt s with pwr := { s.pwr with pllDdrLock := true, pllLost := s.pwr.pllLost.set 1 none } }) ∧
  (∀ dt (n : Fin 2) since s, Quiet s → tickGoesOn s.pending = false → mainRuns s = true → s.sys.mode ≠ .holdup →
    s.sys.mode ≠ .fault → pllLock s n.val = false → s.pwr.pllLost[n] = some since → since + 100 < monoUs (elapse dt s) →
    ∃ t, exec (.pllLockTimeout dt n) s = .next t ∧ t.sys.mode = .fault ∧ t.sys.cause = 6 ∧ t.sys.prevMode = s.sys.mode.code ∧
      (t.intg.ring.head?.map fun r => (r.cause, r.block, r.mode)) = some (7, 0x14, s.sys.mode.code) ∧
      t.pwr.flights = Vector.replicate 8 .off ∧ t.intg.faultCount = s.intg.faultCount + 1) ∧
  (∀ dt s, Quiet s → s.sys.mode = .reduced → s.sys.inReset = false →
    exec (.flightWake dt) s =
      .next { elapse dt s with pwr := { s.pwr with
        flights := Vector.ofFn fun i => if i.val ≤ 1 ∧ s.pwr.flights[i] = .off then .waking else s.pwr.flights[i] } }) ∧
  (∀ dt (n : Fin 8) s, Quiet s → mainRuns s = true → s.pwr.flights[n] = .waking →
    exec (.flightWakeEnd dt n) s =
      .next { elapse dt s with
        pwr := { s.pwr with flights := s.pwr.flights.set n .idle },
        solv := { s.solv with locals := s.solv.locals.set n Region.zero },
        intg := { s.intg with marked := s.intg.marked.filter fun x =>
          !(x.1 == 2 && decide ((0x01000000 + n.val * 0x100000) / 8 ≤ x.2) &&
            decide (x.2 < (0x01100000 + n.val * 0x100000) / 8)) } }) ∧
  (∀ dt core soc ana vbat temp s, Quiet s → mainRuns s = true →
    exec (.supplyMeasurement dt core soc ana vbat temp) s =
      .next { elapse dt s with pwr := { s.pwr with
        vddCore := core, vddSoc := soc, vddAna := ana, vbat := vbat, dieTemp := temp, vbatLow := decide (vbat.toNat < 2200) } })

/-- The host interface starts in BOOT (R52). BOOT ends in the mode of BOOT_MODE in ENROLLED and SEALED, in LOCKDOWN with a
tamper latch that is set, and in FAULT where a self-test failed (R54, R516, R540). A host's transition ends in its target, and
its request is answered OK (R44, R49). Log entries 92 and 94 say what of it is the model's choice. -/
def Obligations.BootAndTransitionsComplete : Prop :=
  (∀ dt s, Quiet s → s.sys.mode = .boot → s.sys.inReset = false →
    exec (.hostInterfaceStart dt) s = .next { elapse dt s with hif := { s.hif with up := true } }) ∧
  (∀ dt (x : BootReport) (m : Mode) s, Quiet s → s.sys.mode = .boot → s.sys.inReset = false → s.pair.listening = none →
    s.tamp.set_ = false → imageFault s x.badFlash.toNat = none → x.fault = none →
    (s.sec.lifecycle = .enrolled ∨ s.sec.lifecycle = .sealed) → getP s 0x0111 = m.code → (paired s = false ∨ m ≠ .run) →
    ∃ t, exec (.bootEnd dt x) s = .next t ∧ t.sys.mode = m ∧ t.sys.cause = 0x0A ∧ t.sys.prevMode = Mode.boot.code ∧
      t.hif.up = true ∧ t.pwr.pllSysLock = true ∧ t.pwr.pllDdrLock = true ∧ t.pio.hiZ = false) ∧
  (∀ dt (x : BootReport) s, Quiet s → s.sys.mode = .boot → s.sys.inReset = false → s.pair.listening = none →
    s.tamp.set_ = true → imageFault s x.badFlash.toNat = none → x.fault = none →
    ∃ t, exec (.bootEnd dt x) s = .next t ∧ t.sys.mode = .lockdown ∧ t.sys.cause = 5 ∧ t.sec.slots = s.sec.slots) ∧
  (∀ dt (x : BootReport) (e : Byte) s, Quiet s → s.sys.mode = .boot → s.sys.inReset = false → s.pair.listening = none →
    imageFault s x.badFlash.toNat = none → x.fault = some (.selfTest e) →
    ∃ t, exec (.bootEnd dt x) s = .next t ∧ t.sys.mode = .fault ∧ t.sys.cause = 6 ∧
      (t.intg.ring.head?.map fun r => (r.cause, r.block, r.detail)) = some (0x26, 0x01, [e])) ∧
  (∀ dt (x : Transition) s, Quiet s → tickGoesOn s.pending = false → s.sys.trans = some x → x.atCut = false →
    namable x.target = true → triggerActs s (x.target, x.cause) = true →
    ∃ t, exec (.modeTransitionEnd dt) s = .next t ∧ t.sys.mode = x.target ∧ t.sys.cause = x.cause ∧ t.sys.trans = none ∧
      t.sys.prevMode = s.sys.mode.code ∧ t.sys.modeChanges = s.sys.modeChanges + 1 ∧
      (∀ tag e, s.hif.tags = [(tag, .executing e)] → e.wait = .modeEnd → ∃ h, tagOf t tag = some (.held h) ∧ h.status = stOK))

/-! ### Cuts, rounds, models and jobs -/

/-- At a cut the reports are frozen as they stood before its tick, the metrology pages are published and stand in the new cut
vector, which opens with the round and the instant of the cut, the one before it is kept, and a second has one cut until the
clock is stepped (R28, R179, R237, R238). The seal copies the frozen slots in and completes the vector (R238). A one-second
round that a stalled core has not published 1 ms after its deadline is published in its place as STALE or NO_SOLUTION (R210),
and an optimisation round without an iterate that still waits at its job deadline ends so (R207, R208). Log entry 93 says what
of it is the model's choice. -/
def Obligations.CutsAndRoundsComplete : Prop :=
  (∀ dt s, Quiet s → mainRuns s = true → s.sys.mode ≠ .boot → s.sys.mode ≠ .holdup → s.sys.mode ≠ .shadow →
    s.subl.lastCut ≠ some (s.time.steps.toNat, ptpSec (elapse dt s)) → ptpSec (elapse dt s) % estPeriod s = 0 → s.nmod.roundPend = [] →
    s.subl.ops = [] →
    ∃ t, exec (.cut dt) s = .next t ∧ t.subl.lastCut = some (s.time.steps.toNat, ptpSec (elapse dt s)) ∧
      t.subl.entries = s.subl.entries.map (fun x => { x with frozen := x.filed.start (elapse dt s) }) ∧
      t.subl.prevCut = s.subl.cut ∧ t.subl.cut.thermal = t.mth.page0.now ∧ t.subl.cut.electrical = t.mel.page2.now ∧
      t.subl.cut.round = ptpSec (elapse dt s) / estPeriod s ∧ t.subl.cut.at_ = ⟨ptpSec (elapse dt s), 0⟩ ∧
      t.subl.cut.complete = false ∧ (s.mth.running = true → t.mth.seq0 = s.mth.seq0 + 1)) ∧
  (∀ dt s, Quiet s → s.subl.lastCut = some (s.time.steps.toNat, ptpSec (elapse dt s)) → exec (.cut dt) s = .next (elapse dt s)) ∧
  (∀ dt s, Quiet s → mainRuns s = true → s.sys.mode ≠ .shadow → s.subl.cut.complete = false → s.subl.cut.pio ≠ [] →
    ∃ t, exec (.cutVectorSeal dt) s = .next t ∧
      t.subl = { s.subl with
        sealedUs := monoUs (elapse dt s),
        cut := { s.subl.cut with
          complete := true, subl := s.subl.entries.map fun x => (x.index, cutEntry (getP s 0x0514) s.subl.cut.at_ x) } }) ∧
  (∀ dt (r : EstRun) s, Quiet s → s.nmod.est = some r → s.nmod.opt = none → passed (elapse dt s) (r.deadline + 999999) = true →
    ∃ t, exec (.coreStall dt) s = .next t ∧ t.nmod.est = none ∧ t.nmod.stalls = s.nmod.stalls + 1 ∧
      (t.nmod.estResults.head?.map fun x => (x.status, x.flags, x.round)) =
        some (if s.nmod.estGood.isSome then stStale else stNoSolution, if s.nmod.fresh then 576 else 64, r.round)) ∧
  (∀ dt (m : Mizon) (r : OptRun) s, Quiet s → s.nmod.active = some m → s.nmod.opt = some r → r.phase = .waiting → r.best = none →
    passed (elapse dt s) r.jobDeadline = true →
    ∃ t, exec (.optimisationWaitExpiry dt) s = .next t ∧ t.nmod.opt = none ∧
      (t.nmod.optResults.head?.map fun x => (x.start, x.status)) =
        some (r.start, if s.nmod.traj.now.isSome && s.nmod.estGood.isSome then stStale else stNoSolution))

/-- The validation of a received image ends with STAGE 3 and the model staged, or STAGE 4 with the code of the rule that fails
(R125, R126). The working form of a model is built and waits for the cut (R127), and the write of the active image names its
slot (R131). Log entry 39 says what of it is the model's choice. -/
def Obligations.ModelEventsComplete : Prop :=
  (∀ dt s, Quiet s → s.nmod.stage.code = 2 →
    ∃ t, exec (.modelValidationComplete dt) s = .next t ∧
      t.nmod.stage.code = (if (mzValidate s.nmod.stage.received).1 = 0 then 3 else 4) ∧
      t.nmod.stage.validation = (mzValidate s.nmod.stage.received).1 ∧
      t.nmod.staged = (if (mzValidate s.nmod.stage.received).1 = 0 then some (mzParse s.nmod.stage.received) else none) ∧
      t.nmod.active = s.nmod.active ∧ t.nmod.flashA = s.nmod.flashA ∧ t.nmod.flashB = s.nmod.flashB) ∧
  (∀ dt s, Quiet s → s.nmod.stage.code = 5 →
    exec (.modelBuildComplete dt) s = .next { elapse dt s with nmod := { s.nmod with built := true } }) ∧
  (∀ dt (m : Mizon) s, Quiet s → s.nmod.flashWrite = true → s.nmod.active = some m → s.nmod.selector = false →
    exec (.modelFlashWrite dt) s =
      .next { elapse dt s with nmod := { s.nmod with flashB := some m.raw, selector := true, flashWrite := false } }) ∧
  (∀ dt (m : Mizon) s, Quiet s → s.nmod.flashWrite = true → s.nmod.active = some m → s.nmod.selector = true →
    exec (.modelFlashWrite dt) s =
      .next { elapse dt s with nmod := { s.nmod with flashA := some m.raw, selector := false, flashWrite := false } })

/-- A job starts once all flights of its mask are free: it leaves its queue, they are ACTIVE and their reads begin (R141, R146,
R170). A host job that ends OK commits its outputs, its record is counted and its command answered OK (R144, R174); one that a
fault stops commits nothing, though its workspace is left undefined, and ends with INTERNAL, and one stopped at its deadline
with DEADLINE_MISS (R143, R167, R168, R177). A Gallery target that does not respond is counted and answered with a timeout,
whose response returns the tag (R21); one of class P0 is a fault with cause 8 (R540). A promotion is counted, and the first P3
request that has waited 10 µs is promoted (R18); a write that the Balustrade discards is counted, recorded and answered with an
error (R24); the late response of an abandoned read is counted and returns its tag (R168). Log entry 43 says what of it is the
model's choice. -/
def Obligations.JobsAndGalleryComplete : Prop :=
  (∀ dt (j : HJob) rest s, Quiet s → s.solv.hrun = none → s.solv.queue = j :: rest → flightsFree s j.mask = true →
    nmodReady s = false → passed (elapse dt s) j.deadline = false →
    exec (.jobStart dt true) s =
      .next (startReads j.mask { elapse dt s with
        solv := { s.solv with queue := rest, hrun := some j },
        pwr := { s.pwr with flights := Vector.ofFn fun i => if bit j.mask i.val then .active else s.pwr.flights[i] } })) ∧
  (∀ dt (j : NJob) rest s, Quiet s → s.solv.nrun = none → s.solv.ring = j :: rest → flightsFree s j.mask = true →
    passed (elapse dt s) j.deadline = false →
    exec (.jobStart dt false) s =
      .next (startReads j.mask (reloadWork j.mask { elapse dt s with
        solv := { s.solv with ring := rest, nrun := some j },
        pwr := { s.pwr with flights := Vector.ofFn fun i => if bit j.mask i.val then .active else s.pwr.flights[i] } }))) ∧
  (∀ dt (j : HJob) (o : JobOut) s, Quiet s → s.solv.hrun = some j → runJob (elapse dt s) j.desc = .ok o →
    passed (elapse dt s) j.deadline = false →
    ∃ t, exec (.jobCompletion dt true none) s = .next t ∧ t.solv.hrun = none ∧ t.solv.completed = s.solv.completed + 1 ∧
      (let u := o.writes.foldl jobWrite (spoilWorkspace j.desc (elapse dt s))
       t.solv.test = u.solv.test ∧ t.solv.locals = u.solv.locals ∧ t.solv.work = u.solv.work ∧ t.solv.ddr = u.solv.ddr) ∧
      t.nmod = s.nmod ∧ (∀ e, tagOf s j.tag = some (.executing e) → ∃ h, tagOf t j.tag = some (.held h) ∧ h.status = stOK)) ∧
  (∀ dt (j : HJob) (x : JobStop) (f : JobFault) s, Quiet s → s.solv.hrun = some j → x.fault = some f →
    ∃ t, exec (.jobCompletion dt true (some x)) s = .next t ∧ t.solv.hrun = none ∧ t.solv.internal = s.solv.internal + 1 ∧
      (let u := spoilWorkspace j.desc (elapse dt s)
       t.solv.test = u.solv.test ∧ t.solv.locals = u.solv.locals ∧ t.solv.work = u.solv.work ∧ t.solv.ddr = u.solv.ddr) ∧
      t.nmod = s.nmod ∧
      (∀ e, tagOf s j.tag = some (.executing e) → ∃ h, tagOf t j.tag = some (.held h) ∧ h.status = stInternal)) ∧
  (∀ dt (j : HJob) (x : JobStop) s, Quiet s → s.solv.hrun = some j → x.fault = none → x.numeric = false →
    passed (elapse dt s) j.deadline = true →
    ∃ t, exec (.jobDeadlineMiss dt true x) s = .next t ∧ t.solv.hrun = none ∧ t.solv.misses = s.solv.misses + 1 ∧
      (let u := spoilWorkspace j.desc (elapse dt s)
       t.solv.test = u.solv.test ∧ t.solv.locals = u.solv.locals ∧ t.solv.work = u.solv.work ∧ t.solv.ddr = u.solv.ddr) ∧
      t.nmod = s.nmod ∧
      (∀ e, tagOf s j.tag = some (.executing e) → ∃ h, tagOf t j.tag = some (.held h) ∧ h.status = stDeadlineMiss)) ∧
  (∀ dt (target initiator : Byte) (addr : W32) s, Quiet s → mainRuns s = true → Canonical s = true →
    ∃ t, exec (.galleryTimeout dt target initiator addr false) s = .next t ∧ t.out = s.out ++ [.gallery target.toNat 1] ∧
      tableGet (fun _ => 0) t.intg.timeouts target.toNat = (tableGet (fun _ => 0) s.intg.timeouts target.toNat + 1) % 2 ^ 32 ∧
      (∀ k, k ≠ target.toNat → tableGet (fun _ => 0) t.intg.timeouts k = tableGet (fun _ => 0) s.intg.timeouts k) ∧
      t.gal = respondFirst (fun b => b.src == initiator.toNat && b.port.target == target.toNat && !b.abandoned) s.gal ∧ t.sys = s.sys ∧ t.hif = s.hif) ∧
  (∀ dt (target initiator : Byte) (addr : W32) s, Quiet s → tickGoesOn s.pending = false → mainRuns s = true → s.sys.mode ≠ .holdup →
    s.sys.mode ≠ .fault →
    ∃ t, exec (.galleryTimeout dt target initiator addr true) s = .next t ∧ t.sys.mode = .fault ∧ t.sys.cause = 6 ∧
      (t.intg.ring.head?.map fun r => (r.cause, r.block, r.detail)) =
        some (8, target.toNat, [target, initiator] ++ le 4 addr.toNat)) ∧
  (∀ dt s, Quiet s → mainRuns s = true →
    exec (.galleryPromotion dt) s = 
      .next { elapse dt s with
        intg := { s.intg with promotions := s.intg.promotions + 1 }, gal := promoteFirst (monoUs (elapse dt s)) s.gal }) ∧
  (∀ dt s, Quiet s → mainRuns s = true →
    exec (.balustradeWrite dt) s =
      .next (post 0x0905 0 [] 0
        { elapse dt s with
          intg := { s.intg with balustrade := s.intg.balustrade + 1 }, out := s.out ++ [.gallery 0x09 3] })) ∧
  (∀ dt s, Quiet s →
    exec (.abandonedReadResponse dt) s =
      .next { elapse dt s with
        solv := { s.solv with abandoned := s.solv.abandoned + 1 }, gal := respondFirst (·.abandoned) s.gal,
        out := s.out ++ [.gallery 3 2] })

/-! ### The substation link -/

/-- A report for a registered substation is buffered, one for no entry is foreign, one that finds the buffer full is counted and
not buffered, and a datagram that is not for the Concourse is dropped (R220, R231, R234). The report at the head of the buffer
is classified: one that fails authentication is counted, one that passes every step is accepted, marks the replay window, and is
filed if it is later (R231, R232, R233). Nothing but the link changes. A setpoint of a round that published one goes to a
substation that has reported, from SUBL_PORT on SUBL_VLAN, under the next ordering value, and is outstanding; a round with
NO_SOLUTION sends none, and no mode but RUN, REDUCED, FALLBACK and SERVICE (R220, R239, R240, R242). Its confirmation in time
clears it and counts, a late one is only counted and marked in the window (R241, R242); it expires after CONFIRM_TIMEOUT (R242).
The highest EPOCH used is saved (R240). -/
def Obligations.SubstationLinkComplete : Prop :=
  (∀ dt (f : UdpFrag) x s, Quiet s → sublRuns s = true → forConcourse s f = true → sublEntry s (fld f.data 2 2) = some x →
    16 ≤ f.data.length → fld f.data 1 1 ≠ 4 → s.subl.buffer.length < 4096 →
    exec (.reportArrival dt f.srcIp f.srcPort f.toUdpRest) s =
      .next { elapse dt s with subl := { s.subl with
        buffer := s.subl.buffer ++ [sublMsg f.srcIp.toNat f.srcPort.toNat f.data (elapse dt s)],
        peak := max s.subl.peak (s.subl.buffer.length + 1) } }) ∧
  (∀ dt (f : UdpFrag) s, Quiet s → forConcourse s f = false → exec (.reportArrival dt f.srcIp f.srcPort f.toUdpRest) s = .next (elapse dt s)) ∧
  (∀ dt (f : UdpFrag) s, Quiet s → sublRuns s = true → forConcourse s f = true →
    (sublEntry s (fld f.data 2 2) = none ∨ f.data.length < 16) →
    exec (.reportArrival dt f.srcIp f.srcPort f.toUdpRest) s =
      .next { elapse dt s with subl := { s.subl with foreign := s.subl.foreign + 1 } }) ∧
  (∀ dt (f : UdpFrag) x s, Quiet s → sublRuns s = true → forConcourse s f = true → sublEntry s (fld f.data 2 2) = some x →
    16 ≤ f.data.length → fld f.data 1 1 ≠ 4 → 4096 ≤ s.subl.buffer.length →
    ∃ t, exec (.reportArrival dt f.srcIp f.srcPort f.toUdpRest) s = .next t ∧ t.subl.buffer = s.subl.buffer ∧
      t.subl.totals = s.subl.totals.add .full ∧ (sublEntry t x.index).map (·.counts) = some (x.counts.add .full) ∧
      t.nmod = s.nmod ∧ t.sys = s.sys) ∧
  (∀ dt x m rest s, Quiet s → sublRuns s = true → s.subl.buffer = m :: rest → sublEntry s (fld m.data 2 2) = some x →
    sublOpen s x 1 96 m = none →
    exec (.reportClassification dt) s =
      .next { elapse dt s with subl := { s.subl with
        buffer := rest, totals := s.subl.totals.add .auth,
        entries := s.subl.entries.map fun y => if y.index = x.index then { y with counts := y.counts.add .auth } else y } }) ∧
  (∀ dt x m rest body s, Quiet s → sublRuns s = true → s.subl.buffer = m :: rest → sublEntry s (fld m.data 2 2) = some x →
    sublOpen s x 1 96 m = some body → windowCheck x (fld m.data 4 1) (orderOf m.data) = none →
    measStale s ⟨fld body 0 6, fld body 8 4⟩ m.at_ = false →
    exec (.reportClassification dt) s =
      .next { elapse dt s with subl := { s.subl with
        buffer := rest, totals := s.subl.totals.add .accepted,
        entries := s.subl.entries.map fun y =>
          if y.index = x.index then
            { windowAccept (fld m.data 4 1) (orderOf m.data) { y with counts := y.counts.add .accepted } with
              addr := some (m.ip, m.port),
              filed := fileSlot (elapse dt s) ⟨⟨fld body 0 6, fld body 8 4⟩, orderOf m.data, body⟩ y.filed }
          else y } }) ∧
  (∀ s (f : Filed) (p : Paged (Option Filed)), (fileSlot s f p).now =
    match p.now with
    | none => some f
    | some old =>
      some (if old.meas.total < f.meas.total ∨ (old.meas.total = f.meas.total ∧ old.order < f.order) then f else old)) ∧
  (∀ dt x ip port k s, Quiet s → s.nmod.staging.fresh = true → s.nmod.staging.status ≠ stNoSolution → setpointModes s = true →
    s.subl.entries = [x] → x.addr = some (ip, port) → kDown s x.index x.gen = some k →
    x.nextSeq ≤ 0x7FFFFFFF → x.outstanding = none →
    ∃ t m y, exec (.setpointIssue dt) s = .next t ∧ t.out = s.out ++ udpFrames .subl (getP s 0x0511) (getP s 0x0510) (some ip) port m ∧ t.nmod.staging.fresh = false ∧
      t.subl.setTotals = { s.subl.setTotals with issued := s.subl.setTotals.issued + 1 } ∧ t.subl.entries = [y] ∧
      y.outstanding = some (s.nmod.staging.round, monoUs (elapse dt s)) ∧ y.epoch = epochNow (elapse dt s) ∧
      y.nextSeq = (if x.epoch = epochNow (elapse dt s) then x.nextSeq else 0) + 1 ∧ y.counts = x.counts ∧
      t.subl.epochHigh = epochNow (elapse dt s)) ∧
  (∀ dt s, Quiet s → setpointModes s = false → exec (.setpointIssue dt) s = .next (elapse dt s)) ∧
  (∀ dt s, Quiet s → s.nmod.staging.fresh = true → s.nmod.staging.status = stNoSolution → setpointModes s = true →
    exec (.setpointIssue dt) s =
      .next { elapse dt s with nmod := { s.nmod with staging := { s.nmod.staging with fresh := false } } }) ∧
  (∀ dt (f : UdpFrag) x body round at_ s, Quiet s → sublRuns s = true → forConcourse s f = true →
    sublEntry s (fld f.data 2 2) = some x → 16 ≤ f.data.length → fld f.data 1 1 = 4 →
    sublOpen s x 4 16 (sublMsg f.srcIp.toNat f.srcPort.toNat f.data (elapse dt s)) = some body →
    windowCheck x (fld f.data 4 1) (orderOf f.data) = none → x.outstanding = some (round, at_) → fld body 0 8 = round →
    monoUs (elapse dt s) ≤ at_ + getP s 0x0515 * 1000 →
    exec (.setpointConfirm dt f.srcIp f.srcPort f.toUdpRest) s =
      .next { elapse dt s with subl := { s.subl with
        setTotals := { s.subl.setTotals with confirmed := s.subl.setTotals.confirmed + 1 },
        entries := s.subl.entries.map fun y =>
          if y.index = x.index then
            { windowAccept (fld f.data 4 1) (orderOf f.data) y with
              outstanding := none, lastResult := fld body 8 2, sets := { y.sets with confirmed := y.sets.confirmed + 1 } }
          else y } }) ∧
  (∀ dt (f : UdpFrag) x body s, Quiet s → sublRuns s = true → forConcourse s f = true →
    sublEntry s (fld f.data 2 2) = some x → 16 ≤ f.data.length → fld f.data 1 1 = 4 →
    sublOpen s x 4 16 (sublMsg f.srcIp.toNat f.srcPort.toNat f.data (elapse dt s)) = some body →
    windowCheck x (fld f.data 4 1) (orderOf f.data) = none →
    (∀ y ∈ x.outstanding, y.1 ≠ fld body 0 8 ∨ y.2 + getP s 0x0515 * 1000 < monoUs (elapse dt s)) →
    exec (.setpointConfirm dt f.srcIp f.srcPort f.toUdpRest) s =
      .next { elapse dt s with subl := { s.subl with
        setTotals := { s.subl.setTotals with late := s.subl.setTotals.late + 1 },
        entries := s.subl.entries.map fun y =>
          if y.index = x.index then
            { windowAccept (fld f.data 4 1) (orderOf f.data) y with sets := { y.sets with late := y.sets.late + 1 } }
          else y } }) ∧
  (∀ dt (index : W16) x round at_ s, Quiet s → sublEntry s index.toNat = some x → x.outstanding = some (round, at_) →
    at_ + getP s 0x0515 * 1000 < monoUs (elapse dt s) →
    exec (.confirmTimeoutExpiry dt index) s =
      .next { elapse dt s with subl := { s.subl with
        setTotals := { s.subl.setTotals with expired := s.subl.setTotals.expired + 1 },
        entries := s.subl.entries.map fun y =>
          if y.index = index.toNat then
            { y with outstanding := none, sets := { y.sets with expired := y.sets.expired + 1 } }
          else y } }) ∧
  (∀ dt s, Quiet s → sublRuns s = true → s.subl.epochHigh ≠ 0xFFFFFFFF →
    exec (.downlinkStateSave dt) s = .next { elapse dt s with subl := { s.subl with epochSaved := s.subl.epochHigh } })

/-! ### Control instructions -/

/-- A register other than g0 holds what was last written to it, and g0 reads as 0 whatever is written (R274). -/
def Obligations.RegistersHoldAndZeroReadsZero : Prop :=
  ∀ (r : Run) (n m : Fin 16) (v : W64),
    (r.set n v).get m = (if n = m ∧ n ≠ 0 then v else r.get m) ∧ r.get 0 = 0 ∧ (r.set 0 v) = r ∧ (r.set n v).pc = r.pc ∧
      (r.set n v).links = r.links ∧ (r.set n v).journal = r.journal

/-- Division (R275): the quotient and remainder of FN 3 to 6 satisfy x = q · y + r, a division by zero gives quotient 0 and the
dividend as remainder and marks DIV0, and shift amounts count modulo 64. -/
def Obligations.DivisionsAndShifts : Prop :=
  (∀ x y : W64, y ≠ 0 →
    ∃ q r, aluOp 3 x y = some (q, false) ∧ aluOp 5 x y = some (r, false) ∧ q * y + r = x) ∧
  (∀ x y : W64, y ≠ 0 →
    ∃ q r, aluOp 4 x y = some (q, false) ∧ aluOp 6 x y = some (r, false) ∧ q * y + r = x ∧ r.ult y = true) ∧
  (∀ x : W64, aluOp 3 x 0 = some (0, true) ∧ aluOp 4 x 0 = some (0, true) ∧ aluOp 5 x 0 = some (x, true) ∧
    aluOp 6 x 0 = some (x, true)) ∧
  (∀ x y : W64, aluOp 10 x y = aluOp 10 x (y &&& 63) ∧ aluOp 11 x y = aluOp 11 x (y &&& 63) ∧
    aluOp 12 x y = aluOp 12 x (y &&& 63))

/-- Register instructions write D, move the pc on and change nothing else: ALU (with DIV0 set by a division by zero), FPU, ADDI with
a sign-extended immediate, ANDI, ORI and XORI with a zero-extended one, LUI, and SYS with the time, the release instant or the
identity of the task (R274, R275). -/
def Obligations.RegisterInstructionsComplete : Prop :=
  (∀ dt (e : Fin 2) (d a b : Fin 16) (fn : BitVec 14) r below v z s, Stands dt e (encR 0 d.val a.val b.val fn.toNat) r below s → InCode (r.pc + 4) →
    aluOp fn.toNat (r.get a) (r.get b) = some (v, z) →
    exec (.alu dt e d a b fn) s =
      .next (ran dt e { (r.set d v) with pc := r.pc + 4, div0 := r.div0 || z } below (started dt e s).data s)) ∧
  (∀ dt (e : Fin 2) (d a b : Fin 16) (fn : BitVec 14) r below v s, Stands dt e (encR 1 d.val a.val b.val fn.toNat) r below s → InCode (r.pc + 4) →
    fpuOp fn.toNat (r.get d) (r.get a) (r.get b) = some v →
    exec (.fpu dt e d a b fn) s = .next (ran dt e { (r.set d v) with pc := r.pc + 4 } below (started dt e s).data s)) ∧
  (∀ dt (e : Fin 2) (d a : Fin 16) (imm : BitVec 18) r below s, Stands dt e (encI 2 d.val a.val imm.toNat) r below s → InCode (r.pc + 4) →
    exec (.addi dt e d a imm) s =
      .next (ran dt e { (r.set d (r.get a + imm.signExtend 64)) with pc := r.pc + 4 } below (started dt e s).data s)) ∧
  (∀ dt (e : Fin 2) (kind : Fin 3) (d a : Fin 16) (imm : BitVec 18) r below s, Stands dt e (encI (3 + kind.val) d.val a.val imm.toNat) r below s → InCode (r.pc + 4) →
    exec (.andiOriXori dt e kind d a imm) s =
      .next (ran dt e
        { (r.set d (if kind = 0 then r.get a &&& imm.setWidth 64 else if kind = 1 then r.get a ||| imm.setWidth 64
            else r.get a ^^^ imm.setWidth 64)) with pc := r.pc + 4 } below (started dt e s).data s)) ∧
  (∀ dt (e : Fin 2) (d : Fin 16) (imm : BitVec 18) r below s, Stands dt e (encI 6 d.val 0 imm.toNat) r below s → InCode (r.pc + 4) →
    exec (.lui dt e d 0 imm) s =
      .next (ran dt e { (r.set d (imm.signExtend 64 <<< 18)) with pc := r.pc + 4 } below (started dt e s).data s)) ∧
  (∀ dt (e : Fin 2) (d a b : Fin 16) (fn : BitVec 14) r below s, Stands dt e (encR 0x20 d.val a.val b.val fn.toNat) r below s → InCode (r.pc + 4) →
    fn.toNat ≤ 2 →
    exec (.sys dt e d a b fn) s =
      .next (ran dt e
        { (r.set d (BitVec.ofNat 64 (if fn = 0 then monoUs (elapse dt s) else if fn = 1 then r.release
            else e.val * 16 + r.task))) with pc := r.pc + 4 } below (started dt e s).data s))

/-- A load writes D with the bytes at A + IMM, extended as its kind says (R275). A store replaces exactly its bytes in the data
TCM and journals what stood there while the journal has room; beyond it the execution is marked OVERFLOWED (R247). Log entries
20 and 80 say what of it is the model's choice. -/
def Obligations.LoadsAndStoresComplete : Prop :=
  (∀ dt (e : Fin 2) (kind : Fin 7) (d a : Fin 16) (imm : BitVec 18) r below s, Stands dt e (encI (8 + kind.val) d.val a.val imm.toNat) r below s → InCode (r.pc + 4) →
    accessFault false (effAddr r a imm) (loadShape kind.val).1 = none → (5, tcmWord e (effAddr r a imm)) ∉ s.intg.marked →
    exec (.loadInstruction dt e kind d a imm .none) s =
      .next (ran dt e
        { (r.set d (loadValue (started dt e s).data (started dt e s).code (effAddr r a imm) (loadShape kind.val).1
            (loadShape kind.val).2)) with pc := r.pc + 4 } below (started dt e s).data s)) ∧
  (∀ dt (e : Fin 2) (kind : Fin 4) (d a : Fin 16) (imm : BitVec 18) r below s, Stands dt e (encI (0x10 + kind.val) d.val a.val imm.toNat) r below s →
    InCode (r.pc + 4) → accessFault true (effAddr r a imm) (2 ^ kind.val) = none → journalUsed below + r.journal.length < 2048 →
    ∃ t m, exec (.storeInstruction dt e kind d a imm) s = .next t ∧
      t = { ran dt e
              { r with
                pc := r.pc + 4,
                journal := ⟨effAddr r a imm, Memory.reads (started dt e s).data (effAddr r a imm) (2 ^ kind.val)⟩ :: r.journal }
              below (Memory.writes (started dt e s).data (effAddr r a imm) (le (2 ^ kind.val) (r.get d).toNat)) s with
            intg := { s.intg with marked := m } }) ∧
  (∀ dt (e : Fin 2) (kind : Fin 4) (d a : Fin 16) (imm : BitVec 18) r below s, Stands dt e (encI (0x10 + kind.val) d.val a.val imm.toNat) r below s →
    InCode (r.pc + 4) → accessFault true (effAddr r a imm) (2 ^ kind.val) = none → 2048 ≤ journalUsed below + r.journal.length →
    ∃ t, exec (.storeInstruction dt e kind d a imm) s = .next t ∧
      (engOf t e).runs = { r with pc := r.pc + 4, overflowed := true } :: below ∧
      (engOf t e).data = Memory.writes (started dt e s).data (effAddr r a imm) (le (2 ^ kind.val) (r.get d).toNat) ∧
      t.ctrl.journalOverflows = (if r.overflowed then s.ctrl.journalOverflows else s.ctrl.journalOverflows + 1))

/-- A store changes no byte of memory but its own: after it the data TCM of its engine reads the register's bytes at the effective
address and what it read before everywhere else, and every other memory is as it was (R247, R275). -/
def Obligations.StoresTouchOnlyTheirBytes : Prop :=
  ∀ dt (e : Fin 2) (kind : Fin 4) (d a : Fin 16) (imm : BitVec 18) r below s, Stands dt e (encI (0x10 + kind.val) d.val a.val imm.toNat) r below s →
    Canonical s = true → InCode (r.pc + 4) →
    accessFault true (effAddr r a imm) (2 ^ kind.val) = none →
    ∃ t, exec (.storeInstruction dt e kind d a imm) s = .next t ∧
      (∀ k < 2 ^ kind.val,
        Memory.read (engOf t e).data (effAddr r a imm + k) = (le (2 ^ kind.val) (r.get d).toNat).getD k 0) ∧
      (∀ x, (x < effAddr r a imm ∨ effAddr r a imm + 2 ^ kind.val ≤ x) →
        Memory.read (engOf t e).data x = Memory.read (started dt e s).data x) ∧
      (engOf t e).code = (engOf s e).code ∧ engOf t (1 - e.val) = engOf s (1 - e.val) ∧ t.solv = s.solv

/-- Branches compare D with A and move the pc by their offset or on to the next instruction; JMP always moves it. CALL and CALLB
push a link stack entry, CALLB with g14, and RET takes it back; JR goes to a register's address (R245, R275). -/
def Obligations.ControlTransfersComplete : Prop :=
  (∀ dt (e : Fin 2) (kind : Fin 4) (d a : Fin 16) (imm : BitVec 18) r below s, Stands dt e (encI (0x18 + kind.val) d.val a.val imm.toNat) r below s →
    (let taken := if kind = 0 then r.get d == r.get a else if kind = 1 then r.get d != r.get a
      else if kind = 2 then (r.get d).slt (r.get a) else (r.get d).ult (r.get a)
     let pc := if taken then r.pc + BitVec.ofInt 32 (4 * imm.toInt) else r.pc + 4
     InCode pc →
     exec (.branchInstruction dt e kind d a imm) s = .next (ran dt e { r with pc := pc } below (started dt e s).data s))) ∧
  (∀ dt (e : Fin 2) (off : BitVec 26) r below s, Stands dt e (encJ 0x1C off.toNat) r below s → InCode (r.pc + BitVec.ofInt 32 (4 * off.toInt)) →
    exec (.jmp dt e off) s =
      .next (ran dt e { r with pc := r.pc + BitVec.ofInt 32 (4 * off.toInt) } below (started dt e s).data s)) ∧
  (∀ dt (e : Fin 2) (off : BitVec 26) r below s, Stands dt e (encJ 0x1D off.toNat) r below s → InCode (r.pc + BitVec.ofInt 32 (4 * off.toInt)) →
    linksUsed below + r.links.length < 64 →
    exec (.call dt e off) s =
      .next (ran dt e { r with pc := r.pc + BitVec.ofInt 32 (4 * off.toInt), links := (r.pc + 4, none) :: r.links } below
        (started dt e s).data s)) ∧
  (∀ dt (e : Fin 2) (d a : Fin 16) (imm : BitVec 18) r below c s, Stands dt e (encI 0x1E d.val a.val imm.toNat) r below s → typeCode s e imm.toNat = some c →
    InCode (BitVec.ofNat 32 c) → linksUsed below + r.links.length < 64 →
    exec (.callb dt e d a imm) s =
      .next (ran dt e
        { (r.set 14 (r.get a)) with pc := BitVec.ofNat 32 c, links := (r.pc + 4, some (r.get 14)) :: r.links } below
        (started dt e s).data s)) ∧
  (∀ dt (e : Fin 2) (d a b : Fin 16) (fn : BitVec 14) r below ret g rest s, Stands dt e (encR 0x1F d.val a.val b.val fn.toNat) r below s → r.links = (ret, g) :: rest →
    InCode ret →
    exec (.ret dt e d a b fn) s =
      .next (ran dt e { (match g with | some v => r.set 14 v | none => r) with pc := ret, links := rest } below
        (started dt e s).data s)) ∧
  (∀ dt (e : Fin 2) (d a b : Fin 16) (fn : BitVec 14) r below s, Stands dt e (encR 0x21 d.val a.val b.val fn.toNat) r below s → (r.get a).toNat % 4 = 0 →
    0x40000 ≤ (r.get a).toNat → (r.get a).toNat + 4 ≤ 0x80000 →
    exec (.jr dt e d a b fn) s =
      .next (ran dt e { r with pc := (r.get a).setWidth 32 } below (started dt e s).data s))

/-- END publishes the output image of the task, with the forces of its variables applied, and ends the execution (R256, R290).
TRAP and an illegal word end it in a task fault of cause 7 and 6, as an access outside the map, into code or the journal, or
misaligned does with its own cause: the task is FAULTED with the pc and the address, and what the execution stored is rolled
back (R247, R261). Log entry 48 says what of it is the model's choice. -/
def Obligations.ExecutionEndsComplete : Prop :=
  (∀ dt (e : Fin 2) (d a b : Fin 16) (fn : BitVec 14) r below (x : TaskSt) (k : BTask) s, Stands dt e (encR 0x3E d.val a.val b.val fn.toNat) r below s →
    taskSt s e r.task = some x → taskDef s e r.task = some k →
    ∃ t y, exec (.endRun dt e d a b fn) s = .next t ∧ (engOf t e).runs = below ∧ taskSt t e r.task = some y ∧ y.toApply = true ∧
      y.mode = x.mode ∧ y.landOut = Memory.reads (engOf t e).data k.outAddr k.outLen ∧ y.landPrev = x.landOut ∧
      (engOf t e).data = applyForces s e (inOutput k) (applyForces s e isData (started dt e s).data) ∧
      y.lastRun = BitVec.ofNat 32 (monoUs (elapse dt s) - r.beganUs) ∧ y.runPrev = x.lastRun ∧ y.overflowed = r.overflowed ∧ y.div0 = r.div0 ∧
      (engOf t e).regs = r.regs ∧ t.pio = s.pio) ∧
  (∀ dt (e : Fin 2) (w : W32) r below (x : TaskSt) s, Stands dt e w.toNat r below s → (wOp w.toNat = 0x3F ∨ wLegal (2 ^ 18) w.toNat = false) →
    taskSt s e r.task = some x → (∀ q ∈ below, q.task ≠ r.task) →
    ∃ t y, exec (.trap dt e w) s = .next t ∧ taskSt t e r.task = some y ∧ y.mode = .faulted ∧ y.faultPc = r.pc.toNat ∧
      y.faultAddr = (if wOp w.toNat = 0x3F then 7 * 2 ^ 24 + w.toNat % 2 ^ 18 else 6 * 2 ^ 24 + r.pc.toNat % 2 ^ 24) ∧
      (engOf t e).runs = below ∧ (engOf t e).data = rollback r (started dt e s).data ∧
      t.ctrl.taskFaults = s.ctrl.taskFaults + 1) ∧
  (∀ dt (e : Fin 2) (kind : Fin 4) (d a : Fin 16) (imm : BitVec 18) r below c (x : TaskSt) s, Stands dt e (encI (0x10 + kind.val) d.val a.val imm.toNat) r below s →
    accessFault true (effAddr r a imm) (2 ^ kind.val) = some c → taskSt s e r.task = some x → (∀ q ∈ below, q.task ≠ r.task) →
    ∃ t y, exec (.storeInstruction dt e kind d a imm) s = .next t ∧ taskSt t e r.task = some y ∧ y.mode = .faulted ∧
      y.faultPc = r.pc.toNat ∧ y.faultAddr = c * 2 ^ 24 + effAddr r a imm % 2 ^ 24 ∧ (engOf t e).runs = below ∧
      (engOf t e).data = rollback r (started dt e s).data)

/-! ### Tasks, lockstep, images and online change -/

/-- At its release instant a waiting task is latched: its execution stands in priority order at the entry point, and its cycle is
counted (R249, R250, R254). One that finds its previous execution in progress is skipped (R259), and at ABORT_LIMIT in a row
aborted (R260). What was published since the last tick is applied: an axis takes its record, a digital output its level (R32,
R380). -/
def Obligations.TaskEventsComplete : Prop :=
  (∀ dt (e : Fin 2) (k : Fin 16) (d : BTask) (x : TaskSt) s, Quiet s → taskDef s e k = some d → taskSt s e k = some x →
    x.mode = .waiting → tasksExecute s = true → s.sys.mode ≠ .shadow → tickUs (elapse dt s) % d.cycle = d.phase →
    x.instant ≠ some (monoUs (elapse dt s)) → dueAbove (elapse dt s) e d.prio = [] → s.ctrl.change = none → s.ctrl.swap = none → runOf s e k = none →
    ∃ t y r, exec (.taskRelease dt e k) s = .next t ∧ taskSt t e k = some y ∧ y.cycleCount = x.cycleCount + 1 ∧ y.misses = 0 ∧
      y.skipped = 0 ∧ y.release = tickUs (elapse dt s) ∧ y.firstScan = false ∧ y.mode = .waiting ∧
      (engOf t e).runs = insertRun r (engOf s e).runs ∧ r.task = k.val ∧ r.prio = d.prio ∧ r.pc = BitVec.ofNat 32 d.entry ∧
      r.started = false ∧ r.links = [] ∧ r.journal = [] ∧ engOf t (1 - e.val) = engOf s (1 - e.val) ∧ t.pio.dos = s.pio.dos) ∧
  (∀ dt (e : Fin 2) (k : Fin 16) (d : BTask) (x : TaskSt) s, Quiet s → taskDef s e k = some d → taskSt s e k = some x →
    x.mode = .waiting → tasksExecute s = true → s.sys.mode ≠ .shadow → tickUs (elapse dt s) % d.cycle = d.phase →
    x.instant ≠ some (monoUs (elapse dt s)) → dueAbove (elapse dt s) e d.prio = [] → s.ctrl.change = none → s.ctrl.swap = none → (runOf s e k).isSome = true →
    ∃ t y, exec (.taskRelease dt e k) s = .next t ∧ taskSt t e k = some y ∧ y.skipped = x.skipped + 1 ∧
      y.overruns = x.overruns + 1 ∧ y.cycleCount = x.cycleCount ∧ t.ctrl.overruns = s.ctrl.overruns + 1 ∧
      y.mode = (if d.abortLimit ≤ x.misses + 1 then .aborted else .waiting) ∧
      t.ctrl.aborts = (if d.abortLimit ≤ x.misses + 1 then s.ctrl.aborts + 1 else s.ctrl.aborts) ∧
      (x.misses + 1 < d.abortLimit → t.ctrl.engines = s.ctrl.engines)) ∧
  (∀ dt (b : BImg) s, Quiet s → s.ctrl.running = some b →
    ∃ t, exec (.outputApply dt) s = .next t ∧
      t.ctrl = { s.ctrl with tasks := s.ctrl.tasks.map fun x => { x with toApply := false } } ∧ t.sys = s.sys ∧
      (∀ x o, s.ctrl.tasks.filter (·.toApply) = [x] → drives s x.engine x.task = true →
        b.outs.filter (fun o => o.engine == x.engine && o.task == x.task) = [o] →
        (o.dest = 3 → o.index < 8 →
          t.vax = { s.vax with
            axes := vset s.vax.axes o.index
              { axisOf s o.index with
                record := some (slice x.landOut o.imgOff (destLen 3)) } } ∧
          t.pio = s.pio) ∧
        (∀ i : Fin 24, o.dest = 1 → o.index = i.val → pairOutput s ≠ some i.val → (s.pio.dos[i]).faultSafe = false →
          (t.pio.dos[i]).level = bit (ofLE (slice x.landOut o.imgOff (destLen 1))) 0 ∧ (t.pio.dos[i]).safe = false ∧
          (∀ j : Fin 24, j ≠ i → t.pio.dos[j] = s.pio.dos[j]) ∧ t.vax = s.vax)))

/-- A lockstep mismatch rolls the running execution back and begins it again at its entry point (R263); one that is not recovered
stops both engines and leads to SAFE (R264). -/
def Obligations.LockstepComplete : Prop :=
  (∀ dt (e : Fin 2) r below (d : BTask) s, Quiet s → s.sys.inReset = false → s.sys.mode ≠ .backup →
    (engOf s e).runs = r :: below → (engOf s e).mismatches = [] → r.again = false → r.overflowed = false →
    taskDef s e r.task = some d →
    ∃ t, exec (.lockstepMismatch dt e false) s = .next t ∧ (engOf t e).data = rollback r (engOf s e).data ∧
      (engOf t e).runs =
        { r with started := false, pc := BitVec.ofNat 32 d.entry, links := [], journal := [], div0 := false, again := true } :: below ∧
      (engOf t e).regs = zeroRegs ∧ t.ctrl.recovered = s.ctrl.recovered + 1 ∧ t.ctrl.unrecovered = s.ctrl.unrecovered ∧
      engOf t (1 - e.val) = engOf s (1 - e.val) ∧ t.sys = s.sys ∧ t.pio = s.pio) ∧
  (∀ dt (e : Fin 2) inRollback r below s, Quiet s → tickGoesOn s.pending = false → s.sys.inReset = false → 2 ≤ s.sys.mode.code → s.sys.mode.code ≤ 7 →
    (engOf s e).runs = r :: below → (inRollback = true ∨ r.again = true) →
    ∃ t, exec (.lockstepMismatch dt e inRollback) s = .next t ∧ t.sys.mode = .safe ∧ t.sys.cause = 7 ∧
      t.ctrl.lockstepStop = true ∧ t.ctrl.unrecovered = s.ctrl.unrecovered + 1 ∧ tasksExecute t = false)

/-- The validation of a block image ends with STAGE 3 and the image staged, or STAGE 4 (R266); the write of the running image
names its slot (R307). An online change is prepared, at T holds the releases unless an option forbids it, exchanges the images
once both engines have drained, and completes at the next tick; a drain that takes too long abandons it (R299 to R303, R308).
Log entry 50 says what of it is the model's choice. -/
def Obligations.OnlineChangeComplete : Prop :=
  (∀ dt s, Quiet s → s.ctrl.stage.code = 2 →
    ∃ t, exec (.blockImageValidationComplete dt) s = .next t ∧
      t.ctrl.stage.code = (if (biValidate s.ctrl.stage.received).1 = 0 then 3 else 4) ∧
      t.ctrl.stage.validation = (biValidate s.ctrl.stage.received).1 ∧
      t.ctrl.staged = (if (biValidate s.ctrl.stage.received).1 = 0 then some (biParse s.ctrl.stage.received) else none) ∧
      t.ctrl.running = s.ctrl.running ∧ t.ctrl.engines = s.ctrl.engines ∧ t.pio = s.pio) ∧
  (∀ dt (b : BImg) s, Quiet s → s.ctrl.flashWrite = true → s.ctrl.running = some b →
    exec (.blockImageFlashWrite dt) s =
      .next { elapse dt s with ctrl := { s.ctrl with
        flashA := if s.ctrl.selector then some b.raw else s.ctrl.flashA,
        flashB := if s.ctrl.selector then s.ctrl.flashB else some b.raw,
        selector := !s.ctrl.selector, flashWrite := false } }) ∧
  (∀ dt (c : Change) s, Quiet s → s.ctrl.change = some c → c.phase = .preparing →
    exec (.onlineChangePrepared dt) s =
      .next { elapse dt s with ctrl := { s.ctrl with change := some { c with phase := .prepared } } }) ∧
  (∀ dt (c : Change) (a b : BImg) s, Quiet s → s.ctrl.change = some c → s.ctrl.running = some a → s.ctrl.staged = some b →
    s.ctrl.swap = none → (c.phase = .preparing ∨ c.phase = .prepared) → c.atMono ≤ monoUs (elapse dt s) → c.options = 0 →
    exec (.changeTick dt) s =
      .next { elapse dt s with ctrl := { s.ctrl with change := some { c with phase := .draining } } }) ∧
  (∀ dt (c : Change) (a b : BImg) s, Quiet s → s.ctrl.change = some c → s.ctrl.running = some a → s.ctrl.staged = some b →
    c.phase = .draining → (engOf s 0).runs = [] → (engOf s 1).runs = [] →
    ∃ t c', exec (.exchange dt) s = .next t ∧ t.ctrl.running = some b ∧ t.ctrl.staged = some a ∧
      t.ctrl.stage = formerStage (some a) ∧ t.ctrl.onlineChanges = s.ctrl.onlineChanges + 1 ∧ t.ctrl.change = some c' ∧
      c'.phase = .exchanged ∧ c'.held = c.held ∧ t.ctrl.flashWrite = true ∧
      t.ctrl.tasks = exchangedTasks b s.ctrl.tasks ∧ t.pio = s.pio ∧ t.vax = s.vax ∧
      (∀ e : Fin 2, reloads a b e = false → (engOf t e).code = (engOf s e).code)) ∧
  (∀ dt (c : Change) (a b : BImg) s, Quiet s → s.ctrl.change = some c → s.ctrl.running = some b → s.ctrl.staged = some a →
    c.phase = .exchanged → c.held = [] → s.ctrl.swap = none →
    ∃ t, exec (.latchTick dt) s = .next t ∧ t.ctrl.change = none ∧ t.ctrl.running = some b ∧ t.ctrl.staged = some a ∧
      t.ctrl.engines = s.ctrl.engines ∧ t.ctrl.onlineChanges = s.ctrl.onlineChanges) ∧
  (∀ dt (c : Change) (a b : BImg) s, Quiet s → s.ctrl.change = some c → s.ctrl.running = some a → s.ctrl.staged = some b →
    c.phase = .draining → c.atMono + c.drainMax ≤ monoUs (elapse dt s) → ((engOf s 0).runs ≠ [] ∨ (engOf s 1).runs ≠ []) →
    c.held = [] → s.ctrl.swap = none →
    ∃ t, exec (.changeDrainTimeout dt) s = .next t ∧ t.ctrl.change = none ∧ t.ctrl.running = some a ∧
      t.ctrl.changesNotMade = s.ctrl.changesNotMade + 1 ∧ t.ctrl.stage.code = c.prior ∧ t.ctrl.engines = s.ctrl.engines)

/-! ### Metrology -/

/-- A flow edge that outlasts the filter and has the polarity that PULSE_EDGE selects is a pulse: it is counted by its
direction, and a change of direction is noticed (R317). One of the other polarity counts nothing; one that the filter ignores is
counted as rejected (R316). Nothing but the channel changes. A frame of the temperature converters ends: pulses are metered from
the first on, page 1 is published, and each enabled channel whose samples failed parity loses its frame (R311, R325, R329,
R335). At a minute of metering time the written metrology values take effect, and every length whose boundary it is closes its
interval and opens the next in each enabled channel (R326, R327, R331). -/
def Obligations.PulsesAndIntervalsComplete : Prop :=
  (∀ dt (c : Fin 16) rising held dir s, Quiet s → s.mth.running = true → mthEnabled s c = true → flowFilterUs s c ≤ held →
    rising ≠ bit (mthP s c 0) 12 →
    ∃ ch, exec (.flowPulse dt c ⟨rising, held, dir⟩) s =
        .next { elapse dt s with mth := { s.mth with chans := s.mth.chans.set c ch } } ∧
      (let reverse := bit (mthP s c 0) 14 && dir != bit (mthP s c 0) 13
       let old := s.mth.chans[c]
       ch.fwd = (if reverse then old.fwd else old.fwd + 1) ∧ ch.rev = (if reverse then old.rev + 1 else old.rev) ∧
       ch.spanFwd = (if reverse then old.spanFwd else old.spanFwd + 1) ∧
       ch.spanRev = (if reverse then old.spanRev + 1 else old.spanRev) ∧ ch.lastReverse = reverse ∧
       ch.dirChanges = (if 0 < old.seen ∧ reverse ≠ old.lastReverse then old.dirChanges + 1 else old.dirChanges) ∧
       ch.turned = (decide (0 < old.seen) && reverse != old.lastReverse) ∧ ch.lastPulse = monoUs (elapse dt s) ∧
       ch.prevPulse = old.lastPulse ∧ ch.rejected = old.rejected ∧ ch.tA = old.tA ∧ ch.tB = old.tB ∧ ch.kept = old.kept)) ∧
  (∀ dt (c : Fin 16) held dir s, Quiet s → flowFilterUs s c ≤ held →
    exec (.flowPulse dt c ⟨bit (mthP s c 0) 12, held, dir⟩) s = .next (elapse dt s)) ∧
  (∀ dt (c : Fin 16) rising held dir s, Quiet s → s.mth.running = true → held < flowFilterUs s c →
    exec (.flowPulse dt c ⟨rising, held, dir⟩) s =
      .next { elapse dt s with mth := { s.mth with
        chans := s.mth.chans.set c { s.mth.chans[c] with rejected := s.mth.chans[c].rejected + 1 } } }) ∧
  (∀ dt (c : Fin 16) s, Quiet s → s.mth.running = true →
    exec (.flowEdgeRejected dt c) s =
      .next { elapse dt s with mth := { s.mth with
        chans := s.mth.chans.set c { s.mth.chans[c] with rejected := s.mth.chans[c].rejected + 1 } } }) ∧
  (∀ dt (fr : Vector RtdFrame 16) s, Quiet s → meteringMode s = true →
    ∃ t, exec (.frameEnd dt fr) s = .next t ∧ t.mth.running = true ∧ t.mth.frame = s.mth.frame + 1 ∧
      t.mth.seq1 = s.mth.seq1 + 1 ∧
      t.mth.framesLost = s.mth.framesLost +
        BitVec.ofNat 32 ((List.finRange 16).filter fun c => mthEnabled s c.val && !(fr[c]).parityOk).length ∧
      (∀ c : Fin 16, mthEnabled s c = true → (t.mth.chans[c]).frameLost = !(fr[c]).parityOk) ∧ t.mel = s.mel ∧ t.pio = s.pio) ∧
  (∀ dt s, Quiet s → meteringMode s = true → meterSec (elapse dt s) % 60 = 0 →
    s.bill.lastBoundary ≠ some (meterSec (elapse dt s)) →
    ∃ t, exec (.intervalBoundary dt) s = .next t ∧ t.bill.lastBoundary = some (meterSec (elapse dt s)) ∧
      t.cfgPending = s.cfgPending.filter (fun p => !minuteId p.id) ∧
      (∀ (c : Fin 16) (l : Fin 3), s.mth.running = true → mthEnabled s c = true → meterSec (elapse dt s) % lengthSec l = 0 →
        (t.mth.chans[c]).seqs[l] = (s.mth.chans[c]).seqs[l] + 1 ∧ ((t.mth.chans[c]).opens[l]).start = ptpSec (elapse dt s) ∧
        ((t.mth.chans[c]).kept[l].head?.map fun r => (r.seq, r.start, r.stop)) =
          some ((s.mth.chans[c]).seqs[l], ((s.mth.chans[c]).opens[l]).start, ptpSec (elapse dt s)))) ∧
  (∀ dt s, Quiet s → s.bill.lastBoundary = some (meterSec (elapse dt s)) →
    exec (.intervalBoundary dt) s = .next (elapse dt s))

/-- The quanta of a line cycle are attributed without loss: the energy registers grow by |p| together, by the sign of p, the
reactive ones by |q| in the quadrant of p and q, and the apparent ones by a (R342). -/
def Obligations.QuantaAttributedOnce : Prop :=
  ∀ (p q a : Int) (r : Vector Acc 8),
    (attribQuanta p q a r)[0] + (attribQuanta p q a r)[1] = r[0] + r[1] + accOf p ∧
    (attribQuanta p q a r)[2] + (attribQuanta p q a r)[3] + (attribQuanta p q a r)[4] + (attribQuanta p q a r)[5] =
      r[2] + r[3] + r[4] + r[5] + accOf q ∧
    (attribQuanta p q a r)[6] + (attribQuanta p q a r)[7] = r[6] + r[7] + accOf a ∧
    (0 ≤ p → (attribQuanta p q a r)[1] = r[1] ∧ (attribQuanta p q a r)[7] = r[7]) ∧
    (p < 0 → (attribQuanta p q a r)[0] = r[0] ∧ (attribQuanta p q a r)[6] = r[6])

/-- A raw sample of a system that settles is discarded, any other enters the open line cycle (R334, R345). A line cycle closes
at a crossing or, without one, after its longest time: its quanta enter the registers of its system and the next cycle opens
(R338, R339, R342). Page 3 is published (R348), and a calibration window whose samples are taken ends (R350). Log entries 15 and
76 say what of it is the model's choice. -/
def Obligations.ElectricalEventsComplete : Prop :=
  (∀ dt (k : Fin 4) smp s, Quiet s → meteringMode s = true → melEnabled s k = true → 0 < (melSys s k).settle →
    exec (.electricalRawSample dt k smp) s =
      .next { elapse dt s with mel := { s.mel with
        systems := s.mel.systems.set k { s.mel.systems[k] with settle := (s.mel.systems[k]).settle - 1 } } }) ∧
  (∀ dt (k : Fin 4) smp s, Quiet s → meteringMode s = true → melEnabled s k = true → (melSys s k).settle = 0 →
    ∃ t, exec (.electricalRawSample dt k smp) s = .next t ∧ (melSys t k).running = true ∧
      (melSys t k).open_.samples = (melSys s k).open_.samples + 1 ∧ (melSys t k).sinceCross = (melSys s k).sinceCross + 1 ∧
      (∀ o : Fin 4, o ≠ k → melSys t o = melSys s o) ∧ t.bill = s.bill ∧ t.mth = s.mth) ∧
  (∀ dt (k : Fin 4) ph s, Quiet s → meteringMode s = true → (melSys s k).running = true → (melSys s k).open_.samples ≠ 0 →
    closeAfter s k (melSys s k) ≤ (melSys s k).open_.samples →
    ∃ t, exec (.lineCycleClose dt k .timeout ph) s = .next t ∧ (melSys t k).open_ = Cycle.empty ∧
      (melSys t k).cycles = (melSys s k).cycles + 1 ∧
      (t.bill.regs.elec[k]).regs = attributeCycle s k (melSys s k).open_.sums (s.bill.regs.elec[k]).regs ∧
      t.mel.forcedCycles =
        (if (melSys s k).unlocked || allLost s k (melSys s k) then s.mel.forcedCycles else s.mel.forcedCycles + 1) ∧
      t.bill.regs.therm = s.bill.regs.therm ∧ (∀ o : Fin 4, o ≠ k → melSys t o = melSys s o ∧
        t.bill.regs.elec[o] = s.bill.regs.elec[o]) ∧ t.mth = s.mth) ∧
  (∀ dt (k : Fin 4) (phase : Fin 3) (frac : Fin 4096) ph s, Quiet s → meteringMode s = true → (melSys s k).running = true →
    phase.val = (melSys s k).refPhase →
    (melSys s k).open_.samples ≠ 0 → 246 ≤ (melSys s k).sinceCross → (melSys s k).unlocked = false →
    allLost s k (melSys s k) = false →
    ∃ t, exec (.lineCycleClose dt k (.crossing phase frac) ph) s = .next t ∧ (melSys t k).open_ = Cycle.empty ∧
      (melSys t k).cycles = (melSys s k).cycles + 1 ∧ (melSys t k).sinceCross = 0 ∧ (melSys t k).frac = frac ∧
      (t.bill.regs.elec[k]).regs = attributeCycle s k (melSys s k).open_.sums (s.bill.regs.elec[k]).regs ∧
      t.bill.regs.therm = s.bill.regs.therm ∧ t.mel.forcedCycles = s.mel.forcedCycles) ∧
  (∀ dt s, Quiet s → meteringMode s = true →
    ∃ t, exec (.electricalPagePublish dt) s = .next t ∧ t.mel.seq3 = s.mel.seq3 + 1 ∧
      t.mel.page3.now = elecPage (elapse dt s) 3 (s.mel.seq3 + 1).toNat 0 ∧ t.mel.page2 = s.mel.page2 ∧ t.bill = s.bill ∧
      t.mth = s.mth) ∧
  (∀ dt (k : Fin 4) (w : CalWin) s, Quiet s → (melSys s k).cal = some w → w.stop ≤ sampleStamp (elapse dt s) →
    ∃ t, exec (.calWindowEnd dt k) s = .next t ∧ melSys t k = { melSys s k with cal := none } ∧
      (∀ o : Fin 4, o ≠ k → melSys t o = melSys s o) ∧ t.bill = s.bill ∧
      (∀ tag e, s.hif.tags = [(tag, .executing e)] → e.wait = .calWindow k →
        ∃ h, tagOf t tag = some (.held h) ∧ h.status = stOK ∧ h.body = calBody (elapse dt s) k w))

/-- A periodic save takes a snapshot point and starts to write the next record; its slot is intact once the record has been read
back as written (R358). -/
def Obligations.SavesComplete : Prop :=
  (∀ dt s, Quiet s → s.mth.running = true → s.bill.saving = none →
    s.bill.lastSave + saveIntervalUs s ≤ monoUs (elapse dt s) →
    ∃ t r, exec (.registerSave dt) s = .next t ∧ t.bill.saving = some (s.bill.lastSeq + 1) ∧ t.bill.lastSeq = s.bill.lastSeq + 1 ∧
      t.bill.lastSave = monoUs (elapse dt s) ∧ vget t.bill.ring ((s.bill.lastSeq + 1) % 64) none = some ⟨false, r⟩ ∧
      r.seq = s.bill.lastSeq + 1 ∧ r.regs = regsAtStart (snapshotPoint (elapse dt s)) ∧ r.at_ = tickStamp (elapse dt s) ∧ r.gapCount = s.bill.gapCount) ∧
  (∀ dt ok n s, Quiet s → s.bill.saving = some n →
    exec (.saveReadback dt ok) s =
      .next { elapse dt s with bill := { s.bill with
        ring := s.bill.ring.map fun x => x.map fun y => if y.rec_.seq = n then { y with intact := ok } else y,
        saving := none, saves := s.bill.saves + 1,
        saveErrors := if ok then s.bill.saveErrors else s.bill.saveErrors + 1 } })

/-! ### Process inputs and outputs, valve axes -/

/-- A conversion of a used input updates its value and its status by its mode and range, and counts down SETTLING (R376, R377);
a written setting takes effect at it and sets SETTLING to 3 (R386). A filtered edge is counted and stamped at the pin change
that it follows by the filter time (R378, R379). A pad that reads against its driven level for 20 µs, and a feedback that
differs beyond FB_TIME, set the output's fault, record it, and put the output to its safe level if it is configured so (R384).
At the end of a PWM period the published duty and the written period take effect (R380, R386). Log entries 21, 23 and 34 say
what of it is the model's choice. -/
def Obligations.ProcessInputsAndOutputsComplete : Prop :=
  (∀ dt (a : Fin 16) code s, Quiet s → pioRuns s = true → ainPending s a = false → getP s (0x0A10 + 4 * a) % 8 ≠ 0 →
    exec (.analogConversion dt a code) s =
      .next { elapse dt s with pio := { s.pio with
        ain := s.pio.ain.set a
          { raw := max (-335544) code.toInt,
            value := BitVec.ofNat 64 (ainValue s a (getP s (0x0A10 + 4 * a) % 8) (max (-335544) code.toInt)),
            marks := ainMarks s a (getP s (0x0A10 + 4 * a) % 8) (max (-335544) code.toInt),
            settling := (s.pio.ain[a]).settling - 1, converted := true, endUs := monoUs (elapse dt s) } } }) ∧
  (∀ dt (a : Fin 16) code s, Quiet s → pioRuns s = true → ainPending s a = true →
    ∃ t, exec (.analogConversion dt a code) s = .next t ∧ (t.pio.ain[a]).settling = 3 ∧ ainPending t a = false ∧
      (∀ b : Fin 16, b ≠ a → t.pio.ain[b] = s.pio.ain[b]) ∧ t.pio.din = s.pio.din ∧ t.pio.dos = s.pio.dos ∧ t.evr = s.evr) ∧
  (∀ dt (n : Fin 32) pin s, Quiet s → pioRuns s = true → (s.pio.din[n]).pin ≠ pin →
    ∃ d, exec (.digitalInputEdge dt n pin) s = .next { elapse dt s with pio := { s.pio with din := s.pio.din.set n d } } ∧
      d.pin = pin ∧ d.level = (pin != bit (getP s (0x0A50 + n)) 0) ∧
      d.rise = (if d.level then (s.pio.din[n]).rise + 1 else (s.pio.din[n]).rise) ∧
      d.fall = (if d.level then (s.pio.din[n]).fall else (s.pio.din[n]).fall + 1) ∧
      d.at_ = stampOfUs (tickUs (elapse dt s) - getP s (0x0A50 + n) / 65536)) ∧
  (∀ dt (o : Fin 32) read s, Quiet s → pioRuns s = true → (∀ h : o.val < 24, (s.pio.dos[o.val]).level ≠ read) →
    ∃ t, exec (.padFault dt o read) s = .next t ∧
      (∀ k, k < 32 → t.pio.fault.getLsbD k = (s.pio.fault.getLsbD k || k == o.val)) ∧
      (∀ h : o.val < 24, bit (doConfig s o) 8 = false →
        t.pio.dos = s.pio.dos.set o { s.pio.dos[o.val] with pad := read }) ∧
      (∀ h : o.val < 24, bit (doConfig s o) 8 = true → pairOutput s ≠ some o.val →
        (t.pio.dos[o.val]).faultSafe = true ∧ (t.pio.dos[o.val]).level = (doConfig s o % 4 == 1)) ∧
      (∀ p : Fin 24, p.val ≠ o.val → t.pio.dos[p] = s.pio.dos[p]) ∧ t.pio.ain = s.pio.ain ∧ t.pio.din = s.pio.din ∧
      t.pio.pwm = s.pio.pwm ∧ t.sys = s.sys) ∧
  (∀ dt (o : Fin 24) s, Quiet s → pioRuns s = true → bit (doConfig s o) 15 = true →
    (diLevel s (bits (doConfig s o) 13 9) != bit (doConfig s o) 14) ≠ (s.pio.dos[o]).level →
    (s.pio.dos[o]).changedUs + doConfig s o / 65536 * 1000 < monoUs (elapse dt s) →
    ∃ t, exec (.feedbackFault dt o) s = .next t ∧
      (∀ k, k < 32 → t.pio.fault.getLsbD k = (s.pio.fault.getLsbD k || k == o.val)) ∧
      (bit (doConfig s o) 8 = false → t.pio.dos = s.pio.dos) ∧
      (bit (doConfig s o) 8 = true → pairOutput s ≠ some o.val →
        (t.pio.dos[o]).faultSafe = true ∧ (t.pio.dos[o]).level = (doConfig s o % 4 == 1)) ∧
      (∀ p : Fin 24, p ≠ o → t.pio.dos[p] = s.pio.dos[p]) ∧ t.pio.pwm = s.pio.pwm ∧ t.sys = s.sys) ∧
  (∀ dt (p : Fin 8) s, Quiet s → Canonical s = true → pioRuns s = true →
    ∃ t, exec (.pwmPeriodBoundary dt p) s = .next t ∧ (t.pio.pwm[p]).duty = (s.pio.pwm[p]).next.getD (s.pio.pwm[p]).duty ∧
      (t.pio.pwm[p]).next = none ∧
      (t.pio.pwm[p]).period = ((pendingOf s (0x0A88 + 2 * p)).map (·.value)).getD (getP s (0x0A88 + 2 * p)) ∧
      (∀ q : Fin 8, q ≠ p → t.pio.pwm[q] = s.pio.pwm[q]) ∧ t.pio.dos = s.pio.dos ∧ t.pio.ain = s.pio.ain ∧
      t.pio.din = s.pio.din ∧ t.sys = s.sys)

/-- In a profile period of an axis that moves to a position, POSITION with its fraction moves by the new speed if the target is
not reached, and stands exactly at the target at rest if it is reached at start speed (R388, R393, R394, R401); the set currents
follow the electrical angle and the run current, the measured currents are taken, and the duties answer them (R389, R390). A
stall stops the axis and, with STALL_ACTION 2, latches it (R399), and an angle that is not the axis's own changes nothing; a
stall of a homing without a switch ends the homing at HOME_POS (R405, R406). A drive fault switches the bridges off until it is
cleared (R407). After STANDSTILL_DELAY an axis at rest takes its standstill mode (R395). Each leaves the other axes as they are.
Log entry 24 says what of it is the model's choice. -/
def Obligations.AxisEventsComplete : Prop :=
  (∀ dt (a : Fin 8) (m : AxisPeriod) s, Quiet s → vaxRuns s = true → monoUs (elapse dt s) % 40 = 0 →
    (axisOf s a).periodUs ≠ some (monoUs (elapse dt s)) → (axisOf s a).record = none →
    (axisOf s a).home = none → (axisOf s a).state = .moving → (axisOf s a).goal.mode = 1 →
    conforms (elapse dt s) a (axisOf s a) m.vel = true → slow s a m.vel = false →
    ∃ t, exec (.profilePeriod dt a m) s = .next t ∧
      (axisOf t a).pos * stepUnit + (axisOf t a).frac = (axisOf s a).pos * stepUnit + (axisOf s a).frac + m.vel ∧
      (axisOf t a).vel = m.vel ∧ (axisOf t a).acc = m.vel - (axisOf s a).vel ∧ (axisOf t a).state = .moving ∧
      (axisOf t a).periodUs = some (monoUs (elapse dt s)) ∧
      (axisOf t a).iA = BitVec.ofNat 32 (currentF32 s a m.iA) ∧ (axisOf t a).iB = BitVec.ofNat 32 (currentF32 s a m.iB) ∧
      (let x := issue (elapse dt s) a m.vel (axisOf s a)
       let i : Int := setCurrent (elapse dt s) a x
       let duty (set_ mean sum : Int) := regulate (gain s a m.supply 71) (gain s a m.supply 72) (set_ - mean) sum
       (axisOf t a).setA = i * (sinCos (electricalAngle s a x)).2 ∧ (axisOf t a).setB = i * (sinCos (electricalAngle s a x)).1 ∧
       (regulated s a x = true →
         (axisOf t a).highA = (duty (axisOf t a).setA (meanCurrent s a m.iA) (axisOf s a).sumA).2 ∧
         (axisOf t a).highB = (duty (axisOf t a).setB (meanCurrent s a m.iB) (axisOf s a).sumB).2)) ∧
      (∀ b : Fin 8, b ≠ a → axisOf t b = axisOf s b) ∧ t.pio = s.pio ∧ t.ctrl = s.ctrl ∧ t.evr = s.evr) ∧
  (∀ dt (a : Fin 8) (m : AxisPeriod) s, Quiet s → vaxRuns s = true → monoUs (elapse dt s) % 40 = 0 →
    (axisOf s a).periodUs ≠ some (monoUs (elapse dt s)) → (axisOf s a).record = none →
    (axisOf s a).home = none → (axisOf s a).state = .moving → (axisOf s a).goal.mode = 1 →
    conforms (elapse dt s) a (axisOf s a) m.vel = true → slow s a m.vel = true → 0 < m.vel →
    (axisOf s a).pos ≤ (axisOf s a).target →
    (axisOf s a).pos * stepUnit + (axisOf s a).frac ≤ (axisOf s a).target * stepUnit →
    (axisOf s a).target * stepUnit ≤ (axisOf s a).pos * stepUnit + (axisOf s a).frac + m.vel →
    ∃ t, exec (.profilePeriod dt a m) s = .next t ∧ (axisOf t a).pos = (axisOf s a).target ∧ (axisOf t a).frac = 0 ∧
      (axisOf t a).vel = 0 ∧ (axisOf t a).state = .standstill ∧ (axisOf t a).atTarget = true ∧
      (axisOf t a).fwd = (axisOf s a).fwd + BitVec.ofInt 32 ((axisOf s a).target - (axisOf s a).pos) ∧
      (∀ b : Fin 8, b ≠ a → axisOf t b = axisOf s b) ∧ t.pio = s.pio ∧ t.ctrl = s.ctrl) ∧
  (∀ dt (a : Fin 8) s, Quiet s → vaxRuns s = true → (axisOf s a).vel ≠ 0 → (axisOf s a).state = .moving →
    stallSeen s a (axisOf s a) = true → outranked (elapse dt s) 4 (axisOf s a) = false → (axisOf s a).home = none → bits (vaxP s a 0) 19 18 ≠ 0 →
    ∃ t, exec (.stall dt a (axisOf s a).gammaU) s = .next t ∧ (axisOf t a).stalls = (axisOf s a).stalls + 1 ∧ t.vax.stalls = s.vax.stalls + 1 ∧
      (axisOf t a).vel = 0 ∧ (axisOf t a).state = .standstill ∧ (axisOf t a).pos = (axisOf s a).pos ∧
      (axisOf t a).lost = (axisOf s a).lost + lostOf (axisOf s a).gammaU ∧
      (axisOf t a).stallLatched = ((axisOf s a).stallLatched || bits (vaxP s a 0) 19 18 == 2) ∧
      (axisOf t a).homed = ((axisOf s a).homed && lostOf (axisOf s a).gammaU == 0) ∧
      (∀ b : Fin 8, b ≠ a → axisOf t b = axisOf s b) ∧ t.pio = s.pio ∧ t.ctrl = s.ctrl) ∧
  (∀ dt (a : Fin 8) g s, Quiet s → g ≠ (axisOf s a).gammaU → exec (.stall dt a g) s = .next (elapse dt s)) ∧
  (∀ dt (a : Fin 8) h s, Quiet s → vaxRuns s = true → (axisOf s a).vel ≠ 0 → (axisOf s a).state ≠ .standstill →
    stallSeen s a (axisOf s a) = true → outranked (elapse dt s) 4 (axisOf s a) = false →
    (axisOf s a).home = some h → homeMethod s a = 0 →
    ∃ t, exec (.stall dt a (axisOf s a).gammaU) s = .next t ∧ (axisOf t a).home = none ∧ (axisOf t a).homed = true ∧
      (axisOf t a).pos = vaxI s a 13 ∧ (axisOf t a).lost = 0 ∧ (axisOf t a).homeDone = h.req ∧ (axisOf t a).homeResult = 1 ∧
      t.vax.homings = s.vax.homings + 1 ∧ (∀ b : Fin 8, b ≠ a → axisOf t b = axisOf s b) ∧ t.pio = s.pio) ∧
  (∀ dt (a : Fin 8) o s, Quiet s → vaxRuns s = true → (axisOf s a).driveFault = false → axisEnabled s a = true →
    outranked (elapse dt s) 3 (axisOf s a) = false → (o = true → 64 ≤ (axisOf s a).openRun) →
    ∃ t, exec (.driveFault dt a o) s = .next t ∧ (axisOf t a).driveFault = true ∧
      (axisOf t a).faultCause = (if o then 2 else 1) ∧ (axisOf t a).vel = 0 ∧ (axisOf t a).state = .standstill ∧
      (axisOf t a).still = 0 ∧ (axisOf t a).home = none ∧ (axisOf t a).pos = (axisOf s a).pos ∧
      t.vax.driveFaults = s.vax.driveFaults + 1 ∧ (∀ b : Fin 8, b ≠ a → axisOf t b = axisOf s b) ∧ t.pio = s.pio ∧
      t.ctrl = s.ctrl) ∧
  (∀ dt (a : Fin 8) s, Quiet s → vaxRuns s = true → (axisOf s a).state = .standstill → (axisOf s a).still = 3 →
    (axisOf s a).restUs + vaxP s a 0 % 4096 * 10000 ≤ monoUs (elapse dt s) →
    exec (.standstillDelayExpiry dt a) s =
      .next (setAxis a { axisOf s a with still := bits (vaxP s a 0) 17 16 } (elapse dt s)))

/-! ### The Ethernet switch, network time, triggers and captures -/

/-- A frame with an error is counted and dropped, one whose VLAN its port is no member of is counted and dropped (R415, R418); a
good one to a learned address on another port in service teaches its source address and leaves by that port, where its queue has
room: in the queue of its endpoint or priority, untagged as the VLAN says, with the correction of the transparent clock (R416,
R418, R419, R421). A poll takes what the PHY reports (R414), and an address without traffic for 300 s is forgotten (R416).
Nothing but the switch and the frame that leaves changes. Log entries 27 and 84 say what of it is the model's choice. -/
def Obligations.SwitchEventsComplete : Prop :=
  (∀ dt f s, Quiet s → switchRuns s = true → portEnabled s f.port = true → ∀ h : f.port.val < 4, (f.fcsOk = false ∨ 1522 < f.length) →
    exec (.ethernetFrame dt f) s =
      .next { elapse dt s with eth := { s.eth with
        rxErrors := s.eth.rxErrors.set f.port.val (s.eth.rxErrors[f.port.val] + 1) } }) ∧
  (∀ dt f s, Quiet s → switchRuns s = true → portEnabled s f.port = true → f.fcsOk = true → f.length ≤ 1522 → 64 ≤ f.length →
    f.pause = false → (∀ e, vlanEntry s (frameVid s f) = some e → isMember e f.port = false) →
    exec (.ethernetFrame dt f) s = .next { elapse dt s with eth := { s.eth with vlanDrops := s.eth.vlanDrops + 1 } }) ∧
  (∀ dt f e x s, Quiet s → switchRuns s = true → portEnabled s f.port = true → f.fcsOk = true → f.length ≤ 1522 →
    64 ≤ f.length → f.pause = false → vlanEntry s (frameVid s f) = some e → isMember e f.port = true →
    isGroup f.dst.toNat = false → f.src ≠ f.dst →
    (s.eth.table.find? fun y => y.vid == frameVid s f && y.mac == f.dst.toNat) = some x → x.port < 5 → x.port ≠ f.port →
    isMember e x.port = true → portEnabled s x.port = true → f.full.getLsbD (4 * x.port + egressQueue f x.port) = false →
    exec (.ethernetFrame dt f) s =
      .next { elapse dt s with
        eth := { s.eth with table := learn (frameVid s f) f.src.toNat f.port (elapse dt s).clock.real s.eth.table },
        out := s.out ++ [.frame x.port (egressQueue f x.port) (!bit e (17 + x.port)) (tcCorrection s f x.port)] }) ∧
  (∀ dt (p : Fin 4) up (speed : Fin 3) high s, Quiet s → s.sys.inReset = false → s.sys.mode ≠ .backup → s.hif.up = true →
    exec (.phySpeedPoll dt p up speed high) s =
      .next { elapse dt s with eth := { s.eth with
        links := s.eth.links.set p
          { up := up && bit (getP s (0x0C10 + p)) 0, speed := if p.val < 2 then 0 else speed,
            high := decide (p.val < 2) && up && high && bit (getP s (0x0C10 + p)) 8 } } }) ∧
  (∀ dt (vid : Fin 4096) (mac : BitVec 48) s, Quiet s →
    exec (.addressAgeOut dt vid mac) s =
      .next { elapse dt s with eth := { s.eth with
        table := s.eth.table.filter fun x =>
          !(x.vid == vid.val && x.mac == mac.toNat && decide (x.seen + 300000000 ≤ (elapse dt s).clock.real)) } })

/-- A two-step Sync waits for its Follow_Up (R423). A completed measurement gives its offset to the servo: a locked one with
fewer than three bad offsets in a row tracks it, one that is not locked steps the clock by an offset above STEP_LIMIT and
LOCK_THRESHOLD and is ACQUIRING (R429, R430). No Sync or the link's loss puts a locked servo into HOLDOVER on the frequency
estimate (R429, R431), and a grandmaster's HOLDOVER of 3,600 s ends in GM_FREE (R429). A PPS edge of the selected polarity sets
the clock to the second that waits for it and completes the one command that waits, or gives its offset to the servo of a
grandmaster in GM_PPS (R432, R433). Log entries 25 and 83 say what of it is the model's choice. -/
def Obligations.ServoEventsComplete : Prop :=
  (∀ dt (p : Fin 4) (q : W16) origin corr s, Quiet s → syncUsed s p = true →
    exec (.sync dt p q true origin corr) s =
      .next { elapse dt s with time := { s.time with
        twoStep := some (q.toNat, (ptpTotalNs (elapse dt s) : Int) - ingressLatency s p, corr) } }) ∧
  (∀ dt (p : Fin 4) (q : W16) (origin : Nat) corr s, Quiet s → syncUsed s p = true → s.time.servo = .locked → s.time.badRun < 3 →
    let t2 : Int := (ptpTotalNs (elapse dt s) : Int) - ingressLatency s p
    ∃ t, exec (.sync dt p q false origin corr) s = .next t ∧
      Tracked (offsetOf s p origin t2 corr)
        { elapse dt s with time := { s.time with lastSync := (origin + corr, t2), twoStep := none } } t) ∧
  (∀ dt (p : Fin 4) (q : W16) origin corr t2 c s, Quiet s → syncUsed s p = true → s.time.servo = .locked → s.time.badRun < 3 →
    s.time.twoStep = some (q.toNat, t2, c) →
    ∃ t, exec (.followUp dt p q origin corr) s = .next t ∧
      Tracked (offsetOf s p origin t2 (c + corr))
        { elapse dt s with time := { s.time with lastSync := (origin + (c + corr), t2), twoStep := none } } t) ∧
  (∀ dt (p : Fin 4) (q : W16) (origin : Nat) corr s, Quiet s → syncUsed s p = true → s.time.servo ≠ .locked →
    let off := offsetOf s p (origin : Nat) ((ptpTotalNs (elapse dt s) : Int) - ingressLatency s p) corr
    stepLimit s < off.natAbs → lockThreshold s < off.natAbs →
    ∃ t, exec (.sync dt p q false origin corr) s = .next t ∧ t.time.servo = .acquiring ∧ t.time.offset = off ∧
      t.time.steps = s.time.steps + 1 ∧ t.time.lockRun = 0 ∧
      t.clock = { (elapse dt s).clock with ptp := (((elapse dt s).clock.ptp : Int) - off * nsUnit).toNat } ∧ t.out = s.out ∧
      t.hif = s.hif ∧ t.vax = s.vax) ∧
  (∀ dt k s, Quiet s → timeRuns s = true → s.time.servo = .locked → k = .noSync ∨ k = .linkDown →
    ∃ t, exec (.syncTimeout dt k) s = .next t ∧ t.time.servo = .holdover ∧ t.time.heldFromPps = false ∧
      t.time.heldSince = (elapse dt s).clock.real ∧ t.time.lockedUs = none ∧ t.clock = { (elapse dt s).clock with increment := s.time.freqEst } ∧
      t.time.master = s.time.master ∧ t.out = s.out ∧ t.hif = s.hif) ∧
  (∀ dt s, Quiet s → timeRuns s = true → s.time.servo = .holdover → ptpRole s = 2 → s.time.isMaster = true →
    s.time.heldSince + 3600000000 ≤ (elapse dt s).clock.real →
    ∃ t, exec (.holdoverTimeout dt) s = .next t ∧ t.time.servo = .gmFree ∧ t.time.freeFromHold = true ∧
      t.clock = (elapse dt s).clock ∧ t.out = s.out ∧ t.hif = s.hif) ∧
  (∀ dt rising sec s, Quiet s → timeRuns s = true → rising ≠ bit (ptpConfig s) 2 → s.time.atPps = some sec →
    ∃ t, exec (.ppsEdge dt rising) s = .next t ∧ ptpTotalNs t = sec * 1000000000 ∧ t.time.atPps = none ∧
      t.time.steps = s.time.steps + 1 ∧ t.time.fromRtc = false ∧ t.clock.mono = (elapse dt s).clock.mono ∧ t.vax = s.vax ∧
      (∀ tag e, s.hif.tags = [(tag, .executing e)] → e.wait = .pps → ∃ h, tagOf t tag = some (.held h) ∧ h.status = stOK)) ∧
  (∀ dt rising s, Quiet s → timeRuns s = true → rising ≠ bit (ptpConfig s) 2 → s.time.atPps = none → ptpRole s = 2 →
    ppsEnable s = true → s.time.isMaster = true → s.time.servo = .gmPps → s.time.badRun < 3 →
    ∃ t, exec (.ppsEdge dt rising) s = .next t ∧
      Tracked (ppsOffset (elapse dt s))
        { elapse dt s with time := { s.time with ppsUs := some (elapse dt s).clock.real } } t)

/-- An Announce that a slave-only clock without a master takes on its port selects the sender and brings its UTC offset and leap
(R423, R434). Delay requests go out with their send times, and their answers give the delays: half the round trip less what the
answer carries (R423). A received Pdelay_Req is answered, and a master sends Announce and Sync on every port with PTP_ENABLE
(R423). The result of a reference window is INCREMENT within its range in FREE_RUN (R425, R429), and a pending leap second
changes the UTC offset at its boundary (R434). Log entry 26 says what of it is the model's choice. -/
def Obligations.OrdinaryClockEventsComplete : Prop :=
  (∀ dt (p : Fin 4) (a : AnnounceMsg) s, Quiet s → timeRuns s = true → ptpRole s = 1 → p.val = ptpPort s →
    ptpEnable s p = true → a.domain.toNat = bits (ptpConfig s) 31 24 → s.time.master = none → a.utcValid = true →
    ∃ t m, exec (.announce dt p a) s = .next t ∧ t.time.master = some m ∧ m.identity = a.identity.toNat ∧
      m.priority1 = a.priority1.toNat ∧ m.steps = a.steps.toNat ∧ m.port = p ∧ t.time.isMaster = false ∧
      t.time.utcOffset = a.utcOffset.toInt ∧ t.time.leap = (if a.leap61 then 1 else if a.leap59 then 2 else 0) ∧
      t.time.utcValid = true ∧ t.time.servo = s.time.servo ∧ t.clock = (elapse dt s).clock ∧ t.out = s.out ∧ t.hif = s.hif) ∧
  (∀ dt (p : Fin 4) (q : W16) s, Quiet s → timeRuns s = true → peerToPeer s = true → ptpEnable s p = true →
    exec (.pdelayReq dt p q) s =
      .next { elapse dt s with out := s.out ++ [.ptp p 3 q.toNat (ptpTotalNs (elapse dt s))] }) ∧
  (∀ dt s, Quiet s → timeRuns s = true → peerToPeer s = true →
    ∃ v, exec (.pdelayReqSend dt) s =
        .next { elapse dt s with
          time := { s.time with pdelayReq := v, seqOut := s.time.seqOut + 1 },
          out := s.out ++ ((List.range 4).filter (ptpEnable s)).map fun p =>
            .ptp p 2 s.time.seqOut.toNat (ptpTotalNs (elapse dt s) + egressLatency s p) } ∧
      ∀ p : Fin 4, v[p] = if ptpEnable s p then
        some (s.time.seqOut.toNat, (ptpTotalNs (elapse dt s) + egressLatency s p : Int)) else s.time.pdelayReq[p]) ∧
  (∀ dt (p : Fin 4) (q : W16) corr t1 s, Quiet s → timeRuns s = true → peerToPeer s = true → ptpEnable s p = true →
    s.time.pdelayReq[p] = some (q.toNat, t1) →
    ∃ d, exec (.pdelayResp dt p q corr) s =
        .next { elapse dt s with time := { s.time with
          pdelayReq := s.time.pdelayReq.set p none, linkDelay := s.time.linkDelay.set p d,
          pathDelay := if p.val = ptpPort s then d else s.time.pathDelay } } ∧
      d = min (((ptpTotalNs (elapse dt s) : Int) - ingressLatency s p - t1 - corr) / 2).toNat 0xFFFFFFFF) ∧
  (∀ dt s, Quiet s → timeRuns s = true → ptpRole s ≠ 0 → peerToPeer s = false → s.time.master.isSome = true →
    exec (.delayReqSend dt) s =
      .next { elapse dt s with
        time := { s.time with
          delayReq := some (s.time.seqOut.toNat, (ptpTotalNs (elapse dt s) + egressLatency s (ptpPort s) : Nat)),
          seqOut := s.time.seqOut + 1 },
        out := s.out ++
          [.ptp (ptpPort s) 1 s.time.seqOut.toNat (ptpTotalNs (elapse dt s) + egressLatency s (ptpPort s))] }) ∧
  (∀ dt (p : Fin 4) (q : W16) t4 corr t3 s, Quiet s → syncUsed s p = true → peerToPeer s = false →
    s.time.delayReq = some (q.toNat, t3) →
    exec (.delayResp dt p q t4 corr) s =
      .next { elapse dt s with time := { s.time with
        delayReq := none,
        pathDelay := min
          ((((s.time.lastSync.2 - s.time.lastSync.1) + ((t4 : Int) - t3 - corr)) / 2).toNat) 0xFFFFFFFF } }) ∧
  (∀ dt ann s, Quiet s → timeRuns s = true → ptpRole s = 2 → s.time.isMaster = true →
    exec (.syncAnnounceSend dt ann) s =
      .next { elapse dt s with
        time := { s.time with seqOut := s.time.seqOut + 1 },
        out := s.out ++ ((List.range 4).filter (ptpEnable s)).map fun p =>
          if ann then .ptp p 0xB s.time.seqOut.toNat (clockClass s)
          else .ptp p 0 s.time.seqOut.toNat (ptpTotalNs (elapse dt s) + egressLatency s p) }) ∧
  (∀ dt r s, Quiet s → timeRuns s = true → s.rtc.hasLearned = true → s.time.servo = .freeRun →
    exec (.rtcReferenceWindow dt r) s =
      .next { elapse dt s with clock := { (elapse dt s).clock with
        increment := max 0x03FEF9DB23 (min r 0x04010624DD) } }) ∧
  (∀ dt s, Quiet s → timeRuns s = true → s.time.leap = 1 →
    s.time.leapAt + 1 ≤ ((ptpSec (elapse dt s) : Int) - s.time.utcOffset).toNat →
    exec (.leapSecond dt) s =
      .next { elapse dt s with time := { s.time with utcOffset := s.time.utcOffset + 1, leap := 0, leapAt := 0 } }) ∧
  (∀ dt s, Quiet s → timeRuns s = true → s.time.leap = 2 →
    s.time.leapAt ≤ ((ptpSec (elapse dt s) : Int) - s.time.utcOffset).toNat + 1 →
    ∃ t, exec (.leapSecond dt) s = .next t ∧
      t.time = { s.time with utcOffset := s.time.utcOffset - 1, leap := 0, leapAt := 0 } ∧ t.clock = (elapse dt s).clock ∧
      t.bill = s.bill ∧ t.mth = s.mth)

/-- A trigger output goes active when the clock reaches its next instant, which then moves on by its period, and inactive when the end
of its pulse, WIDTH_NS after that instant, is reached (R435; a pulse still active keeps the later end, the model's choice, log 124). A
selected edge enters the ring of 64 with its time, and is only counted when the ring is full (R438). The page then takes the newest
four records of each input and its sequence goes on (R439); the ring is emptied, the model's choice (log 125). -/
def Obligations.TriggersAndCapturesComplete : Prop :=
  (∀ dt (k : Fin 8) s, Quiet s → triggersRun s = true → (s.time.triggers[k]).on = true → (s.time.triggers[k]).period ≠ 0 →
    ((s.time.triggers[k]).count = 0 ∨ (s.time.triggers[k]).made < (s.time.triggers[k]).count) →
    (s.time.triggers[k]).next ≤ ptpTotalNs (elapse dt s) →
    exec (.triggerPulseStart dt k) s =
      .next { elapse dt s with time := { s.time with
        triggers := s.time.triggers.set k { s.time.triggers[k] with
          level := true,
          endAt :=
            if (s.time.triggers[k]).level then
              max (s.time.triggers[k]).endAt ((s.time.triggers[k]).next + (s.time.triggers[k]).width)
            else (s.time.triggers[k]).next + (s.time.triggers[k]).width,
          next := (s.time.triggers[k]).next + (s.time.triggers[k]).period,
          made := if (s.time.triggers[k]).count = 0 then 0 else (s.time.triggers[k]).made + 1 } } }) ∧
  (∀ dt (k : Fin 8) s, Quiet s → triggersRun s = true → (s.time.triggers[k]).on = true → (s.time.triggers[k]).period = 0 →
    (s.time.triggers[k]).made = 0 → (s.time.triggers[k]).level = false → (s.time.triggers[k]).next ≤ ptpTotalNs (elapse dt s) →
    exec (.triggerPulseStart dt k) s =
      .next { elapse dt s with time := { s.time with
        triggers := s.time.triggers.set k { s.time.triggers[k] with
          level := true, endAt := (s.time.triggers[k]).next + (s.time.triggers[k]).width, made := 1 } } }) ∧
  (∀ dt (k : Fin 8) s, Quiet s → (s.time.triggers[k]).level = true →
    (s.time.triggers[k]).endAt ≤ ptpTotalNs (elapse dt s) →
    exec (.triggerPulseEnd dt k) s =
      .next { elapse dt s with time := { s.time with
        triggers := s.time.triggers.set k { s.time.triggers[k] with level := false } } }) ∧
  (∀ dt (n : Fin 4) rising s, Quiet s → triggersRun s = true →
    (if rising then bit (getP s (0x0D1D + n)) 0 else bit (getP s (0x0D1D + n)) 1) = true →
    exec (.captureEdge dt n rising) s =
      .next { elapse dt s with time := { s.time with
        captures := s.time.captures.set n
          (if 64 ≤ (s.time.captures[n]).ring.length then
            { s.time.captures[n] with overrun := (s.time.captures[n]).overrun + 1 }
          else
            { s.time.captures[n] with
              count := (s.time.captures[n]).count + 1,
              ring := ⟨(s.time.captures[n]).count + 1, rising, ⟨ptpSec (elapse dt s), ptpNs (elapse dt s)⟩⟩ ::
                (s.time.captures[n]).ring }) } }) ∧
  (∀ dt s, Quiet s → triggersRun s = true → (∃ n : Fin 4, (s.time.captures[n]).ring ≠ []) →
    ∃ t, exec (.capturePagePublish dt) s = .next t ∧ t.time.pageSeq = s.time.pageSeq + 1 ∧
      t.time.page.now = capturePage t (s.time.pageSeq + 1).toNat ∧
      (∀ n : Fin 4, t.time.captures[n] =
        { s.time.captures[n] with
          ring := [], newest := ((s.time.captures[n]).ring ++ (s.time.captures[n]).newest).take 4 }) ∧
      t = { elapse dt s with time := { s.time with
        captures := t.time.captures, page := t.time.page, pageSeq := t.time.pageSeq } })

/-! ### Calendar, event recorder and display -/

/-- At a second boundary on which nothing else is due the calendar advances by one second within the 400-year cycle (R444,
R445), and an enabled alarm that matches the new second and not the one before fires, in a repeated hour only with HOUR masked
(R454, R456). An inserted leap second is shown without an advance (R449), and a pending forward adjustment moves the calendar by
an hour more and completes its command (R452). A temperature sample recomputes the trim, a learning window moves the two learned
points about its temperature within ±20,000 ppb, and the learned table is saved (R458, R459). Log entry 29 says what of it is
the model's choice. -/
def Obligations.CalendarEventsComplete : Prop :=
  (∀ dt s, Quiet s → rtcAlone s = false → s.time.leap = 0 → s.rtc.leapSkip = none → s.rtc.dstPending = none →
    s.rtc.stepDue = none →
    ∃ t, exec (.secondBoundary dt) s = .next t ∧ t.rtc.cal = (s.rtc.cal + 1) % cycleSec ∧
      t.rtc.wrapped = (s.rtc.wrapped || decide (cycleSec ≤ s.rtc.cal + 1)) ∧ t.rtc.since = (elapse dt s).clock.real ∧
      t.rtc.dst = s.rtc.dst ∧ t.rtc.adjustments = s.rtc.adjustments ∧
      (∀ k : Fin 2, bit (fld s.rtc.alarms[k] 0 1) 0 = true → (s.rtc.repeated = false ∨ bit (fld s.rtc.alarms[k] 1 1) 2 = true) →
        s.rtc.fired[k] = none →
        alarmMatch s.rtc.alarms[k] ((s.rtc.cal + 1) % cycleSec) = true → alarmMatch s.rtc.alarms[k] s.rtc.cal = false →
        (if k = 0 then t.rtc.alarm0 else t.rtc.alarm1) = true ∧ t.rtc.fired[k] = some (monoUs (elapse dt s))) ∧
      (∀ k : Fin 2, s.rtc.repeated = true → (s.rtc.cal + 1) % cycleSec < s.rtc.repEnd → bit (fld s.rtc.alarms[k] 1 1) 2 = false →
        t.rtc.fired[k] = s.rtc.fired[k] ∧ (if k = 0 then t.rtc.alarm0 = s.rtc.alarm0 else t.rtc.alarm1 = s.rtc.alarm1)) ∧
      t.clock = (elapse dt s).clock ∧ t.time = s.time ∧ t.hif = s.hif ∧ t.out = s.out) ∧
  (∀ dt s, Quiet s → rtcAlone s = false → pendingOf s 0x0E13 = none → s.time.leap = 1 →
    utcOfCal s (s.rtc.cal + 1) = s.time.leapAt → s.rtc.leapShown ≠ s.time.leapAt →
    exec (.secondBoundary dt) s =
      .next { elapse dt s with rtc := { (countCycles (elapse dt s)).rtc with
        since := (elapse dt s).clock.real, leapShown := s.time.leapAt } }) ∧
  (∀ dt s, Quiet s → rtcAlone s = false → s.time.leap = 0 → s.rtc.leapSkip = none → s.rtc.dstPending = some true →
    s.rtc.cal + 1 < cycleSec →
    ∃ t, exec (.secondBoundary dt) s = .next t ∧ t.rtc.cal = s.rtc.cal + 1 + 3600 ∧ t.rtc.dst = true ∧
      t.rtc.repeated = false ∧ t.rtc.dstPending = none ∧ t.rtc.adjustments = s.rtc.adjustments + 1 ∧ t.time = s.time ∧
      (∀ tag e, s.hif.tags = [(tag, .executing e)] → e.wait = .rtcDst →
        ∃ h, tagOf t tag = some (.held h) ∧ h.status = stOK)) ∧
  (∀ dt x s, Quiet s →
    ∃ t, exec (.rtcTemperatureSample dt x) s = .next t ∧ t.rtc = { s.rtc with temp := x, trim := trimAt t x } ∧
      t.time = s.time ∧ t.clock = (elapse dt s).clock ∧ t.pio = s.pio) ∧
  (∀ dt r mean span u s, Quiet s → timeRuns s = true → servoLocked s = true → s.time.lockedUs = some u →
    u + 60000000 ≤ (elapse dt s).clock.real → span ≤ 200 →
    let kw := trimPlace mean
    ∃ v, exec (.rtcLearningWindow dt r mean span) s =
        .next { elapse dt s with rtc := { s.rtc with learned := v, hasLearned := true } } ∧
      vget v kw.1 0 =
        max (-20000) (min 20000 (vget s.rtc.learned kw.1 0 + roundDiv (r * (1000 - kw.2 : Nat)) 8000)) ∧
      vget v (kw.1 + 1) 0 = max (-20000) (min 20000 (vget s.rtc.learned (kw.1 + 1) 0 + roundDiv (r * kw.2) 8000)) ∧
      ∀ i : Fin 17, i.val ≠ kw.1 → i.val ≠ kw.1 + 1 → v[i] = s.rtc.learned[i]) ∧
  (∀ dt s, Quiet s → timeRuns s = true →
    exec (.learnedTableSave dt) s =
      .next { elapse dt s with rtc := { s.rtc with saved := s.rtc.learned, savedAny := s.rtc.hasLearned } })

/-- The oldest staged posting moves into the ring of its class under the next sequence number (R480, R483, R486, R487). A
window's end writes the EVR_SUPPRESSED entry of the one code limited in it and opens a new window (R483, R484). The counters are
copied to the older area (R482). At a whole second each value channel of sources 1, 2, 3 and 5 takes its sample, and at an hour
that is no midnight the hourly period of each configured channel closes with its record and the next opens (R488, R489). Nothing
but the recorder changes. Log entry 82 says what of it is the model's choice. -/
def Obligations.RecorderEventsComplete : Prop :=
  (∀ dt p rest s, Quiet s → evrRuns s = true → s.evr.staging = p :: rest → s.evr.heldPosts = [] → eventClass p.code = some 0 →
    exec (.stagingDrain dt) s =
      .next { elapse dt s with evr := { s.evr with
        staging := rest, logSeq := s.evr.logSeq + 1,
        log := (⟨(s.evr.logSeq + 1).toNat, false, p⟩ :: s.evr.log).take 12288,
        logOverwritten := if 12288 ≤ s.evr.log.length then s.evr.logOverwritten + 1 else s.evr.logOverwritten } }) ∧
  (∀ dt p rest s, Quiet s → evrRuns s = true → s.evr.staging = p :: rest → s.evr.heldPosts = [] → eventClass p.code = some 1 →
    exec (.stagingDrain dt) s =
      .next { elapse dt s with evr := { s.evr with
        staging := rest, generalSeq := s.evr.generalSeq + 1,
        general := (⟨s.evr.generalSeq + 1, false, p⟩ :: s.evr.general).take 12288,
        auditOverwritten :=
          if 12288 ≤ s.evr.general.length then s.evr.auditOverwritten + 1 else s.evr.auditOverwritten } }) ∧
  (∀ dt p rest s, Quiet s → evrRuns s = true → s.evr.staging = p :: rest → s.evr.heldPosts = [] → eventClass p.code = some 2 →
    s.evr.metro.length < 4096 →
    exec (.stagingDrain dt) s =
      .next { elapse dt s with evr := { s.evr with
        staging := rest, metroSeq := s.evr.metroSeq + 1, metro := ⟨s.evr.metroSeq + 1, false, p⟩ :: s.evr.metro } }) ∧
  (∀ dt c n s, Quiet s → evrRuns s = true → s.sys.mode ≠ .boot → s.evr.winLimited = [(c, n)] → eventClass c = some 0 →
    ∃ t x, exec (.evrWindowEnd dt) s = .next t ∧ t.evr.winLimited = [] ∧ t.evr.winRecorded = [] ∧
      t.evr.log = (x :: s.evr.log).take 12288 ∧ x.seq = (s.evr.logSeq + 1).toNat ∧ x.post.code = 0x1001 ∧ x.post.index = c ∧
      x.post.summary = true ∧ x.post.data.take 4 = le 4 n ∧ x.post.at_ = tickStamp (elapse dt s) ∧
      t.evr.staging = s.evr.staging ∧ t.evr.general = s.evr.general ∧ t.evr.metro = s.evr.metro ∧ t.pio = s.pio) ∧
  (∀ dt s, Quiet s → evrRuns s = true →
    exec (.counterCopy dt) s =
      .next { elapse dt s with evr :=
        if s.evr.copyB.stamp < s.evr.copyA.stamp then
          { s.evr with copyB := ⟨s.evr.copyA.stamp + 1, true, s.evr.counts⟩ }
        else { s.evr with copyA := ⟨s.evr.copyB.stamp + 1, true, s.evr.counts⟩ } }) ∧
  (∀ dt s, Quiet s → pioRuns s = true → (tickStamp (elapse dt s)).ns = 0 → s.evr.sampled ≠ some (monoUs (elapse dt s)) →
    ∃ v, exec (.recordSample dt) s =
        .next { elapse dt s with evr := { s.evr with channels := v, sampled := some (monoUs (elapse dt s)) } } ∧
      ∀ r : Fin 32,
        if recSource s r ∈ [1, 2, 3, 5] then
          (v[r]).hours = (s.evr.channels[r]).hours ∧ (v[r]).days = (s.evr.channels[r]).days ∧
          (match recValue (elapse dt s) r with
            | some x =>
              (v[r]).hour = takeInto (recBin s r x) x (ptpSec (elapse dt s)) (s.evr.channels[r]).hour ∧
              (v[r]).day = takeInto (recBin s r x) x (ptpSec (elapse dt s)) (s.evr.channels[r]).day
            | none =>
              (v[r]).hour = { (s.evr.channels[r]).hour with invalid := (s.evr.channels[r]).hour.invalid + 1 } ∧
              (v[r]).day = { (s.evr.channels[r]).day with invalid := (s.evr.channels[r]).day.invalid + 1 })
        else v[r] = s.evr.channels[r]) ∧
  (∀ dt s, Quiet s → meterSec (elapse dt s) % 3600 = 0 → meterSec (elapse dt s) % 86400 ≠ 0 →
    ∃ v, exec (.periodClose dt) s = .next { elapse dt s with evr := { s.evr with channels := v } } ∧
      ∀ r : Fin 32,
        if recSource s r ≠ 0 ∧ (s.evr.channels[r]).hour.met ≠ some (meterSec (elapse dt s)) then
          (v[r]).hours =
            (periodClosed s r 0 (ptpSec (elapse dt s)) (s.evr.channels[r]).hour :: (s.evr.channels[r]).hours).take 48 ∧
          (v[r]).hour.seq = (s.evr.channels[r]).hour.seq + 1 ∧ (v[r]).hour.start = ptpSec (elapse dt s) ∧
          (v[r]).hour.met = some (meterSec (elapse dt s)) ∧
          (v[r]).hour.samples = 0 ∧ (v[r]).hour.flags = 0 ∧ (v[r]).day = (s.evr.channels[r]).day ∧
          (v[r]).days = (s.evr.channels[r]).days
        else v[r] = s.evr.channels[r])

/-- The one request in the queue starts if it may: one of all lines is driven with its band and its changed lines under the
supply, one of a host region without changed lines completes at once (R470). A phase counts, and the last one makes the changed
lines the current image and completes the update (R462, R472). An update whose supply does not come within 50 ms completes
without a phase; the supply is noted good, and goes off 100 ms after the last update has ended (R470). A panel sample gives the
temperature (R466), a scan that fails starts recovery with CLEAR of the whole panel (R474, R475), and both strips are requested
with FULL (R477). Log entries 30 and 86 say what of it is the model's choice. -/
def Obligations.DisplayEventsComplete : Prop :=
  (∀ dt r s, Quiet s → epdRuns s = true → s.epd.queue = [r] → epdEligible s r = true → r.all = true → 0 < r.rect.h →
    ∃ t u, exec (.updateStart dt) s = .next t ∧ t.epd.queue = [] ∧ t.epd.running = s.epd.running ++ [u] ∧ u.req = r ∧
      u.lines = (List.range r.rect.h).map (· + r.rect.y) ∧ u.count = r.rect.h ∧
      u.band = (if tempInvalid (elapse dt s) then bits (tempConfig s) 10 8 else s.epd.band) ∧ u.drift = false ∧
      t.epd.power = true ∧ t.epd.updates = s.epd.updates ∧ t.hif = s.hif ∧ t.pio = s.pio) ∧
  (∀ dt r s, Quiet s → epdRuns s = true → s.epd.queue = [r] → epdEligible s r = true → r.all = false → 2 ≤ r.region →
    changedLines r.rect s.epd.canvas s.epd.current = [] →
    ∃ t, exec (.updateStart dt) s = .next t ∧ t.epd.queue = [] ∧ t.epd.updates = s.epd.updates + 1 ∧
      t.epd.current = s.epd.current ∧ t.epd.target = s.epd.target ∧ t.epd.power = s.epd.power ∧
      (∀ tag e, s.hif.tags = [(tag, .executing e)] → e.wait = .display r.id →
        ∃ h, tagOf t tag = some (.held h) ∧ h.status = stOK)) ∧
  (∀ dt u s, Quiet s → epdRuns s = true → s.epd.power = true → s.epd.good = true → s.epd.running = [u] → 1 < u.left →
    exec (.displayPhase dt) s =
      .next { elapse dt s with epd := { s.epd with running := [{ u with left := u.left - 1 }] } }) ∧
  (∀ dt u s, Quiet s → epdRuns s = true → s.epd.power = true → s.epd.good = true → s.epd.running = [u] → u.left = 1 →
    ∃ t, exec (.displayPhase dt) s = .next t ∧ t.epd.running = [] ∧ t.epd.updates = s.epd.updates + 1 ∧
      t.epd.current = copyLines u.req.rect u.lines s.epd.target s.epd.current ∧ t.epd.canvas = s.epd.canvas ∧
      t.epd.bandDrifts = (if u.drift then s.epd.bandDrifts + 1 else s.epd.bandDrifts) ∧
      (∀ tag e, s.hif.tags = [(tag, .executing e)] → e.wait = .display u.req.id →
        ∃ h, tagOf t tag = some (.held h) ∧ h.status = stOK)) ∧
  (∀ dt u s, Quiet s → epdRuns s = true → s.epd.power = true → s.epd.good = false → s.epd.running = [u] →
    u.startUs + 50000 ≤ monoUs (elapse dt s) →
    ∃ t, exec (.epdPower dt) s = .next t ∧ t.epd.running = [] ∧ t.epd.updates = s.epd.updates + 1 ∧
      t.epd.current = s.epd.current ∧
      (∀ tag e, s.hif.tags = [(tag, .executing e)] → e.wait = .display u.req.id →
        ∃ h, tagOf t tag = some (.held h) ∧ h.status = stOK)) ∧
  (∀ dt s, Quiet s → s.epd.power = true →
    exec (.epdPowerGood dt) s = .next { elapse dt s with epd := { s.epd with good := true } }) ∧
  (∀ dt s, Quiet s → s.epd.running = [] → s.epd.endUs + 100000 ≤ monoUs (elapse dt s) →
    exec (.epdPowerOff dt) s = .next { elapse dt s with epd := { s.epd with power := false, good := false } }) ∧
  (∀ dt (v : BitVec 16) s, Quiet s → epdRuns s = true → pendingOf s 0x0F11 = none → tempConfig s % 4 = 2 →
    ∃ t, exec (.panelTemperatureSample dt (some v)) s = .next t ∧ t.epd.temp = some (v.toInt * 2 ^ 24) ∧
      t.epd.sampleUs = (elapse dt s).clock.real ∧
      t.epd.band = (if s.epd.temp = none then bandOf (v.toInt * 2 ^ 24) else bandNext s.epd.band (v.toInt * 2 ^ 24)) ∧
      t.epd.current = s.epd.current ∧ t.epd.updates = s.epd.updates ∧ t.cfg = s.cfg ∧ t.pio = s.pio) ∧
  (∀ dt ok s, Quiet s → epdRuns s = true → s.epd.recovery = false →
    ∃ t, exec (.displayScan dt ok) s = .next t ∧
      (ok = true → t.epd = s.epd ∧ t.evr = s.evr) ∧
      (ok = false → t.epd.recovery = true ∧ t.epd.crcErrors = s.epd.crcErrors + 1 ∧
        (∃ r, t.epd.queue = r :: s.epd.queue ∧ r.region = 16 ∧ r.waveform = 0 ∧ r.all = true) ∧
        t.epd.current = s.epd.current) ∧ t.hif = s.hif) ∧
  (∀ dt s, Quiet s → epdRuns s = true → s.epd.queue = [] →
    ∃ t a b, exec (.stripRefresh dt) s = .next t ∧ t.epd.queue = [a, b] ∧ a.region = 0 ∧ b.region = 1 ∧ a.waveform = 1 ∧
      b.waveform = 1 ∧ t.epd.running = s.epd.running ∧ t.hif = s.hif)

/-! ### Security, tamper detection, integrity and snapshots -/

/-- Re-masking leaves every key as it was (R494), and a failed health test stops the random output (R498). A staged image that
passes verification is kept at STAGE 3, one that fails at STAGE 4 with its code (R514, R517); a pending image of classes 4 to 7
switches at its switch point if its self-test passes and is reverted otherwise (R518). A sign that is a detection of an armed
source latches the tamper, zeroises every key and, where the tick ends with it, enters LOCKDOWN from a mode with codes 2 to 8
(R520, R522, R523); one mismatch of a mesh loop is only counted, the second in succession is a detection (R520). Log entries 89
and 90 say what of it is the model's choice. -/
def Obligations.SecurityEventsComplete : Prop :=
  (∀ dt s, Quiet s → Canonical s = true → s.sys.inReset = false → s.sys.mode ≠ .backup → s.sec.trngStopped = false →
    ∃ t, exec (.remask dt) s = .next t ∧ (∀ n, slotKey t n = slotKey s n) ∧ t.sec.slots.map (·.1) = s.sec.slots.map (·.1) ∧
      t.sec.remasks = s.sec.remasks + 1 ∧
      t = { elapse dt s with
        sec := { s.sec with slots := t.sec.slots, remasks := s.sec.remasks + 1 }, draws := s.draws + s.sec.slots.length }) ∧
  (∀ dt s, Quiet s → s.sys.inReset = false → s.sys.mode ≠ .backup →
    exec (.trngHealthFailure dt) s =
      .next { elapse dt s with sec := { s.sec with trngFailures := s.sec.trngFailures + 1, trngStopped := true } }) ∧
  (∀ dt (cls : Fin 8) readable classOk s, Quiet s → 1 ≤ cls.val → (imageOf s cls).stage = 2 →
    let x := imageOf s cls
    let code := imageCode s cls ⟨x.received.take 512, x.received.drop 512⟩ readable classOk
    ∃ t, exec (.imageVerificationComplete dt cls readable classOk) s = .next t ∧
      (imageOf t cls).stage = (if code = 0 then 3 else 4) ∧ (imageOf t cls).verify = code ∧
      imageSlot (imageOf t cls) (!x.running) = .held ⟨x.received.take 512, x.received.drop 512⟩ ∧
      imageSlot (imageOf t cls) x.running = imageSlot x x.running ∧ (imageOf t cls).running = x.running ∧
      (∀ c, 1 ≤ c → c ≠ cls.val → imageOf t c = imageOf s c) ∧
      (∀ tag e, s.hif.tags = [(tag, .executing e)] → e.wait = .imageVerify cls →
        ∃ h, tagOf t tag = some (.held h) ∧ h.status = stOK)) ∧
  (∀ dt (cls : Fin 8) restart s, Quiet s → 4 ≤ cls.val → (imageOf s cls).stage = 5 → atSwitchPoint cls s = true →
    let x := imageOf s cls
    ∃ t, exec (.imageSwitch dt cls restart true) s = .next t ∧ (imageOf t cls).running = !x.running ∧
      (imageOf t cls).selector = !x.running ∧ (imageOf t cls).version = slotVersion (imageSlot x (!x.running)) ∧
      (imageOf t cls).counter = max x.counter (slotRollback (imageSlot x (!x.running))) ∧
      (∀ c, 1 ≤ c → c ≠ cls.val → imageOf t c = imageOf s c) ∧
      (∀ tag e, s.hif.tags = [(tag, .executing e)] → e.wait = .imageSwitch cls →
        ∃ h, tagOf t tag = some (.held h) ∧ h.status = stOK)) ∧
  (∀ dt (cls : Fin 8) restart s, Quiet s → 4 ≤ cls.val → (imageOf s cls).stage = 5 → atSwitchPoint cls s = true →
    ∃ t, exec (.imageSwitch dt cls restart false) s = .next t ∧
      imageOf t cls = { imageOf s cls with stage := 4, verify := 7 } ∧
      (∀ c, 1 ≤ c → c ≠ cls.val → imageOf t c = imageOf s c)) ∧
  (∀ dt x k s, Quiet s → tickGoesOn s.pending = false → tamperSource x (elapse dt s) = some k → tampArmed s k = true →
    2 ≤ s.sys.mode.code → s.sys.mode.code ≤ 8 →
    ∃ t, exec (.tamper dt x) s = .next t ∧ t.sys.mode = .lockdown ∧ t.sys.cause = 5 ∧ t.sec.slots = [] ∧ t.sec.keysLoaded = false ∧
      t.tamp.set_ = true ∧ bit t.tamp.sources k = true ∧
      t.tamp.count = (if s.tamp.count = 0xFFFFFFFF then s.tamp.count else s.tamp.count + 1) ∧
      t.tamp.first = (if s.tamp.set_ then s.tamp.first else ptpSec (elapse dt s)) ∧ t.sec.records = s.sec.records ∧
      t.sec.hostKeys = s.sec.hostKeys ∧ t.cfg = s.cfg) ∧
  (∀ dt (loop : Fin 2) s, Quiet s → tampArmed s loop = true → s.sys.mode ≠ .boot → s.tamp.meshRun[loop] = 0 →
    exec (.meshComparison dt loop true) s =
      .next { elapse dt s with tamp := { s.tamp with
        meshMismatches := s.tamp.meshMismatches + 1, meshRun := s.tamp.meshRun.set loop 1 } }) ∧
  (∀ dt (loop : Fin 2) s, Quiet s → tickGoesOn s.pending = false → tampArmed s loop = true → 2 ≤ s.sys.mode.code → s.sys.mode.code ≤ 8 →
    s.tamp.meshRun[loop] = 1 →
    ∃ t, exec (.meshComparison dt loop true) s = .next t ∧ t.sys.mode = .lockdown ∧ t.sec.slots = [] ∧ t.tamp.set_ = true ∧
      bit t.tamp.sources loop = true ∧ t.tamp.meshMismatches = s.tamp.meshMismatches)

/-- A scrub pass counts a word whose wrong bits its memory corrects against the word's block, and marks, counts and records one
that it cannot correct and that is not marked yet (R529 to R532); code of the supervisor that is then executed from it is a
fault (R529, R540). A watchdog expiry restarts its engine, or enters FAULT with a record where the tick ends with it: at once
for core 0, for the Cloister, which zeroises, and for the axes, and for another core at its second expiry within 600 s (R533,
R541). A snapshot source fixes the snapshot tick while the trigger is armed and that tick has not begun, and is counted as
missed otherwise (R535, R536); at that tick the sections are latched under the next number and the trigger disarms (R536 to
R538). Log entries 53 and 60 say what of it is the model's choice. -/
def Obligations.IntegrityEventsComplete : Prop :=
  (∀ dt (f : ScrubFinding) s, Quiet s → Canonical s = true → mainRuns s = true → f.mem.val ∈ [1, 2, 3, 5, 6, 7, 10, 11] → 0 < f.bits →
    f.bits ≤ (if f.mem.val = 11 then 2 else 1) →
    let k := memBlock f.mem.val f.addr.toNat f.owner.val
    ∃ t, exec (.scrubPass dt [f]) s = .next t ∧
      tableGet (fun _ => 0) t.intg.ceCount k = (tableGet (fun _ => 0) s.intg.ceCount k + 1) % 2 ^ 32 ∧
      (∀ b, b ≠ k → tableGet (fun _ => 0) t.intg.ceCount b = tableGet (fun _ => 0) s.intg.ceCount b) ∧
      t.intg.marked = s.intg.marked ∧ t.intg.blockErrors = s.intg.blockErrors ∧ t.intg.scrubPos = 0 ∧ t.evr = s.evr) ∧
  (∀ dt (f : ScrubFinding) s, Quiet s → Canonical s = true → mainRuns s = true → f.mem.val ∈ [1, 2, 3, 5, 6, 7, 10, 11] →
    (if f.mem.val = 11 then 2 else 1) < f.bits → f.used = none → s.intg.marked.contains (f.mem.val, f.addr.toNat) = false →
    let k := memBlock f.mem.val f.addr.toNat f.owner.val
    ∃ t, exec (.scrubPass dt [f]) s = .next t ∧ t.intg.marked = s.intg.marked ++ [(f.mem.val, f.addr.toNat)] ∧
      tableGet (fun _ => 0) t.intg.blockErrors k = (tableGet (fun _ => 0) s.intg.blockErrors k + 1) % 2 ^ 32 ∧
      t.intg.ceCount = s.intg.ceCount ∧ t.sys.mode = s.sys.mode) ∧
  (∀ dt (f : ScrubFinding) s, Quiet s → tickGoesOn s.pending = false → mainRuns s = true → triggerActs s (.fault, 6) = true →
    f.mem.val = 3 → 1 < f.bits → f.used = some .code →
    ∃ t r, exec (.scrubPass dt [f]) s = .next t ∧ t.sys.mode = .fault ∧ t.intg.ring = (r :: s.intg.ring).take 8 ∧ r.cause = 5 ∧
      r.block = 1 ∧ r.detail = le 4 f.addr.toNat) ∧
  (∀ dt s, Quiet s →
    ∃ t, exec (.watchdogExpiry dt .housekeeping) s = .next t ∧ t.intg.wdtRestarts = s.intg.wdtRestarts + 1 ∧ t.sys = s.sys ∧
      t.intg.ring = s.intg.ring) ∧
  (∀ dt (core : Fin 4) (pc : W32) tags s, Quiet s → 1 ≤ core.val → mainRuns s = true → s.sys.mode ≠ .fault →
    s.intg.lastExpiry.toList.getD (core.val - 1) none = none →
    ∃ t, exec (.watchdogExpiry dt (.supervisor core pc tags)) s = .next t ∧ t.intg.wdtRestarts = s.intg.wdtRestarts + 1 ∧
      t.intg.lastExpiry.toList.getD (core.val - 1) none = some (monoUs (elapse dt s)) ∧ t.sys.mode = s.sys.mode ∧
      t.intg.ring = s.intg.ring) ∧
  (∀ dt (core : Fin 4) (pc : W32) tags u s, Quiet s → 1 ≤ core.val → tickGoesOn s.pending = false → mainRuns s = true →
    triggerActs s (.fault, 6) = true →
    s.intg.lastExpiry.toList.getD (core.val - 1) none = some u → monoUs (elapse dt s) ≤ u + 600000000 →
    ∃ t r, exec (.watchdogExpiry dt (.supervisor core pc tags)) s = .next t ∧ t.sys.mode = .fault ∧
      t.intg.ring = (r :: s.intg.ring).take 8 ∧ r.seq = (s.intg.faultCount + 1).toNat ∧ r.cause = 2 ∧ r.block = 1 ∧
      r.detail = le 1 core ++ le 4 pc.toNat ∧ r.mode = s.sys.mode.code ∧ t.intg.wdtRestarts = s.intg.wdtRestarts) ∧
  (∀ dt (pc : W32) tags s, Quiet s → tickGoesOn s.pending = false → mainRuns s = true →
    triggerActs s (.fault, 6) = true →
    ∃ t r, exec (.watchdogExpiry dt (.supervisor 0 pc tags)) s = .next t ∧ t.sys.mode = .fault ∧
      t.intg.ring = (r :: s.intg.ring).take 8 ∧ r.cause = 1 ∧ r.block = 1 ∧ r.detail = le 4 pc.toNat) ∧
  (∀ dt (pc : W32) s, Quiet s → tickGoesOn s.pending = false → mainRuns s = true →
    triggerActs s (.fault, 6) = true →
    ∃ t r, exec (.watchdogExpiry dt (.security pc)) s = .next t ∧ t.sys.mode = .fault ∧
      t.intg.ring = (r :: s.intg.ring).take 8 ∧ r.cause = 3 ∧ r.block = 0x11 ∧ r.detail = le 4 pc.toNat ∧ t.sec.slots = []) ∧
  (∀ dt (pc : W32) s, Quiet s → tickGoesOn s.pending = false → vaxRuns s = true →
    triggerActs s (.fault, 6) = true →
    ∃ t r, exec (.watchdogExpiry dt (.motion pc)) s = .next t ∧ t.sys.mode = .fault ∧
      t.intg.ring = (r :: s.intg.ring).take 8 ∧ r.cause = 4 ∧ r.block = 0x0B ∧ r.detail = le 4 pc.toNat ∧
      ∀ a : Fin 8, (axisOf t a).still = 0 ∧ (axisOf t a).vel = 0 ∧ (axisOf t a).state = .standstill) ∧
  (∀ dt s, Quiet s → sublRuns s = true →
    ∃ t, exec (.watchdogExpiry dt .concourse) s = .next t ∧ t.intg.wdtRestarts = s.intg.wdtRestarts + 1 ∧ t.sys = s.sys ∧
      t.subl = s.subl) ∧
  (∀ dt s, Quiet s → epdRuns s = true →
    ∃ t r, exec (.watchdogExpiry dt .display) s = .next t ∧ t.intg.wdtRestarts = s.intg.wdtRestarts + 1 ∧ t.sys = s.sys ∧
      t.epd.recovery = true ∧ t.epd.queue = r :: s.epd.queue ∧ r.region = 16) ∧
  (∀ dt bad s, Quiet s → mainRuns s = true →
    ∃ t, exec (.watchdogExpiry dt (.metrology bad)) s = .next t ∧ t.intg.wdtRestarts = s.intg.wdtRestarts + 1 ∧
      t.sys = s.sys) ∧
  (∀ dt rising s, Quiet s → timeRuns s = true → rising ≠ bit (getP s 0x1311) 11 → bit (getP s 0x1311) 1 = true →
    exec (.snapInEdge dt rising) s =
      .next { elapse dt s with intg :=
        if s.intg.armed = true ∧ (s.intg.pending = none ∨ monoUs (elapse dt s) ≤ s.intg.pendingUs) then
          { s.intg with
            snapIn := ⟨ptpSec (elapse dt s), ptpNs (elapse dt s)⟩,
            pending := some (Nat.lor (s.intg.pending.getD 0) 2),
            pendingUs := if s.intg.pending.isSome then s.intg.pendingUs else monoUs (elapse dt s) }
        else
          { s.intg with
            snapIn := ⟨ptpSec (elapse dt s), ptpNs (elapse dt s)⟩, snapMissed := s.intg.snapMissed + 1 } }) ∧
  (∀ dt src s, Quiet s → s.intg.pending = some src → s.intg.armed = true → mainRuns s = true →
    s.intg.pendingUs < monoUs (elapse dt s) →
    ∃ t h, exec (.snapshotTick dt) s = .next t ∧
      t.intg = { s.intg with armed := false, held := some h, pending := none, snapSequence := s.intg.snapSequence + 1 } ∧
      h.seq = s.intg.snapSequence + 1 ∧ h.sources = src ∧ h.mode = s.sys.mode.code ∧ h.at_ = tickStamp (elapse dt s) ∧
      h.sections.map (·.1) = (List.range 20).map (· + 1) ∧ t.pio = s.pio ∧ t.ctrl = s.ctrl ∧
      (∀ tag e, s.hif.tags = [(tag, .executing e)] → e.wait = .snapshot →
        ∃ r, tagOf t tag = some (.held r) ∧ r.status = stOK ∧ r.body = le 4 (s.intg.snapSequence + 1).toNat ++ zeros 4))

/-! ### A device pair -/

/-- The shadow takes the active role when no heartbeat has come for the takeover time, in the mode of the last one (R64), and a
listening window ends in SHADOW or in the mode of the boot (R66), or in the active role or the shadow's at the next cut (R65);
the cause of the SHADOW that BOOT leads to is the model's choice (log 101). A heartbeat whose tag fails is counted and otherwise
ignored (R60), one that verifies restarts the takeover timer, and one heard by a device that sends its own records the dual role
(R64, R67). The parts of a cut vector are kept until it is complete (R62); an input image starts its task (R255); a logged
command waits for its tick, and one that comes late clears the qualification and asks for a resynchronisation (R61). A digest
waits for the own one; one that differs clears the qualification and asks for it too, and one that matches counts (R63). The
other messages set what they report (R60, R63). The layouts of the messages are the model's choice (log 44). Log entries 44 and
94 say what of it is the model's choice. -/
def Obligations.PairMessagesComplete : Prop :=
  (∀ dt s, Quiet s → tickGoesOn s.pending = false → s.sys.mode = .shadow → paired s = true →
    s.pair.lastHeard + takeoverUs s ≤ monoUs (elapse dt s) → s.pair.lastMode = .run →
    ∃ t, exec (.takeover dt) s = .next t ∧ t.sys.mode = .run ∧ t.sys.cause = 8 ∧ t.pair.active = true ∧ t.pair.peer = false ∧
      (∀ a : Fin 8, (t.vax.axes[a]).homed = false ∧ (t.vax.axes[a]).unverified = true ∧
        (t.vax.axes[a]).pos = (s.vax.axes[a]).pos)) ∧
  (∀ dt m c s, Quiet s → s.pair.listening = some (m, c) → s.sys.mode = .boot →
    ∃ t, exec (.pairListenEnd dt) s = .next t ∧ t.sys.mode = (if s.pair.heard then .shadow else m) ∧
      t.sys.cause = (if s.pair.heard then 0x0C else c) ∧ t.pair.listening = none ∧ t.pio.hiZ = false) ∧
  (∀ dt m c s, Quiet s → s.pair.listening = some (m, c) → s.sys.mode ≠ .boot → s.pair.heard = false → s.pair.gaveUp = true →
    ∃ t, exec (.pairListenEnd dt) s = .next t ∧
      t.pair = { s.pair with listening := none, active := true, gaveUp := false } ∧ t.sys = s.sys) ∧
  (∀ dt m c s, Quiet s → s.pair.listening = some (m, c) → s.sys.mode ≠ .boot → s.pair.heard = true →
    exec (.pairListenEnd dt) s =
      .next { elapse dt s with pair := { s.pair with listening := none, heard := false, toShadow := true } }) ∧
  (∀ dt tag q m b round sec ns s, Quiet s → paired s = true → mainRuns s = true → s.hif.up = true →
    (pairKeyed s = false ∨ tag ≠ pairTag s 1 (heartbeatContent q (modeAt m) (b.map modeAt) round ⟨sec, ns⟩)) →
    exec (.heartbeat dt tag m ⟨q, b, round, sec, ns⟩) s =
      .next { elapse dt s with pair := { s.pair with badTags := s.pair.badTags + 1 } }) ∧
  (∀ dt tag q m b round sec ns s, PairMessage 1 (heartbeatContent q (modeAt m) (b.map modeAt) round ⟨sec, ns⟩) tag s →
    sendsHeartbeats s = false →
    exec (.heartbeat dt tag m ⟨q, b, round, sec, ns⟩) s =
      .next { elapse dt s with pair := { s.pair with
        heard := s.pair.heard || s.pair.listening.isSome, lastMode := modeAt m, lastReturn := b.map modeAt,
        lastHeard := monoUs (elapse dt s), peer := true } }) ∧
  (∀ dt tag q m b round sec ns s, PairMessage 1 (heartbeatContent q (modeAt m) (b.map modeAt) round ⟨sec, ns⟩) tag s →
    sendsHeartbeats s = true →
    exec (.heartbeat dt tag m ⟨q, b, round, sec, ns⟩) s =
      .next (post 0x0105 0 [] 0 { elapse dt s with pair := { s.pair with
        heard := s.pair.heard || s.pair.listening.isSome, lastMode := modeAt m, lastReturn := b.map modeAt,
        lastHeard := monoUs (elapse dt s), peer := true, toShadow := s.pair.toShadow || getP s 0x0121 == 1 } })) ∧
  (∀ dt tag round index part s, PairMessage 2 (cutContent round index part) tag s → s.sys.mode = .shadow → s.pair.segments = [] →
    (index ≠ 0 ∨ part.length < 28 ∨ part.length < cutLength part →
      exec (.cutSegment dt tag round index part) s =
        .next { elapse dt s with pair := { s.pair with segments := [(round, index, part)] } }) ∧
    (index = 0 → 28 ≤ part.length → cutLength part ≤ part.length →
      ∃ t, exec (.cutSegment dt tag round index part) s = .next t ∧ t.subl.cut = cutParse part ∧ t.subl.prevCut = s.subl.cut ∧
        t.pair.segments.filter (fun x => x.1 == round) = [])) ∧
  (∀ dt tag (e : Fin 2) (tk : Fin 16) sec ns image d x s, PairMessage 3 (imageContent e tk ⟨sec, ns⟩ image) tag s →
    s.sys.mode = .shadow → tasksExecute s = true → s.ctrl.change = none → s.ctrl.swap = none →
    taskDef s e tk = some d → taskSt s e tk = some x → x.mode = .waiting → runOf s e tk = none →
    ∃ t r y, exec (.imageSegment dt tag e tk ⟨sec, ns, image⟩) s = .next t ∧ runOf t e tk = some r ∧ r.pc = BitVec.ofNat 32 d.entry ∧
      r.started = false ∧ taskSt t e tk = some y ∧ y.cycleCount = x.cycleCount + 1 ∧ t.pair = s.pair ∧ t.pio = s.pio) ∧
  (∀ dt tag sec ns packet s, PairMessage 4 (logContent sec ns packet) tag s → s.sys.mode = .shadow →
    tickUs (elapse dt s) ≤ sec * 1000000 + ns / 1000 →
    exec (.commandLog dt tag sec ns packet) s =
      .next { elapse dt s with pair := { s.pair with
        logWaiting := s.pair.logWaiting ++ [(sec * 1000000 + ns / 1000, packet)] } }) ∧
  (∀ dt tag sec ns packet s, PairMessage 4 (logContent sec ns packet) tag s → s.sys.mode = .shadow →
    sec * 1000000 + ns / 1000 < tickUs (elapse dt s) →
    exec (.commandLog dt tag sec ns packet) s =
      .next (sendPair 6 (le 8 s.subl.cut.round) { elapse dt s with
        pair := { s.pair with qualified := false, resynced := false, matched := [] } })) ∧
  (∀ dt tag kind round dig s, PairMessage 5 (digestContent kind round dig) tag s →
    (∀ o ∈ s.pair.digests, ¬(o.1 = kind ∧ o.2.1 = round)) →
    exec (.digest dt tag kind round dig) s =
      .next { elapse dt s with pair := { s.pair with peerDigests := [(kind, round, dig)] } }) ∧
  (∀ dt tag kind round dig own rest s, PairMessage 5 (digestContent kind round dig) tag s → tickGoesOn s.pending = false →
    s.sys.mode = .shadow → s.pair.digests = (kind, round, own) :: rest → own ≠ dig →
    ∃ t, exec (.digest dt tag kind round dig) s = .next t ∧ t.pair.qualified = false ∧ t.pair.matched = [] ∧
      t.pair.peerDigests = [] ∧ t.out = (sendPair 6 (le 8 round) s).out ∧ t.sys = s.sys) ∧
  (∀ dt tag kind round dig rest s, PairMessage 5 (digestContent kind round dig) tag s → tickGoesOn s.pending = false →
    s.pair.digests = (kind, round, dig) :: rest →
    ∃ t, exec (.digest dt tag kind round dig) s = .next t ∧
      t.pair.matched = ((kind, round) :: s.pair.matched).take digestsKept ∧ t.pair.peerDigests = [] ∧ t.out = s.out ∧
      (s.pair.qualified = true → t.pair.qualified = true) ∧ t.sys = s.sys) ∧
  (∀ dt tag round s, PairMessage 6 (le 8 round) tag s → s.pair.active = true →
    exec (.resyncRequest dt ⟨tag, round⟩) s = .next { elapse dt s with pair := { s.pair with owesState := true } }) ∧
  (∀ dt tag seg s, PairMessage 7 seg tag s → s.sys.mode = .shadow →
    ∃ t, exec (.stateSegment dt tag seg) s = .next t ∧ t.pair = { s.pair with resynced := true, matched := [] } ∧
      t.nmod.net.pres = (getList (numsOf seg)).1 ∧ t.sys = s.sys ∧ t.pio = s.pio ∧ t.hif = s.hif) ∧
  (∀ dt tag q last s, PairMessage 8 (statusContent q last) tag s → s.pair.active = true →
    exec (.shadowStatus dt tag ⟨q, last⟩) s = .next { elapse dt s with pair := { s.pair with peerQualified := q } }) ∧
  (∀ dt s, Quiet s → s.sys.mode = .shadow →
    exec (.shadowStatusSend dt) s =
      .next (sendPair 8 (statusContent s.pair.qualified s.pair.lastMatch) (elapse dt s)))

/-! ### The block as a whole -/

/-- A step takes the command at the front of the queue and executes it with the queue's rest; on an empty queue the block idles for
one microsecond (log entry 5). -/
def Obligations.StepTakesTheFrontCommand : Prop :=
  (∀ c rest s, s.pending = c :: rest → Machine.step s = exec c { s with pending := rest }) ∧
  (∀ s, s.pending = [] → Machine.step s = .next (elapse 1 s))

/-- Every command of the table ends in a next state: it leaves the commands that wait as they are, and no mode trigger outlives the
tick in which it is asserted, which ends with the command unless the next one comes without time between (R45; log entry 107 for
where a tick ends). -/
def Obligations.EveryCommandEnds : Prop :=
  ∀ c s, ∃ t, exec c s = .next t ∧ t.pending = s.pending ∧ (tickGoesOn s.pending = false → NoTriggerLeft t)

/-- Whatever command a step takes, and when it idles, the TCMs of both control engines, the memories of the solver address map,
the parameters in effect, the counters and the tables of errors stay in canonical form, and the key slots in ascending order.
Log entry 20 says what of it is the model's choice. -/
def Obligations.StepKeepsCanonicalForm : Prop :=
  ∀ s t, Canonical s = true → Machine.step s = .next t → Canonical t = true

/-- After reset the memories and tables are in canonical form and nothing waits; the block is in BOOT with its outputs high
impedance, every flight OFF, the snapshot armed, no session, no tag in use and no sequence number expected, and every parameter reads
as its default. The values that the manual does not give are those of log entry 2. -/
def Obligations.ResetState : Prop :=
  Canonical State.reset = true ∧ Quiet State.reset ∧ State.reset.pending = [] ∧ State.reset.sys.mode = .boot ∧
  State.reset.pio.hiZ = true ∧ (∀ n : Fin 8, State.reset.pwr.flights[n] = .off) ∧ State.reset.intg.armed = true ∧
  State.reset.intg.held = none ∧ State.reset.hif.tags = [] ∧
  (∀ tr, (linkOf State.reset tr).session = none ∧ (linkOf State.reset tr).expected = none ∧
    (linkOf State.reset tr).replySeq = 0 ∧ (linkOf State.reset tr).unsync = true) ∧
  (∀ id, getP State.reset id = pdflt id) ∧
  (∀ e : Fin 2, ∀ a, Memory.read (State.reset.ctrl.engines[e]).code a = 0 ∧
    Memory.read (State.reset.ctrl.engines[e]).data a = 0)

/-- A packet that fails a check is rejected: its reply is issued at once, its tag keeps its state, and it has no side effect but the
sequence advance, the counters and the events (R78). The checks act in their order: a wrong sequence number, a mode in which the
command is not legal, a missing or wrong authorisation, a pending reset, then what the command asks for, which ends in BAD_PARAM for
a parameter out of range or in the status that the command's rule names, such as BUSY (R50, R77, R566). A PARAM_READ or
PARAM_WRITE that names a parameter that no block defines is answered BAD_PARAM (R34). -/
def Obligations.RejectedPacketsChangeNothing : Prop :=
  (∀ rc ∈ hostRows, ∀ dt q pl n s, Quiet s → hostOpen s = true → (q.tr = .xspi → rxReady s = true) →
    (q.tr = .udp → udpAdmits s q.srcIp.toNat = true) → (envPkt rc.2.op q pl).size ≤ 4268 → rc.2.op ≠ 0x0201 →
    (linkOf s q.tr).expected = some n → q.seq ≠ n →
    ∃ t, exec (rc.1 dt q pl) s = .next t ∧ Refused q stSequenceError (elapse dt s) t ∧ (linkOf t q.tr).expected = some n) ∧
  (∀ rc ∈ hostRows, ∀ dt q pl s, Quiet s → passesFraming rc.2 q pl s = true →
    rc.2.legal (envPkt rc.2.op q pl) (sequenced q (elapse dt s)) = false →
    ∃ t, exec (rc.1 dt q pl) s = .next t ∧ Refused q stNotInState (elapse dt s) t ∧
      (linkOf t q.tr).expected = some (q.seq + 1)) ∧
  (∀ rc ∈ hostRows, ∀ dt q pl st b s, Quiet s → passesFraming rc.2 q pl s = true →
    let p := envPkt rc.2.op q pl
    let u := sequenced q (elapse dt s)
    rc.2.legal p u = true → authCheck (rc.2.need p u) p u = .fail st b →
    ∃ t, exec (rc.1 dt q pl) s = .next t ∧ Refused q st (elapse dt s) t ∧ (linkOf t q.tr).expected = some (q.seq + 1)) ∧
  (∀ rc ∈ hostRows, ∀ dt q pl a s, Quiet s → passesFraming rc.2 q pl s = true → s.sys.resetPending.isSome = true →
    let p := envPkt rc.2.op q pl
    let u := sequenced q (elapse dt s)
    rc.2.legal p u = true → authCheck (rc.2.need p u) p u = .ok a → rc.2.op ≠ 0x0101 → rc.2.op ≠ 0x0120 →
    ∃ t, exec (rc.1 dt q pl) s = .next t ∧ Refused q stBusy (elapse dt s) t) ∧
  (∀ rc ∈ hostRows, ∀ dt q pl a off s, Quiet s → Admitted rc.2 q pl a (elapse dt s) →
    rc.2.eff (requestOf rc.2 q pl a) (received rc.2 q pl (elapse dt s)) = .badParam off →
    ∃ t, exec (rc.1 dt q pl) s = .next t ∧ Refused q stBadParam (elapse dt s) t) ∧
  (∀ rc ∈ hostRows, ∀ dt q pl a st b s, Quiet s → Admitted rc.2 q pl a (elapse dt s) →
    rc.2.eff (requestOf rc.2 q pl a) (received rc.2 q pl (elapse dt s)) = .reject st b →
    ∃ t, exec (rc.1 dt q pl) s = .next t ∧ Refused q st (elapse dt s) t) ∧
  (∀ dt q pl a s, Arrives cmdParamRead dt q pl a s → pinfo (fld pl 0 2) = none ∨
      (1 ≤ fld pl 2 1 ∧ ∃ k, k < fld pl 2 1 ∧ pinfo (fld pl 0 2 + k) = none) →
    ∃ t, exec (.paramRead dt q pl) s = .next t ∧ Refused q stBadParam (elapse dt s) t) ∧
  (∀ dt q pl a s, Arrives cmdParamWrite dt q pl a s → (∃ e ∈ entriesOf pl, pinfo e.id = none) →
    ∃ t, exec (.paramWrite dt q pl) s = .next t ∧ Refused q stBadParam (elapse dt s) t)

/-- The calendar follows the Gregorian rules: within its range 2000 is a leap year and 2100, 2200 and 2300 are not, every date has its
own day of the cycle, the day after each date is the next date, and WEEKDAY advances every day (R444, R445). -/
def Obligations.CalendarIsGregorian : Prop :=
  (∀ y, isLeap y = true ↔ y % 4 = 0 ∧ (y % 100 = 0 → y % 400 = 0)) ∧
  (∀ n, n < cycleDays → weekdayOf ((n + 1) % cycleDays) = weekdayOf n % 7 + 1) ∧
  isLeap 2000 = true ∧ isLeap 2100 = false ∧ isLeap 2200 = false ∧ isLeap 2300 = false ∧
  (∀ y m d, 2000 ≤ y → y ≤ 2399 → 1 ≤ m → m ≤ 12 → 1 ≤ d → d ≤ monthDays y m →
    dateOf (daysOf y m d) = (y, m, d) ∧ daysOf y m d < cycleDays ∧
    (daysOf y m d + 1) % cycleDays =
      (if d < monthDays y m then daysOf y m (d + 1)
      else if m < 12 then daysOf y (m + 1) 1
      else if y < 2399 then daysOf (y + 1) 1 1 else daysOf 2000 1 1))
end

