-- ==== Sys2Proof/Laws/State.lean ====
section
/-! SUPPORT. What each named update of State leaves in each of its fields: one lemma for a field and an update. -/

namespace Sys2Proof.Machine

set_option Elab.async false

variable (s : State)

/-! `passTime` -/

@[simp] theorem passTime_clock (dt : Nat) : (passTime dt s).clock = s.clock.advance dt := rfl
@[simp] theorem passTime_sys (dt : Nat) : (passTime dt s).sys = s.sys := rfl
@[simp] theorem passTime_pair (dt : Nat) : (passTime dt s).pair = s.pair := rfl
@[simp] theorem passTime_hif (dt : Nat) : (passTime dt s).hif = s.hif := rfl
@[simp] theorem passTime_evr (dt : Nat) : (passTime dt s).evr = s.evr := rfl
@[simp] theorem passTime_sec (dt : Nat) : (passTime dt s).sec = s.sec := rfl
@[simp] theorem passTime_tamp (dt : Nat) : (passTime dt s).tamp = s.tamp := rfl
@[simp] theorem passTime_intg (dt : Nat) : (passTime dt s).intg = s.intg := rfl
@[simp] theorem passTime_pwr (dt : Nat) : (passTime dt s).pwr = s.pwr := rfl
@[simp] theorem passTime_mth (dt : Nat) : (passTime dt s).mth = s.mth := rfl
@[simp] theorem passTime_mel (dt : Nat) : (passTime dt s).mel = s.mel := rfl
@[simp] theorem passTime_bill (dt : Nat) : (passTime dt s).bill = s.bill := rfl
@[simp] theorem passTime_time (dt : Nat) : (passTime dt s).time = s.time := rfl
@[simp] theorem passTime_pio (dt : Nat) : (passTime dt s).pio = s.pio := rfl
@[simp] theorem passTime_ctrl (dt : Nat) : (passTime dt s).ctrl = s.ctrl := rfl
@[simp] theorem passTime_vax (dt : Nat) : (passTime dt s).vax = s.vax := rfl
@[simp] theorem passTime_eth (dt : Nat) : (passTime dt s).eth = s.eth := rfl
@[simp] theorem passTime_rtc (dt : Nat) : (passTime dt s).rtc = s.rtc := rfl
@[simp] theorem passTime_epd (dt : Nat) : (passTime dt s).epd = s.epd := rfl
@[simp] theorem passTime_subl (dt : Nat) : (passTime dt s).subl = s.subl := rfl
@[simp] theorem passTime_nmod (dt : Nat) : (passTime dt s).nmod = s.nmod := rfl
@[simp] theorem passTime_solv (dt : Nat) : (passTime dt s).solv = s.solv := rfl
@[simp] theorem passTime_gal (dt : Nat) : (passTime dt s).gal = s.gal := rfl
@[simp] theorem passTime_cfg (dt : Nat) : (passTime dt s).cfg = s.cfg := rfl
@[simp] theorem passTime_cfgPending (dt : Nat) : (passTime dt s).cfgPending = s.cfgPending := rfl
@[simp] theorem passTime_draws (dt : Nat) : (passTime dt s).draws = s.draws := rfl
@[simp] theorem passTime_out (dt : Nat) : (passTime dt s).out = s.out := rfl
@[simp] theorem passTime_pending (dt : Nat) : (passTime dt s).pending = s.pending := rfl

/-! `updGal` -/

@[simp] theorem updGal_clock (f : Gallery → Gallery) : (updGal f s).clock = s.clock := rfl
@[simp] theorem updGal_sys (f : Gallery → Gallery) : (updGal f s).sys = s.sys := rfl
@[simp] theorem updGal_pair (f : Gallery → Gallery) : (updGal f s).pair = s.pair := rfl
@[simp] theorem updGal_hif (f : Gallery → Gallery) : (updGal f s).hif = s.hif := rfl
@[simp] theorem updGal_evr (f : Gallery → Gallery) : (updGal f s).evr = s.evr := rfl
@[simp] theorem updGal_sec (f : Gallery → Gallery) : (updGal f s).sec = s.sec := rfl
@[simp] theorem updGal_tamp (f : Gallery → Gallery) : (updGal f s).tamp = s.tamp := rfl
@[simp] theorem updGal_intg (f : Gallery → Gallery) : (updGal f s).intg = s.intg := rfl
@[simp] theorem updGal_pwr (f : Gallery → Gallery) : (updGal f s).pwr = s.pwr := rfl
@[simp] theorem updGal_mth (f : Gallery → Gallery) : (updGal f s).mth = s.mth := rfl
@[simp] theorem updGal_mel (f : Gallery → Gallery) : (updGal f s).mel = s.mel := rfl
@[simp] theorem updGal_bill (f : Gallery → Gallery) : (updGal f s).bill = s.bill := rfl
@[simp] theorem updGal_time (f : Gallery → Gallery) : (updGal f s).time = s.time := rfl
@[simp] theorem updGal_pio (f : Gallery → Gallery) : (updGal f s).pio = s.pio := rfl
@[simp] theorem updGal_pioBegan (f : Gallery → Gallery) : (updGal f s).pioBegan = s.pioBegan := rfl
@[simp] theorem updGal_ctrl (f : Gallery → Gallery) : (updGal f s).ctrl = s.ctrl := rfl
@[simp] theorem updGal_vax (f : Gallery → Gallery) : (updGal f s).vax = s.vax := rfl
@[simp] theorem updGal_eth (f : Gallery → Gallery) : (updGal f s).eth = s.eth := rfl
@[simp] theorem updGal_rtc (f : Gallery → Gallery) : (updGal f s).rtc = s.rtc := rfl
@[simp] theorem updGal_epd (f : Gallery → Gallery) : (updGal f s).epd = s.epd := rfl
@[simp] theorem updGal_subl (f : Gallery → Gallery) : (updGal f s).subl = s.subl := rfl
@[simp] theorem updGal_nmod (f : Gallery → Gallery) : (updGal f s).nmod = s.nmod := rfl
@[simp] theorem updGal_solv (f : Gallery → Gallery) : (updGal f s).solv = s.solv := rfl
@[simp] theorem updGal_gal (f : Gallery → Gallery) : (updGal f s).gal = f s.gal := rfl
@[simp] theorem updGal_cfg (f : Gallery → Gallery) : (updGal f s).cfg = s.cfg := rfl
@[simp] theorem updGal_cfgPending (f : Gallery → Gallery) : (updGal f s).cfgPending = s.cfgPending := rfl
@[simp] theorem updGal_draws (f : Gallery → Gallery) : (updGal f s).draws = s.draws := rfl
@[simp] theorem updGal_out (f : Gallery → Gallery) : (updGal f s).out = s.out := rfl
@[simp] theorem updGal_pending (f : Gallery → Gallery) : (updGal f s).pending = s.pending := rfl

/-! `draw` -/

@[simp] theorem draw_clock : (draw s).clock = s.clock := rfl
@[simp] theorem draw_sys : (draw s).sys = s.sys := rfl
@[simp] theorem draw_pair : (draw s).pair = s.pair := rfl
@[simp] theorem draw_hif : (draw s).hif = s.hif := rfl
@[simp] theorem draw_evr : (draw s).evr = s.evr := rfl
@[simp] theorem draw_sec : (draw s).sec = s.sec := rfl
@[simp] theorem draw_tamp : (draw s).tamp = s.tamp := rfl
@[simp] theorem draw_intg : (draw s).intg = s.intg := rfl
@[simp] theorem draw_pwr : (draw s).pwr = s.pwr := rfl
@[simp] theorem draw_mth : (draw s).mth = s.mth := rfl
@[simp] theorem draw_mel : (draw s).mel = s.mel := rfl
@[simp] theorem draw_bill : (draw s).bill = s.bill := rfl
@[simp] theorem draw_time : (draw s).time = s.time := rfl
@[simp] theorem draw_pio : (draw s).pio = s.pio := rfl
@[simp] theorem draw_pioBegan : (draw s).pioBegan = s.pioBegan := rfl
@[simp] theorem draw_ctrl : (draw s).ctrl = s.ctrl := rfl
@[simp] theorem draw_vax : (draw s).vax = s.vax := rfl
@[simp] theorem draw_eth : (draw s).eth = s.eth := rfl
@[simp] theorem draw_rtc : (draw s).rtc = s.rtc := rfl
@[simp] theorem draw_epd : (draw s).epd = s.epd := rfl
@[simp] theorem draw_subl : (draw s).subl = s.subl := rfl
@[simp] theorem draw_nmod : (draw s).nmod = s.nmod := rfl
@[simp] theorem draw_solv : (draw s).solv = s.solv := rfl
@[simp] theorem draw_gal : (draw s).gal = s.gal := rfl
@[simp] theorem draw_cfg : (draw s).cfg = s.cfg := rfl
@[simp] theorem draw_cfgPending : (draw s).cfgPending = s.cfgPending := rfl
@[simp] theorem draw_draws : (draw s).draws = s.draws + 1 := rfl
@[simp] theorem draw_out : (draw s).out = s.out := rfl
@[simp] theorem draw_pending : (draw s).pending = s.pending := rfl

/-! `setTag` -/

@[simp] theorem setTag_clock (tag : Nat) (x : TagState) : (setTag tag x s).clock = s.clock := rfl
@[simp] theorem setTag_sys (tag : Nat) (x : TagState) : (setTag tag x s).sys = s.sys := rfl
@[simp] theorem setTag_pair (tag : Nat) (x : TagState) : (setTag tag x s).pair = s.pair := rfl
@[simp] theorem setTag_hif (tag : Nat) (x : TagState) : (setTag tag x s).hif = { s.hif with tags := putTag tag x s.hif.tags } := rfl
@[simp] theorem setTag_evr (tag : Nat) (x : TagState) : (setTag tag x s).evr = s.evr := rfl
@[simp] theorem setTag_sec (tag : Nat) (x : TagState) : (setTag tag x s).sec = s.sec := rfl
@[simp] theorem setTag_tamp (tag : Nat) (x : TagState) : (setTag tag x s).tamp = s.tamp := rfl
@[simp] theorem setTag_intg (tag : Nat) (x : TagState) : (setTag tag x s).intg = s.intg := rfl
@[simp] theorem setTag_pwr (tag : Nat) (x : TagState) : (setTag tag x s).pwr = s.pwr := rfl
@[simp] theorem setTag_mth (tag : Nat) (x : TagState) : (setTag tag x s).mth = s.mth := rfl
@[simp] theorem setTag_mel (tag : Nat) (x : TagState) : (setTag tag x s).mel = s.mel := rfl
@[simp] theorem setTag_bill (tag : Nat) (x : TagState) : (setTag tag x s).bill = s.bill := rfl
@[simp] theorem setTag_time (tag : Nat) (x : TagState) : (setTag tag x s).time = s.time := rfl
@[simp] theorem setTag_pio (tag : Nat) (x : TagState) : (setTag tag x s).pio = s.pio := rfl
@[simp] theorem setTag_pioBegan (tag : Nat) (x : TagState) : (setTag tag x s).pioBegan = s.pioBegan := rfl
@[simp] theorem setTag_ctrl (tag : Nat) (x : TagState) : (setTag tag x s).ctrl = s.ctrl := rfl
@[simp] theorem setTag_vax (tag : Nat) (x : TagState) : (setTag tag x s).vax = s.vax := rfl
@[simp] theorem setTag_eth (tag : Nat) (x : TagState) : (setTag tag x s).eth = s.eth := rfl
@[simp] theorem setTag_rtc (tag : Nat) (x : TagState) : (setTag tag x s).rtc = s.rtc := rfl
@[simp] theorem setTag_epd (tag : Nat) (x : TagState) : (setTag tag x s).epd = s.epd := rfl
@[simp] theorem setTag_subl (tag : Nat) (x : TagState) : (setTag tag x s).subl = s.subl := rfl
@[simp] theorem setTag_nmod (tag : Nat) (x : TagState) : (setTag tag x s).nmod = s.nmod := rfl
@[simp] theorem setTag_solv (tag : Nat) (x : TagState) : (setTag tag x s).solv = s.solv := rfl
@[simp] theorem setTag_gal (tag : Nat) (x : TagState) : (setTag tag x s).gal = s.gal := rfl
@[simp] theorem setTag_cfg (tag : Nat) (x : TagState) : (setTag tag x s).cfg = s.cfg := rfl
@[simp] theorem setTag_cfgPending (tag : Nat) (x : TagState) : (setTag tag x s).cfgPending = s.cfgPending := rfl
@[simp] theorem setTag_draws (tag : Nat) (x : TagState) : (setTag tag x s).draws = s.draws := rfl
@[simp] theorem setTag_out (tag : Nat) (x : TagState) : (setTag tag x s).out = s.out := rfl
@[simp] theorem setTag_pending (tag : Nat) (x : TagState) : (setTag tag x s).pending = s.pending := rfl

/-! `freeTag` -/

@[simp] theorem freeTag_clock (tag : Nat) : (freeTag tag s).clock = s.clock := rfl
@[simp] theorem freeTag_sys (tag : Nat) : (freeTag tag s).sys = s.sys := rfl
@[simp] theorem freeTag_pair (tag : Nat) : (freeTag tag s).pair = s.pair := rfl
@[simp] theorem freeTag_hif (tag : Nat) : (freeTag tag s).hif = { s.hif with tags := s.hif.tags.filter fun x => x.1 != tag } := rfl
@[simp] theorem freeTag_evr (tag : Nat) : (freeTag tag s).evr = s.evr := rfl
@[simp] theorem freeTag_sec (tag : Nat) : (freeTag tag s).sec = s.sec := rfl
@[simp] theorem freeTag_tamp (tag : Nat) : (freeTag tag s).tamp = s.tamp := rfl
@[simp] theorem freeTag_intg (tag : Nat) : (freeTag tag s).intg = s.intg := rfl
@[simp] theorem freeTag_pwr (tag : Nat) : (freeTag tag s).pwr = s.pwr := rfl
@[simp] theorem freeTag_mth (tag : Nat) : (freeTag tag s).mth = s.mth := rfl
@[simp] theorem freeTag_mel (tag : Nat) : (freeTag tag s).mel = s.mel := rfl
@[simp] theorem freeTag_bill (tag : Nat) : (freeTag tag s).bill = s.bill := rfl
@[simp] theorem freeTag_time (tag : Nat) : (freeTag tag s).time = s.time := rfl
@[simp] theorem freeTag_pio (tag : Nat) : (freeTag tag s).pio = s.pio := rfl
@[simp] theorem freeTag_pioBegan (tag : Nat) : (freeTag tag s).pioBegan = s.pioBegan := rfl
@[simp] theorem freeTag_ctrl (tag : Nat) : (freeTag tag s).ctrl = s.ctrl := rfl
@[simp] theorem freeTag_vax (tag : Nat) : (freeTag tag s).vax = s.vax := rfl
@[simp] theorem freeTag_eth (tag : Nat) : (freeTag tag s).eth = s.eth := rfl
@[simp] theorem freeTag_rtc (tag : Nat) : (freeTag tag s).rtc = s.rtc := rfl
@[simp] theorem freeTag_epd (tag : Nat) : (freeTag tag s).epd = s.epd := rfl
@[simp] theorem freeTag_subl (tag : Nat) : (freeTag tag s).subl = s.subl := rfl
@[simp] theorem freeTag_nmod (tag : Nat) : (freeTag tag s).nmod = s.nmod := rfl
@[simp] theorem freeTag_solv (tag : Nat) : (freeTag tag s).solv = s.solv := rfl
@[simp] theorem freeTag_gal (tag : Nat) : (freeTag tag s).gal = s.gal := rfl
@[simp] theorem freeTag_cfg (tag : Nat) : (freeTag tag s).cfg = s.cfg := rfl
@[simp] theorem freeTag_cfgPending (tag : Nat) : (freeTag tag s).cfgPending = s.cfgPending := rfl
@[simp] theorem freeTag_draws (tag : Nat) : (freeTag tag s).draws = s.draws := rfl
@[simp] theorem freeTag_out (tag : Nat) : (freeTag tag s).out = s.out := rfl
@[simp] theorem freeTag_pending (tag : Nat) : (freeTag tag s).pending = s.pending := rfl

/-! `irqUpdate` -/

@[simp] theorem irqUpdate_clock : (irqUpdate s).clock = s.clock := rfl
@[simp] theorem irqUpdate_sys : (irqUpdate s).sys = s.sys := rfl
@[simp] theorem irqUpdate_pair : (irqUpdate s).pair = s.pair := rfl
@[simp] theorem irqUpdate_hif : (irqUpdate s).hif = { s.hif with irq := s.hif.irq || (!s.hif.xspiQ.isEmpty && !s.hif.holdoff) } := rfl
@[simp] theorem irqUpdate_evr : (irqUpdate s).evr = s.evr := rfl
@[simp] theorem irqUpdate_sec : (irqUpdate s).sec = s.sec := rfl
@[simp] theorem irqUpdate_tamp : (irqUpdate s).tamp = s.tamp := rfl
@[simp] theorem irqUpdate_intg : (irqUpdate s).intg = s.intg := rfl
@[simp] theorem irqUpdate_pwr : (irqUpdate s).pwr = s.pwr := rfl
@[simp] theorem irqUpdate_mth : (irqUpdate s).mth = s.mth := rfl
@[simp] theorem irqUpdate_mel : (irqUpdate s).mel = s.mel := rfl
@[simp] theorem irqUpdate_bill : (irqUpdate s).bill = s.bill := rfl
@[simp] theorem irqUpdate_time : (irqUpdate s).time = s.time := rfl
@[simp] theorem irqUpdate_pio : (irqUpdate s).pio = s.pio := rfl
@[simp] theorem irqUpdate_pioBegan : (irqUpdate s).pioBegan = s.pioBegan := rfl
@[simp] theorem irqUpdate_ctrl : (irqUpdate s).ctrl = s.ctrl := rfl
@[simp] theorem irqUpdate_vax : (irqUpdate s).vax = s.vax := rfl
@[simp] theorem irqUpdate_eth : (irqUpdate s).eth = s.eth := rfl
@[simp] theorem irqUpdate_rtc : (irqUpdate s).rtc = s.rtc := rfl
@[simp] theorem irqUpdate_epd : (irqUpdate s).epd = s.epd := rfl
@[simp] theorem irqUpdate_subl : (irqUpdate s).subl = s.subl := rfl
@[simp] theorem irqUpdate_nmod : (irqUpdate s).nmod = s.nmod := rfl
@[simp] theorem irqUpdate_solv : (irqUpdate s).solv = s.solv := rfl
@[simp] theorem irqUpdate_gal : (irqUpdate s).gal = s.gal := rfl
@[simp] theorem irqUpdate_cfg : (irqUpdate s).cfg = s.cfg := rfl
@[simp] theorem irqUpdate_cfgPending : (irqUpdate s).cfgPending = s.cfgPending := rfl
@[simp] theorem irqUpdate_draws : (irqUpdate s).draws = s.draws := rfl
@[simp] theorem irqUpdate_out : (irqUpdate s).out = s.out := rfl
@[simp] theorem irqUpdate_pending : (irqUpdate s).pending = s.pending := rfl

/-! `updHif` -/

@[simp] theorem updHif_clock (f : Hif → Hif) : (updHif f s).clock = s.clock := rfl
@[simp] theorem updHif_sys (f : Hif → Hif) : (updHif f s).sys = s.sys := rfl
@[simp] theorem updHif_pair (f : Hif → Hif) : (updHif f s).pair = s.pair := rfl
@[simp] theorem updHif_hif (f : Hif → Hif) : (updHif f s).hif = f s.hif := rfl
@[simp] theorem updHif_evr (f : Hif → Hif) : (updHif f s).evr = s.evr := rfl
@[simp] theorem updHif_sec (f : Hif → Hif) : (updHif f s).sec = s.sec := rfl
@[simp] theorem updHif_tamp (f : Hif → Hif) : (updHif f s).tamp = s.tamp := rfl
@[simp] theorem updHif_intg (f : Hif → Hif) : (updHif f s).intg = s.intg := rfl
@[simp] theorem updHif_pwr (f : Hif → Hif) : (updHif f s).pwr = s.pwr := rfl
@[simp] theorem updHif_mth (f : Hif → Hif) : (updHif f s).mth = s.mth := rfl
@[simp] theorem updHif_mel (f : Hif → Hif) : (updHif f s).mel = s.mel := rfl
@[simp] theorem updHif_bill (f : Hif → Hif) : (updHif f s).bill = s.bill := rfl
@[simp] theorem updHif_time (f : Hif → Hif) : (updHif f s).time = s.time := rfl
@[simp] theorem updHif_pio (f : Hif → Hif) : (updHif f s).pio = s.pio := rfl
@[simp] theorem updHif_pioBegan (f : Hif → Hif) : (updHif f s).pioBegan = s.pioBegan := rfl
@[simp] theorem updHif_ctrl (f : Hif → Hif) : (updHif f s).ctrl = s.ctrl := rfl
@[simp] theorem updHif_vax (f : Hif → Hif) : (updHif f s).vax = s.vax := rfl
@[simp] theorem updHif_eth (f : Hif → Hif) : (updHif f s).eth = s.eth := rfl
@[simp] theorem updHif_rtc (f : Hif → Hif) : (updHif f s).rtc = s.rtc := rfl
@[simp] theorem updHif_epd (f : Hif → Hif) : (updHif f s).epd = s.epd := rfl
@[simp] theorem updHif_subl (f : Hif → Hif) : (updHif f s).subl = s.subl := rfl
@[simp] theorem updHif_nmod (f : Hif → Hif) : (updHif f s).nmod = s.nmod := rfl
@[simp] theorem updHif_solv (f : Hif → Hif) : (updHif f s).solv = s.solv := rfl
@[simp] theorem updHif_gal (f : Hif → Hif) : (updHif f s).gal = s.gal := rfl
@[simp] theorem updHif_cfg (f : Hif → Hif) : (updHif f s).cfg = s.cfg := rfl
@[simp] theorem updHif_cfgPending (f : Hif → Hif) : (updHif f s).cfgPending = s.cfgPending := rfl
@[simp] theorem updHif_draws (f : Hif → Hif) : (updHif f s).draws = s.draws := rfl
@[simp] theorem updHif_out (f : Hif → Hif) : (updHif f s).out = s.out := rfl
@[simp] theorem updHif_pending (f : Hif → Hif) : (updHif f s).pending = s.pending := rfl

/-! `updSys` -/

@[simp] theorem updSys_clock (f : Sys → Sys) : (updSys f s).clock = s.clock := rfl
@[simp] theorem updSys_sys (f : Sys → Sys) : (updSys f s).sys = f s.sys := rfl
@[simp] theorem updSys_pair (f : Sys → Sys) : (updSys f s).pair = s.pair := rfl
@[simp] theorem updSys_hif (f : Sys → Sys) : (updSys f s).hif = s.hif := rfl
@[simp] theorem updSys_evr (f : Sys → Sys) : (updSys f s).evr = s.evr := rfl
@[simp] theorem updSys_sec (f : Sys → Sys) : (updSys f s).sec = s.sec := rfl
@[simp] theorem updSys_tamp (f : Sys → Sys) : (updSys f s).tamp = s.tamp := rfl
@[simp] theorem updSys_intg (f : Sys → Sys) : (updSys f s).intg = s.intg := rfl
@[simp] theorem updSys_pwr (f : Sys → Sys) : (updSys f s).pwr = s.pwr := rfl
@[simp] theorem updSys_mth (f : Sys → Sys) : (updSys f s).mth = s.mth := rfl
@[simp] theorem updSys_mel (f : Sys → Sys) : (updSys f s).mel = s.mel := rfl
@[simp] theorem updSys_bill (f : Sys → Sys) : (updSys f s).bill = s.bill := rfl
@[simp] theorem updSys_time (f : Sys → Sys) : (updSys f s).time = s.time := rfl
@[simp] theorem updSys_pio (f : Sys → Sys) : (updSys f s).pio = s.pio := rfl
@[simp] theorem updSys_pioBegan (f : Sys → Sys) : (updSys f s).pioBegan = s.pioBegan := rfl
@[simp] theorem updSys_ctrl (f : Sys → Sys) : (updSys f s).ctrl = s.ctrl := rfl
@[simp] theorem updSys_vax (f : Sys → Sys) : (updSys f s).vax = s.vax := rfl
@[simp] theorem updSys_eth (f : Sys → Sys) : (updSys f s).eth = s.eth := rfl
@[simp] theorem updSys_rtc (f : Sys → Sys) : (updSys f s).rtc = s.rtc := rfl
@[simp] theorem updSys_epd (f : Sys → Sys) : (updSys f s).epd = s.epd := rfl
@[simp] theorem updSys_subl (f : Sys → Sys) : (updSys f s).subl = s.subl := rfl
@[simp] theorem updSys_nmod (f : Sys → Sys) : (updSys f s).nmod = s.nmod := rfl
@[simp] theorem updSys_solv (f : Sys → Sys) : (updSys f s).solv = s.solv := rfl
@[simp] theorem updSys_gal (f : Sys → Sys) : (updSys f s).gal = s.gal := rfl
@[simp] theorem updSys_cfg (f : Sys → Sys) : (updSys f s).cfg = s.cfg := rfl
@[simp] theorem updSys_cfgPending (f : Sys → Sys) : (updSys f s).cfgPending = s.cfgPending := rfl
@[simp] theorem updSys_draws (f : Sys → Sys) : (updSys f s).draws = s.draws := rfl
@[simp] theorem updSys_out (f : Sys → Sys) : (updSys f s).out = s.out := rfl
@[simp] theorem updSys_pending (f : Sys → Sys) : (updSys f s).pending = s.pending := rfl

/-! `updPair` -/

@[simp] theorem updPair_clock (f : Pair → Pair) : (updPair f s).clock = s.clock := rfl
@[simp] theorem updPair_sys (f : Pair → Pair) : (updPair f s).sys = s.sys := rfl
@[simp] theorem updPair_pair (f : Pair → Pair) : (updPair f s).pair = f s.pair := rfl
@[simp] theorem updPair_hif (f : Pair → Pair) : (updPair f s).hif = s.hif := rfl
@[simp] theorem updPair_evr (f : Pair → Pair) : (updPair f s).evr = s.evr := rfl
@[simp] theorem updPair_sec (f : Pair → Pair) : (updPair f s).sec = s.sec := rfl
@[simp] theorem updPair_tamp (f : Pair → Pair) : (updPair f s).tamp = s.tamp := rfl
@[simp] theorem updPair_intg (f : Pair → Pair) : (updPair f s).intg = s.intg := rfl
@[simp] theorem updPair_pwr (f : Pair → Pair) : (updPair f s).pwr = s.pwr := rfl
@[simp] theorem updPair_mth (f : Pair → Pair) : (updPair f s).mth = s.mth := rfl
@[simp] theorem updPair_mel (f : Pair → Pair) : (updPair f s).mel = s.mel := rfl
@[simp] theorem updPair_bill (f : Pair → Pair) : (updPair f s).bill = s.bill := rfl
@[simp] theorem updPair_time (f : Pair → Pair) : (updPair f s).time = s.time := rfl
@[simp] theorem updPair_pio (f : Pair → Pair) : (updPair f s).pio = s.pio := rfl
@[simp] theorem updPair_pioBegan (f : Pair → Pair) : (updPair f s).pioBegan = s.pioBegan := rfl
@[simp] theorem updPair_ctrl (f : Pair → Pair) : (updPair f s).ctrl = s.ctrl := rfl
@[simp] theorem updPair_vax (f : Pair → Pair) : (updPair f s).vax = s.vax := rfl
@[simp] theorem updPair_eth (f : Pair → Pair) : (updPair f s).eth = s.eth := rfl
@[simp] theorem updPair_rtc (f : Pair → Pair) : (updPair f s).rtc = s.rtc := rfl
@[simp] theorem updPair_epd (f : Pair → Pair) : (updPair f s).epd = s.epd := rfl
@[simp] theorem updPair_subl (f : Pair → Pair) : (updPair f s).subl = s.subl := rfl
@[simp] theorem updPair_nmod (f : Pair → Pair) : (updPair f s).nmod = s.nmod := rfl
@[simp] theorem updPair_solv (f : Pair → Pair) : (updPair f s).solv = s.solv := rfl
@[simp] theorem updPair_gal (f : Pair → Pair) : (updPair f s).gal = s.gal := rfl
@[simp] theorem updPair_cfg (f : Pair → Pair) : (updPair f s).cfg = s.cfg := rfl
@[simp] theorem updPair_cfgPending (f : Pair → Pair) : (updPair f s).cfgPending = s.cfgPending := rfl
@[simp] theorem updPair_draws (f : Pair → Pair) : (updPair f s).draws = s.draws := rfl
@[simp] theorem updPair_out (f : Pair → Pair) : (updPair f s).out = s.out := rfl
@[simp] theorem updPair_pending (f : Pair → Pair) : (updPair f s).pending = s.pending := rfl

/-! `updPwr` -/

@[simp] theorem updPwr_clock (f : Pwr → Pwr) : (updPwr f s).clock = s.clock := rfl
@[simp] theorem updPwr_sys (f : Pwr → Pwr) : (updPwr f s).sys = s.sys := rfl
@[simp] theorem updPwr_pair (f : Pwr → Pwr) : (updPwr f s).pair = s.pair := rfl
@[simp] theorem updPwr_hif (f : Pwr → Pwr) : (updPwr f s).hif = s.hif := rfl
@[simp] theorem updPwr_evr (f : Pwr → Pwr) : (updPwr f s).evr = s.evr := rfl
@[simp] theorem updPwr_sec (f : Pwr → Pwr) : (updPwr f s).sec = s.sec := rfl
@[simp] theorem updPwr_tamp (f : Pwr → Pwr) : (updPwr f s).tamp = s.tamp := rfl
@[simp] theorem updPwr_intg (f : Pwr → Pwr) : (updPwr f s).intg = s.intg := rfl
@[simp] theorem updPwr_pwr (f : Pwr → Pwr) : (updPwr f s).pwr = f s.pwr := rfl
@[simp] theorem updPwr_mth (f : Pwr → Pwr) : (updPwr f s).mth = s.mth := rfl
@[simp] theorem updPwr_mel (f : Pwr → Pwr) : (updPwr f s).mel = s.mel := rfl
@[simp] theorem updPwr_bill (f : Pwr → Pwr) : (updPwr f s).bill = s.bill := rfl
@[simp] theorem updPwr_time (f : Pwr → Pwr) : (updPwr f s).time = s.time := rfl
@[simp] theorem updPwr_pio (f : Pwr → Pwr) : (updPwr f s).pio = s.pio := rfl
@[simp] theorem updPwr_pioBegan (f : Pwr → Pwr) : (updPwr f s).pioBegan = s.pioBegan := rfl
@[simp] theorem updPwr_ctrl (f : Pwr → Pwr) : (updPwr f s).ctrl = s.ctrl := rfl
@[simp] theorem updPwr_vax (f : Pwr → Pwr) : (updPwr f s).vax = s.vax := rfl
@[simp] theorem updPwr_eth (f : Pwr → Pwr) : (updPwr f s).eth = s.eth := rfl
@[simp] theorem updPwr_rtc (f : Pwr → Pwr) : (updPwr f s).rtc = s.rtc := rfl
@[simp] theorem updPwr_epd (f : Pwr → Pwr) : (updPwr f s).epd = s.epd := rfl
@[simp] theorem updPwr_subl (f : Pwr → Pwr) : (updPwr f s).subl = s.subl := rfl
@[simp] theorem updPwr_nmod (f : Pwr → Pwr) : (updPwr f s).nmod = s.nmod := rfl
@[simp] theorem updPwr_solv (f : Pwr → Pwr) : (updPwr f s).solv = s.solv := rfl
@[simp] theorem updPwr_gal (f : Pwr → Pwr) : (updPwr f s).gal = s.gal := rfl
@[simp] theorem updPwr_cfg (f : Pwr → Pwr) : (updPwr f s).cfg = s.cfg := rfl
@[simp] theorem updPwr_cfgPending (f : Pwr → Pwr) : (updPwr f s).cfgPending = s.cfgPending := rfl
@[simp] theorem updPwr_draws (f : Pwr → Pwr) : (updPwr f s).draws = s.draws := rfl
@[simp] theorem updPwr_out (f : Pwr → Pwr) : (updPwr f s).out = s.out := rfl
@[simp] theorem updPwr_pending (f : Pwr → Pwr) : (updPwr f s).pending = s.pending := rfl

/-! `updSec` -/

@[simp] theorem updSec_clock (f : Sec → Sec) : (updSec f s).clock = s.clock := rfl
@[simp] theorem updSec_sys (f : Sec → Sec) : (updSec f s).sys = s.sys := rfl
@[simp] theorem updSec_pair (f : Sec → Sec) : (updSec f s).pair = s.pair := rfl
@[simp] theorem updSec_hif (f : Sec → Sec) : (updSec f s).hif = s.hif := rfl
@[simp] theorem updSec_evr (f : Sec → Sec) : (updSec f s).evr = s.evr := rfl
@[simp] theorem updSec_sec (f : Sec → Sec) : (updSec f s).sec = f s.sec := rfl
@[simp] theorem updSec_tamp (f : Sec → Sec) : (updSec f s).tamp = s.tamp := rfl
@[simp] theorem updSec_intg (f : Sec → Sec) : (updSec f s).intg = s.intg := rfl
@[simp] theorem updSec_pwr (f : Sec → Sec) : (updSec f s).pwr = s.pwr := rfl
@[simp] theorem updSec_mth (f : Sec → Sec) : (updSec f s).mth = s.mth := rfl
@[simp] theorem updSec_mel (f : Sec → Sec) : (updSec f s).mel = s.mel := rfl
@[simp] theorem updSec_bill (f : Sec → Sec) : (updSec f s).bill = s.bill := rfl
@[simp] theorem updSec_time (f : Sec → Sec) : (updSec f s).time = s.time := rfl
@[simp] theorem updSec_pio (f : Sec → Sec) : (updSec f s).pio = s.pio := rfl
@[simp] theorem updSec_pioBegan (f : Sec → Sec) : (updSec f s).pioBegan = s.pioBegan := rfl
@[simp] theorem updSec_ctrl (f : Sec → Sec) : (updSec f s).ctrl = s.ctrl := rfl
@[simp] theorem updSec_vax (f : Sec → Sec) : (updSec f s).vax = s.vax := rfl
@[simp] theorem updSec_eth (f : Sec → Sec) : (updSec f s).eth = s.eth := rfl
@[simp] theorem updSec_rtc (f : Sec → Sec) : (updSec f s).rtc = s.rtc := rfl
@[simp] theorem updSec_epd (f : Sec → Sec) : (updSec f s).epd = s.epd := rfl
@[simp] theorem updSec_subl (f : Sec → Sec) : (updSec f s).subl = s.subl := rfl
@[simp] theorem updSec_nmod (f : Sec → Sec) : (updSec f s).nmod = s.nmod := rfl
@[simp] theorem updSec_solv (f : Sec → Sec) : (updSec f s).solv = s.solv := rfl
@[simp] theorem updSec_gal (f : Sec → Sec) : (updSec f s).gal = s.gal := rfl
@[simp] theorem updSec_cfg (f : Sec → Sec) : (updSec f s).cfg = s.cfg := rfl
@[simp] theorem updSec_cfgPending (f : Sec → Sec) : (updSec f s).cfgPending = s.cfgPending := rfl
@[simp] theorem updSec_draws (f : Sec → Sec) : (updSec f s).draws = s.draws := rfl
@[simp] theorem updSec_out (f : Sec → Sec) : (updSec f s).out = s.out := rfl
@[simp] theorem updSec_pending (f : Sec → Sec) : (updSec f s).pending = s.pending := rfl

/-! `updIntg` -/

@[simp] theorem updIntg_clock (f : Intg → Intg) : (updIntg f s).clock = s.clock := rfl
@[simp] theorem updIntg_sys (f : Intg → Intg) : (updIntg f s).sys = s.sys := rfl
@[simp] theorem updIntg_pair (f : Intg → Intg) : (updIntg f s).pair = s.pair := rfl
@[simp] theorem updIntg_hif (f : Intg → Intg) : (updIntg f s).hif = s.hif := rfl
@[simp] theorem updIntg_evr (f : Intg → Intg) : (updIntg f s).evr = s.evr := rfl
@[simp] theorem updIntg_sec (f : Intg → Intg) : (updIntg f s).sec = s.sec := rfl
@[simp] theorem updIntg_tamp (f : Intg → Intg) : (updIntg f s).tamp = s.tamp := rfl
@[simp] theorem updIntg_intg (f : Intg → Intg) : (updIntg f s).intg = f s.intg := rfl
@[simp] theorem updIntg_pwr (f : Intg → Intg) : (updIntg f s).pwr = s.pwr := rfl
@[simp] theorem updIntg_mth (f : Intg → Intg) : (updIntg f s).mth = s.mth := rfl
@[simp] theorem updIntg_mel (f : Intg → Intg) : (updIntg f s).mel = s.mel := rfl
@[simp] theorem updIntg_bill (f : Intg → Intg) : (updIntg f s).bill = s.bill := rfl
@[simp] theorem updIntg_time (f : Intg → Intg) : (updIntg f s).time = s.time := rfl
@[simp] theorem updIntg_pio (f : Intg → Intg) : (updIntg f s).pio = s.pio := rfl
@[simp] theorem updIntg_pioBegan (f : Intg → Intg) : (updIntg f s).pioBegan = s.pioBegan := rfl
@[simp] theorem updIntg_ctrl (f : Intg → Intg) : (updIntg f s).ctrl = s.ctrl := rfl
@[simp] theorem updIntg_vax (f : Intg → Intg) : (updIntg f s).vax = s.vax := rfl
@[simp] theorem updIntg_eth (f : Intg → Intg) : (updIntg f s).eth = s.eth := rfl
@[simp] theorem updIntg_rtc (f : Intg → Intg) : (updIntg f s).rtc = s.rtc := rfl
@[simp] theorem updIntg_epd (f : Intg → Intg) : (updIntg f s).epd = s.epd := rfl
@[simp] theorem updIntg_subl (f : Intg → Intg) : (updIntg f s).subl = s.subl := rfl
@[simp] theorem updIntg_nmod (f : Intg → Intg) : (updIntg f s).nmod = s.nmod := rfl
@[simp] theorem updIntg_solv (f : Intg → Intg) : (updIntg f s).solv = s.solv := rfl
@[simp] theorem updIntg_gal (f : Intg → Intg) : (updIntg f s).gal = s.gal := rfl
@[simp] theorem updIntg_cfg (f : Intg → Intg) : (updIntg f s).cfg = s.cfg := rfl
@[simp] theorem updIntg_cfgPending (f : Intg → Intg) : (updIntg f s).cfgPending = s.cfgPending := rfl
@[simp] theorem updIntg_draws (f : Intg → Intg) : (updIntg f s).draws = s.draws := rfl
@[simp] theorem updIntg_out (f : Intg → Intg) : (updIntg f s).out = s.out := rfl
@[simp] theorem updIntg_pending (f : Intg → Intg) : (updIntg f s).pending = s.pending := rfl

/-! `updCtrl` -/

@[simp] theorem updCtrl_clock (f : Ctrl → Ctrl) : (updCtrl f s).clock = s.clock := rfl
@[simp] theorem updCtrl_sys (f : Ctrl → Ctrl) : (updCtrl f s).sys = s.sys := rfl
@[simp] theorem updCtrl_pair (f : Ctrl → Ctrl) : (updCtrl f s).pair = s.pair := rfl
@[simp] theorem updCtrl_hif (f : Ctrl → Ctrl) : (updCtrl f s).hif = s.hif := rfl
@[simp] theorem updCtrl_evr (f : Ctrl → Ctrl) : (updCtrl f s).evr = s.evr := rfl
@[simp] theorem updCtrl_sec (f : Ctrl → Ctrl) : (updCtrl f s).sec = s.sec := rfl
@[simp] theorem updCtrl_tamp (f : Ctrl → Ctrl) : (updCtrl f s).tamp = s.tamp := rfl
@[simp] theorem updCtrl_intg (f : Ctrl → Ctrl) : (updCtrl f s).intg = s.intg := rfl
@[simp] theorem updCtrl_pwr (f : Ctrl → Ctrl) : (updCtrl f s).pwr = s.pwr := rfl
@[simp] theorem updCtrl_mth (f : Ctrl → Ctrl) : (updCtrl f s).mth = s.mth := rfl
@[simp] theorem updCtrl_mel (f : Ctrl → Ctrl) : (updCtrl f s).mel = s.mel := rfl
@[simp] theorem updCtrl_bill (f : Ctrl → Ctrl) : (updCtrl f s).bill = s.bill := rfl
@[simp] theorem updCtrl_time (f : Ctrl → Ctrl) : (updCtrl f s).time = s.time := rfl
@[simp] theorem updCtrl_pio (f : Ctrl → Ctrl) : (updCtrl f s).pio = s.pio := rfl
@[simp] theorem updCtrl_pioBegan (f : Ctrl → Ctrl) : (updCtrl f s).pioBegan = s.pioBegan := rfl
@[simp] theorem updCtrl_ctrl (f : Ctrl → Ctrl) : (updCtrl f s).ctrl = f s.ctrl := rfl
@[simp] theorem updCtrl_vax (f : Ctrl → Ctrl) : (updCtrl f s).vax = s.vax := rfl
@[simp] theorem updCtrl_eth (f : Ctrl → Ctrl) : (updCtrl f s).eth = s.eth := rfl
@[simp] theorem updCtrl_rtc (f : Ctrl → Ctrl) : (updCtrl f s).rtc = s.rtc := rfl
@[simp] theorem updCtrl_epd (f : Ctrl → Ctrl) : (updCtrl f s).epd = s.epd := rfl
@[simp] theorem updCtrl_subl (f : Ctrl → Ctrl) : (updCtrl f s).subl = s.subl := rfl
@[simp] theorem updCtrl_nmod (f : Ctrl → Ctrl) : (updCtrl f s).nmod = s.nmod := rfl
@[simp] theorem updCtrl_solv (f : Ctrl → Ctrl) : (updCtrl f s).solv = s.solv := rfl
@[simp] theorem updCtrl_gal (f : Ctrl → Ctrl) : (updCtrl f s).gal = s.gal := rfl
@[simp] theorem updCtrl_cfg (f : Ctrl → Ctrl) : (updCtrl f s).cfg = s.cfg := rfl
@[simp] theorem updCtrl_cfgPending (f : Ctrl → Ctrl) : (updCtrl f s).cfgPending = s.cfgPending := rfl
@[simp] theorem updCtrl_draws (f : Ctrl → Ctrl) : (updCtrl f s).draws = s.draws := rfl
@[simp] theorem updCtrl_out (f : Ctrl → Ctrl) : (updCtrl f s).out = s.out := rfl
@[simp] theorem updCtrl_pending (f : Ctrl → Ctrl) : (updCtrl f s).pending = s.pending := rfl

/-! `updEpd` -/

@[simp] theorem updEpd_clock (f : Epd → Epd) : (updEpd f s).clock = s.clock := rfl
@[simp] theorem updEpd_sys (f : Epd → Epd) : (updEpd f s).sys = s.sys := rfl
@[simp] theorem updEpd_pair (f : Epd → Epd) : (updEpd f s).pair = s.pair := rfl
@[simp] theorem updEpd_hif (f : Epd → Epd) : (updEpd f s).hif = s.hif := rfl
@[simp] theorem updEpd_evr (f : Epd → Epd) : (updEpd f s).evr = s.evr := rfl
@[simp] theorem updEpd_sec (f : Epd → Epd) : (updEpd f s).sec = s.sec := rfl
@[simp] theorem updEpd_tamp (f : Epd → Epd) : (updEpd f s).tamp = s.tamp := rfl
@[simp] theorem updEpd_intg (f : Epd → Epd) : (updEpd f s).intg = s.intg := rfl
@[simp] theorem updEpd_pwr (f : Epd → Epd) : (updEpd f s).pwr = s.pwr := rfl
@[simp] theorem updEpd_mth (f : Epd → Epd) : (updEpd f s).mth = s.mth := rfl
@[simp] theorem updEpd_mel (f : Epd → Epd) : (updEpd f s).mel = s.mel := rfl
@[simp] theorem updEpd_bill (f : Epd → Epd) : (updEpd f s).bill = s.bill := rfl
@[simp] theorem updEpd_time (f : Epd → Epd) : (updEpd f s).time = s.time := rfl
@[simp] theorem updEpd_pio (f : Epd → Epd) : (updEpd f s).pio = s.pio := rfl
@[simp] theorem updEpd_pioBegan (f : Epd → Epd) : (updEpd f s).pioBegan = s.pioBegan := rfl
@[simp] theorem updEpd_ctrl (f : Epd → Epd) : (updEpd f s).ctrl = s.ctrl := rfl
@[simp] theorem updEpd_vax (f : Epd → Epd) : (updEpd f s).vax = s.vax := rfl
@[simp] theorem updEpd_eth (f : Epd → Epd) : (updEpd f s).eth = s.eth := rfl
@[simp] theorem updEpd_rtc (f : Epd → Epd) : (updEpd f s).rtc = s.rtc := rfl
@[simp] theorem updEpd_epd (f : Epd → Epd) : (updEpd f s).epd = f s.epd := rfl
@[simp] theorem updEpd_subl (f : Epd → Epd) : (updEpd f s).subl = s.subl := rfl
@[simp] theorem updEpd_nmod (f : Epd → Epd) : (updEpd f s).nmod = s.nmod := rfl
@[simp] theorem updEpd_solv (f : Epd → Epd) : (updEpd f s).solv = s.solv := rfl
@[simp] theorem updEpd_gal (f : Epd → Epd) : (updEpd f s).gal = s.gal := rfl
@[simp] theorem updEpd_cfg (f : Epd → Epd) : (updEpd f s).cfg = s.cfg := rfl
@[simp] theorem updEpd_cfgPending (f : Epd → Epd) : (updEpd f s).cfgPending = s.cfgPending := rfl
@[simp] theorem updEpd_draws (f : Epd → Epd) : (updEpd f s).draws = s.draws := rfl
@[simp] theorem updEpd_out (f : Epd → Epd) : (updEpd f s).out = s.out := rfl
@[simp] theorem updEpd_pending (f : Epd → Epd) : (updEpd f s).pending = s.pending := rfl

/-! `updRtc` -/

@[simp] theorem updRtc_clock (f : Rtc → Rtc) : (updRtc f s).clock = s.clock := rfl
@[simp] theorem updRtc_sys (f : Rtc → Rtc) : (updRtc f s).sys = s.sys := rfl
@[simp] theorem updRtc_pair (f : Rtc → Rtc) : (updRtc f s).pair = s.pair := rfl
@[simp] theorem updRtc_hif (f : Rtc → Rtc) : (updRtc f s).hif = s.hif := rfl
@[simp] theorem updRtc_evr (f : Rtc → Rtc) : (updRtc f s).evr = s.evr := rfl
@[simp] theorem updRtc_sec (f : Rtc → Rtc) : (updRtc f s).sec = s.sec := rfl
@[simp] theorem updRtc_tamp (f : Rtc → Rtc) : (updRtc f s).tamp = s.tamp := rfl
@[simp] theorem updRtc_intg (f : Rtc → Rtc) : (updRtc f s).intg = s.intg := rfl
@[simp] theorem updRtc_pwr (f : Rtc → Rtc) : (updRtc f s).pwr = s.pwr := rfl
@[simp] theorem updRtc_mth (f : Rtc → Rtc) : (updRtc f s).mth = s.mth := rfl
@[simp] theorem updRtc_mel (f : Rtc → Rtc) : (updRtc f s).mel = s.mel := rfl
@[simp] theorem updRtc_bill (f : Rtc → Rtc) : (updRtc f s).bill = s.bill := rfl
@[simp] theorem updRtc_time (f : Rtc → Rtc) : (updRtc f s).time = s.time := rfl
@[simp] theorem updRtc_pio (f : Rtc → Rtc) : (updRtc f s).pio = s.pio := rfl
@[simp] theorem updRtc_pioBegan (f : Rtc → Rtc) : (updRtc f s).pioBegan = s.pioBegan := rfl
@[simp] theorem updRtc_ctrl (f : Rtc → Rtc) : (updRtc f s).ctrl = s.ctrl := rfl
@[simp] theorem updRtc_vax (f : Rtc → Rtc) : (updRtc f s).vax = s.vax := rfl
@[simp] theorem updRtc_eth (f : Rtc → Rtc) : (updRtc f s).eth = s.eth := rfl
@[simp] theorem updRtc_rtc (f : Rtc → Rtc) : (updRtc f s).rtc = f s.rtc := rfl
@[simp] theorem updRtc_epd (f : Rtc → Rtc) : (updRtc f s).epd = s.epd := rfl
@[simp] theorem updRtc_subl (f : Rtc → Rtc) : (updRtc f s).subl = s.subl := rfl
@[simp] theorem updRtc_nmod (f : Rtc → Rtc) : (updRtc f s).nmod = s.nmod := rfl
@[simp] theorem updRtc_solv (f : Rtc → Rtc) : (updRtc f s).solv = s.solv := rfl
@[simp] theorem updRtc_gal (f : Rtc → Rtc) : (updRtc f s).gal = s.gal := rfl
@[simp] theorem updRtc_cfg (f : Rtc → Rtc) : (updRtc f s).cfg = s.cfg := rfl
@[simp] theorem updRtc_cfgPending (f : Rtc → Rtc) : (updRtc f s).cfgPending = s.cfgPending := rfl
@[simp] theorem updRtc_draws (f : Rtc → Rtc) : (updRtc f s).draws = s.draws := rfl
@[simp] theorem updRtc_out (f : Rtc → Rtc) : (updRtc f s).out = s.out := rfl
@[simp] theorem updRtc_pending (f : Rtc → Rtc) : (updRtc f s).pending = s.pending := rfl

/-! `updTime` -/

@[simp] theorem updTime_clock (f : TimeB → TimeB) : (updTime f s).clock = s.clock := rfl
@[simp] theorem updTime_sys (f : TimeB → TimeB) : (updTime f s).sys = s.sys := rfl
@[simp] theorem updTime_pair (f : TimeB → TimeB) : (updTime f s).pair = s.pair := rfl
@[simp] theorem updTime_hif (f : TimeB → TimeB) : (updTime f s).hif = s.hif := rfl
@[simp] theorem updTime_evr (f : TimeB → TimeB) : (updTime f s).evr = s.evr := rfl
@[simp] theorem updTime_sec (f : TimeB → TimeB) : (updTime f s).sec = s.sec := rfl
@[simp] theorem updTime_tamp (f : TimeB → TimeB) : (updTime f s).tamp = s.tamp := rfl
@[simp] theorem updTime_intg (f : TimeB → TimeB) : (updTime f s).intg = s.intg := rfl
@[simp] theorem updTime_pwr (f : TimeB → TimeB) : (updTime f s).pwr = s.pwr := rfl
@[simp] theorem updTime_mth (f : TimeB → TimeB) : (updTime f s).mth = s.mth := rfl
@[simp] theorem updTime_mel (f : TimeB → TimeB) : (updTime f s).mel = s.mel := rfl
@[simp] theorem updTime_bill (f : TimeB → TimeB) : (updTime f s).bill = s.bill := rfl
@[simp] theorem updTime_time (f : TimeB → TimeB) : (updTime f s).time = f s.time := rfl
@[simp] theorem updTime_pio (f : TimeB → TimeB) : (updTime f s).pio = s.pio := rfl
@[simp] theorem updTime_pioBegan (f : TimeB → TimeB) : (updTime f s).pioBegan = s.pioBegan := rfl
@[simp] theorem updTime_ctrl (f : TimeB → TimeB) : (updTime f s).ctrl = s.ctrl := rfl
@[simp] theorem updTime_vax (f : TimeB → TimeB) : (updTime f s).vax = s.vax := rfl
@[simp] theorem updTime_eth (f : TimeB → TimeB) : (updTime f s).eth = s.eth := rfl
@[simp] theorem updTime_rtc (f : TimeB → TimeB) : (updTime f s).rtc = s.rtc := rfl
@[simp] theorem updTime_epd (f : TimeB → TimeB) : (updTime f s).epd = s.epd := rfl
@[simp] theorem updTime_subl (f : TimeB → TimeB) : (updTime f s).subl = s.subl := rfl
@[simp] theorem updTime_nmod (f : TimeB → TimeB) : (updTime f s).nmod = s.nmod := rfl
@[simp] theorem updTime_solv (f : TimeB → TimeB) : (updTime f s).solv = s.solv := rfl
@[simp] theorem updTime_gal (f : TimeB → TimeB) : (updTime f s).gal = s.gal := rfl
@[simp] theorem updTime_cfg (f : TimeB → TimeB) : (updTime f s).cfg = s.cfg := rfl
@[simp] theorem updTime_cfgPending (f : TimeB → TimeB) : (updTime f s).cfgPending = s.cfgPending := rfl
@[simp] theorem updTime_draws (f : TimeB → TimeB) : (updTime f s).draws = s.draws := rfl
@[simp] theorem updTime_out (f : TimeB → TimeB) : (updTime f s).out = s.out := rfl
@[simp] theorem updTime_pending (f : TimeB → TimeB) : (updTime f s).pending = s.pending := rfl

/-! `updSubl` -/

@[simp] theorem updSubl_clock (index : Nat) (f : SublEntry → SublEntry) : (updSubl index f s).clock = s.clock := rfl
@[simp] theorem updSubl_sys (index : Nat) (f : SublEntry → SublEntry) : (updSubl index f s).sys = s.sys := rfl
@[simp] theorem updSubl_pair (index : Nat) (f : SublEntry → SublEntry) : (updSubl index f s).pair = s.pair := rfl
@[simp] theorem updSubl_hif (index : Nat) (f : SublEntry → SublEntry) : (updSubl index f s).hif = s.hif := rfl
@[simp] theorem updSubl_evr (index : Nat) (f : SublEntry → SublEntry) : (updSubl index f s).evr = s.evr := rfl
@[simp] theorem updSubl_sec (index : Nat) (f : SublEntry → SublEntry) : (updSubl index f s).sec = s.sec := rfl
@[simp] theorem updSubl_tamp (index : Nat) (f : SublEntry → SublEntry) : (updSubl index f s).tamp = s.tamp := rfl
@[simp] theorem updSubl_intg (index : Nat) (f : SublEntry → SublEntry) : (updSubl index f s).intg = s.intg := rfl
@[simp] theorem updSubl_pwr (index : Nat) (f : SublEntry → SublEntry) : (updSubl index f s).pwr = s.pwr := rfl
@[simp] theorem updSubl_mth (index : Nat) (f : SublEntry → SublEntry) : (updSubl index f s).mth = s.mth := rfl
@[simp] theorem updSubl_mel (index : Nat) (f : SublEntry → SublEntry) : (updSubl index f s).mel = s.mel := rfl
@[simp] theorem updSubl_bill (index : Nat) (f : SublEntry → SublEntry) : (updSubl index f s).bill = s.bill := rfl
@[simp] theorem updSubl_time (index : Nat) (f : SublEntry → SublEntry) : (updSubl index f s).time = s.time := rfl
@[simp] theorem updSubl_pio (index : Nat) (f : SublEntry → SublEntry) : (updSubl index f s).pio = s.pio := rfl
@[simp] theorem updSubl_pioBegan (index : Nat) (f : SublEntry → SublEntry) : (updSubl index f s).pioBegan = s.pioBegan := rfl
@[simp] theorem updSubl_ctrl (index : Nat) (f : SublEntry → SublEntry) : (updSubl index f s).ctrl = s.ctrl := rfl
@[simp] theorem updSubl_vax (index : Nat) (f : SublEntry → SublEntry) : (updSubl index f s).vax = s.vax := rfl
@[simp] theorem updSubl_eth (index : Nat) (f : SublEntry → SublEntry) : (updSubl index f s).eth = s.eth := rfl
@[simp] theorem updSubl_rtc (index : Nat) (f : SublEntry → SublEntry) : (updSubl index f s).rtc = s.rtc := rfl
@[simp] theorem updSubl_epd (index : Nat) (f : SublEntry → SublEntry) : (updSubl index f s).epd = s.epd := rfl
@[simp] theorem updSubl_subl (index : Nat) (f : SublEntry → SublEntry) : (updSubl index f s).subl = { s.subl with entries := s.subl.entries.map fun x => if x.index = index then f x else x } := rfl
@[simp] theorem updSubl_nmod (index : Nat) (f : SublEntry → SublEntry) : (updSubl index f s).nmod = s.nmod := rfl
@[simp] theorem updSubl_solv (index : Nat) (f : SublEntry → SublEntry) : (updSubl index f s).solv = s.solv := rfl
@[simp] theorem updSubl_gal (index : Nat) (f : SublEntry → SublEntry) : (updSubl index f s).gal = s.gal := rfl
@[simp] theorem updSubl_cfg (index : Nat) (f : SublEntry → SublEntry) : (updSubl index f s).cfg = s.cfg := rfl
@[simp] theorem updSubl_cfgPending (index : Nat) (f : SublEntry → SublEntry) : (updSubl index f s).cfgPending = s.cfgPending := rfl
@[simp] theorem updSubl_draws (index : Nat) (f : SublEntry → SublEntry) : (updSubl index f s).draws = s.draws := rfl
@[simp] theorem updSubl_out (index : Nat) (f : SublEntry → SublEntry) : (updSubl index f s).out = s.out := rfl
@[simp] theorem updSubl_pending (index : Nat) (f : SublEntry → SublEntry) : (updSubl index f s).pending = s.pending := rfl

/-! `setEng` -/

@[simp] theorem setEng_clock (e : Nat) (x : Engine) : (setEng e x s).clock = s.clock := rfl
@[simp] theorem setEng_sys (e : Nat) (x : Engine) : (setEng e x s).sys = s.sys := rfl
@[simp] theorem setEng_pair (e : Nat) (x : Engine) : (setEng e x s).pair = s.pair := rfl
@[simp] theorem setEng_hif (e : Nat) (x : Engine) : (setEng e x s).hif = s.hif := rfl
@[simp] theorem setEng_evr (e : Nat) (x : Engine) : (setEng e x s).evr = s.evr := rfl
@[simp] theorem setEng_sec (e : Nat) (x : Engine) : (setEng e x s).sec = s.sec := rfl
@[simp] theorem setEng_tamp (e : Nat) (x : Engine) : (setEng e x s).tamp = s.tamp := rfl
@[simp] theorem setEng_intg (e : Nat) (x : Engine) : (setEng e x s).intg = s.intg := rfl
@[simp] theorem setEng_pwr (e : Nat) (x : Engine) : (setEng e x s).pwr = s.pwr := rfl
@[simp] theorem setEng_mth (e : Nat) (x : Engine) : (setEng e x s).mth = s.mth := rfl
@[simp] theorem setEng_mel (e : Nat) (x : Engine) : (setEng e x s).mel = s.mel := rfl
@[simp] theorem setEng_bill (e : Nat) (x : Engine) : (setEng e x s).bill = s.bill := rfl
@[simp] theorem setEng_time (e : Nat) (x : Engine) : (setEng e x s).time = s.time := rfl
@[simp] theorem setEng_pio (e : Nat) (x : Engine) : (setEng e x s).pio = s.pio := rfl
@[simp] theorem setEng_pioBegan (e : Nat) (x : Engine) : (setEng e x s).pioBegan = s.pioBegan := rfl
@[simp] theorem setEng_ctrl (e : Nat) (x : Engine) : (setEng e x s).ctrl = { s.ctrl with engines := vset s.ctrl.engines e x } := rfl
@[simp] theorem setEng_vax (e : Nat) (x : Engine) : (setEng e x s).vax = s.vax := rfl
@[simp] theorem setEng_eth (e : Nat) (x : Engine) : (setEng e x s).eth = s.eth := rfl
@[simp] theorem setEng_rtc (e : Nat) (x : Engine) : (setEng e x s).rtc = s.rtc := rfl
@[simp] theorem setEng_epd (e : Nat) (x : Engine) : (setEng e x s).epd = s.epd := rfl
@[simp] theorem setEng_subl (e : Nat) (x : Engine) : (setEng e x s).subl = s.subl := rfl
@[simp] theorem setEng_nmod (e : Nat) (x : Engine) : (setEng e x s).nmod = s.nmod := rfl
@[simp] theorem setEng_solv (e : Nat) (x : Engine) : (setEng e x s).solv = s.solv := rfl
@[simp] theorem setEng_gal (e : Nat) (x : Engine) : (setEng e x s).gal = s.gal := rfl
@[simp] theorem setEng_cfg (e : Nat) (x : Engine) : (setEng e x s).cfg = s.cfg := rfl
@[simp] theorem setEng_cfgPending (e : Nat) (x : Engine) : (setEng e x s).cfgPending = s.cfgPending := rfl
@[simp] theorem setEng_draws (e : Nat) (x : Engine) : (setEng e x s).draws = s.draws := rfl
@[simp] theorem setEng_out (e : Nat) (x : Engine) : (setEng e x s).out = s.out := rfl
@[simp] theorem setEng_pending (e : Nat) (x : Engine) : (setEng e x s).pending = s.pending := rfl

/-! `updTask` -/

@[simp] theorem updTask_clock (e t : Nat) (f : TaskSt → TaskSt) : (updTask e t f s).clock = s.clock := rfl
@[simp] theorem updTask_sys (e t : Nat) (f : TaskSt → TaskSt) : (updTask e t f s).sys = s.sys := rfl
@[simp] theorem updTask_pair (e t : Nat) (f : TaskSt → TaskSt) : (updTask e t f s).pair = s.pair := rfl
@[simp] theorem updTask_hif (e t : Nat) (f : TaskSt → TaskSt) : (updTask e t f s).hif = s.hif := rfl
@[simp] theorem updTask_evr (e t : Nat) (f : TaskSt → TaskSt) : (updTask e t f s).evr = s.evr := rfl
@[simp] theorem updTask_sec (e t : Nat) (f : TaskSt → TaskSt) : (updTask e t f s).sec = s.sec := rfl
@[simp] theorem updTask_tamp (e t : Nat) (f : TaskSt → TaskSt) : (updTask e t f s).tamp = s.tamp := rfl
@[simp] theorem updTask_intg (e t : Nat) (f : TaskSt → TaskSt) : (updTask e t f s).intg = s.intg := rfl
@[simp] theorem updTask_pwr (e t : Nat) (f : TaskSt → TaskSt) : (updTask e t f s).pwr = s.pwr := rfl
@[simp] theorem updTask_mth (e t : Nat) (f : TaskSt → TaskSt) : (updTask e t f s).mth = s.mth := rfl
@[simp] theorem updTask_mel (e t : Nat) (f : TaskSt → TaskSt) : (updTask e t f s).mel = s.mel := rfl
@[simp] theorem updTask_bill (e t : Nat) (f : TaskSt → TaskSt) : (updTask e t f s).bill = s.bill := rfl
@[simp] theorem updTask_time (e t : Nat) (f : TaskSt → TaskSt) : (updTask e t f s).time = s.time := rfl
@[simp] theorem updTask_pio (e t : Nat) (f : TaskSt → TaskSt) : (updTask e t f s).pio = s.pio := rfl
@[simp] theorem updTask_pioBegan (e t : Nat) (f : TaskSt → TaskSt) : (updTask e t f s).pioBegan = s.pioBegan := rfl
@[simp] theorem updTask_ctrl (e t : Nat) (f : TaskSt → TaskSt) : (updTask e t f s).ctrl = { s.ctrl with tasks := s.ctrl.tasks.map fun x => if x.engine = e ∧ x.task = t then f x else x } := rfl
@[simp] theorem updTask_vax (e t : Nat) (f : TaskSt → TaskSt) : (updTask e t f s).vax = s.vax := rfl
@[simp] theorem updTask_eth (e t : Nat) (f : TaskSt → TaskSt) : (updTask e t f s).eth = s.eth := rfl
@[simp] theorem updTask_rtc (e t : Nat) (f : TaskSt → TaskSt) : (updTask e t f s).rtc = s.rtc := rfl
@[simp] theorem updTask_epd (e t : Nat) (f : TaskSt → TaskSt) : (updTask e t f s).epd = s.epd := rfl
@[simp] theorem updTask_subl (e t : Nat) (f : TaskSt → TaskSt) : (updTask e t f s).subl = s.subl := rfl
@[simp] theorem updTask_nmod (e t : Nat) (f : TaskSt → TaskSt) : (updTask e t f s).nmod = s.nmod := rfl
@[simp] theorem updTask_solv (e t : Nat) (f : TaskSt → TaskSt) : (updTask e t f s).solv = s.solv := rfl
@[simp] theorem updTask_gal (e t : Nat) (f : TaskSt → TaskSt) : (updTask e t f s).gal = s.gal := rfl
@[simp] theorem updTask_cfg (e t : Nat) (f : TaskSt → TaskSt) : (updTask e t f s).cfg = s.cfg := rfl
@[simp] theorem updTask_cfgPending (e t : Nat) (f : TaskSt → TaskSt) : (updTask e t f s).cfgPending = s.cfgPending := rfl
@[simp] theorem updTask_draws (e t : Nat) (f : TaskSt → TaskSt) : (updTask e t f s).draws = s.draws := rfl
@[simp] theorem updTask_out (e t : Nat) (f : TaskSt → TaskSt) : (updTask e t f s).out = s.out := rfl
@[simp] theorem updTask_pending (e t : Nat) (f : TaskSt → TaskSt) : (updTask e t f s).pending = s.pending := rfl

/-! `setMel` -/

@[simp] theorem setMel_clock (k : Nat) (m : MelSys) : (setMel k m s).clock = s.clock := rfl
@[simp] theorem setMel_sys (k : Nat) (m : MelSys) : (setMel k m s).sys = s.sys := rfl
@[simp] theorem setMel_pair (k : Nat) (m : MelSys) : (setMel k m s).pair = s.pair := rfl
@[simp] theorem setMel_hif (k : Nat) (m : MelSys) : (setMel k m s).hif = s.hif := rfl
@[simp] theorem setMel_evr (k : Nat) (m : MelSys) : (setMel k m s).evr = s.evr := rfl
@[simp] theorem setMel_sec (k : Nat) (m : MelSys) : (setMel k m s).sec = s.sec := rfl
@[simp] theorem setMel_tamp (k : Nat) (m : MelSys) : (setMel k m s).tamp = s.tamp := rfl
@[simp] theorem setMel_intg (k : Nat) (m : MelSys) : (setMel k m s).intg = s.intg := rfl
@[simp] theorem setMel_pwr (k : Nat) (m : MelSys) : (setMel k m s).pwr = s.pwr := rfl
@[simp] theorem setMel_mth (k : Nat) (m : MelSys) : (setMel k m s).mth = s.mth := rfl
@[simp] theorem setMel_mel (k : Nat) (m : MelSys) : (setMel k m s).mel = { s.mel with systems := vset s.mel.systems k m } := rfl
@[simp] theorem setMel_bill (k : Nat) (m : MelSys) : (setMel k m s).bill = s.bill := rfl
@[simp] theorem setMel_time (k : Nat) (m : MelSys) : (setMel k m s).time = s.time := rfl
@[simp] theorem setMel_pio (k : Nat) (m : MelSys) : (setMel k m s).pio = s.pio := rfl
@[simp] theorem setMel_pioBegan (k : Nat) (m : MelSys) : (setMel k m s).pioBegan = s.pioBegan := rfl
@[simp] theorem setMel_ctrl (k : Nat) (m : MelSys) : (setMel k m s).ctrl = s.ctrl := rfl
@[simp] theorem setMel_vax (k : Nat) (m : MelSys) : (setMel k m s).vax = s.vax := rfl
@[simp] theorem setMel_eth (k : Nat) (m : MelSys) : (setMel k m s).eth = s.eth := rfl
@[simp] theorem setMel_rtc (k : Nat) (m : MelSys) : (setMel k m s).rtc = s.rtc := rfl
@[simp] theorem setMel_epd (k : Nat) (m : MelSys) : (setMel k m s).epd = s.epd := rfl
@[simp] theorem setMel_subl (k : Nat) (m : MelSys) : (setMel k m s).subl = s.subl := rfl
@[simp] theorem setMel_nmod (k : Nat) (m : MelSys) : (setMel k m s).nmod = s.nmod := rfl
@[simp] theorem setMel_solv (k : Nat) (m : MelSys) : (setMel k m s).solv = s.solv := rfl
@[simp] theorem setMel_gal (k : Nat) (m : MelSys) : (setMel k m s).gal = s.gal := rfl
@[simp] theorem setMel_cfg (k : Nat) (m : MelSys) : (setMel k m s).cfg = s.cfg := rfl
@[simp] theorem setMel_cfgPending (k : Nat) (m : MelSys) : (setMel k m s).cfgPending = s.cfgPending := rfl
@[simp] theorem setMel_draws (k : Nat) (m : MelSys) : (setMel k m s).draws = s.draws := rfl
@[simp] theorem setMel_out (k : Nat) (m : MelSys) : (setMel k m s).out = s.out := rfl
@[simp] theorem setMel_pending (k : Nat) (m : MelSys) : (setMel k m s).pending = s.pending := rfl

/-! `setAxis` -/

@[simp] theorem setAxis_clock (a : Nat) (x : Axis) : (setAxis a x s).clock = s.clock := rfl
@[simp] theorem setAxis_sys (a : Nat) (x : Axis) : (setAxis a x s).sys = s.sys := rfl
@[simp] theorem setAxis_pair (a : Nat) (x : Axis) : (setAxis a x s).pair = s.pair := rfl
@[simp] theorem setAxis_hif (a : Nat) (x : Axis) : (setAxis a x s).hif = s.hif := rfl
@[simp] theorem setAxis_evr (a : Nat) (x : Axis) : (setAxis a x s).evr = s.evr := rfl
@[simp] theorem setAxis_sec (a : Nat) (x : Axis) : (setAxis a x s).sec = s.sec := rfl
@[simp] theorem setAxis_tamp (a : Nat) (x : Axis) : (setAxis a x s).tamp = s.tamp := rfl
@[simp] theorem setAxis_intg (a : Nat) (x : Axis) : (setAxis a x s).intg = s.intg := rfl
@[simp] theorem setAxis_pwr (a : Nat) (x : Axis) : (setAxis a x s).pwr = s.pwr := rfl
@[simp] theorem setAxis_mth (a : Nat) (x : Axis) : (setAxis a x s).mth = s.mth := rfl
@[simp] theorem setAxis_mel (a : Nat) (x : Axis) : (setAxis a x s).mel = s.mel := rfl
@[simp] theorem setAxis_bill (a : Nat) (x : Axis) : (setAxis a x s).bill = s.bill := rfl
@[simp] theorem setAxis_time (a : Nat) (x : Axis) : (setAxis a x s).time = s.time := rfl
@[simp] theorem setAxis_pio (a : Nat) (x : Axis) : (setAxis a x s).pio = s.pio := rfl
@[simp] theorem setAxis_pioBegan (a : Nat) (x : Axis) : (setAxis a x s).pioBegan = s.pioBegan := rfl
@[simp] theorem setAxis_ctrl (a : Nat) (x : Axis) : (setAxis a x s).ctrl = s.ctrl := rfl
@[simp] theorem setAxis_vax (a : Nat) (x : Axis) : (setAxis a x s).vax = { s.vax with axes := vset s.vax.axes a x } := rfl
@[simp] theorem setAxis_eth (a : Nat) (x : Axis) : (setAxis a x s).eth = s.eth := rfl
@[simp] theorem setAxis_rtc (a : Nat) (x : Axis) : (setAxis a x s).rtc = s.rtc := rfl
@[simp] theorem setAxis_epd (a : Nat) (x : Axis) : (setAxis a x s).epd = s.epd := rfl
@[simp] theorem setAxis_subl (a : Nat) (x : Axis) : (setAxis a x s).subl = s.subl := rfl
@[simp] theorem setAxis_nmod (a : Nat) (x : Axis) : (setAxis a x s).nmod = s.nmod := rfl
@[simp] theorem setAxis_solv (a : Nat) (x : Axis) : (setAxis a x s).solv = s.solv := rfl
@[simp] theorem setAxis_gal (a : Nat) (x : Axis) : (setAxis a x s).gal = s.gal := rfl
@[simp] theorem setAxis_cfg (a : Nat) (x : Axis) : (setAxis a x s).cfg = s.cfg := rfl
@[simp] theorem setAxis_cfgPending (a : Nat) (x : Axis) : (setAxis a x s).cfgPending = s.cfgPending := rfl
@[simp] theorem setAxis_draws (a : Nat) (x : Axis) : (setAxis a x s).draws = s.draws := rfl
@[simp] theorem setAxis_out (a : Nat) (x : Axis) : (setAxis a x s).out = s.out := rfl
@[simp] theorem setAxis_pending (a : Nat) (x : Axis) : (setAxis a x s).pending = s.pending := rfl

/-! `setP` -/

@[simp] theorem setP_clock (id v : Nat) : (setP id v s).clock = s.clock := rfl
@[simp] theorem setP_sys (id v : Nat) : (setP id v s).sys = s.sys := rfl
@[simp] theorem setP_pair (id v : Nat) : (setP id v s).pair = s.pair := rfl
@[simp] theorem setP_hif (id v : Nat) : (setP id v s).hif = s.hif := rfl
@[simp] theorem setP_evr (id v : Nat) : (setP id v s).evr = s.evr := rfl
@[simp] theorem setP_sec (id v : Nat) : (setP id v s).sec = s.sec := rfl
@[simp] theorem setP_tamp (id v : Nat) : (setP id v s).tamp = s.tamp := rfl
@[simp] theorem setP_intg (id v : Nat) : (setP id v s).intg = s.intg := rfl
@[simp] theorem setP_pwr (id v : Nat) : (setP id v s).pwr = s.pwr := rfl
@[simp] theorem setP_mth (id v : Nat) : (setP id v s).mth = s.mth := rfl
@[simp] theorem setP_mel (id v : Nat) : (setP id v s).mel = s.mel := rfl
@[simp] theorem setP_bill (id v : Nat) : (setP id v s).bill = s.bill := rfl
@[simp] theorem setP_time (id v : Nat) : (setP id v s).time = s.time := rfl
@[simp] theorem setP_pio (id v : Nat) : (setP id v s).pio = s.pio := rfl
@[simp] theorem setP_pioBegan (id v : Nat) : (setP id v s).pioBegan = s.pioBegan := rfl
@[simp] theorem setP_ctrl (id v : Nat) : (setP id v s).ctrl = s.ctrl := rfl
@[simp] theorem setP_vax (id v : Nat) : (setP id v s).vax = s.vax := rfl
@[simp] theorem setP_eth (id v : Nat) : (setP id v s).eth = s.eth := rfl
@[simp] theorem setP_rtc (id v : Nat) : (setP id v s).rtc = s.rtc := rfl
@[simp] theorem setP_epd (id v : Nat) : (setP id v s).epd = s.epd := rfl
@[simp] theorem setP_subl (id v : Nat) : (setP id v s).subl = s.subl := rfl
@[simp] theorem setP_nmod (id v : Nat) : (setP id v s).nmod = s.nmod := rfl
@[simp] theorem setP_solv (id v : Nat) : (setP id v s).solv = s.solv := rfl
@[simp] theorem setP_gal (id v : Nat) : (setP id v s).gal = s.gal := rfl
@[simp] theorem setP_cfg (id v : Nat) : (setP id v s).cfg = tableSet pdflt s.cfg id v := rfl
@[simp] theorem setP_cfgPending (id v : Nat) : (setP id v s).cfgPending = s.cfgPending := rfl
@[simp] theorem setP_draws (id v : Nat) : (setP id v s).draws = s.draws := rfl
@[simp] theorem setP_out (id v : Nat) : (setP id v s).out = s.out := rfl
@[simp] theorem setP_pending (id v : Nat) : (setP id v s).pending = s.pending := rfl

/-! `putPending` -/

@[simp] theorem putPending_clock (v : PendingValue) : (putPending v s).clock = s.clock := rfl
@[simp] theorem putPending_sys (v : PendingValue) : (putPending v s).sys = s.sys := rfl
@[simp] theorem putPending_pair (v : PendingValue) : (putPending v s).pair = s.pair := rfl
@[simp] theorem putPending_hif (v : PendingValue) : (putPending v s).hif = s.hif := rfl
@[simp] theorem putPending_evr (v : PendingValue) : (putPending v s).evr = s.evr := rfl
@[simp] theorem putPending_sec (v : PendingValue) : (putPending v s).sec = s.sec := rfl
@[simp] theorem putPending_tamp (v : PendingValue) : (putPending v s).tamp = s.tamp := rfl
@[simp] theorem putPending_intg (v : PendingValue) : (putPending v s).intg = s.intg := rfl
@[simp] theorem putPending_pwr (v : PendingValue) : (putPending v s).pwr = s.pwr := rfl
@[simp] theorem putPending_mth (v : PendingValue) : (putPending v s).mth = s.mth := rfl
@[simp] theorem putPending_mel (v : PendingValue) : (putPending v s).mel = s.mel := rfl
@[simp] theorem putPending_bill (v : PendingValue) : (putPending v s).bill = s.bill := rfl
@[simp] theorem putPending_time (v : PendingValue) : (putPending v s).time = s.time := rfl
@[simp] theorem putPending_pio (v : PendingValue) : (putPending v s).pio = s.pio := rfl
@[simp] theorem putPending_pioBegan (v : PendingValue) : (putPending v s).pioBegan = s.pioBegan := rfl
@[simp] theorem putPending_ctrl (v : PendingValue) : (putPending v s).ctrl = s.ctrl := rfl
@[simp] theorem putPending_vax (v : PendingValue) : (putPending v s).vax = s.vax := rfl
@[simp] theorem putPending_eth (v : PendingValue) : (putPending v s).eth = s.eth := rfl
@[simp] theorem putPending_rtc (v : PendingValue) : (putPending v s).rtc = s.rtc := rfl
@[simp] theorem putPending_epd (v : PendingValue) : (putPending v s).epd = s.epd := rfl
@[simp] theorem putPending_subl (v : PendingValue) : (putPending v s).subl = s.subl := rfl
@[simp] theorem putPending_nmod (v : PendingValue) : (putPending v s).nmod = s.nmod := rfl
@[simp] theorem putPending_solv (v : PendingValue) : (putPending v s).solv = s.solv := rfl
@[simp] theorem putPending_gal (v : PendingValue) : (putPending v s).gal = s.gal := rfl
@[simp] theorem putPending_cfg (v : PendingValue) : (putPending v s).cfg = s.cfg := rfl
@[simp] theorem putPending_cfgPending (v : PendingValue) : (putPending v s).cfgPending = (s.cfgPending.filter fun x => x.id != v.id) ++ [v] := rfl
@[simp] theorem putPending_draws (v : PendingValue) : (putPending v s).draws = s.draws := rfl
@[simp] theorem putPending_out (v : PendingValue) : (putPending v s).out = s.out := rfl
@[simp] theorem putPending_pending (v : PendingValue) : (putPending v s).pending = s.pending := rfl

/-! `setFlights` -/

@[simp] theorem setFlights_clock (mask : Nat) (p : FlightPower) : (setFlights mask p s).clock = s.clock := rfl
@[simp] theorem setFlights_sys (mask : Nat) (p : FlightPower) : (setFlights mask p s).sys = s.sys := rfl
@[simp] theorem setFlights_pair (mask : Nat) (p : FlightPower) : (setFlights mask p s).pair = s.pair := rfl
@[simp] theorem setFlights_hif (mask : Nat) (p : FlightPower) : (setFlights mask p s).hif = s.hif := rfl
@[simp] theorem setFlights_evr (mask : Nat) (p : FlightPower) : (setFlights mask p s).evr = s.evr := rfl
@[simp] theorem setFlights_sec (mask : Nat) (p : FlightPower) : (setFlights mask p s).sec = s.sec := rfl
@[simp] theorem setFlights_tamp (mask : Nat) (p : FlightPower) : (setFlights mask p s).tamp = s.tamp := rfl
@[simp] theorem setFlights_intg (mask : Nat) (p : FlightPower) : (setFlights mask p s).intg = s.intg := rfl
@[simp] theorem setFlights_mth (mask : Nat) (p : FlightPower) : (setFlights mask p s).mth = s.mth := rfl
@[simp] theorem setFlights_mel (mask : Nat) (p : FlightPower) : (setFlights mask p s).mel = s.mel := rfl
@[simp] theorem setFlights_bill (mask : Nat) (p : FlightPower) : (setFlights mask p s).bill = s.bill := rfl
@[simp] theorem setFlights_time (mask : Nat) (p : FlightPower) : (setFlights mask p s).time = s.time := rfl
@[simp] theorem setFlights_pio (mask : Nat) (p : FlightPower) : (setFlights mask p s).pio = s.pio := rfl
@[simp] theorem setFlights_pioBegan (mask : Nat) (p : FlightPower) : (setFlights mask p s).pioBegan = s.pioBegan := rfl
@[simp] theorem setFlights_ctrl (mask : Nat) (p : FlightPower) : (setFlights mask p s).ctrl = s.ctrl := rfl
@[simp] theorem setFlights_vax (mask : Nat) (p : FlightPower) : (setFlights mask p s).vax = s.vax := rfl
@[simp] theorem setFlights_eth (mask : Nat) (p : FlightPower) : (setFlights mask p s).eth = s.eth := rfl
@[simp] theorem setFlights_rtc (mask : Nat) (p : FlightPower) : (setFlights mask p s).rtc = s.rtc := rfl
@[simp] theorem setFlights_epd (mask : Nat) (p : FlightPower) : (setFlights mask p s).epd = s.epd := rfl
@[simp] theorem setFlights_subl (mask : Nat) (p : FlightPower) : (setFlights mask p s).subl = s.subl := rfl
@[simp] theorem setFlights_nmod (mask : Nat) (p : FlightPower) : (setFlights mask p s).nmod = s.nmod := rfl
@[simp] theorem setFlights_solv (mask : Nat) (p : FlightPower) : (setFlights mask p s).solv = s.solv := rfl
@[simp] theorem setFlights_gal (mask : Nat) (p : FlightPower) : (setFlights mask p s).gal = s.gal := rfl
@[simp] theorem setFlights_cfg (mask : Nat) (p : FlightPower) : (setFlights mask p s).cfg = s.cfg := rfl
@[simp] theorem setFlights_cfgPending (mask : Nat) (p : FlightPower) : (setFlights mask p s).cfgPending = s.cfgPending := rfl
@[simp] theorem setFlights_draws (mask : Nat) (p : FlightPower) : (setFlights mask p s).draws = s.draws := rfl
@[simp] theorem setFlights_out (mask : Nat) (p : FlightPower) : (setFlights mask p s).out = s.out := rfl
@[simp] theorem setFlights_pending (mask : Nat) (p : FlightPower) : (setFlights mask p s).pending = s.pending := rfl

/-! `countForeign` -/

@[simp] theorem countForeign_clock : (countForeign s).clock = s.clock := rfl
@[simp] theorem countForeign_sys : (countForeign s).sys = s.sys := rfl
@[simp] theorem countForeign_pair : (countForeign s).pair = s.pair := rfl
@[simp] theorem countForeign_hif : (countForeign s).hif = s.hif := rfl
@[simp] theorem countForeign_evr : (countForeign s).evr = s.evr := rfl
@[simp] theorem countForeign_sec : (countForeign s).sec = s.sec := rfl
@[simp] theorem countForeign_tamp : (countForeign s).tamp = s.tamp := rfl
@[simp] theorem countForeign_intg : (countForeign s).intg = s.intg := rfl
@[simp] theorem countForeign_pwr : (countForeign s).pwr = s.pwr := rfl
@[simp] theorem countForeign_mth : (countForeign s).mth = s.mth := rfl
@[simp] theorem countForeign_mel : (countForeign s).mel = s.mel := rfl
@[simp] theorem countForeign_bill : (countForeign s).bill = s.bill := rfl
@[simp] theorem countForeign_time : (countForeign s).time = s.time := rfl
@[simp] theorem countForeign_pio : (countForeign s).pio = s.pio := rfl
@[simp] theorem countForeign_pioBegan : (countForeign s).pioBegan = s.pioBegan := rfl
@[simp] theorem countForeign_ctrl : (countForeign s).ctrl = s.ctrl := rfl
@[simp] theorem countForeign_vax : (countForeign s).vax = s.vax := rfl
@[simp] theorem countForeign_eth : (countForeign s).eth = s.eth := rfl
@[simp] theorem countForeign_rtc : (countForeign s).rtc = s.rtc := rfl
@[simp] theorem countForeign_epd : (countForeign s).epd = s.epd := rfl
@[simp] theorem countForeign_subl : (countForeign s).subl = { s.subl with foreign := s.subl.foreign + 1 } := rfl
@[simp] theorem countForeign_nmod : (countForeign s).nmod = s.nmod := rfl
@[simp] theorem countForeign_solv : (countForeign s).solv = s.solv := rfl
@[simp] theorem countForeign_gal : (countForeign s).gal = s.gal := rfl
@[simp] theorem countForeign_cfg : (countForeign s).cfg = s.cfg := rfl
@[simp] theorem countForeign_cfgPending : (countForeign s).cfgPending = s.cfgPending := rfl
@[simp] theorem countForeign_draws : (countForeign s).draws = s.draws := rfl
@[simp] theorem countForeign_out : (countForeign s).out = s.out := rfl
@[simp] theorem countForeign_pending : (countForeign s).pending = s.pending := rfl

/-! `bufferRead` -/

@[simp] theorem bufferRead_clock : (bufferRead s).clock = s.clock := rfl
@[simp] theorem bufferRead_sys : (bufferRead s).sys = s.sys := rfl
@[simp] theorem bufferRead_pair : (bufferRead s).pair = s.pair := rfl
@[simp] theorem bufferRead_hif : (bufferRead s).hif = s.hif := rfl
@[simp] theorem bufferRead_evr : (bufferRead s).evr = s.evr := rfl
@[simp] theorem bufferRead_sec : (bufferRead s).sec = s.sec := rfl
@[simp] theorem bufferRead_tamp : (bufferRead s).tamp = s.tamp := rfl
@[simp] theorem bufferRead_intg : (bufferRead s).intg = s.intg := rfl
@[simp] theorem bufferRead_pwr : (bufferRead s).pwr = s.pwr := rfl
@[simp] theorem bufferRead_mth : (bufferRead s).mth = s.mth := rfl
@[simp] theorem bufferRead_mel : (bufferRead s).mel = s.mel := rfl
@[simp] theorem bufferRead_bill : (bufferRead s).bill = s.bill := rfl
@[simp] theorem bufferRead_time : (bufferRead s).time = s.time := rfl
@[simp] theorem bufferRead_pio : (bufferRead s).pio = s.pio := rfl
@[simp] theorem bufferRead_pioBegan : (bufferRead s).pioBegan = s.pioBegan := rfl
@[simp] theorem bufferRead_ctrl : (bufferRead s).ctrl = s.ctrl := rfl
@[simp] theorem bufferRead_vax : (bufferRead s).vax = s.vax := rfl
@[simp] theorem bufferRead_eth : (bufferRead s).eth = s.eth := rfl
@[simp] theorem bufferRead_rtc : (bufferRead s).rtc = s.rtc := rfl
@[simp] theorem bufferRead_epd : (bufferRead s).epd = s.epd := rfl
@[simp] theorem bufferRead_subl : (bufferRead s).subl = { s.subl with peak := s.subl.buffer.length } := rfl
@[simp] theorem bufferRead_nmod : (bufferRead s).nmod = s.nmod := rfl
@[simp] theorem bufferRead_solv : (bufferRead s).solv = s.solv := rfl
@[simp] theorem bufferRead_gal : (bufferRead s).gal = s.gal := rfl
@[simp] theorem bufferRead_cfg : (bufferRead s).cfg = s.cfg := rfl
@[simp] theorem bufferRead_cfgPending : (bufferRead s).cfgPending = s.cfgPending := rfl
@[simp] theorem bufferRead_draws : (bufferRead s).draws = s.draws := rfl
@[simp] theorem bufferRead_out : (bufferRead s).out = s.out := rfl
@[simp] theorem bufferRead_pending : (bufferRead s).pending = s.pending := rfl

/-! `clearTriggers` -/

@[simp] theorem clearTriggers_clock : (clearTriggers s).clock = s.clock := rfl
@[simp] theorem clearTriggers_sys : (clearTriggers s).sys = { s.sys with triggers := [] } := rfl
@[simp] theorem clearTriggers_pair : (clearTriggers s).pair = s.pair := rfl
@[simp] theorem clearTriggers_hif : (clearTriggers s).hif = s.hif := rfl
@[simp] theorem clearTriggers_evr : (clearTriggers s).evr = s.evr := rfl
@[simp] theorem clearTriggers_sec : (clearTriggers s).sec = s.sec := rfl
@[simp] theorem clearTriggers_tamp : (clearTriggers s).tamp = s.tamp := rfl
@[simp] theorem clearTriggers_intg : (clearTriggers s).intg = s.intg := rfl
@[simp] theorem clearTriggers_pwr : (clearTriggers s).pwr = s.pwr := rfl
@[simp] theorem clearTriggers_mth : (clearTriggers s).mth = s.mth := rfl
@[simp] theorem clearTriggers_mel : (clearTriggers s).mel = s.mel := rfl
@[simp] theorem clearTriggers_bill : (clearTriggers s).bill = s.bill := rfl
@[simp] theorem clearTriggers_time : (clearTriggers s).time = s.time := rfl
@[simp] theorem clearTriggers_pio : (clearTriggers s).pio = s.pio := rfl
@[simp] theorem clearTriggers_pioBegan : (clearTriggers s).pioBegan = s.pioBegan := rfl
@[simp] theorem clearTriggers_ctrl : (clearTriggers s).ctrl = s.ctrl := rfl
@[simp] theorem clearTriggers_vax : (clearTriggers s).vax = s.vax := rfl
@[simp] theorem clearTriggers_eth : (clearTriggers s).eth = s.eth := rfl
@[simp] theorem clearTriggers_rtc : (clearTriggers s).rtc = s.rtc := rfl
@[simp] theorem clearTriggers_epd : (clearTriggers s).epd = s.epd := rfl
@[simp] theorem clearTriggers_subl : (clearTriggers s).subl = s.subl := rfl
@[simp] theorem clearTriggers_nmod : (clearTriggers s).nmod = s.nmod := rfl
@[simp] theorem clearTriggers_solv : (clearTriggers s).solv = s.solv := rfl
@[simp] theorem clearTriggers_gal : (clearTriggers s).gal = s.gal := rfl
@[simp] theorem clearTriggers_cfg : (clearTriggers s).cfg = s.cfg := rfl
@[simp] theorem clearTriggers_cfgPending : (clearTriggers s).cfgPending = s.cfgPending := rfl
@[simp] theorem clearTriggers_draws : (clearTriggers s).draws = s.draws := rfl
@[simp] theorem clearTriggers_out : (clearTriggers s).out = s.out := rfl
@[simp] theorem clearTriggers_pending : (clearTriggers s).pending = s.pending := rfl

/-! `trigger` -/

@[simp] theorem trigger_clock (m : Mode) (cause : Nat) : (trigger m cause s).clock = s.clock := rfl
@[simp] theorem trigger_sys (m : Mode) (cause : Nat) : (trigger m cause s).sys = { s.sys with triggers := s.sys.triggers ++ [(m, cause)] } := rfl
@[simp] theorem trigger_pair (m : Mode) (cause : Nat) : (trigger m cause s).pair = s.pair := rfl
@[simp] theorem trigger_hif (m : Mode) (cause : Nat) : (trigger m cause s).hif = s.hif := rfl
@[simp] theorem trigger_evr (m : Mode) (cause : Nat) : (trigger m cause s).evr = s.evr := rfl
@[simp] theorem trigger_sec (m : Mode) (cause : Nat) : (trigger m cause s).sec = s.sec := rfl
@[simp] theorem trigger_tamp (m : Mode) (cause : Nat) : (trigger m cause s).tamp = s.tamp := rfl
@[simp] theorem trigger_intg (m : Mode) (cause : Nat) : (trigger m cause s).intg = s.intg := rfl
@[simp] theorem trigger_pwr (m : Mode) (cause : Nat) : (trigger m cause s).pwr = s.pwr := rfl
@[simp] theorem trigger_mth (m : Mode) (cause : Nat) : (trigger m cause s).mth = s.mth := rfl
@[simp] theorem trigger_mel (m : Mode) (cause : Nat) : (trigger m cause s).mel = s.mel := rfl
@[simp] theorem trigger_bill (m : Mode) (cause : Nat) : (trigger m cause s).bill = s.bill := rfl
@[simp] theorem trigger_time (m : Mode) (cause : Nat) : (trigger m cause s).time = s.time := rfl
@[simp] theorem trigger_pio (m : Mode) (cause : Nat) : (trigger m cause s).pio = s.pio := rfl
@[simp] theorem trigger_pioBegan (m : Mode) (cause : Nat) : (trigger m cause s).pioBegan = s.pioBegan := rfl
@[simp] theorem trigger_ctrl (m : Mode) (cause : Nat) : (trigger m cause s).ctrl = s.ctrl := rfl
@[simp] theorem trigger_vax (m : Mode) (cause : Nat) : (trigger m cause s).vax = s.vax := rfl
@[simp] theorem trigger_eth (m : Mode) (cause : Nat) : (trigger m cause s).eth = s.eth := rfl
@[simp] theorem trigger_rtc (m : Mode) (cause : Nat) : (trigger m cause s).rtc = s.rtc := rfl
@[simp] theorem trigger_epd (m : Mode) (cause : Nat) : (trigger m cause s).epd = s.epd := rfl
@[simp] theorem trigger_subl (m : Mode) (cause : Nat) : (trigger m cause s).subl = s.subl := rfl
@[simp] theorem trigger_nmod (m : Mode) (cause : Nat) : (trigger m cause s).nmod = s.nmod := rfl
@[simp] theorem trigger_solv (m : Mode) (cause : Nat) : (trigger m cause s).solv = s.solv := rfl
@[simp] theorem trigger_gal (m : Mode) (cause : Nat) : (trigger m cause s).gal = s.gal := rfl
@[simp] theorem trigger_cfg (m : Mode) (cause : Nat) : (trigger m cause s).cfg = s.cfg := rfl
@[simp] theorem trigger_cfgPending (m : Mode) (cause : Nat) : (trigger m cause s).cfgPending = s.cfgPending := rfl
@[simp] theorem trigger_draws (m : Mode) (cause : Nat) : (trigger m cause s).draws = s.draws := rfl
@[simp] theorem trigger_out (m : Mode) (cause : Nat) : (trigger m cause s).out = s.out := rfl
@[simp] theorem trigger_pending (m : Mode) (cause : Nat) : (trigger m cause s).pending = s.pending := rfl

/-! `post` -/

@[simp] theorem post_clock (code index : Nat) (data : Bytes) (keyId : Nat) : (post code index data keyId s).clock = s.clock := rfl
@[simp] theorem post_sys (code index : Nat) (data : Bytes) (keyId : Nat) : (post code index data keyId s).sys = s.sys := rfl
@[simp] theorem post_pair (code index : Nat) (data : Bytes) (keyId : Nat) : (post code index data keyId s).pair = s.pair := rfl
@[simp] theorem post_hif (code index : Nat) (data : Bytes) (keyId : Nat) : (post code index data keyId s).hif = s.hif := rfl
@[simp] theorem post_sec (code index : Nat) (data : Bytes) (keyId : Nat) : (post code index data keyId s).sec = s.sec := rfl
@[simp] theorem post_tamp (code index : Nat) (data : Bytes) (keyId : Nat) : (post code index data keyId s).tamp = s.tamp := rfl
@[simp] theorem post_intg (code index : Nat) (data : Bytes) (keyId : Nat) : (post code index data keyId s).intg = s.intg := rfl
@[simp] theorem post_pwr (code index : Nat) (data : Bytes) (keyId : Nat) : (post code index data keyId s).pwr = s.pwr := rfl
@[simp] theorem post_mth (code index : Nat) (data : Bytes) (keyId : Nat) : (post code index data keyId s).mth = s.mth := rfl
@[simp] theorem post_mel (code index : Nat) (data : Bytes) (keyId : Nat) : (post code index data keyId s).mel = s.mel := rfl
@[simp] theorem post_bill (code index : Nat) (data : Bytes) (keyId : Nat) : (post code index data keyId s).bill = s.bill := rfl
@[simp] theorem post_time (code index : Nat) (data : Bytes) (keyId : Nat) : (post code index data keyId s).time = s.time := rfl
@[simp] theorem post_pio (code index : Nat) (data : Bytes) (keyId : Nat) : (post code index data keyId s).pio = s.pio := rfl
@[simp] theorem post_pioBegan (code index : Nat) (data : Bytes) (keyId : Nat) : (post code index data keyId s).pioBegan = s.pioBegan := rfl
@[simp] theorem post_ctrl (code index : Nat) (data : Bytes) (keyId : Nat) : (post code index data keyId s).ctrl = s.ctrl := rfl
@[simp] theorem post_vax (code index : Nat) (data : Bytes) (keyId : Nat) : (post code index data keyId s).vax = s.vax := rfl
@[simp] theorem post_eth (code index : Nat) (data : Bytes) (keyId : Nat) : (post code index data keyId s).eth = s.eth := rfl
@[simp] theorem post_rtc (code index : Nat) (data : Bytes) (keyId : Nat) : (post code index data keyId s).rtc = s.rtc := rfl
@[simp] theorem post_epd (code index : Nat) (data : Bytes) (keyId : Nat) : (post code index data keyId s).epd = s.epd := rfl
@[simp] theorem post_subl (code index : Nat) (data : Bytes) (keyId : Nat) : (post code index data keyId s).subl = s.subl := rfl
@[simp] theorem post_nmod (code index : Nat) (data : Bytes) (keyId : Nat) : (post code index data keyId s).nmod = s.nmod := rfl
@[simp] theorem post_solv (code index : Nat) (data : Bytes) (keyId : Nat) : (post code index data keyId s).solv = s.solv := rfl
@[simp] theorem post_gal (code index : Nat) (data : Bytes) (keyId : Nat) : (post code index data keyId s).gal = s.gal := rfl
@[simp] theorem post_cfg (code index : Nat) (data : Bytes) (keyId : Nat) : (post code index data keyId s).cfg = s.cfg := rfl
@[simp] theorem post_cfgPending (code index : Nat) (data : Bytes) (keyId : Nat) : (post code index data keyId s).cfgPending = s.cfgPending := rfl
@[simp] theorem post_draws (code index : Nat) (data : Bytes) (keyId : Nat) : (post code index data keyId s).draws = s.draws := rfl
@[simp] theorem post_out (code index : Nat) (data : Bytes) (keyId : Nat) : (post code index data keyId s).out = s.out := rfl
@[simp] theorem post_pending (code index : Nat) (data : Bytes) (keyId : Nat) : (post code index data keyId s).pending = s.pending := rfl

/-! `snapSource` -/

@[simp] theorem snapSource_clock (k : Nat) : (snapSource k s).clock = s.clock := by unfold snapSource; (repeat' split) <;> rfl
@[simp] theorem snapSource_sys (k : Nat) : (snapSource k s).sys = s.sys := by unfold snapSource; (repeat' split) <;> rfl
@[simp] theorem snapSource_pair (k : Nat) : (snapSource k s).pair = s.pair := by unfold snapSource; (repeat' split) <;> rfl
@[simp] theorem snapSource_hif (k : Nat) : (snapSource k s).hif = s.hif := by unfold snapSource; (repeat' split) <;> rfl
@[simp] theorem snapSource_evr (k : Nat) : (snapSource k s).evr = s.evr := by unfold snapSource; (repeat' split) <;> rfl
@[simp] theorem snapSource_sec (k : Nat) : (snapSource k s).sec = s.sec := by unfold snapSource; (repeat' split) <;> rfl
@[simp] theorem snapSource_tamp (k : Nat) : (snapSource k s).tamp = s.tamp := by unfold snapSource; (repeat' split) <;> rfl
@[simp] theorem snapSource_pwr (k : Nat) : (snapSource k s).pwr = s.pwr := by unfold snapSource; (repeat' split) <;> rfl
@[simp] theorem snapSource_mth (k : Nat) : (snapSource k s).mth = s.mth := by unfold snapSource; (repeat' split) <;> rfl
@[simp] theorem snapSource_mel (k : Nat) : (snapSource k s).mel = s.mel := by unfold snapSource; (repeat' split) <;> rfl
@[simp] theorem snapSource_bill (k : Nat) : (snapSource k s).bill = s.bill := by unfold snapSource; (repeat' split) <;> rfl
@[simp] theorem snapSource_time (k : Nat) : (snapSource k s).time = s.time := by unfold snapSource; (repeat' split) <;> rfl
@[simp] theorem snapSource_pio (k : Nat) : (snapSource k s).pio = s.pio := by unfold snapSource; (repeat' split) <;> rfl
@[simp] theorem snapSource_pioBegan (k : Nat) : (snapSource k s).pioBegan = s.pioBegan := by unfold snapSource; (repeat' split) <;> rfl
@[simp] theorem snapSource_ctrl (k : Nat) : (snapSource k s).ctrl = s.ctrl := by unfold snapSource; (repeat' split) <;> rfl
@[simp] theorem snapSource_vax (k : Nat) : (snapSource k s).vax = s.vax := by unfold snapSource; (repeat' split) <;> rfl
@[simp] theorem snapSource_eth (k : Nat) : (snapSource k s).eth = s.eth := by unfold snapSource; (repeat' split) <;> rfl
@[simp] theorem snapSource_rtc (k : Nat) : (snapSource k s).rtc = s.rtc := by unfold snapSource; (repeat' split) <;> rfl
@[simp] theorem snapSource_epd (k : Nat) : (snapSource k s).epd = s.epd := by unfold snapSource; (repeat' split) <;> rfl
@[simp] theorem snapSource_subl (k : Nat) : (snapSource k s).subl = s.subl := by unfold snapSource; (repeat' split) <;> rfl
@[simp] theorem snapSource_nmod (k : Nat) : (snapSource k s).nmod = s.nmod := by unfold snapSource; (repeat' split) <;> rfl
@[simp] theorem snapSource_solv (k : Nat) : (snapSource k s).solv = s.solv := by unfold snapSource; (repeat' split) <;> rfl
@[simp] theorem snapSource_gal (k : Nat) : (snapSource k s).gal = s.gal := by unfold snapSource; (repeat' split) <;> rfl
@[simp] theorem snapSource_cfg (k : Nat) : (snapSource k s).cfg = s.cfg := by unfold snapSource; (repeat' split) <;> rfl
@[simp] theorem snapSource_cfgPending (k : Nat) : (snapSource k s).cfgPending = s.cfgPending := by unfold snapSource; (repeat' split) <;> rfl
@[simp] theorem snapSource_draws (k : Nat) : (snapSource k s).draws = s.draws := by unfold snapSource; (repeat' split) <;> rfl
@[simp] theorem snapSource_out (k : Nat) : (snapSource k s).out = s.out := by unfold snapSource; (repeat' split) <;> rfl
@[simp] theorem snapSource_pending (k : Nat) : (snapSource k s).pending = s.pending := by unfold snapSource; (repeat' split) <;> rfl

/-! `setLink` -/

@[simp] theorem setLink_clock (t : Transport) (l : Link) : (setLink t l s).clock = s.clock := by cases t <;> rfl
@[simp] theorem setLink_sys (t : Transport) (l : Link) : (setLink t l s).sys = s.sys := by cases t <;> rfl
@[simp] theorem setLink_pair (t : Transport) (l : Link) : (setLink t l s).pair = s.pair := by cases t <;> rfl
@[simp] theorem setLink_evr (t : Transport) (l : Link) : (setLink t l s).evr = s.evr := by cases t <;> rfl
@[simp] theorem setLink_sec (t : Transport) (l : Link) : (setLink t l s).sec = s.sec := by cases t <;> rfl
@[simp] theorem setLink_tamp (t : Transport) (l : Link) : (setLink t l s).tamp = s.tamp := by cases t <;> rfl
@[simp] theorem setLink_intg (t : Transport) (l : Link) : (setLink t l s).intg = s.intg := by cases t <;> rfl
@[simp] theorem setLink_pwr (t : Transport) (l : Link) : (setLink t l s).pwr = s.pwr := by cases t <;> rfl
@[simp] theorem setLink_mth (t : Transport) (l : Link) : (setLink t l s).mth = s.mth := by cases t <;> rfl
@[simp] theorem setLink_mel (t : Transport) (l : Link) : (setLink t l s).mel = s.mel := by cases t <;> rfl
@[simp] theorem setLink_bill (t : Transport) (l : Link) : (setLink t l s).bill = s.bill := by cases t <;> rfl
@[simp] theorem setLink_time (t : Transport) (l : Link) : (setLink t l s).time = s.time := by cases t <;> rfl
@[simp] theorem setLink_pio (t : Transport) (l : Link) : (setLink t l s).pio = s.pio := by cases t <;> rfl
@[simp] theorem setLink_pioBegan (t : Transport) (l : Link) : (setLink t l s).pioBegan = s.pioBegan := by cases t <;> rfl
@[simp] theorem setLink_ctrl (t : Transport) (l : Link) : (setLink t l s).ctrl = s.ctrl := by cases t <;> rfl
@[simp] theorem setLink_vax (t : Transport) (l : Link) : (setLink t l s).vax = s.vax := by cases t <;> rfl
@[simp] theorem setLink_eth (t : Transport) (l : Link) : (setLink t l s).eth = s.eth := by cases t <;> rfl
@[simp] theorem setLink_rtc (t : Transport) (l : Link) : (setLink t l s).rtc = s.rtc := by cases t <;> rfl
@[simp] theorem setLink_epd (t : Transport) (l : Link) : (setLink t l s).epd = s.epd := by cases t <;> rfl
@[simp] theorem setLink_subl (t : Transport) (l : Link) : (setLink t l s).subl = s.subl := by cases t <;> rfl
@[simp] theorem setLink_nmod (t : Transport) (l : Link) : (setLink t l s).nmod = s.nmod := by cases t <;> rfl
@[simp] theorem setLink_solv (t : Transport) (l : Link) : (setLink t l s).solv = s.solv := by cases t <;> rfl
@[simp] theorem setLink_gal (t : Transport) (l : Link) : (setLink t l s).gal = s.gal := by cases t <;> rfl
@[simp] theorem setLink_cfg (t : Transport) (l : Link) : (setLink t l s).cfg = s.cfg := by cases t <;> rfl
@[simp] theorem setLink_cfgPending (t : Transport) (l : Link) : (setLink t l s).cfgPending = s.cfgPending := by cases t <;> rfl
@[simp] theorem setLink_draws (t : Transport) (l : Link) : (setLink t l s).draws = s.draws := by cases t <;> rfl
@[simp] theorem setLink_out (t : Transport) (l : Link) : (setLink t l s).out = s.out := by cases t <;> rfl
@[simp] theorem setLink_pending (t : Transport) (l : Link) : (setLink t l s).pending = s.pending := by cases t <;> rfl

/-! `sendReply` -/

@[simp] theorem sendReply_clock (r : Reply) : (sendReply r s).clock = s.clock := by simp only [sendReply]; split <;> simp
@[simp] theorem sendReply_sys (r : Reply) : (sendReply r s).sys = s.sys := by simp only [sendReply]; split <;> simp
@[simp] theorem sendReply_pair (r : Reply) : (sendReply r s).pair = s.pair := by simp only [sendReply]; split <;> simp
@[simp] theorem sendReply_evr (r : Reply) : (sendReply r s).evr = s.evr := by simp only [sendReply]; split <;> simp
@[simp] theorem sendReply_sec (r : Reply) : (sendReply r s).sec = s.sec := by simp only [sendReply]; split <;> simp
@[simp] theorem sendReply_tamp (r : Reply) : (sendReply r s).tamp = s.tamp := by simp only [sendReply]; split <;> simp
@[simp] theorem sendReply_intg (r : Reply) : (sendReply r s).intg = s.intg := by simp only [sendReply]; split <;> simp
@[simp] theorem sendReply_pwr (r : Reply) : (sendReply r s).pwr = s.pwr := by simp only [sendReply]; split <;> simp
@[simp] theorem sendReply_mth (r : Reply) : (sendReply r s).mth = s.mth := by simp only [sendReply]; split <;> simp
@[simp] theorem sendReply_mel (r : Reply) : (sendReply r s).mel = s.mel := by simp only [sendReply]; split <;> simp
@[simp] theorem sendReply_bill (r : Reply) : (sendReply r s).bill = s.bill := by simp only [sendReply]; split <;> simp
@[simp] theorem sendReply_time (r : Reply) : (sendReply r s).time = s.time := by simp only [sendReply]; split <;> simp
@[simp] theorem sendReply_pio (r : Reply) : (sendReply r s).pio = s.pio := by simp only [sendReply]; split <;> simp
@[simp] theorem sendReply_pioBegan (r : Reply) : (sendReply r s).pioBegan = s.pioBegan := by simp only [sendReply]; split <;> simp
@[simp] theorem sendReply_ctrl (r : Reply) : (sendReply r s).ctrl = s.ctrl := by simp only [sendReply]; split <;> simp
@[simp] theorem sendReply_vax (r : Reply) : (sendReply r s).vax = s.vax := by simp only [sendReply]; split <;> simp
@[simp] theorem sendReply_eth (r : Reply) : (sendReply r s).eth = s.eth := by simp only [sendReply]; split <;> simp
@[simp] theorem sendReply_rtc (r : Reply) : (sendReply r s).rtc = s.rtc := by simp only [sendReply]; split <;> simp
@[simp] theorem sendReply_epd (r : Reply) : (sendReply r s).epd = s.epd := by simp only [sendReply]; split <;> simp
@[simp] theorem sendReply_subl (r : Reply) : (sendReply r s).subl = s.subl := by simp only [sendReply]; split <;> simp
@[simp] theorem sendReply_nmod (r : Reply) : (sendReply r s).nmod = s.nmod := by simp only [sendReply]; split <;> simp
@[simp] theorem sendReply_solv (r : Reply) : (sendReply r s).solv = s.solv := by simp only [sendReply]; split <;> simp
@[simp] theorem sendReply_gal (r : Reply) : (sendReply r s).gal = s.gal := by simp only [sendReply]; split <;> simp
@[simp] theorem sendReply_cfg (r : Reply) : (sendReply r s).cfg = s.cfg := by simp only [sendReply]; split <;> simp
@[simp] theorem sendReply_cfgPending (r : Reply) : (sendReply r s).cfgPending = s.cfgPending := by simp only [sendReply]; split <;> simp
@[simp] theorem sendReply_draws (r : Reply) : (sendReply r s).draws = s.draws := by simp only [sendReply]; split <;> simp
@[simp] theorem sendReply_pending (r : Reply) : (sendReply r s).pending = s.pending := by simp only [sendReply]; split <;> simp

/-! `complete` -/

@[simp] theorem complete_clock (tag st : Nat) (reg : Bool) (body : Bytes) : (complete tag st reg body s).clock = s.clock := by unfold complete; split <;> simp
@[simp] theorem complete_sys (tag st : Nat) (reg : Bool) (body : Bytes) : (complete tag st reg body s).sys = s.sys := by unfold complete; split <;> simp
@[simp] theorem complete_pair (tag st : Nat) (reg : Bool) (body : Bytes) : (complete tag st reg body s).pair = s.pair := by unfold complete; split <;> simp
@[simp] theorem complete_evr (tag st : Nat) (reg : Bool) (body : Bytes) : (complete tag st reg body s).evr = s.evr := by unfold complete; split <;> simp
@[simp] theorem complete_sec (tag st : Nat) (reg : Bool) (body : Bytes) : (complete tag st reg body s).sec = s.sec := by unfold complete; split <;> simp
@[simp] theorem complete_tamp (tag st : Nat) (reg : Bool) (body : Bytes) : (complete tag st reg body s).tamp = s.tamp := by unfold complete; split <;> simp
@[simp] theorem complete_intg (tag st : Nat) (reg : Bool) (body : Bytes) : (complete tag st reg body s).intg = s.intg := by unfold complete; split <;> simp
@[simp] theorem complete_pwr (tag st : Nat) (reg : Bool) (body : Bytes) : (complete tag st reg body s).pwr = s.pwr := by unfold complete; split <;> simp
@[simp] theorem complete_mth (tag st : Nat) (reg : Bool) (body : Bytes) : (complete tag st reg body s).mth = s.mth := by unfold complete; split <;> simp
@[simp] theorem complete_mel (tag st : Nat) (reg : Bool) (body : Bytes) : (complete tag st reg body s).mel = s.mel := by unfold complete; split <;> simp
@[simp] theorem complete_bill (tag st : Nat) (reg : Bool) (body : Bytes) : (complete tag st reg body s).bill = s.bill := by unfold complete; split <;> simp
@[simp] theorem complete_time (tag st : Nat) (reg : Bool) (body : Bytes) : (complete tag st reg body s).time = s.time := by unfold complete; split <;> simp
@[simp] theorem complete_pio (tag st : Nat) (reg : Bool) (body : Bytes) : (complete tag st reg body s).pio = s.pio := by unfold complete; split <;> simp
@[simp] theorem complete_pioBegan (tag st : Nat) (reg : Bool) (body : Bytes) : (complete tag st reg body s).pioBegan = s.pioBegan := by unfold complete; split <;> simp
@[simp] theorem complete_ctrl (tag st : Nat) (reg : Bool) (body : Bytes) : (complete tag st reg body s).ctrl = s.ctrl := by unfold complete; split <;> simp
@[simp] theorem complete_vax (tag st : Nat) (reg : Bool) (body : Bytes) : (complete tag st reg body s).vax = s.vax := by unfold complete; split <;> simp
@[simp] theorem complete_eth (tag st : Nat) (reg : Bool) (body : Bytes) : (complete tag st reg body s).eth = s.eth := by unfold complete; split <;> simp
@[simp] theorem complete_rtc (tag st : Nat) (reg : Bool) (body : Bytes) : (complete tag st reg body s).rtc = s.rtc := by unfold complete; split <;> simp
@[simp] theorem complete_epd (tag st : Nat) (reg : Bool) (body : Bytes) : (complete tag st reg body s).epd = s.epd := by unfold complete; split <;> simp
@[simp] theorem complete_subl (tag st : Nat) (reg : Bool) (body : Bytes) : (complete tag st reg body s).subl = s.subl := by unfold complete; split <;> simp
@[simp] theorem complete_nmod (tag st : Nat) (reg : Bool) (body : Bytes) : (complete tag st reg body s).nmod = s.nmod := by unfold complete; split <;> simp
@[simp] theorem complete_solv (tag st : Nat) (reg : Bool) (body : Bytes) : (complete tag st reg body s).solv = s.solv := by unfold complete; split <;> simp
@[simp] theorem complete_gal (tag st : Nat) (reg : Bool) (body : Bytes) : (complete tag st reg body s).gal = s.gal := by unfold complete; split <;> simp
@[simp] theorem complete_cfg (tag st : Nat) (reg : Bool) (body : Bytes) : (complete tag st reg body s).cfg = s.cfg := by unfold complete; split <;> simp
@[simp] theorem complete_cfgPending (tag st : Nat) (reg : Bool) (body : Bytes) : (complete tag st reg body s).cfgPending = s.cfgPending := by unfold complete; split <;> simp
@[simp] theorem complete_draws (tag st : Nat) (reg : Bool) (body : Bytes) : (complete tag st reg body s).draws = s.draws := by unfold complete; split <;> simp
@[simp] theorem complete_pending (tag st : Nat) (reg : Bool) (body : Bytes) : (complete tag st reg body s).pending = s.pending := by unfold complete; split <;> simp

/-! `setWait` -/

@[simp] theorem setWait_clock (tag : Nat) (w : Wait) : (setWait tag w s).clock = s.clock := by unfold setWait; split <;> simp
@[simp] theorem setWait_sys (tag : Nat) (w : Wait) : (setWait tag w s).sys = s.sys := by unfold setWait; split <;> simp
@[simp] theorem setWait_pair (tag : Nat) (w : Wait) : (setWait tag w s).pair = s.pair := by unfold setWait; split <;> simp
@[simp] theorem setWait_evr (tag : Nat) (w : Wait) : (setWait tag w s).evr = s.evr := by unfold setWait; split <;> simp
@[simp] theorem setWait_sec (tag : Nat) (w : Wait) : (setWait tag w s).sec = s.sec := by unfold setWait; split <;> simp
@[simp] theorem setWait_tamp (tag : Nat) (w : Wait) : (setWait tag w s).tamp = s.tamp := by unfold setWait; split <;> simp
@[simp] theorem setWait_intg (tag : Nat) (w : Wait) : (setWait tag w s).intg = s.intg := by unfold setWait; split <;> simp
@[simp] theorem setWait_pwr (tag : Nat) (w : Wait) : (setWait tag w s).pwr = s.pwr := by unfold setWait; split <;> simp
@[simp] theorem setWait_mth (tag : Nat) (w : Wait) : (setWait tag w s).mth = s.mth := by unfold setWait; split <;> simp
@[simp] theorem setWait_mel (tag : Nat) (w : Wait) : (setWait tag w s).mel = s.mel := by unfold setWait; split <;> simp
@[simp] theorem setWait_bill (tag : Nat) (w : Wait) : (setWait tag w s).bill = s.bill := by unfold setWait; split <;> simp
@[simp] theorem setWait_time (tag : Nat) (w : Wait) : (setWait tag w s).time = s.time := by unfold setWait; split <;> simp
@[simp] theorem setWait_pio (tag : Nat) (w : Wait) : (setWait tag w s).pio = s.pio := by unfold setWait; split <;> simp
@[simp] theorem setWait_pioBegan (tag : Nat) (w : Wait) : (setWait tag w s).pioBegan = s.pioBegan := by unfold setWait; split <;> simp
@[simp] theorem setWait_ctrl (tag : Nat) (w : Wait) : (setWait tag w s).ctrl = s.ctrl := by unfold setWait; split <;> simp
@[simp] theorem setWait_vax (tag : Nat) (w : Wait) : (setWait tag w s).vax = s.vax := by unfold setWait; split <;> simp
@[simp] theorem setWait_eth (tag : Nat) (w : Wait) : (setWait tag w s).eth = s.eth := by unfold setWait; split <;> simp
@[simp] theorem setWait_rtc (tag : Nat) (w : Wait) : (setWait tag w s).rtc = s.rtc := by unfold setWait; split <;> simp
@[simp] theorem setWait_epd (tag : Nat) (w : Wait) : (setWait tag w s).epd = s.epd := by unfold setWait; split <;> simp
@[simp] theorem setWait_subl (tag : Nat) (w : Wait) : (setWait tag w s).subl = s.subl := by unfold setWait; split <;> simp
@[simp] theorem setWait_nmod (tag : Nat) (w : Wait) : (setWait tag w s).nmod = s.nmod := by unfold setWait; split <;> simp
@[simp] theorem setWait_solv (tag : Nat) (w : Wait) : (setWait tag w s).solv = s.solv := by unfold setWait; split <;> simp
@[simp] theorem setWait_gal (tag : Nat) (w : Wait) : (setWait tag w s).gal = s.gal := by unfold setWait; split <;> simp
@[simp] theorem setWait_cfg (tag : Nat) (w : Wait) : (setWait tag w s).cfg = s.cfg := by unfold setWait; split <;> simp
@[simp] theorem setWait_cfgPending (tag : Nat) (w : Wait) : (setWait tag w s).cfgPending = s.cfgPending := by unfold setWait; split <;> simp
@[simp] theorem setWait_draws (tag : Nat) (w : Wait) : (setWait tag w s).draws = s.draws := by unfold setWait; split <;> simp
@[simp] theorem setWait_out (tag : Nat) (w : Wait) : (setWait tag w s).out = s.out := by unfold setWait; split <;> simp
@[simp] theorem setWait_pending (tag : Nat) (w : Wait) : (setWait tag w s).pending = s.pending := by unfold setWait; split <;> simp

/-! `sendPair` -/

@[simp] theorem sendPair_clock (kind : Nat) (body : Bytes) : (sendPair kind body s).clock = s.clock := by unfold sendPair; split <;> rfl
@[simp] theorem sendPair_sys (kind : Nat) (body : Bytes) : (sendPair kind body s).sys = s.sys := by unfold sendPair; split <;> rfl
@[simp] theorem sendPair_pair (kind : Nat) (body : Bytes) : (sendPair kind body s).pair = s.pair := by unfold sendPair; split <;> rfl
@[simp] theorem sendPair_hif (kind : Nat) (body : Bytes) : (sendPair kind body s).hif = s.hif := by unfold sendPair; split <;> rfl
@[simp] theorem sendPair_evr (kind : Nat) (body : Bytes) : (sendPair kind body s).evr = s.evr := by unfold sendPair; split <;> rfl
@[simp] theorem sendPair_sec (kind : Nat) (body : Bytes) : (sendPair kind body s).sec = s.sec := by unfold sendPair; split <;> rfl
@[simp] theorem sendPair_tamp (kind : Nat) (body : Bytes) : (sendPair kind body s).tamp = s.tamp := by unfold sendPair; split <;> rfl
@[simp] theorem sendPair_intg (kind : Nat) (body : Bytes) : (sendPair kind body s).intg = s.intg := by unfold sendPair; split <;> rfl
@[simp] theorem sendPair_pwr (kind : Nat) (body : Bytes) : (sendPair kind body s).pwr = s.pwr := by unfold sendPair; split <;> rfl
@[simp] theorem sendPair_mth (kind : Nat) (body : Bytes) : (sendPair kind body s).mth = s.mth := by unfold sendPair; split <;> rfl
@[simp] theorem sendPair_mel (kind : Nat) (body : Bytes) : (sendPair kind body s).mel = s.mel := by unfold sendPair; split <;> rfl
@[simp] theorem sendPair_bill (kind : Nat) (body : Bytes) : (sendPair kind body s).bill = s.bill := by unfold sendPair; split <;> rfl
@[simp] theorem sendPair_time (kind : Nat) (body : Bytes) : (sendPair kind body s).time = s.time := by unfold sendPair; split <;> rfl
@[simp] theorem sendPair_pio (kind : Nat) (body : Bytes) : (sendPair kind body s).pio = s.pio := by unfold sendPair; split <;> rfl
@[simp] theorem sendPair_pioBegan (kind : Nat) (body : Bytes) : (sendPair kind body s).pioBegan = s.pioBegan := by unfold sendPair; split <;> rfl
@[simp] theorem sendPair_ctrl (kind : Nat) (body : Bytes) : (sendPair kind body s).ctrl = s.ctrl := by unfold sendPair; split <;> rfl
@[simp] theorem sendPair_vax (kind : Nat) (body : Bytes) : (sendPair kind body s).vax = s.vax := by unfold sendPair; split <;> rfl
@[simp] theorem sendPair_eth (kind : Nat) (body : Bytes) : (sendPair kind body s).eth = s.eth := by unfold sendPair; split <;> rfl
@[simp] theorem sendPair_rtc (kind : Nat) (body : Bytes) : (sendPair kind body s).rtc = s.rtc := by unfold sendPair; split <;> rfl
@[simp] theorem sendPair_epd (kind : Nat) (body : Bytes) : (sendPair kind body s).epd = s.epd := by unfold sendPair; split <;> rfl
@[simp] theorem sendPair_subl (kind : Nat) (body : Bytes) : (sendPair kind body s).subl = s.subl := by unfold sendPair; split <;> rfl
@[simp] theorem sendPair_nmod (kind : Nat) (body : Bytes) : (sendPair kind body s).nmod = s.nmod := by unfold sendPair; split <;> rfl
@[simp] theorem sendPair_solv (kind : Nat) (body : Bytes) : (sendPair kind body s).solv = s.solv := by unfold sendPair; split <;> rfl
@[simp] theorem sendPair_gal (kind : Nat) (body : Bytes) : (sendPair kind body s).gal = s.gal := by unfold sendPair; split <;> rfl
@[simp] theorem sendPair_cfg (kind : Nat) (body : Bytes) : (sendPair kind body s).cfg = s.cfg := by unfold sendPair; split <;> rfl
@[simp] theorem sendPair_cfgPending (kind : Nat) (body : Bytes) : (sendPair kind body s).cfgPending = s.cfgPending := by unfold sendPair; split <;> rfl
@[simp] theorem sendPair_draws (kind : Nat) (body : Bytes) : (sendPair kind body s).draws = s.draws := by unfold sendPair; split <;> rfl
@[simp] theorem sendPair_pending (kind : Nat) (body : Bytes) : (sendPair kind body s).pending = s.pending := by unfold sendPair; split <;> rfl

/-! `elapse`, where no value waits for a tick -/

/-- No value waits for a tick: the clock moves, and PIO stands at the beginning of the new tick as it was left. -/
theorem elapse_of_none {s : State} (h : s.cfgPending.any waitsTick = false) (dt : Nat) :
    elapse dt s = if dt = 0 then s else passTime dt s := by
  simp only [elapse, tickValues, passTime_cfgPending, h]; simp

theorem Clock.advance_zero (c : Clock) : c.advance 0 = c := by cases c; simp [Clock.advance]

/-- What time that passes leaves in each field. -/
theorem elapse_fields {s : State} (h : s.cfgPending.any waitsTick = false) (dt : Nat) :
    ∃ p, elapse dt s = { s with clock := s.clock.advance dt, pioBegan := p } := by
  rw [elapse_of_none h]; split
  · next e => exact ⟨_, by rw [e, Clock.advance_zero]⟩
  · exact ⟨_, rfl⟩

@[simp] theorem elapse_clock {s : State} (h : s.cfgPending.any waitsTick = false) (dt : Nat) :
    (elapse dt s).clock = s.clock.advance dt := by obtain ⟨_, e⟩ := elapse_fields h dt; rw [e]
@[simp] theorem elapse_sys {s : State} (h : s.cfgPending.any waitsTick = false) (dt : Nat) :
    (elapse dt s).sys = s.sys := by obtain ⟨_, e⟩ := elapse_fields h dt; rw [e]
@[simp] theorem elapse_pair {s : State} (h : s.cfgPending.any waitsTick = false) (dt : Nat) :
    (elapse dt s).pair = s.pair := by obtain ⟨_, e⟩ := elapse_fields h dt; rw [e]
@[simp] theorem elapse_hif {s : State} (h : s.cfgPending.any waitsTick = false) (dt : Nat) :
    (elapse dt s).hif = s.hif := by obtain ⟨_, e⟩ := elapse_fields h dt; rw [e]
@[simp] theorem elapse_evr {s : State} (h : s.cfgPending.any waitsTick = false) (dt : Nat) :
    (elapse dt s).evr = s.evr := by obtain ⟨_, e⟩ := elapse_fields h dt; rw [e]
@[simp] theorem elapse_sec {s : State} (h : s.cfgPending.any waitsTick = false) (dt : Nat) :
    (elapse dt s).sec = s.sec := by obtain ⟨_, e⟩ := elapse_fields h dt; rw [e]
@[simp] theorem elapse_tamp {s : State} (h : s.cfgPending.any waitsTick = false) (dt : Nat) :
    (elapse dt s).tamp = s.tamp := by obtain ⟨_, e⟩ := elapse_fields h dt; rw [e]
@[simp] theorem elapse_intg {s : State} (h : s.cfgPending.any waitsTick = false) (dt : Nat) :
    (elapse dt s).intg = s.intg := by obtain ⟨_, e⟩ := elapse_fields h dt; rw [e]
@[simp] theorem elapse_pwr {s : State} (h : s.cfgPending.any waitsTick = false) (dt : Nat) :
    (elapse dt s).pwr = s.pwr := by obtain ⟨_, e⟩ := elapse_fields h dt; rw [e]
@[simp] theorem elapse_mth {s : State} (h : s.cfgPending.any waitsTick = false) (dt : Nat) :
    (elapse dt s).mth = s.mth := by obtain ⟨_, e⟩ := elapse_fields h dt; rw [e]
@[simp] theorem elapse_mel {s : State} (h : s.cfgPending.any waitsTick = false) (dt : Nat) :
    (elapse dt s).mel = s.mel := by obtain ⟨_, e⟩ := elapse_fields h dt; rw [e]
@[simp] theorem elapse_bill {s : State} (h : s.cfgPending.any waitsTick = false) (dt : Nat) :
    (elapse dt s).bill = s.bill := by obtain ⟨_, e⟩ := elapse_fields h dt; rw [e]
@[simp] theorem elapse_time {s : State} (h : s.cfgPending.any waitsTick = false) (dt : Nat) :
    (elapse dt s).time = s.time := by obtain ⟨_, e⟩ := elapse_fields h dt; rw [e]
@[simp] theorem elapse_pio {s : State} (h : s.cfgPending.any waitsTick = false) (dt : Nat) :
    (elapse dt s).pio = s.pio := by obtain ⟨_, e⟩ := elapse_fields h dt; rw [e]
@[simp] theorem elapse_ctrl {s : State} (h : s.cfgPending.any waitsTick = false) (dt : Nat) :
    (elapse dt s).ctrl = s.ctrl := by obtain ⟨_, e⟩ := elapse_fields h dt; rw [e]
@[simp] theorem elapse_vax {s : State} (h : s.cfgPending.any waitsTick = false) (dt : Nat) :
    (elapse dt s).vax = s.vax := by obtain ⟨_, e⟩ := elapse_fields h dt; rw [e]
@[simp] theorem elapse_eth {s : State} (h : s.cfgPending.any waitsTick = false) (dt : Nat) :
    (elapse dt s).eth = s.eth := by obtain ⟨_, e⟩ := elapse_fields h dt; rw [e]
@[simp] theorem elapse_rtc {s : State} (h : s.cfgPending.any waitsTick = false) (dt : Nat) :
    (elapse dt s).rtc = s.rtc := by obtain ⟨_, e⟩ := elapse_fields h dt; rw [e]
@[simp] theorem elapse_epd {s : State} (h : s.cfgPending.any waitsTick = false) (dt : Nat) :
    (elapse dt s).epd = s.epd := by obtain ⟨_, e⟩ := elapse_fields h dt; rw [e]
@[simp] theorem elapse_subl {s : State} (h : s.cfgPending.any waitsTick = false) (dt : Nat) :
    (elapse dt s).subl = s.subl := by obtain ⟨_, e⟩ := elapse_fields h dt; rw [e]
@[simp] theorem elapse_nmod {s : State} (h : s.cfgPending.any waitsTick = false) (dt : Nat) :
    (elapse dt s).nmod = s.nmod := by obtain ⟨_, e⟩ := elapse_fields h dt; rw [e]
@[simp] theorem elapse_solv {s : State} (h : s.cfgPending.any waitsTick = false) (dt : Nat) :
    (elapse dt s).solv = s.solv := by obtain ⟨_, e⟩ := elapse_fields h dt; rw [e]
@[simp] theorem elapse_gal {s : State} (h : s.cfgPending.any waitsTick = false) (dt : Nat) :
    (elapse dt s).gal = s.gal := by obtain ⟨_, e⟩ := elapse_fields h dt; rw [e]
@[simp] theorem elapse_cfg {s : State} (h : s.cfgPending.any waitsTick = false) (dt : Nat) :
    (elapse dt s).cfg = s.cfg := by obtain ⟨_, e⟩ := elapse_fields h dt; rw [e]
@[simp] theorem elapse_cfgPending {s : State} (h : s.cfgPending.any waitsTick = false) (dt : Nat) :
    (elapse dt s).cfgPending = s.cfgPending := by obtain ⟨_, e⟩ := elapse_fields h dt; rw [e]
@[simp] theorem elapse_draws {s : State} (h : s.cfgPending.any waitsTick = false) (dt : Nat) :
    (elapse dt s).draws = s.draws := by obtain ⟨_, e⟩ := elapse_fields h dt; rw [e]
@[simp] theorem elapse_out {s : State} (h : s.cfgPending.any waitsTick = false) (dt : Nat) :
    (elapse dt s).out = s.out := by obtain ⟨_, e⟩ := elapse_fields h dt; rw [e]
@[simp] theorem elapse_pending {s : State} (h : s.cfgPending.any waitsTick = false) (dt : Nat) :
    (elapse dt s).pending = s.pending := by obtain ⟨_, e⟩ := elapse_fields h dt; rw [e]

end Sys2Proof.Machine
end

