-- ==== Sys2Proof/Laws/Accept.lean ====
section
/-! SUPPORT. What the acceptance of a host command leaves in each field of State, and when the end of a step changes nothing. -/

namespace Sys2Proof.Machine

set_option Elab.async false

/-! ### The end of a step -/

theorem clearTriggers_of_none {s : State} (h : s.sys.triggers = []) : clearTriggers s = s := by
  cases s with | mk clock sys => cases sys; simp_all [clearTriggers, updSys]

/-- With no trigger and no digest waiting the end of a step changes nothing. -/
theorem settle_of_settled {s : State} (h : Settled s) : settle s = s := by
  obtain ⟨h1, h2⟩ := h
  have ha : arbitrate s = s := by simp [arbitrate, topTrigger, h1]
  simp [settle, ha, h2, clearTriggers_of_none h1]

/-- No trigger is left at the end of a step. -/
@[simp] theorem settle_triggers (s : State) : (settle s).sys.triggers = [] := rfl

/-- The end of a row changes nothing where nothing is left for the end of the tick, whether or not the tick goes on. -/
theorem endRow_of_settled {q : List Instr} {s : State} (h : Settled s) : endRow q s = s := by
  unfold endRow; split
  · rfl
  · exact settle_of_settled h

/-- A row answers the state that its effect gives, where the effect leaves nothing for the end of the tick. -/
theorem event_of_settled {dt : Nat} {f : State → State} {s : State} (hq : Settled (f (elapse dt s)))
    (hp : (f (elapse dt s)).pending = s.pending) : event dt f s = .next (f (elapse dt s)) := by
  rw [event, endRow_of_settled hq, ← hp]

/-- A quiet state is settled once time has passed, and stays quiet. -/
theorem quiet_elapse {s : State} (h : Quiet s) (dt : Nat) : Quiet (elapse dt s) := by
  obtain ⟨h1, h2, h3⟩ := h
  simp only [Quiet, elapse_sys h3, elapse_pair h3, elapse_cfgPending h3]; exact ⟨h1, h2, h3⟩

/-! ### Acceptance -/

theorem touchSession_shape (p : Pkt) (s : State) : touchSession p s = s ∨ ∃ l, touchSession p s = setLink p.org.tr l s := by
  unfold touchSession; split
  · exact .inl rfl
  · simp only []; split
    · split
      · exact .inr ⟨_, rfl⟩
      · exact .inl rfl
    · exact .inl rfl

/-- What precedes acceptance changes no more than the transport's link. -/
theorem received_shape (c : Cmd) (q : Env) (pl : Bytes) (s : State) : ∃ l, received c q pl s = setLink q.tr l s := by
  unfold received sequenced
  rcases touchSession_shape (envPkt c.op q pl) (setLink q.tr { linkOf s q.tr with expected := some (q.seq + 1) } s) with h | ⟨l, h⟩
  · exact ⟨_, h⟩
  · refine ⟨l, h.trans ?_⟩
    have e : (envPkt c.op q pl).org.tr = q.tr := rfl
    rw [e]; cases q.tr <;> rfl

@[simp] theorem received_clock (c : Cmd) (q : Env) (pl : Bytes) (s : State) : (received c q pl s).clock = s.clock := by
  obtain ⟨l, h⟩ := received_shape c q pl s; rw [h]; simp
@[simp] theorem received_sys (c : Cmd) (q : Env) (pl : Bytes) (s : State) : (received c q pl s).sys = s.sys := by
  obtain ⟨l, h⟩ := received_shape c q pl s; rw [h]; simp
@[simp] theorem received_pair (c : Cmd) (q : Env) (pl : Bytes) (s : State) : (received c q pl s).pair = s.pair := by
  obtain ⟨l, h⟩ := received_shape c q pl s; rw [h]; simp
@[simp] theorem received_evr (c : Cmd) (q : Env) (pl : Bytes) (s : State) : (received c q pl s).evr = s.evr := by
  obtain ⟨l, h⟩ := received_shape c q pl s; rw [h]; simp
@[simp] theorem received_sec (c : Cmd) (q : Env) (pl : Bytes) (s : State) : (received c q pl s).sec = s.sec := by
  obtain ⟨l, h⟩ := received_shape c q pl s; rw [h]; simp
@[simp] theorem received_tamp (c : Cmd) (q : Env) (pl : Bytes) (s : State) : (received c q pl s).tamp = s.tamp := by
  obtain ⟨l, h⟩ := received_shape c q pl s; rw [h]; simp
@[simp] theorem received_intg (c : Cmd) (q : Env) (pl : Bytes) (s : State) : (received c q pl s).intg = s.intg := by
  obtain ⟨l, h⟩ := received_shape c q pl s; rw [h]; simp
@[simp] theorem received_pwr (c : Cmd) (q : Env) (pl : Bytes) (s : State) : (received c q pl s).pwr = s.pwr := by
  obtain ⟨l, h⟩ := received_shape c q pl s; rw [h]; simp
@[simp] theorem received_mth (c : Cmd) (q : Env) (pl : Bytes) (s : State) : (received c q pl s).mth = s.mth := by
  obtain ⟨l, h⟩ := received_shape c q pl s; rw [h]; simp
@[simp] theorem received_mel (c : Cmd) (q : Env) (pl : Bytes) (s : State) : (received c q pl s).mel = s.mel := by
  obtain ⟨l, h⟩ := received_shape c q pl s; rw [h]; simp
@[simp] theorem received_bill (c : Cmd) (q : Env) (pl : Bytes) (s : State) : (received c q pl s).bill = s.bill := by
  obtain ⟨l, h⟩ := received_shape c q pl s; rw [h]; simp
@[simp] theorem received_time (c : Cmd) (q : Env) (pl : Bytes) (s : State) : (received c q pl s).time = s.time := by
  obtain ⟨l, h⟩ := received_shape c q pl s; rw [h]; simp
@[simp] theorem received_pio (c : Cmd) (q : Env) (pl : Bytes) (s : State) : (received c q pl s).pio = s.pio := by
  obtain ⟨l, h⟩ := received_shape c q pl s; rw [h]; simp
@[simp] theorem received_pioBegan (c : Cmd) (q : Env) (pl : Bytes) (s : State) : (received c q pl s).pioBegan = s.pioBegan := by
  obtain ⟨l, h⟩ := received_shape c q pl s; rw [h]; simp
@[simp] theorem received_ctrl (c : Cmd) (q : Env) (pl : Bytes) (s : State) : (received c q pl s).ctrl = s.ctrl := by
  obtain ⟨l, h⟩ := received_shape c q pl s; rw [h]; simp
@[simp] theorem received_vax (c : Cmd) (q : Env) (pl : Bytes) (s : State) : (received c q pl s).vax = s.vax := by
  obtain ⟨l, h⟩ := received_shape c q pl s; rw [h]; simp
@[simp] theorem received_eth (c : Cmd) (q : Env) (pl : Bytes) (s : State) : (received c q pl s).eth = s.eth := by
  obtain ⟨l, h⟩ := received_shape c q pl s; rw [h]; simp
@[simp] theorem received_rtc (c : Cmd) (q : Env) (pl : Bytes) (s : State) : (received c q pl s).rtc = s.rtc := by
  obtain ⟨l, h⟩ := received_shape c q pl s; rw [h]; simp
@[simp] theorem received_epd (c : Cmd) (q : Env) (pl : Bytes) (s : State) : (received c q pl s).epd = s.epd := by
  obtain ⟨l, h⟩ := received_shape c q pl s; rw [h]; simp
@[simp] theorem received_subl (c : Cmd) (q : Env) (pl : Bytes) (s : State) : (received c q pl s).subl = s.subl := by
  obtain ⟨l, h⟩ := received_shape c q pl s; rw [h]; simp
@[simp] theorem received_nmod (c : Cmd) (q : Env) (pl : Bytes) (s : State) : (received c q pl s).nmod = s.nmod := by
  obtain ⟨l, h⟩ := received_shape c q pl s; rw [h]; simp
@[simp] theorem received_solv (c : Cmd) (q : Env) (pl : Bytes) (s : State) : (received c q pl s).solv = s.solv := by
  obtain ⟨l, h⟩ := received_shape c q pl s; rw [h]; simp
@[simp] theorem received_gal (c : Cmd) (q : Env) (pl : Bytes) (s : State) : (received c q pl s).gal = s.gal := by
  obtain ⟨l, h⟩ := received_shape c q pl s; rw [h]; simp
@[simp] theorem received_cfg (c : Cmd) (q : Env) (pl : Bytes) (s : State) : (received c q pl s).cfg = s.cfg := by
  obtain ⟨l, h⟩ := received_shape c q pl s; rw [h]; simp
@[simp] theorem received_cfgPending (c : Cmd) (q : Env) (pl : Bytes) (s : State) : (received c q pl s).cfgPending = s.cfgPending := by
  obtain ⟨l, h⟩ := received_shape c q pl s; rw [h]; simp
@[simp] theorem received_draws (c : Cmd) (q : Env) (pl : Bytes) (s : State) : (received c q pl s).draws = s.draws := by
  obtain ⟨l, h⟩ := received_shape c q pl s; rw [h]; simp
@[simp] theorem received_out (c : Cmd) (q : Env) (pl : Bytes) (s : State) : (received c q pl s).out = s.out := by
  obtain ⟨l, h⟩ := received_shape c q pl s; rw [h]; simp
@[simp] theorem received_pending (c : Cmd) (q : Env) (pl : Bytes) (s : State) : (received c q pl s).pending = s.pending := by
  obtain ⟨l, h⟩ := received_shape c q pl s; rw [h]; simp

/-! `commitCounter`, `accept` -/

@[simp] theorem commitCounter_clock (op : Nat) (a : Auth) (s : State) : (commitCounter op a s).clock = s.clock := by
  simp only [commitCounter]; (repeat' split) <;> simp
@[simp] theorem commitCounter_sys (op : Nat) (a : Auth) (s : State) : (commitCounter op a s).sys = s.sys := by
  simp only [commitCounter]; (repeat' split) <;> simp
@[simp] theorem commitCounter_pair (op : Nat) (a : Auth) (s : State) : (commitCounter op a s).pair = s.pair := by
  simp only [commitCounter]; (repeat' split) <;> simp
@[simp] theorem commitCounter_hif (op : Nat) (a : Auth) (s : State) : (commitCounter op a s).hif = s.hif := by
  simp only [commitCounter]; (repeat' split) <;> simp
@[simp] theorem commitCounter_tamp (op : Nat) (a : Auth) (s : State) : (commitCounter op a s).tamp = s.tamp := by
  simp only [commitCounter]; (repeat' split) <;> simp
@[simp] theorem commitCounter_intg (op : Nat) (a : Auth) (s : State) : (commitCounter op a s).intg = s.intg := by
  simp only [commitCounter]; (repeat' split) <;> simp
@[simp] theorem commitCounter_pwr (op : Nat) (a : Auth) (s : State) : (commitCounter op a s).pwr = s.pwr := by
  simp only [commitCounter]; (repeat' split) <;> simp
@[simp] theorem commitCounter_mth (op : Nat) (a : Auth) (s : State) : (commitCounter op a s).mth = s.mth := by
  simp only [commitCounter]; (repeat' split) <;> simp
@[simp] theorem commitCounter_mel (op : Nat) (a : Auth) (s : State) : (commitCounter op a s).mel = s.mel := by
  simp only [commitCounter]; (repeat' split) <;> simp
@[simp] theorem commitCounter_bill (op : Nat) (a : Auth) (s : State) : (commitCounter op a s).bill = s.bill := by
  simp only [commitCounter]; (repeat' split) <;> simp
@[simp] theorem commitCounter_time (op : Nat) (a : Auth) (s : State) : (commitCounter op a s).time = s.time := by
  simp only [commitCounter]; (repeat' split) <;> simp
@[simp] theorem commitCounter_pio (op : Nat) (a : Auth) (s : State) : (commitCounter op a s).pio = s.pio := by
  simp only [commitCounter]; (repeat' split) <;> simp
@[simp] theorem commitCounter_pioBegan (op : Nat) (a : Auth) (s : State) : (commitCounter op a s).pioBegan = s.pioBegan := by
  simp only [commitCounter]; (repeat' split) <;> simp
@[simp] theorem commitCounter_ctrl (op : Nat) (a : Auth) (s : State) : (commitCounter op a s).ctrl = s.ctrl := by
  simp only [commitCounter]; (repeat' split) <;> simp
@[simp] theorem commitCounter_vax (op : Nat) (a : Auth) (s : State) : (commitCounter op a s).vax = s.vax := by
  simp only [commitCounter]; (repeat' split) <;> simp
@[simp] theorem commitCounter_eth (op : Nat) (a : Auth) (s : State) : (commitCounter op a s).eth = s.eth := by
  simp only [commitCounter]; (repeat' split) <;> simp
@[simp] theorem commitCounter_rtc (op : Nat) (a : Auth) (s : State) : (commitCounter op a s).rtc = s.rtc := by
  simp only [commitCounter]; (repeat' split) <;> simp
@[simp] theorem commitCounter_epd (op : Nat) (a : Auth) (s : State) : (commitCounter op a s).epd = s.epd := by
  simp only [commitCounter]; (repeat' split) <;> simp
@[simp] theorem commitCounter_subl (op : Nat) (a : Auth) (s : State) : (commitCounter op a s).subl = s.subl := by
  simp only [commitCounter]; (repeat' split) <;> simp
@[simp] theorem commitCounter_nmod (op : Nat) (a : Auth) (s : State) : (commitCounter op a s).nmod = s.nmod := by
  simp only [commitCounter]; (repeat' split) <;> simp
@[simp] theorem commitCounter_solv (op : Nat) (a : Auth) (s : State) : (commitCounter op a s).solv = s.solv := by
  simp only [commitCounter]; (repeat' split) <;> simp
@[simp] theorem commitCounter_gal (op : Nat) (a : Auth) (s : State) : (commitCounter op a s).gal = s.gal := by
  simp only [commitCounter]; (repeat' split) <;> simp
@[simp] theorem commitCounter_cfg (op : Nat) (a : Auth) (s : State) : (commitCounter op a s).cfg = s.cfg := by
  simp only [commitCounter]; (repeat' split) <;> simp
@[simp] theorem commitCounter_cfgPending (op : Nat) (a : Auth) (s : State) : (commitCounter op a s).cfgPending = s.cfgPending := by
  simp only [commitCounter]; (repeat' split) <;> simp
@[simp] theorem commitCounter_draws (op : Nat) (a : Auth) (s : State) : (commitCounter op a s).draws = s.draws := by
  simp only [commitCounter]; (repeat' split) <;> simp
@[simp] theorem commitCounter_out (op : Nat) (a : Auth) (s : State) : (commitCounter op a s).out = s.out := by
  simp only [commitCounter]; (repeat' split) <;> simp
@[simp] theorem commitCounter_pending (op : Nat) (a : Auth) (s : State) : (commitCounter op a s).pending = s.pending := by
  simp only [commitCounter]; (repeat' split) <;> simp
@[simp] theorem commitCounter_sec_deviceId (op : Nat) (a : Auth) (s : State) : (commitCounter op a s).sec.deviceId = s.sec.deviceId := by
  simp only [commitCounter]; (repeat' split) <;> simp
@[simp] theorem commitCounter_sec_grade (op : Nat) (a : Auth) (s : State) : (commitCounter op a s).sec.grade = s.sec.grade := by
  simp only [commitCounter]; (repeat' split) <;> simp
@[simp] theorem commitCounter_sec_lifecycle (op : Nat) (a : Auth) (s : State) : (commitCounter op a s).sec.lifecycle = s.sec.lifecycle := by
  simp only [commitCounter]; (repeat' split) <;> simp
@[simp] theorem commitCounter_sec_fwKeys (op : Nat) (a : Auth) (s : State) : (commitCounter op a s).sec.fwKeys = s.sec.fwKeys := by
  simp only [commitCounter]; (repeat' split) <;> simp
@[simp] theorem commitCounter_sec_prodKey (op : Nat) (a : Auth) (s : State) : (commitCounter op a s).sec.prodKey = s.sec.prodKey := by
  simp only [commitCounter]; (repeat' split) <;> simp
@[simp] theorem commitCounter_sec_helper (op : Nat) (a : Auth) (s : State) : (commitCounter op a s).sec.helper = s.sec.helper := by
  simp only [commitCounter]; (repeat' split) <;> simp
@[simp] theorem commitCounter_sec_root (op : Nat) (a : Auth) (s : State) : (commitCounter op a s).sec.root = s.sec.root := by
  simp only [commitCounter]; (repeat' split) <;> simp
@[simp] theorem commitCounter_sec_cert (op : Nat) (a : Auth) (s : State) : (commitCounter op a s).sec.cert = s.sec.cert := by
  simp only [commitCounter]; (repeat' split) <;> simp
@[simp] theorem commitCounter_sec_slots (op : Nat) (a : Auth) (s : State) : (commitCounter op a s).sec.slots = s.sec.slots := by
  simp only [commitCounter]; (repeat' split) <;> simp
@[simp] theorem commitCounter_sec_records (op : Nat) (a : Auth) (s : State) : (commitCounter op a s).sec.records = s.sec.records := by
  simp only [commitCounter]; (repeat' split) <;> simp
@[simp] theorem commitCounter_sec_hostKeys (op : Nat) (a : Auth) (s : State) : (commitCounter op a s).sec.hostKeys = s.sec.hostKeys := by
  simp only [commitCounter]; (repeat' split) <;> simp
@[simp] theorem commitCounter_sec_transition (op : Nat) (a : Auth) (s : State) : (commitCounter op a s).sec.transition = s.sec.transition := by
  simp only [commitCounter]; (repeat' split) <;> simp
@[simp] theorem commitCounter_sec_images (op : Nat) (a : Auth) (s : State) : (commitCounter op a s).sec.images = s.sec.images := by
  simp only [commitCounter]; (repeat' split) <;> simp
@[simp] theorem commitCounter_sec_keysLoaded (op : Nat) (a : Auth) (s : State) : (commitCounter op a s).sec.keysLoaded = s.sec.keysLoaded := by
  simp only [commitCounter]; (repeat' split) <;> simp
@[simp] theorem commitCounter_sec_remasks (op : Nat) (a : Auth) (s : State) : (commitCounter op a s).sec.remasks = s.sec.remasks := by
  simp only [commitCounter]; (repeat' split) <;> simp
@[simp] theorem commitCounter_sec_bootCount (op : Nat) (a : Auth) (s : State) : (commitCounter op a s).sec.bootCount = s.sec.bootCount := by
  simp only [commitCounter]; (repeat' split) <;> simp
@[simp] theorem commitCounter_sec_trngFailures (op : Nat) (a : Auth) (s : State) : (commitCounter op a s).sec.trngFailures = s.sec.trngFailures := by
  simp only [commitCounter]; (repeat' split) <;> simp
@[simp] theorem commitCounter_sec_trngStopped (op : Nat) (a : Auth) (s : State) : (commitCounter op a s).sec.trngStopped = s.sec.trngStopped := by
  simp only [commitCounter]; (repeat' split) <;> simp
@[simp] theorem commitCounter_sec_pufReads (op : Nat) (a : Auth) (s : State) : (commitCounter op a s).sec.pufReads = s.sec.pufReads := by
  simp only [commitCounter]; (repeat' split) <;> simp
@[simp] theorem accept_clock (p : Pkt) (a : Auth) (w : Wait) (s : State) : (accept p a w s).clock = s.clock := by
  simp only [accept]; split <;> simp
@[simp] theorem accept_pair (p : Pkt) (a : Auth) (w : Wait) (s : State) : (accept p a w s).pair = s.pair := by
  simp only [accept]; split <;> simp
@[simp] theorem accept_tamp (p : Pkt) (a : Auth) (w : Wait) (s : State) : (accept p a w s).tamp = s.tamp := by
  simp only [accept]; split <;> simp
@[simp] theorem accept_intg (p : Pkt) (a : Auth) (w : Wait) (s : State) : (accept p a w s).intg = s.intg := by
  simp only [accept]; split <;> simp
@[simp] theorem accept_pwr (p : Pkt) (a : Auth) (w : Wait) (s : State) : (accept p a w s).pwr = s.pwr := by
  simp only [accept]; split <;> simp
@[simp] theorem accept_mth (p : Pkt) (a : Auth) (w : Wait) (s : State) : (accept p a w s).mth = s.mth := by
  simp only [accept]; split <;> simp
@[simp] theorem accept_mel (p : Pkt) (a : Auth) (w : Wait) (s : State) : (accept p a w s).mel = s.mel := by
  simp only [accept]; split <;> simp
@[simp] theorem accept_bill (p : Pkt) (a : Auth) (w : Wait) (s : State) : (accept p a w s).bill = s.bill := by
  simp only [accept]; split <;> simp
@[simp] theorem accept_time (p : Pkt) (a : Auth) (w : Wait) (s : State) : (accept p a w s).time = s.time := by
  simp only [accept]; split <;> simp
@[simp] theorem accept_pio (p : Pkt) (a : Auth) (w : Wait) (s : State) : (accept p a w s).pio = s.pio := by
  simp only [accept]; split <;> simp
@[simp] theorem accept_pioBegan (p : Pkt) (a : Auth) (w : Wait) (s : State) : (accept p a w s).pioBegan = s.pioBegan := by
  simp only [accept]; split <;> simp
@[simp] theorem accept_ctrl (p : Pkt) (a : Auth) (w : Wait) (s : State) : (accept p a w s).ctrl = s.ctrl := by
  simp only [accept]; split <;> simp
@[simp] theorem accept_vax (p : Pkt) (a : Auth) (w : Wait) (s : State) : (accept p a w s).vax = s.vax := by
  simp only [accept]; split <;> simp
@[simp] theorem accept_eth (p : Pkt) (a : Auth) (w : Wait) (s : State) : (accept p a w s).eth = s.eth := by
  simp only [accept]; split <;> simp
@[simp] theorem accept_rtc (p : Pkt) (a : Auth) (w : Wait) (s : State) : (accept p a w s).rtc = s.rtc := by
  simp only [accept]; split <;> simp
@[simp] theorem accept_epd (p : Pkt) (a : Auth) (w : Wait) (s : State) : (accept p a w s).epd = s.epd := by
  simp only [accept]; split <;> simp
@[simp] theorem accept_subl (p : Pkt) (a : Auth) (w : Wait) (s : State) : (accept p a w s).subl = s.subl := by
  simp only [accept]; split <;> simp
@[simp] theorem accept_nmod (p : Pkt) (a : Auth) (w : Wait) (s : State) : (accept p a w s).nmod = s.nmod := by
  simp only [accept]; split <;> simp
@[simp] theorem accept_solv (p : Pkt) (a : Auth) (w : Wait) (s : State) : (accept p a w s).solv = s.solv := by
  simp only [accept]; split <;> simp
@[simp] theorem accept_gal (p : Pkt) (a : Auth) (w : Wait) (s : State) : (accept p a w s).gal = s.gal := by
  simp only [accept]; split <;> simp
@[simp] theorem accept_cfg (p : Pkt) (a : Auth) (w : Wait) (s : State) : (accept p a w s).cfg = s.cfg := by
  simp only [accept]; split <;> simp
@[simp] theorem accept_cfgPending (p : Pkt) (a : Auth) (w : Wait) (s : State) : (accept p a w s).cfgPending = s.cfgPending := by
  simp only [accept]; split <;> simp
@[simp] theorem accept_draws (p : Pkt) (a : Auth) (w : Wait) (s : State) : (accept p a w s).draws = s.draws := by
  simp only [accept]; split <;> simp
@[simp] theorem accept_out (p : Pkt) (a : Auth) (w : Wait) (s : State) : (accept p a w s).out = s.out := by
  simp only [accept]; split <;> simp
@[simp] theorem accept_pending (p : Pkt) (a : Auth) (w : Wait) (s : State) : (accept p a w s).pending = s.pending := by
  simp only [accept]; split <;> simp
@[simp] theorem accept_sys (p : Pkt) (a : Auth) (w : Wait) (s : State) :
    (accept p a w s).sys = { s.sys with lastOps := (p.hdr.opcode :: s.sys.lastOps).take 4 } := by
  simp only [accept]; split <;> simp
@[simp] theorem accept_sec (p : Pkt) (a : Auth) (w : Wait) (s : State) : (accept p a w s).sec = (commitCounter p.hdr.opcode a s).sec := by
  simp only [accept]; split <;> simp
@[simp] theorem accept_evr (p : Pkt) (a : Auth) (w : Wait) (s : State) : (accept p a w s).evr = (commitCounter p.hdr.opcode a s).evr := by
  simp only [accept]; split <;> simp

@[simp] theorem accepted_clock (c : Cmd) (q : Env) (pl : Bytes) (a : Auth) (s : State) : (accepted c q pl a s).clock = s.clock := by
  simp [accepted]
@[simp] theorem accepted_pair (c : Cmd) (q : Env) (pl : Bytes) (a : Auth) (s : State) : (accepted c q pl a s).pair = s.pair := by
  simp [accepted]
@[simp] theorem accepted_tamp (c : Cmd) (q : Env) (pl : Bytes) (a : Auth) (s : State) : (accepted c q pl a s).tamp = s.tamp := by
  simp [accepted]
@[simp] theorem accepted_intg (c : Cmd) (q : Env) (pl : Bytes) (a : Auth) (s : State) : (accepted c q pl a s).intg = s.intg := by
  simp [accepted]
@[simp] theorem accepted_pwr (c : Cmd) (q : Env) (pl : Bytes) (a : Auth) (s : State) : (accepted c q pl a s).pwr = s.pwr := by
  simp [accepted]
@[simp] theorem accepted_mth (c : Cmd) (q : Env) (pl : Bytes) (a : Auth) (s : State) : (accepted c q pl a s).mth = s.mth := by
  simp [accepted]
@[simp] theorem accepted_mel (c : Cmd) (q : Env) (pl : Bytes) (a : Auth) (s : State) : (accepted c q pl a s).mel = s.mel := by
  simp [accepted]
@[simp] theorem accepted_bill (c : Cmd) (q : Env) (pl : Bytes) (a : Auth) (s : State) : (accepted c q pl a s).bill = s.bill := by
  simp [accepted]
@[simp] theorem accepted_time (c : Cmd) (q : Env) (pl : Bytes) (a : Auth) (s : State) : (accepted c q pl a s).time = s.time := by
  simp [accepted]
@[simp] theorem accepted_pio (c : Cmd) (q : Env) (pl : Bytes) (a : Auth) (s : State) : (accepted c q pl a s).pio = s.pio := by
  simp [accepted]
@[simp] theorem accepted_pioBegan (c : Cmd) (q : Env) (pl : Bytes) (a : Auth) (s : State) : (accepted c q pl a s).pioBegan = s.pioBegan := by
  simp [accepted]
@[simp] theorem accepted_ctrl (c : Cmd) (q : Env) (pl : Bytes) (a : Auth) (s : State) : (accepted c q pl a s).ctrl = s.ctrl := by
  simp [accepted]
@[simp] theorem accepted_vax (c : Cmd) (q : Env) (pl : Bytes) (a : Auth) (s : State) : (accepted c q pl a s).vax = s.vax := by
  simp [accepted]
@[simp] theorem accepted_eth (c : Cmd) (q : Env) (pl : Bytes) (a : Auth) (s : State) : (accepted c q pl a s).eth = s.eth := by
  simp [accepted]
@[simp] theorem accepted_rtc (c : Cmd) (q : Env) (pl : Bytes) (a : Auth) (s : State) : (accepted c q pl a s).rtc = s.rtc := by
  simp [accepted]
@[simp] theorem accepted_epd (c : Cmd) (q : Env) (pl : Bytes) (a : Auth) (s : State) : (accepted c q pl a s).epd = s.epd := by
  simp [accepted]
@[simp] theorem accepted_subl (c : Cmd) (q : Env) (pl : Bytes) (a : Auth) (s : State) : (accepted c q pl a s).subl = s.subl := by
  simp [accepted]
@[simp] theorem accepted_nmod (c : Cmd) (q : Env) (pl : Bytes) (a : Auth) (s : State) : (accepted c q pl a s).nmod = s.nmod := by
  simp [accepted]
@[simp] theorem accepted_solv (c : Cmd) (q : Env) (pl : Bytes) (a : Auth) (s : State) : (accepted c q pl a s).solv = s.solv := by
  simp [accepted]
@[simp] theorem accepted_gal (c : Cmd) (q : Env) (pl : Bytes) (a : Auth) (s : State) : (accepted c q pl a s).gal = s.gal := by
  simp [accepted]
@[simp] theorem accepted_cfg (c : Cmd) (q : Env) (pl : Bytes) (a : Auth) (s : State) : (accepted c q pl a s).cfg = s.cfg := by
  simp [accepted]
@[simp] theorem accepted_cfgPending (c : Cmd) (q : Env) (pl : Bytes) (a : Auth) (s : State) : (accepted c q pl a s).cfgPending = s.cfgPending := by
  simp [accepted]
@[simp] theorem accepted_draws (c : Cmd) (q : Env) (pl : Bytes) (a : Auth) (s : State) : (accepted c q pl a s).draws = s.draws := by
  simp [accepted]
@[simp] theorem accepted_out (c : Cmd) (q : Env) (pl : Bytes) (a : Auth) (s : State) : (accepted c q pl a s).out = s.out := by
  simp [accepted]
@[simp] theorem accepted_pending (c : Cmd) (q : Env) (pl : Bytes) (a : Auth) (s : State) : (accepted c q pl a s).pending = s.pending := by
  simp [accepted]
@[simp] theorem accepted_sec_deviceId (c : Cmd) (q : Env) (pl : Bytes) (a : Auth) (s : State) : (accepted c q pl a s).sec.deviceId = s.sec.deviceId := by
  simp [accepted]
@[simp] theorem accepted_sec_grade (c : Cmd) (q : Env) (pl : Bytes) (a : Auth) (s : State) : (accepted c q pl a s).sec.grade = s.sec.grade := by
  simp [accepted]
@[simp] theorem accepted_sec_lifecycle (c : Cmd) (q : Env) (pl : Bytes) (a : Auth) (s : State) : (accepted c q pl a s).sec.lifecycle = s.sec.lifecycle := by
  simp [accepted]
@[simp] theorem accepted_sec_fwKeys (c : Cmd) (q : Env) (pl : Bytes) (a : Auth) (s : State) : (accepted c q pl a s).sec.fwKeys = s.sec.fwKeys := by
  simp [accepted]
@[simp] theorem accepted_sec_prodKey (c : Cmd) (q : Env) (pl : Bytes) (a : Auth) (s : State) : (accepted c q pl a s).sec.prodKey = s.sec.prodKey := by
  simp [accepted]
@[simp] theorem accepted_sec_helper (c : Cmd) (q : Env) (pl : Bytes) (a : Auth) (s : State) : (accepted c q pl a s).sec.helper = s.sec.helper := by
  simp [accepted]
@[simp] theorem accepted_sec_root (c : Cmd) (q : Env) (pl : Bytes) (a : Auth) (s : State) : (accepted c q pl a s).sec.root = s.sec.root := by
  simp [accepted]
@[simp] theorem accepted_sec_cert (c : Cmd) (q : Env) (pl : Bytes) (a : Auth) (s : State) : (accepted c q pl a s).sec.cert = s.sec.cert := by
  simp [accepted]
@[simp] theorem accepted_sec_slots (c : Cmd) (q : Env) (pl : Bytes) (a : Auth) (s : State) : (accepted c q pl a s).sec.slots = s.sec.slots := by
  simp [accepted]
@[simp] theorem accepted_sec_records (c : Cmd) (q : Env) (pl : Bytes) (a : Auth) (s : State) : (accepted c q pl a s).sec.records = s.sec.records := by
  simp [accepted]
@[simp] theorem accepted_sec_hostKeys (c : Cmd) (q : Env) (pl : Bytes) (a : Auth) (s : State) : (accepted c q pl a s).sec.hostKeys = s.sec.hostKeys := by
  simp [accepted]
@[simp] theorem accepted_sec_transition (c : Cmd) (q : Env) (pl : Bytes) (a : Auth) (s : State) : (accepted c q pl a s).sec.transition = s.sec.transition := by
  simp [accepted]
@[simp] theorem accepted_sec_images (c : Cmd) (q : Env) (pl : Bytes) (a : Auth) (s : State) : (accepted c q pl a s).sec.images = s.sec.images := by
  simp [accepted]
@[simp] theorem accepted_sec_keysLoaded (c : Cmd) (q : Env) (pl : Bytes) (a : Auth) (s : State) : (accepted c q pl a s).sec.keysLoaded = s.sec.keysLoaded := by
  simp [accepted]
@[simp] theorem accepted_sec_remasks (c : Cmd) (q : Env) (pl : Bytes) (a : Auth) (s : State) : (accepted c q pl a s).sec.remasks = s.sec.remasks := by
  simp [accepted]
@[simp] theorem accepted_sec_bootCount (c : Cmd) (q : Env) (pl : Bytes) (a : Auth) (s : State) : (accepted c q pl a s).sec.bootCount = s.sec.bootCount := by
  simp [accepted]
@[simp] theorem accepted_sec_trngFailures (c : Cmd) (q : Env) (pl : Bytes) (a : Auth) (s : State) : (accepted c q pl a s).sec.trngFailures = s.sec.trngFailures := by
  simp [accepted]
@[simp] theorem accepted_sec_trngStopped (c : Cmd) (q : Env) (pl : Bytes) (a : Auth) (s : State) : (accepted c q pl a s).sec.trngStopped = s.sec.trngStopped := by
  simp [accepted]
@[simp] theorem accepted_sec_pufReads (c : Cmd) (q : Env) (pl : Bytes) (a : Auth) (s : State) : (accepted c q pl a s).sec.pufReads = s.sec.pufReads := by
  simp [accepted]
@[simp] theorem accepted_sys_mode (c : Cmd) (q : Env) (pl : Bytes) (a : Auth) (s : State) : (accepted c q pl a s).sys.mode = s.sys.mode := by
  simp [accepted]
@[simp] theorem accepted_sys_prevMode (c : Cmd) (q : Env) (pl : Bytes) (a : Auth) (s : State) : (accepted c q pl a s).sys.prevMode = s.sys.prevMode := by
  simp [accepted]
@[simp] theorem accepted_sys_cause (c : Cmd) (q : Env) (pl : Bytes) (a : Auth) (s : State) : (accepted c q pl a s).sys.cause = s.sys.cause := by
  simp [accepted]
@[simp] theorem accepted_sys_returnMode (c : Cmd) (q : Env) (pl : Bytes) (a : Auth) (s : State) : (accepted c q pl a s).sys.returnMode = s.sys.returnMode := by
  simp [accepted]
@[simp] theorem accepted_sys_trans (c : Cmd) (q : Env) (pl : Bytes) (a : Auth) (s : State) : (accepted c q pl a s).sys.trans = s.sys.trans := by
  simp [accepted]
@[simp] theorem accepted_sys_modeChanges (c : Cmd) (q : Env) (pl : Bytes) (a : Auth) (s : State) : (accepted c q pl a s).sys.modeChanges = s.sys.modeChanges := by
  simp [accepted]
@[simp] theorem accepted_sys_inReset (c : Cmd) (q : Env) (pl : Bytes) (a : Auth) (s : State) : (accepted c q pl a s).sys.inReset = s.sys.inReset := by
  simp [accepted]
@[simp] theorem accepted_sys_resetPending (c : Cmd) (q : Env) (pl : Bytes) (a : Auth) (s : State) : (accepted c q pl a s).sys.resetPending = s.sys.resetPending := by
  simp [accepted]
@[simp] theorem accepted_sys_estOutcomes (c : Cmd) (q : Env) (pl : Bytes) (a : Auth) (s : State) : (accepted c q pl a s).sys.estOutcomes = s.sys.estOutcomes := by
  simp [accepted]
@[simp] theorem accepted_sys_optOutcomes (c : Cmd) (q : Env) (pl : Bytes) (a : Auth) (s : State) : (accepted c q pl a s).sys.optOutcomes = s.sys.optOutcomes := by
  simp [accepted]
@[simp] theorem accepted_sys_recovery (c : Cmd) (q : Env) (pl : Bytes) (a : Auth) (s : State) : (accepted c q pl a s).sys.recovery = s.sys.recovery := by
  simp [accepted]
@[simp] theorem accepted_sys_coresUntil (c : Cmd) (q : Env) (pl : Bytes) (a : Auth) (s : State) : (accepted c q pl a s).sys.coresUntil = s.sys.coresUntil := by
  simp [accepted]
@[simp] theorem accepted_sys_triggers (c : Cmd) (q : Env) (pl : Bytes) (a : Auth) (s : State) : (accepted c q pl a s).sys.triggers = s.sys.triggers := by
  simp [accepted]

/-- Before acceptance no more than the host interface has changed: whatever does not look at it reads the same. -/
theorem received_only (c : Cmd) (q : Env) (pl : Bytes) (s : State) : ∃ h : Hif, received c q pl s = { s with hif := h } := by
  obtain ⟨l, e⟩ := received_shape c q pl s
  refine ⟨(received c q pl s).hif, ?_⟩
  rw [e]; cases q.tr <;> rfl

/-- Acceptance changes no more than the host interface, the counters of signatures, the newest opcodes and the event record. -/
theorem accepted_only (c : Cmd) (q : Env) (pl : Bytes) (a : Auth) (s : State) :
    ∃ (h : Hif) (n : List (Nat × Nat)) (o : List Nat) (e : Evr), accepted c q pl a s =
      { s with hif := h, sec := { s.sec with counters := n }, sys := { s.sys with lastOps := o }, evr := e } := by
  obtain ⟨h, e⟩ := received_only c q pl s
  refine ⟨(accepted c q pl a s).hif, (accepted c q pl a s).sec.counters, (accepted c q pl a s).sys.lastOps, (accepted c q pl a s).evr, ?_⟩
  simp only [accepted, e, accept, commitCounter]
  (repeat' split) <;> rfl

/-- Only an A3 command leaves an entry in the event record as it is accepted (R96). -/
theorem accepted_evr {c : Cmd} {q : Env} {pl : Bytes} {a : Auth} {s : State} (h : a.a3 = false) :
    (accepted c q pl a s).evr = s.evr := by
  simp [accepted, commitCounter, h]; split <;> simp

end Sys2Proof.Machine
end

