-- ==== Sys2Proof/Laws/Host.lean ====
section
/-! SUPPORT. A host command whose packet passes every check runs its effect in the accepted state, and what acceptance leaves. -/

namespace Sys2Proof.Machine

set_option Elab.async false

/-- With every check passed the packet's command is left to check 8. -/
theorem hostCommand_admitted {c : Cmd} {q : Env} {pl : Bytes} {a : Auth} {s : State} (h : Admitted c q pl a s) :
    hostCommand c q pl s =
      (match c.eff (requestOf c q pl a) (received c q pl s) with
       | .badParam off => reject (envPkt c.op q pl) stBadParam (badParamBody off) (received c q pl s)
       | .reject st b => reject (envPkt c.op q pl) st b (received c q pl s)
       | _ => run c (envPkt c.op q pl) a (received c q pl s)) := by
  unfold Admitted admission at h
  simp only at h
  split at h
  case isFalse => cases h
  case isTrue hc =>
    simp only [Bool.and_eq_true] at hc
    obtain ⟨hf, hl⟩ := hc
    unfold passesFraming at hf
    simp only [Bool.and_eq_true, decide_eq_true_eq] at hf
    obtain ⟨⟨⟨⟨⟨⟨⟨⟨h1, h2⟩, h3⟩, h4⟩, h5⟩, h6⟩, h7⟩, h8⟩, h9⟩ := hf
    split at h
    case h_2 => cases h
    case h_1 a' ha =>
      split at h
      case isTrue => cases h
      case isFalse hm =>
        cases h
        have hs : checks (some c) (envPkt c.op q pl) s = inSequence (some c) (envPkt c.op q pl) (sequenced q s) := by
          have e : (envPkt c.op q pl).hdr.seq = q.seq.toNat := rfl
          have o : (envPkt c.op q pl).hdr.opcode = c.op := rfl
          have r : (envPkt c.op q pl).org.tr = q.tr := rfl
          simp only [Bool.or_eq_true, beq_iff_eq] at h5
          simp only [checks, e, o, r, BitVec.ofNat_toNat, BitVec.setWidth_eq]
          rcases h5 with h5 | h5
          · simp [h5, sequenced]
          · simp [h5, sequenced]
        have hi : inSequence (some c) (envPkt c.op q pl) (sequenced q s) = dispatch c (envPkt c.op q pl) (sequenced q s) := by
          simp only [Option.isNone_iff_eq_none] at h6
          simp only [beq_iff_eq] at h8
          simp [inSequence, h6, h7, h9, ← h8]
        have hd : dispatch c (envPkt c.op q pl) (sequenced q s) = check8 c (envPkt c.op q pl) a (received c q pl s) := by
          simp [dispatch, hl, ha, received]
        have hx : hostCommand c q pl s = check8 c (envPkt c.op q pl) a (received c q pl s) := by
          have h4' : ¬ 4268 < (envPkt c.op q pl).size := Nat.not_lt.mpr h4
          simp only [hostCommand]
          rw [if_neg (by simp [h1]), if_neg (by simp at h2 ⊢; tauto), if_neg (by simp at h3 ⊢; tauto), if_neg h4', hs, hi, hd]
        rw [hx, check8, if_neg, if_neg]
        · rfl
        · intro hb; exact hm (by simp [hb])
        · intro hb; exact hm (by rw [hb]; rfl)

@[simp] theorem requestOf_payload (c : Cmd) (q : Env) (pl : Bytes) (a : Auth) : (requestOf c q pl a).payload = pl := rfl
@[simp] theorem requestOf_auth (c : Cmd) (q : Env) (pl : Bytes) (a : Auth) : (requestOf c q pl a).auth = a := rfl
@[simp] theorem requestOf_tr (c : Cmd) (q : Env) (pl : Bytes) (a : Auth) : (requestOf c q pl a).org.tr = q.tr := rfl
@[simp] theorem requestOf_tag (c : Cmd) (q : Env) (pl : Bytes) (a : Auth) : (requestOf c q pl a).hdr.tag = q.tag.toNat := rfl

/-- Acceptance leaves whether the device is the active one of a pair as it was. -/
theorem logs_received (c : Cmd) (q : Env) (pl : Bytes) (s : State) : logs c pl (received c q pl s) = logs c pl s := by
  simp [logs, paired, getP]

/-- Check 8 rejects. -/
def CmdRes.rejects : CmdRes → Bool
  | .badParam _ => true
  | .reject _ _ => true
  | _ => false

/-- A command that is not logged and that check 8 does not reject runs in the accepted state. -/
theorem hostCommand_runs {c : Cmd} {q : Env} {pl : Bytes} {a : Auth} {s : State} (h : Admitted c q pl a s)
    (hl : logs c pl s = false) (hr : (c.eff (requestOf c q pl a) (received c q pl s)).rejects = false) :
    hostCommand c q pl s =
      (match c.eff (requestOf c q pl a) (accepted c q pl a s) with
       | .answer st fl b crcs s' =>
         let d := debit c.op (envPkt c.op q pl).size
         replyTo (envPkt c.op q pl) st fl b (crcs.getD (crcsOf (envPkt c.op q pl) b)) d d s'
       | r => finish q.tag.toNat r (accepted c q pl a s)) := by
  rw [hostCommand_admitted h]
  have e : run c (envPkt c.op q pl) a (received c q pl s) =
      (match c.eff (requestOf c q pl a) (accepted c q pl a s) with
       | .answer st fl b crcs s' =>
         let d := debit c.op (envPkt c.op q pl).size
         replyTo (envPkt c.op q pl) st fl b (crcs.getD (crcsOf (envPkt c.op q pl) b)) d d s'
       | r => finish q.tag.toNat r (accepted c q pl a s)) := by
    have hl' : logs c (envPkt c.op q pl).payload (received c q pl s) = false := by
      rw [← hl]; exact logs_received c q pl s
    simp only [run, hl', Bool.false_eq_true, if_false]
    rfl
  revert hr
  cases c.eff (requestOf c q pl a) (received c q pl s) <;> simp_all [CmdRes.rejects]

/-- It completes at once where its effect does. -/
theorem hostCommand_done {c : Cmd} {q : Env} {pl : Bytes} {a : Auth} {s s' : State} {st : Nat} {reg : Bool} {b : Bytes}
    (h : Admitted c q pl a s) (hl : logs c pl s = false)
    (hr : (c.eff (requestOf c q pl a) (received c q pl s)).rejects = false)
    (hd : c.eff (requestOf c q pl a) (accepted c q pl a s) = .done st reg b s') :
    hostCommand c q pl s = complete q.tag.toNat st reg b s' := by
  rw [hostCommand_runs h hl hr, hd]; rfl

/-- It completes at once and something follows its reply. -/
theorem hostCommand_thenDone {c : Cmd} {q : Env} {pl : Bytes} {a : Auth} {s s' : State} {b : Bytes} {after : State → State}
    (h : Admitted c q pl a s) (hl : logs c pl s = false)
    (hr : (c.eff (requestOf c q pl a) (received c q pl s)).rejects = false)
    (hd : c.eff (requestOf c q pl a) (accepted c q pl a s) = .doneThen b s' after) :
    hostCommand c q pl s = after (answered q stOK b s') := by
  rw [hostCommand_runs h hl hr, hd]; rfl

/-- It is answered at once, its tag as it was. -/
theorem hostCommand_answers {c : Cmd} {q : Env} {pl : Bytes} {a : Auth} {s s' : State} {st fl : Nat} {b : Bytes}
    {crcs : Option (Nat × Nat)} (h : Admitted c q pl a s) (hl : logs c pl s = false)
    (hr : (c.eff (requestOf c q pl a) (received c q pl s)).rejects = false)
    (hd : c.eff (requestOf c q pl a) (accepted c q pl a s) = .answer st fl b crcs s') :
    hostCommand c q pl s =
      replyTo (envPkt c.op q pl) st fl b (crcs.getD (crcsOf (envPkt c.op q pl) b)) (debit c.op (envPkt c.op q pl).size)
        (debit c.op (envPkt c.op q pl).size) s' := by
  rw [hostCommand_runs h hl hr, hd]

/-- It stays EXECUTING where its effect waits. -/
theorem hostCommand_waits {c : Cmd} {q : Env} {pl : Bytes} {a : Auth} {s s' : State} {w : Wait}
    (h : Admitted c q pl a s) (hl : logs c pl s = false)
    (hr : (c.eff (requestOf c q pl a) (received c q pl s)).rejects = false)
    (hd : c.eff (requestOf c q pl a) (accepted c q pl a s) = .wait w s') :
    hostCommand c q pl s = setWait q.tag.toNat w s' := by
  rw [hostCommand_runs h hl hr, hd]; rfl

/-- Unfolded once for `Completes`: what an effect must be shown to do. -/
theorem completes_of_steps {i : Nat → Env → Bytes → Instr} {c : Cmd} {ok : Req → State → Prop} {st : Nat}
    {body : Req → State → Bytes} {effect : Req → State → State}
    (hi : ∀ dt q pl s, exec (i dt q pl) s = event dt (hostCommand c q pl) s)
    (hr : ∀ q pl a s, Quiet s → ok (requestOf c q pl a) s → (c.eff (requestOf c q pl a) (received c q pl s)).rejects = false)
    (hd : ∀ q pl a s, Quiet s → ok (requestOf c q pl a) s → c.eff (requestOf c q pl a) (accepted c q pl a s) =
      .done st false (body (requestOf c q pl a) (accepted c q pl a s)) (effect (requestOf c q pl a) (accepted c q pl a s)))
    (hq : ∀ q pl a s, Quiet s → ok (requestOf c q pl a) s → Settled (effect (requestOf c q pl a) (accepted c q pl a s)) ∧
      (effect (requestOf c q pl a) (accepted c q pl a s)).pending = s.pending) :
    Completes i c ok st body effect := by
  intro dt q pl a s h ho
  have hz : Quiet (elapse dt s) := quiet_elapse h.quiet dt
  have e := hostCommand_done h.admitted (by simpa [logs, paired, getP, h.quiet.2.2] using h.direct) (hr q pl a _ hz ho) (hd q pl a _ hz ho)
  obtain ⟨h1, h2⟩ := hq q pl a _ hz ho
  rw [hi, event_of_settled, e]
  · rfl
  · rw [e]; simpa [Settled] using h1
  · rw [e]; simpa [h.quiet.2.2] using h2

/-- The same for `Begins`. -/
theorem begins_of_steps {i : Nat → Env → Bytes → Instr} {c : Cmd} {ok : Req → State → Prop} {w : Req → State → Wait}
    {effect : Req → State → State}
    (hi : ∀ dt q pl s, exec (i dt q pl) s = event dt (hostCommand c q pl) s)
    (hr : ∀ q pl a s, Quiet s → ok (requestOf c q pl a) s → (c.eff (requestOf c q pl a) (received c q pl s)).rejects = false)
    (hd : ∀ q pl a s, Quiet s → ok (requestOf c q pl a) s → c.eff (requestOf c q pl a) (accepted c q pl a s) =
      .wait (w (requestOf c q pl a) (accepted c q pl a s)) (effect (requestOf c q pl a) (accepted c q pl a s)))
    (hq : ∀ q pl a s, Quiet s → ok (requestOf c q pl a) s → Settled (effect (requestOf c q pl a) (accepted c q pl a s)) ∧
      (effect (requestOf c q pl a) (accepted c q pl a s)).pending = s.pending) :
    Begins i c ok w effect := by
  intro dt q pl a s h ho
  have hz : Quiet (elapse dt s) := quiet_elapse h.quiet dt
  have e := hostCommand_waits h.admitted (by simpa [logs, paired, getP, h.quiet.2.2] using h.direct) (hr q pl a _ hz ho) (hd q pl a _ hz ho)
  obtain ⟨h1, h2⟩ := hq q pl a _ hz ho
  rw [hi, event_of_settled, e]
  · rw [e]; simpa [Settled] using h1
  · rw [e]; simpa [h.quiet.2.2] using h2

/-- The state with what acceptance changes put in. -/
def withAcceptance (h : Hif) (n : List (Nat × Nat)) (o : List Nat) (e : Evr) (s : State) : State :=
  { s with hif := h, sec := { s.sec with counters := n }, sys := { s.sys with lastOps := o }, evr := e }

/-- A command completes as it says if what it asks for does not look at what acceptance changes (`hok`, mostly by definition), and
its effect is as it says on every state for which that holds. -/
theorem completes_of {i : Nat → Env → Bytes → Instr} {c : Cmd} {ok : Req → State → Prop} {st : Nat}
    {body : Req → State → Bytes} {effect : Req → State → State}
    (hi : ∀ dt q pl s, exec (i dt q pl) s = event dt (hostCommand c q pl) s)
    (hok : ∀ r s h n o e, ok r s → ok r (withAcceptance h n o e s))
    (hd : ∀ r u, Quiet u → ok r u →
      c.eff r u = .done st false (body r u) (effect r u) ∧ Settled (effect r u) ∧ (effect r u).pending = u.pending) :
    Completes i c ok st body effect := by
  apply completes_of_steps hi
  · intro q pl a s hq ho
    obtain ⟨h, e⟩ := received_only c q pl s
    have hx := (hd _ _ (by exact hq) (hok _ s h s.sec.counters s.sys.lastOps s.evr ho)).1
    have hw : withAcceptance h s.sec.counters s.sys.lastOps s.evr s = received c q pl s := by rw [e]; rfl
    rw [hw] at hx; rw [hx]; rfl
  · intro q pl a s hq ho
    obtain ⟨h, n, o, e, hu⟩ := accepted_only c q pl a s
    rw [hu]; exact (hd _ _ (by exact hq) (hok _ s h n o e ho)).1
  · intro q pl a s hq ho
    obtain ⟨h, n, o, e, hu⟩ := accepted_only c q pl a s
    rw [hu]; exact (hd _ _ (by exact hq) (hok _ s h n o e ho)).2

/-- The same for `Begins`. -/
theorem begins_of {i : Nat → Env → Bytes → Instr} {c : Cmd} {ok : Req → State → Prop} {w : Req → State → Wait}
    {effect : Req → State → State}
    (hi : ∀ dt q pl s, exec (i dt q pl) s = event dt (hostCommand c q pl) s)
    (hok : ∀ r s h n o e, ok r s → ok r (withAcceptance h n o e s))
    (hd : ∀ r u, Quiet u → ok r u →
      c.eff r u = .wait (w r u) (effect r u) ∧ Settled (effect r u) ∧ (effect r u).pending = u.pending) :
    Begins i c ok w effect := by
  apply begins_of_steps hi
  · intro q pl a s hq ho
    obtain ⟨h, e⟩ := received_only c q pl s
    have hx := (hd _ _ (by exact hq) (hok _ s h s.sec.counters s.sys.lastOps s.evr ho)).1
    have hw : withAcceptance h s.sec.counters s.sys.lastOps s.evr s = received c q pl s := by rw [e]; rfl
    rw [hw] at hx; rw [hx]; rfl
  · intro q pl a s hq ho
    obtain ⟨h, n, o, e, hu⟩ := accepted_only c q pl a s
    rw [hu]; exact (hd _ _ (by exact hq) (hok _ s h n o e ho)).1
  · intro q pl a s hq ho
    obtain ⟨h, n, o, e, hu⟩ := accepted_only c q pl a s
    rw [hu]; exact (hd _ _ (by exact hq) (hok _ s h n o e ho)).2

end Sys2Proof.Machine
end

