-- ==== Sys2Proof/Laws/Memory.lean ====
section
/-! SUPPORT. Every operation over a memory or a table keeps its canonical form, and reads give back what was written. -/

namespace Sys2Proof.Machine

set_option Elab.async false

/-! ### Bounds of the addresses of a memory -/

/-- Every listed address is above `a`. -/
abbrev Memory.above (a : Nat) (m : Memory) : Bool := m.all fun c => decide (a < c.1)

theorem Memory.wf_cons {k : Nat} {c : Byte} {t : Memory} :
    Memory.wf ((k, c) :: t) = true ↔ c ≠ Memory.blank ∧ Memory.above k t = true ∧ Memory.wf t = true := by
  simp [Memory.wf, and_assoc]

theorem Memory.above_mono {a b : Nat} {m : Memory} (h : a ≤ b) (hm : Memory.above b m = true) : Memory.above a m = true := by
  simp only [Memory.above, List.all_eq_true, decide_eq_true_eq] at *
  exact fun x hx => lt_of_le_of_lt h (hm x hx)

theorem Memory.above_write {k a : Nat} {b : Byte} {m : Memory} (hk : k < a) (h : Memory.above k m = true) :
    Memory.above k (Memory.write m a b) = true := by
  induction m with
  | nil => unfold Memory.write; split <;> simp_all [Memory.above]
  | cons x t ih =>
    obtain ⟨x, c⟩ := x
    simp only [Memory.above, List.all_cons, Bool.and_eq_true, decide_eq_true_eq] at h ih ⊢
    have ih := ih h.2
    unfold Memory.write
    split_ifs <;> (try simp only [List.all_cons, Bool.and_eq_true, decide_eq_true_eq]) <;> tauto

/-- A listed address below all of a memory reads as an unlisted one. -/
theorem Memory.read_of_above {a : Nat} {m : Memory} (h : Memory.above a m = true) : Memory.read m a = Memory.blank := by
  induction m with
  | nil => rfl
  | cons x t ih =>
    obtain ⟨k, c⟩ := x
    simp only [Memory.above, List.all_cons, Bool.and_eq_true, decide_eq_true_eq] at h ih
    simp [Memory.read, Nat.ne_of_gt h.1, ih h.2]

/-! ### Canonical form is kept -/

theorem Memory.wf_write {m : Memory} {a : Nat} {b : Byte} (h : Memory.wf m = true) : Memory.wf (Memory.write m a b) = true := by
  induction m with
  | nil => unfold Memory.write; split <;> simp_all [Memory.wf]
  | cons x t ih =>
    obtain ⟨k, c⟩ := x
    obtain ⟨hc, ht, hw⟩ := Memory.wf_cons.1 h
    unfold Memory.write
    split_ifs with h1 h2 h3 h4
    · exact h
    · refine Memory.wf_cons.2 ⟨h2, ?_, h⟩
      simpa [Memory.above, h1] using Memory.above_mono (Nat.le_of_lt h1) ht
    · exact hw
    · subst h3; exact Memory.wf_cons.2 ⟨h4, ht, hw⟩
    · exact Memory.wf_cons.2 ⟨hc, Memory.above_write (by omega) ht, ih hw⟩

theorem Memory.wf_writes {bs : Bytes} {m : Memory} {a : Nat} (h : Memory.wf m = true) :
    Memory.wf (Memory.writes m a bs) = true := by
  induction bs generalizing m a with
  | nil => exact h
  | cons b bs ih => exact ih (Memory.wf_write h)

theorem Memory.above_ofBytes {bs : Bytes} {k a : Nat} (h : k < a) : Memory.above k (Memory.ofBytes a bs) = true := by
  induction bs generalizing a with
  | nil => rfl
  | cons b bs ih =>
    have := ih (a := a + 1) (by omega)
    simp only [Memory.above, List.all_eq_true, decide_eq_true_eq] at this ⊢
    unfold Memory.ofBytes; split
    · exact this
    · rintro x (_ | ⟨_, hx⟩)
      · exact h
      · exact this x hx

theorem Memory.wf_ofBytes {bs : Bytes} {a : Nat} : Memory.wf (Memory.ofBytes a bs) = true := by
  induction bs generalizing a with
  | nil => rfl
  | cons b bs ih =>
    unfold Memory.ofBytes; split
    · exact ih
    · exact Memory.wf_cons.2 ⟨by assumption, Memory.above_ofBytes (by omega), ih⟩

theorem Memory.wf_filter {m : Memory} (p : Host.Cell → Bool) (h : Memory.wf m = true) :
    Memory.wf (m.filter p : Memory) = true := by
  induction m with
  | nil => rfl
  | cons x t ih =>
    obtain ⟨k, c⟩ := x
    obtain ⟨hc, ht, hw⟩ := Memory.wf_cons.1 h
    rw [List.filter_cons]; split
    · refine Memory.wf_cons.2 ⟨hc, ?_, ih hw⟩
      simp only [Memory.above, List.all_eq_true, decide_eq_true_eq, List.mem_filter] at ht ⊢
      exact fun x hx => ht x hx.1
    · exact ih hw

theorem Memory.wf_outside {m : Memory} {lo hi : Nat} (h : Memory.wf m = true) : Memory.wf (Memory.outside m lo hi) = true :=
  Memory.wf_filter _ h

/-- Listing a byte keeps addresses rising. -/
theorem Memory.ordered_list {m : Memory} {a : Nat} {b : Byte} (h : Memory.ordered m = true) :
    Memory.ordered (Memory.list m a b) = true ∧ ∀ k, Memory.above k m = true → k < a → Memory.above k (Memory.list m a b) = true := by
  induction m with
  | nil => simp [Memory.list, Memory.ordered, Memory.above]
  | cons c t ih =>
    obtain ⟨k, c⟩ := c
    simp only [Memory.ordered, Bool.and_eq_true, List.all_eq_true, decide_eq_true_eq] at h
    obtain ⟨i1, i2⟩ := ih h.2
    simp only [Memory.list]
    split
    · refine ⟨?_, ?_⟩
      · simp only [Memory.ordered, List.all_cons, Bool.and_eq_true, decide_eq_true_eq, List.all_eq_true]
        exact ⟨⟨by assumption, fun x hx => lt_trans (by assumption) (h.1 x hx)⟩, h.1, h.2⟩
      · intro j hj ha
        simp only [Memory.above, List.all_cons, Bool.and_eq_true, decide_eq_true_eq] at *
        exact ⟨ha, hj⟩
    · split
      · rename_i e
        subst e
        refine ⟨?_, ?_⟩
        · simp only [Memory.ordered, Bool.and_eq_true, List.all_eq_true, decide_eq_true_eq]; exact h
        · intro j hj ha
          simp only [Memory.above, List.all_cons, Bool.and_eq_true, decide_eq_true_eq] at *
          exact ⟨ha, hj.2⟩
      · rename_i h1 h2
        have hk : k < a := by omega
        refine ⟨?_, ?_⟩
        · simp only [Memory.ordered, Bool.and_eq_true]
          exact ⟨i2 k (by simpa [Memory.above] using h.1) hk, i1⟩
        · intro j hj ha
          simp only [Memory.above, List.all_cons, Bool.and_eq_true, decide_eq_true_eq] at *
          exact ⟨hj.1, i2 j hj.2 ha⟩

/-- A byte written keeps a region canonical. -/
theorem Region.wf_write {r : Region} {a : Nat} {b : Byte} (h : Region.wf r = true) : Region.wf (r.write a b) = true := by
  unfold Region.wf at *
  simp only [Region.write]
  split
  · rw [if_pos (by assumption)] at h; exact Memory.wf_write h
  · rw [if_neg (by assumption)] at h; exact (Memory.ordered_list h).1

theorem Region.wf_zero : Region.wf Region.zero = true := rfl
theorem Region.wf_unknown (d : Nat) : Region.wf (Region.unknown d) = true := rfl

/-- A byte written into the solver address map keeps its memories canonical. -/
theorem putByte_wf {p : JobPlace} {off : Nat} {b : Byte} {v : Solv} (h : v.canonical = true) :
    (putByte p off b v).canonical = true := by
  simp only [Solv.canonical, Bool.and_eq_true] at *
  cases p with
  | flight n =>
    refine ⟨⟨⟨h.1.1.1, ?_⟩, h.1.2⟩, h.2⟩
    have hl := h.1.1.2
    simp only [putByte, vset]
    simp only [Vector.all_eq_true] at *
    intro i hi
    rw [Vector.getElem_setIfInBounds]
    split
    · rename_i e
      subst e
      simp only [vget, Vector.getElem?_eq_getElem hi, Option.getD_some]
      exact Region.wf_write (hl _ hi)
    · exact hl i hi
  | work => exact ⟨⟨h.1.1, Region.wf_write h.1.2⟩, h.2⟩
  | test => exact ⟨⟨⟨Memory.wf_write h.1.1.1, h.1.1.2⟩, h.1.2⟩, h.2⟩
  | ddr => exact ⟨h.1, Region.wf_write h.2⟩

/-- The commit of a job's outputs keeps the memories of the solver address map canonical (R144). -/
theorem jobWrite_wf {s : State} (w : Nat × Nat × Bytes) (h : s.solv.canonical = true) :
    (jobWrite s w).solv.canonical = true := by
  have fold : ∀ (l : List (Byte × Nat)) (v : Solv), v.canonical = true →
      (l.foldl (fun v c => match locate w.1 (w.2.1 + c.2) with
        | some (p, off) => putByte p off c.1 v
        | none => v) v).canonical = true := by
    intro l
    induction l with
    | nil => exact fun _ hm => hm
    | cons c l ih =>
      intro v hv
      refine ih _ ?_
      simp only []
      split
      · exact putByte_wf hv
      · exact hv
  unfold jobWrite
  simp only []
  split
  · exact fold _ _ h
  · exact fold _ _ h

/-! ### Reads after writes -/

theorem Memory.read_write {m : Memory} {a x : Nat} {b : Byte} (h : Memory.wf m = true) :
    Memory.read (Memory.write m a b) x = if x = a then b else Memory.read m x := by
  induction m with
  | nil =>
    unfold Memory.write
    by_cases hb : b = Memory.blank <;> by_cases hx : a = x <;> simp [hb, hx, Memory.read, eq_comm (a := x)]
  | cons y t ih =>
    obtain ⟨k, c⟩ := y
    obtain ⟨-, ht, hw⟩ := Memory.wf_cons.1 h
    have hab : ∀ z ≤ k, Memory.read t z = Memory.blank := fun z hz => Memory.read_of_above (Memory.above_mono hz ht)
    unfold Memory.write
    split_ifs with h1 h2 h3 h4 <;> (try simp only [Memory.read, ih hw]) <;> (try split_ifs) <;> (try omega) <;> (try rfl) <;> (try simp_all)
    all_goals first | omega | exact hab _ (by omega)

/-- A byte written reads back. -/
theorem Memory.read_write_same {m : Memory} {a : Nat} {b : Byte} (h : Memory.wf m = true) :
    Memory.read (Memory.write m a b) a = b := by simp [Memory.read_write h]

theorem Memory.read_writes {bs : Bytes} {m : Memory} {a x : Nat} (h : Memory.wf m = true) :
    Memory.read (Memory.writes m a bs) x = if a ≤ x ∧ x < a + bs.length then bs.getD (x - a) 0 else Memory.read m x := by
  induction bs generalizing m a with
  | nil => simp [Memory.writes, show ¬ (a ≤ x ∧ x < a) by omega]
  | cons b bs ih =>
    simp only [Memory.writes, ih (Memory.wf_write h), Memory.read_write h, List.length_cons]
    by_cases hx : x = a
    · subst hx; simp [show ¬ (x + 1 ≤ x) by omega]
    · by_cases h1 : a + 1 ≤ x ∧ x < a + 1 + bs.length
      · have h2 : a ≤ x ∧ x < a + (bs.length + 1) := by omega
        have h3 : x - a = (x - (a + 1)) + 1 := by omega
        simp [h1, h2, h3]
      · have h2 : ¬ (a ≤ x ∧ x < a + (bs.length + 1)) := by omega
        rw [if_neg h1, if_neg h2, if_neg hx]

theorem Memory.reads_length (m : Memory) (a n : Nat) : (Memory.reads m a n).length = n := by
  induction n generalizing a with
  | zero => rfl
  | succ n ih => simp [Memory.reads, ih]

/-! ### Tables -/

theorem tableWf_cons {d : Nat → Nat} {k v : Nat} {t : List (Nat × Nat)} :
    tableWf d ((k, v) :: t) = true ↔ v ≠ d k ∧ (t.all fun p => decide (k < p.1)) = true ∧ tableWf d t = true := by
  simp [tableWf, and_assoc]

theorem tableAbove_set {d : Nat → Nat} {k a v : Nat} {t : List (Nat × Nat)} (hk : k < a)
    (h : (t.all fun p => decide (k < p.1)) = true) : ((tableSet d t a v).all fun p => decide (k < p.1)) = true := by
  induction t with
  | nil => unfold tableSet; split <;> simp_all
  | cons x t ih =>
    obtain ⟨x, c⟩ := x
    simp only [List.all_cons, Bool.and_eq_true, decide_eq_true_eq] at h ih
    have ih := ih h.2
    unfold tableSet
    split_ifs <;> (try simp only [List.all_cons, Bool.and_eq_true, decide_eq_true_eq]) <;> tauto

theorem tableWf_set {d : Nat → Nat} {l : List (Nat × Nat)} {k v : Nat} (h : tableWf d l = true) :
    tableWf d (tableSet d l k v) = true := by
  induction l with
  | nil => unfold tableSet; split <;> simp_all [tableWf]
  | cons x t ih =>
    obtain ⟨k', v'⟩ := x
    obtain ⟨hv, ht, hw⟩ := tableWf_cons.1 h
    unfold tableSet
    split_ifs with h1 h2 h3 h4
    · exact h
    · refine tableWf_cons.2 ⟨h2, ?_, h⟩
      simp only [List.all_cons, Bool.and_eq_true, decide_eq_true_eq, List.all_eq_true] at ht ⊢
      exact ⟨h1, fun p hp => lt_trans h1 (ht p hp)⟩
    · exact hw
    · subst h3; exact tableWf_cons.2 ⟨h4, ht, hw⟩
    · exact tableWf_cons.2 ⟨hv, tableAbove_set (by omega) ht, ih hw⟩

theorem tableGet_of_above {d : Nat → Nat} {k : Nat} {t : List (Nat × Nat)} (h : (t.all fun p => decide (k < p.1)) = true) :
    tableGet d t k = d k := by
  induction t with
  | nil => rfl
  | cons x t ih =>
    obtain ⟨x, c⟩ := x
    simp only [List.all_cons, Bool.and_eq_true, decide_eq_true_eq] at h ih
    simp [tableGet, Nat.ne_of_gt h.1, ih h.2]

theorem tableGet_set {d : Nat → Nat} {l : List (Nat × Nat)} {k v x : Nat} (h : tableWf d l = true) :
    tableGet d (tableSet d l k v) x = if x = k then v else tableGet d l x := by
  induction l with
  | nil =>
    unfold tableSet
    by_cases hx : k = x
    · subst hx; by_cases hb : v = d k <;> simp [tableGet, hb]
    · split_ifs <;> simp_all [tableGet, eq_comm (a := x)]
  | cons y t ih =>
    obtain ⟨k', v'⟩ := y
    obtain ⟨-, ht, hw⟩ := tableWf_cons.1 h
    have hab : ∀ z ≤ k', tableGet d t z = d z := fun z hz =>
      tableGet_of_above (by
        simp only [List.all_eq_true, decide_eq_true_eq] at ht ⊢
        exact fun p hp => lt_of_le_of_lt hz (ht p hp))
    unfold tableSet
    split_ifs with h1 h2 h3 h4 <;> (try simp only [tableGet, ih hw]) <;> (try split_ifs) <;> (try omega) <;> (try simp_all)
    all_goals first | omega | exact hab _ (by omega)

/-- A parameter that was written reads as written, and every other as before. -/
theorem getP_setP {s : State} {id v x : Nat} (h : tableWf pdflt s.cfg = true) :
    getP (setP id v s) x = if x = id then v else getP s x := tableGet_set h

end Sys2Proof.Machine
end

