-- ==== Sys2Proof/Laws/PerInstr.lean ====
section
/-! SUPPORT. For every command: the time before it is its first operand, and says nothing of whether it is well formed. -/

namespace Sys2Proof.Laws.Timing

/-- The time of a command can be set alone. -/
def Statement (i : Instr) : Prop := ∀ n, (i.withDt n).dt = n ∧ (i.withDt n).wf = i.wf

theorem sysStatus a0 a1 a2 : Statement (.sysStatus a0 a1 a2) := fun _ => ⟨rfl, rfl⟩
theorem sysModeRequest a0 a1 a2 : Statement (.sysModeRequest a0 a1 a2) := fun _ => ⟨rfl, rfl⟩
theorem sysReset a0 a1 a2 : Statement (.sysReset a0 a1 a2) := fun _ => ⟨rfl, rfl⟩
theorem paramRead a0 a1 a2 : Statement (.paramRead a0 a1 a2) := fun _ => ⟨rfl, rfl⟩
theorem paramWrite a0 a1 a2 : Statement (.paramWrite a0 a1 a2) := fun _ => ⟨rfl, rfl⟩
theorem pioFaultClear a0 a1 a2 : Statement (.pioFaultClear a0 a1 a2) := fun _ => ⟨rfl, rfl⟩
theorem rtcStatusClear a0 a1 a2 : Statement (.rtcStatusClear a0 a1 a2) := fun _ => ⟨rfl, rfl⟩
theorem bufferStateRead a0 a1 : Statement (.bufferStateRead a0 a1) := fun _ => ⟨rfl, rfl⟩
theorem rtcDateRead a0 a1 : Statement (.rtcDateRead a0 a1) := fun _ => ⟨rfl, rfl⟩
theorem resultFetch a0 a1 a2 : Statement (.resultFetch a0 a1 a2) := fun _ => ⟨rfl, rfl⟩
theorem resultRelease a0 a1 a2 : Statement (.resultRelease a0 a1 a2) := fun _ => ⟨rfl, rfl⟩
theorem snapshotTrigger a0 a1 a2 : Statement (.snapshotTrigger a0 a1 a2) := fun _ => ⟨rfl, rfl⟩
theorem snapshotRead a0 a1 a2 : Statement (.snapshotRead a0 a1 a2) := fun _ => ⟨rfl, rfl⟩
theorem hifCreditSync a0 a1 a2 : Statement (.hifCreditSync a0 a1 a2) := fun _ => ⟨rfl, rfl⟩
theorem hifSessionOpen a0 a1 a2 : Statement (.hifSessionOpen a0 a1 a2) := fun _ => ⟨rfl, rfl⟩
theorem solvJobSubmit a0 a1 a2 : Statement (.solvJobSubmit a0 a1 a2) := fun _ => ⟨rfl, rfl⟩
theorem solvTestWrite a0 a1 a2 : Statement (.solvTestWrite a0 a1 a2) := fun _ => ⟨rfl, rfl⟩
theorem solvTestRead a0 a1 a2 : Statement (.solvTestRead a0 a1 a2) := fun _ => ⟨rfl, rfl⟩
theorem nmodModelLoad a0 a1 a2 : Statement (.nmodModelLoad a0 a1 a2) := fun _ => ⟨rfl, rfl⟩
theorem nmodModelActivate a0 a1 a2 : Statement (.nmodModelActivate a0 a1 a2) := fun _ => ⟨rfl, rfl⟩
theorem nmodRoundConfig a0 a1 a2 : Statement (.nmodRoundConfig a0 a1 a2) := fun _ => ⟨rfl, rfl⟩
theorem nmodResultGet a0 a1 a2 : Statement (.nmodResultGet a0 a1 a2) := fun _ => ⟨rfl, rfl⟩
theorem nmodOptConfig a0 a1 a2 : Statement (.nmodOptConfig a0 a1 a2) := fun _ => ⟨rfl, rfl⟩
theorem nmodForecastLoad a0 a1 a2 : Statement (.nmodForecastLoad a0 a1 a2) := fun _ => ⟨rfl, rfl⟩
theorem nmodCalibGet a0 a1 a2 : Statement (.nmodCalibGet a0 a1 a2) := fun _ => ⟨rfl, rfl⟩
theorem nmodCalibAdopt a0 a1 a2 : Statement (.nmodCalibAdopt a0 a1 a2) := fun _ => ⟨rfl, rfl⟩
theorem sublRegister a0 a1 a2 : Statement (.sublRegister a0 a1 a2) := fun _ => ⟨rfl, rfl⟩
theorem sublUnregister a0 a1 a2 : Statement (.sublUnregister a0 a1 a2) := fun _ => ⟨rfl, rfl⟩
theorem sublStatus a0 a1 a2 : Statement (.sublStatus a0 a1 a2) := fun _ => ⟨rfl, rfl⟩
theorem ctrlImageLoad a0 a1 a2 : Statement (.ctrlImageLoad a0 a1 a2) := fun _ => ⟨rfl, rfl⟩
theorem ctrlOnlineChange a0 a1 a2 : Statement (.ctrlOnlineChange a0 a1 a2) := fun _ => ⟨rfl, rfl⟩
theorem ctrlColdStart a0 a1 a2 : Statement (.ctrlColdStart a0 a1 a2) := fun _ => ⟨rfl, rfl⟩
theorem ctrlForceSet a0 a1 a2 : Statement (.ctrlForceSet a0 a1 a2) := fun _ => ⟨rfl, rfl⟩
theorem ctrlForceClear a0 a1 a2 : Statement (.ctrlForceClear a0 a1 a2) := fun _ => ⟨rfl, rfl⟩
theorem ctrlForceList a0 a1 a2 : Statement (.ctrlForceList a0 a1 a2) := fun _ => ⟨rfl, rfl⟩
theorem ctrlTaskControl a0 a1 a2 : Statement (.ctrlTaskControl a0 a1 a2) := fun _ => ⟨rfl, rfl⟩
theorem ctrlTaskStatus a0 a1 a2 : Statement (.ctrlTaskStatus a0 a1 a2) := fun _ => ⟨rfl, rfl⟩
theorem melCalWindow a0 a1 a2 : Statement (.melCalWindow a0 a1 a2) := fun _ => ⟨rfl, rfl⟩
theorem billRead a0 a1 a2 : Statement (.billRead a0 a1 a2) := fun _ => ⟨rfl, rfl⟩
theorem vaxMove a0 a1 a2 : Statement (.vaxMove a0 a1 a2) := fun _ => ⟨rfl, rfl⟩
theorem vaxHome a0 a1 a2 : Statement (.vaxHome a0 a1 a2) := fun _ => ⟨rfl, rfl⟩
theorem vaxStatus a0 a1 a2 : Statement (.vaxStatus a0 a1 a2) := fun _ => ⟨rfl, rfl⟩
theorem timeSet a0 a1 a2 : Statement (.timeSet a0 a1 a2) := fun _ => ⟨rfl, rfl⟩
theorem timeTriggerSet a0 a1 a2 : Statement (.timeTriggerSet a0 a1 a2) := fun _ => ⟨rfl, rfl⟩
theorem timeCaptureGet a0 a1 a2 : Statement (.timeCaptureGet a0 a1 a2) := fun _ => ⟨rfl, rfl⟩
theorem rtcSet a0 a1 a2 : Statement (.rtcSet a0 a1 a2) := fun _ => ⟨rfl, rfl⟩
theorem rtcDstAdjust a0 a1 a2 : Statement (.rtcDstAdjust a0 a1 a2) := fun _ => ⟨rfl, rfl⟩
theorem rtcAlarmSet a0 a1 a2 : Statement (.rtcAlarmSet a0 a1 a2) := fun _ => ⟨rfl, rfl⟩
theorem epdDraw a0 a1 a2 : Statement (.epdDraw a0 a1 a2) := fun _ => ⟨rfl, rfl⟩
theorem evrRead a0 a1 a2 : Statement (.evrRead a0 a1 a2) := fun _ => ⟨rfl, rfl⟩
theorem evrClear a0 a1 a2 : Statement (.evrClear a0 a1 a2) := fun _ => ⟨rfl, rfl⟩
theorem secAttest a0 a1 a2 : Statement (.secAttest a0 a1 a2) := fun _ => ⟨rfl, rfl⟩
theorem secLifecycleAdvance a0 a1 a2 : Statement (.secLifecycleAdvance a0 a1 a2) := fun _ => ⟨rfl, rfl⟩
theorem secIdentityCert a0 a1 a2 : Statement (.secIdentityCert a0 a1 a2) := fun _ => ⟨rfl, rfl⟩
theorem secImageStage a0 a1 a2 : Statement (.secImageStage a0 a1 a2) := fun _ => ⟨rfl, rfl⟩
theorem secImageActivate a0 a1 a2 : Statement (.secImageActivate a0 a1 a2) := fun _ => ⟨rfl, rfl⟩
theorem secKeyInstall a0 a1 a2 : Statement (.secKeyInstall a0 a1 a2) := fun _ => ⟨rfl, rfl⟩
theorem secKeyImport a0 a1 a2 : Statement (.secKeyImport a0 a1 a2) := fun _ => ⟨rfl, rfl⟩
theorem secKeyGenerate a0 a1 a2 : Statement (.secKeyGenerate a0 a1 a2) := fun _ => ⟨rfl, rfl⟩
theorem secKeySign a0 a1 a2 : Statement (.secKeySign a0 a1 a2) := fun _ => ⟨rfl, rfl⟩
theorem secKeyDelete a0 a1 a2 : Statement (.secKeyDelete a0 a1 a2) := fun _ => ⟨rfl, rfl⟩
theorem secTamperRelease a0 a1 a2 : Statement (.secTamperRelease a0 a1 a2) := fun _ => ⟨rfl, rfl⟩
theorem intgFaultRead a0 a1 a2 : Statement (.intgFaultRead a0 a1 a2) := fun _ => ⟨rfl, rfl⟩
theorem writePacket a0 a1 : Statement (.writePacket a0 a1) := fun _ => ⟨rfl, rfl⟩
theorem readReply a0 a1 : Statement (.readReply a0 a1) := fun _ => ⟨rfl, rfl⟩
theorem udpDatagram a0 a1 : Statement (.udpDatagram a0 a1) := fun _ => ⟨rfl, rfl⟩
theorem uartFrame a0 a1 : Statement (.uartFrame a0 a1) := fun _ => ⟨rfl, rfl⟩
theorem fragmentDiscard a0 a1 a2 : Statement (.fragmentDiscard a0 a1 a2) := fun _ => ⟨rfl, rfl⟩
theorem irqHoldoffEnd a0 : Statement (.irqHoldoffEnd a0) := fun _ => ⟨rfl, rfl⟩
theorem sessionIdleExpiry a0 a1 : Statement (.sessionIdleExpiry a0 a1) := fun _ => ⟨rfl, rfl⟩
theorem loggedCommandEffect a0 : Statement (.loggedCommandEffect a0) := fun _ => ⟨rfl, rfl⟩
theorem mainReset a0 a1 : Statement (.mainReset a0 a1) := fun _ => ⟨rfl, rfl⟩
theorem resetN a0 : Statement (.resetN a0) := fun _ => ⟨rfl, rfl⟩
theorem resetNRelease a0 a1 : Statement (.resetNRelease a0 a1) := fun _ => ⟨rfl, rfl⟩
theorem alwaysOnReset a0 : Statement (.alwaysOnReset a0) := fun _ => ⟨rfl, rfl⟩
theorem backupExit a0 a1 : Statement (.backupExit a0 a1) := fun _ => ⟨rfl, rfl⟩
theorem bootEnd a0 a1 : Statement (.bootEnd a0 a1) := fun _ => ⟨rfl, rfl⟩
theorem pfwAsserted a0 : Statement (.pfwAsserted a0) := fun _ => ⟨rfl, rfl⟩
theorem undervoltage a0 a1 : Statement (.undervoltage a0 a1) := fun _ => ⟨rfl, rfl⟩
theorem mramWritePathClose a0 : Statement (.mramWritePathClose a0) := fun _ => ⟨rfl, rfl⟩
theorem holdupEnd a0 : Statement (.holdupEnd a0) := fun _ => ⟨rfl, rfl⟩
theorem pllLockLoss a0 a1 : Statement (.pllLockLoss a0 a1) := fun _ => ⟨rfl, rfl⟩
theorem pllLockTimeout a0 a1 : Statement (.pllLockTimeout a0 a1) := fun _ => ⟨rfl, rfl⟩
theorem flightWake a0 : Statement (.flightWake a0) := fun _ => ⟨rfl, rfl⟩
theorem flightWakeEnd a0 a1 : Statement (.flightWakeEnd a0 a1) := fun _ => ⟨rfl, rfl⟩
theorem supplyMeasurement a0 a1 a2 a3 a4 a5 : Statement (.supplyMeasurement a0 a1 a2 a3 a4 a5) := fun _ => ⟨rfl, rfl⟩
theorem cut a0 : Statement (.cut a0) := fun _ => ⟨rfl, rfl⟩
theorem cutVectorSeal a0 : Statement (.cutVectorSeal a0) := fun _ => ⟨rfl, rfl⟩
theorem coreStall a0 : Statement (.coreStall a0) := fun _ => ⟨rfl, rfl⟩
theorem optimisationWaitExpiry a0 : Statement (.optimisationWaitExpiry a0) := fun _ => ⟨rfl, rfl⟩
theorem modelBuildComplete a0 : Statement (.modelBuildComplete a0) := fun _ => ⟨rfl, rfl⟩
theorem modelFlashWrite a0 : Statement (.modelFlashWrite a0) := fun _ => ⟨rfl, rfl⟩
theorem jobStart a0 a1 : Statement (.jobStart a0 a1) := fun _ => ⟨rfl, rfl⟩
theorem jobCompletion a0 a1 a2 : Statement (.jobCompletion a0 a1 a2) := fun _ => ⟨rfl, rfl⟩
theorem jobDeadlineMiss a0 a1 a2 : Statement (.jobDeadlineMiss a0 a1 a2) := fun _ => ⟨rfl, rfl⟩
theorem galleryTimeout a0 a1 a2 a3 a4 : Statement (.galleryTimeout a0 a1 a2 a3 a4) := fun _ => ⟨rfl, rfl⟩
theorem galleryPromotion a0 : Statement (.galleryPromotion a0) := fun _ => ⟨rfl, rfl⟩
theorem balustradeWrite a0 : Statement (.balustradeWrite a0) := fun _ => ⟨rfl, rfl⟩
theorem reportArrival a0 a1 a2 a3 : Statement (.reportArrival a0 a1 a2 a3) := fun _ => ⟨rfl, rfl⟩
theorem reportClassification a0 : Statement (.reportClassification a0) := fun _ => ⟨rfl, rfl⟩
theorem setpointConfirm a0 a1 a2 a3 : Statement (.setpointConfirm a0 a1 a2 a3) := fun _ => ⟨rfl, rfl⟩
theorem setpointIssue a0 : Statement (.setpointIssue a0) := fun _ => ⟨rfl, rfl⟩
theorem confirmTimeoutExpiry a0 a1 : Statement (.confirmTimeoutExpiry a0 a1) := fun _ => ⟨rfl, rfl⟩
theorem downlinkStateSave a0 : Statement (.downlinkStateSave a0) := fun _ => ⟨rfl, rfl⟩
theorem taskRelease a0 a1 a2 : Statement (.taskRelease a0 a1 a2) := fun _ => ⟨rfl, rfl⟩
theorem outputApply a0 : Statement (.outputApply a0) := fun _ => ⟨rfl, rfl⟩
theorem lockstepMismatch a0 a1 a2 : Statement (.lockstepMismatch a0 a1 a2) := fun _ => ⟨rfl, rfl⟩
theorem alu a0 a1 a2 a3 a4 a5 : Statement (.alu a0 a1 a2 a3 a4 a5) := fun _ => ⟨rfl, rfl⟩
theorem fpu a0 a1 a2 a3 a4 a5 : Statement (.fpu a0 a1 a2 a3 a4 a5) := fun _ => ⟨rfl, rfl⟩
theorem addi a0 a1 a2 a3 a4 : Statement (.addi a0 a1 a2 a3 a4) := fun _ => ⟨rfl, rfl⟩
theorem andiOriXori a0 a1 a2 a3 a4 a5 : Statement (.andiOriXori a0 a1 a2 a3 a4 a5) := fun _ => ⟨rfl, rfl⟩
theorem lui a0 a1 a2 a3 a4 : Statement (.lui a0 a1 a2 a3 a4) := fun _ => ⟨rfl, rfl⟩
theorem loadInstruction a0 a1 a2 a3 a4 a5 a6 : Statement (.loadInstruction a0 a1 a2 a3 a4 a5 a6) := fun _ => ⟨rfl, rfl⟩
theorem storeInstruction a0 a1 a2 a3 a4 a5 : Statement (.storeInstruction a0 a1 a2 a3 a4 a5) := fun _ => ⟨rfl, rfl⟩
theorem branchInstruction a0 a1 a2 a3 a4 a5 : Statement (.branchInstruction a0 a1 a2 a3 a4 a5) := fun _ => ⟨rfl, rfl⟩
theorem jmp a0 a1 a2 : Statement (.jmp a0 a1 a2) := fun _ => ⟨rfl, rfl⟩
theorem call a0 a1 a2 : Statement (.call a0 a1 a2) := fun _ => ⟨rfl, rfl⟩
theorem callb a0 a1 a2 a3 a4 : Statement (.callb a0 a1 a2 a3 a4) := fun _ => ⟨rfl, rfl⟩
theorem ret a0 a1 a2 a3 a4 a5 : Statement (.ret a0 a1 a2 a3 a4 a5) := fun _ => ⟨rfl, rfl⟩
theorem sys a0 a1 a2 a3 a4 a5 : Statement (.sys a0 a1 a2 a3 a4 a5) := fun _ => ⟨rfl, rfl⟩
theorem jr a0 a1 a2 a3 a4 a5 : Statement (.jr a0 a1 a2 a3 a4 a5) := fun _ => ⟨rfl, rfl⟩
theorem endRun a0 a1 a2 a3 a4 a5 : Statement (.endRun a0 a1 a2 a3 a4 a5) := fun _ => ⟨rfl, rfl⟩
theorem trap a0 a1 a2 : Statement (.trap a0 a1 a2) := fun _ => ⟨rfl, rfl⟩
theorem onlineChangePrepared a0 : Statement (.onlineChangePrepared a0) := fun _ => ⟨rfl, rfl⟩
theorem changeTick a0 : Statement (.changeTick a0) := fun _ => ⟨rfl, rfl⟩
theorem exchange a0 : Statement (.exchange a0) := fun _ => ⟨rfl, rfl⟩
theorem latchTick a0 : Statement (.latchTick a0) := fun _ => ⟨rfl, rfl⟩
theorem changeDrainTimeout a0 : Statement (.changeDrainTimeout a0) := fun _ => ⟨rfl, rfl⟩
theorem frameEnd a0 a1 : Statement (.frameEnd a0 a1) := fun _ => ⟨rfl, rfl⟩
theorem flowPulse a0 a1 a2 : Statement (.flowPulse a0 a1 a2) := fun _ => ⟨rfl, rfl⟩
theorem intervalBoundary a0 : Statement (.intervalBoundary a0) := fun _ => ⟨rfl, rfl⟩
theorem lineCycleClose a0 a1 a2 a3 : Statement (.lineCycleClose a0 a1 a2 a3) := fun _ => ⟨rfl, rfl⟩
theorem electricalPagePublish a0 : Statement (.electricalPagePublish a0) := fun _ => ⟨rfl, rfl⟩
theorem calWindowEnd a0 a1 : Statement (.calWindowEnd a0 a1) := fun _ => ⟨rfl, rfl⟩
theorem registerSave a0 : Statement (.registerSave a0) := fun _ => ⟨rfl, rfl⟩
theorem saveReadback a0 a1 : Statement (.saveReadback a0 a1) := fun _ => ⟨rfl, rfl⟩
theorem analogConversion a0 a1 a2 : Statement (.analogConversion a0 a1 a2) := fun _ => ⟨rfl, rfl⟩
theorem digitalInputEdge a0 a1 a2 : Statement (.digitalInputEdge a0 a1 a2) := fun _ => ⟨rfl, rfl⟩
theorem padFault a0 a1 a2 : Statement (.padFault a0 a1 a2) := fun _ => ⟨rfl, rfl⟩
theorem feedbackFault a0 a1 : Statement (.feedbackFault a0 a1) := fun _ => ⟨rfl, rfl⟩
theorem profilePeriod a0 a1 a2 : Statement (.profilePeriod a0 a1 a2) := fun _ => ⟨rfl, rfl⟩
theorem stall a0 a1 a2 : Statement (.stall a0 a1 a2) := fun _ => ⟨rfl, rfl⟩
theorem driveFault a0 a1 a2 : Statement (.driveFault a0 a1 a2) := fun _ => ⟨rfl, rfl⟩
theorem standstillDelayExpiry a0 a1 : Statement (.standstillDelayExpiry a0 a1) := fun _ => ⟨rfl, rfl⟩
theorem ethernetFrame a0 a1 : Statement (.ethernetFrame a0 a1) := fun _ => ⟨rfl, rfl⟩
theorem phySpeedPoll a0 a1 a2 a3 a4 : Statement (.phySpeedPoll a0 a1 a2 a3 a4) := fun _ => ⟨rfl, rfl⟩
theorem addressAgeOut a0 a1 a2 : Statement (.addressAgeOut a0 a1 a2) := fun _ => ⟨rfl, rfl⟩
theorem sync a0 a1 a2 a3 a4 a5 : Statement (.sync a0 a1 a2 a3 a4 a5) := fun _ => ⟨rfl, rfl⟩
theorem announce a0 a1 a2 : Statement (.announce a0 a1 a2) := fun _ => ⟨rfl, rfl⟩
theorem pdelayReq a0 a1 a2 : Statement (.pdelayReq a0 a1 a2) := fun _ => ⟨rfl, rfl⟩
theorem pdelayReqSend a0 : Statement (.pdelayReqSend a0) := fun _ => ⟨rfl, rfl⟩
theorem syncAnnounceSend a0 a1 : Statement (.syncAnnounceSend a0 a1) := fun _ => ⟨rfl, rfl⟩
theorem syncTimeout a0 a1 : Statement (.syncTimeout a0 a1) := fun _ => ⟨rfl, rfl⟩
theorem holdoverTimeout a0 : Statement (.holdoverTimeout a0) := fun _ => ⟨rfl, rfl⟩
theorem ppsEdge a0 a1 : Statement (.ppsEdge a0 a1) := fun _ => ⟨rfl, rfl⟩
theorem rtcReferenceWindow a0 a1 : Statement (.rtcReferenceWindow a0 a1) := fun _ => ⟨rfl, rfl⟩
theorem leapSecond a0 : Statement (.leapSecond a0) := fun _ => ⟨rfl, rfl⟩
theorem triggerPulseStart a0 a1 : Statement (.triggerPulseStart a0 a1) := fun _ => ⟨rfl, rfl⟩
theorem triggerPulseEnd a0 a1 : Statement (.triggerPulseEnd a0 a1) := fun _ => ⟨rfl, rfl⟩
theorem captureEdge a0 a1 a2 : Statement (.captureEdge a0 a1 a2) := fun _ => ⟨rfl, rfl⟩
theorem capturePagePublish a0 : Statement (.capturePagePublish a0) := fun _ => ⟨rfl, rfl⟩
theorem secondBoundary a0 : Statement (.secondBoundary a0) := fun _ => ⟨rfl, rfl⟩
theorem rtcTemperatureSample a0 a1 : Statement (.rtcTemperatureSample a0 a1) := fun _ => ⟨rfl, rfl⟩
theorem rtcLearningWindow a0 a1 a2 a3 : Statement (.rtcLearningWindow a0 a1 a2 a3) := fun _ => ⟨rfl, rfl⟩
theorem learnedTableSave a0 : Statement (.learnedTableSave a0) := fun _ => ⟨rfl, rfl⟩
theorem updateStart a0 : Statement (.updateStart a0) := fun _ => ⟨rfl, rfl⟩
theorem displayPhase a0 : Statement (.displayPhase a0) := fun _ => ⟨rfl, rfl⟩
theorem epdPower a0 : Statement (.epdPower a0) := fun _ => ⟨rfl, rfl⟩
theorem epdPowerGood a0 : Statement (.epdPowerGood a0) := fun _ => ⟨rfl, rfl⟩
theorem epdPowerOff a0 : Statement (.epdPowerOff a0) := fun _ => ⟨rfl, rfl⟩
theorem panelTemperatureSample a0 a1 : Statement (.panelTemperatureSample a0 a1) := fun _ => ⟨rfl, rfl⟩
theorem displayScan a0 a1 : Statement (.displayScan a0 a1) := fun _ => ⟨rfl, rfl⟩
theorem stripRefresh a0 : Statement (.stripRefresh a0) := fun _ => ⟨rfl, rfl⟩
theorem stagingDrain a0 : Statement (.stagingDrain a0) := fun _ => ⟨rfl, rfl⟩
theorem evrWindowEnd a0 : Statement (.evrWindowEnd a0) := fun _ => ⟨rfl, rfl⟩
theorem counterCopy a0 : Statement (.counterCopy a0) := fun _ => ⟨rfl, rfl⟩
theorem recordSample a0 : Statement (.recordSample a0) := fun _ => ⟨rfl, rfl⟩
theorem periodClose a0 : Statement (.periodClose a0) := fun _ => ⟨rfl, rfl⟩
theorem remask a0 : Statement (.remask a0) := fun _ => ⟨rfl, rfl⟩
theorem imageSwitch a0 a1 a2 a3 : Statement (.imageSwitch a0 a1 a2 a3) := fun _ => ⟨rfl, rfl⟩
theorem tamper a0 a1 : Statement (.tamper a0 a1) := fun _ => ⟨rfl, rfl⟩
theorem trngHealthFailure a0 : Statement (.trngHealthFailure a0) := fun _ => ⟨rfl, rfl⟩
theorem scrubPass a0 a1 : Statement (.scrubPass a0 a1) := fun _ => ⟨rfl, rfl⟩
theorem watchdogExpiry a0 a1 : Statement (.watchdogExpiry a0 a1) := fun _ => ⟨rfl, rfl⟩
theorem snapshotTick a0 : Statement (.snapshotTick a0) := fun _ => ⟨rfl, rfl⟩
theorem takeover a0 : Statement (.takeover a0) := fun _ => ⟨rfl, rfl⟩
theorem pairListenEnd a0 : Statement (.pairListenEnd a0) := fun _ => ⟨rfl, rfl⟩
theorem heartbeat a0 a1 a2 a3 : Statement (.heartbeat a0 a1 a2 a3) := fun _ => ⟨rfl, rfl⟩
theorem cutSegment a0 a1 a2 a3 a4 : Statement (.cutSegment a0 a1 a2 a3 a4) := fun _ => ⟨rfl, rfl⟩
theorem imageSegment a0 a1 a2 a3 a4 : Statement (.imageSegment a0 a1 a2 a3 a4) := fun _ => ⟨rfl, rfl⟩
theorem commandLog a0 a1 a2 a3 a4 : Statement (.commandLog a0 a1 a2 a3 a4) := fun _ => ⟨rfl, rfl⟩
theorem digest a0 a1 a2 a3 a4 : Statement (.digest a0 a1 a2 a3 a4) := fun _ => ⟨rfl, rfl⟩
theorem resyncRequest a0 a1 : Statement (.resyncRequest a0 a1) := fun _ => ⟨rfl, rfl⟩
theorem stateSegment a0 a1 a2 : Statement (.stateSegment a0 a1 a2) := fun _ => ⟨rfl, rfl⟩
theorem shadowStatus a0 a1 a2 : Statement (.shadowStatus a0 a1 a2) := fun _ => ⟨rfl, rfl⟩
theorem shadowStatusSend a0 : Statement (.shadowStatusSend a0) := fun _ => ⟨rfl, rfl⟩
theorem hostInterfaceStart a0 : Statement (.hostInterfaceStart a0) := fun _ => ⟨rfl, rfl⟩
theorem modeTransitionEnd a0 : Statement (.modeTransitionEnd a0) := fun _ => ⟨rfl, rfl⟩
theorem modelValidationComplete a0 : Statement (.modelValidationComplete a0) := fun _ => ⟨rfl, rfl⟩
theorem blockImageValidationComplete a0 : Statement (.blockImageValidationComplete a0) := fun _ => ⟨rfl, rfl⟩
theorem imageVerificationComplete a0 a1 a2 a3 : Statement (.imageVerificationComplete a0 a1 a2 a3) := fun _ => ⟨rfl, rfl⟩
theorem blockImageFlashWrite a0 : Statement (.blockImageFlashWrite a0) := fun _ => ⟨rfl, rfl⟩
theorem pllLockRegained a0 a1 : Statement (.pllLockRegained a0 a1) := fun _ => ⟨rfl, rfl⟩
theorem snapInEdge a0 a1 : Statement (.snapInEdge a0 a1) := fun _ => ⟨rfl, rfl⟩
theorem electricalRawSample a0 a1 a2 : Statement (.electricalRawSample a0 a1 a2) := fun _ => ⟨rfl, rfl⟩
theorem flowEdgeRejected a0 a1 : Statement (.flowEdgeRejected a0 a1) := fun _ => ⟨rfl, rfl⟩
theorem pwmPeriodBoundary a0 a1 : Statement (.pwmPeriodBoundary a0 a1) := fun _ => ⟨rfl, rfl⟩
theorem abandonedReadResponse a0 : Statement (.abandonedReadResponse a0) := fun _ => ⟨rfl, rfl⟩
theorem followUp a0 a1 a2 a3 a4 : Statement (.followUp a0 a1 a2 a3 a4) := fun _ => ⟨rfl, rfl⟩
theorem delayReqSend a0 : Statement (.delayReqSend a0) := fun _ => ⟨rfl, rfl⟩
theorem delayResp a0 a1 a2 a3 a4 : Statement (.delayResp a0 a1 a2 a3 a4) := fun _ => ⟨rfl, rfl⟩
theorem pdelayResp a0 a1 a2 a3 : Statement (.pdelayResp a0 a1 a2 a3) := fun _ => ⟨rfl, rfl⟩
theorem meshComparison a0 a1 a2 : Statement (.meshComparison a0 a1 a2) := fun _ => ⟨rfl, rfl⟩
theorem uartTransmitComplete a0 : Statement (.uartTransmitComplete a0) := fun _ => ⟨rfl, rfl⟩

end Sys2Proof.Laws.Timing
end

