-- ==== Sys2Proof/Machine/Blocks.lean ====
section
/-! DEFINITION. The standard block library: what one execution of an instance of each type does to its fields (R268 to R273, R279
to R289). The code of a type is part of the block image, and an engine runs it instruction by instruction; these definitions say what
that code computes. Values of type REAL64 are binary64 bits. -/

namespace Sys2Proof.Machine

/-! ### Types and instances (R268, R269) -/

/-- *Standard types*. -/
inductive StdType where
  | ton
  | tof
  | tp
  | ctu
  | ctd
  | ctud
  | rTrig
  | fTrig
  | pid
  | ramp
  | hyst
  | scale
  | pump
  | pumpSeq
  | axis
  | optInput
  deriving DecidableEq, Repr

/-- TYPE_ID of a standard type. -/
def StdType.id : StdType → Nat
  | .ton => 0x0001
  | .tof => 0x0002
  | .tp => 0x0003
  | .ctu => 0x0004
  | .ctd => 0x0005
  | .ctud => 0x0006
  | .rTrig => 0x0007
  | .fTrig => 0x0008
  | .pid => 0x0010
  | .ramp => 0x0011
  | .hyst => 0x0012
  | .scale => 0x0013
  | .pump => 0x0020
  | .pumpSeq => 0x0021
  | .axis => 0x0030
  | .optInput => 0x0040

/-- SIZE of an instance, of the types whose layout the manual gives. -/
def StdType.size : StdType → Option Nat
  | .ton | .tof | .tp => some 64
  | .ctu | .ctd | .ctud => some 40
  | .rTrig | .fTrig => some 24
  | .pid => some 144
  | .ramp | .hyst | .scale | .pump | .pumpSeq | .axis | .optInput => none

/-- *Instance header*. -/
structure InstHeader where
  id : Nat
  typeId : Nat
  typeRev : Nat
  reinit : Bool
  started : Bool
  dataSize : Nat
  deriving DecidableEq, Repr

/-- The header of an instance's bytes. -/
def InstHeader.read (b : Bytes) : InstHeader :=
  { id := fld b 0 4, typeId := fld b 4 2, typeRev := fld b 6 2, reinit := bit (fld b 8 2) 1, started := bit (fld b 8 2) 0,
    dataSize := fld b 12 4 }

/-- The bytes of an instance with STARTED set in its header: what an execution leaves there. -/
def startedHeader (b : Bytes) : Bytes := b.take 8 ++ le 2 (fld b 8 2 / 2 * 2 + 1) ++ slice b 10 6

/-- What a block sees of time: the release time, DT_US, the cycle of the task, TIME_STEPPED, COMPAT and FIRST_SCAN (R279). -/
structure Scan where
  t : Int
  dtUs : Int
  cycleUs : Int
  stepped : Bool
  compat : Bool
  firstScan : Bool
  deriving DecidableEq, Repr

/-! ### Timers (R280 to R285) -/

/-- *Timer instance*, with STARTED of its header. `base` is START in native mode and COUNT in compatibility mode. -/
structure Timer where
  started : Bool
  input : Bool
  q : Bool
  chain : Bool
  running : Bool
  expiredValid : Bool
  compatLast : Bool
  pt : Int
  et : Int
  base : Int
  last : Int
  expiredAt : Int
  deriving DecidableEq, Repr

/-- The fields of *Timer instance* read from its 64 bytes. -/
def Timer.read (b : Bytes) : Timer :=
  let fl := fld b 19 1
  { started := (InstHeader.read b).started, input := fld b 16 1 != 0, q := fld b 17 1 != 0, chain := fld b 18 1 != 0, running := bit fl 0,
    expiredValid := bit fl 1, compatLast := bit fl 2, pt := sgn 64 (fld b 24 8), et := sgn 64 (fld b 32 8), base := sgn 64 (fld b 40 8),
    last := sgn 64 (fld b 48 8), expiredAt := sgn 64 (fld b 56 8) }

/-- The bytes of a timer that has executed, over those it had: inputs and header are kept but for STARTED. -/
def Timer.bytes (b : Bytes) (x : Timer) : Bytes :=
  startedHeader b ++ slice b 16 1 ++ le 1 (b2n x.q) ++ slice b 18 1 ++ le 1 (4 * b2n x.compatLast + 2 * b2n x.expiredValid + b2n x.running) ++
    slice b 20 12 ++ le 8 (unsgn 64 x.et) ++ le 8 (unsgn 64 x.base) ++ le 8 (unsgn 64 x.last) ++ le 8 (unsgn 64 x.expiredAt)

/-- A timer of the INIT section: every byte after the header is 0 (R281). -/
def Timer.init : Timer :=
  { started := false, input := false, q := false, chain := false, running := false, expiredValid := false, compatLast := false,
    pt := 0, et := 0, base := 0, last := 0, expiredAt := 0 }

/-- PT below 0 is taken as 0 (R281). -/
def Timer.preset (x : Timer) : Int := max 0 x.pt

/-- The conversion of a running timer whose mode has changed (R285). -/
def Timer.convert (c : Scan) (x : Timer) : Timer :=
  if !x.running || x.compatLast == c.compat then x
  else if c.compat then { x with base := x.et / c.cycleUs }
  else { x with base := c.t - x.base * c.cycleUs, expiredValid := false }

/-- A step of the time scale moves the stored instants of a native timer that has executed before (R280). -/
def Timer.shift (c : Scan) (x : Timer) : Timer :=
  if x.started && c.stepped && !c.compat then
    let d := (c.t - x.last) - c.dtUs
    { x with base := x.base + d, expiredAt := x.expiredAt + d }
  else x

/-- Timing begins: at an instant in native mode, at count 0 in compatibility mode (R282, R284). -/
def Timer.begin_ (c : Scan) (at_ : Int) (x : Timer) : Timer := { x with running := true, base := if c.compat then 0 else at_ }

/-- A further execution while timing counts in compatibility mode (R284). -/
def Timer.count (c : Scan) (x : Timer) : Timer := if c.compat && x.running then { x with base := x.base + 1 } else x

/-- The time since timing began (R282, R284). -/
def Timer.elapsed (c : Scan) (x : Timer) : Int := if c.compat then x.base * c.cycleUs else c.t - x.base

/-- What every execution does first and last. -/
def Timer.execute (f : Timer → Timer) (c : Scan) (x : Timer) : Timer :=
  { f (Timer.count c (Timer.shift c (Timer.convert c x))) with last := c.t, started := true, compatLast := c.compat }

/-- A native expiry is kept: EXPIRED_AT is START + PT (R281, R282). -/
def Timer.expire (c : Scan) (x : Timer) : Timer :=
  if c.compat then x else { x with expiredAt := x.base + x.preset, expiredValid := true }

/-- Q falls at the first execution with PT elapsed (R283). -/
def Timer.fall (c : Scan) (x : Timer) : Timer :=
  let e := Timer.elapsed c x
  let y := { x with et := min e x.preset }
  if x.q && decide (x.preset ≤ e) then Timer.expire c { y with q := false } else y

/-- TON (R282, R284). -/
def tonBlock (c : Scan) (x : Timer) : Timer :=
  Timer.execute (fun x =>
    if !x.input then { x with running := false, q := false, et := 0 }
    else
      let chained := x.chain && x.expiredValid && !c.compat && decide (c.t - x.expiredAt < x.preset)
      let x := if x.running then x else Timer.begin_ c (if chained then x.expiredAt else c.t) x
      let e := Timer.elapsed c x
      let x := { x with et := min e x.preset }
      if x.preset ≤ e && !x.q then Timer.expire c { x with q := true } else x) c x

/-- TOF (R283, R284). -/
def tofBlock (c : Scan) (x : Timer) : Timer :=
  Timer.execute (fun x =>
    if x.input then { x with q := true, et := 0, running := false }
    else
      let x := if x.running || !x.q then x else Timer.begin_ c c.t x
      if !x.running then x else Timer.fall c x) c x

/-- TP (R283, R284). -/
def tpBlock (c : Scan) (x : Timer) : Timer :=
  Timer.execute (fun x =>
    if x.running && !x.q && !x.input then { x with running := false, et := 0 }
    else
      let x := if x.input && !x.running then { Timer.begin_ c c.t x with q := true } else x
      if !x.running then x else Timer.fall c x) c x

/-! ### Counters and edges (R286 to R289) -/

/-- *Counter instance*, with STARTED of its header. -/
structure Counter where
  started : Bool
  cu : Bool
  cd : Bool
  reset : Bool
  load : Bool
  qu : Bool
  qd : Bool
  cuPrev : Bool
  cdPrev : Bool
  pv : Int
  cv : Int
  deriving DecidableEq, Repr

/-- The fields of *Counter instance* read from its 40 bytes. -/
def Counter.read (b : Bytes) : Counter :=
  { started := (InstHeader.read b).started, cu := fld b 16 1 != 0, cd := fld b 17 1 != 0, reset := fld b 18 1 != 0, load := fld b 19 1 != 0,
    qu := fld b 20 1 != 0, qd := fld b 21 1 != 0, cuPrev := fld b 22 1 != 0, cdPrev := fld b 23 1 != 0, pv := sgn 32 (fld b 24 4),
    cv := sgn 32 (fld b 28 4) }

/-- The bytes of a counter that has executed, over those it had. -/
def Counter.bytes (b : Bytes) (x : Counter) : Bytes :=
  startedHeader b ++ slice b 16 4 ++ le 1 (b2n x.qu) ++ le 1 (b2n x.qd) ++ le 1 (b2n x.cuPrev) ++ le 1 (b2n x.cdPrev) ++ slice b 24 4 ++
    le 4 (unsgn 32 x.cv) ++ slice b 32 8

/-- A count held within INT32 (R286). -/
def countSat (v : Int) : Int := max (-2147483648) (min 2147483647 v)

/-- A new instance outside the first scan sees no edge at its first execution (R288). -/
def quietFirst (c : Scan) (started : Bool) (mem input : Bool) : Bool := if !started && !c.firstScan then input else mem

/-- One execution of CTU, CTD or CTUD (R286, R288). CTU uses CU and RESET, CTD uses CD and LOAD. -/
def counterBlock (up down : Bool) (c : Scan) (x : Counter) : Counter :=
  let cu := x.cu && up
  let cd := x.cd && down
  let up1 := if cu && !quietFirst c x.started x.cuPrev cu then 1 else 0
  let down1 := if cd && !quietFirst c x.started x.cdPrev cd then 1 else 0
  let cv :=
    if x.reset && up then 0
    else if x.load && down then x.pv
    else countSat (x.cv + up1 - down1)
  { x with
    cv := cv, cuPrev := cu, cdPrev := cd, started := true, qu := decide (x.pv ≤ cv), qd := decide (cv ≤ 0) }

/-- *Edge instance*, with STARTED of its header. -/
structure Edge where
  started : Bool
  clk : Bool
  q : Bool
  m : Bool
  deriving DecidableEq, Repr

/-- The fields of *Edge instance* read from its 24 bytes. -/
def Edge.read (b : Bytes) : Edge :=
  { started := (InstHeader.read b).started, clk := fld b 16 1 != 0, q := fld b 17 1 != 0, m := fld b 18 1 != 0 }

/-- The bytes of an edge detector that has executed, over those it had. -/
def Edge.bytes (b : Bytes) (x : Edge) : Bytes :=
  startedHeader b ++ slice b 16 1 ++ le 1 (b2n x.q) ++ le 1 (b2n x.m) ++ slice b 19 5

/-- R_TRIG (R287, R288). -/
def rTrigBlock (c : Scan) (x : Edge) : Edge :=
  { x with q := x.clk && !quietFirst c x.started x.m x.clk, m := x.clk, started := true }

/-- F_TRIG (R287, R288). -/
def fTrigBlock (c : Scan) (x : Edge) : Edge :=
  { x with q := quietFirst c x.started x.m x.clk && !x.clk, m := x.clk, started := true }

/-! ### Controllers (R269, R270) -/

/-- Bounds of R270, R269: the lower one wins where a value lies below it. -/
def clamp64 (v lo hi : Nat) : Nat := if flt f64 v lo then lo else if flt f64 hi v then hi else v

/-- DT_US or CYCLE_US in seconds: dt · 1.0e-6 in binary64 (R270). -/
def blockSeconds (us : Int) : Nat := fmul f64 (Fp.ofInt f64 us) (Fp.ofRatio f64 1 1000000)

/-- *PID instance*, with STARTED of its header. -/
structure Pid where
  started : Bool
  pv : Nat
  sp : Nat
  ff : Nat
  kp : Nat
  ti : Nat
  td : Nat
  tf : Nat
  outMin : Nat
  outMax : Nat
  manual : Nat
  mode : Bool
  action : Bool
  out : Nat
  iTerm : Nat
  dState : Nat
  pvPrev : Nat
  sat : Bool
  deriving DecidableEq, Repr

/-- The fields of *PID instance* read from its 144 bytes. -/
def Pid.read (b : Bytes) : Pid :=
  { started := (InstHeader.read b).started, pv := fld b 16 8, sp := fld b 24 8, ff := fld b 32 8, kp := fld b 40 8, ti := fld b 48 8,
    td := fld b 56 8, tf := fld b 64 8, outMin := fld b 72 8, outMax := fld b 80 8, manual := fld b 88 8, mode := fld b 96 1 != 0,
    action := fld b 97 1 != 0, out := fld b 104 8, iTerm := fld b 112 8, dState := fld b 120 8, pvPrev := fld b 128 8,
    sat := fld b 136 1 != 0 }

/-- The bytes of a PID instance that has executed, over those it had. -/
def Pid.bytes (b : Bytes) (x : Pid) : Bytes :=
  startedHeader b ++ slice b 16 88 ++ le 8 x.out ++ le 8 x.iTerm ++ le 8 x.dState ++ le 8 x.pvPrev ++ le 1 (b2n x.sat) ++ slice b 137 7

/-- One execution of a PID instance, as R270 writes it. -/
def pidBlock (c : Scan) (x : Pid) : Pid :=
  let dt := if x.started then blockSeconds (if c.compat then c.cycleUs else c.dtUs) else 0
  let e := fsub f64 x.sp x.pv
  let e := if x.action then fneg f64 e else e
  let prev := if x.started then x.pvPrev else x.pv
  let d0 := if x.started then x.dState else 0
  let p := fmul f64 x.kp e
  let g := fmul f64 (if x.action then fneg f64 x.kp else x.kp) x.td
  let den := fadd f64 x.tf dt
  let d := if feq f64 den 0 then 0 else fdiv f64 (fsub f64 (fmul f64 x.tf d0) (fmul f64 g (fsub f64 x.pv prev))) den
  let done (out i u : Nat) : Pid :=
    { x with started := true, out := out, iTerm := i, dState := d, pvPrev := x.pv, sat := !feq f64 u out }
  if !x.mode then
    let i := fadd f64 x.iTerm (if flt f64 0 x.ti then fmul f64 (fdiv f64 (fmul f64 x.kp dt) x.ti) e else 0)
    let u := fadd f64 (fadd f64 (fadd f64 p i) d) x.ff
    let out := clamp64 u x.outMin x.outMax
    let keep := feq f64 u out || (flt f64 x.outMax u && flt f64 e 0) || (flt f64 u x.outMin && flt f64 0 e)
    done out (if keep then i else x.iTerm) u
  else
    let out := clamp64 x.manual x.outMin x.outMax
    done out (fsub f64 (fsub f64 (fsub f64 out p) d) x.ff) out

/-- RAMP: the output moves towards the input by at most RATE in a second (R269). -/
def rampBlock (c : Scan) (input rate out : Nat) : Nat :=
  let m := fmul f64 rate (blockSeconds c.dtUs)
  let d := fsub f64 input out
  if fle f64 (fabs f64 d) m then input else fadd f64 out (if flt f64 d 0 then fneg f64 m else m)

/-- HYST: 1 above HIGH, 0 below LOW, otherwise held (R269). -/
def hystBlock (input low high : Nat) (out : Bool) : Bool :=
  if flt f64 high input then true else if flt f64 input low then false else out

/-- SCALE: a linear map with its gain and offset, clamped (R269; log entry 98). -/
def scaleBlock (gain offset outMin outMax input : Nat) : Nat := clamp64 (fadd f64 (fmul f64 gain input) offset) outMin outMax

/-! ### Pumps (R269, R271) -/

/-- A PUMP instance, with STARTED of its header. Times are release times in µs; `last` is that of the previous execution, `differs` the
instant from which FEEDBACK has not followed RUN, and `starts` holds those of the starts of the last hour, newest first. -/
structure PumpBlock where
  started : Bool
  request : Bool
  feedback : Bool
  resetIn : Bool
  resetPrev : Bool
  minOnS : Int
  minOffS : Int
  maxStarts : Nat
  fbTimeS : Int
  run : Bool
  waiting : Bool
  fault : Bool
  last : Int
  since : Int
  differs : Option Int
  starts : List Int
  runHours : Nat
  deriving DecidableEq, Repr

/-- A step of the time scale moves the stored instants of a pump (R280). -/
def PumpBlock.shift (c : Scan) (x : PumpBlock) : PumpBlock :=
  if x.started && c.stepped then
    let d := (c.t - x.last) - c.dtUs
    { x with since := x.since + d, differs := x.differs.map (· + d), starts := x.starts.map (· + d) }
  else x

/-- One execution of PUMP (R271; log entry 98). FEEDBACK has FB_TIME_S from the execution that changes RUN. -/
def pumpBlock (c : Scan) (x : PumpBlock) : PumpBlock :=
  let x := PumpBlock.shift c x
  let hours := if x.feedback then fadd f64 x.runHours (fdiv f64 (blockSeconds c.dtUs) (Fp.ofInt f64 3600)) else x.runHours
  let differs := if x.feedback == x.run then none else some (x.differs.getD c.t)
  let fault := (x.fault && !(x.resetIn && !x.resetPrev)) || differs.any fun d => decide (x.fbTimeS * 1000000 ≤ c.t - d)
  let starts := x.starts.filter fun t => decide (c.t - t < 3600000000)
  let held := if x.run then decide (c.t - x.since < x.minOnS * 1000000)
    else decide (c.t - x.since < x.minOffS * 1000000) || decide (x.maxStarts ≤ starts.length)
  let want := x.request && !fault
  let run := if fault then false else if want == x.run || held then x.run else want
  { x with
    started := true, last := c.t, runHours := hours, fault := fault, run := run, resetPrev := x.resetIn,
    differs := if x.feedback == run then none else if run == x.run then differs else some c.t,
    waiting := !fault && x.request != run, since := if run == x.run then x.since else c.t,
    starts := if run && !x.run then c.t :: starts else starts }

/-- The order in which up to six pumps lead: by run hours, the fewest first, the earlier one of equals (R269). -/
def pumpOrder (hours : List Nat) : List Nat :=
  ((hours.take 6).zipIdx.mergeSort fun a b => fle f64 a.1 b.1).map (·.2)

/-- A PUMP_SEQ instance: the number of pumps asked for, and the order in force. -/
structure PumpSeq where
  demand : Nat
  order : List Nat
  deriving DecidableEq, Repr

/-- One execution of PUMP_SEQ (R269; log entry 98): while none is asked for, the order is taken anew from the run hours; the pumps asked
for are requested in that order, those in FAULT passed over. It gives the REQUEST of each pump. -/
def pumpSeqBlock (hours : List Nat) (faults : List Bool) (x : PumpSeq) : PumpSeq × List Bool :=
  let x := if x.demand = 0 ∨ x.order.length ≠ min 6 hours.length then { x with order := pumpOrder hours } else x
  let lead := (x.order.filter fun k => !(faults[k]?).getD false).take x.demand
  (x, (List.range x.order.length).map fun k => lead.contains k)

/-! ### AXIS and OPT_INPUT (R272, R273) -/

/-- What AXIS copies from the axis status source. -/
structure AxisOut where
  position : Int
  homed : Bool
  stall : Bool
  lostSteps : Int
  deriving DecidableEq, Repr

/-- The outputs of AXIS from *Axis status record*; STALL is its STALL_LATCHED (R272, R408; log entry 98). -/
def axisOutputs (status : Bytes) : AxisOut :=
  { position := sgn 32 (fld status 16 4), homed := bit (fld status 6 2) 0, stall := bit (fld status 6 2) 1,
    lostSteps := sgn 32 (fld status 28 4) }

/-- The axis command record that AXIS writes: MODE 3 with the opening, its other inputs unchanged (R272, R391). -/
def axisRecord (target homeReq ackReq vMax aMax jMax current : Nat) : Bytes :=
  let o := clamp64 target 0 0x3FF0000000000000
  let t := match Fp.unpack f64 o with
    | .fin s m e => (Fp.nearInt s m (e + 30)).toNat
    | _ => 0
  le 1 3 ++ le 1 homeReq ++ le 1 ackReq ++ zeros 1 ++ le 4 t ++ le 4 vMax ++ le 4 aMax ++ le 4 jMax ++ le 2 current ++ zeros 10

/-- One execution of AXIS: the record and the outputs (R272). -/
def axisBlock (status : Bytes) (target homeReq ackReq vMax aMax jMax current : Nat) : Bytes × AxisOut :=
  (axisRecord target homeReq ackReq vMax aMax jMax current, axisOutputs status)

/-- What OPT_INPUT gives: VALID, SOURCE, STEP, EST_STATUS and the values of its element. KIND 0 plant, 1 station, 2 store (log
entry 98); `count` is the number of elements of the kind in the model (R273, R216). -/
def optInputBlock (record : Bytes) (kind index count : Nat) : Bool × Nat × Nat × Nat × List Nat :=
  let source := fld record 12 1
  let inside := decide (index < count)
  let values :=
    if !inside then (if kind = 1 then [0] else [0, 0])
    else match kind with
      | 0 => [fld record (48 + 8 * index) 8, fld record (176 + 8 * index) 8]
      | 1 => [fld record (304 + 8 * index) 8]
      | _ => [fld record (816 + 8 * index) 8, fld record (880 + 8 * index) 8]
  (decide (source < 2) && inside, source, fld record 14 2, fld record 8 2, values)

/-! ### One execution over the bytes of an instance (R268, R269) -/

/-- What an execution of a type makes of the bytes of an instance, for the types whose layout the manual gives. -/
def runInstance (k : StdType) (c : Scan) (b : Bytes) : Option Bytes :=
  match k with
  | .ton => some ((tonBlock c (Timer.read b)).bytes b)
  | .tof => some ((tofBlock c (Timer.read b)).bytes b)
  | .tp => some ((tpBlock c (Timer.read b)).bytes b)
  | .ctu => some ((counterBlock true false c (Counter.read b)).bytes b)
  | .ctd => some ((counterBlock false true c (Counter.read b)).bytes b)
  | .ctud => some ((counterBlock true true c (Counter.read b)).bytes b)
  | .rTrig => some ((rTrigBlock c (Edge.read b)).bytes b)
  | .fTrig => some ((fTrigBlock c (Edge.read b)).bytes b)
  | .pid => some ((pidBlock c (Pid.read b)).bytes b)
  | .ramp | .hyst | .scale | .pump | .pumpSeq | .axis | .optInput => none

end Sys2Proof.Machine
end

