-- ==== Sys2Proof/Tests/Slice0.lean ====
section
/-! SUPPORT. Tests: states and operands that meet the hypotheses of every statement, ill-formed commands that are refused, and values
from the manual. -/

namespace Sys2Proof.Tests

open Sys2Proof.Machine

set_option Elab.async false
set_option maxRecDepth 4000

/-! ### Small states and packets -/

/-- A device in a mode, its host interface up, with a session of role 2 on xSPI. -/
def bench (m : Mode) : State :=
  { State.reset with
    sys := { Sys.reset with mode := m },
    hif := { Hif.reset with up := true, xspi := { Hif.reset.xspi with session := some ⟨1, 1, 7, 2, zeros 48, zeros 48, 0⟩ } } }

/-- A packet of nobody on xSPI, under a tag. -/
def open_ (tag : Byte) : Env :=
  { tr := .xspi, srcIp := 0, srcPort := 0, tag := tag, epoch := 0, seq := 5, e2e := false, sig := none, sess := none }

/-- A packet of the session of `bench`. -/
def asked (op : Nat) (pl : Bytes) : Env :=
  { open_ 3 with sess := some (hmac384 (zeros 48) (envPkt op { open_ 3 with sess := some (zeros 48) } pl).pre) }

/-- Who authorises a packet of nobody, and one of the session. -/
def nobody : Auth := { level := 0, keyId := 0, counter := 0, signed := false, a3 := false, session := none }
def sessionAuth : Auth := { level := 2, keyId := 7, counter := 0, signed := false, a3 := false, session := some 1 }

theorem arrives_of {c : Cmd} {dt : Nat} {q : Env} {pl : Bytes} {a : Auth} {s : State}
    (h : (decide (Quiet s) && decide (admission c q pl (elapse dt s) = some a) && !logs c pl s) = true) : Arrives c dt q pl a s := by
  simp only [Bool.and_eq_true, decide_eq_true_eq, Bool.not_eq_true'] at h
  exact ⟨h.1.1, h.1.2, h.2⟩

/-- A packet signed with private key 1 under a key identifier, counter 1. -/
def signed (id_ : W16) (op : Nat) (pl : Bytes) : Env :=
  let p := envPkt op { open_ 3 with sig := some ⟨id_, 0, 1, zeros 96⟩ } pl
  { open_ 3 with sig := some ⟨id_, 0, 1, ecdsaSign 1 5 (sha384 (zeros 16 ++ p.hdr.bytes ++ pl ++ p.sig.take 8))⟩ }

/-- The public key of private key 1. -/
def pub1 : Bytes := pointBytes p384g

/-- A key of the state in a slot, masked by zeros. -/
def slot (n : Nat) (key : Bytes) : Nat × KeySlot := (n, ⟨key, zeros key.length, 0⟩)

/-- A held result. -/
def held : Held := { status := stOK, regularised := false, body := [1, 2, 3], reqCrc := 4, resCrc := 5 }

/-- A command that executes and waits. -/
def exec_ (w : Wait) : Exec := { op := 0x0102, org := ⟨.xspi, 0, 0⟩, bufs := 1, e2e := false, reqCrc := 0, auth := nobody, wait := w, accUs := 0, order := 0 }

/-- The same state with one command that waits. -/
def withTag (w : Wait) (s : State) : State := { s with hif := { s.hif with tags := [(3, .executing (exec_ w))] } }

/-- A reply to an xSPI or UART packet. -/
def reply (tr : Transport) : Reply :=
  { org := ⟨tr, 0, 0⟩, tag := 3, opcode := 0x0101, status := stOK, body := [1, 2], slots := 1, bufs := 1, heldSlots := 1,
    heldBufs := 1, seq := 9, flags := 0, e2e := none, session := none }

/-- A network without elements. -/
def network : Mizon :=
  { id := 1, rev := 2, zones := [], stations := [], nodes := [], branches := [], pipes := [], pumps := [], valves := [],
    tables := [], substs := [], plants := [], stores := [], binds := [], raw := zeros 68 }

/-- An image with one task, one output and one variable. -/
def image : BImg :=
  { id := 1, rev := 2, code := Vector.replicate 2 [], init := Vector.replicate 2 [],
    tasks :=
      [{ engine := 0, task := 0, prio := 1, flags := 0, cycle := 1000, phase := 10, entry := 0x40000, inAddr := 0x100,
         inLen := 0, outLen := 4, outAddr := 0x200, abortLimit := 3 }],
    ins := [], outs := [{ engine := 0, dest := 1, task := 0, index := 2, imgOff := 0 }], insts := [],
    types := [{ engine := 0, id := 9, rev := 1, code := 0x40100, size := 0, crc := 0 }],
    vars := [{ engine := 0, id := 5, kind := 0, dtype := 2, addr := 0x300 }], raw := [] }

/-- A device that runs the image. -/
def controlled (m : Mode) : State :=
  { bench m with ctrl := { Ctrl.reset with running := some image, tasks := [TaskSt.fresh 0 0] } }

/-- A registered substation. -/
def substation : SublEntry :=
  { index := 7, gen := 0, prevGen := none, sourceIp := 0, subId := 1, highest := none, seen := [], addr := some (1, 2),
    counts := SublCounts.zero, sets := SetCounts.zero, keys := [], filed := .both none, frozen := none, outstanding := none, lastResult := 0,
    epoch := 0, nextSeq := 0, lastRetry := none }

/-- An estimation result. -/
def estimate_ : EstRes :=
  { status := stOK, flags := 0, round := 3, cutSec := 3, modelId := 1, rev := 2, rho := 0, rhoWarm := 0, steps := 1, best := 1,
    cgIters := 1, regs := 0, held := 0, measured := 0, absent := 0, makeup := 0, critDp := 0, critIdx := 0, checkClosed := 0,
    thermRes := 0, published := ⟨3, 0⟩, pres := [], temp := [], flow := [], fronts := [] }

/-- A trajectory of a network without elements, and an optimisation result with it. -/
def trajectory : Traj :=
  { status := stOK, start := 1, dt := 900, plants := 0, stations := 0, stores := 0, steps := [], objective := 0, merit := 0,
    primal := 0, dual := 0, gap := 0, crit := [], cfg := optDefault, point := ⟨[], [], [], [], [], []⟩, series := [], sens := [] }
def optimum : OptRes :=
  { start := 1, status := stOK, flags := 0, stateRound := 3, modelId := 1, rev := 2, iters := 1, bestIter := 1, minresIters := 1,
    regs := 0, published := ⟨3, 0⟩, traj := trajectory }

/-- A device with the key of the substation link and one substation. -/
def linked : State :=
  fillKeys
    { bench .run with
      sec := { Sec.reset with slots := [slot 3 (zeros 32), slot 5 (zeros 48)] },
      subl := { Subl.reset with entries := [substation] } }

/-- A datagram for the Concourse. -/
def toConcourse (data : Bytes) : UdpFrag :=
  { srcIp := 1, srcPort := 2, ident := 7, offset := 0, more := false, checksumOk := true, unicast := true,
    vlan := getP (bench .run) 0x0511, dstPort := BitVec.ofNat 16 (getP (bench .run) 0x0510), data := data }

/-- A message of that substation. -/
def message (type : Byte) (body : Bytes) : Bytes :=
  let h := [1, type, 7, 0, 0, 0] ++ le 2 body.length ++ le 4 1 ++ le 4 1
  let x := gcmSeal ((kUp linked 7 0).getD []) (sublNonce h) h body
  h ++ x.1 ++ x.2

/-- A message in the buffer. -/
def buffered (data : Bytes) : SublMsg := ⟨1, 2, data, ⟨0, 10000⟩⟩

/-- An estimation run and an optimisation run that have not ended. -/
def estRun : EstRun :=
  { round := 1, cut := 0, deadline := 0, jobDeadline := 0, resolved := false, vals := [], held := 0, measured := 0, absent := 0,
    fixed := [], closed := [], warm := ⟨0, 0, [], []⟩, cur := ⟨0, 0, [], []⟩, best := none, rhoWarm := 0, cgIters := 0, regs := 0,
    flags := 0, h := [], g := [], factor := [], factorRows := [] }
def optRun : OptRun :=
  { start := 1, startNs := 0, deadline := 0, jobDeadline := 0, cfg := optDefault, phase := .waiting, goodBefore := 0, state := none,
    series := [], iter := 0, sens := [], point := ⟨[], [], [], [], [], []⟩, merit := 0, blocks := [], inner := none, pred := [],
    best := none, minresIters := 0, regs := 0, flags := 0 }

/-- A job of kernel 2 whose vectors are one 1.0 each, and the test region it reads. -/
def dotJob : Bytes :=
  zeros 4 ++ [2, 0, 0x10, 0] ++ le 6 1 ++ zeros 50 ++ (le 8 testBase ++ zeros 16) ++ zeros 24 ++ (le 8 (testBase + 0x200) ++ zeros 16) ++
    (le 8 (testBase + 0x200) ++ zeros 16) ++
    (le 8 (testBase + 0x300) ++ le 8 (testBase + 0x308) ++ le 8 (testBase + 0x80)) ++ zeros 8
def testRegion : Memory :=
  Memory.writes (Memory.writes (Memory.writes [] 0 (le 8 (testBase + 0x100))) 0x100 ([1, 0, 0, 0] ++ le 4 1 ++ le 4 1)) 0x200
    (le 8 0x3FF0000000000000)
def hostJob (deadline : Nat) : HJob := { tag := 3, desc := dotJob, mask := 0x10, deadline := deadline }
def stopped (f : Option JobFault) : JobStop := { fault := f, numeric := false, index := 0, iters := 0, regs := 0, regFirst := 0 }

/-- An execution of task 0 at the start of the code whose registers hold 8, and engine 0 that runs it at a word. -/
def run_ : Run :=
  { task := 0, prio := 1, started := true, pc := 0x40000, regs := Vector.replicate 16 8, links := [], journal := [],
    overflowed := false, div0 := false, release := 0, beganUs := 0, again := false }
def standing (m : Mode) (word : Nat) (r : Run) : State :=
  setEng 0 { Engine.reset with code := Memory.writes [] 0 (le 4 word), runs := [r] } (controlled m)

/-- A device that changes from the image to itself. -/
def changing (c : Change) : State :=
  { controlled .run with ctrl := { (controlled .run).ctrl with staged := some image, change := some c } }
def change (p : ChangePhase) : Change :=
  { options := 0, at_ := 0, atMono := 0, drainMax := 5, phase := p, held := [], exchangeMono := 0, prior := 3, body := [] }

/-- A device that meters, its thermal channel 0 and electrical system 0 enabled, at the end of a minute. -/
def metering : State :=
  { bench .run with
    mth := { Mth.reset with running := true }, mel := { Mel.reset with systems := Mel.reset.systems.set 0 { MelSys.reset with running := true } },
    cfg := [(0x0710, 0x8000), (0x0840, 0x8000)] }
def melAt (m : MelSys) : State := { metering with mel := { Mel.reset with systems := Mel.reset.systems.set 0 m } }
def sample_ : Vector RawSample 6 := Vector.replicate 6 { raw := 0, parityOk := true, dense := true }
def frame_ : Vector RtdFrame 16 :=
  Vector.replicate 16
    { aPos := 0, aNeg := 0, bPos := 0, bNeg := 0, refPos := 0, refNeg := 0, parityOk := false, limitA := false, limitB := false }
def calWin : CalWin :=
  { start := 0, stop := 1, samples := 0, first := ⟨0, 0⟩, sums := Vector.replicate 3 PhaseSums.zero, flags := 0 }

/-- A device whose axis 0 is enabled with parameters VMAX 100 and V_START 1. -/
def axisAt (x : Axis) : State :=
  { bench .run with
    vax := { Vax.reset with axes := Vax.reset.axes.set 0 x }, cfg := [(0x0B10, 0x41000), (0x0B13, 100), (0x0B17, 1)] }
def moving (pos frac target vel : Int) : Axis :=
  { Axis.reset with
    state := .moving, goal := { Goal.stop with mode := 1 }, pos := pos, frac := frac, target := target, vel := vel }
def period_ (v : Int) : AxisPeriod :=
  { vel := v, iA := Vector.replicate 5 1, iB := Vector.replicate 5 2, vA := Vector.replicate 5 3, vB := Vector.replicate 5 4,
    supply := 24000 }

/-- A frame, and a switch that knows one address. -/
def frame0 : EthFrame :=
  { port := 0, length := 64, fcsOk := true, pause := false, src := 2, dst := 4, tag := none, ptp := none, residence := 0,
    endpoint := none, full := 0 }
def switching : State :=
  { bench .run with
    cfg := [(0x0C10, 0x00100801), (0x0C11, 0x00100801), (0x0C20, 0x00003001)], eth := { EthB.reset with table := [⟨1, 4, 1, 0⟩] } }

/-- A slave or a master with PTP on port 0, in a servo state. -/
def clocked (config : Nat) (t : TimeB) : State :=
  { bench .run with time := t, cfg := [(0x0C10, 0x0801), (0x0D10, config)] }
def master_ : Master :=
  { priority1 := 1, clockClass := 6, accuracy := 0, variance := 0, priority2 := 0, identity := 5, steps := 0, port := 0 }
def slave : TimeB := { TimeB.reset with master := some master_ }
def announced : AnnounceMsg :=
  { domain := 0, priority1 := 1, clockClass := 6, accuracy := 0, variance := 0, priority2 := 0, identity := 5, steps := 0,
    utcOffset := 37, utcValid := true, leap61 := false, leap59 := true }

/-- An event that waits to be recorded. -/
def posting (code : Nat) : Posting :=
  { code := code, index := 0, data := [], keyId := 0, at_ := ⟨0, 0⟩, mode := 3, lifecycle := 0, occurred := 1, summary := false,
    restored := false }

/-- A device with a panel of 800 by 480 pixels, and a request and an update of it. -/
def panel (e : Epd) : State := { bench .run with epd := e, cfg := [(0x0F10, 480 * 2 ^ 20 + 800 * 256)] }
def request (all : Bool) : EpdReq := { id := 1, region := 2, rect := ⟨0, 200, 2, 2⟩, waveform := 1, all := all, auto := false }
def update (left : Nat) : EpdRun :=
  { req := request true, band := 4, lines := [200], count := 5, left := left, start := ⟨0, 0⟩, startUs := 0, invalid := false,
    drift := false, strips := Vector.replicate 2 [] }

/-- A member of a pair. -/
def pairAt (m : Mode) (p : Pair) : State :=
  { controlled m with
    cfg := [(0x0120, 1), (0x0121, 1)], sec := { Sec.reset with slots := [slot 4 (zeros 48)] }, pair := p }

/-- States and operands that meet the hypotheses of each part of SystemCommandsComplete. -/
theorem witness_SystemCommandsComplete :
    (∃ (dt : Nat) (q : Env) (pl : Bytes) (au : Auth) (s : State),
      Arrives cmdSysStatus dt q pl au s) ∧
    (∃ (dt : Nat) (q : Env) (pl : Bytes) (au : Auth) (s : State),
      Arrives cmdModeRequest dt q pl au s ∧ ((fun r s => fld r.payload 0 1 = s.sys.mode.code ∧ namable s.sys.mode = true ∧ allZero (slice r.payload 1 3) = true ∧
      s.sys.trans = none : Req → State → Prop) (requestOf cmdModeRequest q pl au) (elapse dt s))) ∧
    (∃ (dt : Nat) (q : Env) (pl : Bytes) (au : Auth) (s : State) (m : Mode),
      Arrives cmdModeRequest dt q pl au s ∧ ((fun r s => fld r.payload 0 1 = m.code ∧ m ≠ s.sys.mode ∧ allZero (slice r.payload 1 3) = true ∧ s.sys.trans = none ∧
      requestTo s m = none : Req → State → Prop) (requestOf cmdModeRequest q pl au) (elapse dt s))) ∧
    (∃ (dt : Nat) (q : Env) (pl : Bytes) (au : Auth) (s : State) (m : Mode) (atCut : Bool),
      Arrives cmdModeRequest dt q pl au s ∧ ((fun r s => fld r.payload 0 1 = m.code ∧ m ≠ s.sys.mode ∧ allZero (slice r.payload 1 3) = true ∧ s.sys.trans = none ∧
      requestTo s m = some atCut : Req → State → Prop) (requestOf cmdModeRequest q pl au) (elapse dt s))) ∧
    (∃ (dt : Nat) (q : Env) (pl : Bytes) (au : Auth) (s : State),
      Arrives cmdSysReset dt q pl au s ∧ ((fun r _ => fld r.payload 0 4 = 0x5AA5C33C : Req → State → Prop) (requestOf cmdSysReset q pl au) (elapse dt s))) :=
  ⟨⟨10, open_ 3, [], nobody, bench .run, arrives_of (by decide +kernel)⟩,
    ⟨10, asked 0x0102 ([7, 0, 0, 0]), [7, 0, 0, 0], sessionAuth, bench .service, arrives_of (by decide +kernel), by decide +kernel⟩,
    ⟨10, asked 0x0102 ([4, 0, 0, 0]), [4, 0, 0, 0], sessionAuth, bench .service, .reduced, arrives_of (by decide +kernel), by decide +kernel⟩,
    ⟨10, asked 0x0102 ([8, 0, 0, 0]), [8, 0, 0, 0], sessionAuth, bench .run, .safe, false, arrives_of (by decide +kernel), by decide +kernel⟩,
    ⟨10, asked 0x0103 (le 4 0x5AA5C33C), le 4 0x5AA5C33C, sessionAuth, bench .run, arrives_of (by decide +kernel), by decide +kernel⟩⟩

/-- States and operands that meet the hypotheses of each part of ParameterReadsComplete. -/
theorem witness_ParameterReadsComplete :
    (∃ (dt : Nat) (q : Env) (pl : Bytes) (au : Auth) (s : State),
      Arrives cmdParamRead dt q pl au s ∧ ((fun r _ => (pinfo (fld r.payload 0 2)).isSome = true ∧ 1 ≤ fld r.payload 2 1 ∧ fld r.payload 2 1 ≤ 64 ∧
      fld r.payload 0 2 % 256 + fld r.payload 2 1 ≤ 256 ∧
      (∀ k < fld r.payload 2 1, (pinfo (fld r.payload 0 2 + k)).isSome = true) ∧ fld r.payload 3 1 = 0 : Req → State → Prop) (requestOf cmdParamRead q pl au) (elapse dt s))) ∧
    (∃ (dt : Nat) (q : Env) (s : State) (a : _),
      Arrives cmdParamRead dt q (paramReadOne 0x0518) a s) ∧
    (∃ (dt : Nat) (q : Env) (s : State) (a : _),
      Arrives cmdParamRead dt q (paramReadOne 0x0E10) a s) :=
  ⟨⟨10, open_ 3, le 2 0x0110 ++ [2, 0], nobody, bench .run, arrives_of (by decide +kernel), by decide +kernel⟩,
    ⟨10, open_ 3, bench .run, nobody, arrives_of (by decide +kernel)⟩,
    ⟨10, open_ 3, bench .run, nobody, arrives_of (by decide +kernel)⟩⟩

/-- States and operands that meet the hypotheses of each part of ParameterWritesComplete. -/
theorem witness_ParameterWritesComplete :
    (∃ (dt : Nat) (q : Env) (pl : Bytes) (s : State) (a : _),
      Arrives cmdParamWrite dt q pl a s ∧ firstBad (paramChecks (elapse dt s) pl) = none) ∧
    (∃ (dt : Nat) (q : Env) (s : State) (mask : W64) (a : _),
      Arrives cmdParamWrite dt q (paramWriteOne 0x0A98 4 mask.toNat) a s ∧ firstBad (paramChecks (elapse dt s) (paramWriteOne 0x0A98 4 mask.toNat)) = none) ∧
    (∃ (dt : Nat) (q : Env) (s : State) (mask : W64) (a : _),
      Arrives cmdParamWrite dt q (paramWriteOne 0x0E14 4 mask.toNat) a s ∧ firstBad (paramChecks (elapse dt s) (paramWriteOne 0x0E14 4 mask.toNat)) = none) :=
  ⟨⟨10, asked 0x0111 (paramWriteOne 0x0216 4 5), paramWriteOne 0x0216 4 5, bench .service, sessionAuth, arrives_of (by decide +kernel), by decide +kernel⟩,
    ⟨10, asked 0x0111 (paramWriteOne 0x0A98 4 6), bench .run, 6, sessionAuth, arrives_of (by decide +kernel), by decide +kernel⟩,
    ⟨10, asked 0x0111 (paramWriteOne 0x0E14 4 8), bench .run, 8, sessionAuth, arrives_of (by decide +kernel), by decide +kernel⟩⟩

/-- States and operands that meet the hypotheses of each part of ResultsAndCreditsComplete. -/
theorem witness_ResultsAndCreditsComplete :
    (∃ (dt : Nat) (q : Env) (pl : Bytes) (s : State) (a : _) (h : Held),
      Arrives cmdResultFetch dt q pl a s ∧ tagOf s q.tag.toNat = some (.held h) ∧ fld pl 0 4 ≤ h.body.length ∧ fld pl 4 2 ≤ 4096 ∧ fld pl 6 2 = 0) ∧
    (∃ (dt : Nat) (q : Env) (pl : Bytes) (au : Auth) (s : State) (e : Exec),
      Arrives cmdResultFetch dt q pl au s ∧ ((fun r s => tagOf s r.hdr.tag = some (.executing e) ∧ fld r.payload 4 2 ≤ 4096 ∧ fld r.payload 6 2 = 0 : Req → State → Prop) (requestOf cmdResultFetch q pl au) (elapse dt s))) ∧
    (∃ (dt : Nat) (q : Env) (pl : Bytes) (au : Auth) (s : State),
      Arrives cmdResultFetch dt q pl au s ∧ ((fun r s => tagOf s r.hdr.tag = none ∧ fld r.payload 4 2 ≤ 4096 ∧ fld r.payload 6 2 = 0 : Req → State → Prop) (requestOf cmdResultFetch q pl au) (elapse dt s))) ∧
    (∃ (dt : Nat) (q : Env) (pl : Bytes) (au : Auth) (s : State) (h : Held),
      Arrives cmdResultRelease dt q pl au s ∧ ((fun r s => tagOf s r.hdr.tag = some (.held h) : Req → State → Prop) (requestOf cmdResultRelease q pl au) (elapse dt s))) ∧
    (∃ (dt : Nat) (q : Env) (pl : Bytes) (au : Auth) (s : State) (e : Exec),
      Arrives cmdResultRelease dt q pl au s ∧ ((fun r s => tagOf s r.hdr.tag = some (.executing e) : Req → State → Prop) (requestOf cmdResultRelease q pl au) (elapse dt s))) ∧
    (∃ (dt : Nat) (q : Env) (pl : Bytes) (au : Auth) (s : State),
      Arrives cmdResultRelease dt q pl au s ∧ ((fun r s => tagOf s r.hdr.tag = none : Req → State → Prop) (requestOf cmdResultRelease q pl au) (elapse dt s))) ∧
    (∃ (dt : Nat) (q : Env) (pl : Bytes) (au : Auth) (s : State),
      Arrives cmdCreditSync dt q pl au s ∧ ((fun r _ => fld r.payload 4 1 ≤ 1 ∧ allZero (slice r.payload 5 3) = true : Req → State → Prop) (requestOf cmdCreditSync q pl au) (elapse dt s))) :=
  ⟨⟨10, open_ 3, le 4 1 ++ le 2 1 ++ zeros 2, { bench .run with hif := { (bench .run).hif with tags := [(3, .held held)] } }, nobody, held, arrives_of (by decide +kernel), by decide +kernel⟩,
    ⟨10, open_ 3, le 4 0 ++ le 2 4096 ++ zeros 2, nobody, { bench .run with hif := { (bench .run).hif with tags := [(3, .executing (exec_ .modeEnd))] } }, exec_ .modeEnd, arrives_of (by decide +kernel), by decide +kernel⟩,
    ⟨10, open_ 3, le 4 0 ++ le 2 4096 ++ zeros 2, nobody, bench .run, arrives_of (by decide +kernel), by decide +kernel⟩,
    ⟨10, open_ 3, [], nobody, { bench .run with hif := { (bench .run).hif with tags := [(3, .held held)] } }, held, arrives_of (by decide +kernel), by decide +kernel⟩,
    ⟨10, open_ 3, [], nobody, { bench .run with hif := { (bench .run).hif with tags := [(3, .executing (exec_ .now))] } }, exec_ .now, arrives_of (by decide +kernel), by decide +kernel⟩,
    ⟨10, open_ 3, [], nobody, bench .run, arrives_of (by decide +kernel), by decide +kernel⟩,
    ⟨10, open_ 3, le 2 192 ++ le 2 1536 ++ [1, 0, 0, 0], nobody, { bench .run with hif := { (bench .run).hif with tags := [(3, .held held)] } }, arrives_of (by decide +kernel), by decide +kernel⟩⟩

/-- States and operands that meet the hypotheses of each part of SnapshotCommandsComplete. -/
theorem witness_SnapshotCommandsComplete :
    (∃ (dt : Nat) (q : Env) (pl : Bytes) (au : Auth) (s : State),
      Arrives cmdSnapshotTrigger dt q pl au s ∧ ((fun r _ => fld r.payload 0 1 = 0 ∧ allZero (slice r.payload 1 3) = true : Req → State → Prop) (requestOf cmdSnapshotTrigger q pl au) (elapse dt s))) ∧
    (∃ (dt : Nat) (q : Env) (pl : Bytes) (au : Auth) (s : State),
      Arrives cmdSnapshotTrigger dt q pl au s ∧ ((fun r _ => fld r.payload 0 1 = 1 ∧ allZero (slice r.payload 1 3) = true : Req → State → Prop) (requestOf cmdSnapshotTrigger q pl au) (elapse dt s))) ∧
    (∃ (dt : Nat) (q : Env) (pl : Bytes) (au : Auth) (s : State) (x : Snapshot),
      Arrives cmdSnapshotRead dt q pl au s ∧ ((fun r s => s.intg.held = some x ∧ (∃ y ∈ x.sections, fld r.payload 0 1 = 0 ∨ y.1 = fld r.payload 0 1) ∧
      allZero (slice r.payload 1 3) = true : Req → State → Prop) (requestOf cmdSnapshotRead q pl au) (elapse dt s))) ∧
    (∃ (dt : Nat) (q : Env) (pl : Bytes) (au : Auth) (s : State) (x : FaultRec),
      Arrives cmdFaultRead dt q pl au s ∧ ((fun r s => fld r.payload 0 1 ≤ 31 ∧ (faultRecs s)[fld r.payload 0 1]? = some x ∧ x.intact = true ∧
      allZero (slice r.payload 1 3) = true : Req → State → Prop) (requestOf cmdFaultRead q pl au) (elapse dt s))) :=
  ⟨⟨10, open_ 3, zeros 4, nobody, bench .run, arrives_of (by decide +kernel), by decide +kernel⟩,
    ⟨10, open_ 3, 1 :: zeros 3, nobody, bench .run, arrives_of (by decide +kernel), by decide +kernel⟩,
    ⟨10, open_ 3, [2, 0, 0, 0], nobody, { bench .run with intg := { Intg.reset with held := some { seq := 1, sources := 1, mode := 3, at_ := ⟨1, 0⟩, sections := [(1, [1]), (2, [2, 3])] } } }, { seq := 1, sources := 1, mode := 3, at_ := ⟨1, 0⟩, sections := [(1, [1]), (2, [2, 3])] }, arrives_of (by decide +kernel), by decide +kernel⟩,
    ⟨10, open_ 3, zeros 4, nobody, { bench .run with intg := { Intg.reset with ring := [{ seq := 0, cause := 1, block := 1, mode := 3, at_ := ⟨1, 0⟩, detail := [], snapSeq := 0, intact := true }] } }, { seq := 0, cause := 1, block := 1, mode := 3, at_ := ⟨1, 0⟩, detail := [], snapSeq := 0, intact := true }, arrives_of (by decide +kernel), by decide +kernel⟩⟩

/-- States and operands that meet the hypotheses of each part of KeyUseCommandsComplete. -/
theorem witness_KeyUseCommandsComplete :
    (∃ (dt : Nat) (q : Env) (pl : Bytes) (au : Auth) (s : State) (identity : Bytes),
      Arrives cmdSessionOpen dt q pl au s ∧ ((fun r s => allZero (slice r.payload 2 2) = true ∧ (pointOf (slice r.payload 36 97)).isSome = true ∧
      allZero (slice r.payload 133 3) = true ∧ noRandom s = false ∧ slotKey (endSession r.org.tr s) 0 = some identity : Req → State → Prop) (requestOf cmdSessionOpen q pl au) (elapse dt s))) ∧
    (∃ (dt : Nat) (q : Env) (pl : Bytes) (au : Auth) (s : State) (d : Bytes),
      Arrives cmdAttest dt q pl au s ∧ ((fun r s => Attestable s (fld r.payload 0 1) ∧ allZero (slice r.payload 1 3) = true ∧ noRandom s = false ∧ slotKey s 0 = some d : Req → State → Prop) (requestOf cmdAttest q pl au) (elapse dt s))) ∧
    (∃ (dt : Nat) (q : Env) (pl : Bytes) (au : Auth) (s : State),
      Arrives cmdAttest dt q pl au s ∧ ((fun r s => Attestable s (fld r.payload 0 1) ∧ allZero (slice r.payload 1 3) = true ∧ slotKey s 0 = none : Req → State → Prop) (requestOf cmdAttest q pl au) (elapse dt s))) ∧
    (∃ (dt : Nat) (q : Env) (pl : Bytes) (au : Auth) (s : State),
      Arrives cmdAttest dt q pl au s ∧ ((fun r _ => fld r.payload 0 1 = 0xFE ∧ allZero (slice r.payload 1 3) = true : Req → State → Prop) (requestOf cmdAttest q pl au) (elapse dt s))) ∧
    (∃ (dt : Nat) (q : Env) (pl : Bytes) (au : Auth) (s : State) (d : Bytes),
      Arrives cmdKeySign dt q pl au s ∧ ((fun r s => 32 ≤ fld r.payload 0 1 ∧ fld r.payload 0 1 ≤ 63 ∧ slotKey s (fld r.payload 0 1) = some d ∧
      allZero (slice r.payload 1 3) = true ∧ noRandom s = false : Req → State → Prop) (requestOf cmdKeySign q pl au) (elapse dt s))) ∧
    (∃ (dt : Nat) (q : Env) (pl : Bytes) (au : Auth) (s : State) (st : Bytes),
      Arrives cmdKeyGenerate dt q pl au s ∧ ((fun r s => 32 ≤ fld r.payload 0 1 ∧ fld r.payload 0 1 ≤ 63 ∧ slotKey s (fld r.payload 0 1) = none ∧
      allZero (slice r.payload 1 3) = true ∧ noRandom s = false ∧ slotKey s 1 = some st : Req → State → Prop) (requestOf cmdKeyGenerate q pl au) (elapse dt s))) :=
  ⟨⟨10, open_ 3, (le 2 7 ++ zeros 34 ++ pub1 ++ zeros 3) ++ ecdsaSign 1 5 (sha384 (zeros 16 ++ (envPkt 0x0202 (open_ 3) (zeros 232)).hdr.bytes ++ (le 2 7 ++ zeros 34 ++ pub1 ++ zeros 3))), nobody, { bench .run with sec := { Sec.reset with lifecycle := .enrolled, hostKeys := (Vector.replicate 32 none).set 0 (some ⟨7, 2, pub1⟩), slots := [slot 0 (be 48 1)] } }, be 48 1, arrives_of (by decide +kernel), by decide +kernel⟩,
    ⟨10, open_ 3, zeros 36, nobody, { bench .run with sec := { Sec.reset with slots := [slot 0 (be 48 1)] } }, be 48 1, arrives_of (by decide +kernel), by decide +kernel⟩,
    ⟨10, open_ 3, 1 :: zeros 35, nobody, bench .run, arrives_of (by decide +kernel), by decide +kernel⟩,
    ⟨10, open_ 3, 0xFE :: zeros 35, nobody, bench .run, arrives_of (by decide +kernel), by decide +kernel⟩,
    ⟨10, asked 0x1141 (32 :: zeros 51), 32 :: zeros 51, sessionAuth, { bench .run with sec := { Sec.reset with slots := [slot 32 (be 48 1)] } }, be 48 1, arrives_of (by decide +kernel), by decide +kernel⟩,
    ⟨10, asked 0x1140 (63 :: zeros 3), 63 :: zeros 3, sessionAuth, { bench .service with sec := { Sec.reset with slots := [slot 1 (zeros 32)] } }, zeros 32, arrives_of (by decide +kernel), by decide +kernel⟩⟩

/-- States and operands that meet the hypotheses of each part of KeyTableCommandsComplete. -/
theorem witness_KeyTableCommandsComplete :
    (∃ (dt : Nat) (q : Env) (pl : Bytes) (au : Auth) (s : State) (place : Nat),
      Arrives cmdKeyInstall dt q pl au s ∧ ((fun r s => 1 ≤ fld r.payload 0 2 ∧ fld r.payload 0 2 ≤ 0xFEFF ∧ hostKey s (fld r.payload 0 2) = none ∧
      s.sec.hostKeys.toList.findIdx? (·.isNone) = some place ∧ 1 ≤ fld r.payload 2 1 ∧ fld r.payload 2 1 ≤ 3 ∧
      fld r.payload 3 1 = 0 ∧ (pointOf (slice r.payload 4 97)).isSome = true ∧ allZero (slice r.payload 101 3) = true : Req → State → Prop) (requestOf cmdKeyInstall q pl au) (elapse dt s))) ∧
    (∃ (dt : Nat) (q : Env) (pl : Bytes) (au : Auth) (s : State) (k : HostKey),
      Arrives cmdKeyInstall dt q pl au s ∧ ((fun r s => hostKey s (fld r.payload 0 2) = some k ∧ removalBarred s k = false ∧ fld r.payload 2 1 = 0 ∧
      fld r.payload 3 1 = 0 ∧ allZero (slice r.payload 4 97) = true ∧ allZero (slice r.payload 101 3) = true : Req → State → Prop) (requestOf cmdKeyInstall q pl au) (elapse dt s))) ∧
    (∃ (dt : Nat) (q : Env) (pl : Bytes) (au : Auth) (s : State) (k : Bytes) (st : Bytes),
      Arrives cmdKeyImport dt q pl au s ∧ ((fun r s => (fld r.payload 0 1 = 2 ∨ (fld r.payload 0 1 = 1 ∧ s.subl.entries = [])) ∧
      allZero (slice r.payload 1 3) = true ∧ (pointOf (slice r.payload 4 97)).isSome = true ∧
      allZero (slice r.payload 101 3) = true ∧ importedKey s r.payload = some k ∧ noRandom s = false ∧ slotKey s 1 = some st : Req → State → Prop) (requestOf cmdKeyImport q pl au) (elapse dt s))) ∧
    (∃ (dt : Nat) (q : Env) (pl : Bytes) (au : Auth) (s : State) (k : Bytes),
      Arrives cmdKeyDelete dt q pl au s ∧ ((fun r s => 32 ≤ fld r.payload 0 1 ∧ fld r.payload 0 1 ≤ 63 ∧ slotKey s (fld r.payload 0 1) = some k ∧
      allZero (slice r.payload 1 3) = true : Req → State → Prop) (requestOf cmdKeyDelete q pl au) (elapse dt s))) ∧
    (∃ (dt : Nat) (q : Env) (pl : Bytes) (au : Auth) (s : State) (d : Bytes),
      Arrives cmdIdentityCert dt q pl au s ∧ ((fun r s => slotKey s 0 = some d ∧ certPublic r.payload = some (publicOf (ofBE d)) : Req → State → Prop) (requestOf cmdIdentityCert q pl au) (elapse dt s))) :=
  ⟨⟨10, asked 0x1130 (le 2 1 ++ [1, 0] ++ pub1 ++ zeros 3), le 2 1 ++ [1, 0] ++ pub1 ++ zeros 3, sessionAuth, bench .service, 0, arrives_of (by decide +kernel), by decide +kernel⟩,
    ⟨10, asked 0x1130 (le 2 9 ++ [0, 0] ++ zeros 100), le 2 9 ++ [0, 0] ++ zeros 100, sessionAuth, { bench .service with sec := { Sec.reset with hostKeys := (Vector.replicate 32 none).set 0 (some ⟨9, 1, pub1⟩) } }, ⟨9, 1, pub1⟩, arrives_of (by decide +kernel), by decide +kernel⟩,
    ⟨10, asked 0x1131 ([2, 0, 0, 0] ++ pub1 ++ zeros 15 ++ le 64 3422381085623567956778349657494733831799116097330820735019596519631159286447989476396267499730705544424641824480228797597713272702298505888074951615554818), [2, 0, 0, 0] ++ pub1 ++ zeros 15 ++ le 64 3422381085623567956778349657494733831799116097330820735019596519631159286447989476396267499730705544424641824480228797597713272702298505888074951615554818, sessionAuth, { bench .service with sec := { Sec.reset with slots := [slot 1 (zeros 32), slot 2 (be 48 1)] } }, zeros 48, zeros 32, arrives_of (by decide +kernel), by decide +kernel⟩,
    ⟨10, asked 0x1142 (32 :: zeros 3), 32 :: zeros 3, sessionAuth, { bench .service with sec := { Sec.reset with slots := [slot 32 (be 48 1)] } }, be 48 1, arrives_of (by decide +kernel), by decide +kernel⟩,
    ⟨10, signed 0xFF10 0x1111 ([0x06, 0x05, 0x2B, 0x81, 0x04, 0x00, 0x22, 0x03, 0x62, 0x00] ++ publicOf 1), [0x06, 0x05, 0x2B, 0x81, 0x04, 0x00, 0x22, 0x03, 0x62, 0x00] ++ publicOf 1, { level := 0, keyId := 0xFF10, counter := 1, signed := true, a3 := false, session := none }, { bench .commission with sec := { Sec.reset with lifecycle := .enrolled, prodKey := pub1, slots := [slot 0 (be 48 1)] } }, be 48 1, arrives_of (by decide +kernel), by decide +kernel⟩⟩

/-- States and operands that meet the hypotheses of each part of LifecycleAndImageCommandsComplete. -/
theorem witness_LifecycleAndImageCommandsComplete :
    (∃ (dt : Nat) (q : Env) (pl : Bytes) (au : Auth) (s : State),
      Arrives cmdLifecycle dt q pl au s ∧ ((fun r s => fld r.payload 0 1 = s.sec.lifecycle.code + 1 ∧ fld r.payload 0 1 ≤ 4 ∧
      (s.sec.lifecycle.code = 1 → s.sec.cert.isSome = true ∧ metroCosigned s = true) ∧ allZero (slice r.payload 1 3) = true : Req → State → Prop) (requestOf cmdLifecycle q pl au) (elapse dt s))) ∧
    (∃ (dt : Nat) (q : Env) (pl : Bytes) (au : Auth) (s : State),
      Arrives cmdTamperRelease dt q pl au s ∧ ((fun r s => fld r.payload 0 4 = s.tamp.count.toNat ∧ allZero (slice r.payload 4 4) = true : Req → State → Prop) (requestOf cmdTamperRelease q pl au) (elapse dt s))) ∧
    (∃ (dt : Nat) (q : Env) (pl : Bytes) (au : Auth) (s : State) (old : Bytes),
      Arrives cmdImageStage dt q pl au s ∧ ((fun r s => ImageChunk s r.payload old ∧ (old ++ r.payload.drop 12).length < fld r.payload 8 4 : Req → State → Prop) (requestOf cmdImageStage q pl au) (elapse dt s))) ∧
    (∃ (dt : Nat) (q : Env) (pl : Bytes) (au : Auth) (s : State) (old : Bytes),
      Arrives cmdImageStage dt q pl au s ∧ ((fun r s => ImageChunk s r.payload old ∧ (old ++ r.payload.drop 12).length = fld r.payload 8 4 : Req → State → Prop) (requestOf cmdImageStage q pl au) (elapse dt s))) ∧
    (∃ (dt : Nat) (q : Env) (pl : Bytes) (au : Auth) (s : State),
      Arrives cmdImageActivate dt q pl au s ∧ ((fun r s => 1 ≤ fld r.payload 0 1 ∧ fld r.payload 0 1 ≤ 7 ∧ (imageOf s (fld r.payload 0 1)).stage = 3 ∧
      allZero (slice r.payload 1 3) = true ∧
      slotDigest (imageSlot (imageOf s (fld r.payload 0 1)) (!(imageOf s (fld r.payload 0 1)).running)) = slice r.payload 4 48 : Req → State → Prop) (requestOf cmdImageActivate q pl au) (elapse dt s))) :=
  ⟨⟨10, asked 0x1110 (4 :: zeros 3), 4 :: zeros 3, sessionAuth, { bench .safe with sec := { Sec.reset with lifecycle := .returned } }, arrives_of (by decide +kernel), by decide +kernel⟩,
    ⟨10, signed 9 0x1150 (le 4 2 ++ zeros 4), le 4 2 ++ zeros 4, { level := 3, keyId := 9, counter := 1, signed := true, a3 := true, session := none }, { bench .lockdown with sec := { Sec.reset with hostKeys := (Vector.replicate 32 none).set 0 (some ⟨9, 3, pub1⟩) }, tamp := { Tamp.reset with set_ := true, count := 2 } }, arrives_of (by decide +kernel), by decide +kernel⟩,
    ⟨10, asked 0x1120 ([1, 0, 0, 0] ++ le 4 0 ++ le 4 512 ++ [1, 2, 3]), [1, 0, 0, 0] ++ le 4 0 ++ le 4 512 ++ [1, 2, 3], sessionAuth, bench .service, [], arrives_of (by decide +kernel), by decide +kernel⟩,
    ⟨10, asked 0x1120 ([7, 0, 0, 0] ++ le 4 511 ++ le 4 512 ++ [1]), [7, 0, 0, 0] ++ le 4 511 ++ le 4 512 ++ [1], sessionAuth, { bench .service with sec := { Sec.reset with images := Vector.replicate 7 { ImageClass.reset with stage := 1, length := 512, received := zeros 511 } } }, zeros 511, arrives_of (by decide +kernel), by decide +kernel⟩,
    ⟨10, asked 0x1121 ([2, 0, 0, 0] ++ zeros 48), [2, 0, 0, 0] ++ zeros 48, sessionAuth, { bench .service with sec := { Sec.reset with images := Vector.replicate 7 { ImageClass.reset with stage := 3, slotB := .factory } } }, arrives_of (by decide +kernel), by decide +kernel⟩⟩

/-- States and operands that meet the hypotheses of each part of SolverCommandsComplete. -/
theorem witness_SolverCommandsComplete :
    (∃ (dt : Nat) (q : Env) (pl : Bytes) (s : State) (a : _),
      Arrives cmdJobSubmit dt q pl a s ∧ firstBad (jobChecks (elapse dt s) pl) = none) ∧
    (∃ (dt : Nat) (q : Env) (pl : Bytes) (s : State) (a : _),
      Arrives cmdTestWrite dt q pl a s ∧ Canonical s = true ∧ fld pl 0 4 + (pl.length - 8) ≤ testSize ∧ fld pl 4 4 = 0) ∧
    (∃ (dt : Nat) (q : Env) (pl : Bytes) (au : Auth) (s : State),
      Arrives cmdTestRead dt q pl au s ∧ ((fun r _ => fld r.payload 0 4 + fld r.payload 4 2 ≤ testSize ∧ 1 ≤ fld r.payload 4 2 ∧ fld r.payload 4 2 ≤ 4096 ∧
      fld r.payload 6 2 = 0 : Req → State → Prop) (requestOf cmdTestRead q pl au) (elapse dt s))) :=
  ⟨⟨10, asked 0x0301 (dotJob), dotJob, { bench .service with solv := { Solv.reset with test := testRegion } }, sessionAuth, arrives_of (by decide +kernel), by decide +kernel⟩,
    ⟨10, asked 0x0302 (le 4 (testSize - 2) ++ zeros 4 ++ [5, 0]), le 4 (testSize - 2) ++ zeros 4 ++ [5, 0], bench .service, sessionAuth, arrives_of (by decide +kernel), by decide +kernel⟩,
    ⟨10, asked 0x0303 (le 4 (testSize - 1) ++ le 2 1 ++ zeros 2), le 4 (testSize - 1) ++ le 2 1 ++ zeros 2, sessionAuth, bench .service, arrives_of (by decide +kernel), by decide +kernel⟩⟩

/-- States and operands that meet the hypotheses of each part of ModelCommandsComplete. -/
theorem witness_ModelCommandsComplete :
    (∃ (dt : Nat) (q : Env) (pl : Bytes) (au : Auth) (s : State),
      Arrives cmdModelLoad dt q pl au s ∧ ((fun r s => s.nmod.stage.code ≠ 2 ∧ s.nmod.stage.code ≠ 5 ∧ firstBad (chunkChecks s.nmod.stage 68 2693956 r.payload) = none ∧
      (chunkTake s.nmod.stage r.payload).code = 1 : Req → State → Prop) (requestOf cmdModelLoad q pl au) (elapse dt s))) ∧
    (∃ (dt : Nat) (q : Env) (pl : Bytes) (au : Auth) (s : State),
      Arrives cmdModelLoad dt q pl au s ∧ ((fun r s => s.nmod.stage.code ≠ 2 ∧ s.nmod.stage.code ≠ 5 ∧ firstBad (chunkChecks s.nmod.stage 68 2693956 r.payload) = none ∧
      (chunkTake s.nmod.stage r.payload).code = 2 : Req → State → Prop) (requestOf cmdModelLoad q pl au) (elapse dt s))) ∧
    (∃ (dt : Nat) (q : Env) (pl : Bytes) (au : Auth) (s : State) (m : Mizon),
      Arrives cmdModelActivate dt q pl au s ∧ ((fun r s => s.nmod.staged = some m ∧ (s.nmod.stage.code = 3 ∨ s.nmod.stage.code = 6) ∧ m.id = fld r.payload 0 4 ∧
      m.rev = fld r.payload 4 4 : Req → State → Prop) (requestOf cmdModelActivate q pl au) (elapse dt s))) ∧
    (∃ (dt : Nat) (q : Env) (pl : Bytes) (au : Auth) (s : State),
      Arrives cmdCalibGet dt q pl au s) ∧
    (∃ (dt : Nat) (q : Env) (pl : Bytes) (au : Auth) (s : State) (p : Bytes) (m : Mizon),
      Arrives cmdCalibAdopt dt q pl au s ∧ ((fun r s => s.nmod.proposals.head? = some p ∧ s.nmod.active = some m ∧ fld p 0 4 = fld r.payload 0 4 ∧ fld p 4 4 = m.id ∧
      fld p 8 4 = m.rev ∧ fld r.payload 4 4 = 0 ∧ s.nmod.stage.code ≠ 5 : Req → State → Prop) (requestOf cmdCalibAdopt q pl au) (elapse dt s))) :=
  ⟨⟨10, asked 0x0401 (le 4 0 ++ le 4 68 ++ le 4 1 ++ le 4 2 ++ [1, 2]), le 4 0 ++ le 4 68 ++ le 4 1 ++ le 4 2 ++ [1, 2], sessionAuth, bench .service, arrives_of (by decide +kernel), by decide +kernel⟩,
    ⟨10, asked 0x0401 (le 4 0 ++ le 4 68 ++ le 4 1 ++ le 4 2 ++ zeros 68), le 4 0 ++ le 4 68 ++ le 4 1 ++ le 4 2 ++ zeros 68, sessionAuth, bench .service, arrives_of (by decide +kernel), by decide +kernel⟩,
    ⟨10, asked 0x0402 (le 4 1 ++ le 4 2), le 4 1 ++ le 4 2, sessionAuth, { bench .run with nmod := { Nmod.reset with staged := some network, stage := { Stage.empty with code := 3 } } }, network, arrives_of (by decide +kernel), by decide +kernel⟩,
    ⟨10, open_ 3, [], nobody, bench .service, arrives_of (by decide +kernel)⟩,
    ⟨10, asked 0x0431 (le 4 4 ++ le 4 0 ++ zeros 128), le 4 4 ++ le 4 0 ++ zeros 128, sessionAuth, { bench .service with nmod := { Nmod.reset with proposals := [le 4 4 ++ le 4 1 ++ le 4 2 ++ zeros 20], active := some network } }, le 4 4 ++ le 4 1 ++ le 4 2 ++ zeros 20, network, arrives_of (by decide +kernel), by decide +kernel⟩⟩

/-- States and operands that meet the hypotheses of each part of RoundCommandsComplete. -/
theorem witness_RoundCommandsComplete :
    (∃ (dt : Nat) (q : Env) (pl : Bytes) (au : Auth) (s : State),
      Arrives cmdRoundConfig dt q pl au s ∧ ((fun r _ => r.payload = [] : Req → State → Prop) (requestOf cmdRoundConfig q pl au) (elapse dt s))) ∧
    (∃ (dt : Nat) (q : Env) (pl : Bytes) (au : Auth) (s : State),
      Arrives cmdRoundConfig dt q pl au s ∧ ((fun r s => r.payload ≠ [] ∧ firstBad (roundChecks r.payload s) = none : Req → State → Prop) (requestOf cmdRoundConfig q pl au) (elapse dt s))) ∧
    (∃ (dt : Nat) (q : Env) (pl : Bytes) (s : State) (a : _) (x : EstRes),
      Arrives cmdResultGet dt q pl a s ∧ fld pl 0 1 = 0 ∧ allZero (slice pl 2 6) = true ∧ ((fld pl 1 1 = 0 ∧ s.nmod.estResults.head? = some x) ∨
      (fld pl 1 1 = 1 ∧ s.nmod.estResults.find? (fun y => y.round == fld pl 8 8) = some x))) ∧
    (∃ (dt : Nat) (q : Env) (pl : Bytes) (s : State) (a : _) (x : OptRes),
      Arrives cmdResultGet dt q pl a s ∧ fld pl 0 1 = 1 ∧ allZero (slice pl 2 6) = true ∧ ((fld pl 1 1 = 0 ∧ s.nmod.optResults.head? = some x) ∨
      (fld pl 1 1 = 1 ∧ s.nmod.optResults.find? (fun y => y.start == fld pl 8 8) = some x))) ∧
    (∃ (dt : Nat) (q : Env) (pl : Bytes) (au : Auth) (s : State),
      Arrives cmdResultGet dt q pl au s ∧ ((fun r _ => fld r.payload 0 1 = 2 ∧ fld r.payload 1 1 ≤ 1 ∧ allZero (slice r.payload 2 6) = true : Req → State → Prop) (requestOf cmdResultGet q pl au) (elapse dt s))) ∧
    (∃ (dt : Nat) (q : Env) (pl : Bytes) (au : Auth) (s : State),
      Arrives cmdOptConfig dt q pl au s ∧ ((fun r _ => r.payload = [] : Req → State → Prop) (requestOf cmdOptConfig q pl au) (elapse dt s))) ∧
    (∃ (dt : Nat) (q : Env) (pl : Bytes) (au : Auth) (s : State),
      Arrives cmdOptConfig dt q pl au s ∧ ((fun r s => r.payload ≠ [] ∧ firstBad (optChecks r.payload s) = none : Req → State → Prop) (requestOf cmdOptConfig q pl au) (elapse dt s))) ∧
    (∃ (dt : Nat) (q : Env) (pl : Bytes) (au : Auth) (s : State),
      Arrives cmdForecastLoad dt q pl au s ∧ ((fun r s =>
      let n := fld r.payload 4 2
      1 ≤ fld r.payload 0 1 ∧ fld r.payload 0 1 ≤ 7 ∧
      ((mergeSeries s.nmod.forecasts s.nmod.forecastPend).filter fun x =>
        !(x.1 == fld r.payload 0 1 && x.2.1 == fld r.payload 2 2)).length < 256 ∧
      fld r.payload 1 1 = 0 ∧ (fld r.payload 0 1 = 1 ∨ fld r.payload 0 1 = 4 → fld r.payload 2 2 = 0) ∧
      1 ≤ n ∧ n ≤ 384 ∧ r.payload.length = 24 + 8 * n ∧ fld r.payload 6 2 = 0 ∧ fld r.payload 14 2 = 0 ∧
      fld r.payload 16 4 ∈ [300, 600, 900, 1800, 3600] ∧ fld r.payload 20 4 = 0 ∧
      (∀ k < n, fFinite f64 (fld r.payload (24 + 8 * k) 8) = true) : Req → State → Prop) (requestOf cmdForecastLoad q pl au) (elapse dt s))) :=
  ⟨⟨10, open_ 3, [], nobody, bench .service, arrives_of (by decide +kernel), by decide +kernel⟩,
    ⟨10, asked 0x0410 (roundDefault), roundDefault, sessionAuth, bench .service, arrives_of (by decide +kernel), by decide +kernel⟩,
    ⟨10, open_ 3, [0, 0] ++ zeros 14, { bench .run with nmod := { Nmod.reset with estResults := [estimate_] } }, nobody, estimate_, arrives_of (by decide +kernel), by decide +kernel⟩,
    ⟨10, open_ 3, [1, 0] ++ zeros 14, { bench .run with nmod := { Nmod.reset with optResults := [optimum] } }, nobody, optimum, arrives_of (by decide +kernel), by decide +kernel⟩,
    ⟨10, open_ 3, [2, 1] ++ zeros 14, nobody, bench .run, arrives_of (by decide +kernel), by decide +kernel⟩,
    ⟨10, open_ 3, [], nobody, bench .service, arrives_of (by decide +kernel), by decide +kernel⟩,
    ⟨10, asked 0x0420 (optDefault), optDefault, sessionAuth, bench .service, arrives_of (by decide +kernel), by decide +kernel⟩,
    ⟨10, asked 0x0421 ([7, 0] ++ le 2 5 ++ le 2 1 ++ zeros 2 ++ le 6 900 ++ zeros 2 ++ le 4 3600 ++ zeros 4 ++ le 8 0x3FF0000000000000), [7, 0] ++ le 2 5 ++ le 2 1 ++ zeros 2 ++ le 6 900 ++ zeros 2 ++ le 4 3600 ++ zeros 4 ++ le 8 0x3FF0000000000000, sessionAuth, bench .service, arrives_of (by decide +kernel), by decide +kernel⟩⟩

/-- States and operands that meet the hypotheses of each part of SubstationCommandsComplete. -/
theorem witness_SubstationCommandsComplete :
    (∃ (dt : Nat) (q : Env) (pl : Bytes) (au : Auth) (s : State),
      Arrives cmdSublRegister dt q pl au s ∧ ((fun r s => fld r.payload 0 2 < 2048 ∧ fld r.payload 3 1 < 2 ∧
      registered s (fld r.payload 0 2) = bit (fld r.payload 3 1) 0 ∧ allZero (slice r.payload 16 8) = true : Req → State → Prop) (requestOf cmdSublRegister q pl au) (elapse dt s))) ∧
    (∃ (dt : Nat) (q : Env) (pl : Bytes) (au : Auth) (s : State),
      Arrives cmdSublUnregister dt q pl au s ∧ ((fun r s => registered s (fld r.payload 0 2) = true ∧ allZero (slice r.payload 2 2) = true : Req → State → Prop) (requestOf cmdSublUnregister q pl au) (elapse dt s))) ∧
    (∃ (dt : Nat) (q : Env) (pl : Bytes) (au : Auth) (s : State) (x : SublEntry),
      Arrives cmdSublStatus dt q pl au s ∧ ((fun r s => sublEntry s (fld r.payload 0 2) = some x ∧ allZero (slice r.payload 2 2) = true : Req → State → Prop) (requestOf cmdSublStatus q pl au) (elapse dt s))) :=
  ⟨⟨10, asked 0x0501 (le 2 2047 ++ [1, 0] ++ le 4 9 ++ le 8 8 ++ zeros 8), le 2 2047 ++ [1, 0] ++ le 4 9 ++ le 8 8 ++ zeros 8, sessionAuth, bench .service, arrives_of (by decide +kernel), by decide +kernel⟩,
    ⟨10, asked 0x0502 (le 2 7 ++ zeros 2), le 2 7 ++ zeros 2, sessionAuth, { bench .service with subl := { Subl.reset with entries := [substation] } }, arrives_of (by decide +kernel), by decide +kernel⟩,
    ⟨10, open_ 3, le 2 7 ++ zeros 2, nobody, { bench .service with subl := { Subl.reset with entries := [substation] } }, substation, arrives_of (by decide +kernel), by decide +kernel⟩⟩

/-- States and operands that meet the hypotheses of each part of BlockImageCommandsComplete. -/
theorem witness_BlockImageCommandsComplete :
    (∃ (dt : Nat) (q : Env) (pl : Bytes) (au : Auth) (s : State),
      Arrives cmdCtrlImageLoad dt q pl au s ∧ ((fun r s => s.ctrl.stage.code ≠ 2 ∧ s.ctrl.stage.code ≠ 5 ∧ firstBad (chunkChecks s.ctrl.stage 64 1048576 r.payload) = none ∧
      (chunkTake s.ctrl.stage r.payload).code = 1 : Req → State → Prop) (requestOf cmdCtrlImageLoad q pl au) (elapse dt s))) ∧
    (∃ (dt : Nat) (q : Env) (pl : Bytes) (au : Auth) (s : State),
      Arrives cmdCtrlImageLoad dt q pl au s ∧ ((fun r s => s.ctrl.stage.code ≠ 2 ∧ s.ctrl.stage.code ≠ 5 ∧ firstBad (chunkChecks s.ctrl.stage 64 1048576 r.payload) = none ∧
      (chunkTake s.ctrl.stage r.payload).code = 2 : Req → State → Prop) (requestOf cmdCtrlImageLoad q pl au) (elapse dt s))) ∧
    (∃ (dt : Nat) (q : Env) (pl : Bytes) (au : Auth) (s : State) (b : BImg),
      Arrives cmdColdStart dt q pl au s ∧ ((fun r s => s.ctrl.staged = some b ∧ (s.ctrl.stage.code = 3 ∨ s.ctrl.stage.code = 6) ∧ b.id = fld r.payload 0 4 ∧
      b.rev = fld r.payload 4 4 : Req → State → Prop) (requestOf cmdColdStart q pl au) (elapse dt s))) ∧
    (∃ (dt : Nat) (q : Env) (pl : Bytes) (au : Auth) (s : State) (a : BImg) (b : BImg),
      Arrives cmdOnlineChange dt q pl au s ∧ ((fun r s => s.ctrl.running = some a ∧ s.ctrl.staged = some b ∧ (s.ctrl.stage.code = 3 ∨ s.ctrl.stage.code = 6) ∧
      b.id = fld r.payload 0 4 ∧ b.rev = fld r.payload 4 4 ∧ fld r.payload 8 1 < 4 ∧ allZero (slice r.payload 9 3) = true : Req → State → Prop) (requestOf cmdOnlineChange q pl au) (elapse dt s))) :=
  ⟨⟨10, asked 0x0601 (le 4 0 ++ le 4 64 ++ le 4 1 ++ le 4 2 ++ [1, 2]), le 4 0 ++ le 4 64 ++ le 4 1 ++ le 4 2 ++ [1, 2], sessionAuth, bench .service, arrives_of (by decide +kernel), by decide +kernel⟩,
    ⟨10, asked 0x0601 (le 4 0 ++ le 4 64 ++ le 4 1 ++ le 4 2 ++ zeros 64), le 4 0 ++ le 4 64 ++ le 4 1 ++ le 4 2 ++ zeros 64, sessionAuth, bench .service, arrives_of (by decide +kernel), by decide +kernel⟩,
    ⟨10, asked 0x0603 (le 4 1 ++ le 4 2), le 4 1 ++ le 4 2, sessionAuth, { (controlled .service) with ctrl := { (controlled .service).ctrl with staged := some image, stage := { Stage.empty with code := 6 } } }, image, arrives_of (by decide +kernel), by decide +kernel⟩,
    ⟨10, asked 0x0602 (le 4 1 ++ le 4 2 ++ [3, 0, 0, 0]), le 4 1 ++ le 4 2 ++ [3, 0, 0, 0], sessionAuth, { (controlled .service) with ctrl := { (controlled .service).ctrl with staged := some image, stage := { Stage.empty with code := 3 } } }, image, image, arrives_of (by decide +kernel), by decide +kernel⟩⟩

/-- States and operands that meet the hypotheses of each part of ForceAndTaskCommandsComplete. -/
theorem witness_ForceAndTaskCommandsComplete :
    (∃ (dt : Nat) (q : Env) (pl : Bytes) (au : Auth) (s : State) (b : BImg) (v : BVar),
      Arrives cmdForceSet dt q pl au s ∧ ((fun r s => s.ctrl.running = some b ∧ varOf b (fld r.payload 0 4) = some v ∧ v.dtype = fld r.payload 4 1 ∧
      ((∃ f ∈ s.ctrl.forces, f.var = fld r.payload 0 4) ∨ s.ctrl.forces.length < 256) ∧
      allZero (slice r.payload 5 3) = true ∧ forceValueOk (fld r.payload 4 1) (fld r.payload 8 8) = true : Req → State → Prop) (requestOf cmdForceSet q pl au) (elapse dt s))) ∧
    (∃ (dt : Nat) (q : Env) (pl : Bytes) (au : Auth) (s : State),
      Arrives cmdForceClear dt q pl au s ∧ ((fun r _ => allZero (slice r.payload 4 4) = true : Req → State → Prop) (requestOf cmdForceClear q pl au) (elapse dt s))) ∧
    (∃ (dt : Nat) (q : Env) (pl : Bytes) (au : Auth) (s : State),
      Arrives cmdForceList dt q pl au s) ∧
    (∃ (dt : Nat) (q : Env) (pl : Bytes) (au : Auth) (s : State) (d : BTask),
      Arrives cmdTaskControl dt q pl au s ∧ ((fun r s => fld r.payload 0 1 ≤ 1 ∧ taskDef s (fld r.payload 0 1) (fld r.payload 1 1) = some d ∧ fld r.payload 2 1 = 0 ∧
      allZero (slice r.payload 3 1) = true : Req → State → Prop) (requestOf cmdTaskControl q pl au) (elapse dt s))) ∧
    (∃ (dt : Nat) (q : Env) (pl : Bytes) (au : Auth) (s : State) (d : BTask),
      Arrives cmdTaskControl dt q pl au s ∧ ((fun r s => fld r.payload 0 1 ≤ 1 ∧ taskDef s (fld r.payload 0 1) (fld r.payload 1 1) = some d ∧ fld r.payload 2 1 = 1 ∧
      allZero (slice r.payload 3 1) = true : Req → State → Prop) (requestOf cmdTaskControl q pl au) (elapse dt s))) ∧
    (∃ (dt : Nat) (q : Env) (pl : Bytes) (au : Auth) (s : State),
      Arrives cmdTaskStatus dt q pl au s ∧ ((fun r s => fld r.payload 0 1 ≤ 1 ∧ fld r.payload 1 1 ≤ 15 ∧ allZero (slice r.payload 2 2) = true ∧
      taskSt s (fld r.payload 0 1) (fld r.payload 1 1) = none : Req → State → Prop) (requestOf cmdTaskStatus q pl au) (elapse dt s))) ∧
    (∃ (dt : Nat) (q : Env) (pl : Bytes) (au : Auth) (s : State) (x : TaskSt),
      Arrives cmdTaskStatus dt q pl au s ∧ ((fun r s => fld r.payload 0 1 ≤ 1 ∧ fld r.payload 1 1 ≤ 15 ∧ allZero (slice r.payload 2 2) = true ∧
      taskSt s (fld r.payload 0 1) (fld r.payload 1 1) = some x : Req → State → Prop) (requestOf cmdTaskStatus q pl au) (elapse dt s))) :=
  ⟨⟨10, asked 0x0610 (le 4 5 ++ [2] ++ zeros 3 ++ le 8 1), le 4 5 ++ [2] ++ zeros 3 ++ le 8 1, sessionAuth, controlled .service, image, ⟨0, 5, 0, 2, 0x300⟩, arrives_of (by decide +kernel), by decide +kernel⟩,
    ⟨10, asked 0x0611 (le 4 0xFFFFFFFF ++ zeros 4), le 4 0xFFFFFFFF ++ zeros 4, sessionAuth, { controlled .service with ctrl := { (controlled .service).ctrl with forces := [⟨5, 2, 7, 0, 1⟩] } }, arrives_of (by decide +kernel), by decide +kernel⟩,
    ⟨10, open_ 3, [], nobody, { controlled .service with ctrl := { (controlled .service).ctrl with forces := [⟨5, 2, 7, 0, 1⟩] } }, arrives_of (by decide +kernel)⟩,
    ⟨10, asked 0x0620 ([0, 0, 0, 0]), [0, 0, 0, 0], sessionAuth, controlled .service, image.tasks[0], arrives_of (by decide +kernel), by decide +kernel⟩,
    ⟨10, asked 0x0620 ([0, 0, 1, 0]), [0, 0, 1, 0], sessionAuth, controlled .service, image.tasks[0], arrives_of (by decide +kernel), by decide +kernel⟩,
    ⟨10, open_ 3, [1, 15, 0, 0], nobody, controlled .service, arrives_of (by decide +kernel), by decide +kernel⟩,
    ⟨10, open_ 3, [0, 0, 0, 0], nobody, controlled .service, TaskSt.fresh 0 0, arrives_of (by decide +kernel), by decide +kernel⟩⟩

/-- States and operands that meet the hypotheses of each part of MeteringAndValveCommandsComplete. -/
theorem witness_MeteringAndValveCommandsComplete :
    (∃ (dt : Nat) (q : Env) (pl : Bytes) (au : Auth) (s : State),
      Arrives cmdCalWindow dt q pl au s ∧ ((fun r s =>
      let k := fld r.payload 0 1
      let start := fld r.payload 8 6 * 1000000000 + fld r.payload 16 4
      k ≤ 3 ∧ melEnabled s k = true ∧ allZero (slice r.payload 1 7) = true ∧ ptpTotalNs s + 10000000 ≤ start ∧
        start ≤ ptpTotalNs s + 3600000000000 ∧ allZero (slice r.payload 14 2) = true ∧ fld r.payload 16 4 ≤ 999999999 ∧
        1000 ≤ fld r.payload 20 4 ∧ fld r.payload 20 4 ≤ 3600000 ∧ (melSys s k).cal = none : Req → State → Prop) (requestOf cmdCalWindow q pl au) (elapse dt s))) ∧
    (∃ (dt : Nat) (q : Env) (pl : Bytes) (au : Auth) (s : State),
      Arrives cmdBillRead dt q pl au s ∧ ((fun r _ => r.payload = zeros 8 : Req → State → Prop) (requestOf cmdBillRead q pl au) (elapse dt s))) ∧
    (∃ (dt : Nat) (q : Env) (pl : Bytes) (au : Auth) (s : State) (x : SaveRec),
      Arrives cmdBillRead dt q pl au s ∧ ((fun r s => r.payload = 1 :: zeros 7 ∧ chooseSlot s = some x : Req → State → Prop) (requestOf cmdBillRead q pl au) (elapse dt s))) ∧
    (∃ (dt : Nat) (q : Env) (pl : Bytes) (au : Auth) (s : State) (x : SaveRec),
      Arrives cmdBillRead dt q pl au s ∧ ((fun r s => r.payload = 2 :: zeros 7 ∧ s.bill.frozen = some x : Req → State → Prop) (requestOf cmdBillRead q pl au) (elapse dt s))) ∧
    (∃ (dt : Nat) (q : Env) (pl : Bytes) (au : Auth) (s : State) (c : Fin 16) (l : Fin 3) (x : _),
      Arrives cmdBillRead dt q pl au s ∧ ((fun r s => fld r.payload 0 1 = 3 ∧ fld r.payload 1 1 = c ∧ fld r.payload 2 1 = l ∧ fld r.payload 3 1 = 0 ∧
      ((s.mth.chans[c]).kept[l])[fld r.payload 4 4]? = some x : Req → State → Prop) (requestOf cmdBillRead q pl au) (elapse dt s))) ∧
    (∃ (dt : Nat) (q : Env) (pl : Bytes) (au : Auth) (s : State) (k : Fin 4) (l : Fin 3) (x : _),
      Arrives cmdBillRead dt q pl au s ∧ ((fun r s => fld r.payload 0 1 = 4 ∧ fld r.payload 1 1 = k ∧ fld r.payload 2 1 = l ∧ fld r.payload 3 1 = 0 ∧
      ((melSys s k).kept[l])[fld r.payload 4 4]? = some x : Req → State → Prop) (requestOf cmdBillRead q pl au) (elapse dt s))) ∧
    (∃ (dt : Nat) (q : Env) (pl : Bytes) (au : Auth) (s : State) (x : _),
      Arrives cmdBillRead dt q pl au s ∧ ((fun r s => r.payload.take 4 = 5 :: zeros 3 ∧ s.bill.gaps[fld r.payload 4 4]? = some x : Req → State → Prop) (requestOf cmdBillRead q pl au) (elapse dt s))) ∧
    (∃ (dt : Nat) (q : Env) (pl : Bytes) (au : Auth) (s : State),
      Arrives cmdBillRead dt q pl au s ∧ ((fun r _ => r.payload = 6 :: zeros 7 : Req → State → Prop) (requestOf cmdBillRead q pl au) (elapse dt s))) ∧
    (∃ (dt : Nat) (q : Env) (pl : Bytes) (au : Auth) (s : State),
      Arrives cmdVaxMove dt q pl au s ∧ ((fun r s =>
      let a := fld r.payload 0 1
      a ≤ 7 ∧ axisEnabled s a = true ∧ 1 ≤ fld r.payload 1 1 ∧ fld r.payload 1 1 ≤ 3 ∧ allZero (slice r.payload 2 2) = true ∧
        axisFree s a = true ∧ roleHeld s = true ∧ (axisOf s a).home = none ∧ (axisOf s a).host = none ∧
        (axisOf s a).stallLatched = false ∧ (axisOf s a).driveFault = false : Req → State → Prop) (requestOf cmdVaxMove q pl au) (elapse dt s))) ∧
    (∃ (dt : Nat) (q : Env) (pl : Bytes) (au : Auth) (s : State),
      Arrives cmdVaxMove dt q pl au s ∧ ((fun r s =>
      let a := fld r.payload 0 1
      a ≤ 7 ∧ axisEnabled s a = true ∧ fld r.payload 1 1 = 0 ∧ allZero (slice r.payload 2 2) = true ∧ fld r.payload 4 4 = 0 ∧
        axisFree s a = true ∧ roleHeld s = true ∧ (axisOf s a).home = none ∧ (axisOf s a).host = none : Req → State → Prop) (requestOf cmdVaxMove q pl au) (elapse dt s))) ∧
    (∃ (dt : Nat) (q : Env) (pl : Bytes) (au : Auth) (s : State),
      Arrives cmdVaxHome dt q pl au s ∧ ((fun r s =>
      let a := fld r.payload 0 1
      a ≤ 7 ∧ axisEnabled s a = true ∧ allZero (slice r.payload 1 3) = true ∧ axisFree s a = true ∧ roleHeld s = true ∧
        (axisOf s a).home = none ∧ (axisOf s a).host = none ∧
        (startHoming s a (axisOf s a).homeReq { axisOf s a with nextGoal := some Goal.stop, goal := Goal.stop }).home ≠ none : Req → State → Prop) (requestOf cmdVaxHome q pl au) (elapse dt s))) ∧
    (∃ (dt : Nat) (q : Env) (pl : Bytes) (au : Auth) (s : State),
      Arrives cmdVaxStatus dt q pl au s ∧ ((fun r _ => fld r.payload 0 1 ≤ 7 ∧ allZero (slice r.payload 1 3) = true : Req → State → Prop) (requestOf cmdVaxStatus q pl au) (elapse dt s))) :=
  ⟨⟨10, asked 0x0810 (3 :: zeros 7 ++ le 6 1 ++ zeros 2 ++ le 4 0 ++ le 4 1000), 3 :: zeros 7 ++ le 6 1 ++ zeros 2 ++ le 4 0 ++ le 4 1000, sessionAuth, { bench .service with cfg := [(0x0858, 0x8000)] }, arrives_of (by decide +kernel), by decide +kernel⟩,
    ⟨10, open_ 3, zeros 8, nobody, bench .run, arrives_of (by decide +kernel), by decide +kernel⟩,
    ⟨10, open_ 3, 1 :: zeros 7, nobody, { bench .run with bill := { Bill.reset with ring := Bill.reset.ring.set 5 (some { rec_ := { SaveRec.empty with seq := 5 }, intact := true }) } }, { SaveRec.empty with seq := 5 }, arrives_of (by decide +kernel), by decide +kernel⟩,
    ⟨10, open_ 3, 2 :: zeros 7, nobody, { bench .run with bill := { Bill.reset with frozen := some { SaveRec.empty with seq := 5 } } }, { SaveRec.empty with seq := 5 }, arrives_of (by decide +kernel), by decide +kernel⟩,
    ⟨10, open_ 3, [3, 15, 2] ++ zeros 5, nobody, { bench .run with mth := { Mth.reset with chans := Mth.reset.chans.set 15 { MthChan.reset with kept := (MthChan.reset.kept.set 2 [{ seq := 1, flags := 0, start := 0, stop := 900, dirChanges := 0, lifecycle := 2, fwdE := 1, fwdV := 2, revE := 0, revV := 0, wrongE := 0, faultS := 0, rangeS := 0, meanA := 5, meanB := 6 }]) } } }, 15, 2, ({ seq := 1, flags := 0, start := 0, stop := 900, dirChanges := 0, lifecycle := 2, fwdE := 1, fwdV := 2, revE := 0, revV := 0, wrongE := 0, faultS := 0, rangeS := 0, meanA := 5, meanB := 6 } : ThermInt), arrives_of (by decide +kernel), by decide +kernel⟩,
    ⟨10, open_ 3, [4, 3, 0] ++ zeros 5, nobody, { bench .run with mel := { Mel.reset with systems := Mel.reset.systems.set 3 { MelSys.reset with kept := (MelSys.reset.kept.set 0 [{ seq := 1, flags := 0, start := 0, stop := 900, lifecycle := 2, regs := [1], exportCycles := 0, cycles := 9, faultS := 0, qualityS := 0 }]) } } }, 3, 0, ({ seq := 1, flags := 0, start := 0, stop := 900, lifecycle := 2, regs := [1], exportCycles := 0, cycles := 9, faultS := 0, qualityS := 0 } : ElecInt), arrives_of (by decide +kernel), by decide +kernel⟩,
    ⟨10, open_ 3, 5 :: zeros 7, nobody, { bench .run with bill := { Bill.reset with gaps := [{ seq := 1, cause := 1, flags := 0, recSeq := 3, saveAt := ⟨1, 2⟩, durationUs := 4, stopAt := ⟨2, 0⟩, estT := Vector.replicate 16 0, estE := Vector.replicate 4 0 }] } }, ({ seq := 1, cause := 1, flags := 0, recSeq := 3, saveAt := ⟨1, 2⟩, durationUs := 4, stopAt := ⟨2, 0⟩, estT := Vector.replicate 16 0, estE := Vector.replicate 4 0 } : GapRec), arrives_of (by decide +kernel), by decide +kernel⟩,
    ⟨10, open_ 3, 6 :: zeros 7, nobody, bench .run, arrives_of (by decide +kernel), by decide +kernel⟩,
    ⟨10, asked 0x0B01 ([0, 3, 0, 0] ++ zeros 16), [0, 3, 0, 0] ++ zeros 16, sessionAuth, { bench .service with cfg := [(0x0B10, 0x1000)] }, arrives_of (by decide +kernel), by decide +kernel⟩,
    ⟨10, asked 0x0B01 ([0, 0, 0, 0] ++ zeros 16), [0, 0, 0, 0] ++ zeros 16, sessionAuth, { bench .service with cfg := [(0x0B10, 0x1000)] }, arrives_of (by decide +kernel), by decide +kernel⟩,
    ⟨10, asked 0x0B02 ([0, 0, 0, 0]), [0, 0, 0, 0], sessionAuth, { bench .service with cfg := [(0x0B10, 0x1000), (0x0B1C, 0x4000FFFF)] }, arrives_of (by decide +kernel), by decide +kernel⟩,
    ⟨10, open_ 3, [7, 0, 0, 0], nobody, bench .run, arrives_of (by decide +kernel), by decide +kernel⟩⟩

/-- States and operands that meet the hypotheses of each part of TimeCommandsComplete. -/
theorem witness_TimeCommandsComplete :
    (∃ (dt : Nat) (q : Env) (pl : Bytes) (au : Auth) (s : State),
      Arrives cmdTimeSet dt q pl au s ∧ ((fun r s => fld r.payload 0 1 = 0 ∧ fld r.payload 1 1 = 0 ∧ 946684800 ≤ fld r.payload 2 6 ∧
      fld r.payload 2 6 < 13569465600 ∧ fld r.payload 8 4 ≤ 999999999 ∧ s.time.servo ≠ .acquiring ∧ servoLocked s = false : Req → State → Prop) (requestOf cmdTimeSet q pl au) (elapse dt s))) ∧
    (∃ (dt : Nat) (q : Env) (pl : Bytes) (au : Auth) (s : State),
      Arrives cmdTimeSet dt q pl au s ∧ ((fun r s => fld r.payload 0 1 = 1 ∧ fld r.payload 1 1 = 0 ∧ 946684800 ≤ fld r.payload 2 6 ∧
      fld r.payload 2 6 < 13569465600 ∧ fld r.payload 8 4 = 0 ∧ s.time.servo ≠ .acquiring ∧ servoLocked s = false : Req → State → Prop) (requestOf cmdTimeSet q pl au) (elapse dt s))) ∧
    (∃ (dt : Nat) (q : Env) (pl : Bytes) (au : Auth) (s : State),
      Arrives cmdTriggerSet dt q pl au s ∧ ((fun r s =>
      let start := fld r.payload 8 6 * 1000000000 + fld r.payload 16 4
      fld r.payload 0 1 ≤ 7 ∧ fld r.payload 1 1 = 1 ∧ fld r.payload 2 1 ≤ 3 ∧ fld r.payload 3 1 = 0 ∧ fld r.payload 4 4 = 0 ∧
        ptpTotalNs s + 10000 ≤ start ∧ fld r.payload 14 2 = 0 ∧ fld r.payload 16 4 ≤ 999999999 ∧ fld r.payload 20 4 = 0 ∧
        fld r.payload 24 8 = 0 ∧ 4 ≤ fld r.payload 32 8 ∧ fld r.payload 32 8 ≤ 86400000000000 : Req → State → Prop) (requestOf cmdTriggerSet q pl au) (elapse dt s))) ∧
    (∃ (dt : Nat) (q : Env) (pl : Bytes) (au : Auth) (s : State),
      Arrives cmdTriggerSet dt q pl au s ∧ ((fun r _ =>
      fld r.payload 0 1 ≤ 7 ∧ fld r.payload 1 1 = 2 ∧ fld r.payload 2 1 ≤ 3 ∧ fld r.payload 3 1 = 0 ∧ fld r.payload 14 2 = 0 ∧
        fld r.payload 16 4 ≤ 999999999 ∧ fld r.payload 20 4 = 0 ∧ 1000 ≤ fld r.payload 24 8 ∧
        fld r.payload 24 8 ≤ 3600000000000 ∧ 4 ≤ fld r.payload 32 8 ∧ fld r.payload 32 8 + 4 ≤ fld r.payload 24 8 : Req → State → Prop) (requestOf cmdTriggerSet q pl au) (elapse dt s))) ∧
    (∃ (dt : Nat) (q : Env) (pl : Bytes) (au : Auth) (s : State),
      Arrives cmdTriggerSet dt q pl au s ∧ ((fun r _ =>
      fld r.payload 0 1 ≤ 7 ∧ fld r.payload 1 1 = 0 ∧ fld r.payload 2 1 ≤ 3 ∧ fld r.payload 3 1 = 0 ∧ fld r.payload 4 4 = 0 ∧
        fld r.payload 14 2 = 0 ∧ fld r.payload 16 4 ≤ 999999999 ∧ fld r.payload 20 4 = 0 ∧ fld r.payload 24 8 = 0 : Req → State → Prop) (requestOf cmdTriggerSet q pl au) (elapse dt s))) ∧
    (∃ (dt : Nat) (q : Env) (pl : Bytes) (au : Auth) (s : State),
      Arrives cmdCaptureGet dt q pl au s) :=
  ⟨⟨10, asked 0x0D01 ([0, 0] ++ le 6 13569465599 ++ le 4 999999999), [0, 0] ++ le 6 13569465599 ++ le 4 999999999, sessionAuth, bench .service, arrives_of (by decide +kernel), by decide +kernel⟩,
    ⟨10, asked 0x0D01 ([1, 0] ++ le 6 946684800 ++ le 4 0), [1, 0] ++ le 6 946684800 ++ le 4 0, sessionAuth, bench .service, arrives_of (by decide +kernel), by decide +kernel⟩,
    ⟨10, asked 0x0D10 ([7, 1, 3, 0] ++ zeros 4 ++ le 6 1 ++ zeros 2 ++ zeros 16 ++ le 8 4), [7, 1, 3, 0] ++ zeros 4 ++ le 6 1 ++ zeros 2 ++ zeros 16 ++ le 8 4, sessionAuth, bench .service, arrives_of (by decide +kernel), by decide +kernel⟩,
    ⟨10, asked 0x0D10 ([7, 2, 3, 0] ++ le 4 5 ++ le 6 1 ++ zeros 2 ++ zeros 8 ++ le 8 1000 ++ le 8 996), [7, 2, 3, 0] ++ le 4 5 ++ le 6 1 ++ zeros 2 ++ zeros 8 ++ le 8 1000 ++ le 8 996, sessionAuth, bench .service, arrives_of (by decide +kernel), by decide +kernel⟩,
    ⟨10, asked 0x0D10 ([0, 0, 1, 0] ++ zeros 36), [0, 0, 1, 0] ++ zeros 36, sessionAuth, bench .service, arrives_of (by decide +kernel), by decide +kernel⟩,
    ⟨10, open_ 3, [], nobody, bench .run, arrives_of (by decide +kernel)⟩⟩

/-- States and operands that meet the hypotheses of each part of CalendarAndPanelCommandsComplete. -/
theorem witness_CalendarAndPanelCommandsComplete :
    (∃ (dt : Nat) (q : Env) (pl : Bytes) (au : Auth) (s : State),
      Arrives cmdRtcSet dt q pl au s ∧ ((fun r s =>
      2000 ≤ fld r.payload 0 2 ∧ fld r.payload 0 2 ≤ 2399 ∧ 1 ≤ fld r.payload 2 1 ∧ fld r.payload 2 1 ≤ 12 ∧
        1 ≤ fld r.payload 3 1 ∧ fld r.payload 3 1 ≤ monthDays (fld r.payload 0 2) (fld r.payload 2 1) ∧
        fld r.payload 4 1 ≤ 23 ∧ fld r.payload 5 1 ≤ 59 ∧ fld r.payload 6 1 ≤ 59 ∧ fld r.payload 7 1 ≤ 1 ∧
        servoLocked s = false ∧ s.rtc.dstPending = none : Req → State → Prop) (requestOf cmdRtcSet q pl au) (elapse dt s))) ∧
    (∃ (dt : Nat) (q : Env) (pl : Bytes) (au : Auth) (s : State),
      Arrives cmdDstAdjust dt q pl au s ∧ ((fun r s => fld r.payload 0 1 = 1 ∧ s.rtc.dst = false ∧ (s.rtc.cal + 1) % cycleSec + 3600 < cycleSec ∧
      allZero (slice r.payload 1 3) = true ∧ s.rtc.dstPending = none : Req → State → Prop) (requestOf cmdDstAdjust q pl au) (elapse dt s))) ∧
    (∃ (dt : Nat) (q : Env) (pl : Bytes) (au : Auth) (s : State),
      Arrives cmdDstAdjust dt q pl au s ∧ ((fun r s => fld r.payload 0 1 = 2 ∧ s.rtc.dst = true ∧ 3600 ≤ (s.rtc.cal + 1) % cycleSec ∧
      allZero (slice r.payload 1 3) = true ∧ s.rtc.dstPending = none : Req → State → Prop) (requestOf cmdDstAdjust q pl au) (elapse dt s))) ∧
    (∃ (dt : Nat) (q : Env) (pl : Bytes) (au : Auth) (s : State),
      Arrives cmdAlarmSet dt q pl au s ∧ ((fun r _ =>
      let mask := fld r.payload 2 1
      let p := r.payload
      fld p 0 1 ≤ 1 ∧ fld p 1 1 ≤ 3 ∧ mask ≤ 0x3F ∧ ¬(bit (fld p 1 1) 0 = true ∧ mask = 0x3F) ∧
        alarmFieldOk p 3 0 0 59 = true ∧ alarmFieldOk p 4 1 0 59 = true ∧ alarmFieldOk p 5 2 0 23 = true ∧
        alarmFieldOk p 6 3 1 31 = true ∧ alarmFieldOk p 7 4 1 12 = true ∧ alarmFieldOk p 8 5 1 7 = true ∧
        (bit mask 3 = false → bit mask 4 = false → fld p 6 1 ≤ monthDays 2000 (fld p 7 1)) ∧ allZero (slice p 9 3) = true : Req → State → Prop) (requestOf cmdAlarmSet q pl au) (elapse dt s))) ∧
    (∃ (dt : Nat) (q : Env) (pl : Bytes) (au : Auth) (s : State),
      Arrives cmdEpdDraw dt q pl au s ∧ ((fun r s =>
      panelOn s = true ∧ 2 ≤ fld r.payload 0 1 ∧ fld r.payload 0 1 ≤ 15 ∧ bits (fld r.payload 1 1) 2 1 ≠ 0 ∧
        fld r.payload 1 1 < 8 ∧ bit (fld r.payload 1 1) 0 = false ∧ fld r.payload 2 2 = 0 ∧ fld r.payload 12 4 = 0 ∧
        fld r.payload 8 2 % 2 = 0 ∧ fld r.payload 8 2 ≠ 0 ∧ fld r.payload 10 2 ≠ 0 ∧
        fld r.payload 4 2 + fld r.payload 8 2 ≤ panelWidth s ∧ panelHeight s / 8 * 2 ≤ fld r.payload 6 2 ∧
        fld r.payload 6 2 + fld r.payload 10 2 ≤ panelHeight s ∧
        (r.payload.drop 16).length = fld r.payload 8 2 * fld r.payload 10 2 / 2 : Req → State → Prop) (requestOf cmdEpdDraw q pl au) (elapse dt s))) ∧
    (∃ (dt : Nat) (q : Env) (pl : Bytes) (au : Auth) (s : State),
      Arrives cmdEpdDraw dt q pl au s ∧ ((fun r s =>
      panelOn s = true ∧ 2 ≤ fld r.payload 0 1 ∧ fld r.payload 0 1 ≤ 15 ∧ bits (fld r.payload 1 1) 2 1 ≠ 0 ∧
        fld r.payload 1 1 < 8 ∧ bit (fld r.payload 1 1) 0 = true ∧ fld r.payload 2 2 = 0 ∧ fld r.payload 12 4 = 0 ∧
        fld r.payload 8 2 % 2 = 0 ∧ fld r.payload 8 2 ≠ 0 ∧ fld r.payload 10 2 ≠ 0 ∧
        fld r.payload 4 2 + fld r.payload 8 2 ≤ panelWidth s ∧ panelHeight s / 8 * 2 ≤ fld r.payload 6 2 ∧
        fld r.payload 6 2 + fld r.payload 10 2 ≤ panelHeight s ∧
        ((r.payload.drop 16).length = fld r.payload 8 2 * fld r.payload 10 2 / 2 ∨ r.payload.drop 16 = []) : Req → State → Prop) (requestOf cmdEpdDraw q pl au) (elapse dt s))) :=
  ⟨⟨10, asked 0x0E01 (le 2 2000 ++ [2, 29, 23, 59, 59, 1]), le 2 2000 ++ [2, 29, 23, 59, 59, 1], sessionAuth, bench .service, arrives_of (by decide +kernel), by decide +kernel⟩,
    ⟨10, asked 0x0E02 ([1, 0, 0, 0]), [1, 0, 0, 0], sessionAuth, bench .service, arrives_of (by decide +kernel), by decide +kernel⟩,
    ⟨10, asked 0x0E02 ([2, 0, 0, 0]), [2, 0, 0, 0], sessionAuth, { bench .service with rtc := { Rtc.reset with dst := true, cal := 3599 } }, arrives_of (by decide +kernel), by decide +kernel⟩,
    ⟨10, asked 0x0E03 ([1, 3, 0x38, 59, 59, 23] ++ zeros 6), [1, 3, 0x38, 59, 59, 23] ++ zeros 6, sessionAuth, bench .service, arrives_of (by decide +kernel), by decide +kernel⟩,
    ⟨10, asked 0x0F01 ([15, 2, 0, 0] ++ le 2 8 ++ le 2 400 ++ le 2 2 ++ le 2 2 ++ zeros 4 ++ [1, 2]), [15, 2, 0, 0] ++ le 2 8 ++ le 2 400 ++ le 2 2 ++ le 2 2 ++ zeros 4 ++ [1, 2], sessionAuth, { bench .service with cfg := [(0x0F10, 480 * 2 ^ 20 + 800 * 256)] }, arrives_of (by decide +kernel), by decide +kernel⟩,
    ⟨10, asked 0x0F01 ([15, 3, 0, 0] ++ le 2 8 ++ le 2 400 ++ le 2 2 ++ le 2 2 ++ zeros 4 ++ [1, 2]), [15, 3, 0, 0] ++ le 2 8 ++ le 2 400 ++ le 2 2 ++ le 2 2 ++ zeros 4 ++ [1, 2], sessionAuth, { bench .service with cfg := [(0x0F10, 480 * 2 ^ 20 + 800 * 256)] }, arrives_of (by decide +kernel), by decide +kernel⟩⟩

/-- States and operands that meet the hypotheses of each part of RecorderCommandsComplete. -/
theorem witness_RecorderCommandsComplete :
    (∃ (dt : Nat) (q : Env) (pl : Bytes) (au : Auth) (s : State),
      Arrives cmdEvrRead dt q pl au s ∧ ((fun r _ => fld r.payload 0 1 = 0 ∧ fld r.payload 1 1 = 0 ∧ 1 ≤ fld r.payload 2 2 ∧ fld r.payload 2 2 ≤ 84 ∧
      fld r.payload 4 4 = 0 : Req → State → Prop) (requestOf cmdEvrRead q pl au) (elapse dt s))) ∧
    (∃ (dt : Nat) (q : Env) (pl : Bytes) (au : Auth) (s : State),
      Arrives cmdEvrRead dt q pl au s ∧ ((fun r _ => fld r.payload 0 1 = 2 ∧ fld r.payload 1 1 = 0 ∧ 1 ≤ fld r.payload 2 2 ∧ fld r.payload 2 2 ≤ 63 ∧
      fld r.payload 4 4 = 0 : Req → State → Prop) (requestOf cmdEvrRead q pl au) (elapse dt s))) ∧
    (∃ (dt : Nat) (q : Env) (pl : Bytes) (au : Auth) (s : State),
      Arrives cmdEvrRead dt q pl au s ∧ ((fun r _ => fld r.payload 0 1 = 1 ∧ fld r.payload 1 1 = 0 ∧ 1 ≤ fld r.payload 2 2 ∧ fld r.payload 2 2 ≤ 63 ∧
      fld r.payload 4 4 = 0 : Req → State → Prop) (requestOf cmdEvrRead q pl au) (elapse dt s))) ∧
    (∃ (dt : Nat) (q : Env) (pl : Bytes) (au : Auth) (s : State) (x : _),
      Arrives cmdEvrRead dt q pl au s ∧ ((fun r s => fld r.payload 0 1 = 3 ∧ fld r.payload 1 1 ≤ 31 ∧ fld r.payload 2 2 = 0 ∧ fld r.payload 8 8 ≤ 1 ∧
      periodAt s (fld r.payload 1 1) (fld r.payload 4 4) (fld r.payload 8 8) = some x : Req → State → Prop) (requestOf cmdEvrRead q pl au) (elapse dt s))) ∧
    (∃ (dt : Nat) (q : Env) (pl : Bytes) (au : Auth) (s : State),
      Arrives cmdEvrRead dt q pl au s ∧ ((fun r _ => fld r.payload 0 1 = 4 ∧ fld r.payload 1 1 = 0 ∧ fld r.payload 2 2 = 0 ∧ fld r.payload 4 4 < 65536 ∧
      (eventClass (fld r.payload 4 4)).isSome = true ∧ fld r.payload 8 8 = 0 : Req → State → Prop) (requestOf cmdEvrRead q pl au) (elapse dt s))) ∧
    (∃ (dt : Nat) (q : Env) (pl : Bytes) (au : Auth) (s : State),
      Arrives cmdEvrClear dt q pl au s ∧ ((fun r _ => fld r.payload 0 1 ≠ 0 ∧ fld r.payload 0 1 ≤ 3 ∧ allZero (slice r.payload 1 3) = true : Req → State → Prop) (requestOf cmdEvrClear q pl au) (elapse dt s))) :=
  ⟨⟨10, open_ 3, [0, 0] ++ le 2 84 ++ zeros 12, nobody, bench .run, arrives_of (by decide +kernel), by decide +kernel⟩,
    ⟨10, asked 0x1001 ([2, 0] ++ le 2 63 ++ zeros 12), [2, 0] ++ le 2 63 ++ zeros 12, sessionAuth, bench .service, arrives_of (by decide +kernel), by decide +kernel⟩,
    ⟨10, open_ 3, [1, 0] ++ le 2 63 ++ zeros 12, nobody, bench .run, arrives_of (by decide +kernel), by decide +kernel⟩,
    ⟨10, open_ 3, [3, 31] ++ zeros 6 ++ le 8 1, nobody, { bench .run with evr := { Evr.reset with channels := Evr.reset.channels.set 31 { RecChan.reset with days := [Period.empty] } } }, Period.empty, arrives_of (by decide +kernel), by decide +kernel⟩,
    ⟨10, open_ 3, [4, 0] ++ le 2 0 ++ le 4 0x0E01 ++ zeros 8, nobody, bench .run, arrives_of (by decide +kernel), by decide +kernel⟩,
    ⟨10, asked 0x1002 ([3, 0, 0, 0]), [3, 0, 0, 0], sessionAuth, bench .service, arrives_of (by decide +kernel), by decide +kernel⟩⟩

/-- States and operands that meet the hypotheses of each part of PacketsParseBack. -/
theorem witness_PacketsParseBack :
    ∃ (pl : Bytes) (op : Nat),
      op < 65536 ∧ pl.length < 65536 :=
  ⟨[1], 0xFFFF, by decide +kernel⟩

/-- States and operands that meet the hypotheses of each part of TransportsDeliverPackets. -/
theorem witness_TransportsDeliverPackets :
    (∃ (q : Env) (c : _) (v : VestibuleErr),
      q.tr = .xspi ∧ q.srcIp = 0 ∧ q.srcPort = 0 ∧ cmdOf c.op = some c ∧ v.err = .none) ∧
    (∃ (dt : Nat) (q : Env) (s : State) (c : _) (vlan : Nat) (port : W16) (v : VestibuleErr),
      q.tr = .udp ∧ cmdOf c.op = some c ∧ vlan = getP (elapse dt s) 0x0213 ∧ port.toNat = getP (elapse dt s) 0x0211 ∧ v.err = .none) ∧
    (∃ (q : Env) (pl : Bytes) (s : State) (c : _) (ident : W16) (vlan : Nat) (port : W16) (n : Nat) (v : VestibuleErr),
      q.tr = .udp ∧ cmdOf c.op = some c ∧ Quiet s ∧ hostOpen s = true ∧ vlan = getP s 0x0213 ∧ port.toNat = getP s 0x0211 ∧ v.err = .none ∧ 0 < n ∧ n < (envPkt c.op q pl).size ∧ (envPkt c.op q pl).size ≤ 4268 ∧ s.hif.frags = [⟨q.srcIp.toNat, q.srcPort.toNat, ident.toNat, [(0, (envPkt c.op q pl).bytes.take n)], none⟩]) ∧
    (∃ (q : Env) (c : _) (v : VestibuleErr),
      q.tr = .uart ∧ q.srcIp = 0 ∧ q.srcPort = 0 ∧ cmdOf c.op = some c ∧ v.err = .none) :=
  ⟨⟨open_ 3, cmdSysStatus, (⟨.none, 0⟩ : VestibuleErr), by decide +kernel, by decide +kernel, by decide +kernel, rfl, by decide +kernel⟩,
    ⟨10, { open_ 240 with tr := .udp }, bench .run, cmdSysStatus, getP (bench .run) 0x0213, BitVec.ofNat 16 (getP (bench .run) 0x0211), (⟨.none, 0⟩ : VestibuleErr), by decide +kernel, rfl, by decide +kernel, by decide +kernel, by decide +kernel⟩,
    ⟨{ open_ 240 with tr := .udp, srcIp := 1, srcPort := 2 }, [], { bench .run with hif := { (bench .run).hif with frags := [⟨1, 2, 7, [(0, (envPkt 0x0101 { open_ 240 with tr := .udp, srcIp := 1, srcPort := 2 } []).bytes.take 8)], none⟩] } }, cmdSysStatus, (7 : W16), getP (bench .run) 0x0213, BitVec.ofNat 16 (getP (bench .run) 0x0211), 8, (⟨.none, 0⟩ : VestibuleErr), by decide +kernel, rfl, by decide +kernel, by decide +kernel, by decide +kernel, by decide +kernel, by decide +kernel, by decide +kernel, by decide +kernel, by decide +kernel, by decide +kernel⟩,
    ⟨{ open_ 250 with tr := .uart }, cmdSysStatus, (⟨.none, 0⟩ : VestibuleErr), by decide +kernel, by decide +kernel, by decide +kernel, rfl, by decide +kernel⟩⟩

/-- States and operands that meet the hypotheses of each part of TransportEventsComplete. -/
theorem witness_TransportEventsComplete :
    (∃ (s : State) (raw : _) (v : VestibuleErr),
      Quiet s ∧ hostOpen s = true ∧ rxReady s = true ∧ crcOk raw = false ∧ v.err = .none ∧ 16 ≤ raw.length ∧ raw.length ≤ 4268 ∧ bit (hdrOf raw).verFlags 2 = false) ∧
    (∃ (s : State) (f : UdpFrag),
      Quiet s ∧ hostOpen s = true ∧ f.unicast = true ∧ f.vlan = getP s 0x0213 ∧ f.dstPort.toNat = getP s 0x0211 ∧ f.more = true ∧ f.offset + f.data.length ≤ 4268 ∧ s.hif.frags.length < 4 ∧ (∀ r ∈ s.hif.frags, r.srcIp ≠ f.srcIp.toNat ∨ r.ident ≠ f.ident.toNat)) ∧
    (∃ (s : State) (ip : W32) (ident : W16),
      Quiet s ∧ (∃ r ∈ s.hif.frags, r.srcIp = ip.toNat ∧ r.ident = ident.toNat)) ∧
    (∃ (dt : Nat) (s : State) (n : _) (r : _) (rest : _),
      Quiet s ∧ s.sys.inReset = false ∧ s.sys.mode ≠ .backup ∧ s.hif.xspiQ = r :: rest ∧ s.hif.baudPending = none ∧ (replyBytes (elapse dt s) r).length ≤ n) ∧
    (∃ (dt : Nat) (s : State) (n : _) (r : _) (rest : _),
      Quiet s ∧ s.sys.inReset = false ∧ s.sys.mode ≠ .backup ∧ s.hif.xspiQ = r :: rest ∧ n < (replyBytes (elapse dt s) r).length) ∧
    (∃ (s : State),
      Quiet s ∧ s.sys.inReset = false ∧ s.sys.mode ≠ .backup ∧ s.hif.xspiQ = []) ∧
    (∃ (s : State),
      Quiet s ∧ s.sys.inReset = false ∧ s.sys.mode ≠ .backup) ∧
    (∃ (s : State),
      Quiet s) ∧
    (∃ (dt : Nat) (s : State) (tr : _) (x : Session),
      Quiet s ∧ (linkOf s tr).session = some x ∧ x.last + getP s 0x0215 * 1000000 ≤ monoUs (elapse dt s)) ∧
    (∃ (s : State) (r : _) (rest : _),
      Quiet s ∧ s.hif.uartQ = r :: rest ∧ s.hif.baudPending = none) ∧
    (∃ (s : State) (r : _) (rest : _) (v : _) (p : PendingValue),
      Quiet s ∧ Canonical s = true ∧ s.hif.uartQ = r :: rest ∧ s.hif.baudPending = some (.uart, r.seq, v) ∧ r.org.tr = .uart ∧ pendingOf s 0x0214 = some p) :=
  ⟨⟨bench .run, zeros 20, (⟨.none, 0⟩ : VestibuleErr), by decide +kernel⟩,
    ⟨bench .run, { srcIp := 1, srcPort := 2, ident := 7, offset := 4266, more := true, checksumOk := true, unicast := true, vlan := getP (bench .run) 0x0213, dstPort := BitVec.ofNat 16 (getP (bench .run) 0x0211), data := [1, 2] }, by decide +kernel⟩,
    ⟨{ bench .run with hif := { (bench .run).hif with frags := [⟨1, 2, 7, [(0, [1])], none⟩] } }, 1, 7, by decide +kernel⟩,
    ⟨10, { bench .run with hif := { (bench .run).hif with xspiQ := [reply .xspi], irq := true } }, 100, reply .xspi, ([] : List Reply), by decide +kernel⟩,
    ⟨10, { bench .run with hif := { (bench .run).hif with xspiQ := [reply .xspi] } }, 5, reply .xspi, ([] : List Reply), by decide +kernel⟩,
    ⟨bench .run, by decide +kernel⟩,
    ⟨{ bench .run with hif := { (bench .run).hif with xspiQ := [reply .xspi] } }, by decide +kernel⟩,
    ⟨{ bench .run with hif := { (bench .run).hif with xspiQ := [reply .xspi], holdoff := true } }, by decide +kernel⟩,
    ⟨4000000000, bench .run, Transport.xspi, ⟨1, 1, 7, 2, zeros 48, zeros 48, 0⟩, by decide +kernel⟩,
    ⟨{ bench .run with hif := { (bench .run).hif with uartQ := [reply .uart] } }, reply .uart, ([] : List Reply), by decide +kernel⟩,
    ⟨{ { bench .run with hif := { (bench .run).hif with uartQ := [reply .uart], baudPending := some (.uart, 9, 9600) } } with cfgPending := [⟨0x0214, 9600, 7, 0⟩] }, reply .uart, ([] : List Reply), 9600, ⟨0x0214, 9600, 7, 0⟩, by decide +kernel⟩⟩

/-- States and operands that meet the hypotheses of each part of ResetsComplete. -/
theorem witness_ResetsComplete :
    (∃ (s : State) (c : _),
      Quiet s ∧ s.sys.resetPending = some c ∧ s.sys.inReset = false ∧ s.sys.mode ≠ .backup ∧ s.sys.mode ≠ .holdup) ∧
    (∃ (s : State),
      Quiet s ∧ s.sys.inReset = false ∧ s.sys.mode ≠ .backup ∧ s.sys.mode ≠ .holdup) ∧
    (∃ (s : State),
      Quiet s ∧ (s.sys.inReset = true ∨ s.sys.mode = .backup ∨ s.sys.mode = .holdup)) ∧
    (∃ (s : State),
      Quiet s ∧ s.sys.inReset = true ∧ s.pwr.pfw = false) ∧
    (∃ (s : State),
      Quiet s ∧ s.sys.inReset = true ∧ s.pwr.pfw = true) ∧
    (∃ (s : State),
      Quiet s ∧ s.sys.mode = .backup ∧ s.pwr.resetNLow = false) ∧
    (∃ (s : State),
      Quiet s) :=
  ⟨⟨{ bench .run with sys := { Sys.reset with mode := .run, resetPending := some 3 } }, 3, by decide +kernel⟩,
    ⟨bench .run, by decide +kernel⟩,
    ⟨bench .backup, by decide +kernel⟩,
    ⟨{ bench .boot with sys := { Sys.reset with mode := .boot, inReset := true } }, by decide +kernel⟩,
    ⟨{ { bench .boot with sys := { Sys.reset with mode := .boot, inReset := true } } with pwr := { Pwr.reset with pfw := true } }, by decide +kernel⟩,
    ⟨bench .backup, by decide +kernel⟩,
    ⟨bench .fault, by decide +kernel⟩⟩

/-- States and operands that meet the hypotheses of each part of HoldupAndSuppliesComplete. -/
theorem witness_HoldupAndSuppliesComplete :
    (∃ (s : State),
      Quiet s ∧ mainRuns s = true ∧ s.sys.mode ≠ .holdup) ∧
    (∃ (s : State),
      Quiet s ∧ (mainRuns s = false ∨ s.sys.mode = .holdup)) ∧
    (∃ (s : State) (rail : _) (mv : _) (ns : _),
      Quiet s ∧ mainRuns s = true ∧ s.sys.mode ≠ .holdup ∧ (rail = .soc → socEn s = true) ∧ uvSeen s rail mv ns = true) ∧
    (∃ (s : State) (rail : _) (mv : _) (ns : _),
      Quiet s ∧ (uvSeen s rail mv ns = false ∨ (rail = .soc ∧ socEn s = false))) ∧
    (∃ (s : State) (rail : _) (mv : _) (ns : _),
      Quiet s ∧ s.sys.inReset = false ∧ s.sys.mode = .holdup ∧ (rail = .soc → socEn s = true) ∧ uvSeen s rail mv ns = true) ∧
    (∃ (s : State),
      Quiet s ∧ s.sys.mode = .holdup) ∧
    (∃ (s : State),
      Quiet s ∧ s.sys.mode = .holdup) ∧
    (∃ (s : State),
      Quiet s ∧ mainRuns s = true ∧ s.pwr.pllSysLock = true) ∧
    (∃ (s : State),
      Quiet s ∧ mainRuns s = true ∧ s.pwr.pllDdrLock = true) ∧
    (∃ (s : State),
      Quiet s ∧ mainRuns s = true) ∧
    (∃ (dt : Nat) (s : State) (n : Fin 2) (since : _),
      Quiet s ∧ tickGoesOn s.pending = false ∧ mainRuns s = true ∧ s.sys.mode ≠ .holdup ∧ s.sys.mode ≠ .fault ∧ pllLock s n.val = false ∧ s.pwr.pllLost[n] = some since ∧ since + 100 < monoUs (elapse dt s)) ∧
    (∃ (s : State),
      Quiet s ∧ s.sys.mode = .reduced ∧ s.sys.inReset = false) ∧
    (∃ (s : State) (n : Fin 8),
      Quiet s ∧ mainRuns s = true ∧ s.pwr.flights[n] = .waking) ∧
    (∃ (s : State),
      Quiet s ∧ mainRuns s = true) :=
  ⟨⟨{ bench .run with hif := { (bench .run).hif with tags := [(3, .executing (exec_ .modeEnd))] } }, by decide +kernel⟩,
    ⟨bench .holdup, by decide +kernel⟩,
    ⟨bench .run, Rail.core, 679, 2001, by decide +kernel⟩,
    ⟨bench .run, Rail.vdd2, 999, 10000, by decide +kernel⟩,
    ⟨bench .holdup, Rail.ana, 2999, 10001, by decide +kernel⟩,
    ⟨bench .holdup, by decide +kernel⟩,
    ⟨bench .holdup, by decide +kernel⟩,
    ⟨{ bench .run with pwr := { Pwr.reset with pllSysLock := true } }, by decide +kernel⟩,
    ⟨{ bench .run with pwr := { Pwr.reset with pllDdrLock := true } }, by decide +kernel⟩,
    ⟨bench .run, by decide +kernel⟩,
    ⟨106, { bench .run with pwr := { Pwr.reset with pllLost := Pwr.reset.pllLost.set 0 (some 5) } }, 0, 5, by decide +kernel⟩,
    ⟨bench .reduced, by decide +kernel⟩,
    ⟨{ bench .run with pwr := { Pwr.reset with flights := Vector.replicate 8 .waking } }, 7, by decide +kernel⟩,
    ⟨bench .run, by decide +kernel⟩⟩

/-- States and operands that meet the hypotheses of each part of BootAndTransitionsComplete. -/
theorem witness_BootAndTransitionsComplete :
    (∃ (s : State),
      Quiet s ∧ s.sys.mode = .boot ∧ s.sys.inReset = false) ∧
    (∃ (s : State) (x : BootReport) (m : Mode),
      Quiet s ∧ s.sys.mode = .boot ∧ s.sys.inReset = false ∧ s.pair.listening = none ∧ s.tamp.set_ = false ∧ imageFault s x.badFlash.toNat = none ∧ x.fault = none ∧ (s.sec.lifecycle = .enrolled ∨ s.sec.lifecycle = .sealed) ∧ getP s 0x0111 = m.code ∧ (paired s = false ∨ m ≠ .run)) ∧
    (∃ (s : State) (x : BootReport),
      Quiet s ∧ s.sys.mode = .boot ∧ s.sys.inReset = false ∧ s.pair.listening = none ∧ s.tamp.set_ = true ∧ imageFault s x.badFlash.toNat = none ∧ x.fault = none) ∧
    (∃ (s : State) (x : BootReport) (e : Byte),
      Quiet s ∧ s.sys.mode = .boot ∧ s.sys.inReset = false ∧ s.pair.listening = none ∧ imageFault s x.badFlash.toNat = none ∧ x.fault = some (.selfTest e)) ∧
    (∃ (s : State) (x : Transition),
      Quiet s ∧ tickGoesOn s.pending = false ∧ s.sys.trans = some x ∧ x.atCut = false ∧ namable x.target = true ∧ triggerActs s (x.target, x.cause) = true) :=
  ⟨⟨bench .boot, by decide +kernel⟩,
    ⟨{ bench .boot with sec := { Sec.reset with lifecycle := .enrolled }, cfg := [(0x0111, 7)] }, { fault := none, sfdp := none, lost := [], badSlots := [], badFlash := 0, pufReads := 0 }, .service, by decide +kernel⟩,
    ⟨{ bench .boot with tamp := { Tamp.reset with set_ := true } }, { fault := none, sfdp := none, lost := [], badSlots := [], badFlash := 0, pufReads := 0 }, by decide +kernel⟩,
    ⟨bench .boot, { fault := some (.selfTest 5), sfdp := none, lost := [], badSlots := [], badFlash := 0, pufReads := 0 }, 5, by decide +kernel⟩,
    ⟨{ bench .run with sys := { Sys.reset with mode := .run, trans := some ⟨.service, 1, some 3, false⟩ }, hif := { (bench .run).hif with tags := [(3, .executing (exec_ .modeEnd))] } }, ⟨.service, 1, some 3, false⟩, by decide +kernel⟩⟩

/-- States and operands that meet the hypotheses of each part of CutsAndRoundsComplete. -/
theorem witness_CutsAndRoundsComplete :
    (∃ (dt : Nat) (s : State),
      Quiet s ∧ mainRuns s = true ∧ s.sys.mode ≠ .boot ∧ s.sys.mode ≠ .holdup ∧ s.sys.mode ≠ .shadow ∧ s.subl.lastCut ≠ some (s.time.steps.toNat, ptpSec (elapse dt s)) ∧ ptpSec (elapse dt s) % estPeriod s = 0 ∧ s.nmod.roundPend = [] ∧ s.subl.ops = []) ∧
    (∃ (dt : Nat) (s : State),
      Quiet s ∧ s.subl.lastCut = some (s.time.steps.toNat, ptpSec (elapse dt s))) ∧
    (∃ (s : State),
      Quiet s ∧ mainRuns s = true ∧ s.sys.mode ≠ .shadow ∧ s.subl.cut.complete = false ∧ s.subl.cut.pio ≠ []) ∧
    (∃ (dt : Nat) (s : State) (r : EstRun),
      Quiet s ∧ s.nmod.est = some r ∧ s.nmod.opt = none ∧ passed (elapse dt s) (r.deadline + 999999) = true) ∧
    (∃ (dt : Nat) (s : State) (m : Mizon) (r : OptRun),
      Quiet s ∧ s.nmod.active = some m ∧ s.nmod.opt = some r ∧ r.phase = .waiting ∧ r.best = none ∧ passed (elapse dt s) r.jobDeadline = true) :=
  ⟨⟨10, { bench .run with subl := { Subl.reset with entries := [substation] } }, by decide +kernel⟩,
    ⟨10, { bench .run with subl := { Subl.reset with lastCut := some (0, 0) } }, by decide +kernel⟩,
    ⟨{ bench .run with subl := { Subl.reset with entries := [substation], cut := { CutVec.empty with pio := [1] } } }, by decide +kernel⟩,
    ⟨1001, { bench .run with nmod := { Nmod.reset with est := some estRun } }, estRun, by decide +kernel⟩,
    ⟨1001, { bench .run with nmod := { Nmod.reset with active := some network, opt := some optRun } }, network, optRun, by decide +kernel⟩⟩

/-- States and operands that meet the hypotheses of each part of ModelEventsComplete. -/
theorem witness_ModelEventsComplete :
    (∃ (s : State),
      Quiet s ∧ s.nmod.stage.code = 2) ∧
    (∃ (s : State),
      Quiet s ∧ s.nmod.stage.code = 5) ∧
    (∃ (s : State) (m : Mizon),
      Quiet s ∧ s.nmod.flashWrite = true ∧ s.nmod.active = some m ∧ s.nmod.selector = false) ∧
    (∃ (s : State) (m : Mizon),
      Quiet s ∧ s.nmod.flashWrite = true ∧ s.nmod.active = some m ∧ s.nmod.selector = true) :=
  ⟨⟨{ bench .run with nmod := { Nmod.reset with stage := { Stage.empty with code := 2, received := zeros 68, length := 68 } } }, by decide +kernel⟩,
    ⟨{ bench .run with nmod := { Nmod.reset with stage := { Stage.empty with code := 5 } } }, by decide +kernel⟩,
    ⟨{ bench .run with nmod := { Nmod.reset with flashWrite := true, active := some network } }, network, by decide +kernel⟩,
    ⟨{ bench .run with nmod := { Nmod.reset with flashWrite := true, active := some network, selector := true } }, network, by decide +kernel⟩⟩

/-- States and operands that meet the hypotheses of each part of JobsAndGalleryComplete. -/
theorem witness_JobsAndGalleryComplete :
    (∃ (dt : Nat) (s : State) (j : HJob) (rest : _),
      Quiet s ∧ s.solv.hrun = none ∧ s.solv.queue = j :: rest ∧ flightsFree s j.mask = true ∧ nmodReady s = false ∧ passed (elapse dt s) j.deadline = false) ∧
    (∃ (dt : Nat) (s : State) (j : NJob) (rest : _),
      Quiet s ∧ s.solv.nrun = none ∧ s.solv.ring = j :: rest ∧ flightsFree s j.mask = true ∧ passed (elapse dt s) j.deadline = false) ∧
    (∃ (dt : Nat) (s : State) (j : HJob) (o : JobOut),
      Quiet s ∧ s.solv.hrun = some j ∧ runJob (elapse dt s) j.desc = .ok o ∧ passed (elapse dt s) j.deadline = false) ∧
    (∃ (s : State) (j : HJob) (x : JobStop) (f : JobFault),
      Quiet s ∧ s.solv.hrun = some j ∧ x.fault = some f) ∧
    (∃ (dt : Nat) (s : State) (j : HJob) (x : JobStop),
      Quiet s ∧ s.solv.hrun = some j ∧ x.fault = none ∧ x.numeric = false ∧ passed (elapse dt s) j.deadline = true) ∧
    (∃ (s : State),
      Quiet s ∧ mainRuns s = true ∧ Canonical s = true) ∧
    (∃ (s : State),
      Quiet s ∧ tickGoesOn s.pending = false ∧ mainRuns s = true ∧ s.sys.mode ≠ .holdup ∧ s.sys.mode ≠ .fault) ∧
    (∃ (s : State),
      Quiet s ∧ mainRuns s = true) ∧
    (∃ (s : State),
      Quiet s ∧ mainRuns s = true) ∧
    (∃ (s : State),
      Quiet s) :=
  ⟨⟨10, { bench .service with pwr := { Pwr.reset with flights := Vector.replicate 8 .idle }, solv := { Solv.reset with queue := [hostJob 1000000] } }, hostJob 1000000, ([] : List HJob), by decide +kernel⟩,
    ⟨10, { bench .run with pwr := { Pwr.reset with flights := Vector.replicate 8 .idle }, solv := { Solv.reset with ring := [⟨1, .estFactor, 0, 1, 1000000⟩] } }, ⟨1, .estFactor, 0, 1, 1000000⟩, ([] : List NJob), by decide +kernel⟩,
    ⟨10, { bench .service with pwr := { Pwr.reset with flights := Vector.replicate 8 .idle }, hif := { (bench .service).hif with tags := [(3, .executing (exec_ (.job 3)))] }, solv := { Solv.reset with hrun := some (hostJob 1000000), test := testRegion } }, hostJob 1000000, (match runJob (elapse (10) ({ bench .service with pwr := { Pwr.reset with flights := Vector.replicate 8 .idle }, hif := { (bench .service).hif with tags := [(3, .executing (exec_ (.job 3)))] }, solv := { Solv.reset with hrun := some (hostJob 1000000), test := testRegion } })) (hostJob 1000000).desc with | .ok o => o | _ => ⟨KOut.plain, []⟩), by decide +kernel⟩,
    ⟨{ bench .service with pwr := { Pwr.reset with flights := Vector.replicate 8 .idle }, hif := { (bench .service).hif with tags := [(3, .executing (exec_ (.job 3)))] }, solv := { Solv.reset with hrun := some (hostJob 1000000), test := testRegion } }, hostJob 1000000, stopped (some .parity), .parity, by decide +kernel⟩,
    ⟨10, { bench .service with pwr := { Pwr.reset with flights := Vector.replicate 8 .idle }, hif := { (bench .service).hif with tags := [(3, .executing (exec_ (.job 3)))] }, solv := { Solv.reset with hrun := some (hostJob 5), test := testRegion } }, hostJob 5, stopped none, by decide +kernel⟩,
    ⟨bench .run, by decide +kernel⟩,
    ⟨bench .run, by decide +kernel⟩,
    ⟨bench .run, by decide +kernel⟩,
    ⟨bench .run, by decide +kernel⟩,
    ⟨bench .run, by decide +kernel⟩⟩

/-- States and operands that meet the hypotheses of each part of SubstationLinkComplete. -/
theorem witness_SubstationLinkComplete :
    (∃ (s : State) (f : UdpFrag) (x : _),
      Quiet s ∧ sublRuns s = true ∧ forConcourse s f = true ∧ sublEntry s (fld f.data 2 2) = some x ∧ 16 ≤ f.data.length ∧ fld f.data 1 1 ≠ 4 ∧ s.subl.buffer.length < 4096) ∧
    (∃ (s : State) (f : UdpFrag),
      Quiet s ∧ forConcourse s f = false) ∧
    (∃ (s : State) (f : UdpFrag),
      Quiet s ∧ sublRuns s = true ∧ forConcourse s f = true ∧ (sublEntry s (fld f.data 2 2) = none ∨ f.data.length < 16)) ∧
    (∃ (s : State) (f : UdpFrag) (x : _),
      Quiet s ∧ sublRuns s = true ∧ forConcourse s f = true ∧ sublEntry s (fld f.data 2 2) = some x ∧ 16 ≤ f.data.length ∧ fld f.data 1 1 ≠ 4 ∧ 4096 ≤ s.subl.buffer.length) ∧
    (∃ (s : State) (x : _) (m : _) (rest : _),
      Quiet s ∧ sublRuns s = true ∧ s.subl.buffer = m :: rest ∧ sublEntry s (fld m.data 2 2) = some x ∧ sublOpen s x 1 96 m = none) ∧
    (∃ (s : State) (x : _) (m : _) (rest : _) (body : _),
      Quiet s ∧ sublRuns s = true ∧ s.subl.buffer = m :: rest ∧ sublEntry s (fld m.data 2 2) = some x ∧ sublOpen s x 1 96 m = some body ∧ windowCheck x (fld m.data 4 1) (orderOf m.data) = none ∧ measStale s ⟨fld body 0 6, fld body 8 4⟩ m.at_ = false) ∧
    (∃ (s : State) (x : _) (ip : _) (port : _) (k : _),
      Quiet s ∧ s.nmod.staging.fresh = true ∧ s.nmod.staging.status ≠ stNoSolution ∧ setpointModes s = true ∧ s.subl.entries = [x] ∧ x.addr = some (ip, port) ∧ kDown s x.index x.gen = some k ∧ x.nextSeq ≤ 0x7FFFFFFF ∧ x.outstanding = none) :=
  ⟨⟨linked, toConcourse ([1, 1, 7, 0] ++ zeros 12), linked.subl.entries.headD substation, by decide +kernel⟩,
    ⟨linked, { toConcourse ([1, 1, 7, 0] ++ zeros 12) with more := true }, by decide +kernel⟩,
    ⟨linked, toConcourse ([1, 1, 8, 0] ++ zeros 12), by decide +kernel⟩,
    ⟨{ linked with subl := { linked.subl with buffer := List.replicate 4096 (buffered []) } }, toConcourse ([1, 1, 7, 0] ++ zeros 12), linked.subl.entries.headD substation, by decide +kernel⟩,
    ⟨{ linked with subl := { linked.subl with buffer := [buffered ([1, 1, 7, 0] ++ zeros 12)] } }, linked.subl.entries.headD substation, buffered ([1, 1, 7, 0] ++ zeros 12), ([] : List SublMsg), by decide +kernel⟩,
    ⟨{ linked with subl := { linked.subl with buffer := [buffered (message 1 (le 6 0 ++ zeros 90))] } }, linked.subl.entries.headD substation, buffered (message 1 (le 6 0 ++ zeros 90)), ([] : List SublMsg), zeros 96, by decide +kernel⟩,
    ⟨{ linked with nmod := { Nmod.reset with staging := { Staging.empty with fresh := true, status := stOK } } }, linked.subl.entries.headD substation, 1, 2, (kDown linked 7 0).getD [], by decide +kernel⟩⟩

/-- The other parts. -/
theorem witness_SubstationLinkComplete_rest :
    (∃ (s : State),
      Quiet s ∧ setpointModes s = false) ∧
    (∃ (s : State),
      Quiet s ∧ s.nmod.staging.fresh = true ∧ s.nmod.staging.status = stNoSolution ∧ setpointModes s = true) ∧
    (∃ (dt : Nat) (s : State) (f : UdpFrag) (x : _) (body : _) (round : _) (at_ : _),
      Quiet s ∧ sublRuns s = true ∧ forConcourse s f = true ∧ sublEntry s (fld f.data 2 2) = some x ∧ 16 ≤ f.data.length ∧ fld f.data 1 1 = 4 ∧ sublOpen s x 4 16 (sublMsg f.srcIp.toNat f.srcPort.toNat f.data (elapse dt s)) = some body ∧ windowCheck x (fld f.data 4 1) (orderOf f.data) = none ∧ x.outstanding = some (round, at_) ∧ fld body 0 8 = round ∧ monoUs (elapse dt s) ≤ at_ + getP s 0x0515 * 1000) ∧
    (∃ (dt : Nat) (s : State) (f : UdpFrag) (x : _) (body : _),
      Quiet s ∧ sublRuns s = true ∧ forConcourse s f = true ∧ sublEntry s (fld f.data 2 2) = some x ∧ 16 ≤ f.data.length ∧ fld f.data 1 1 = 4 ∧ sublOpen s x 4 16 (sublMsg f.srcIp.toNat f.srcPort.toNat f.data (elapse dt s)) = some body ∧ windowCheck x (fld f.data 4 1) (orderOf f.data) = none ∧ (∀ y ∈ x.outstanding, y.1 ≠ fld body 0 8 ∨ y.2 + getP s 0x0515 * 1000 < monoUs (elapse dt s))) ∧
    (∃ (dt : Nat) (s : State) (index : W16) (x : _) (round : _) (at_ : _),
      Quiet s ∧ sublEntry s index.toNat = some x ∧ x.outstanding = some (round, at_) ∧ at_ + getP s 0x0515 * 1000 < monoUs (elapse dt s)) ∧
    (∃ (s : State),
      Quiet s ∧ sublRuns s = true ∧ s.subl.epochHigh ≠ 0xFFFFFFFF) :=
  ⟨⟨bench .safe, by decide +kernel⟩,
    ⟨{ linked with nmod := { Nmod.reset with staging := { Staging.empty with fresh := true, status := stNoSolution } } }, by decide +kernel⟩,
    ⟨10, { linked with subl := { linked.subl with entries := [{ linked.subl.entries.headD substation with outstanding := some (9, 0) }] } }, toConcourse (message 4 (le 8 9 ++ zeros 8)), { linked.subl.entries.headD substation with outstanding := some (9, 0) }, le 8 9 ++ zeros 8, 9, 0, by decide +kernel⟩,
    ⟨100000000, { linked with subl := { linked.subl with entries := [{ linked.subl.entries.headD substation with outstanding := some (9, 0) }] } }, toConcourse (message 4 (le 8 9 ++ zeros 8)), { linked.subl.entries.headD substation with outstanding := some (9, 0) }, le 8 9 ++ zeros 8, by decide +kernel⟩,
    ⟨100000000, { linked with subl := { linked.subl with entries := [{ linked.subl.entries.headD substation with outstanding := some (9, 0) }] } }, 7, { linked.subl.entries.headD substation with outstanding := some (9, 0) }, 9, 0, by decide +kernel⟩,
    ⟨{ linked with subl := { linked.subl with epochHigh := 5 } }, by decide +kernel⟩⟩

/-- States and operands that meet the hypotheses of each part of DivisionsAndShifts. -/
theorem witness_DivisionsAndShifts :
    (∃ (y : W64),
      y ≠ 0) ∧
    (∃ (y : W64),
      y ≠ 0) :=
  ⟨⟨-1, by decide +kernel⟩,
    ⟨7, by decide +kernel⟩⟩

/-- States and operands that meet the hypotheses of each part of RegisterInstructionsComplete. -/
theorem witness_RegisterInstructionsComplete :
    (∃ (dt : Nat) (s : State) (e : Fin 2) (d : Fin 16) (a : Fin 16) (b : Fin 16) (fn : BitVec 14) (r : _) (below : _) (v : _) (z : _),
      Stands dt e (encR 0 d.val a.val b.val fn.toNat) r below s ∧ InCode (r.pc + 4) ∧ aluOp fn.toNat (r.get a) (r.get b) = some (v, z)) ∧
    (∃ (dt : Nat) (s : State) (e : Fin 2) (d : Fin 16) (a : Fin 16) (b : Fin 16) (fn : BitVec 14) (r : _) (below : _) (v : _),
      Stands dt e (encR 1 d.val a.val b.val fn.toNat) r below s ∧ InCode (r.pc + 4) ∧ fpuOp fn.toNat (r.get d) (r.get a) (r.get b) = some v) ∧
    (∃ (dt : Nat) (s : State) (e : Fin 2) (d : Fin 16) (a : Fin 16) (imm : BitVec 18) (r : _) (below : _),
      Stands dt e (encI 2 d.val a.val imm.toNat) r below s ∧ InCode (r.pc + 4)) ∧
    (∃ (dt : Nat) (s : State) (e : Fin 2) (kind : Fin 3) (d : Fin 16) (a : Fin 16) (imm : BitVec 18) (r : _) (below : _),
      Stands dt e (encI (3 + kind.val) d.val a.val imm.toNat) r below s ∧ InCode (r.pc + 4)) ∧
    (∃ (dt : Nat) (s : State) (e : Fin 2) (d : Fin 16) (imm : BitVec 18) (r : _) (below : _),
      Stands dt e (encI 6 d.val 0 imm.toNat) r below s ∧ InCode (r.pc + 4)) ∧
    (∃ (dt : Nat) (s : State) (e : Fin 2) (d : Fin 16) (a : Fin 16) (b : Fin 16) (fn : BitVec 14) (r : _) (below : _),
      Stands dt e (encR 0x20 d.val a.val b.val fn.toNat) r below s ∧ InCode (r.pc + 4) ∧ fn.toNat ≤ 2) :=
  ⟨⟨10, standing .run (encR 0 1 2 0 5) run_, 0, 1, 2, 0, 5, run_, ([] : List Run), (8 : W64), true, ⟨by decide +kernel, by decide +kernel, by decide +kernel⟩, by decide +kernel⟩,
    ⟨10, standing .run (encR 1 1 2 3 7) run_, 0, 1, 2, 3, 7, run_, ([] : List Run), (8 : W64), ⟨by decide +kernel, by decide +kernel, by decide +kernel⟩, by decide +kernel⟩,
    ⟨10, standing .run (encI 2 15 1 (2 ^ 18 - 1)) run_, 0, 15, 1, 0x3FFFF, run_, ([] : List Run), ⟨by decide +kernel, by decide +kernel, by decide +kernel⟩, by decide +kernel⟩,
    ⟨10, standing .run (encI 5 0 1 (2 ^ 18 - 1)) run_, 0, 2, 0, 1, 0x3FFFF, run_, ([] : List Run), ⟨by decide +kernel, by decide +kernel, by decide +kernel⟩, by decide +kernel⟩,
    ⟨10, standing .run (encI 6 1 0 (2 ^ 17)) run_, 0, 1, 0x20000, run_, ([] : List Run), ⟨by decide +kernel, by decide +kernel, by decide +kernel⟩, by decide +kernel⟩,
    ⟨10, standing .run (encR 0x20 1 0 0 2) run_, 0, 1, 0, 0, 2, run_, ([] : List Run), ⟨by decide +kernel, by decide +kernel, by decide +kernel⟩, by decide +kernel⟩⟩

/-- States and operands that meet the hypotheses of each part of LoadsAndStoresComplete. -/
theorem witness_LoadsAndStoresComplete :
    (∃ (dt : Nat) (s : State) (e : Fin 2) (kind : Fin 7) (d : Fin 16) (a : Fin 16) (imm : BitVec 18) (r : _) (below : _),
      Stands dt e (encI (8 + kind.val) d.val a.val imm.toNat) r below s ∧ InCode (r.pc + 4) ∧ accessFault false (effAddr r a imm) (loadShape kind.val).1 = none ∧ (5, tcmWord e (effAddr r a imm)) ∉ s.intg.marked) ∧
    (∃ (dt : Nat) (s : State) (e : Fin 2) (kind : Fin 4) (d : Fin 16) (a : Fin 16) (imm : BitVec 18) (r : _) (below : _),
      Stands dt e (encI (0x10 + kind.val) d.val a.val imm.toNat) r below s ∧ InCode (r.pc + 4) ∧ accessFault true (effAddr r a imm) (2 ^ kind.val) = none ∧ journalUsed below + r.journal.length < 2048) ∧
    (∃ (dt : Nat) (s : State) (e : Fin 2) (kind : Fin 4) (d : Fin 16) (a : Fin 16) (imm : BitVec 18) (r : _) (below : _),
      Stands dt e (encI (0x10 + kind.val) d.val a.val imm.toNat) r below s ∧ InCode (r.pc + 4) ∧ accessFault true (effAddr r a imm) (2 ^ kind.val) = none ∧ 2048 ≤ journalUsed below + r.journal.length) :=
  ⟨⟨10, standing .run (encI 14 1 2 0) run_, 0, 6, 1, 2, 0, run_, ([] : List Run), ⟨by decide +kernel, by decide +kernel, by decide +kernel⟩, by decide +kernel⟩,
    ⟨10, standing .run (encI 0x13 1 0 0x1FFF8) run_, 0, 3, 1, 0, 0x1FFF8, run_, ([] : List Run), ⟨by decide +kernel, by decide +kernel, by decide +kernel⟩, by decide +kernel⟩,
    ⟨10, standing .run (encI 0x10 1 2 0) ({ run_ with journal := List.replicate 2048 ⟨0, []⟩ }), 0, 0, 1, 2, 0, { run_ with journal := List.replicate 2048 ⟨0, []⟩ }, ([] : List Run), ⟨by decide +kernel, by decide +kernel, by decide +kernel⟩, by decide +kernel⟩⟩

/-- States and operands that meet the hypotheses of each part of StoresTouchOnlyTheirBytes. -/
theorem witness_StoresTouchOnlyTheirBytes :
    ∃ (dt : Nat) (s : State) (e : Fin 2) (kind : Fin 4) (d : Fin 16) (a : Fin 16) (imm : BitVec 18) (r : _) (below : _),
      Stands dt e (encI (0x10 + kind.val) d.val a.val imm.toNat) r below s ∧ Canonical s = true ∧ InCode (r.pc + 4) ∧ accessFault true (effAddr r a imm) (2 ^ kind.val) = none :=
  ⟨10, standing .run (encI 0x12 1 2 4) run_, 0, 2, 1, 2, 4, run_, ([] : List Run), ⟨by decide +kernel, by decide +kernel, by decide +kernel⟩, by decide +kernel⟩

/-- States and operands that meet the hypotheses of each part of ControlTransfersComplete. -/
theorem witness_ControlTransfersComplete :
    (∃ (dt : Nat) (s : State) (e : Fin 2) (kind : Fin 4) (d : Fin 16) (a : Fin 16) (imm : BitVec 18) (r : _) (below : _),
      Stands dt e (encI (0x18 + kind.val) d.val a.val imm.toNat) r below s ∧ InCode (r.pc + 4) ∧ InCode (if (if kind = 0 then r.get d == r.get a else if kind = 1 then r.get d != r.get a
        else if kind = 2 then (r.get d).slt (r.get a) else (r.get d).ult (r.get a)) then r.pc + BitVec.ofInt 32 (4 * imm.toInt) else r.pc + 4)) ∧
    (∃ (dt : Nat) (s : State) (e : Fin 2) (off : BitVec 26) (r : _) (below : _),
      Stands dt e (encJ 0x1C off.toNat) r below s ∧ InCode (r.pc + BitVec.ofInt 32 (4 * off.toInt))) ∧
    (∃ (dt : Nat) (s : State) (e : Fin 2) (off : BitVec 26) (r : _) (below : _),
      Stands dt e (encJ 0x1D off.toNat) r below s ∧ InCode (r.pc + BitVec.ofInt 32 (4 * off.toInt)) ∧ linksUsed below + r.links.length < 64) ∧
    (∃ (dt : Nat) (s : State) (e : Fin 2) (d : Fin 16) (a : Fin 16) (imm : BitVec 18) (r : _) (below : _) (c : _),
      Stands dt e (encI 0x1E d.val a.val imm.toNat) r below s ∧ typeCode s e imm.toNat = some c ∧ InCode (BitVec.ofNat 32 c) ∧ linksUsed below + r.links.length < 64) ∧
    (∃ (dt : Nat) (s : State) (e : Fin 2) (d : Fin 16) (a : Fin 16) (b : Fin 16) (fn : BitVec 14) (r : _) (below : _) (ret : _) (g : _) (rest : _),
      Stands dt e (encR 0x1F d.val a.val b.val fn.toNat) r below s ∧ r.links = (ret, g) :: rest ∧ InCode ret) ∧
    (∃ (dt : Nat) (s : State) (e : Fin 2) (d : Fin 16) (a : Fin 16) (b : Fin 16) (fn : BitVec 14) (r : _) (below : _),
      Stands dt e (encR 0x21 d.val a.val b.val fn.toNat) r below s ∧ (r.get a).toNat % 4 = 0 ∧ 0x40000 ≤ (r.get a).toNat ∧ (r.get a).toNat + 4 ≤ 0x80000) :=
  ⟨⟨10, standing .run (encI 0x1A 1 0 1) run_, 0, 2, 1, 0, 1, run_, ([] : List Run), ⟨by decide +kernel, by decide +kernel, by decide +kernel⟩, by decide +kernel⟩,
    ⟨10, standing .run (encJ 0x1C 0xFFFF) run_, 0, 0xFFFF, run_, ([] : List Run), ⟨by decide +kernel, by decide +kernel, by decide +kernel⟩, by decide +kernel⟩,
    ⟨10, standing .run (encJ 0x1D 1) run_, 0, 1, run_, ([] : List Run), ⟨by decide +kernel, by decide +kernel, by decide +kernel⟩, by decide +kernel⟩,
    ⟨10, standing .run (encI 0x1E 0 1 0) run_, 0, 0, 1, 0, run_, ([] : List Run), 0x40100, ⟨by decide +kernel, by decide +kernel, by decide +kernel⟩, by decide +kernel⟩,
    ⟨10, standing .run (encR 0x1F 0 0 0 0) ({ run_ with links := [(0x7FFFC, some 5)] }), 0, 0, 0, 0, 0, { run_ with links := [(0x7FFFC, some 5)] }, ([] : List Run), (0x7FFFC : W32), (some (5 : W64)), ([] : List (W32 × Option W64)), ⟨by decide +kernel, by decide +kernel, by decide +kernel⟩, by decide +kernel⟩,
    ⟨10, standing .run (encR 0x21 0 1 0 0) ({ run_ with regs := Vector.replicate 16 0x7FFFC }), 0, 0, 1, 0, 0, { run_ with regs := Vector.replicate 16 0x7FFFC }, ([] : List Run), ⟨by decide +kernel, by decide +kernel, by decide +kernel⟩, by decide +kernel⟩⟩

/-- States and operands that meet the hypotheses of each part of ExecutionEndsComplete. -/
theorem witness_ExecutionEndsComplete :
    (∃ (dt : Nat) (s : State) (e : Fin 2) (d : Fin 16) (a : Fin 16) (b : Fin 16) (fn : BitVec 14) (r : _) (below : _) (x : TaskSt) (k : BTask),
      Stands dt e (encR 0x3E d.val a.val b.val fn.toNat) r below s ∧ taskSt s e r.task = some x ∧ taskDef s e r.task = some k) ∧
    (∃ (dt : Nat) (s : State) (e : Fin 2) (w : W32) (r : _) (below : _) (x : TaskSt),
      Stands dt e w.toNat r below s ∧ (wOp w.toNat = 0x3F ∨ wLegal (2 ^ 18) w.toNat = false) ∧ taskSt s e r.task = some x ∧ (∀ q ∈ below, q.task ≠ r.task)) ∧
    (∃ (dt : Nat) (s : State) (e : Fin 2) (kind : Fin 4) (d : Fin 16) (a : Fin 16) (imm : BitVec 18) (r : _) (below : _) (c : _) (x : TaskSt),
      Stands dt e (encI (0x10 + kind.val) d.val a.val imm.toNat) r below s ∧ accessFault true (effAddr r a imm) (2 ^ kind.val) = some c ∧ taskSt s e r.task = some x ∧ (∀ q ∈ below, q.task ≠ r.task)) :=
  ⟨⟨10, standing .run (encR 0x3E 0 0 0 0) run_, 0, 0, 0, 0, 0, run_, ([] : List Run), TaskSt.fresh 0 0, image.tasks[0], ⟨by decide +kernel, by decide +kernel, by decide +kernel⟩, by decide +kernel⟩,
    ⟨10, standing .run (encI 0x3F 0 0 5) run_, 0, BitVec.ofNat 32 (encI 0x3F 0 0 5), run_, ([] : List Run), TaskSt.fresh 0 0, ⟨by decide +kernel, by decide +kernel, by decide +kernel⟩, by decide +kernel⟩,
    ⟨10, standing .run (encI 0x13 1 2 1) run_, 0, 3, 1, 2, 1, run_, ([] : List Run), 4, TaskSt.fresh 0 0, ⟨by decide +kernel, by decide +kernel, by decide +kernel⟩, by decide +kernel⟩⟩

/-- States and operands that meet the hypotheses of each part of TaskEventsComplete. -/
theorem witness_TaskEventsComplete :
    (∃ (dt : Nat) (s : State) (e : Fin 2) (k : Fin 16) (d : BTask) (x : TaskSt),
      Quiet s ∧ taskDef s e k = some d ∧ taskSt s e k = some x ∧ x.mode = .waiting ∧ tasksExecute s = true ∧ s.sys.mode ≠ .shadow ∧ tickUs (elapse dt s) % d.cycle = d.phase ∧ x.instant ≠ some (monoUs (elapse dt s)) ∧ dueAbove (elapse dt s) e d.prio = [] ∧ s.ctrl.change = none ∧ s.ctrl.swap = none ∧ runOf s e k = none) ∧
    (∃ (dt : Nat) (s : State) (e : Fin 2) (k : Fin 16) (d : BTask) (x : TaskSt),
      Quiet s ∧ taskDef s e k = some d ∧ taskSt s e k = some x ∧ x.mode = .waiting ∧ tasksExecute s = true ∧ s.sys.mode ≠ .shadow ∧ tickUs (elapse dt s) % d.cycle = d.phase ∧ x.instant ≠ some (monoUs (elapse dt s)) ∧ dueAbove (elapse dt s) e d.prio = [] ∧ s.ctrl.change = none ∧ s.ctrl.swap = none ∧ (runOf s e k).isSome = true) ∧
    (∃ (s : State) (b : BImg),
      Quiet s ∧ s.ctrl.running = some b) :=
  ⟨⟨10, controlled .run, 0, 0, image.tasks[0], TaskSt.fresh 0 0, by decide +kernel⟩,
    ⟨10, standing .run 0 run_, 0, 0, image.tasks[0], TaskSt.fresh 0 0, by decide +kernel⟩,
    ⟨{ controlled .run with ctrl := { (controlled .run).ctrl with tasks := [{ TaskSt.fresh 0 0 with toApply := true, landOut := [1, 0, 0, 0] }] } }, image, by decide +kernel⟩⟩

/-- States and operands that meet the hypotheses of each part of LockstepComplete. -/
theorem witness_LockstepComplete :
    (∃ (s : State) (e : Fin 2) (r : _) (below : _) (d : BTask),
      Quiet s ∧ s.sys.inReset = false ∧ s.sys.mode ≠ .backup ∧ (engOf s e).runs = r :: below ∧ (engOf s e).mismatches = [] ∧ r.again = false ∧ r.overflowed = false ∧ taskDef s e r.task = some d) ∧
    (∃ (s : State) (e : Fin 2) (inRollback : _) (r : _) (below : _),
      Quiet s ∧ tickGoesOn s.pending = false ∧ s.sys.inReset = false ∧ 2 ≤ s.sys.mode.code ∧ s.sys.mode.code ≤ 7 ∧ (engOf s e).runs = r :: below ∧ (inRollback = true ∨ r.again = true)) :=
  ⟨⟨standing .run 0 run_, 0, run_, ([] : List Run), image.tasks[0], by decide +kernel⟩,
    ⟨standing .run 0 run_, 0, true, run_, ([] : List Run), by decide +kernel⟩⟩

/-- States and operands that meet the hypotheses of each part of OnlineChangeComplete. -/
theorem witness_OnlineChangeComplete :
    (∃ (s : State),
      Quiet s ∧ s.ctrl.stage.code = 2) ∧
    (∃ (s : State) (b : BImg),
      Quiet s ∧ s.ctrl.flashWrite = true ∧ s.ctrl.running = some b) ∧
    (∃ (s : State) (c : Change),
      Quiet s ∧ s.ctrl.change = some c ∧ c.phase = .preparing) ∧
    (∃ (dt : Nat) (s : State) (c : Change) (a : BImg) (b : BImg),
      Quiet s ∧ s.ctrl.change = some c ∧ s.ctrl.running = some a ∧ s.ctrl.staged = some b ∧ s.ctrl.swap = none ∧ (c.phase = .preparing ∨ c.phase = .prepared) ∧ c.atMono ≤ monoUs (elapse dt s) ∧ c.options = 0) ∧
    (∃ (s : State) (c : Change) (a : BImg) (b : BImg),
      Quiet s ∧ s.ctrl.change = some c ∧ s.ctrl.running = some a ∧ s.ctrl.staged = some b ∧ c.phase = .draining ∧ (engOf s 0).runs = [] ∧ (engOf s 1).runs = []) ∧
    (∃ (s : State) (c : Change) (a : BImg) (b : BImg),
      Quiet s ∧ s.ctrl.change = some c ∧ s.ctrl.running = some b ∧ s.ctrl.staged = some a ∧ c.phase = .exchanged ∧ c.held = [] ∧ s.ctrl.swap = none) ∧
    (∃ (dt : Nat) (s : State) (c : Change) (a : BImg) (b : BImg),
      Quiet s ∧ s.ctrl.change = some c ∧ s.ctrl.running = some a ∧ s.ctrl.staged = some b ∧ c.phase = .draining ∧ c.atMono + c.drainMax ≤ monoUs (elapse dt s) ∧ ((engOf s 0).runs ≠ [] ∨ (engOf s 1).runs ≠ []) ∧ c.held = [] ∧ s.ctrl.swap = none) :=
  ⟨⟨{ controlled .run with ctrl := { (controlled .run).ctrl with stage := { Stage.empty with code := 2, length := 64, received := zeros 64 } } }, by decide +kernel⟩,
    ⟨{ controlled .run with ctrl := { (controlled .run).ctrl with flashWrite := true } }, image, by decide +kernel⟩,
    ⟨changing (change .preparing), change .preparing, by decide +kernel⟩,
    ⟨10, changing (change .prepared), change .prepared, image, image, by decide +kernel⟩,
    ⟨changing (change .draining), change .draining, image, image, by decide +kernel⟩,
    ⟨changing (change .exchanged), change .exchanged, image, image, by decide +kernel⟩,
    ⟨10, setEng 0 { Engine.reset with runs := [run_] } (changing (change .draining)), change .draining, image, image, by decide +kernel⟩⟩

/-- States and operands that meet the hypotheses of each part of PulsesAndIntervalsComplete. -/
theorem witness_PulsesAndIntervalsComplete :
    (∃ (s : State) (c : Fin 16) (rising : Bool) (held : _),
      Quiet s ∧ s.mth.running = true ∧ mthEnabled s c = true ∧ flowFilterUs s c ≤ held ∧ rising ≠ bit (mthP s c 0) 12) ∧
    (∃ (s : State) (c : Fin 16) (held : _),
      Quiet s ∧ flowFilterUs s c ≤ held) ∧
    (∃ (s : State) (c : Fin 16) (held : _),
      Quiet s ∧ s.mth.running = true ∧ held < flowFilterUs s c) ∧
    (∃ (s : State),
      Quiet s ∧ s.mth.running = true) ∧
    (∃ (s : State),
      Quiet s ∧ meteringMode s = true) ∧
    (∃ (dt : Nat) (s : State),
      Quiet s ∧ meteringMode s = true ∧ meterSec (elapse dt s) % 60 = 0 ∧ s.bill.lastBoundary ≠ some (meterSec (elapse dt s))) ∧
    (∃ (dt : Nat) (s : State),
      Quiet s ∧ s.bill.lastBoundary = some (meterSec (elapse dt s))) :=
  ⟨⟨metering, 0, true, 100000, by decide +kernel⟩,
    ⟨metering, 0, 100000, by decide +kernel⟩,
    ⟨metering, 15, 0, by decide +kernel⟩,
    ⟨metering, by decide +kernel⟩,
    ⟨metering, by decide +kernel⟩,
    ⟨0, metering, by decide +kernel⟩,
    ⟨0, { metering with bill := { Bill.reset with lastBoundary := some 0 } }, by decide +kernel⟩⟩

/-- States and operands that meet the hypotheses of each part of ElectricalEventsComplete. -/
theorem witness_ElectricalEventsComplete :
    (∃ (s : State) (k : Fin 4),
      Quiet s ∧ meteringMode s = true ∧ melEnabled s k = true ∧ 0 < (melSys s k).settle) ∧
    (∃ (s : State) (k : Fin 4),
      Quiet s ∧ meteringMode s = true ∧ melEnabled s k = true ∧ (melSys s k).settle = 0) ∧
    (∃ (s : State) (k : Fin 4),
      Quiet s ∧ meteringMode s = true ∧ (melSys s k).running = true ∧ (melSys s k).open_.samples ≠ 0 ∧ closeAfter s k (melSys s k) ≤ (melSys s k).open_.samples) ∧
    (∃ (s : State) (k : Fin 4) (phase : Fin 3),
      Quiet s ∧ meteringMode s = true ∧ (melSys s k).running = true ∧ phase.val = (melSys s k).refPhase ∧ (melSys s k).open_.samples ≠ 0 ∧ 246 ≤ (melSys s k).sinceCross ∧ (melSys s k).unlocked = false ∧ allLost s k (melSys s k) = false) ∧
    (∃ (s : State),
      Quiet s ∧ meteringMode s = true) ∧
    (∃ (dt : Nat) (s : State) (k : Fin 4) (w : CalWin),
      Quiet s ∧ (melSys s k).cal = some w ∧ w.stop ≤ sampleStamp (elapse dt s)) :=
  ⟨⟨melAt { MelSys.reset with settle := 1 }, 0, by decide +kernel⟩,
    ⟨melAt { MelSys.reset with settle := 0 }, 0, by decide +kernel⟩,
    ⟨melAt { MelSys.reset with running := true, open_ := { Cycle.empty with samples := 400 } }, 0, by decide +kernel⟩,
    ⟨{ melAt { MelSys.reset with running := true, unlocked := false, sinceCross := 246, open_ := { Cycle.empty with samples := 246 } } with cfg := [(0x0710, 0x8000), (0x0840, 0x8800)] }, 0, 0, by decide +kernel⟩,
    ⟨metering, by decide +kernel⟩,
    ⟨10000, withTag (.calWindow 0) (melAt { MelSys.reset with cal := some calWin }), 0, calWin, by decide +kernel⟩⟩

/-- States and operands that meet the hypotheses of each part of SavesComplete. -/
theorem witness_SavesComplete :
    (∃ (dt : Nat) (s : State),
      Quiet s ∧ s.mth.running = true ∧ s.bill.saving = none ∧ s.bill.lastSave + saveIntervalUs s ≤ monoUs (elapse dt s)) ∧
    (∃ (s : State) (n : _),
      Quiet s ∧ s.bill.saving = some n) :=
  ⟨⟨400000000000, { metering with cfg := [(0x0710, 0x8000)], bill := Bill.reset }, by decide +kernel⟩,
    ⟨{ metering with bill := { Bill.reset with saving := some 0 } }, 0, by decide +kernel⟩⟩

/-- States and operands that meet the hypotheses of each part of ProcessInputsAndOutputsComplete. -/
theorem witness_ProcessInputsAndOutputsComplete :
    (∃ (s : State) (a : Fin 16),
      Quiet s ∧ pioRuns s = true ∧ ainPending s a = false ∧ getP s (0x0A10 + 4 * a) % 8 ≠ 0) ∧
    (∃ (s : State) (a : Fin 16),
      Quiet s ∧ pioRuns s = true ∧ ainPending s a = true) ∧
    (∃ (s : State) (n : Fin 32) (pin : _),
      Quiet s ∧ pioRuns s = true ∧ (s.pio.din[n]).pin ≠ pin) ∧
    (∃ (s : State) (o : Fin 32) (read : _),
      Quiet s ∧ pioRuns s = true ∧ (∀ h : o.val < 24, (s.pio.dos[o.val]).level ≠ read)) ∧
    (∃ (dt : Nat) (s : State) (o : Fin 24),
      Quiet s ∧ pioRuns s = true ∧ bit (doConfig s o) 15 = true ∧ (diLevel s (bits (doConfig s o) 13 9) != bit (doConfig s o) 14) ≠ (s.pio.dos[o]).level ∧ (s.pio.dos[o]).changedUs + doConfig s o / 65536 * 1000 < monoUs (elapse dt s)) ∧
    (∃ (s : State),
      Quiet s ∧ Canonical s = true ∧ pioRuns s = true) :=
  ⟨⟨{ bench .run with cfg := [(0x0A10, 1)] }, 0, by decide +kernel⟩,
    ⟨{ bench .run with cfgPending := [⟨0x0A4C, 1, 0, 0⟩] }, 15, by decide +kernel⟩,
    ⟨bench .run, 31, true, by decide +kernel⟩,
    ⟨{ bench .run with cfg := [(0x0A87, 0x100)] }, 23, true, by decide +kernel, by decide +kernel, by decide +kernel⟩,
    ⟨1, { bench .run with cfg := [(0x0A87, 0xC100)] }, 23, by decide +kernel⟩,
    ⟨{ bench .run with cfgPending := [⟨0x0A96, 1000, 0, 0⟩] }, by decide +kernel⟩⟩

/-- States and operands that meet the hypotheses of each part of AxisEventsComplete. -/
theorem witness_AxisEventsComplete :
    (∃ (dt : Nat) (s : State) (a : Fin 8) (m : AxisPeriod),
      Quiet s ∧ vaxRuns s = true ∧ monoUs (elapse dt s) % 40 = 0 ∧ (axisOf s a).periodUs ≠ some (monoUs (elapse dt s)) ∧ (axisOf s a).record = none ∧ (axisOf s a).home = none ∧ (axisOf s a).state = .moving ∧ (axisOf s a).goal.mode = 1 ∧ conforms (elapse dt s) a (axisOf s a) m.vel = true ∧ slow s a m.vel = false) ∧
    (∃ (dt : Nat) (s : State) (a : Fin 8) (m : AxisPeriod),
      Quiet s ∧ vaxRuns s = true ∧ monoUs (elapse dt s) % 40 = 0 ∧ (axisOf s a).periodUs ≠ some (monoUs (elapse dt s)) ∧ (axisOf s a).record = none ∧ (axisOf s a).home = none ∧ (axisOf s a).state = .moving ∧ (axisOf s a).goal.mode = 1 ∧ conforms (elapse dt s) a (axisOf s a) m.vel = true ∧ slow s a m.vel = true ∧ 0 < m.vel ∧ (axisOf s a).pos ≤ (axisOf s a).target ∧ (axisOf s a).pos * stepUnit + (axisOf s a).frac ≤ (axisOf s a).target * stepUnit ∧ (axisOf s a).target * stepUnit ≤ (axisOf s a).pos * stepUnit + (axisOf s a).frac + m.vel) ∧
    (∃ (dt : Nat) (s : State) (a : Fin 8),
      Quiet s ∧ vaxRuns s = true ∧ (axisOf s a).vel ≠ 0 ∧ (axisOf s a).state = .moving ∧ stallSeen s a (axisOf s a) = true ∧ outranked (elapse dt s) 4 (axisOf s a) = false ∧ (axisOf s a).home = none ∧ bits (vaxP s a 0) 19 18 ≠ 0) ∧
    (∃ (s : State) (a : Fin 8) (g : _),
      Quiet s ∧ g ≠ (axisOf s a).gammaU) ∧
    (∃ (dt : Nat) (s : State) (a : Fin 8) (h : _),
      Quiet s ∧ vaxRuns s = true ∧ (axisOf s a).vel ≠ 0 ∧ (axisOf s a).state ≠ .standstill ∧ stallSeen s a (axisOf s a) = true ∧ outranked (elapse dt s) 4 (axisOf s a) = false ∧ (axisOf s a).home = some h ∧ homeMethod s a = 0) ∧
    (∃ (dt : Nat) (s : State) (a : Fin 8) (o : _),
      Quiet s ∧ vaxRuns s = true ∧ (axisOf s a).driveFault = false ∧ axisEnabled s a = true ∧ outranked (elapse dt s) 3 (axisOf s a) = false ∧ (o = true → 64 ≤ (axisOf s a).openRun)) ∧
    (∃ (dt : Nat) (s : State) (a : Fin 8),
      Quiet s ∧ vaxRuns s = true ∧ (axisOf s a).state = .standstill ∧ (axisOf s a).still = 3 ∧ (axisOf s a).restUs + vaxP s a 0 % 4096 * 10000 ≤ monoUs (elapse dt s)) :=
  ⟨⟨40, axisAt (moving 0 0 1000 (2 ^ 33)), 0, period_ (2 ^ 33), by decide +kernel⟩,
    ⟨40, axisAt (moving 0 (stepUnit - 1) 1 (2 ^ 32)), 0, period_ (2 ^ 32), by decide +kernel⟩,
    ⟨10, axisAt { moving 0 0 1000 (2 ^ 33) with aboveRun := 64 }, 0, by decide +kernel⟩,
    ⟨axisAt Axis.reset, 0, (1 : Int), by decide +kernel⟩,
    ⟨10, axisAt { moving 0 0 0 1 with aboveRun := 64, state := .homing, home := some ⟨1, 0, .out⟩ }, 0, (⟨1, 0, .out⟩ : Homing), by decide +kernel⟩,
    ⟨10, axisAt { Axis.reset with openRun := 64 }, 0, true, by decide +kernel⟩,
    ⟨10, axisAt { Axis.reset with still := 3 }, 0, by decide +kernel⟩⟩

/-- States and operands that meet the hypotheses of each part of SwitchEventsComplete. -/
theorem witness_SwitchEventsComplete :
    (∃ (s : State) (f : EthFrame),
      Quiet s ∧ switchRuns s = true ∧ portEnabled s f.port = true ∧ (f.port.val < 4 ∧ (f.fcsOk = false ∨ 1522 < f.length))) ∧
    (∃ (s : State) (f : EthFrame),
      Quiet s ∧ switchRuns s = true ∧ portEnabled s f.port = true ∧ f.fcsOk = true ∧ f.length ≤ 1522 ∧ 64 ≤ f.length ∧ f.pause = false ∧ vlanEntry s (frameVid s f) = none) ∧
    (∃ (s : State) (f : EthFrame) (e : _) (x : _),
      Quiet s ∧ switchRuns s = true ∧ portEnabled s f.port = true ∧ f.fcsOk = true ∧ f.length ≤ 1522 ∧ 64 ≤ f.length ∧ f.pause = false ∧ vlanEntry s (frameVid s f) = some e ∧ isMember e f.port = true ∧ isGroup f.dst.toNat = false ∧ f.src ≠ f.dst ∧ (s.eth.table.find? fun y => y.vid == frameVid s f && y.mac == f.dst.toNat) = some x ∧ x.port < 5 ∧ x.port ≠ f.port ∧ isMember e x.port = true ∧ portEnabled s x.port = true ∧ f.full.getLsbD (4 * x.port + egressQueue f x.port) = false) ∧
    (∃ (s : State),
      Quiet s ∧ s.sys.inReset = false ∧ s.sys.mode ≠ .backup ∧ s.hif.up = true) ∧
    (∃ (s : State),
      Quiet s) :=
  ⟨⟨switching, { frame0 with length := 1523 }, by decide +kernel⟩,
    ⟨{ switching with cfg := [(0x0C10, 0x00200801)] }, frame0, by decide +kernel⟩,
    ⟨switching, frame0, (0x00003001 : Nat), (⟨1, 4, 1, 0⟩ : Learned), by decide +kernel⟩,
    ⟨bench .run, by decide +kernel⟩,
    ⟨{ switching with clock := { Clock.reset with real := 400000000 } }, by decide +kernel⟩⟩

/-- States and operands that meet the hypotheses of each part of ServoEventsComplete. -/
theorem witness_ServoEventsComplete :
    (∃ (s : State) (p : Fin 4),
      Quiet s ∧ syncUsed s p = true) ∧
    (∃ (s : State) (p : Fin 4),
      Quiet s ∧ syncUsed s p = true ∧ s.time.servo = .locked ∧ s.time.badRun < 3) ∧
    (∃ (q : W16) (s : State) (p : Fin 4) (t2 : _) (c : _),
      Quiet s ∧ syncUsed s p = true ∧ s.time.servo = .locked ∧ s.time.badRun < 3 ∧ s.time.twoStep = some (q.toNat, t2, c)) ∧
    (∃ (dt : Nat) (s : State) (p : Fin 4) (origin : Nat) (corr : _),
      Quiet s ∧ syncUsed s p = true ∧ s.time.servo ≠ .locked ∧ (let off := offsetOf s p (origin : Nat) ((ptpTotalNs (elapse dt s) : Int) - ingressLatency s p) corr; stepLimit s < off.natAbs ∧ lockThreshold s < off.natAbs)) ∧
    (∃ (s : State) (k : LossKind),
      Quiet s ∧ timeRuns s = true ∧ s.time.servo = .locked ∧ (k = .noSync ∨ k = .linkDown)) ∧
    (∃ (dt : Nat) (s : State),
      Quiet s ∧ timeRuns s = true ∧ s.time.servo = .holdover ∧ ptpRole s = 2 ∧ s.time.isMaster = true ∧ s.time.heldSince + 3600000000 ≤ (elapse dt s).clock.real) ∧
    (∃ (s : State) (rising : Bool) (sec : _),
      Quiet s ∧ timeRuns s = true ∧ rising ≠ bit (ptpConfig s) 2 ∧ s.time.atPps = some sec) ∧
    (∃ (s : State) (rising : Bool),
      Quiet s ∧ timeRuns s = true ∧ rising ≠ bit (ptpConfig s) 2 ∧ s.time.atPps = none ∧ ptpRole s = 2 ∧ ppsEnable s = true ∧ s.time.isMaster = true ∧ s.time.servo = .gmPps ∧ s.time.badRun < 3) :=
  ⟨⟨clocked 0x400 slave, 0, by decide +kernel⟩,
    ⟨clocked 0x400 { slave with servo := .locked }, 0, by decide +kernel⟩,
    ⟨(7 : W16), clocked 0x400 { slave with servo := .locked, twoStep := some (7, 5, 0) }, 0, (5 : Int), (0 : Int), by decide +kernel⟩,
    ⟨10, clocked 0x400 slave, 0, (10000000000 : Nat), (0 : Int), by decide +kernel⟩,
    ⟨clocked 0x400 { slave with servo := .locked }, LossKind.linkDown, by decide +kernel⟩,
    ⟨3600000000, clocked 0x800 { slave with servo := .holdover, isMaster := true }, by decide +kernel⟩,
    ⟨withTag .pps (clocked 0x800 { slave with atPps := some 7 }), true, (7 : Nat), by decide +kernel⟩,
    ⟨clocked 0x1800 { slave with servo := .gmPps, isMaster := true }, true, by decide +kernel⟩⟩

/-- States and operands that meet the hypotheses of each part of OrdinaryClockEventsComplete. -/
theorem witness_OrdinaryClockEventsComplete :
    (∃ (s : State) (p : Fin 4) (a : AnnounceMsg),
      Quiet s ∧ timeRuns s = true ∧ ptpRole s = 1 ∧ p.val = ptpPort s ∧ ptpEnable s p = true ∧ a.domain.toNat = bits (ptpConfig s) 31 24 ∧ s.time.master = none ∧ a.utcValid = true) ∧
    (∃ (s : State) (p : Fin 4),
      Quiet s ∧ timeRuns s = true ∧ peerToPeer s = true ∧ ptpEnable s p = true) ∧
    (∃ (s : State),
      Quiet s ∧ timeRuns s = true ∧ peerToPeer s = true) ∧
    (∃ (q : W16) (s : State) (p : Fin 4) (t1 : _),
      Quiet s ∧ timeRuns s = true ∧ peerToPeer s = true ∧ ptpEnable s p = true ∧ s.time.pdelayReq[p] = some (q.toNat, t1)) ∧
    (∃ (s : State),
      Quiet s ∧ timeRuns s = true ∧ ptpRole s ≠ 0 ∧ peerToPeer s = false ∧ s.time.master.isSome = true) ∧
    (∃ (q : W16) (s : State) (p : Fin 4) (t3 : _),
      Quiet s ∧ syncUsed s p = true ∧ peerToPeer s = false ∧ s.time.delayReq = some (q.toNat, t3)) ∧
    (∃ (s : State),
      Quiet s ∧ timeRuns s = true ∧ ptpRole s = 2 ∧ s.time.isMaster = true) ∧
    (∃ (s : State),
      Quiet s ∧ timeRuns s = true ∧ s.rtc.hasLearned = true ∧ s.time.servo = .freeRun) ∧
    (∃ (dt : Nat) (s : State),
      Quiet s ∧ timeRuns s = true ∧ s.time.leap = 1 ∧ s.time.leapAt + 1 ≤ ((ptpSec (elapse dt s) : Int) - s.time.utcOffset).toNat) ∧
    (∃ (dt : Nat) (s : State),
      Quiet s ∧ timeRuns s = true ∧ s.time.leap = 2 ∧ s.time.leapAt ≤ ((ptpSec (elapse dt s) : Int) - s.time.utcOffset).toNat + 1) :=
  ⟨⟨clocked 0x400 TimeB.reset, 0, announced, by decide +kernel⟩,
    ⟨clocked 0x4400 slave, 0, by decide +kernel⟩,
    ⟨clocked 0x4400 slave, by decide +kernel⟩,
    ⟨7, clocked 0x4400 { slave with pdelayReq := Vector.replicate 4 (some (7, 5)) }, 0, (5 : Int), by decide +kernel⟩,
    ⟨clocked 0x400 slave, by decide +kernel⟩,
    ⟨(7 : W16), clocked 0x400 { slave with delayReq := some (7, 5) }, 0, (5 : Int), by decide +kernel⟩,
    ⟨clocked 0x800 { slave with isMaster := true }, by decide +kernel⟩,
    ⟨{ clocked 0 TimeB.reset with rtc := { Rtc.reset with hasLearned := true } }, by decide +kernel⟩,
    ⟨10, clocked 0 { TimeB.reset with leap := 1, leapAt := 0, utcOffset := -1 }, by decide +kernel⟩,
    ⟨10, clocked 0 { TimeB.reset with leap := 2, leapAt := 1, utcOffset := 0 }, by decide +kernel⟩⟩

/-- States and operands that meet the hypotheses of each part of TriggersAndCapturesComplete. -/
theorem witness_TriggersAndCapturesComplete :
    (∃ (dt : Nat) (s : State) (k : Fin 8),
      Quiet s ∧ triggersRun s = true ∧ (s.time.triggers[k]).on = true ∧ (s.time.triggers[k]).period ≠ 0 ∧ ((s.time.triggers[k]).count = 0 ∨ (s.time.triggers[k]).made < (s.time.triggers[k]).count) ∧ (s.time.triggers[k]).next ≤ ptpTotalNs (elapse dt s)) ∧
    (∃ (dt : Nat) (s : State) (k : Fin 8),
      Quiet s ∧ triggersRun s = true ∧ (s.time.triggers[k]).on = true ∧ (s.time.triggers[k]).period = 0 ∧ (s.time.triggers[k]).made = 0 ∧ (s.time.triggers[k]).level = false ∧ (s.time.triggers[k]).next ≤ ptpTotalNs (elapse dt s)) ∧
    (∃ (dt : Nat) (s : State) (k : Fin 8),
      Quiet s ∧ (s.time.triggers[k]).level = true ∧ (s.time.triggers[k]).endAt ≤ ptpTotalNs (elapse dt s)) ∧
    (∃ (s : State) (n : Fin 4) (rising : Bool),
      Quiet s ∧ triggersRun s = true ∧ (if rising then bit (getP s (0x0D1D + n)) 0 else bit (getP s (0x0D1D + n)) 1) = true) ∧
    (∃ (s : State),
      Quiet s ∧ triggersRun s = true ∧ (∃ n : Fin 4, (s.time.captures[n]).ring ≠ [])) :=
  ⟨⟨10, clocked 0 { TimeB.reset with triggers := Vector.replicate 8 { Trigger.off with on := true, period := 1000, count := 1 } }, 7, by decide +kernel⟩,
    ⟨10, clocked 0 { TimeB.reset with triggers := Vector.replicate 8 { Trigger.off with on := true } }, 0, by decide +kernel⟩,
    ⟨10, clocked 0 { TimeB.reset with triggers := Vector.replicate 8 { Trigger.off with on := true, level := true } }, 0, by decide +kernel⟩,
    ⟨{ bench .run with cfg := [(0x0D20, 2)] }, 3, false, by decide +kernel⟩,
    ⟨clocked 0 { TimeB.reset with captures := Vector.replicate 4 { CapIn.reset with ring := [⟨1, true, ⟨0, 0⟩⟩] } }, by decide +kernel⟩⟩

/-- States and operands that meet the hypotheses of each part of CalendarEventsComplete. -/
theorem witness_CalendarEventsComplete :
    (∃ (s : State),
      Quiet s ∧ rtcAlone s = false ∧ s.time.leap = 0 ∧ s.rtc.leapSkip = none ∧ s.rtc.dstPending = none ∧ s.rtc.stepDue = none) ∧
    (∃ (s : State),
      Quiet s ∧ rtcAlone s = false ∧ pendingOf s 0x0E13 = none ∧ s.time.leap = 1 ∧ utcOfCal s (s.rtc.cal + 1) = s.time.leapAt ∧ s.rtc.leapShown ≠ s.time.leapAt) ∧
    (∃ (s : State),
      Quiet s ∧ rtcAlone s = false ∧ s.time.leap = 0 ∧ s.rtc.leapSkip = none ∧ s.rtc.dstPending = some true ∧ s.rtc.cal + 1 < cycleSec) ∧
    (∃ (s : State),
      Quiet s) ∧
    (∃ (dt : Nat) (s : State) (span : _) (u : _),
      Quiet s ∧ timeRuns s = true ∧ servoLocked s = true ∧ s.time.lockedUs = some u ∧ u + 60000000 ≤ (elapse dt s).clock.real ∧ span ≤ 200) ∧
    (∃ (s : State),
      Quiet s ∧ timeRuns s = true) :=
  ⟨⟨{ bench .run with rtc := { Rtc.reset with cal := cycleSec - 1 } }, by decide +kernel⟩,
    ⟨clocked 0 { TimeB.reset with leap := 1, leapAt := 946684801 }, by decide +kernel⟩,
    ⟨withTag .rtcDst ({ bench .run with rtc := { Rtc.reset with dstPending := some true } }), by decide +kernel⟩,
    ⟨bench .run, by decide +kernel⟩,
    ⟨60000000, clocked 0 { TimeB.reset with servo := .locked, lockedUs := some 0 }, (200 : Nat), (0 : Nat), by decide +kernel⟩,
    ⟨bench .run, by decide +kernel⟩⟩

/-- States and operands that meet the hypotheses of each part of RecorderEventsComplete. -/
theorem witness_RecorderEventsComplete :
    (∃ (s : State) (p : _) (rest : _),
      Quiet s ∧ evrRuns s = true ∧ s.evr.staging = p :: rest ∧ s.evr.heldPosts = [] ∧ eventClass p.code = some 0) ∧
    (∃ (s : State) (p : _) (rest : _),
      Quiet s ∧ evrRuns s = true ∧ s.evr.staging = p :: rest ∧ s.evr.heldPosts = [] ∧ eventClass p.code = some 1) ∧
    (∃ (s : State) (p : _) (rest : _),
      Quiet s ∧ evrRuns s = true ∧ s.evr.staging = p :: rest ∧ s.evr.heldPosts = [] ∧ eventClass p.code = some 2 ∧ s.evr.metro.length < 4096) ∧
    (∃ (s : State) (c : _) (n : _),
      Quiet s ∧ evrRuns s = true ∧ s.sys.mode ≠ .boot ∧ s.evr.winLimited = [(c, n)] ∧ eventClass c = some 0) ∧
    (∃ (s : State),
      Quiet s ∧ evrRuns s = true) ∧
    (∃ (dt : Nat) (s : State),
      Quiet s ∧ pioRuns s = true ∧ (tickStamp (elapse dt s)).ns = 0 ∧ s.evr.sampled ≠ some (monoUs (elapse dt s))) ∧
    (∃ (dt : Nat) (s : State),
      Quiet s ∧ meterSec (elapse dt s) % 3600 = 0 ∧ meterSec (elapse dt s) % 86400 ≠ 0) :=
  ⟨⟨{ bench .run with evr := { Evr.reset with staging := [posting 0x0E01] } }, posting 0x0E01, ([] : List Posting), by decide +kernel⟩,
    ⟨{ bench .run with evr := { Evr.reset with staging := [posting 0x0E02] } }, posting 0x0E02, ([] : List Posting), by decide +kernel⟩,
    ⟨{ bench .run with evr := { Evr.reset with staging := [posting 0x0901] } }, posting 0x0901, ([] : List Posting), by decide +kernel⟩,
    ⟨{ bench .run with evr := { Evr.reset with winLimited := [(0x0E01, 3)] } }, (0x0E01 : Nat), (3 : Nat), by decide +kernel⟩,
    ⟨bench .run, by decide +kernel⟩,
    ⟨0, { bench .run with cfg := [(0x0A10, 1), (0x1040, 1), (0x1041, 0x10001)], pio := { Pio.reset with ain := Pio.reset.ain.set 0 { Ain.reset with value := 0x3FF0000000000000, settling := 0, converted := true } } }, by decide +kernel⟩,
    ⟨0, { bench .run with clock := { Clock.reset with ptp := (3600 + State.reset.time.utcOffset.toNat) * secUnit } }, by decide +kernel⟩⟩

/-- States and operands that meet the hypotheses of each part of DisplayEventsComplete. -/
theorem witness_DisplayEventsComplete :
    (∃ (s : State) (r : _),
      Quiet s ∧ epdRuns s = true ∧ s.epd.queue = [r] ∧ epdEligible s r = true ∧ r.all = true ∧ 0 < r.rect.h) ∧
    (∃ (s : State) (r : _),
      Quiet s ∧ epdRuns s = true ∧ s.epd.queue = [r] ∧ epdEligible s r = true ∧ r.all = false ∧ 2 ≤ r.region ∧ changedLines r.rect s.epd.canvas s.epd.current = []) ∧
    (∃ (s : State) (u : _),
      Quiet s ∧ epdRuns s = true ∧ s.epd.power = true ∧ s.epd.good = true ∧ s.epd.running = [u] ∧ 1 < u.left) ∧
    (∃ (s : State) (u : _),
      Quiet s ∧ epdRuns s = true ∧ s.epd.power = true ∧ s.epd.good = true ∧ s.epd.running = [u] ∧ u.left = 1) ∧
    (∃ (dt : Nat) (s : State) (u : _),
      Quiet s ∧ epdRuns s = true ∧ s.epd.power = true ∧ s.epd.good = false ∧ s.epd.running = [u] ∧ u.startUs + 50000 ≤ monoUs (elapse dt s)) ∧
    (∃ (s : State),
      Quiet s ∧ s.epd.power = true) ∧
    (∃ (dt : Nat) (s : State),
      Quiet s ∧ s.epd.running = [] ∧ s.epd.endUs + 100000 ≤ monoUs (elapse dt s)) ∧
    (∃ (s : State),
      Quiet s ∧ epdRuns s = true ∧ pendingOf s 0x0F11 = none ∧ tempConfig s % 4 = 2) ∧
    (∃ (s : State),
      Quiet s ∧ epdRuns s = true ∧ s.epd.recovery = false) ∧
    (∃ (s : State),
      Quiet s ∧ epdRuns s = true ∧ s.epd.queue = []) :=
  ⟨⟨panel { Epd.reset with temp := some (25 * 2 ^ 32), queue := [request true] }, request true, by decide +kernel⟩,
    ⟨withTag (.display 1) (panel { Epd.reset with temp := some (25 * 2 ^ 32), queue := [request false] }), request false, by decide +kernel⟩,
    ⟨panel { Epd.reset with power := true, good := true, running := [update 2] }, update 2, by decide +kernel⟩,
    ⟨withTag (.display 1) (panel { Epd.reset with power := true, good := true, running := [update 1] }), update 1, by decide +kernel⟩,
    ⟨50000, withTag (.display 1) (panel { Epd.reset with power := true, running := [update 2] }), update 2, by decide +kernel⟩,
    ⟨panel { Epd.reset with power := true }, by decide +kernel⟩,
    ⟨100000, panel { Epd.reset with power := true }, by decide +kernel⟩,
    ⟨{ panel Epd.reset with cfg := [(0x0F10, 480 * 2 ^ 20 + 800 * 256), (0x0F11, 2)] }, by decide +kernel⟩,
    ⟨panel Epd.reset, by decide +kernel⟩,
    ⟨panel Epd.reset, by decide +kernel⟩⟩

/-- States and operands that meet the hypotheses of each part of SecurityEventsComplete. -/
theorem witness_SecurityEventsComplete :
    (∃ (s : State),
      Quiet s ∧ Canonical s = true ∧ s.sys.inReset = false ∧ s.sys.mode ≠ .backup ∧ s.sec.trngStopped = false) ∧
    (∃ (s : State),
      Quiet s ∧ s.sys.inReset = false ∧ s.sys.mode ≠ .backup) ∧
    (∃ (s : State) (cls : Fin 8),
      Quiet s ∧ 1 ≤ cls.val ∧ (imageOf s cls).stage = 2) ∧
    (∃ (s : State) (cls : Fin 8),
      Quiet s ∧ 4 ≤ cls.val ∧ (imageOf s cls).stage = 5 ∧ atSwitchPoint cls s = true) ∧
    (∃ (s : State) (cls : Fin 8),
      Quiet s ∧ 4 ≤ cls.val ∧ (imageOf s cls).stage = 5 ∧ atSwitchPoint cls s = true) ∧
    (∃ (dt : Nat) (s : State) (x : _) (k : _),
      Quiet s ∧ tickGoesOn s.pending = false ∧ tamperSource x (elapse dt s) = some k ∧ tampArmed s k = true ∧ 2 ≤ s.sys.mode.code ∧ s.sys.mode.code ≤ 8) ∧
    (∃ (s : State) (loop : Fin 2),
      Quiet s ∧ tampArmed s loop = true ∧ s.sys.mode ≠ .boot ∧ s.tamp.meshRun[loop] = 0) ∧
    (∃ (s : State) (loop : Fin 2),
      Quiet s ∧ tickGoesOn s.pending = false ∧ tampArmed s loop = true ∧ 2 ≤ s.sys.mode.code ∧ s.sys.mode.code ≤ 8 ∧ s.tamp.meshRun[loop] = 1) :=
  ⟨⟨bench .run, by decide +kernel⟩,
    ⟨bench .run, by decide +kernel⟩,
    ⟨withTag (.imageVerify 1) ({ bench .run with sec := { Sec.reset with images := Vector.replicate 7 { ImageClass.reset with stage := 2 } } }), 1, by decide +kernel⟩,
    ⟨withTag (.imageSwitch 7) ({ bench .run with sec := { Sec.reset with images := Vector.replicate 7 { ImageClass.reset with stage := 5, slotB := .factory } } }), 7, by decide +kernel⟩,
    ⟨(fun s => elapse 5 { s with subl := { s.subl with cut := { s.subl.cut with complete := true } } }) ({ bench .run with sec := { Sec.reset with images := Vector.replicate 7 { ImageClass.reset with stage := 5, slotB := .factory } } }), 4, by decide +kernel⟩,
    ⟨10, { bench .run with cfg := [(0x1210, 0x7F)] }, (TamperSign.temperature (-551)), (6 : Nat), by decide +kernel⟩,
    ⟨{ bench .run with cfg := [(0x1210, 0x7F)] }, 1, by decide +kernel⟩,
    ⟨{ bench .run with cfg := [(0x1210, 0x7F)], tamp := { Tamp.reset with meshRun := Vector.replicate 2 1 } }, 0, by decide +kernel⟩⟩

/-- States and operands that meet the hypotheses of each part of IntegrityEventsComplete. -/
theorem witness_IntegrityEventsComplete :
    (∃ (s : State) (f : ScrubFinding),
      Quiet s ∧ Canonical s = true ∧ mainRuns s = true ∧ f.mem.val ∈ [1, 2, 3, 5, 6, 7, 10, 11] ∧ 0 < f.bits ∧ f.bits ≤ (if f.mem.val = 11 then 2 else 1)) ∧
    (∃ (s : State) (f : ScrubFinding),
      Quiet s ∧ Canonical s = true ∧ mainRuns s = true ∧ f.mem.val ∈ [1, 2, 3, 5, 6, 7, 10, 11] ∧ (if f.mem.val = 11 then 2 else 1) < f.bits ∧ f.used = none ∧ s.intg.marked.contains (f.mem.val, f.addr.toNat) = false) ∧
    (∃ (s : State) (f : ScrubFinding),
      Quiet s ∧ tickGoesOn s.pending = false ∧ mainRuns s = true ∧ triggerActs s (.fault, 6) = true ∧ f.mem.val = 3 ∧ 1 < f.bits ∧ f.used = some .code) ∧
    (∃ (s : State),
      Quiet s) ∧
    (∃ (s : State) (core : Fin 4),
      Quiet s ∧ 1 ≤ core.val ∧ mainRuns s = true ∧ s.sys.mode ≠ .fault ∧ s.intg.lastExpiry.toList.getD (core.val - 1) none = none) ∧
    (∃ (dt : Nat) (s : State) (core : Fin 4) (u : _),
      Quiet s ∧ 1 ≤ core.val ∧ tickGoesOn s.pending = false ∧ mainRuns s = true ∧ triggerActs s (.fault, 6) = true ∧ s.intg.lastExpiry.toList.getD (core.val - 1) none = some u ∧ monoUs (elapse dt s) ≤ u + 600000000) ∧
    (∃ (s : State),
      Quiet s ∧ tickGoesOn s.pending = false ∧ mainRuns s = true ∧ triggerActs s (.fault, 6) = true) ∧
    (∃ (s : State),
      Quiet s ∧ tickGoesOn s.pending = false ∧ mainRuns s = true ∧ triggerActs s (.fault, 6) = true) ∧
    (∃ (s : State),
      Quiet s ∧ tickGoesOn s.pending = false ∧ vaxRuns s = true ∧ triggerActs s (.fault, 6) = true) ∧
    (∃ (s : State),
      Quiet s ∧ sublRuns s = true) ∧
    (∃ (s : State),
      Quiet s ∧ epdRuns s = true) ∧
    (∃ (s : State),
      Quiet s ∧ mainRuns s = true) ∧
    (∃ (s : State) (rising : Bool),
      Quiet s ∧ timeRuns s = true ∧ rising ≠ bit (getP s 0x1311) 11 ∧ bit (getP s 0x1311) 1 = true) ∧
    (∃ (dt : Nat) (s : State) (src : _),
      Quiet s ∧ s.intg.pending = some src ∧ s.intg.armed = true ∧ mainRuns s = true ∧ s.intg.pendingUs < monoUs (elapse dt s)) :=
  ⟨⟨bench .run, { mem := 5, addr := 64, bits := 1, owner := 6, used := none }, by decide +kernel⟩,
    ⟨bench .run, { mem := 5, addr := 64, bits := 2, owner := 6, used := none }, by decide +kernel⟩,
    ⟨bench .run, { mem := 3, addr := 64, bits := 2, owner := 6, used := some .code }, by decide +kernel⟩,
    ⟨bench .run, by decide +kernel⟩,
    ⟨bench .run, 3, by decide +kernel⟩,
    ⟨10, { bench .run with intg := { Intg.reset with lastExpiry := Vector.replicate 3 (some 0) } }, 1, (0 : Nat), by decide +kernel⟩,
    ⟨bench .run, by decide +kernel⟩,
    ⟨bench .run, by decide +kernel⟩,
    ⟨bench .run, by decide +kernel⟩,
    ⟨bench .run, by decide +kernel⟩,
    ⟨panel Epd.reset, by decide +kernel⟩,
    ⟨bench .run, by decide +kernel⟩,
    ⟨{ bench .run with cfg := [(0x1311, 2)] }, true, by decide +kernel⟩,
    ⟨10, { bench .run with intg := { Intg.reset with pending := some 1 }, hif := { (bench .run).hif with tags := [(3, .executing (exec_ .snapshot))] } }, (1 : Nat), by decide +kernel⟩⟩

/-- States and operands that meet the hypotheses of each part of PairMessagesComplete. -/
theorem witness_PairMessagesComplete :
    (∃ (dt : Nat) (s : State),
      Quiet s ∧ tickGoesOn s.pending = false ∧ s.sys.mode = .shadow ∧ paired s = true ∧ s.pair.lastHeard + takeoverUs s ≤ monoUs (elapse dt s) ∧ s.pair.lastMode = .run) ∧
    (∃ (s : State) (m : _) (c : _),
      Quiet s ∧ s.pair.listening = some (m, c) ∧ s.sys.mode = .boot) ∧
    (∃ (s : State) (m : _) (c : _),
      Quiet s ∧ s.pair.listening = some (m, c) ∧ s.sys.mode ≠ .boot ∧ s.pair.heard = false ∧ s.pair.gaveUp = true) ∧
    (∃ (s : State) (m : _) (c : _),
      Quiet s ∧ s.pair.listening = some (m, c) ∧ s.sys.mode ≠ .boot ∧ s.pair.heard = true) ∧
    (∃ (q : _) (s : State) (tag : _) (m : Fin 12) (b : Option (Fin 12)) (round : _) (sec : _) (ns : _),
      Quiet s ∧ paired s = true ∧ mainRuns s = true ∧ s.hif.up = true ∧ (pairKeyed s = false ∨ tag ≠ pairTag s 1 (heartbeatContent q (modeAt m) (b.map modeAt) round ⟨sec, ns⟩))) ∧
    (∃ (q : _) (s : State) (tag : _) (m : Fin 12) (b : Option (Fin 12)) (round : _) (sec : _) (ns : _),
      PairMessage 1 (heartbeatContent q (modeAt m) (b.map modeAt) round ⟨sec, ns⟩) tag s ∧ sendsHeartbeats s = false) ∧
    (∃ (q : _) (s : State) (tag : _) (m : Fin 12) (b : Option (Fin 12)) (round : _) (sec : _) (ns : _),
      PairMessage 1 (heartbeatContent q (modeAt m) (b.map modeAt) round ⟨sec, ns⟩) tag s ∧ sendsHeartbeats s = true) ∧
    (∃ (s : State) (tag : _) (round : _) (index : _) (part : _),
      PairMessage 2 (cutContent round index part) tag s ∧ s.sys.mode = .shadow ∧ s.pair.segments = [] ∧ index = 0 ∧ 28 ≤ part.length ∧ cutLength part ≤ part.length) ∧
    (∃ (s : State) (tag : _) (e : Fin 2) (tk : Fin 16) (sec : _) (ns : _) (image : _) (d : _) (x : _),
      PairMessage 3 (imageContent e tk ⟨sec, ns⟩ image) tag s ∧ s.sys.mode = .shadow ∧ tasksExecute s = true ∧ s.ctrl.change = none ∧ s.ctrl.swap = none ∧ taskDef s e tk = some d ∧ taskSt s e tk = some x ∧ x.mode = .waiting ∧ runOf s e tk = none) ∧
    (∃ (dt : Nat) (s : State) (tag : _) (sec : _) (ns : _) (packet : _),
      PairMessage 4 (logContent sec ns packet) tag s ∧ s.sys.mode = .shadow ∧ tickUs (elapse dt s) ≤ sec * 1000000 + ns / 1000) ∧
    (∃ (dt : Nat) (s : State) (tag : _) (sec : _) (ns : _) (packet : _),
      PairMessage 4 (logContent sec ns packet) tag s ∧ s.sys.mode = .shadow ∧ sec * 1000000 + ns / 1000 < tickUs (elapse dt s)) ∧
    (∃ (s : State) (tag : _) (kind : _) (round : _) (dig : _),
      PairMessage 5 (digestContent kind round dig) tag s ∧ (∀ o ∈ s.pair.digests, ¬(o.1 = kind ∧ o.2.1 = round))) ∧
    (∃ (s : State) (tag : _) (kind : _) (round : _) (dig : _) (own : _) (rest : _),
      PairMessage 5 (digestContent kind round dig) tag s ∧ tickGoesOn s.pending = false ∧ s.sys.mode = .shadow ∧ s.pair.digests = (kind, round, own) :: rest ∧ own ≠ dig) ∧
    (∃ (s : State) (tag : _) (kind : _) (round : _) (dig : _) (rest : _),
      PairMessage 5 (digestContent kind round dig) tag s ∧ tickGoesOn s.pending = false ∧ s.pair.digests = (kind, round, dig) :: rest) ∧
    (∃ (s : State) (tag : _) (round : _),
      PairMessage 6 (le 8 round) tag s ∧ s.pair.active = true) ∧
    (∃ (s : State) (tag : _) (seg : _),
      PairMessage 7 seg tag s ∧ s.sys.mode = .shadow) ∧
    (∃ (q : _) (s : State) (tag : _) (last : _),
      PairMessage 8 (statusContent q last) tag s ∧ s.pair.active = true) ∧
    (∃ (s : State),
      Quiet s ∧ s.sys.mode = .shadow) :=
  ⟨⟨100000, pairAt .shadow { Pair.reset with lastMode := .run }, by decide +kernel⟩,
    ⟨pairAt .boot { Pair.reset with listening := some (.run, 10), heard := true }, Mode.run, (10 : Nat), by decide +kernel⟩,
    ⟨pairAt .safe { Pair.reset with listening := some (.safe, 10), gaveUp := true }, Mode.safe, (10 : Nat), by decide +kernel⟩,
    ⟨pairAt .safe { Pair.reset with listening := some (.safe, 10), heard := true }, Mode.safe, (10 : Nat), by decide +kernel⟩,
    ⟨5, pairAt .run { Pair.reset with active := true }, zeros 48, (3 : Fin 12), (none : Option (Fin 12)), (4 : Nat), 1, 0, by decide +kernel⟩,
    ⟨5, pairAt .shadow Pair.reset, pairTag (pairAt .shadow Pair.reset) 1 ((heartbeatContent 5 (modeAt 3) ((none : Option (Fin 12)).map modeAt) 4 ⟨1, 0⟩)), (3 : Fin 12), (none : Option (Fin 12)), (4 : Nat), 1, 0, by decide +kernel⟩,
    ⟨5, pairAt .run { Pair.reset with active := true }, pairTag (pairAt .run { Pair.reset with active := true }) 1 ((heartbeatContent 5 (modeAt 3) ((none : Option (Fin 12)).map modeAt) 4 ⟨1, 0⟩)), (3 : Fin 12), (none : Option (Fin 12)), (4 : Nat), 1, 0, by decide +kernel⟩,
    ⟨pairAt .shadow Pair.reset, pairTag (pairAt .shadow Pair.reset) 2 (cutContent 4 0 (zeros 28)), (4 : Nat), (0 : Nat), zeros 28, by decide +kernel⟩,
    ⟨pairAt .shadow Pair.reset, pairTag (pairAt .shadow Pair.reset) 3 (imageContent 0 0 ⟨1, 0⟩ [1]), 0, 0, (1 : Nat), (0 : Nat), ([1] : Bytes), Tests.image.tasks[0], TaskSt.fresh 0 0, by decide +kernel⟩,
    ⟨10, pairAt .shadow Pair.reset, pairTag (pairAt .shadow Pair.reset) 4 (logContent 1 0 []), (1 : Nat), (0 : Nat), ([] : Bytes), by decide +kernel⟩,
    ⟨10, pairAt .shadow { Pair.reset with qualified := true }, pairTag (pairAt .shadow { Pair.reset with qualified := true }) 4 (logContent 0 0 []), (0 : Nat), (0 : Nat), ([] : Bytes), by decide +kernel⟩,
    ⟨pairAt .shadow Pair.reset, pairTag (pairAt .shadow Pair.reset) 5 (digestContent 0 4 (zeros 48)), (0 : Nat), (4 : Nat), zeros 48, by decide +kernel⟩,
    ⟨pairAt .shadow { Pair.reset with qualified := true, digests := [(0, 4, zeros 48)] }, pairTag (pairAt .shadow { Pair.reset with qualified := true, digests := [(0, 4, zeros 48)] }) 5 (digestContent 0 4 (1 :: zeros 47)), (0 : Nat), (4 : Nat), 1 :: zeros 47, zeros 48, ([] : List (Nat × Nat × Bytes)), by decide +kernel⟩,
    ⟨pairAt .shadow { Pair.reset with digests := [(0, 4, zeros 48)] }, pairTag (pairAt .shadow { Pair.reset with digests := [(0, 4, zeros 48)] }) 5 (digestContent 0 4 (zeros 48)), (0 : Nat), (4 : Nat), zeros 48, ([] : List (Nat × Nat × Bytes)), by decide +kernel⟩,
    ⟨pairAt .run { Pair.reset with active := true }, pairTag (pairAt .run { Pair.reset with active := true }) 6 (le 8 4), (4 : Nat), by decide +kernel⟩,
    ⟨pairAt .shadow Pair.reset, pairTag (pairAt .shadow Pair.reset) 7 (zeros 64), zeros 64, by decide +kernel⟩,
    ⟨true, pairAt .run { Pair.reset with active := true }, pairTag (pairAt .run { Pair.reset with active := true }) 8 (statusContent true 4), (4 : Nat), by decide +kernel⟩,
    ⟨pairAt .shadow Pair.reset, by decide +kernel⟩⟩

/-! ### Statements whose hypotheses need more than evaluation -/

theorem taken_of {r : CmdRes}
    (h : (match r with
      | .badParam _ | .reject _ _ => false
      | _ => true) = true) : (∀ off, r ≠ .badParam off) ∧ ∀ st b, r ≠ .reject st b := by
  cases r <;> simp_all

/-- A member of a pair that logs, with a packet that configures the optimisation. -/
def logging : State := pairAt .service { Pair.reset with active := true }

theorem witness_TransportEventsComplete_waits :
    ∃ (rc : (Nat → Env → Bytes → Instr) × Cmd) (dt : Nat) (q : Env) (pl : Bytes) (a : Auth) (s : State), rc ∈ hostRows ∧ Quiet s ∧
      Admitted rc.2 q pl a (elapse dt s) ∧ logs rc.2 pl s = true ∧
      (∀ off, rc.2.eff (requestOf rc.2 q pl a) (received rc.2 q pl (elapse dt s)) ≠ .badParam off) ∧
      ∀ st b, rc.2.eff (requestOf rc.2 q pl a) (received rc.2 q pl (elapse dt s)) ≠ .reject st b :=
  have h := taken_of (r := effOptConfig optDefault
    (received cmdOptConfig (asked 0x0420 optDefault) optDefault (elapse 10 logging))) (by decide +kernel)
  ⟨(.nmodOptConfig, cmdOptConfig), 10, asked 0x0420 optDefault, optDefault, sessionAuth, logging,
    .tail _ (.tail _ (.tail _ (.tail _ (.tail _ (.tail _ (.tail _ (.tail _ (.tail _ (.tail _ (.tail _ (.tail _ (.tail _ (.tail _ (.tail _ (.tail _ (.tail _ (.tail _ (.head _)))))))))))))))))),
    by decide +kernel, by decide +kernel, by decide +kernel, h.1, h.2⟩

/-- A logged command that is due. -/
def dueReq : Req :=
  { org := ⟨.xspi, 0, 0⟩, hdr := { verFlags := 1, tag := 3, opcode := 0x0430, length := 0, epoch := 0, seq := 5, reserved := 0 },
    payload := [], auth := nobody }
def dueState : State := withTag (.logged dueReq 0) (bench .run)

theorem witness_TransportEventsComplete_logged :
    ∃ (dt : Nat) (c : Cmd) (tag : _) (q : Req) (st : _) (reg : _) (body : _) (u s : State),
      Quiet s ∧ s.sys.mode ≠ .shadow ∧ dueLogged (elapse dt s) = [(tag, q)] ∧ cmdOf q.hdr.opcode = some c ∧
      c.modeOk q.payload s = true ∧ c.eff q (setWait tag .now (elapse dt s)) = .done st reg body u ∧ Quiet u ∧
      u.pending = s.pending :=
  ⟨10, cmdCalibGet, 3, dueReq, stOK, false, _, _, dueState, by decide +kernel, by decide +kernel, by decide +kernel, rfl, by decide +kernel,
    rfl, by decide +kernel, rfl⟩

/-! ### The machine -/

theorem witness_StepTakesTheFrontCommand :
    (∃ (c : Instr) (rest : List Instr) (s : State), s.pending = c :: rest) ∧ ∃ s : State, s.pending = [] :=
  ⟨⟨.holdupEnd 0, [], { State.reset with pending := [.holdupEnd 0] }, rfl⟩, ⟨State.reset, rfl⟩⟩

theorem witness_EveryCommandEnds : ∃ s : State, tickGoesOn s.pending = false := ⟨State.reset, by decide +kernel⟩

theorem witness_QuantaAttributedOnce : (∃ p : Int, 0 ≤ p) ∧ ∃ p : Int, p < 0 := ⟨⟨0, by decide⟩, ⟨-1, by decide⟩⟩

theorem witness_StepKeepsCanonicalForm :
    ∃ s t : State, Canonical s = true ∧ step s = .next t :=
  ⟨{ bench .run with pending := [.flowPulse 1 0 ⟨true, 0, false⟩] }, _, by decide +kernel, rfl⟩

theorem witness_RejectedPacketsChangeNothing :
    (∃ (rc : _) (q : Env) (pl : Bytes) (n : W32) (s : State), rc ∈ hostRows ∧ Quiet s ∧ hostOpen s = true ∧
      (q.tr = .xspi → rxReady s = true) ∧ (q.tr = .udp → udpAdmits s q.srcIp.toNat = true) ∧
      (envPkt rc.2.op q pl).size ≤ 4268 ∧ rc.2.op ≠ 0x0201 ∧ (linkOf s q.tr).expected = some n ∧ q.seq ≠ n) ∧
    (∃ (rc : _) (dt : Nat) (q : Env) (pl : Bytes) (s : State), rc ∈ hostRows ∧ Quiet s ∧ passesFraming rc.2 q pl s = true ∧
      rc.2.legal (envPkt rc.2.op q pl) (sequenced q (elapse dt s)) = false) ∧
    (∃ (rc : _) (dt : Nat) (q : Env) (pl : Bytes) (st : Nat) (b : Bytes) (s : State), rc ∈ hostRows ∧ Quiet s ∧
      passesFraming rc.2 q pl s = true ∧ rc.2.legal (envPkt rc.2.op q pl) (sequenced q (elapse dt s)) = true ∧
      authCheck (rc.2.need (envPkt rc.2.op q pl) (sequenced q (elapse dt s))) (envPkt rc.2.op q pl) (sequenced q (elapse dt s)) =
        .fail st b) ∧
    (∃ (rc : _) (dt : Nat) (q : Env) (pl : Bytes) (a : Auth) (s : State), rc ∈ hostRows ∧ Quiet s ∧
      passesFraming rc.2 q pl s = true ∧ s.sys.resetPending.isSome = true ∧
      rc.2.legal (envPkt rc.2.op q pl) (sequenced q (elapse dt s)) = true ∧
      authCheck (rc.2.need (envPkt rc.2.op q pl) (sequenced q (elapse dt s))) (envPkt rc.2.op q pl) (sequenced q (elapse dt s)) =
        .ok a ∧ rc.2.op ≠ 0x0101 ∧ rc.2.op ≠ 0x0120) ∧
    (∃ (rc : _) (dt : Nat) (q : Env) (pl : Bytes) (a : Auth) (off : Nat) (s : State), rc ∈ hostRows ∧ Quiet s ∧
      Admitted rc.2 q pl a (elapse dt s) ∧
      rc.2.eff (requestOf rc.2 q pl a) (received rc.2 q pl (elapse dt s)) = .badParam off) ∧
    (∃ (rc : _) (dt : Nat) (q : Env) (pl : Bytes) (a : Auth) (st : Nat) (b : Bytes) (s : State), rc ∈ hostRows ∧ Quiet s ∧
      Admitted rc.2 q pl a (elapse dt s) ∧
      rc.2.eff (requestOf rc.2 q pl a) (received rc.2 q pl (elapse dt s)) = .reject st b) ∧
    (∃ (dt : Nat) (q : Env) (pl : Bytes) (a : Auth) (s : State), Arrives cmdParamRead dt q pl a s ∧ pinfo (fld pl 0 2) = none) ∧
    (∃ (dt : Nat) (q : Env) (pl : Bytes) (a : Auth) (s : State), Arrives cmdParamWrite dt q pl a s ∧
      ∃ e ∈ entriesOf pl, pinfo e.id = none) :=
  ⟨⟨(.sysStatus, cmdSysStatus), open_ 3, [], 6,
      { bench .run with hif := { (bench .run).hif with xspi := { (bench .run).hif.xspi with expected := some 6 } } },
      .head _, by decide +kernel, by decide +kernel, fun _ => (by decide +kernel), fun h => (by cases h), by decide +kernel,
      by decide +kernel, by decide +kernel, by decide +kernel⟩,
    ⟨(.solvJobSubmit, cmdJobSubmit), 10, open_ 3, zeros 192, bench .run,
      .tail _ (.tail _ (.tail _ (.tail _ (.tail _ (.tail _ (.tail _ (.tail _ (.tail _ (.tail _ (.tail _ (.head _))))))))))), by decide +kernel,
      by decide +kernel, by decide +kernel⟩,
    ⟨(.sysReset, cmdSysReset), 10, open_ 3, le 4 0x5AA5C33C, stAuthRequired, [2, 0, 0, 0], bench .run, .tail _ (.tail _ (.head _)),
      by decide +kernel, by decide +kernel, by decide +kernel, rfl⟩,
    ⟨(.paramRead, cmdParamRead), 10, open_ 3, le 2 0x0110 ++ [1, 0], nobody,
      { bench .run with sys := { Sys.reset with mode := .run, resetPending := some 3 } },
      .tail _ (.tail _ (.tail _ (.head _))), by decide +kernel, by decide +kernel, by decide +kernel, by decide +kernel, rfl,
      by decide +kernel, by decide +kernel⟩,
    ⟨(.paramRead, cmdParamRead), 10, open_ 3, le 2 0x01FF ++ [1, 0], nobody, 0, bench .run, .tail _ (.tail _ (.tail _ (.head _))),
      by decide +kernel, by decide +kernel, rfl⟩,
    ⟨(.sysModeRequest, cmdModeRequest), 10, asked 0x0102 [7, 0, 0, 0], [7, 0, 0, 0], sessionAuth, stBusy, _,
      { bench .run with sys := { (bench .run).sys with trans := some { target := .safe, cause := 1, tag := none, atCut := false } } },
      .tail _ (.head _), by decide +kernel, by decide +kernel, rfl⟩,
    ⟨10, open_ 3, le 2 0x01FF ++ [1, 0], nobody, bench .run, arrives_of (by decide +kernel), by decide +kernel⟩,
    ⟨10, asked 0x0111 (paramWriteOne 0x01FF 4 5), paramWriteOne 0x01FF 4 5, sessionAuth, bench .run, arrives_of (by decide +kernel),
      by decide +kernel⟩⟩

theorem witness_CalendarIsGregorian :
    (∃ n, n < cycleDays) ∧ ∃ y m d, 2000 ≤ y ∧ y ≤ 2399 ∧ 1 ≤ m ∧ m ≤ 12 ∧ 1 ≤ d ∧ d ≤ monthDays y m :=
  ⟨⟨cycleDays - 1, by decide +kernel⟩, ⟨2399, 12, 31, by decide +kernel⟩⟩

/-! ### Ill-formed commands are refused -/

theorem test_wf_signature : (Instr.sysStatus 0 { open_ 3 with sig := some ⟨7, 0, 1, zeros 95⟩ } []).wf = false := by decide +kernel

theorem test_wf_session : (Instr.sysStatus 0 { open_ 3 with sess := some (zeros 47) } []).wf = false := by decide +kernel

theorem test_wf_payload : (Instr.sysStatus 0 (open_ 3) (zeros 4097)).wf = false := by decide +kernel

theorem test_wf_fragment :
    (Instr.udpDatagram 0
      ⟨{ srcIp := 1, srcPort := 2, ident := 7, offset := 4, more := true, checksumOk := true, unicast := true, vlan := 1,
         dstPort := 3, data := [1] },
        ⟨.none, 0⟩⟩).wf = false := by decide +kernel

theorem test_wf_datagram_end :
    (Instr.udpDatagram 0
      ⟨{ srcIp := 1, srcPort := 2, ident := 7, offset := 65507, more := false, checksumOk := true, unicast := true, vlan := 1,
         dstPort := 3, data := [1] },
        ⟨.none, 0⟩⟩).wf = false := by decide +kernel

theorem test_wf_report :
    (Instr.reportArrival 0 1 2 { (toConcourse []).toUdpRest with offset := 4, data := [1] }).wf = false := by decide +kernel

theorem test_wf_class : (Instr.imageSwitch 0 0 0 true).wf = false := by decide +kernel

theorem test_wf_digest_kind : (Instr.digest 0 (zeros 48) 3 0 (zeros 48)).wf = false := by decide +kernel

theorem test_wf_digest_length : (Instr.digest 0 (zeros 48) 0 0 (zeros 47)).wf = false := by decide +kernel

theorem test_wf_holds : (Instr.digest 0 (zeros 48) 2 0 (zeros 48)).wf = true := by decide +kernel

/-! ### Values from the manual's text and from the standards it names -/

/-- R76: the CRC of "123456789". -/
theorem test_crc32c : crc32c [49, 50, 51, 52, 53, 54, 55, 56, 57] = 0xE3069283 := by decide +kernel

/-- FIPS 180-4: SHA-384 of "abc" begins with CB00753F and ends with 34C825A7. -/
theorem test_sha384_abc :
    (sha384 [97, 98, 99]).take 4 = [0xCB, 0x00, 0x75, 0x3F] ∧ (sha384 [97, 98, 99]).drop 44 = [0x34, 0xC8, 0x25, 0xA7] := by
  decide +kernel

/-- Chapter 5, *One dot product, three partitions*: the exact sum is 2. -/
theorem test_dot_exact :
    (match dotK [0x4340000000000000, 0x3FF0000000000000, 0x3FF0000000000000, 0xC340000000000000] (List.replicate 4 0x3FF0000000000000) with
      | .ok v => v
      | .error _ => 0) = 0x4000000000000000 := by decide +kernel

/-- Chapter 11, *One phase of the heat-pump supply*: the quantum of the first cycle. -/
theorem test_quantum :
    quantumOf { bench .run with cfg := [(0x0841, 11000000), (0x0842, 250000)] } 0 89369679495168000000 = 15895000000000 := by
  decide +kernel

/-- Chapter 13, *Store pressure*: RAW 4,697,620 is 999,999.857 Pa. -/
theorem test_analog_value :
    let v := ainValue { bench .run with cfg := [(0x0A21, 0), (0x0A22, 0x49C35000), (0x0A23, 100000)] } 4 1 4697620
    0x412E847FB6BB98C8 < v ∧ v < 0x412E847FB70A3D71 := by decide +kernel

/-- Chapter 16: 2027-10-31 is a Sunday, WEEKDAY 7. -/
theorem test_weekday : weekdayOf (daysOf 2027 10 31) = 7 ∧ dateOf (daysOf 2027 10 31) = (2027, 10, 31) := by decide +kernel

/-- Chapter 22, *Signed calibration write*: the entries of the payload. -/
theorem test_entries :
    (entriesOf ([2, 0, 0, 0, 0x16, 8, 4, 0, 0xBE, 8, 0xFE, 0x3F, 0, 0, 0, 0, 0x17, 8, 4, 0, 0x30, 0, 0, 0, 0, 0, 0, 0])).map (·.id) =
      [0x0816, 0x0817] := by decide +kernel

/-- The table gives no row bits: no word spells a command. -/
theorem test_decode_none : decodeTableWord 16 0x0102 = none := rfl

/-! ### Chapter 9: the chained timer of R282 -/

/-- The releases, in units of 0.1 s, at which a timer of 1 s in a task of 300 ms expires, its IN the inverse of its Q. -/
def expiries (chain : Bool) (n : Nat) : List Nat :=
  ((List.range n).foldl (fun (a : Timer × List Nat) k =>
    let x := { a.1 with input := !a.1.q }
    let y := tonBlock { t := ((300000 * k : Nat) : Int), dtUs := 300000, cycleUs := 300000, stepped := false, compat := false, firstScan := false } x
    (y, if y.q && !x.q then a.2 ++ [3 * k] else a.2)) ({ Timer.init with pt := 1000000, chain := chain }, [])).2

theorem test_ton_chain : expiries true 15 = [12, 21, 30, 42] := by decide +kernel

theorem test_ton_plain : expiries false 17 = [12, 30, 48] := by decide +kernel

/-- R288: an instance added by an online change sees no edge at its first execution. -/
theorem test_edge_added :
    (rTrigBlock { t := 0, dtUs := 0, cycleUs := 1, stepped := false, compat := false, firstScan := false } ⟨false, true, false, false⟩).q =
      false := by decide +kernel

end Sys2Proof.Tests
end

/-! A rejected packet: what its reply leaves as it was, and the check that rejects it. -/

namespace Sys2Proof.Machine

/-! ### A packet that is judged and not answered yet -/

/-- No reply has been queued and no tag touched; what may have changed is what the checks themselves leave: links, counters, the
event record and the draw counter (R78). -/
def Unanswered (s u : State) : Prop :=
  ∃ h e d, u = { s with hif := h, evr := e, draws := d } ∧ h.tags = s.hif.tags ∧ h.xspiQ = s.hif.xspiQ ∧ h.uartQ = s.hif.uartQ

theorem Unanswered.refl (s : State) : Unanswered s s := ⟨_, _, _, rfl, rfl, rfl, rfl⟩

theorem Unanswered.trans {s u v : State} (hu : Unanswered s u) (hv : Unanswered u v) : Unanswered s v := by
  obtain ⟨h, e, d, rfl, ht, hx, ha⟩ := hu
  obtain ⟨h', e', d', rfl, ht', hx', ha'⟩ := hv
  exact ⟨h', e', d', rfl, ht'.trans ht, hx'.trans hx, ha'.trans ha⟩

theorem unanswered_setLink (tr : Transport) (l : Link) (s : State) : Unanswered s (setLink tr l s) := by
  cases tr <;> exact ⟨_, _, _, rfl, rfl, rfl, rfl⟩

theorem unanswered_sequenced (q : Env) (s : State) : Unanswered s (sequenced q s) := unanswered_setLink ..

theorem unanswered_received (c : Cmd) (q : Env) (pl : Bytes) (s : State) : Unanswered s (received c q pl s) := by
  obtain ⟨l, e⟩ := received_shape c q pl s
  rw [e]; exact unanswered_setLink ..

theorem unanswered_post (code index : Nat) (data : Bytes) (keyId : Nat) (s : State) :
    Unanswered s (post code index data keyId s) := ⟨_, _, _, rfl, rfl, rfl, rfl⟩

theorem unanswered_draw (s : State) : Unanswered s (draw s) := ⟨_, _, _, rfl, rfl, rfl, rfl⟩

theorem unanswered_sequenceError (s : State) :
    Unanswered s (updHif (fun h => { h with sequenceErrors := h.sequenceErrors + 1 }) s) := ⟨_, _, _, rfl, rfl, rfl, rfl⟩

theorem unanswered_authFailure (s : State) :
    Unanswered s (updHif (fun h => { h with authFailures := h.authFailures + 1 }) s) := ⟨_, _, _, rfl, rfl, rfl, rfl⟩

theorem Unanswered.ite {s u : State} {c : Prop} [Decidable c] (h : Unanswered s u) : Unanswered s (if c then u else s) := by
  split
  · exact h
  · exact .refl s

/-! ### The reply of a rejection -/

/-- A reply with the origin and tag of a packet is all that is missing for its rejection. -/
theorem refused_sendReply {q : Env} {s u : State} {r : Reply} (hu : Unanswered s u)
    (ho : r.org = ⟨q.tr, q.srcIp.toNat, q.srcPort.toNat⟩) (ht : r.tag = q.tag.toNat) : Refused q r.status s (sendReply r u) := by
  obtain ⟨h, e, d, rfl, htags, hx, ha⟩ := hu
  simp only [Refused, sendReply, ho]
  cases q.tr with
  | xspi => exact ⟨_, _, _, _, rfl, htags, rfl, _, congrArg (· ++ _) hx, ht, rfl⟩
  | uart => exact ⟨_, _, _, _, rfl, htags, rfl, _, congrArg (· ++ _) ha, ht, rfl⟩
  | udp => exact ⟨_, _, _, _, rfl, htags, _, _, rfl, rfl, rfl, ht, rfl⟩

theorem refused_replyTo {op : Nat} {q : Env} {pl : Bytes} {s u : State} (hu : Unanswered s u) (st fl : Nat) (b : Bytes)
    (crcs back held : Nat × Nat) : Refused q st s (replyTo (envPkt op q pl) st fl b crcs back held u) :=
  refused_sendReply hu rfl rfl

/-- A packet that fails one of checks 2 to 5 is answered with its status and changes nothing else. -/
theorem refused_refuse {op : Nat} {q : Env} {pl : Bytes} {s u : State} (hu : Unanswered s u) (st : Nat) (b : Bytes)
    (back : Bool) : Refused q st s (refuse (envPkt op q pl) st b back u) := by
  have hd : Unanswered u (if (envPkt op q pl).e2e then openVal 62 u else (0, u)).2 := by
    split
    · exact unanswered_draw u
    · exact .refl u
  exact refused_replyTo (hu.trans hd) ..

/-- A packet that fails one of checks 6 to 8 is answered with its status and changes nothing else. -/
theorem refused_reject {op : Nat} {q : Env} {pl : Bytes} {s u : State} (hu : Unanswered s u) (st : Nat) (b : Bytes) :
    Refused q st s (reject (envPkt op q pl) st b u) := by
  unfold reject
  exact refused_replyTo ((hu.trans (.ite (unanswered_post ..))).trans (.ite (unanswered_authFailure _))) ..

/-! ### The sequence number expected next -/

@[simp] theorem linkOf_setLink_same (tr : Transport) (l : Link) (s : State) : linkOf (setLink tr l s) tr = l := by
  cases tr <;> rfl

/-- A reply takes no more of its link than the number of the next reply. -/
@[simp] theorem sendReply_expected (r : Reply) (s : State) (tr : Transport) :
    (linkOf (sendReply r s) tr).expected = (linkOf s tr).expected := by
  obtain ⟨⟨t, ip, port⟩, tag⟩ := r
  cases t <;> cases tr <;> rfl

theorem replyTo_expected (p : Pkt) (st fl : Nat) (b : Bytes) (crcs back held : Nat × Nat) (s : State) (tr : Transport) :
    (linkOf (replyTo p st fl b crcs back held s) tr).expected = (linkOf s tr).expected := sendReply_expected ..

theorem linkOf_of_hif {s u : State} (h : u.hif = s.hif) (tr : Transport) : linkOf u tr = linkOf s tr := by
  cases tr <;> simp [linkOf, h]

theorem refuse_expected (p : Pkt) (st : Nat) (b : Bytes) (back : Bool) (s : State) (tr : Transport) :
    (linkOf (refuse p st b back s) tr).expected = (linkOf s tr).expected := by
  have hd : (if p.e2e then openVal 62 s else (0, s)).2.hif = s.hif := by split <;> rfl
  exact (replyTo_expected ..).trans (congrArg _ (linkOf_of_hif hd tr))

theorem linkOf_sequenceError (s : State) (tr : Transport) :
    linkOf (updHif (fun h => { h with sequenceErrors := h.sequenceErrors + 1 }) s) tr = linkOf s tr := by
  cases tr <;> rfl

theorem reject_expected (p : Pkt) (st : Nat) (b : Bytes) (s : State) (tr : Transport) :
    (linkOf (reject p st b s) tr).expected = (linkOf s tr).expected := by
  refine (replyTo_expected ..).trans ?_
  split <;> split <;> cases tr <;> rfl

/-- A session packet leaves the sequence number expected as it is. -/
theorem touchSession_expected (p : Pkt) (s : State) (tr : Transport) :
    (linkOf (touchSession p s) tr).expected = (linkOf s tr).expected := by
  rcases p with ⟨⟨t, ip, port⟩, hdr⟩
  simp only [touchSession]
  (repeat' split) <;> cases t <;> cases tr <;> rfl

theorem sequenced_expected (q : Env) (s : State) : (linkOf (sequenced q s) q.tr).expected = some (q.seq + 1) := by
  simp [sequenced]

theorem received_expected (c : Cmd) (q : Env) (pl : Bytes) (s : State) :
    (linkOf (received c q pl s) q.tr).expected = some (q.seq + 1) :=
  (touchSession_expected ..).trans (sequenced_expected q s)

/-! ### The checks in their order, on the state at which the packet arrives -/

/-- A packet that its transport takes is left to checks 2 to 8. -/
theorem hostCommand_taken {c : Cmd} {q : Env} {pl : Bytes} {s : State} (ho : hostOpen s = true)
    (hx : q.tr = .xspi → rxReady s = true) (hu : q.tr = .udp → udpAdmits s q.srcIp.toNat = true)
    (hn : (envPkt c.op q pl).size ≤ 4268) : hostCommand c q pl s = checks (some c) (envPkt c.op q pl) s := by
  simp only [hostCommand]
  rw [if_neg (by simp [ho]), if_neg (fun h => by simp [hx h.1] at h), if_neg (fun h => by simp [hu h.1] at h),
    if_neg (Nat.not_lt.mpr hn)]

/-- A packet that passes checks 1 to 5 is left to checks 6 to 8. -/
theorem hostCommand_framed {c : Cmd} {q : Env} {pl : Bytes} {s : State} (h : passesFraming c q pl s = true) :
    hostCommand c q pl s = dispatch c (envPkt c.op q pl) (sequenced q s) := by
  unfold passesFraming at h
  simp only [Bool.and_eq_true, decide_eq_true_eq, Bool.not_eq_true', Bool.and_eq_false_imp, beq_iff_eq, Bool.not_eq_false',
    Option.isNone_iff_eq_none, Bool.or_eq_true] at h
  obtain ⟨⟨⟨⟨⟨⟨⟨⟨hopen, hx⟩, hu⟩, hn⟩, hseq⟩, hcredit⟩, hhdr⟩, hsize⟩, hlen⟩ := h
  have hs : (c.op != 0x0201 && q.seq.toNat != ((linkOf s q.tr).expected.getD q.seq).toNat) = false := by
    rcases hseq with e | e <;> simp [e]
  have hc : checks (some c) (envPkt c.op q pl) s = inSequence (some c) (envPkt c.op q pl) (sequenced q s) := by
    have e : BitVec.ofNat 32 (envPkt c.op q pl).hdr.seq = q.seq := BitVec.ofNat_toNat .. |>.trans (BitVec.setWidth_eq _)
    simp only [checks, e]
    exact if_neg (by rw [Bool.not_eq_true]; exact hs)
  rw [hostCommand_taken hopen hx hu hn, hc]
  simp [inSequence, hcredit, hhdr, hlen, ← hsize]

/-- Check 2. -/
theorem hostCommand_of_wrong_sequence {c : Cmd} {q : Env} {pl : Bytes} {n : W32} {s : State} (ho : hostOpen s = true)
    (hx : q.tr = .xspi → rxReady s = true) (hu : q.tr = .udp → udpAdmits s q.srcIp.toNat = true)
    (hn : (envPkt c.op q pl).size ≤ 4268) (hop : c.op ≠ 0x0201) (he : (linkOf s q.tr).expected = some n) (hne : q.seq ≠ n) :
    hostCommand c q pl s =
      refuse (envPkt c.op q pl) stSequenceError (le 4 n.toNat) true
        (updHif (fun h => { h with sequenceErrors := h.sequenceErrors + 1 }) s) := by
  have hs : q.seq.toNat ≠ n.toNat := fun e => hne (BitVec.eq_of_toNat_eq e)
  have e : (linkOf s (envPkt c.op q pl).org.tr).expected = some n := he
  rw [hostCommand_taken ho hx hu hn]
  simp only [checks, e, Option.getD_some]
  exact if_pos (by simpa [hop] using ⟨hop, hs⟩)

/-- Check 6. -/
theorem hostCommand_of_not_legal {c : Cmd} {q : Env} {pl : Bytes} {s : State} (h : passesFraming c q pl s = true)
    (hl : c.legal (envPkt c.op q pl) (sequenced q s) = false) :
    hostCommand c q pl s =
      reject (envPkt c.op q pl) stNotInState (notInStateBody (sequenced q s)) (sequenced q s) := by
  simp [hostCommand_framed h, dispatch, hl]

/-- Check 7. -/
theorem hostCommand_of_not_authorised {c : Cmd} {q : Env} {pl : Bytes} {s : State} {st : Nat} {b : Bytes}
    (h : passesFraming c q pl s = true) (hl : c.legal (envPkt c.op q pl) (sequenced q s) = true)
    (ha : authCheck (c.need (envPkt c.op q pl) (sequenced q s)) (envPkt c.op q pl) (sequenced q s) = .fail st b) :
    hostCommand c q pl s = reject (envPkt c.op q pl) st b (received c q pl s) := by
  simp [hostCommand_framed h, dispatch, hl, ha, received]

/-- A reset that is pending bars every command but SYS_STATUS and RESULT_FETCH. -/
theorem hostCommand_of_reset_pending {c : Cmd} {q : Env} {pl : Bytes} {s : State} {a : Auth}
    (h : passesFraming c q pl s = true) (hl : c.legal (envPkt c.op q pl) (sequenced q s) = true)
    (ha : authCheck (c.need (envPkt c.op q pl) (sequenced q s)) (envPkt c.op q pl) (sequenced q s) = .ok a)
    (hr : s.sys.resetPending.isSome = true) (h1 : c.op ≠ 0x0101) (h2 : c.op ≠ 0x0120) :
    hostCommand c q pl s = reject (envPkt c.op q pl) stBusy [] (received c q pl s) := by
  have hb : ((received c q pl s).sys.resetPending.isSome && c.op != 0x0101 && c.op != 0x0120) = true := by simp [hr, h1, h2]
  rw [hostCommand_framed h]
  simp only [dispatch, hl, ha, check8]
  exact if_pos hb

/-- Check 8, for what the command asks for: a field out of range. -/
theorem hostCommand_of_badParam {c : Cmd} {q : Env} {pl : Bytes} {a : Auth} {s : State} {off : Nat} (h : Admitted c q pl a s)
    (he : c.eff (requestOf c q pl a) (received c q pl s) = .badParam off) :
    hostCommand c q pl s = reject (envPkt c.op q pl) stBadParam (badParamBody off) (received c q pl s) := by
  rw [hostCommand_admitted h, he]

/-- Check 8, for what the command asks for: the status that its own rule names. -/
theorem hostCommand_of_reject {c : Cmd} {q : Env} {pl : Bytes} {a : Auth} {s : State} {st : Nat} {b : Bytes}
    (h : Admitted c q pl a s) (he : c.eff (requestOf c q pl a) (received c q pl s) = .reject st b) :
    hostCommand c q pl s = reject (envPkt c.op q pl) st b (received c q pl s) := by
  rw [hostCommand_admitted h, he]

/-! ### The row of a rejected packet -/

/-- Every row of a host command puts its packet through the checks, after its time. -/
theorem exec_hostRow {rc : (Nat → Env → Bytes → Instr) × Cmd} (h : rc ∈ hostRows) (dt : Nat) (q : Env) (pl : Bytes) (s : State) :
    exec (rc.1 dt q pl) s = event dt (hostCommand rc.2 q pl) s := by
  revert rc
  simp only [hostRows, List.forall_mem_append, List.forall_mem_cons, List.not_mem_nil, false_imp_iff, implies_true, and_true]
  and_intros <;> rfl

/-- A rejection leaves nothing for the end of the tick, so that its row ends in it. -/
theorem exec_of_refused {rc : (Nat → Env → Bytes → Instr) × Cmd} {dt : Nat} {q : Env} {pl : Bytes} {st : Nat} {s : State}
    (hrc : rc ∈ hostRows) (hq : Quiet s) (h : Refused q st (elapse dt s) (hostCommand rc.2 q pl (elapse dt s))) :
    ∃ t, exec (rc.1 dt q pl) s = .next t ∧ t = hostCommand rc.2 q pl (elapse dt s) ∧ Refused q st (elapse dt s) t := by
  obtain ⟨htrig, hdig, -⟩ := quiet_elapse hq dt
  have hpend : (elapse dt s).pending = s.pending := elapse_pending hq.2.2 dt
  have hw := h
  obtain ⟨_, _, _, _, ht, -⟩ := hw
  refine ⟨_, ?_, rfl, h⟩
  rw [exec_hostRow hrc, event_of_settled]
  · rw [ht]; exact ⟨htrig, hdig⟩
  · rw [ht]; exact hpend

/-- The row of a packet that fails one of checks 6 to 8, judged up to the state `u`: the reply leaves the sequence numbers expected
as they are in `u`. -/
theorem exec_of_rejected {rc : (Nat → Env → Bytes → Instr) × Cmd} {dt : Nat} {q : Env} {pl b : Bytes} {st : Nat} {s u : State}
    (hrc : rc ∈ hostRows) (hq : Quiet s)
    (e : hostCommand rc.2 q pl (elapse dt s) = reject (envPkt rc.2.op q pl) st b u) (hu : Unanswered (elapse dt s) u) :
    ∃ t, exec (rc.1 dt q pl) s = .next t ∧ Refused q st (elapse dt s) t ∧
      ∀ tr, (linkOf t tr).expected = (linkOf u tr).expected := by
  obtain ⟨t, hx, ht, hr⟩ := exec_of_refused hrc hq (e ▸ refused_reject hu st b)
  exact ⟨t, hx, hr, fun tr => by rw [ht, e, reject_expected]⟩

/-- The row of an admitted command that asks for something out of range. -/
theorem exec_of_badParam {rc : (Nat → Env → Bytes → Instr) × Cmd} {dt : Nat} {q : Env} {pl : Bytes} {a : Auth} {off : Nat}
    {s : State} (hrc : rc ∈ hostRows) (hq : Quiet s) (ha : Admitted rc.2 q pl a (elapse dt s))
    (he : rc.2.eff (requestOf rc.2 q pl a) (received rc.2 q pl (elapse dt s)) = .badParam off) :
    ∃ t, exec (rc.1 dt q pl) s = .next t ∧ Refused q stBadParam (elapse dt s) t := by
  obtain ⟨t, hx, hr, -⟩ := exec_of_rejected hrc hq (hostCommand_of_badParam ha he) (unanswered_received ..)
  exact ⟨t, hx, hr⟩

/-! ### What the checks look at does not change with time -/

theorem hostOpen_elapse {s : State} (h : Quiet s) (dt : Nat) : hostOpen (elapse dt s) = hostOpen s := by
  obtain ⟨_, e⟩ := elapse_fields h.2.2 dt; rw [e]; rfl

theorem rxReady_elapse {s : State} (h : Quiet s) (dt : Nat) : rxReady (elapse dt s) = rxReady s := by
  obtain ⟨_, e⟩ := elapse_fields h.2.2 dt; rw [e]; rfl

theorem udpAdmits_elapse {s : State} (h : Quiet s) (dt ip : Nat) : udpAdmits (elapse dt s) ip = udpAdmits s ip := by
  obtain ⟨_, e⟩ := elapse_fields h.2.2 dt; rw [e]; rfl

theorem linkOf_elapse {s : State} (h : Quiet s) (dt : Nat) (tr : Transport) : linkOf (elapse dt s) tr = linkOf s tr :=
  linkOf_of_hif (elapse_hif h.2.2 dt) tr

theorem passesFraming_elapse {s : State} (h : Quiet s) (dt : Nat) (c : Cmd) (q : Env) (pl : Bytes) :
    passesFraming c q pl (elapse dt s) = passesFraming c q pl s := by
  obtain ⟨_, e⟩ := elapse_fields h.2.2 dt; rw [e]; cases q with | mk tr => cases tr <;> rfl

/-! ### Parameters that no block defines (R34) -/

/-- A check that fails makes the command answer BAD_PARAM, at its own field or at an earlier one. -/
theorem checked_badParam {cs : List (Bool × Nat)} {off : Nat} (h : (false, off) ∈ cs) (k : CmdRes) :
    ∃ o, checked cs k = .badParam o := by
  suffices ∃ o, firstBad cs = some o by
    obtain ⟨o, e⟩ := this
    exact ⟨o, by rw [checked, e]⟩
  induction cs with
  | nil => cases h
  | cons x t ih =>
    obtain ⟨ok, o⟩ := x
    cases ok with
    | false => exact ⟨o, rfl⟩
    | true => exact ih (by simpa using h)

theorem effParamRead_undefined {r : Req}
    (h : pinfo (fld r.payload 0 2) = none ∨
      (1 ≤ fld r.payload 2 1 ∧ ∃ k, k < fld r.payload 2 1 ∧ pinfo (fld r.payload 0 2 + k) = none)) (s : State) :
    ∃ off, effParamRead r s = .badParam off := by
  rcases h with h | ⟨-, k, hk, h⟩
  · exact checked_badParam (off := 0) (by simp [h]) _
  · have ha : (((List.range (fld r.payload 2 1)).map (fld r.payload 0 2 + ·)).all fun x => (pinfo x).isSome) = false := by
      simp only [List.all_eq_false, List.mem_map, List.mem_range]
      exact ⟨_, ⟨k, hk, rfl⟩, by simp [h]⟩
    exact checked_badParam (off := 2) (by simp [ha]) _

theorem effParamWrite_undefined {r : Req} (h : ∃ e ∈ entriesOf r.payload, pinfo e.id = none) (s : State) :
    ∃ off, effParamWrite r s = .badParam off := by
  obtain ⟨e, he, hn⟩ := h
  obtain ⟨k, hk, rfl⟩ := List.mem_iff_getElem.1 he
  have hz : ((entriesOf r.payload)[k], k) ∈ (entriesOf r.payload).zipIdx := List.mk_mem_zipIdx_iff_getElem?.2 (by simp)
  have hc : (false, 4 + 12 * k) ∈ entryChecks s (entriesOf r.payload) k (entriesOf r.payload)[k] := by
    simp [entryChecks, hn]
  exact checked_badParam (List.mem_append_right _ (List.mem_flatMap.2 ⟨_, hz, hc⟩)) _

/-! ### The statement -/

/-- Settles O59: each check ends in `refuse` or `reject` on a state in which nothing is answered yet. -/
theorem rejectedPacketsChangeNothing : Obligations.RejectedPacketsChangeNothing := by
  unfold Obligations.RejectedPacketsChangeNothing
  refine ⟨?sequence, ?mode, ?authorisation, ?reset, ?range, ?status, ?read, ?write⟩
  case sequence =>
    intro rc hrc dt q pl n s hq ho hx hu hn hop he hne
    have e := hostCommand_of_wrong_sequence (s := elapse dt s) (by rwa [hostOpen_elapse hq]) (by rwa [rxReady_elapse hq])
      (by rwa [udpAdmits_elapse hq]) hn hop (by rwa [linkOf_elapse hq]) hne
    obtain ⟨t, hx, ht, hr⟩ := exec_of_refused hrc hq (e ▸ refused_refuse (unanswered_sequenceError _) ..)
    exact ⟨t, hx, hr, by rw [ht, e, refuse_expected, linkOf_sequenceError, linkOf_elapse hq, he]⟩
  case mode =>
    intro rc hrc dt q pl s hq hf hl
    have e := hostCommand_of_not_legal (by rwa [passesFraming_elapse hq]) hl
    obtain ⟨t, hx, hr, hs⟩ := exec_of_rejected hrc hq e (unanswered_sequenced ..)
    exact ⟨t, hx, hr, by rw [hs, sequenced_expected]⟩
  case authorisation =>
    intro rc hrc dt q pl st b s hq hf p u hl ha
    have e := hostCommand_of_not_authorised (by rwa [passesFraming_elapse hq]) hl ha
    obtain ⟨t, hx, hr, hs⟩ := exec_of_rejected hrc hq e (unanswered_received ..)
    exact ⟨t, hx, hr, by rw [hs, received_expected]⟩
  case reset =>
    intro rc hrc dt q pl a s hq hf hp p u hl ha h1 h2
    have e := hostCommand_of_reset_pending (by rwa [passesFraming_elapse hq]) hl ha (by rwa [elapse_sys hq.2.2]) h1 h2
    obtain ⟨t, hx, hr, -⟩ := exec_of_rejected hrc hq e (unanswered_received ..)
    exact ⟨t, hx, hr⟩
  case range => exact fun rc hrc dt q pl a off s hq ha he => exec_of_badParam hrc hq ha he
  case status =>
    intro rc hrc dt q pl a st b s hq ha he
    obtain ⟨t, hx, hr, -⟩ := exec_of_rejected hrc hq (hostCommand_of_reject ha he) (unanswered_received ..)
    exact ⟨t, hx, hr⟩
  case read =>
    intro dt q pl a s h hu
    obtain ⟨off, he⟩ := effParamRead_undefined (r := requestOf cmdParamRead q pl a) hu _
    exact exec_of_badParam (rc := (.paramRead, cmdParamRead)) (by simp [hostRows]) h.quiet h.admitted he
  case write =>
    intro dt q pl a s h hu
    obtain ⟨off, he⟩ := effParamWrite_undefined (r := requestOf cmdParamWrite q pl a) hu _
    exact exec_of_badParam (rc := (.paramWrite, cmdParamWrite)) (by simp [hostRows]) h.quiet h.admitted he

end Sys2Proof.Machine

/-! The substation link: what a datagram, the ingest engine, a setpoint and its confirmation do to the Concourse. -/

namespace Sys2Proof.Machine

/-! ### What the link looks at does not change with time -/

theorem Quiet.nothingWaits {s : State} (h : Quiet s) : s.cfgPending.any waitsTick = false := h.2.2

theorem getP_elapse {s : State} (h : Quiet s) (dt id : Nat) : getP (elapse dt s) id = getP s id := by
  obtain ⟨_, e⟩ := elapse_fields h.nothingWaits dt; rw [e]; rfl

theorem sublRuns_elapse {s : State} (h : Quiet s) (dt : Nat) : sublRuns (elapse dt s) = sublRuns s := by
  obtain ⟨_, e⟩ := elapse_fields h.nothingWaits dt; rw [e]; rfl

theorem setpointModes_elapse {s : State} (h : Quiet s) (dt : Nat) : setpointModes (elapse dt s) = setpointModes s := by
  obtain ⟨_, e⟩ := elapse_fields h.nothingWaits dt; rw [e]; rfl

theorem sublEntry_elapse {s : State} (h : Quiet s) (dt i : Nat) : sublEntry (elapse dt s) i = sublEntry s i := by
  obtain ⟨_, e⟩ := elapse_fields h.nothingWaits dt; rw [e]; rfl

theorem forConcourse_elapse {s : State} (h : Quiet s) (dt : Nat) (f : UdpFrag) :
    forConcourse (elapse dt s) f = forConcourse s f := by
  obtain ⟨_, e⟩ := elapse_fields h.nothingWaits dt; rw [e]; rfl

theorem kDown_elapse {s : State} (h : Quiet s) (dt index gen : Nat) : kDown (elapse dt s) index gen = kDown s index gen := by
  obtain ⟨_, e⟩ := elapse_fields h.nothingWaits dt; rw [e]; rfl

theorem sublOpen_elapse {s : State} (h : Quiet s) (dt : Nat) (x : SublEntry) (type len : Nat) (m : SublMsg) :
    sublOpen (elapse dt s) x type len m = sublOpen s x type len m := by
  obtain ⟨_, e⟩ := elapse_fields h.nothingWaits dt; rw [e]; rfl

theorem measStale_elapse {s : State} (h : Quiet s) (dt : Nat) (meas at_ : Stamp) :
    measStale (elapse dt s) meas at_ = measStale s meas at_ := by
  obtain ⟨_, e⟩ := elapse_fields h.nothingWaits dt; rw [e]; rfl

/-! ### The row of an effect that asks for no mode -/

/-- From a quiet state, an effect that leaves the mode manager, the pair and the queue as they were is all that its row does. -/
theorem event_of_kept {dt : Nat} {f : State → State} {s : State} (hq : Quiet s)
    (hsys : (f (elapse dt s)).sys = (elapse dt s).sys) (hpair : (f (elapse dt s)).pair = (elapse dt s).pair)
    (hpend : (f (elapse dt s)).pending = (elapse dt s).pending) : event dt f s = .next (f (elapse dt s)) := by
  obtain ⟨htrig, hdig, -⟩ := quiet_elapse hq dt
  exact event_of_settled ⟨by rwa [hsys], by rwa [hpair]⟩ (hpend.trans (elapse_pending hq.nothingWaits dt))

/-- An effect that changes only the link is all that its row does. -/
theorem event_of_subl {dt : Nat} {f : State → State} {s : State} {l : Subl} (hq : Quiet s)
    (h : f (elapse dt s) = { elapse dt s with subl := l }) : event dt f s = .next { elapse dt s with subl := l } := by
  rw [event_of_kept hq, h] <;> rw [h]

/-- An effect that changes nothing is a row in which time passes. -/
theorem event_of_unchanged {dt : Nat} {f : State → State} {s : State} (hq : Quiet s) (h : f (elapse dt s) = elapse dt s) :
    event dt f s = .next (elapse dt s) := event_of_subl (l := (elapse dt s).subl) hq h

/-! ### Entries -/

theorem sublEntry_index {s : State} {i : Nat} {x : SublEntry} (h : sublEntry s i = some x) : x.index = i := by
  simpa using List.find?_some h

/-- Two updates of one entry are one, since an update leaves the index as it is. -/
theorem updSubl_updSubl {i : Nat} {f g : SublEntry → SublEntry} (hg : ∀ y, (g y).index = y.index) (s : State) :
    updSubl i f (updSubl i g s) = updSubl i (fun y => f (g y)) s := by
  have h : ((fun y => if y.index = i then f y else y) ∘ fun y => if y.index = i then g y else y) =
      fun y => if y.index = i then f (g y) else y := by
    funext y
    by_cases e : y.index = i <;> simp [e, hg]
  simp only [updSubl, List.map_map, h]

/-- An update of an entry and a setpoint count are one update. -/
theorem countSet_updSubl {i : Nat} {c : SetCounts → SetCounts} {g : SublEntry → SublEntry} (hg : ∀ y, (g y).index = y.index)
    (s : State) :
    countSet i c (updSubl i g s) =
      { s with subl := { s.subl with
        setTotals := c s.subl.setTotals,
        entries := s.subl.entries.map fun y => if y.index = i then { g y with sets := c (g y).sets } else y } } := by
  have h := updSubl_updSubl (i := i) (f := fun y => { y with sets := c y.sets }) hg s
  unfold countSet
  rw [h]
  rfl

@[simp] theorem windowAccept_index (gen v : Nat) (x : SublEntry) : (windowAccept gen v x).index = x.index := rfl

/-- An update that leaves every index as it is: each entry is found where it was. -/
theorem find_index_map {g : SublEntry → SublEntry} (hg : ∀ y, (g y).index = y.index) (l : List SublEntry) (i : Nat) :
    (l.map g).find? (fun y => y.index == i) = (l.find? fun y => y.index == i).map g := by
  simp only [List.find?_map, Function.comp_def, hg]

/-! ### Arrival of a datagram (R220, R231) -/

theorem sublDatagram_taken {s : State} {f : UdpFrag} (hr : sublRuns s = true) (hf : forConcourse s f = true) :
    sublDatagram f s = sublPayload f.srcIp.toNat f.srcPort.toNat f.data s := by
  simp [sublDatagram, hr, hf]

theorem sublDatagram_dropped {s : State} {f : UdpFrag} (hf : forConcourse s f = false) : sublDatagram f s = s := by
  simp [sublDatagram, hf]

/-- A datagram for a Concourse that runs reaches it, once its time has passed. -/
theorem sublDatagram_elapse {s : State} {f : UdpFrag} (hq : Quiet s) (hr : sublRuns s = true) (hf : forConcourse s f = true)
    (dt : Nat) :
    sublDatagram f (elapse dt s) = sublPayload f.srcIp.toNat f.srcPort.toNat f.data (elapse dt s) :=
  sublDatagram_taken (by rwa [sublRuns_elapse hq]) (by rwa [forConcourse_elapse hq])

theorem sublPayload_foreign {s : State} {ip port : Nat} {data : Bytes}
    (h : sublEntry s (fld data 2 2) = none ∨ data.length < 16) : sublPayload ip port data s = countForeign s := by
  cases hx : sublEntry s (fld data 2 2) with
  | none => simp [sublPayload, hx]
  | some x => simp [sublPayload, hx, h.resolve_left (by simp [hx])]

theorem sublPayload_confirm {s : State} {ip port : Nat} {data : Bytes} {x : SublEntry}
    (hx : sublEntry s (fld data 2 2) = some x) (hl : 16 ≤ data.length) (ht : fld data 1 1 = 4) :
    sublPayload ip port data s = confirmMsg x (sublMsg ip port data s) s := by
  simp [sublPayload, hx, Nat.not_lt.mpr hl, ht]

theorem sublPayload_buffered {s : State} {ip port : Nat} {data : Bytes} {x : SublEntry}
    (hx : sublEntry s (fld data 2 2) = some x) (hl : 16 ≤ data.length) (ht : fld data 1 1 ≠ 4)
    (hb : s.subl.buffer.length < 4096) :
    sublPayload ip port data s =
      { s with subl := { s.subl with
        buffer := s.subl.buffer ++ [sublMsg ip port data s], peak := max s.subl.peak (s.subl.buffer.length + 1) } } := by
  simp [sublPayload, hx, Nat.not_lt.mpr hl, ht, Nat.not_le.mpr hb]

theorem sublPayload_full {s : State} {ip port : Nat} {data : Bytes} {x : SublEntry}
    (hx : sublEntry s (fld data 2 2) = some x) (hl : 16 ≤ data.length) (ht : fld data 1 1 ≠ 4)
    (hb : 4096 ≤ s.subl.buffer.length) :
    sublPayload ip port data s = retryAfter x.index (sublMsg ip port data s) (countReport x.index .full s) := by
  simp [sublPayload, hx, Nat.not_lt.mpr hl, ht, hb, sublEntry_index hx]

/-! ### What a downlink message changes (R235, R240) -/

/-- The ordering and the retry instant of entries, the highest EPOCH, the counts of what was withheld or suppressed, and what is
sent: no index and no report count. -/
def DownlinkOnly (s t : State) : Prop :=
  ∃ g n w e o, (∀ y : SublEntry, (g y).index = y.index ∧ (g y).counts = y.counts) ∧
    t = { s with
      subl := { s.subl with entries := s.subl.entries.map g, retrySuppressed := n, withheld := w, epochHigh := e }, out := o }

theorem DownlinkOnly.refl (s : State) : DownlinkOnly s s :=
  ⟨id, _, _, _, _, fun _ => ⟨rfl, rfl⟩, by rw [List.map_id]⟩

theorem DownlinkOnly.trans {s t u : State} (ht : DownlinkOnly s t) (hu : DownlinkOnly t u) : DownlinkOnly s u := by
  obtain ⟨g, n, w, e, o, hg, rfl⟩ := ht
  obtain ⟨g', n', w', e', o', hg', rfl⟩ := hu
  refine ⟨g' ∘ g, n', w', e', o', fun y => ⟨(hg' _).1.trans (hg y).1, (hg' _).2.trans (hg y).2⟩, ?_⟩
  rw [← List.map_map]

theorem downlinkOnly_updSubl {i : Nat} {f : SublEntry → SublEntry} (hi : ∀ y, (f y).index = y.index)
    (hc : ∀ y, (f y).counts = y.counts) (s : State) : DownlinkOnly s (updSubl i f s) := by
  refine ⟨fun y => if y.index = i then f y else y, _, _, _, _, fun y => ?_, rfl⟩
  by_cases e : y.index = i
  · simp [e, hi, hc]
  · simp [e]

/-- A change of the downlink's counts and output, and of no entry. -/
theorem downlinkOnly_counts (s : State) (n w : W32) (e : Nat) (o : List Output) :
    DownlinkOnly s { s with subl := { s.subl with retrySuppressed := n, withheld := w, epochHigh := e }, out := o } :=
  ⟨id, n, w, e, o, fun _ => ⟨rfl, rfl⟩, by rw [List.map_id]⟩

/-- SEQUENCE of the next message to an entry (R240): from 0 under a new EPOCH. -/
def seqNow (s : State) (x : SublEntry) : Nat := if x.epoch = epochNow s then x.nextSeq else 0

theorem seqNow_le {x : SublEntry} {b : Nat} (h : x.nextSeq ≤ b) (s : State) : seqNow s x ≤ b := by
  unfold seqNow; split
  · exact h
  · exact Nat.zero_le b

/-- A message sealed with some body, from SUBL_PORT on SUBL_VLAN (R220). -/
def downlinkFrames (s : State) (ip port : Nat) (m : Bytes) : List Output :=
  udpFrames .subl (getP s 0x0511) (getP s 0x0510) (some ip) port m

theorem downlinkFrames_of_cfg {s t : State} (h : t.cfg = s.cfg) (ip port : Nat) (m : Bytes) :
    downlinkFrames t ip port m = downlinkFrames s ip port m := by simp only [downlinkFrames, getP, h]

/-- The ordering that a message under an EPOCH and a SEQUENCE leaves. Both are arguments, and not the entry's own next ones, since
definitional equality must not compute with the bound of R240 on EPOCH. -/
def messageOrdered (s : State) (index e n : Nat) : State := updSubl index (fun y => { y with epoch := e, nextSeq := n + 1 }) s

/-- What a message sent as `o` leaves: the ordering in the entry, the EPOCH, and the output. -/
def messageSent (s : State) (index e n : Nat) (o : List Output) : State :=
  { messageOrdered s index e n with
    subl := { (messageOrdered s index e n).subl with epochHigh := e }, out := (messageOrdered s index e n).out ++ o }

/-- A downlink message under a key that the table holds is sent under the next ordering value, or withheld. -/
theorem sublSend_keyed {s : State} {x : SublEntry} {k : Bytes} {index : Nat} (hx : sublEntry s index = some x)
    (hk : kDown s index x.gen = some k) (type ip port : Nat) (body : Bytes) :
    ∃ m, sublSend index type ip port body s =
      if 0x7FFFFFFF < seqNow s x then ({ s with subl := { s.subl with withheld := s.subl.withheld + 1 } }, false)
      else (messageSent s index (epochNow s) (seqNow s x) (downlinkFrames s ip port m), true) := by
  have hcfg : (messageOrdered s index (epochNow s) (seqNow s x)).cfg = s.cfg := rfl
  simp only [← downlinkFrames_of_cfg hcfg]
  unfold sublSend
  rw [hx]
  simp only [hk]
  exact ⟨_, rfl⟩

theorem downlinkOnly_sent (s : State) (index e n : Nat) (o : List Output) : DownlinkOnly s (messageSent s index e n o) :=
  (downlinkOnly_updSubl (by simp) (by simp) _).trans (downlinkOnly_counts ..)

theorem downlinkOnly_sublSend (index type ip port : Nat) (body : Bytes) (s : State) :
    DownlinkOnly s (sublSend index type ip port body s).1 := by
  cases hx : sublEntry s index with
  | none => simpa [sublSend, hx] using .refl s
  | some x =>
    cases hk : kDown s index x.gen with
    | none => simpa [sublSend, hx, hk] using .refl s
    | some k =>
      obtain ⟨m, hm⟩ := sublSend_keyed hx hk type ip port body
      rw [hm]
      by_cases hn : 0x7FFFFFFF < seqNow s x
      · rw [if_pos hn]; exact downlinkOnly_counts s ..
      · rw [if_neg hn]; exact downlinkOnly_sent ..

theorem downlinkOnly_retryAfter (index : Nat) (m : SublMsg) (s : State) : DownlinkOnly s (retryAfter index m s) := by
  unfold retryAfter
  split
  case h_1 => exact .refl s
  case h_2 x _ =>
    by_cases hr : (x.lastRetry.any fun t => decide (monoUs s < t + 100000)) = true
    · rw [if_pos hr]; exact downlinkOnly_counts s ..
    · rw [if_neg hr]
      extract_lets body r
      have hsend : DownlinkOnly s r.1 := downlinkOnly_sublSend ..
      by_cases h2 : r.2 = true
      · rw [if_pos h2]; exact hsend.trans (downlinkOnly_updSubl (by simp) (by simp) _)
      · rw [if_neg h2]; exact hsend

theorem DownlinkOnly.counts {s t : State} (h : DownlinkOnly s t) (i : Nat) :
    (sublEntry t i).map (·.counts) = (sublEntry s i).map (·.counts) := by
  obtain ⟨g, n, w, e, o, hg, rfl⟩ := h
  have hc : (fun y : SublEntry => y.counts) ∘ g = fun y => y.counts := funext fun y => (hg y).2
  simp only [sublEntry, find_index_map fun y => (hg y).1, Option.map_map, hc]

/-- What an answer to a report that found the buffer full leaves as it was. -/
theorem DownlinkOnly.kept {s t : State} (h : DownlinkOnly s t) :
    t.sys = s.sys ∧ t.pair = s.pair ∧ t.pending = s.pending ∧ t.nmod = s.nmod ∧ t.subl.buffer = s.subl.buffer ∧
      t.subl.totals = s.subl.totals := by
  obtain ⟨g, n, w, e, o, -, rfl⟩ := h
  exact ⟨rfl, rfl, rfl, rfl, rfl, rfl⟩

theorem countReport_eq (i : Nat) (e : RepEnd) (s : State) :
    countReport i e s =
      { s with subl := { s.subl with
        totals := s.subl.totals.add e,
        entries := s.subl.entries.map fun y => if y.index = i then { y with counts := y.counts.add e } else y } } := rfl

/-- The outcome of a report is counted in its entry. -/
theorem sublEntry_countReport {s : State} {x : SublEntry} (hx : sublEntry s x.index = some x) (e : RepEnd) :
    (sublEntry (countReport x.index e s) x.index).map (·.counts) = some (x.counts.add e) := by
  have h : ∀ y : SublEntry, (if y.index = x.index then { y with counts := y.counts.add e } else y).index = y.index :=
    fun y => by split <;> rfl
  have hf := find_index_map h s.subl.entries x.index
  simp only [sublEntry, countReport, updSubl] at hx hf ⊢
  simp [hf, hx]

/-! ### Classification (R231 to R233) -/

theorem reportClassification_head {s : State} {m : SublMsg} {rest : List SublMsg} {x : SublEntry} (hr : sublRuns s = true)
    (hb : s.subl.buffer = m :: rest) (hx : sublEntry s (fld m.data 2 2) = some x) :
    reportClassification s = classify x m { s with subl := { s.subl with buffer := rest } } := by
  have hx' : sublEntry { s with subl := { s.subl with buffer := rest } } (fld m.data 2 2) = some x := hx
  simp [reportClassification, hr, hb, hx']

theorem classify_unopened {s : State} {x : SublEntry} {m : SublMsg} (h : sublOpen s x 1 96 m = none) :
    classify x m s = countReport x.index .auth s := by simp [classify, h]

/-- A report that passes every step (R231): the counts, the window, the address and the slot are written in one update. -/
theorem classify_accepted {s : State} {x : SublEntry} {m : SublMsg} {body : Bytes} (ho : sublOpen s x 1 96 m = some body)
    (hw : windowCheck x (fld m.data 4 1) (orderOf m.data) = none)
    (hm : measStale s ⟨fld body 0 6, fld body 8 4⟩ m.at_ = false) :
    classify x m s =
      { s with subl := { s.subl with
        totals := s.subl.totals.add .accepted,
        entries := s.subl.entries.map fun y =>
          if y.index = x.index then
            { windowAccept (fld m.data 4 1) (orderOf m.data) { y with counts := y.counts.add .accepted } with
              addr := some (m.ip, m.port),
              filed := fileSlot s ⟨⟨fld body 0 6, fld body 8 4⟩, orderOf m.data, body⟩ y.filed }
          else y } } := by
  let t : State := { s with subl := { s.subl with totals := s.subl.totals.add .accepted } }
  have h := updSubl_updSubl (i := x.index)
    (f := fun y => { windowAccept (fld m.data 4 1) (orderOf m.data) y with
      addr := some (m.ip, m.port), filed := fileSlot s ⟨⟨fld body 0 6, fld body 8 4⟩, orderOf m.data, body⟩ y.filed })
    (g := fun y => { y with counts := y.counts.add .accepted }) (fun _ => rfl) t
  simp only [classify, ho, hw, hm]
  exact h

/-- The report at the head of the buffer fails authentication. -/
theorem reportClassification_unopened {s : State} {m : SublMsg} {rest : List SublMsg} {x : SublEntry}
    (hr : sublRuns s = true) (hb : s.subl.buffer = m :: rest) (hx : sublEntry s (fld m.data 2 2) = some x)
    (ho : sublOpen s x 1 96 m = none) :
    reportClassification s =
      { s with subl := { s.subl with
        buffer := rest, totals := s.subl.totals.add .auth,
        entries := s.subl.entries.map fun y => if y.index = x.index then { y with counts := y.counts.add .auth } else y } } :=
  (reportClassification_head hr hb hx).trans (classify_unopened ho)

/-- The report at the head of the buffer passes every step. -/
theorem reportClassification_accepted {s : State} {m : SublMsg} {rest : List SublMsg} {x : SublEntry} {body : Bytes}
    (hr : sublRuns s = true) (hb : s.subl.buffer = m :: rest) (hx : sublEntry s (fld m.data 2 2) = some x)
    (ho : sublOpen s x 1 96 m = some body) (hw : windowCheck x (fld m.data 4 1) (orderOf m.data) = none)
    (hm : measStale s ⟨fld body 0 6, fld body 8 4⟩ m.at_ = false) :
    reportClassification s =
      { s with subl := { s.subl with
        buffer := rest, totals := s.subl.totals.add .accepted,
        entries := s.subl.entries.map fun y =>
          if y.index = x.index then
            { windowAccept (fld m.data 4 1) (orderOf m.data) { y with counts := y.counts.add .accepted } with
              addr := some (m.ip, m.port),
              filed := fileSlot s ⟨⟨fld body 0 6, fld body 8 4⟩, orderOf m.data, body⟩ y.filed }
          else y } } :=
  (reportClassification_head hr hb hx).trans (classify_accepted ho hw hm)

theorem fileSlot_now (s : State) (f : Filed) (p : Paged (Option Filed)) : (fileSlot s f p).now = fileReport f p.now := by
  unfold fileSlot
  split
  case isTrue h => exact h.symm
  case isFalse => rfl

/-! ### Confirmation of a setpoint (R241, R242) -/

/-- A confirmation of the outstanding setpoint, in time. -/
theorem confirmMsg_inTime {s : State} {x : SublEntry} {m : SublMsg} {body : Bytes} {at_ : Nat}
    (ho : sublOpen s x 4 16 m = some body) (hw : windowCheck x (fld m.data 4 1) (orderOf m.data) = none)
    (hout : x.outstanding = some (fld body 0 8, at_)) (ht : monoUs s ≤ at_ + getP s 0x0515 * 1000) :
    confirmMsg x m s =
      { s with subl := { s.subl with
        setTotals := { s.subl.setTotals with confirmed := s.subl.setTotals.confirmed + 1 },
        entries := s.subl.entries.map fun y =>
          if y.index = x.index then
            { windowAccept (fld m.data 4 1) (orderOf m.data) y with
              outstanding := none, lastResult := fld body 8 2, sets := { y.sets with confirmed := y.sets.confirmed + 1 } }
          else y } } := by
  have hc : confirmMsg x m s = countSet x.index (fun c => { c with confirmed := c.confirmed + 1 })
      (updSubl x.index (fun y => { y with outstanding := none, lastResult := fld body 8 2 })
        (updSubl x.index (windowAccept (fld m.data 4 1) (orderOf m.data)) s)) := by
    simp only [confirmMsg, ho, hw, hout]
    exact if_pos ⟨trivial, ht⟩
  rw [hc, updSubl_updSubl (windowAccept_index (fld m.data 4 1) (orderOf m.data)), countSet_updSubl]
  · rfl
  · exact fun _ => rfl

/-- A confirmation that comes for a setpoint that is not outstanding, or is no longer in time. -/
theorem confirmMsg_late {s : State} {x : SublEntry} {m : SublMsg} {body : Bytes}
    (ho : sublOpen s x 4 16 m = some body) (hw : windowCheck x (fld m.data 4 1) (orderOf m.data) = none)
    (hout : ∀ y ∈ x.outstanding, y.1 ≠ fld body 0 8 ∨ y.2 + getP s 0x0515 * 1000 < monoUs s) :
    confirmMsg x m s =
      { s with subl := { s.subl with
        setTotals := { s.subl.setTotals with late := s.subl.setTotals.late + 1 },
        entries := s.subl.entries.map fun y =>
          if y.index = x.index then
            { windowAccept (fld m.data 4 1) (orderOf m.data) y with sets := { y.sets with late := y.sets.late + 1 } }
          else y } } := by
  have hl : confirmMsg x m s = countSet x.index (fun c => { c with late := c.late + 1 })
      (updSubl x.index (windowAccept (fld m.data 4 1) (orderOf m.data)) s) := by
    simp only [confirmMsg, ho, hw]
    cases he : x.outstanding with
    | none => rfl
    | some y =>
      obtain ⟨round, at_⟩ := y
      refine if_neg fun ⟨hround, hin⟩ => ?_
      rcases hout _ he with h | h
      · exact h hround
      · exact absurd h (Nat.not_lt.mpr hin)
  rw [hl, countSet_updSubl (windowAccept_index _ _)]
  rfl

theorem confirmTimeout_expired {s : State} {x : SublEntry} {index round at_ : Nat} (hx : sublEntry s index = some x)
    (hout : x.outstanding = some (round, at_)) (ht : at_ + getP s 0x0515 * 1000 < monoUs s) :
    confirmTimeout index s =
      { s with subl := { s.subl with
        setTotals := { s.subl.setTotals with expired := s.subl.setTotals.expired + 1 },
        entries := s.subl.entries.map fun y =>
          if y.index = index then { y with outstanding := none, sets := { y.sets with expired := y.sets.expired + 1 } }
          else y } } := by
  simp only [confirmTimeout, hx, hout, if_pos ht]
  exact countSet_updSubl (g := fun y => { y with outstanding := none }) (fun _ => rfl) s

/-! ### Setpoints (R239, R240) -/

/-- A message to an entry whose SEQUENCE is not used up and whose key the table holds is sent. -/
theorem sublSend_sent {s : State} {x : SublEntry} {k : Bytes} {index : Nat} (hx : sublEntry s index = some x)
    (hk : kDown s index x.gen = some k) (hn : x.nextSeq ≤ 0x7FFFFFFF) (type ip port : Nat) (body : Bytes) :
    ∃ m, sublSend index type ip port body s =
      (messageSent s index (epochNow s) (seqNow s x) (downlinkFrames s ip port m), true) := by
  obtain ⟨m, hm⟩ := sublSend_keyed hx hk type ip port body
  exact ⟨m, hm.trans (if_neg (Nat.not_lt.mpr (seqNow_le hn s)))⟩

/-- What is staged for a substation draws free values at most. -/
theorem staged_draws (s : State) (index : Nat) : ∃ v d, staged s index = (v, { s with draws := d }) := by
  unfold staged; split
  · exact ⟨_, s.draws, rfl⟩
  · exact ⟨_, s.draws + 1 + 1 + 1, rfl⟩

/-- An entry under a setpoint that has been issued. -/
def SublEntry.issued (x : SublEntry) (e n : Nat) (mark : Nat × Nat) : SublEntry :=
  { x with epoch := e, nextSeq := n + 1, outstanding := some mark, sets := { x.sets with issued := x.sets.issued + 1 } }

/-- What a setpoint sent as `o` leaves (R242): besides what every message does, it is issued, and outstanding under `mark`. -/
def setpointIssued (s : State) (index e n : Nat) (mark : Nat × Nat) (o : List Output) : State :=
  { s with
    out := s.out ++ o
    subl := { s.subl with
      epochHigh := e, setTotals := { s.subl.setTotals with issued := s.subl.setTotals.issued + 1 },
      entries := s.subl.entries.map fun y =>
        if y.index = index then y.issued e n mark else y } }

theorem setpointIssued_of_sent (s : State) (index e n : Nat) (mark : Nat × Nat) (o : List Output) :
    countSet index (fun c => { c with issued := c.issued + 1 })
      (updSubl index (fun y => { y with outstanding := some mark }) (messageSent s index e n o)) =
      setpointIssued s index e n mark o := by
  have h : messageSent s index e n o =
      updSubl index (fun y => { y with epoch := e, nextSeq := n + 1 })
        { s with subl := { s.subl with epochHigh := e }, out := s.out ++ o } := rfl
  rw [h, updSubl_updSubl (fun _ => by rfl), countSet_updSubl (fun _ => by rfl)]
  rfl

theorem setpointIssued_entries {s : State} {x : SublEntry} (h : s.subl.entries = [x]) (e n : Nat) (mark : Nat × Nat)
    (o : List Output) : (setpointIssued s x.index e n mark o).subl.entries = [x.issued e n mark] := by
  simp [setpointIssued, h]

/-- A setpoint to an entry that has reported and has none outstanding. -/
theorem sendSetpoint_sent {s : State} {x : SublEntry} {ip port : Nat} {k : Bytes} (hx : sublEntry s x.index = some x)
    (ha : x.addr = some (ip, port)) (hk : kDown s x.index x.gen = some k) (hn : x.nextSeq ≤ 0x7FFFFFFF)
    (ho : x.outstanding = none) :
    ∃ m d, sendSetpoint s x =
      { setpointIssued s x.index (epochNow s) (seqNow s x) (s.nmod.staging.round, monoUs s) (downlinkFrames s ip port m) with
        draws := d } := by
  obtain ⟨v, d, hv⟩ := staged_draws s x.index
  have hc : ∃ body, sendSetpoint s x =
      let r := sublSend x.index 3 ip port body { s with draws := d }
      if r.2 then
        countSet x.index (fun c => { c with issued := c.issued + 1 })
          (updSubl x.index (fun y => { y with outstanding := some (s.nmod.staging.round, monoUs r.1) }) r.1)
      else r.1 := by
    simp only [sendSetpoint, ha, hv, ho]
    exact ⟨_, rfl⟩
  obtain ⟨body, hc⟩ := hc
  obtain ⟨m, hm⟩ := sublSend_sent (s := { s with draws := d }) hx hk hn 3 ip port body
  have hcfg : ({ s with draws := d } : State).cfg = s.cfg := rfl
  rw [downlinkFrames_of_cfg hcfg] at hm
  refine ⟨m, d, ?_⟩
  rw [hc, hm]
  exact setpointIssued_of_sent ..

theorem setpointIssue_barred {s : State} (h : setpointModes s = false) : setpointIssue s = s := by simp [setpointIssue, h]

/-- The staged setpoints of a round are taken once (R239). -/
def stagingTaken (s : State) : State := { s with nmod := { s.nmod with staging := { s.nmod.staging with fresh := false } } }

theorem setpointIssue_noSolution {s : State} (hf : s.nmod.staging.fresh = true) (hst : s.nmod.staging.status = stNoSolution)
    (hm : setpointModes s = true) :
    setpointIssue s = stagingTaken s := by
  simp [setpointIssue, stagingTaken, hf, hst, hm]

theorem setpointIssue_round {s : State} (hf : s.nmod.staging.fresh = true) (hst : s.nmod.staging.status ≠ stNoSolution)
    (hm : setpointModes s = true) :
    setpointIssue s = s.subl.entries.foldl sendSetpoint (stagingTaken s) := by
  simp [setpointIssue, stagingTaken, hf, hst, hm]

/-- What the setpoint of a round to the only entry leaves. -/
def issuedAlone (s : State) (x : SublEntry) (o : List Output) (d : Nat) : State :=
  { setpointIssued (stagingTaken s) x.index (epochNow s) (seqNow s x) (s.nmod.staging.round, monoUs s) o with draws := d }

section
variable (s : State) (x : SublEntry) (o : List Output) (d : Nat)

theorem issuedAlone_kept :
    (issuedAlone s x o d).sys = s.sys ∧ (issuedAlone s x o d).pair = s.pair ∧ (issuedAlone s x o d).pending = s.pending :=
  ⟨rfl, rfl, rfl⟩

theorem issuedAlone_out : (issuedAlone s x o d).out = s.out ++ o := rfl

theorem issuedAlone_fresh : (issuedAlone s x o d).nmod.staging.fresh = false := rfl

theorem issuedAlone_setTotals :
    (issuedAlone s x o d).subl.setTotals = { s.subl.setTotals with issued := s.subl.setTotals.issued + 1 } := rfl

theorem issuedAlone_epochHigh : (issuedAlone s x o d).subl.epochHigh = epochNow s := rfl

end

theorem issuedAlone_entries {s : State} {x : SublEntry} (h : s.subl.entries = [x]) (o : List Output) (d : Nat) :
    (issuedAlone s x o d).subl.entries = [x.issued (epochNow s) (seqNow s x) (s.nmod.staging.round, monoUs s)] :=
  setpointIssued_entries (s := stagingTaken s) h _ _ _ o

theorem setpointIssue_alone {s : State} {x : SublEntry} {ip port : Nat} {k : Bytes} (hf : s.nmod.staging.fresh = true)
    (hst : s.nmod.staging.status ≠ stNoSolution) (hm : setpointModes s = true) (hent : s.subl.entries = [x])
    (ha : x.addr = some (ip, port)) (hk : kDown s x.index x.gen = some k) (hn : x.nextSeq ≤ 0x7FFFFFFF)
    (ho : x.outstanding = none) :
    ∃ m d, setpointIssue s = issuedAlone s x (downlinkFrames s ip port m) d := by
  have hx : sublEntry (stagingTaken s) x.index = some x := by simp [sublEntry, stagingTaken, hent]
  obtain ⟨m, d, hsend⟩ := sendSetpoint_sent hx ha hk hn ho
  refine ⟨m, d, ?_⟩
  rw [setpointIssue_round hf hst hm, hent, List.foldl_cons, List.foldl_nil, hsend]
  rfl

theorem downlinkSave_epoch {s : State} (hr : sublRuns s = true) (h : s.subl.epochHigh ≠ 0xFFFFFFFF) :
    downlinkSave s = { s with subl := { s.subl with epochSaved := s.subl.epochHigh } } := by
  simp [downlinkSave, hr, h]

/-! ### The statement -/

/-- Settles O28: each row runs its effect on the state after its time, and each effect's lemma above says what that leaves. -/
theorem substationLinkComplete : Obligations.SubstationLinkComplete := by
  unfold Obligations.SubstationLinkComplete
  refine ⟨?buffered, ?dropped, ?foreign, ?full, ?unopened, ?accepted, ?slot, ?setpoint, ?barred, ?noSolution, ?confirmed, ?late,
    ?expired, ?saved⟩
  case buffered =>
    intro dt f x s hq hr hf hx hl ht hb
    refine event_of_subl hq ?_
    rw [sublDatagram_elapse hq hr hf,
      sublPayload_buffered (by rwa [sublEntry_elapse hq]) hl ht (by rwa [elapse_subl hq.nothingWaits]), elapse_subl hq.nothingWaits]
  case dropped =>
    intro dt f s hq hf
    exact event_of_unchanged hq (sublDatagram_dropped (by rwa [forConcourse_elapse hq]))
  case foreign =>
    intro dt f s hq hr hf hx
    refine event_of_subl hq ?_
    rw [sublDatagram_elapse hq hr hf, sublPayload_foreign (by rwa [sublEntry_elapse hq]), countForeign,
      elapse_subl hq.nothingWaits]
  case full =>
    intro dt f x s hq hr hf hx hl ht hb
    have hi := sublEntry_index hx
    have hx' : sublEntry (elapse dt s) (fld f.data 2 2) = some x := by rwa [sublEntry_elapse hq]
    have he : sublDatagram f (elapse dt s) =
        retryAfter x.index (sublMsg f.srcIp.toNat f.srcPort.toNat f.data (elapse dt s))
          (countReport x.index .full (elapse dt s)) := by
      rw [sublDatagram_elapse hq hr hf, sublPayload_full hx' hl ht (by rwa [elapse_subl hq.nothingWaits])]
    have ho : DownlinkOnly (countReport x.index .full (elapse dt s)) (sublDatagram f (elapse dt s)) :=
      he ▸ downlinkOnly_retryAfter ..
    obtain ⟨hsys, hpair, hpend, hnmod, hbuf, htot⟩ := ho.kept
    refine ⟨sublDatagram f (elapse dt s), event_of_kept hq hsys hpair hpend, ?_, ?_, ?_, ?_, ?_⟩
    · rw [hbuf, countReport_eq, elapse_subl hq.nothingWaits]
    · rw [htot, countReport_eq, elapse_subl hq.nothingWaits]
    · rw [ho.counts, sublEntry_countReport (by rwa [hi])]
    · exact hnmod.trans (elapse_nmod hq.nothingWaits dt)
    · exact hsys.trans (elapse_sys hq.nothingWaits dt)
  case unopened =>
    intro dt x m rest s hq hr hb hx ho
    refine event_of_subl hq ?_
    rw [reportClassification_unopened (by rwa [sublRuns_elapse hq]) (by rwa [elapse_subl hq.nothingWaits])
      (by rwa [sublEntry_elapse hq]) (by rwa [sublOpen_elapse hq]), elapse_subl hq.nothingWaits]
  case accepted =>
    intro dt x m rest body s hq hr hb hx ho hw hm
    refine event_of_subl hq ?_
    rw [reportClassification_accepted (by rwa [sublRuns_elapse hq]) (by rwa [elapse_subl hq.nothingWaits])
      (by rwa [sublEntry_elapse hq]) (by rwa [sublOpen_elapse hq]) hw (by rwa [measStale_elapse hq]),
      elapse_subl hq.nothingWaits]
  case slot =>
    intro s f p
    rw [fileSlot_now]
    cases p.now with
    | none => rfl
    | some old =>
      simp only [fileReport, Bool.or_eq_true, Bool.and_eq_true, decide_eq_true_eq, beq_iff_eq, apply_ite some]
  case setpoint =>
    intro dt x ip port k s hq hfresh hst hm hent haddr hk hn hout
    have hent' : (elapse dt s).subl.entries = [x] := (congrArg Subl.entries (elapse_subl hq.nothingWaits dt)).trans hent
    obtain ⟨m, d, he⟩ := setpointIssue_alone (by rwa [elapse_nmod hq.nothingWaits]) (by rwa [elapse_nmod hq.nothingWaits])
      (by rwa [setpointModes_elapse hq]) hent' haddr (by rwa [kDown_elapse hq]) hn hout
    obtain ⟨hsys, hpair, hpend⟩ := issuedAlone_kept (elapse dt s) x (downlinkFrames (elapse dt s) ip port m) d
    rw [← he] at hsys hpair hpend
    have hone := issuedAlone_entries hent' (downlinkFrames (elapse dt s) ip port m) d
    rw [← he] at hone
    refine ⟨_, m, _, event_of_kept hq hsys hpair hpend, ?_, ?_, ?_, hone, ?_, rfl, ?_, rfl, ?_⟩
    · rw [he, issuedAlone_out, downlinkFrames_of_cfg (elapse_cfg hq.nothingWaits dt), elapse_out hq.nothingWaits,
        downlinkFrames]
    · rw [he, issuedAlone_fresh]
    · rw [he, issuedAlone_setTotals, elapse_subl hq.nothingWaits]
    · rw [SublEntry.issued, elapse_nmod hq.nothingWaits]
    · rw [SublEntry.issued, seqNow]
    · rw [he, issuedAlone_epochHigh]
  case barred =>
    intro dt s hq hm
    exact event_of_unchanged hq (setpointIssue_barred (by rwa [setpointModes_elapse hq]))
  case noSolution =>
    intro dt s hq hfresh hst hm
    have he : setpointIssue (elapse dt s) =
        { elapse dt s with nmod := { s.nmod with staging := { s.nmod.staging with fresh := false } } } := by
      rw [setpointIssue_noSolution (by rwa [elapse_nmod hq.nothingWaits]) (by rwa [elapse_nmod hq.nothingWaits])
        (by rwa [setpointModes_elapse hq]),
        stagingTaken, elapse_nmod hq.nothingWaits]
    rw [← he]
    exact event_of_kept hq (by rw [he]) (by rw [he]) (by rw [he])
  case confirmed =>
    intro dt f x body round at_ s hq hr hf hx hl ht ho hw hout hround hin
    subst hround
    refine event_of_subl hq ?_
    rw [sublDatagram_elapse hq hr hf, sublPayload_confirm (by rwa [sublEntry_elapse hq]) hl ht,
      confirmMsg_inTime (by rwa [sublOpen_elapse hq]) hw hout (by rwa [getP_elapse hq]), elapse_subl hq.nothingWaits]
    rfl
  case late =>
    intro dt f x body s hq hr hf hx hl ht ho hw hout
    refine event_of_subl hq ?_
    rw [sublDatagram_elapse hq hr hf, sublPayload_confirm (by rwa [sublEntry_elapse hq]) hl ht,
      confirmMsg_late (by rwa [sublOpen_elapse hq]) hw (by rwa [getP_elapse hq]), elapse_subl hq.nothingWaits]
    rfl
  case expired =>
    intro dt index x round at_ s hq hx hout ht
    refine event_of_subl hq ?_
    rw [confirmTimeout_expired (by rwa [sublEntry_elapse hq]) hout (by rwa [getP_elapse hq]), elapse_subl hq.nothingWaits]
  case saved =>
    intro dt s hq hr he
    refine event_of_subl hq ?_
    rw [downlinkSave_epoch (by rwa [sublRuns_elapse hq]) (by rwa [elapse_subl hq.nothingWaits]), elapse_subl hq.nothingWaits]

end Sys2Proof.Machine

/-! Thermal metering: what a flow edge, a frame of the converters and an interval boundary do to the channels. -/

namespace Sys2Proof.Machine

/-! ### What metering looks at does not change with time -/

theorem mthP_elapse {s : State} (h : Quiet s) (dt c j : Nat) : mthP (elapse dt s) c j = mthP s c j := getP_elapse h dt _

theorem mthEnabled_elapse {s : State} (h : Quiet s) (dt c : Nat) : mthEnabled (elapse dt s) c = mthEnabled s c := by
  simp only [mthEnabled, mthP_elapse h]

theorem flowFilterUs_elapse {s : State} (h : Quiet s) (dt c : Nat) : flowFilterUs (elapse dt s) c = flowFilterUs s c := by
  simp only [flowFilterUs, mthP_elapse h]

theorem meteringMode_elapse {s : State} (h : Quiet s) (dt : Nat) : meteringMode (elapse dt s) = meteringMode s := by
  simp only [meteringMode, elapse_sys h.nothingWaits]

theorem mthEnabled_of_cfg {s t : State} (h : t.cfg = s.cfg) (c : Nat) : mthEnabled t c = mthEnabled s c := by
  simp only [mthEnabled, mthP, getP, h]

/-- An effect that changes only thermal metering is all that its row does. -/
theorem event_of_mth {dt : Nat} {f : State → State} {s : State} {m : Mth} (hq : Quiet s)
    (h : f (elapse dt s) = { elapse dt s with mth := m }) : event dt f s = .next { elapse dt s with mth := m } := by
  rw [event_of_kept hq, h] <;> rw [h]

/-! ### Elements of a vector -/

theorem vget_fin {α : Type} {n : Nat} (v : Vector α n) (i : Fin n) (d : α) : vget v i d = v[i] := by simp [vget]

theorem vset_fin {α : Type} {n : Nat} (v : Vector α n) (i : Fin n) (x : α) : vset v i x = v.set i x := by
  ext j hj; simp [vset, Vector.getElem_set, Vector.getElem_setIfInBounds]

theorem getElem_vset {α : Type} {n : Nat} (v : Vector α n) (i : Nat) (x : α) (k : Fin n) :
    (vset v i x)[k] = if i = k then x else v[k] := by
  simp [vset, Vector.getElem_setIfInBounds]

/-- A view of the elements that an update leaves in the element updated is left in all of them. -/
theorem view_vset {α β : Type} {n : Nat} (p : α → β) {v : Vector α n} {i : Nat} {x d : α} (h : p x = p (vget v i d))
    (k : Fin n) : p (vset v i x)[k] = p v[k] := by
  rw [getElem_vset]
  split
  next e => rw [h, e, vget_fin]
  next => rfl

/-! ### Folds -/

/-- One step of a fold establishes what every step keeps: it holds at the end. -/
theorem foldl_establishes {α β : Type} {f : β → α → β} {I P : β → Prop} {a : α} {l : List α} {b : β}
    (hI : ∀ b x, I b → I (f b x)) (ha : ∀ b, I b → P (f b a)) (hP : ∀ b x, I b → P b → P (f b x)) (hl : a ∈ l) (hb : I b) :
    P (l.foldl f b) := by
  obtain ⟨l₁, l₂, rfl⟩ := List.append_of_mem hl
  rw [List.foldl_append, List.foldl_cons]
  have h₁ : I (l₁.foldl f b) := List.foldlRecOn l₁ f hb fun b hb x _ => hI b x hb
  exact (List.foldlRecOn (motive := fun b => I b ∧ P b) l₂ f ⟨hI _ _ h₁, ha _ h₁⟩
    fun b hb x _ => ⟨hI b x hb.1, hP b x hb.1 hb.2⟩).2

/-- What every step of a fold leaves as it was, the fold leaves as it was. -/
theorem foldl_view {α β γ : Type} {f : β → α → β} (p : β → γ) (h : ∀ b x, p (f b x) = p b) (l : List α) (b : β) :
    p (l.foldl f b) = p b :=
  List.foldlRecOn (motive := fun x => p x = p b) l f rfl fun x hx a _ => (h x a).trans hx

/-! ### Flow edges (R316, R317) -/

theorem flowEdgeRejected_running {s : State} (h : s.mth.running = true) (c : Fin 16) :
    flowEdgeRejected c s =
      { s with mth := { s.mth with
        chans := s.mth.chans.set c { s.mth.chans[c] with rejected := s.mth.chans[c].rejected + 1 } } } := by
  simp only [flowEdgeRejected, h, vset_fin, vget_fin]; rfl

theorem flowPulse_short {s : State} {c held : Nat} (h : held < flowFilterUs s c) (rising dir : Bool) :
    flowPulse c rising held dir s = flowEdgeRejected c s := if_pos h

theorem flowPulse_other_edge {s : State} {c held : Nat} (h : flowFilterUs s c ≤ held) (dir : Bool) :
    flowPulse c (bit (mthP s c 0) 12) held dir s = s := by
  simp [flowPulse, Nat.not_lt.mpr h]

/-- The channel `ch` is `old` after a pulse at the instant `now`, reverse or not. -/
structure PulseCounted (reverse : Bool) (now : Nat) (old ch : MthChan) : Prop where
  fwd : ch.fwd = if reverse then old.fwd else old.fwd + 1
  rev : ch.rev = if reverse then old.rev + 1 else old.rev
  spanFwd : ch.spanFwd = if reverse then old.spanFwd else old.spanFwd + 1
  spanRev : ch.spanRev = if reverse then old.spanRev + 1 else old.spanRev
  lastReverse : ch.lastReverse = reverse
  dirChanges : ch.dirChanges = if 0 < old.seen ∧ reverse ≠ old.lastReverse then old.dirChanges + 1 else old.dirChanges
  turned : ch.turned = (decide (0 < old.seen) && reverse != old.lastReverse)
  lastPulse : ch.lastPulse = now
  prevPulse : ch.prevPulse = old.lastPulse
  rejected : ch.rejected = old.rejected
  tA : ch.tA = old.tA
  tB : ch.tB = old.tB
  kept : ch.kept = old.kept

theorem flowPulse_counted {s : State} {c : Fin 16} {rising dir : Bool} {held : Nat} (hr : s.mth.running = true)
    (he : mthEnabled s c = true) (hf : flowFilterUs s c ≤ held) (hp : rising ≠ bit (mthP s c 0) 12) :
    ∃ ch, flowPulse c rising held dir s = { s with mth := { s.mth with chans := s.mth.chans.set c ch } } ∧
      PulseCounted (bit (mthP s c 0) 14 && dir != bit (mthP s c 0) 13) (monoUs s) s.mth.chans[c] ch := by
  simp only [flowPulse, if_neg (Nat.not_lt.mpr hf), hr, he, beq_eq_false_iff_ne.mpr hp, vset_fin, vget_fin]
  exact ⟨_, rfl, rfl, rfl, rfl, rfl, rfl, by simp, rfl, rfl, rfl, rfl, rfl, rfl, rfl⟩

/-! ### What a frame changes -/

/-- The states differ at most in the channels, the frames lost, the conversions excluded, the registers, and the records of parity
errors. -/
def ChannelsOnly (s t : State) : Prop :=
  ∃ ch lost excl b e i,
    t = { s with mth := { s.mth with chans := ch, framesLost := lost, refExcluded := excl }, bill := b, evr := e, intg := i }

theorem ChannelsOnly.refl (s : State) : ChannelsOnly s s := ⟨_, _, _, _, _, _, rfl⟩

theorem ChannelsOnly.trans {s t u : State} (ht : ChannelsOnly s t) (hu : ChannelsOnly t u) : ChannelsOnly s u := by
  obtain ⟨_, _, _, _, _, _, rfl⟩ := ht
  obtain ⟨_, _, _, _, _, _, rfl⟩ := hu
  exact ⟨_, _, _, _, _, _, rfl⟩

theorem ChannelsOnly.foldl {α : Type} {f : State → α → State} (h : ∀ s x, ChannelsOnly s (f s x)) (l : List α) (s : State) :
    ChannelsOnly s (l.foldl f s) :=
  List.foldlRecOn l f (.refl s) fun _ ht x _ => ht.trans (h _ x)

theorem ChannelsOnly.cfg {s t : State} (h : ChannelsOnly s t) : t.cfg = s.cfg := by
  obtain ⟨_, _, _, _, _, _, rfl⟩ := h; rfl

theorem snapSource_intg (k : Nat) (s : State) : ∃ i, snapSource k s = { s with intg := i } := by
  unfold snapSource
  repeat' split
  all_goals exact ⟨_, rfl⟩

theorem pathError_records (memCode blk addr : Nat) (s : State) :
    ∃ e i, pathError memCode blk addr s = { s with evr := e, intg := i } := by
  obtain ⟨i, h⟩ := snapSource_intg 5 _
  exact ⟨_, i, h⟩

/-! ### A snapshot point (R318) -/

theorem attribDir_bill (s : State) (c n : Nat) (reverse : Bool) (ch : MthChan) (st : State) :
    ∃ b, attribDir s c n reverse ch st = { st with bill := b } := by
  unfold attribDir; split <;> exact ⟨_, rfl⟩

theorem closeSpan_eq (s : State) (c : Nat) :
    ∃ b f r, closeSpan s c =
      { s with
        mth := { s.mth with
          chans := vset s.mth.chans c { vget s.mth.chans c MthChan.reset with spanFwd := f, spanRev := r } },
        bill := b } := by
  choose b hb using attribDir_bill
  simp only [closeSpan, hb]
  exact ⟨_, _, _, rfl⟩

theorem channelsOnly_closeSpan (s : State) (c : Nat) : ChannelsOnly s (closeSpan s c) := by
  obtain ⟨b, f, r, h⟩ := closeSpan_eq s c
  exact ⟨_, _, _, _, _, _, h⟩

/-- A snapshot point does nothing while metering does not run; otherwise it closes every span and shows the registers. -/
theorem snapshotPoint_cases (s : State) :
    snapshotPoint s = s ∨ ∃ u b, u = (List.range 16).foldl closeSpan s ∧ snapshotPoint s = { u with bill := b } := by
  unfold snapshotPoint
  split
  · exact .inr ⟨_, _, rfl, rfl⟩
  · exact .inl rfl

theorem channelsOnly_snapshotPoint (s : State) : ChannelsOnly s (snapshotPoint s) := by
  obtain h | ⟨u, b, hu, h⟩ := snapshotPoint_cases s
  · rw [h]; exact .refl s
  · have hs : ChannelsOnly s u := hu ▸ .foldl channelsOnly_closeSpan _ s
    rw [h]; exact hs.trans ⟨_, _, _, _, _, _, rfl⟩

/-- What no closing of a span changes in thermal metering, a snapshot point leaves as it was. -/
theorem snapshotPoint_of_closeSpan {β : Type} (p : Mth → β) (hp : ∀ s c, p (closeSpan s c).mth = p s.mth) (s : State) :
    p (snapshotPoint s).mth = p s.mth := by
  obtain h | ⟨u, b, hu, h⟩ := snapshotPoint_cases s
  · rw [h]
  · have hf : p u.mth = p s.mth := hu ▸ foldl_view (fun u => p u.mth) hp _ s
    rw [h]; exact hf

theorem snapshotPoint_view {β : Type} (p : MthChan → β) (hp : ∀ ch f r, p { ch with spanFwd := f, spanRev := r } = p ch)
    (k : Fin 16) (s : State) : p (snapshotPoint s).mth.chans[k] = p s.mth.chans[k] :=
  snapshotPoint_of_closeSpan (fun m => p m.chans[k]) (fun u c => by
    obtain ⟨b, f, r, h⟩ := closeSpan_eq u c
    rw [h]; exact view_vset p (hp ..) k) s

theorem snapshotPoint_framesLost (s : State) : (snapshotPoint s).mth.framesLost = s.mth.framesLost :=
  snapshotPoint_of_closeSpan (·.framesLost) (fun u c => by obtain ⟨b, f, r, h⟩ := closeSpan_eq u c; rw [h]) s

/-! ### The frame of a channel (R311, R315) -/

/-- The readings of a channel in a frame. -/
def readings (fr : Vector RtdFrame 16) (c : Nat) : RtdFrame := vget fr c ⟨0, 0, 0, 0, 0, 0, true, false, false⟩

theorem chanFrame_disabled {s : State} {c : Nat} (h : mthEnabled s c = false) (fr : Vector RtdFrame 16) :
    chanFrame fr s c = s := by
  simp [chanFrame, h]

/-- An enabled channel has its frame, or loses it, which is counted and recorded. -/
theorem chanFrame_enabled {s : State} {c : Nat} (h : mthEnabled s c = true) (fr : Vector RtdFrame 16) :
    ∃ ch x e i, ch.frameLost = !(readings fr c).parityOk ∧ chanFrame fr s c =
      { s with
        mth := { s.mth with
          chans := vset s.mth.chans c ch,
          framesLost := if (readings fr c).parityOk then s.mth.framesLost else s.mth.framesLost + 1,
          refExcluded := x },
        evr := e, intg := i } := by
  unfold chanFrame readings
  simp only [h, Bool.not_true, Bool.false_eq_true, if_false]
  generalize vget fr c _ = f
  cases hf : f.parityOk with
  | true => exact ⟨_, _, _, _, rfl, rfl⟩
  | false =>
    obtain ⟨e, i, hr⟩ := pathError_records 13 0x07 c _
    exact ⟨_, _, e, i, rfl, hr⟩

theorem channelsOnly_chanFrame (fr : Vector RtdFrame 16) (s : State) (c : Nat) : ChannelsOnly s (chanFrame fr s c) := by
  cases h : mthEnabled s c with
  | false => rw [chanFrame_disabled h]; exact .refl s
  | true =>
    obtain ⟨ch, x, e, i, -, hc⟩ := chanFrame_enabled h fr
    exact ⟨_, _, _, _, _, _, hc⟩

theorem chanFrame_frameLost {s : State} {c : Fin 16} (h : mthEnabled s c = true) (fr : Vector RtdFrame 16) :
    ((chanFrame fr s c).mth.chans[c]).frameLost = !(fr[c]).parityOk := by
  obtain ⟨ch, x, e, i, hl, hc⟩ := chanFrame_enabled h fr
  rw [readings, vget_fin] at hl
  rw [hc, getElem_vset, if_pos rfl, hl]

theorem chanFrame_other {c : Nat} {k : Fin 16} (h : c ≠ k) (fr : Vector RtdFrame 16) (s : State) :
    (chanFrame fr s c).mth.chans[k] = s.mth.chans[k] := by
  cases he : mthEnabled s c with
  | false => rw [chanFrame_disabled he]
  | true =>
    obtain ⟨ch, x, e, i, -, hc⟩ := chanFrame_enabled he fr
    rw [hc, getElem_vset, if_neg h]

/-- A channel that is enabled and whose samples failed parity. -/
def losesFrame (fr : Vector RtdFrame 16) (s : State) (c : Nat) : Bool := mthEnabled s c && !(readings fr c).parityOk

theorem losesFrame_fin (fr : Vector RtdFrame 16) (s : State) (c : Fin 16) :
    losesFrame fr s c = (mthEnabled s c && !(fr[c]).parityOk) := by rw [losesFrame, readings, vget_fin]

theorem losesFrame_of_cfg {s t : State} (h : t.cfg = s.cfg) (fr : Vector RtdFrame 16) : losesFrame fr t = losesFrame fr s := by
  funext c; rw [losesFrame, mthEnabled_of_cfg h, losesFrame]

theorem chanFrame_framesLost (fr : Vector RtdFrame 16) (s : State) (c : Nat) :
    (chanFrame fr s c).mth.framesLost = if losesFrame fr s c then s.mth.framesLost + 1 else s.mth.framesLost := by
  cases he : mthEnabled s c with
  | false => simp [chanFrame_disabled he, losesFrame, he]
  | true =>
    obtain ⟨ch, x, e, i, -, hc⟩ := chanFrame_enabled he fr
    rw [hc]; cases hf : (readings fr c).parityOk <;> simp [losesFrame, he, hf]

/-! ### The frames of all channels -/

/-- The frame of every channel after the snapshot point at its end (R311). -/
def framesTaken (fr : Vector RtdFrame 16) (s : State) : State := (List.range 16).foldl (chanFrame fr) (snapshotPoint s)

theorem channelsOnly_framesTaken (fr : Vector RtdFrame 16) (s : State) : ChannelsOnly s (framesTaken fr s) :=
  (channelsOnly_snapshotPoint s).trans (.foldl (channelsOnly_chanFrame fr) _ _)

theorem framesTaken_frameLost {s : State} {c : Fin 16} (h : mthEnabled s c = true) (fr : Vector RtdFrame 16) :
    ((framesTaken fr s).mth.chans[c]).frameLost = !(fr[c]).parityOk := by
  have hself : ∀ u : State, u.cfg = s.cfg → ((chanFrame fr u c).mth.chans[c]).frameLost = !(fr[c]).parityOk := fun u hu =>
    chanFrame_frameLost (mthEnabled_of_cfg hu c ▸ h) fr
  refine foldl_establishes (I := fun u => u.cfg = s.cfg) (P := fun u => (u.mth.chans[c]).frameLost = !(fr[c]).parityOk)
    (fun u x hu => (channelsOnly_chanFrame fr u x).cfg.trans hu) hself (fun u x hu hp => ?_) (List.mem_range.mpr c.isLt)
    (channelsOnly_snapshotPoint s).cfg
  by_cases hx : x = c
  · rw [hx, hself u hu]
  · rw [chanFrame_other hx, hp]

theorem foldl_chanFrame_framesLost (fr : Vector RtdFrame 16) (l : List Nat) (s : State) :
    (l.foldl (chanFrame fr) s).mth.framesLost =
      s.mth.framesLost + BitVec.ofNat 32 (l.filter (losesFrame fr s)).length := by
  induction l generalizing s with
  | nil => simp
  | cons c l ih =>
    rw [List.foldl_cons, ih, losesFrame_of_cfg (channelsOnly_chanFrame fr s c).cfg, chanFrame_framesLost, List.filter_cons]
    split
    · rw [List.length_cons, Nat.add_comm, BitVec.ofNat_add, BitVec.add_assoc]; rfl
    · rfl

theorem framesTaken_framesLost (fr : Vector RtdFrame 16) (s : State) :
    (framesTaken fr s).mth.framesLost = s.mth.framesLost +
      BitVec.ofNat 32 ((List.finRange 16).filter fun c => mthEnabled s c.val && !(fr[c]).parityOk).length := by
  have hl : (List.range 16).filter (losesFrame fr s) = ((List.finRange 16).filter fun c => losesFrame fr s c.val).map Fin.val := by
    rw [← List.map_coe_finRange_eq_range, List.filter_map]; rfl
  rw [framesTaken, foldl_chanFrame_framesLost, losesFrame_of_cfg (channelsOnly_snapshotPoint s).cfg, snapshotPoint_framesLost,
    hl, List.length_map]
  simp only [losesFrame_fin]

/-! ### The end of a frame (R324, R325, R329) -/

theorem errorSeconds_eq (s : State) (c : Nat) :
    ∃ ch b, ch.frameLost = (vget s.mth.chans c MthChan.reset).frameLost ∧
      errorSeconds s c = { s with mth := { s.mth with chans := vset s.mth.chans c ch }, bill := b } := by
  refine ⟨_, _, ?_, rfl⟩; rfl

/-- The error seconds of the enabled channels. -/
def secondsCounted (s : State) : State := (List.range 16).foldl (fun s c => if mthEnabled s c then errorSeconds s c else s) s

theorem secondsCounted_eq (s : State) :
    ∃ ch b, (∀ k : Fin 16, (ch[k]).frameLost = (s.mth.chans[k]).frameLost) ∧
      secondsCounted s = { s with mth := { s.mth with chans := ch }, bill := b } := by
  refine List.foldlRecOn (motive := fun u : State => ∃ ch b, (∀ k : Fin 16, (ch[k]).frameLost = (s.mth.chans[k]).frameLost) ∧
    u = { s with mth := { s.mth with chans := ch }, bill := b }) _ _ ⟨s.mth.chans, s.bill, fun _ => rfl, rfl⟩ fun u hu c _ => ?_
  split
  · obtain ⟨ch, b, hc, rfl⟩ := hu
    obtain ⟨x, b', hx, h⟩ := errorSeconds_eq { s with mth := { s.mth with chans := ch }, bill := b } c
    exact ⟨_, _, fun k => (view_vset MthChan.frameLost hx k).trans (hc k), h⟩
  · exact hu

theorem notePeak_frameLost (s : State) (c : Nat) (ch : MthChan) : (notePeak s c ch).frameLost = ch.frameLost := by
  unfold notePeak; split <;> rfl

/-- One frame more is counted; metering starts with the first (R329). -/
def frameCounted (first : Bool) (s : State) : State :=
  if first then startThermal { s with mth := { s.mth with frame := s.mth.frame + 1 } }
  else { s with mth := { s.mth with frame := s.mth.frame + 1 } }

theorem frameCounted_eq (s : State) :
    ∃ ch b, (∀ k : Fin 16, (ch[k]).frameLost = (s.mth.chans[k]).frameLost) ∧ frameCounted (!s.mth.running) s =
      { s with mth := { s.mth with running := true, frame := s.mth.frame + 1, chans := ch }, bill := b } := by
  cases h : s.mth.running with
  | false => exact ⟨_, _, fun k => by simp, rfl⟩
  | true => exact ⟨s.mth.chans, s.bill, fun _ => rfl, (if_neg (by simp)).trans (by rw [← h])⟩

theorem publishPage1_eq (s : State) :
    ∃ ch p g, (∀ k : Fin 16, (ch[k]).frameLost = (s.mth.chans[k]).frameLost) ∧ publishPage1 s =
      { s with mth := { s.mth with page1 := p, seq1 := s.mth.seq1 + 1, chans := ch }, gal := g } :=
  ⟨s.mth.chans.mapFinIdx fun i ch _ => notePeak s i ch, _, _, fun k => by simp [notePeak_frameLost], rfl⟩

theorem frameEnd_metering {s : State} (h : meteringMode s = true) (fr : Vector RtdFrame 16) :
    frameEnd fr s = publishPage1 (secondsCounted (frameCounted (!s.mth.running) (framesTaken fr s))) := by
  simp only [frameEnd, h]; rfl

/-- What the end of a frame leaves. -/
theorem frameEnd_eq {s : State} (h : meteringMode s = true) (fr : Vector RtdFrame 16) :
    ∃ ch x p b e i g, (∀ k : Fin 16, (ch[k]).frameLost = ((framesTaken fr s).mth.chans[k]).frameLost) ∧
      frameEnd fr s =
        { s with
          mth := { s.mth with
            running := true, frame := s.mth.frame + 1, chans := ch, page1 := p, seq1 := s.mth.seq1 + 1,
            framesLost := (framesTaken fr s).mth.framesLost, refExcluded := x },
          bill := b, evr := e, intg := i, gal := g } := by
  rw [frameEnd_metering h]
  have ht := channelsOnly_framesTaken fr s
  generalize framesTaken fr s = t at ht ⊢
  obtain ⟨ch₀, lost, x, b₀, e, i, ht⟩ := ht
  have hrun : s.mth.running = t.mth.running := by rw [ht]
  obtain ⟨ch₁, b₁, hc₁, h₁⟩ := frameCounted_eq t
  obtain ⟨ch₂, b₂, hc₂, h₂⟩ := secondsCounted_eq (frameCounted (!t.mth.running) t)
  obtain ⟨ch₃, p, g, hc₃, h₃⟩ := publishPage1_eq (secondsCounted (frameCounted (!t.mth.running) t))
  refine ⟨ch₃, x, p, b₂, e, i, g, fun k => ?_, ?_⟩
  · rw [hc₃, h₂, hc₂, h₁, hc₁]
  · rw [hrun, h₃, h₂, h₁, ht]

/-! ### An interval boundary (R326, R327) -/

/-- What an interval of one length leaves of a channel: its sequence number, the open interval, and those kept. -/
structure IntervalView where
  seq : W32
  open_ : ThermOpen
  kept : List ThermInt

def intervalView (l : Fin 3) (ch : MthChan) : IntervalView := ⟨ch.seqs[l], ch.opens[l], ch.kept[l]⟩

/-- The open interval has closed at the second `now`, with the next open from it. -/
structure ClosedAt (now : Nat) (old new : IntervalView) : Prop where
  seq : new.seq = old.seq + 1
  start : new.open_.start = now
  kept : (new.kept.head?.map fun r => (r.seq, r.start, r.stop)) = some (old.seq, old.open_.start, now)

theorem keptMax_pos (l : Nat) : 0 < keptMax l := by unfold keptMax; split <;> decide

theorem thermTurn_closes {s : State} {c : Nat} (h : mthEnabled s c = true) (l : Fin 3) (closeFl openFl : Nat) (ch : MthChan) :
    ClosedAt (ptpSec s) (intervalView l ch) (intervalView l (thermTurn s c l closeFl openFl ch)) := by
  simp only [thermTurn, intervalView, h, if_true, getElem_vset, vget_fin]
  refine ⟨rfl, rfl, ?_⟩
  obtain ⟨n, hn⟩ := Nat.exists_eq_succ_of_ne_zero (keptMax_pos l).ne'
  simp [hn, thermClose, vget_fin]

theorem thermTurn_other {l : Nat} {k : Fin 3} (h : l ≠ k) (s : State) (c closeFl openFl : Nat) (ch : MthChan) :
    intervalView k (thermTurn s c l closeFl openFl ch) = intervalView k ch := by
  cases he : mthEnabled s c <;>
    simp only [thermTurn, intervalView, he, getElem_vset, if_neg h, if_true, Bool.false_eq_true, if_false]

theorem snapshotPoint_intervalView (l : Fin 3) (c : Fin 16) (s : State) :
    intervalView l (snapshotPoint s).mth.chans[c] = intervalView l s.mth.chans[c] :=
  snapshotPoint_view (intervalView l) (fun _ _ _ => rfl) c s

/-- The intervals of one length close and open in every channel and system. -/
def turned (l closeFl : Nat) (openT openE : Nat → Nat) (s : State) : State :=
  elecTurnAll l closeFl openE (if s.mth.running then thermTurnAll l closeFl openT s else s)

theorem turnIntervals_cons (l : Nat) (ls : List Nat) (closeFl openFl : Nat) (ids : List Nat) (s : State) :
    ∃ openT openE, turnIntervals (l :: ls) closeFl openFl ids s =
      turnIntervals ls closeFl openFl ids (turned l closeFl openT openE s) := ⟨_, _, rfl⟩

/-- A turn of the intervals changes the channels and the systems only. -/
theorem turned_eq (l closeFl : Nat) (openT openE : Nat → Nat) (s : State) :
    ∃ ch m, turned l closeFl openT openE s = { s with mth := { s.mth with chans := ch }, mel := m } := by
  unfold turned; split <;> exact ⟨_, _, rfl⟩

theorem turned_running {s : State} (h : s.mth.running = true) (l closeFl : Nat) (openT openE : Nat → Nat) (c : Fin 16) :
    (turned l closeFl openT openE s).mth.chans[c] = thermTurn s c l closeFl (openT c) s.mth.chans[c] := by
  simp [turned, h, elecTurnAll, thermTurnAll]

theorem turned_other {l : Nat} {k : Fin 3} (h : l ≠ k) (closeFl : Nat) (openT openE : Nat → Nat) (c : Fin 16) (s : State) :
    intervalView k (turned l closeFl openT openE s).mth.chans[c] = intervalView k s.mth.chans[c] := by
  cases hr : s.mth.running with
  | false => simp [turned, hr, elecTurnAll]
  | true => rw [turned_running hr, thermTurn_other h]

theorem turnIntervals_eq (ls : List Nat) (closeFl openFl : Nat) (ids : List Nat) (s : State) :
    ∃ ch m, turnIntervals ls closeFl openFl ids s = { s with mth := { s.mth with chans := ch }, mel := m } := by
  induction ls generalizing s with
  | nil => exact ⟨_, _, rfl⟩
  | cons l ls ih =>
    obtain ⟨_, _, h⟩ := turnIntervals_cons l ls closeFl openFl ids s
    obtain ⟨_, _, h₁⟩ := turned_eq l closeFl _ _ s
    rw [h, h₁]; exact ih _

theorem turnIntervals_other {ls : List Nat} {k : Fin 3} (h : k.val ∉ ls) (closeFl openFl : Nat) (ids : List Nat) (c : Fin 16)
    (s : State) : intervalView k (turnIntervals ls closeFl openFl ids s).mth.chans[c] = intervalView k s.mth.chans[c] := by
  induction ls generalizing s with
  | nil => rfl
  | cons l ls ih =>
    obtain ⟨openT, openE, ht⟩ := turnIntervals_cons l ls closeFl openFl ids s
    rw [List.mem_cons, not_or] at h
    rw [ht, ih h.2, turned_other (Ne.symm h.1)]

/-- Every length closes its interval once. -/
theorem turnIntervals_closes {ls : List Nat} {k : Fin 3} {c : Fin 16} {s : State} (hk : k.val ∈ ls) (hn : ls.Nodup)
    (hr : s.mth.running = true) (he : mthEnabled s c = true) (closeFl openFl : Nat) (ids : List Nat) :
    ClosedAt (ptpSec s) (intervalView k s.mth.chans[c])
      (intervalView k (turnIntervals ls closeFl openFl ids s).mth.chans[c]) := by
  induction ls generalizing s with
  | nil => cases hk
  | cons l ls ih =>
    obtain ⟨openT, openE, ht⟩ := turnIntervals_cons l ls closeFl openFl ids s
    obtain ⟨hl, hn⟩ := List.nodup_cons.mp hn
    rw [ht]
    by_cases e : l = k
    · subst e
      rw [turnIntervals_other hl, turned_running hr]
      exact thermTurn_closes he k ..
    · have hk : k.val ∈ ls := (List.mem_cons.mp hk).resolve_left (Ne.symm e)
      obtain ⟨ch, m, hs⟩ := turned_eq l closeFl openT openE s
      rw [← turned_other e closeFl openT openE c s]
      have hp : ptpSec (turned l closeFl openT openE s) = ptpSec s := by rw [hs]; rfl
      rw [← hp]
      exact ih hk hn (by rw [hs]; exact hr) (by rw [hs]; exact he)

theorem lengthsAt_nodup (m : Nat) : (lengthsAt m).Nodup := List.nodup_range.filter _

theorem mem_lengthsAt {m : Nat} {l : Fin 3} : l.val ∈ lengthsAt m ↔ m % lengthSec l = 0 := by
  simp [lengthsAt]

/-! ### The written metrology values take effect (R331, R369) -/

/-- Metrology values that take effect leave the mode manager, the pair, the queue, thermal metering and the values that wait. -/
structure ValuesOnly (s t : State) : Prop where
  sys : t.sys = s.sys
  pair : t.pair = s.pair
  pending : t.pending = s.pending
  mth : t.mth = s.mth
  cfgPending : t.cfgPending = s.cfgPending

theorem ValuesOnly.refl (s : State) : ValuesOnly s s := ⟨rfl, rfl, rfl, rfl, rfl⟩

theorem ValuesOnly.trans {s t u : State} (h : ValuesOnly s t) (h' : ValuesOnly t u) : ValuesOnly s u :=
  ⟨h'.sys.trans h.sys, h'.pair.trans h.pair, h'.pending.trans h.pending, h'.mth.trans h.mth,
    h'.cfgPending.trans h.cfgPending⟩

theorem ValuesOnly.foldl {α : Type} {f : State → α → State} (h : ∀ s x, ValuesOnly s (f s x)) (l : List α) (s : State) :
    ValuesOnly s (l.foldl f s) :=
  List.foldlRecOn l f (.refl s) fun _ ht x _ => ht.trans (h _ x)

theorem valuesOnly_closeCycle (k : Nat) (ph : Option Phasors) (s : State) : ValuesOnly s (closeCycle k ph s) := by
  unfold closeCycle
  extract_lets
  split
  · exact .refl s
  · exact ⟨rfl, rfl, rfl, rfl, rfl⟩

theorem valuesOnly_forceClose (k : Nat) (s : State) : ValuesOnly s (forceClose k s) := by
  unfold forceClose
  extract_lets
  split
  · have h := valuesOnly_closeCycle k none s
    exact ⟨h.sys, h.pair, h.pending, h.mth, h.cfgPending⟩
  · exact .refl s

theorem valuesOnly_completeAll (f : Wait → Bool) (status : Nat) (regularised : Bool) (body : Bytes) (s : State) :
    ValuesOnly s (completeAll f status regularised body s) :=
  .foldl (fun _ _ => ⟨complete_sys .., complete_pair .., complete_pending .., complete_mth .., complete_cfgPending ..⟩) _ s

theorem valuesOnly_updEpd (f : Epd → Epd) (s : State) : ValuesOnly s (updEpd f s) := ⟨rfl, rfl, rfl, rfl, rfl⟩

theorem valuesOnly_epdRequest (r : EpdReq) (s : State) : ValuesOnly s (epdRequest r s) := by
  unfold epdRequest
  split
  · exact (valuesOnly_updEpd _ s).trans (valuesOnly_completeAll ..)
  · exact valuesOnly_updEpd _ s

theorem valuesOnly_requestStrip (k waveform : Nat) (s : State) : ValuesOnly s (requestStrip k waveform s) := by
  unfold requestStrip requestRegion
  split
  · exact .refl s
  · exact (valuesOnly_updEpd _ s).trans (valuesOnly_epdRequest ..)

theorem valuesOnly_takeEffect (p : PendingValue) (s : State) : ValuesOnly s (takeEffect p s) := by
  unfold takeEffect
  extract_lets old u v
  split
  · exact .refl s
  · have hu : ValuesOnly s u := ⟨rfl, rfl, rfl, rfl, rfl⟩
    have hv : ValuesOnly u v := valuesOnly_requestStrip 1 2 u
    exact (hu.trans hv).trans ⟨rfl, rfl, rfl, rfl, rfl⟩

theorem valuesOnly_moveSave (s : State) : ValuesOnly s (moveSave s) := by
  unfold moveSave; split
  · exact ⟨rfl, rfl, rfl, rfl, rfl⟩
  · exact .refl s

/-- The written values take effect, and no longer wait. -/
theorem applyMinute_eq (s : State) :
    ∃ u, ValuesOnly s u ∧
      ValuesOnly { u with cfgPending := u.cfgPending.filter fun p => !minuteId p.id } (applyMinute s) := by
  unfold applyMinute
  extract_lets ids touched s₁ due s₂ s₃ s₄
  have h₁ : ValuesOnly s s₁ := .foldl (fun u k => by split; exacts [valuesOnly_forceClose k u, .refl u]) _ s
  have h₂ : ValuesOnly s₁ s₂ := .foldl (fun u p => valuesOnly_takeEffect p u) _ s₁
  have h₄ : ValuesOnly s₃ s₄ := by
    unfold s₄; split
    · exact valuesOnly_moveSave s₃
    · exact .refl s₃
  exact ⟨s₂, h₁.trans h₂, h₄.trans ⟨rfl, rfl, rfl, rfl, rfl⟩⟩

/-! ### The row of an interval boundary -/

theorem intervalBoundary_done {s : State} (h : s.bill.lastBoundary = some (meterSec s)) : intervalBoundary s = s := by
  simp [intervalBoundary, h]

/-- The snapshot point of a boundary and its intervals, before the written values take effect. -/
def boundaryTurned (s : State) : State :=
  turnIntervals (lengthsAt (meterSec s)) 0 0 (dueChanges (snapshotPoint s)) (snapshotPoint s)

theorem intervalBoundary_due {s : State} (hm : meteringMode s = true) (h60 : meterSec s % 60 = 0)
    (hl : s.bill.lastBoundary ≠ some (meterSec s)) :
    intervalBoundary s =
      { applyMinute (boundaryTurned s) with
        bill := { (applyMinute (boundaryTurned s)).bill with lastBoundary := some (meterSec s) } } := by
  simp only [intervalBoundary, hm, h60, beq_eq_false_iff_ne.mpr hl]; rfl

/-- What a boundary leaves outside of the channels, the systems and the registers. -/
theorem boundaryTurned_kept (s : State) :
    (boundaryTurned s).sys = s.sys ∧ (boundaryTurned s).pair = s.pair ∧ (boundaryTurned s).pending = s.pending ∧
      (boundaryTurned s).cfgPending = s.cfgPending := by
  obtain ⟨_, _, h⟩ := turnIntervals_eq (lengthsAt (meterSec s)) 0 0 (dueChanges (snapshotPoint s)) (snapshotPoint s)
  have hp := channelsOnly_snapshotPoint s
  rw [boundaryTurned, h]
  generalize snapshotPoint s = u at hp ⊢
  obtain ⟨_, _, _, _, _, _, rfl⟩ := hp
  exact ⟨rfl, rfl, rfl, rfl⟩

theorem boundaryTurned_closes {s : State} {c : Fin 16} {l : Fin 3} (hr : s.mth.running = true)
    (he : mthEnabled s c = true) (h0 : meterSec s % lengthSec l = 0) :
    ClosedAt (ptpSec s) (intervalView l s.mth.chans[c]) (intervalView l (boundaryTurned s).mth.chans[c]) := by
  have hp := channelsOnly_snapshotPoint s
  rw [boundaryTurned, ← snapshotPoint_intervalView]
  generalize snapshotPoint s = u at hp ⊢
  have hu : u.mth.running = true ∧ mthEnabled u c = true ∧ ptpSec u = ptpSec s := by
    obtain ⟨_, _, _, _, _, _, rfl⟩ := hp
    exact ⟨hr, he, rfl⟩
  obtain ⟨hr, he, hs⟩ := hu
  rw [← hs]
  exact turnIntervals_closes (mem_lengthsAt.mpr h0) (lengthsAt_nodup _) hr he ..

/-- What an interval boundary leaves. -/
theorem intervalBoundary_leaves {s : State} (hm : meteringMode s = true) (h60 : meterSec s % 60 = 0)
    (hl : s.bill.lastBoundary ≠ some (meterSec s)) :
    (intervalBoundary s).sys = s.sys ∧ (intervalBoundary s).pair = s.pair ∧ (intervalBoundary s).pending = s.pending ∧
      (intervalBoundary s).bill.lastBoundary = some (meterSec s) ∧
      (intervalBoundary s).cfgPending = s.cfgPending.filter (fun p => !minuteId p.id) ∧
      (intervalBoundary s).mth = (boundaryTurned s).mth := by
  obtain ⟨hsys, hpair, hpend, hwait⟩ := boundaryTurned_kept s
  obtain ⟨u, hu, ha⟩ := applyMinute_eq (boundaryTurned s)
  rw [intervalBoundary_due hm h60 hl]
  exact ⟨ha.sys.trans (hu.sys.trans hsys), ha.pair.trans (hu.pair.trans hpair),
    ha.pending.trans (hu.pending.trans hpend), rfl, ha.cfgPending.trans (by rw [hu.cfgPending, hwait]), ha.mth.trans hu.mth⟩

/-! ### The statement -/

/-- Settles O39: each row runs its effect on the state after its time, and the lemmas above say what that leaves. -/
theorem pulsesAndIntervalsComplete : Obligations.PulsesAndIntervalsComplete := by
  unfold Obligations.PulsesAndIntervalsComplete
  refine ⟨?pulse, ?otherEdge, ?short, ?rejected, ?frame, ?boundary, ?done⟩
  case pulse =>
    intro dt c rising held dir s hq hr he hf hp
    obtain ⟨ch, h, hc⟩ := flowPulse_counted (s := elapse dt s) (dir := dir) (held := held) (by rwa [elapse_mth hq.nothingWaits])
      (by rwa [mthEnabled_elapse hq]) (by rwa [flowFilterUs_elapse hq]) (by rwa [mthP_elapse hq])
    simp only [mthP_elapse hq, elapse_mth hq.nothingWaits] at h hc
    exact ⟨ch, event_of_mth hq h, hc.fwd, hc.rev, hc.spanFwd, hc.spanRev, hc.lastReverse, hc.dirChanges, hc.turned,
      hc.lastPulse, hc.prevPulse, hc.rejected, hc.tA, hc.tB, hc.kept⟩
  case otherEdge =>
    intro dt c held dir s hq hf
    have h := flowPulse_other_edge (s := elapse dt s) (c := c) (held := held) (by rwa [flowFilterUs_elapse hq]) dir
    exact event_of_unchanged hq (mthP_elapse hq dt c 0 ▸ h)
  case short =>
    intro dt c rising held dir s hq hr hf
    have h := flowEdgeRejected_running (s := elapse dt s) (by rwa [elapse_mth hq.nothingWaits]) c
    rw [← flowPulse_short (held := held) (by rwa [flowFilterUs_elapse hq]) rising dir, elapse_mth hq.nothingWaits] at h
    exact event_of_mth hq h
  case rejected =>
    intro dt c s hq hr
    have h := flowEdgeRejected_running (s := elapse dt s) (by rwa [elapse_mth hq.nothingWaits]) c
    rw [elapse_mth hq.nothingWaits] at h
    exact event_of_mth hq h
  case frame =>
    intro dt fr s hq hm
    obtain ⟨ch, x, p, b, e, i, g, hc, h⟩ := frameEnd_eq (s := elapse dt s) (by rwa [meteringMode_elapse hq]) fr
    rw [elapse_mth hq.nothingWaits] at h
    refine ⟨frameEnd fr (elapse dt s), event_of_kept hq ?_ ?_ ?_, ?_⟩
    all_goals rw [h]
    refine ⟨rfl, rfl, rfl, ?_, fun c he => ?_, elapse_mel hq.nothingWaits dt, elapse_pio hq.nothingWaits dt⟩
    · simp only [framesTaken_framesLost, elapse_mth hq.nothingWaits, mthEnabled_elapse hq]
    · rw [hc, framesTaken_frameLost (by rwa [mthEnabled_elapse hq])]
  case boundary =>
    intro dt s hq hm h60 hl
    obtain ⟨hsys, hpair, hpend, hlast, hwait, hmth⟩ :=
      intervalBoundary_leaves (s := elapse dt s) (by rwa [meteringMode_elapse hq]) h60 (by rwa [elapse_bill hq.nothingWaits])
    refine ⟨_, event_of_kept hq hsys hpair hpend, hlast, by rw [hwait, elapse_cfgPending hq.nothingWaits], ?_⟩
    intro c l hr he h0
    have h := boundaryTurned_closes (s := elapse dt s) (c := c) (by rwa [elapse_mth hq.nothingWaits])
      (by rwa [mthEnabled_elapse hq]) h0
    rw [← hmth, elapse_mth hq.nothingWaits] at h
    exact ⟨h.seq, h.start, h.kept⟩
  case done =>
    intro dt s hq hl
    exact event_of_unchanged hq (intervalBoundary_done (by rwa [elapse_bill hq.nothingWaits]))

end Sys2Proof.Machine

/-! The metering and valve commands: what each asks for, and the answer, the window or the motion that follows. -/

namespace Sys2Proof.Machine

/-! ### Fields that are all as they should be (R600) -/

theorem firstBad_of_all {cs : List (Bool × Nat)} (h : ∀ x ∈ cs, x.1 = true) : firstBad cs = none := by
  induction cs with
  | nil => rfl
  | cons x t ih =>
    obtain ⟨hx, ht⟩ := List.forall_mem_cons.1 h
    simp [firstBad, hx, ih ht]

theorem checked_of_all {cs : List (Bool × Nat)} (h : ∀ x ∈ cs, x.1 = true) (k : CmdRes) : checked cs k = k := by
  rw [checked, firstBad_of_all h]

/-- A field within the first bytes of a payload is read from them alone. -/
theorem fld_take {bs : Bytes} {k off n : Nat} (h : off + n ≤ k) : fld (bs.take k) off n = fld bs off n := by
  rw [fld, slice, List.drop_take, List.take_take, Nat.min_eq_left (by omega)]
  rfl

/-! ### A command that only reads -/

/-- It completes with OK and leaves the accepted state as it is. -/
theorem completes_of_read {i : Nat → Env → Bytes → Instr} {c : Cmd} {ok : Req → State → Prop} {body : Req → State → Bytes}
    (hi : ∀ dt q pl s, exec (i dt q pl) s = event dt (hostCommand c q pl) s)
    (hok : ∀ r s h n o e, ok r s → ok r (withAcceptance h n o e s))
    (hd : ∀ r u, ok r u → c.eff r u = .ok (body r u) u) : Completes i c ok stOK body (fun _ u => u) :=
  completes_of hi hok fun r u hq ho => ⟨hd r u ho, ⟨hq.1, hq.2.1⟩, rfl⟩

/-! ### The calibration window (R350) -/

theorem effCalWindow_opens {r : Req} {s : State}
    (hk : fld r.payload 0 1 ≤ 3) (he : melEnabled s (fld r.payload 0 1) = true) (h1 : allZero (slice r.payload 1 7) = true)
    (hlo : ptpTotalNs s + 10000000 ≤ fld r.payload 8 6 * 1000000000 + fld r.payload 16 4)
    (hhi : fld r.payload 8 6 * 1000000000 + fld r.payload 16 4 ≤ ptpTotalNs s + 3600000000000)
    (h14 : allZero (slice r.payload 14 2) = true) (hns : fld r.payload 16 4 ≤ 999999999) (hmin : 1000 ≤ fld r.payload 20 4)
    (hmax : fld r.payload 20 4 ≤ 3600000) (hfree : (melSys s (fld r.payload 0 1)).cal = none) :
    effCalWindow r s =
      .wait (.calWindow (fld r.payload 0 1))
        (setMel (fld r.payload 0 1)
          { melSys s (fld r.payload 0 1) with
            cal := some
              { start := fld r.payload 8 6 * 1000000000 + fld r.payload 16 4,
                stop := fld r.payload 8 6 * 1000000000 + fld r.payload 16 4 + fld r.payload 20 4 * 1000000,
                samples := 0, first := ⟨0, 0⟩, sums := Vector.replicate 3 PhaseSums.zero, flags := 0 } } s) := by
  simp only [effCalWindow]
  rw [checked_of_all (by simp [hk, he, h1, hlo, hhi, h14, hns, hmin, hmax]), hfree]
  rfl

/-! ### The items of BILL_READ (R371) -/

theorem effBillRead_snapshot {r : Req} (h : r.payload = zeros 8) (s : State) :
    effBillRead r s = .ok (recBytes { s.bill.shown with seq := s.bill.lastSeq }) s := by
  rw [effBillRead, h]; rfl

theorem effBillRead_saved {r : Req} {s : State} {x : SaveRec} (h : r.payload = 1 :: zeros 7) (hx : chooseSlot s = some x) :
    effBillRead r s = .ok (recBytes x) s := by
  rw [effBillRead, h, hx]; rfl

theorem effBillRead_frozen {r : Req} {s : State} {x : SaveRec} (h : r.payload = 2 :: zeros 7) (hx : s.bill.frozen = some x) :
    effBillRead r s = .ok (recBytes { x with set_ := 0 }) s := by
  rw [effBillRead, h, hx]; rfl

theorem effBillRead_thermal {r : Req} {s : State} {c : Fin 16} {l : Fin 3} {x : ThermInt} (hi : fld r.payload 0 1 = 3)
    (hc : fld r.payload 1 1 = c) (hl : fld r.payload 2 1 = l) (h3 : fld r.payload 3 1 = 0)
    (hx : ((s.mth.chans[c]).kept[l])[fld r.payload 4 4]? = some x) : effBillRead r s = .ok (thermIntBytes c l x) s := by
  simp only [effBillRead, hi, hc, hl, h3, vget_fin, hx]
  exact checked_of_all (by simp; omega) _

theorem effBillRead_electrical {r : Req} {s : State} {k : Fin 4} {l : Fin 3} {x : ElecInt} (hi : fld r.payload 0 1 = 4)
    (hk : fld r.payload 1 1 = k) (hl : fld r.payload 2 1 = l) (h3 : fld r.payload 3 1 = 0)
    (hx : ((melSys s k).kept[l])[fld r.payload 4 4]? = some x) : effBillRead r s = .ok (elecIntBytes k l x) s := by
  simp only [effBillRead, hi, hk, hl, h3, vget_fin, hx]
  exact checked_of_all (by simp; omega) _

theorem effBillRead_gap {r : Req} {s : State} {x : GapRec} (h : r.payload.take 4 = 5 :: zeros 3)
    (hx : s.bill.gaps[fld r.payload 4 4]? = some x) : effBillRead r s = .ok (gapBytes x) s := by
  have hf : ∀ off, off + 1 ≤ 4 → fld r.payload off 1 = fld (5 :: zeros 3) off 1 := fun off ho => by rw [← h, fld_take ho]
  have hi : fld r.payload 0 1 = 5 := hf 0 (by decide)
  have h1 : fld r.payload 1 1 = 0 := hf 1 (by decide)
  have h2 : fld r.payload 2 1 = 0 := hf 2 (by decide)
  have h3 : fld r.payload 3 1 = 0 := hf 3 (by decide)
  simp only [effBillRead, hi, h1, h2, h3, hx]
  exact checked_of_all (by simp) _

theorem effBillRead_version {r : Req} (h : r.payload = 6 :: zeros 7) (s : State) :
    effBillRead r s =
      .ok (le 4 (metroVersion s) ++ le 4 s.bill.changeCounter.toNat ++ fit 48 (imageOf s 3).digest) s := by
  rw [effBillRead, h]; rfl

/-! ### Moves and homings of an axis (R409 to R411) -/

/-- With no host command on the axis there is none to complete. -/
theorem hostDone_of_none {s : State} {a : Nat} (h : (axisOf s a).host = none) (outcome : Nat) : hostDone a outcome s = s := by
  simp [hostDone, h]

/-- The axis as VAX_MOVE finds it: MODE 0 clears what is latched (R409). -/
def moveFrom (mode : Nat) (x : Axis) : Axis :=
  if mode = 0 then { x with stallLatched := false, driveFault := false, faultCause := 0 } else x

theorem moveFrom_of_move {mode : Nat} (h : 1 ≤ mode) (x : Axis) : moveFrom mode x = x := if_neg (by omega)

/-- A move or a stop starts on an axis that nothing else drives and on which nothing is latched any more. -/
theorem effVaxMove_starts {r : Req} {s : State} {a mode : Nat} {x : Axis} (ha : fld r.payload 0 1 = a)
    (hm : fld r.payload 1 1 = mode) (ha7 : a ≤ 7) (he : axisEnabled s a = true) (hm3 : mode ≤ 3)
    (h2 : allZero (slice r.payload 2 2) = true) (h4 : mode = 0 → fld r.payload 4 4 = 0) (hfree : axisFree s a = true)
    (hrole : roleHeld s = true) (hhome : (axisOf s a).home = none) (hhost : (axisOf s a).host = none)
    (hx : moveFrom mode (axisOf s a) = x) (hstall : x.stallLatched = false) (hdrive : x.driveFault = false) :
    effVaxMove r s =
      .wait (.axis a)
        (setAxis a
          { startGoal s a (goalOf mode (r.payload.drop 4) 0) { x with record := none } with host := some false } s) := by
  subst ha hm hx
  have hmode : (fld r.payload 1 1 != 0 || fld r.payload 4 4 == 0) = true := by simpa [or_iff_not_imp_left] using h4
  rw [effVaxMove, checked_of_all (by simp [ha7, he, hm3, h2, hmode])]
  simp only [hostDone_of_none hhost]
  exact (if_neg (by simp [hfree, hrole])).trans <| (if_neg (by simp [hhome])).trans <|
    (if_neg (ne_true_of_eq_false hstall)).trans (if_neg (ne_true_of_eq_false hdrive))

theorem effVaxHome_starts {r : Req} {s : State} {a : Nat} (ha : fld r.payload 0 1 = a) (ha7 : a ≤ 7)
    (he : axisEnabled s a = true) (h1 : allZero (slice r.payload 1 3) = true) (hfree : axisFree s a = true)
    (hrole : roleHeld s = true) (hhome : (axisOf s a).home = none) (hhost : (axisOf s a).host = none)
    (hruns : (startHoming s a (axisOf s a).homeReq { axisOf s a with nextGoal := some Goal.stop, goal := Goal.stop }).home ≠ none) :
    effVaxHome r s =
      .wait (.axis a)
        (setAxis a
          { startHoming s a (axisOf s a).homeReq { axisOf s a with nextGoal := some Goal.stop, goal := Goal.stop } with
            host := some true } s) := by
  subst ha
  rw [effVaxHome, checked_of_all (by simp [ha7, he, h1])]
  exact (if_neg (by simp [hfree, hrole])).trans <| (if_neg (by simp [hhost, hhome])).trans <|
    if_pos (Option.isSome_iff_ne_none.2 hruns)

/-! ### The status of an axis (R412) -/

theorem effVaxStatus_answers {r : Req} (ha : fld r.payload 0 1 ≤ 7) (h1 : allZero (slice r.payload 1 3) = true) (s : State) :
    effVaxStatus r s = .ok (statusRead s (axisOf s (fld r.payload 0 1))) s :=
  checked_of_all (by simp [ha, h1]) _

/-! ### The statement -/

/-- Settles O15: what a command asks for looks at nothing that acceptance changes, and the lemmas above say what its effect answers
or begins. -/
theorem meteringAndValveCommandsComplete : Obligations.MeteringAndValveCommandsComplete := by
  unfold Obligations.MeteringAndValveCommandsComplete
  refine ⟨?window, ?snapshot, ?saved, ?frozen, ?thermal, ?electrical, ?gap, ?version, ?move, ?stop, ?home, ?status,
    fun _ _ => rfl, fun _ => rfl, rfl⟩
  case window =>
    refine begins_of (fun _ _ _ _ => rfl) (fun _ _ _ _ _ _ h => h) fun r u hq ho => ⟨?_, ⟨hq.1, hq.2.1⟩, rfl⟩
    obtain ⟨hk, he, h1, hlo, hhi, h14, hns, hmin, hmax, hfree⟩ := ho
    exact effCalWindow_opens hk he h1 hlo hhi h14 hns hmin hmax hfree
  case snapshot =>
    exact completes_of_read (fun _ _ _ _ => rfl) (fun _ _ _ _ _ _ h => h) fun _ u h => effBillRead_snapshot h u
  case saved =>
    exact fun x => completes_of_read (fun _ _ _ _ => rfl) (fun _ _ _ _ _ _ h => h) fun _ _ ⟨h, hx⟩ => effBillRead_saved h hx
  case frozen =>
    exact fun x => completes_of_read (fun _ _ _ _ => rfl) (fun _ _ _ _ _ _ h => h) fun _ _ ⟨h, hx⟩ => effBillRead_frozen h hx
  case thermal =>
    exact fun c l x => completes_of_read (fun _ _ _ _ => rfl) (fun _ _ _ _ _ _ h => h)
      fun _ _ ⟨hi, hc, hl, h3, hx⟩ => effBillRead_thermal hi hc hl h3 hx
  case electrical =>
    exact fun k l x => completes_of_read (fun _ _ _ _ => rfl) (fun _ _ _ _ _ _ h => h)
      fun _ _ ⟨hi, hk, hl, h3, hx⟩ => effBillRead_electrical hi hk hl h3 hx
  case gap =>
    exact fun x => completes_of_read (fun _ _ _ _ => rfl) (fun _ _ _ _ _ _ h => h) fun _ _ ⟨h, hx⟩ => effBillRead_gap h hx
  case version =>
    exact completes_of_read (fun _ _ _ _ => rfl) (fun _ _ _ _ _ _ h => h) fun _ u h => effBillRead_version h u
  case move =>
    refine begins_of (fun _ _ _ _ => rfl) (fun _ _ _ _ _ _ h => h) fun r u hq ho => ⟨?_, ⟨hq.1, hq.2.1⟩, rfl⟩
    obtain ⟨ha, he, hm1, hm3, h2, hfree, hrole, hhome, hhost, hstall, hdrive⟩ := ho
    exact effVaxMove_starts rfl rfl ha he hm3 h2 (fun h0 => by omega) hfree hrole hhome hhost (moveFrom_of_move hm1 _)
      hstall hdrive
  case stop =>
    refine begins_of (fun _ _ _ _ => rfl) (fun _ _ _ _ _ _ h => h) fun r u hq ho => ⟨?_, ⟨hq.1, hq.2.1⟩, rfl⟩
    obtain ⟨ha, he, hm, h2, h4, hfree, hrole, hhome, hhost⟩ := ho
    exact effVaxMove_starts (x := moveFrom 0 (axisOf u (fld r.payload 0 1))) rfl hm ha he (by decide) h2 (fun _ => h4)
      hfree hrole hhome hhost rfl rfl rfl
  case home =>
    refine begins_of (fun _ _ _ _ => rfl) (fun _ _ _ _ _ _ h => h) fun r u hq ho => ⟨?_, ⟨hq.1, hq.2.1⟩, rfl⟩
    obtain ⟨ha, he, h1, hfree, hrole, hhome, hhost, hruns⟩ := ho
    exact effVaxHome_starts rfl ha he h1 hfree hrole hhome hhost hruns
  case status =>
    exact completes_of_read (fun _ _ _ _ => rfl) (fun _ _ _ _ _ _ h => h) fun _ u ⟨ha, h1⟩ => effVaxStatus_answers ha h1 u

end Sys2Proof.Machine

/-! Packets: what is read back from the bytes that a packet's fields, payload and trailers were written to. -/

namespace Sys2Proof.Machine

/-! ### Fields in bytes (R6) -/

@[simp] theorem le_length (n v : Nat) : (le n v).length = n := by
  induction n generalizing v with
  | zero => rfl
  | succ n ih => simp [le, ih]

theorem ofLE_le (n v : Nat) : ofLE (le n v) = v % 256 ^ n := by
  induction n generalizing v with
  | zero => simp [le, ofLE, Nat.mod_one]
  | succ n ih =>
    have h : v % 256 + 256 * (v / 256 % 256 ^ n) = v % 256 ^ (n + 1) := by rw [pow_succ', Nat.mod_mul]
    rw [le, ofLE, ih, BitVec.toNat_ofNat, ← h]

@[simp] theorem zeros_length (n : Nat) : (zeros n).length = n := List.length_replicate ..

@[simp] theorem fit_length (n : Nat) (b : Bytes) : (fit n b).length = n := by
  simp [fit]; omega

/-- What stands behind a first part is read at offsets from its end on. -/
theorem slice_append_of_le {a b : Bytes} {off n : Nat} (h : a.length ≤ off) : slice (a ++ b) off n = slice b (off - a.length) n := by
  rw [slice, List.drop_append, List.drop_eq_nil_of_le h, List.nil_append, slice]

/-- The bytes at the start of an appended string are its first part. -/
theorem slice_append_zero {a b : Bytes} {n : Nat} (h : a.length = n) : slice (a ++ b) 0 n = a := List.take_left' h

theorem fld_append_of_le {k v off n : Nat} (h : k ≤ off) (b : Bytes) : fld (le k v ++ b) off n = fld b (off - k) n := by
  rw [fld, slice_append_of_le (by simpa using h), le_length, fld]

/-- A field that fits reads as it was written. -/
theorem fld_append_zero {n v : Nat} (h : v < 256 ^ n) (b : Bytes) : fld (le n v ++ b) 0 n = v := by
  rw [fld, slice_append_zero (le_length n v), ofLE_le, Nat.mod_eq_of_lt h]

/-! ### The header (R74) -/

/-- Every field of a header lies within its bytes. -/
structure Hdr.Fits (h : Hdr) : Prop where
  verFlags : h.verFlags < 256 ^ 1
  tag : h.tag < 256 ^ 1
  opcode : h.opcode < 256 ^ 2
  length : h.length < 256 ^ 2
  epoch : h.epoch < 256 ^ 2
  seq : h.seq < 256 ^ 4
  reserved : h.reserved < 256 ^ 4

@[simp] theorem Hdr.bytes_length (h : Hdr) : h.bytes.length = 16 := by simp [Hdr.bytes]

/-- A header whose fields fit is read back from its bytes. -/
theorem hdrOf_bytes {h : Hdr} (hf : h.Fits) (b : Bytes) : hdrOf (h.bytes ++ b) = h := by
  obtain ⟨h0, h1, h2, h4, h6, h8, h12⟩ := hf
  simp [hdrOf, Hdr.bytes, fld_append_of_le, fld_append_zero h0, fld_append_zero h1, fld_append_zero h2, fld_append_zero h4,
    fld_append_zero h6, fld_append_zero h8, fld_append_zero h12]

/-! ### Packets (R75, R76) -/

/-- VER_FLAGS tell whether a packet carries a session and a signature trailer. -/
theorem bit_verFlags (e sig sess : Bool) :
    bit (0x10 + 4 * b2n e + 2 * b2n sig + b2n sess) 0 = sess ∧ bit (0x10 + 4 * b2n e + 2 * b2n sig + b2n sess) 1 = sig ∧
      bit (0x10 + 4 * b2n e + 2 * b2n sig + b2n sess) 2 = e := by
  cases e <;> cases sig <;> cases sess <;> decide

theorem envPkt_fits {op : Nat} {pl : Bytes} (ho : op < 65536) (hl : pl.length < 65536) (q : Env) : (envPkt op q pl).hdr.Fits where
  verFlags := by
    have b (x : Bool) : b2n x ≤ 1 := by cases x <;> decide
    have := b q.e2e; have := b q.sig.isSome; have := b q.sess.isSome
    simp only [envPkt]; omega
  tag := q.tag.isLt
  opcode := ho
  length := hl
  epoch := q.epoch.isLt
  seq := q.seq.isLt
  reserved := Nat.two_pow_pos 32

@[simp] theorem SigTrailer.bytes_length (t : SigTrailer) : (SigTrailer.bytes t).length = 104 := by simp [SigTrailer.bytes]

theorem envPkt_sig_length (op : Nat) (q : Env) (pl : Bytes) : (envPkt op q pl).sig.length = if q.sig.isSome then 104 else 0 := by
  cases h : q.sig <;> simp [envPkt, h]

theorem envPkt_sess_length (op : Nat) (q : Env) (pl : Bytes) : (envPkt op q pl).sess.length = if q.sess.isSome then 48 else 0 := by
  cases h : q.sess <;> simp [envPkt, h]

/-- What precedes the session trailer: header, payload and signature. -/
theorem envPkt_pre (op : Nat) (q : Env) (pl : Bytes) :
    (envPkt op q pl).pre = (envPkt op q pl).hdr.bytes ++ (pl ++ (envPkt op q pl).sig) := by simp [envPkt]

theorem envPkt_size (op : Nat) (q : Env) (pl : Bytes) :
    (envPkt op q pl).size = (envPkt op q pl).pre.length + (envPkt op q pl).sess.length + 4 := rfl

theorem envPkt_bytes_length (op : Nat) (q : Env) (pl : Bytes) : (envPkt op q pl).bytes.length = (envPkt op q pl).size := by
  simp [Pkt.bytes, envPkt_size, Nat.add_assoc]

/-- The bytes before the CRC. -/
theorem take_envPkt_bytes (op : Nat) (q : Env) (pl : Bytes) :
    (envPkt op q pl).bytes.take ((envPkt op q pl).size - 4) = (envPkt op q pl).pre ++ (envPkt op q pl).sess :=
  List.take_left' (by simp [envPkt_size])

theorem hdrOf_envPkt_bytes {op : Nat} {pl : Bytes} (ho : op < 65536) (hl : pl.length < 65536) (q : Env) :
    hdrOf (envPkt op q pl).bytes = (envPkt op q pl).hdr := by
  rw [Pkt.bytes, envPkt_pre, List.append_assoc, List.append_assoc]
  exact hdrOf_bytes (envPkt_fits ho hl q) _

/-- Settles O19: the header tells how long the payload is and which trailers follow it. -/
theorem packetsParseBack : Obligations.PacketsParseBack := by
  unfold Obligations.PacketsParseBack
  intro op q pl ho hl
  obtain ⟨hsess, hsig, -⟩ := bit_verFlags q.e2e q.sig.isSome q.sess.isSome
  have hs : bit (envPkt op q pl).hdr.verFlags 0 = q.sess.isSome := hsess
  have hg : bit (envPkt op q pl).hdr.verFlags 1 = q.sig.isSome := hsig
  have hlen : (envPkt op q pl).hdr.length = pl.length := rfl
  have hcut : (envPkt op q pl).sess.length = if q.sess.isSome then 48 else 0 := envPkt_sess_length op q pl
  have hpayload : slice ((envPkt op q pl).pre ++ (envPkt op q pl).sess) 16 pl.length = pl := by
    rw [envPkt_pre, List.append_assoc, slice_append_of_le (by simp), List.append_assoc]
    exact slice_append_zero rfl
  have hsigned : (if q.sig.isSome then slice ((envPkt op q pl).pre ++ (envPkt op q pl).sess) (16 + pl.length) 104 else []) =
      (envPkt op q pl).sig := by
    split
    · next h =>
      rw [envPkt_pre, List.append_assoc, slice_append_of_le (by simp), List.append_assoc, slice_append_of_le (by simp)]
      simpa using slice_append_zero (by simp [envPkt_sig_length, h])
    · next h => exact (List.eq_nil_of_length_eq_zero (by simp [envPkt_sig_length, h])).symm
  simp only [parsePkt, take_envPkt_bytes, hdrOf_envPkt_bytes ho hl, envPkt_bytes_length, hs, hg, hlen, hpayload, hsigned, ← hcut,
    List.length_append, Nat.add_sub_cancel, List.drop_left, List.take_left]
  rfl

end Sys2Proof.Machine

/-! Transports: the bytes of a packet, however they arrive, are the packet that the row of its command carries. -/

namespace Sys2Proof.Machine

/-! ### Check 1 (R76) -/

theorem crcBits_lt {poly : Nat} (hp : poly < 2 ^ 32) (n : Nat) {c : Nat} (h : c < 2 ^ 32) : crcBits poly n c < 2 ^ 32 := by
  induction n generalizing c with
  | zero => exact h
  | succ n ih =>
    refine ih ?_
    split
    · exact Nat.xor_lt_two_pow (by omega) hp
    · omega

theorem crcReflected_lt {poly : Nat} (hp : poly < 2 ^ 32) (bs : Bytes) : crcReflected poly bs < 2 ^ 32 := by
  refine Nat.xor_lt_two_pow ?_ (by decide)
  generalize hc : 0xFFFFFFFF = c
  have h : c < 2 ^ 32 := by omega
  clear hc
  induction bs generalizing c with
  | nil => exact h
  | cons b bs ih => exact ih _ (crcBits_lt hp 8 (Nat.xor_lt_two_pow h (by omega)))

theorem crc32c_lt (bs : Bytes) : crc32c bs < 256 ^ 4 := crcReflected_lt (by decide) bs

/-- A packet of at most 4,268 bytes passes check 1, a longer one fails it. -/
theorem crcOk_envPkt (op : Nat) (q : Env) (pl : Bytes) :
    crcOk (envPkt op q pl).bytes = decide ((envPkt op q pl).size ≤ 4268) := by
  have h4 : 4 ≤ (envPkt op q pl).size := by rw [envPkt_size]; omega
  have hb : (envPkt op q pl).bytes =
      ((envPkt op q pl).pre ++ (envPkt op q pl).sess) ++ (le 4 (crc32c ((envPkt op q pl).pre ++ (envPkt op q pl).sess)) ++ []) := by
    simp [Pkt.bytes]
  have hcrc : fld (envPkt op q pl).bytes ((envPkt op q pl).size - 4) 4 =
      crc32c ((envPkt op q pl).pre ++ (envPkt op q pl).sess) := by
    rw [hb, fld, slice_append_of_le (by simp [envPkt_size])]
    have e : (envPkt op q pl).size - 4 - List.length ((envPkt op q pl).pre ++ (envPkt op q pl).sess) = 0 := by simp [envPkt_size]
    rw [e]
    exact fld_append_zero (crc32c_lt _) []
  simp [crcOk, envPkt_bytes_length, take_envPkt_bytes, hcrc, h4]

/-! ### Arrival (R70) -/

theorem padHeader_of_le {raw : Bytes} (h : 16 ≤ raw.length) (s : State) : padHeader raw s = (raw, s) := if_pos h

theorem cmdOf_lt {n : Nat} {c : Cmd} (h : cmdOf n = some c) : n < 65536 := by
  unfold cmdOf at h
  split at h
  all_goals first | omega | cases h

theorem envPkt_size_ge (op : Nat) (q : Env) (pl : Bytes) : 20 + pl.length ≤ (envPkt op q pl).size := by
  rw [envPkt_size, envPkt_pre]; simp; omega

/-- The bytes of a packet of an assigned opcode are left to checks 2 to 8 as the packet, unless it is too long. -/
theorem arrive_envPkt {c : Cmd} {q : Env} {v : VestibuleErr} (hc : cmdOf c.op = some c) (hv : v.err = .none) (pl : Bytes)
    (s : State) :
    arrive ⟨q.tr, q.srcIp.toNat, q.srcPort.toNat⟩ (envPkt c.op q pl).bytes v s =
      if 4268 < (envPkt c.op q pl).size then crcError (envPkt c.op q pl).org (envPkt c.op q pl).bytes s
      else checks (some c) (envPkt c.op q pl) s := by
  have hn : 20 + pl.length ≤ (envPkt c.op q pl).size := envPkt_size_ge ..
  by_cases h : 4268 < (envPkt c.op q pl).size
  · simp only [arrive, hv, crcOk_envPkt, h, if_true, Nat.not_le.mpr h]
    rfl
  · have hl : pl.length < 65536 := by omega
    have hop : cmdOf (envPkt c.op q pl).hdr.opcode = some c := hc
    have hp := packetsParseBack c.op q pl (cmdOf_lt hc) hl
    have hlong : 16 ≤ (envPkt c.op q pl).bytes.length := by rw [envPkt_bytes_length]; omega
    simp only [arrive, hv, crcOk_envPkt, Nat.not_lt.mp h, padHeader_of_le hlong, hp, hdrOf_envPkt_bytes (cmdOf_lt hc) hl, hop, h]
    rfl

/-! ### UART frames (R73) -/

/-- A byte as it stands between the flags. -/
abbrev stuffByte (x : Byte) : Bytes := if x = 0x7E#8 ∨ x = 0x7D#8 then [0x7D#8, x ^^^ 0x20#8] else [x]

theorem unstuff_cons {b : Byte} (h : b ≠ 0x7D#8) (l : Bytes) : unstuff (b :: l) = (unstuff l).map (b :: ·) := by
  cases l <;> simp [unstuff, h]

theorem unstuff_flatMap (b : Bytes) : unstuff (b.flatMap stuffByte) = some b := by
  induction b with
  | nil => rfl
  | cons x b ih =>
    rw [List.flatMap_cons]
    by_cases h : x = 0x7E#8 ∨ x = 0x7D#8
    · simp [stuffByte, h, unstuff, ih]
    · obtain ⟨-, h7⟩ := not_or.1 h
      rw [stuffByte, if_neg h, List.singleton_append, unstuff_cons h7, ih]
      rfl

/-- The bytes between the flags of a stuffed frame are unstuffed into what was sent. -/
theorem unstuff_stuff (b : Bytes) : unstuff ((stuff b).drop 1).dropLast = some b := by
  rw [stuff, List.append_assoc, List.singleton_append, List.drop_succ_cons, List.drop_zero, List.dropLast_concat]
  exact unstuff_flatMap b

/-! ### The rows -/

theorem writePacket_envPkt {c : Cmd} {q : Env} {v : VestibuleErr} (ht : q.tr = .xspi) (hi : q.srcIp = 0) (hp : q.srcPort = 0)
    (hc : cmdOf c.op = some c) (hv : v.err = .none) (pl : Bytes) (s : State) :
    writePacket (envPkt c.op q pl).bytes v s = hostCommand c q pl s := by
  have ha := arrive_envPkt (q := q) hc hv pl s
  simp only [ht, hi, hp] at ha
  simp only [writePacket, hostCommand, ht, true_and, Bool.not_eq_true']
  congr 2

theorem datagram_envPkt {c : Cmd} {q : Env} {v : VestibuleErr} (ht : q.tr = .udp) (hc : cmdOf c.op = some c) (hv : v.err = .none)
    (pl : Bytes) {s : State} (ho : hostOpen s = true) :
    datagram q.srcIp.toNat q.srcPort.toNat true (envPkt c.op q pl).bytes v s = hostCommand c q pl s := by
  have ha := arrive_envPkt (q := q) hc hv pl s
  rw [ht] at ha
  simp only [datagram, hostCommand, ht, ho, ha]
  cases udpAdmits s q.srcIp.toNat <;> simp

theorem uartFrame_envPkt {c : Cmd} {q : Env} {v : VestibuleErr} (ht : q.tr = .uart) (hi : q.srcIp = 0) (hp : q.srcPort = 0)
    (hc : cmdOf c.op = some c) (hv : v.err = .none) (pl : Bytes) (s : State) :
    uartFrame ((stuff (envPkt c.op q pl).bytes).drop 1).dropLast v s = hostCommand c q pl s := by
  have ha := arrive_envPkt (q := q) hc hv pl s
  simp only [ht, hi, hp] at ha
  have hn : ¬ (envPkt c.op q pl).bytes.length < 20 := by
    rw [envPkt_bytes_length]; have := envPkt_size_ge c.op q pl; omega
  simp only [uartFrame, unstuff_stuff, hn, hostCommand, ht]
  split
  · rfl
  · simpa using ha

/-- Two pieces that meet are the whole. -/
theorem joinPieces_take_drop {b : Bytes} {n : Nat} (h0 : 0 < n) (hn : n < b.length) :
    joinPieces (putPiece n (b.drop n) [(0, b.take n)]) 2 0 = b := by
  have ht : (b.take n).length = n := List.length_take_of_le hn.le
  have h1 : (b.take n).isEmpty = false := by rw [List.isEmpty_eq_false_iff_exists_mem]; exact List.exists_mem_of_length_pos (by omega)
  have h2 : (b.drop n).isEmpty = false := by
    rw [List.isEmpty_eq_false_iff_exists_mem]; exact List.exists_mem_of_length_pos (by rw [List.length_drop]; omega)
  have e0 : (0 == n) = false := by simpa using h0.ne
  have e1 : (0 != n) = true := by simpa using h0.ne
  have en : (n == 0) = false := by simpa using h0.ne'
  simp [joinPieces, putPiece, e0, e1, h1, h2, ht]

/-- The last fragment of a datagram to an endpoint, from an offset of it on. -/
def lastFragment (q : Env) (ident : W16) (vlan : Nat) (port : W16) (off : Nat) (data : Bytes) : UdpFrag :=
  { srcIp := q.srcIp, srcPort := q.srcPort, ident := ident, offset := off, more := false, checksumOk := true, unicast := true,
    vlan := vlan, dstPort := port, data := data }

/-- A datagram sent whole to the host endpoint. -/
theorem udpDatagram_whole {c : Cmd} {q : Env} {v : VestibuleErr} {vlan : Nat} {port : W16} {s : State} (ht : q.tr = .udp)
    (hc : cmdOf c.op = some c) (hv : v.err = .none) (hvlan : vlan = getP s 0x0213) (hport : port.toNat = getP s 0x0211)
    (ident : W16) (pl : Bytes) :
    udpDatagram (lastFragment q ident vlan port 0 (envPkt c.op q pl).bytes) v s = hostCommand c q pl s := by
  cases ho : hostOpen s with
  | false => simp [hostCommand, udpDatagram, ho]
  | true => simp [udpDatagram, lastFragment, ho, hvlan, hport, datagram_envPkt ht hc hv pl ho]

/-- The second of two fragments of a packet completes its datagram. -/
theorem udpDatagram_second_fragment {c : Cmd} {q : Env} {pl : Bytes} {v : VestibuleErr} {ident : W16} {vlan : Nat} {port : W16}
    {n : Nat} {s : State} (ht : q.tr = .udp) (hc : cmdOf c.op = some c) (hv : v.err = .none) (ho : hostOpen s = true)
    (hvlan : vlan = getP s 0x0213) (hport : port.toNat = getP s 0x0211) (h0 : 0 < n) (hn : n < (envPkt c.op q pl).size)
    (hlong : (envPkt c.op q pl).size ≤ 4268)
    (hs : s.hif.frags = [⟨q.srcIp.toNat, q.srcPort.toNat, ident.toNat, [(0, (envPkt c.op q pl).bytes.take n)], none⟩]) :
    udpDatagram (lastFragment q ident vlan port n ((envPkt c.op q pl).bytes.drop n)) v s =
      hostCommand c q pl { s with hif := { s.hif with frags := [] } } := by
  have hb : (envPkt c.op q pl).bytes.length = (envPkt c.op q pl).size := envPkt_bytes_length ..
  have hw := joinPieces_take_drop (b := (envPkt c.op q pl).bytes) h0 (by omega)
  have hlen : (putPiece n ((envPkt c.op q pl).bytes.drop n) [(0, (envPkt c.op q pl).bytes.take n)]).length = 2 := by
    have e1 : (0 != n) = true := by simpa using h0.ne
    simp [putPiece, e1]
  have htot : n + ((envPkt c.op q pl).size - n) = (envPkt c.op q pl).size := by omega
  have hd := datagram_envPkt (v := v) ht hc hv pl (s := { s with hif := { s.hif with frags := [] } }) ho
  simp [udpDatagram, lastFragment, ho, hvlan, hport, h0.ne', hs, hlen, hw, htot, hb, Nat.not_lt.mpr hlong, updHif, hd]

/-! ### The statement -/

/-- Settles O20: whatever carries them, the bytes are taken apart into the packet of the command, whose row does the same. -/
theorem transportsDeliverPackets : Obligations.TransportsDeliverPackets := by
  unfold Obligations.TransportsDeliverPackets
  refine ⟨?xspi, ?whole, ?fragments, ?uart⟩
  case xspi =>
    intro dt c q pl v s ht hi hp hc hv
    rw [← writePacket_envPkt ht hi hp hc hv]
    rfl
  case whole =>
    intro dt c q pl ident vlan port v s ht hc hvlan hport hv
    rw [← udpDatagram_whole ht hc hv hvlan hport ident]
    rfl
  case fragments =>
    intro dt c q pl ident vlan port n v s ht hc hq ho hvlan hport hv h0 hn hlong hs
    have hhif : (elapse dt s).hif = s.hif := elapse_hif hq.nothingWaits dt
    have e := udpDatagram_second_fragment (s := elapse dt s) ht hc hv (by rwa [hostOpen_elapse hq])
      (hvlan.trans (getP_elapse hq dt _).symm) (hport.trans (getP_elapse hq dt _).symm) h0 hn hlong (by rwa [hhif])
    rw [← hhif, ← e]
    rfl
  case uart =>
    intro dt c q pl v s ht hi hp hc hv
    rw [← uartFrame_envPkt ht hi hp hc hv]
    rfl

end Sys2Proof.Machine

/-! The calendar: the day of a date within the 400-year cycle, and the date of a day. -/

namespace Sys2Proof.Machine

/-! ### Years (R444) -/

theorem isLeap_iff (y : Nat) : isLeap y = true ↔ y % 4 = 0 ∧ (y % 100 = 0 → y % 400 = 0) := by
  simp only [isLeap, Bool.and_eq_true, Bool.or_eq_true, beq_iff_eq, bne_iff_ne]; omega

/-- The year of the cycle counted from 1 March. -/
def marchYear (y m : Nat) : Nat := (y - 2000 + 400 - (if m ≤ 2 then 1 else 0)) % 400

/-- The day of a date in its year counted from 1 March. -/
def marchDay (m d : Nat) : Nat := (153 * ((m + 9) % 12) + 2) / 5 + (d - 1)

/-- Days of the cycle before a year counted from 1 March, from 1 March 2000 on. -/
def daysBefore (yy : Nat) : Nat := yy * 365 + yy / 4 - yy / 100

/-- A day is in the year counted from 1 March: its last one only if February of that year has 29 days. -/
abbrev InMarchYear (yy doy : Nat) : Prop := doy ≤ 365 ∧ (doy = 365 → isLeap (2000 + (yy + 1)) = true)

theorem marchYear_lt (y m : Nat) : marchYear y m < 400 := Nat.mod_lt _ (by decide)

theorem daysOf_eq {y m d : Nat} (hd : 1 ≤ d) : daysOf y m d = (daysBefore (marchYear y m) + marchDay m d + 60) % cycleDays := by
  have e : daysBefore (marchYear y m) + (153 * ((m + 9) % 12) + 2) / 5 + d - 1 = daysBefore (marchYear y m) + marchDay m d := by
    simp only [marchDay]; omega
  simp only [← e]
  rfl

/-- The last day of the cycle is a leap day; on every other day the centuries that are past are counted. -/
theorem century_of_day {c q r doy : Nat} (hc : c < 4) (hq : q < 25) (hr : r < 4) (h365 : doy ≤ 365)
    (hleap : doy = 365 → r = 3 ∧ (q = 24 → c = 3)) :
    (36524 * c + 1461 * q + 365 * r + doy) / 36524 - (36524 * c + 1461 * q + 365 * r + doy) / 146096 = c ∧
      (36524 * c + 1461 * q + 365 * r + doy) / 36524 ≤ 4 := by
  by_cases hlast : 36524 * c + 1461 * q + 365 * r + doy = 146096
  · rw [hlast]; omega
  · have h1 : (36524 * c + 1461 * q + 365 * r + doy) / 36524 = c := by omega
    omega

/-- The year is read back from the day of the cycle. -/
theorem year_of_day {yy doy : Nat} (h : yy < 400) (hd : InMarchYear yy doy) :
    daysBefore yy + doy < cycleDays ∧
      (daysBefore yy + doy - (daysBefore yy + doy) / 1460 + (daysBefore yy + doy) / 36524 -
        (daysBefore yy + doy) / 146096) / 365 = yy := by
  obtain ⟨h365, hleap⟩ := hd
  rw [isLeap_iff] at hleap
  obtain ⟨c, q, r, hc, hq, hr, rfl⟩ : ∃ c q r, c < 4 ∧ q < 25 ∧ r < 4 ∧ yy = 100 * c + 4 * q + r :=
    ⟨yy / 100, yy % 100 / 4, yy % 4, by omega, by omega, by omega, by omega⟩
  have hleap' : doy = 365 → r = 3 ∧ (q = 24 → c = 3) := by omega
  have e : daysBefore (100 * c + 4 * q + r) + doy = 36524 * c + 1461 * q + 365 * r + doy := by simp only [daysBefore]; omega
  obtain ⟨hcent, h4⟩ := century_of_day hc hq hr h365 hleap'
  rw [e]
  refine ⟨by simp only [cycleDays]; omega, ?_⟩
  have hquad : (36524 * c + 1461 * q + 365 * r + doy) / 1460 =
      25 * c + q + if 1460 ≤ 24 * c + q + 365 * r + doy then 1 else 0 := by
    split <;> omega
  rw [Nat.add_sub_assoc (by omega), hcent, hquad]
  split <;> omega

theorem dateOf_of_march {yy doy : Nat} (h : yy < 400) (hd : InMarchYear yy doy) :
    dateOf ((daysBefore yy + doy + 60) % cycleDays) =
      let mp := (5 * doy + 2) / 153
      let m := if mp < 10 then mp + 3 else mp - 9
      (2000 + (yy + (if m ≤ 2 then 1 else 0)) % 400, m, doy - (153 * mp + 2) / 5 + 1) := by
  obtain ⟨hlt, hyear⟩ := year_of_day h hd
  have hdoe : ((daysBefore yy + doy + 60) % cycleDays + cycleDays - 60) % cycleDays = daysBefore yy + doy := by
    simp only [cycleDays] at *; omega
  have hdoy : daysBefore yy + doy - (365 * yy + yy / 4 - yy / 100) = doy := by simp only [daysBefore]; omega
  simp only [dateOf, hdoe, hyear, hdoy]

/-! ### Months -/

theorem monthDays_february (y : Nat) : monthDays y 2 = if isLeap y then 29 else 28 := rfl

theorem monthDays_le (y m : Nat) : monthDays y m ≤ if m = 2 then 29 else if m = 4 ∨ m = 6 ∨ m = 9 ∨ m = 11 then 30 else 31 := by
  unfold monthDays
  split
  · split <;> decide
  · exact le_rfl

/-- The month and the day of the month are read back from the day of the year counted from 1 March. -/
theorem month_of_day {y m d : Nat} (hm1 : 1 ≤ m) (hm : m ≤ 12) (hd1 : 1 ≤ d) (hd : d ≤ monthDays y m) :
    (5 * marchDay m d + 2) / 153 = (m + 9) % 12 ∧ marchDay m d - (153 * ((m + 9) % 12) + 2) / 5 + 1 = d := by
  have h31 := hd.trans (monthDays_le y m)
  clear hd
  simp only [marchDay]
  interval_cases m <;> simp only [reduceIte, Nat.reduceEqDiff, or_self, or_true, true_or] at h31 <;> omega

theorem isLeap_of_marchYear {y : Nat} (hy : 2000 ≤ y) (hy' : y ≤ 2399) : isLeap (2000 + (marchYear y 2 + 1)) = isLeap y := by
  rw [Bool.eq_iff_iff, isLeap_iff, isLeap_iff]
  simp only [marchYear, if_pos (show 2 ≤ 2 by decide)]
  omega

/-- A date is a day of its year: 29 February is the last one, and exists in leap years only. -/
theorem date_inMarchYear {y m d : Nat} (hy : 2000 ≤ y) (hy' : y ≤ 2399) (hm1 : 1 ≤ m) (hm : m ≤ 12)
    (hd : d ≤ monthDays y m) : InMarchYear (marchYear y m) (marchDay m d) := by
  have h31 := hd.trans (monthDays_le y m)
  by_cases h2 : m = 2
  · subst h2
    rw [InMarchYear, isLeap_of_marchYear hy hy']
    rw [monthDays_february] at hd
    cases hl : isLeap y <;> simp only [hl, marchDay] at hd ⊢ <;> simp <;> simp at hd <;> omega
  · suffices marchDay m d < 365 from ⟨this.le, fun e => absurd e this.ne⟩
    clear hd
    simp only [marchDay]
    interval_cases m <;> simp only [reduceIte, Nat.reduceEqDiff, or_self, or_true, true_or] at h31 <;> omega

theorem year_of_marchYear {y m : Nat} (hy : 2000 ≤ y) (hy' : y ≤ 2399) :
    2000 + (marchYear y m + (if m ≤ 2 then 1 else 0)) % 400 = y := by
  simp only [marchYear]; split <;> omega

theorem dateOf_daysOf {y m d : Nat} (hy : 2000 ≤ y) (hy' : y ≤ 2399) (hm1 : 1 ≤ m) (hm : m ≤ 12) (hd1 : 1 ≤ d)
    (hd : d ≤ monthDays y m) : dateOf (daysOf y m d) = (y, m, d) := by
  obtain ⟨hmonth, hday⟩ := month_of_day hm1 hm hd1 hd
  have hback : (if (m + 9) % 12 < 10 then (m + 9) % 12 + 3 else (m + 9) % 12 - 9) = m := by split <;> omega
  rw [daysOf_eq hd1, dateOf_of_march (marchYear_lt y m) (date_inMarchYear hy hy' hm1 hm hd)]
  simp only [hmonth, hback, hday, year_of_marchYear hy hy']

/-! ### The next day -/

theorem daysBefore_succ {n : Nat} (h : n + 1 < 400) : daysBefore (n + 1) = daysBefore n + 365 + b2n (isLeap (2000 + (n + 1))) := by
  have hb : b2n (isLeap (2000 + (n + 1))) =
      if (2000 + (n + 1)) % 4 = 0 ∧ ((2000 + (n + 1)) % 100 = 0 → (2000 + (n + 1)) % 400 = 0) then 1 else 0 := by
    simp only [← isLeap_iff]; cases isLeap (2000 + (n + 1)) <;> rfl
  rw [hb]
  simp only [daysBefore]
  split <;> omega

/-- 1 March follows the last day of February. -/
theorem daysBefore_next_year {y : Nat} (hy : 2000 ≤ y) (hy' : y ≤ 2399) :
    (daysBefore (marchYear y 2) + marchDay 2 (monthDays y 2) + 60 + 1) % cycleDays =
      (daysBefore (marchYear y 3) + marchDay 3 1 + 60) % cycleDays := by
  rcases Nat.eq_or_lt_of_le hy with rfl | hlt
  · rfl
  · obtain ⟨n, rfl⟩ : ∃ n, y = 2000 + (n + 1) := ⟨y - 2001, by omega⟩
    have h2 : marchYear (2000 + (n + 1)) 2 = n := by simp only [marchYear, if_pos (show 2 ≤ 2 by decide)]; omega
    have h3 : marchYear (2000 + (n + 1)) 3 = n + 1 := by simp only [marchYear, if_neg (show ¬ 3 ≤ 2 by decide)]; omega
    have hl : monthDays (2000 + (n + 1)) 2 = 28 + b2n (isLeap (2000 + (n + 1))) := by
      rw [monthDays_february]; cases isLeap (2000 + (n + 1)) <;> rfl
    rw [h2, h3, hl, daysBefore_succ (by omega)]
    exact congrArg (· % cycleDays) (by simp only [marchDay]; omega)

theorem daysOf_next {y m d : Nat} (hy : 2000 ≤ y) (hy' : y ≤ 2399) (hm1 : 1 ≤ m) (hm : m ≤ 12) (hd1 : 1 ≤ d)
    (hd : d ≤ monthDays y m) :
    (daysOf y m d + 1) % cycleDays =
      if d < monthDays y m then daysOf y m (d + 1)
      else if m < 12 then daysOf y (m + 1) 1
      else if y < 2399 then daysOf (y + 1) 1 1 else daysOf 2000 1 1 := by
  rw [daysOf_eq hd1, Nat.mod_add_mod]
  split
  · rw [daysOf_eq (by omega)]; simp only [marchDay]; congr 1; omega
  · obtain rfl : d = monthDays y m := by omega
    split
    · rw [daysOf_eq le_rfl]
      by_cases h2 : m = 2
      · subst h2; exact daysBefore_next_year hy hy'
      · have e : marchYear y (m + 1) = marchYear y m := by simp only [marchYear]; split <;> split <;> omega
        have hl : monthDays y m = if m = 4 ∨ m = 6 ∨ m = 9 ∨ m = 11 then 30 else 31 := if_neg h2
        rw [e, hl]
        simp only [marchDay]
        congr 1
        interval_cases m <;> simp at h2 ⊢
    · obtain rfl : m = 12 := by omega
      have e : marchDay 12 (monthDays y 12) + 1 = marchDay 1 1 := rfl
      split
      · have hy1 : marchYear (y + 1) 1 = marchYear y 12 := by simp [marchYear]; omega
        rw [daysOf_eq le_rfl, hy1, ← e]
        rfl
      · obtain rfl : y = 2399 := by omega
        rfl

/-- Settles O60: a date is a day of a year that begins on 1 March, so that a leap day is its last. -/
theorem calendarIsGregorian : Obligations.CalendarIsGregorian := by
  unfold Obligations.CalendarIsGregorian
  refine ⟨isLeap_iff, fun n _ => ?_, rfl, rfl, rfl, rfl, fun y m d hy hy' hm1 hm hd1 hd =>
    ⟨dateOf_daysOf hy hy' hm1 hm hd1 hd, Nat.mod_lt _ (by decide), daysOf_next hy hy' hm1 hm hd1 hd⟩⟩
  simp only [weekdayOf, cycleDays]
  omega

end Sys2Proof.Machine

/-! The block as a whole: what a step takes, how every row ends, and what reset leaves. -/

namespace Sys2Proof.Machine

/-- Settles O55: both are what `step` says. -/
theorem stepTakesTheFrontCommand : Obligations.StepTakesTheFrontCommand :=
  ⟨fun c rest s h => by rw [step, h], fun s h => by rw [step, h]⟩

/-- The end of a row that ends its tick leaves no trigger. -/
theorem endRow_triggers {q : List Instr} (h : tickGoesOn q = false) (s : State) : NoTriggerLeft (endRow q s) := by
  rw [endRow, if_neg (by simp [h])]; exact settle_triggers s

/-- Settles O56: every row is an effect between its time and the end of its tick, and that end takes the triggers. -/
theorem everyCommandEnds : Obligations.EveryCommandEnds := fun c s => by
  cases c
  all_goals exact ⟨_, rfl, rfl, fun h => endRow_triggers h _⟩

theorem linkOf_reset (tr : Transport) : linkOf State.reset tr = Link.reset := by cases tr <;> rfl

/-- What canonical form asks of each memory and table. -/
theorem canonical_iff (s : State) :
    Canonical s = true ↔
      (∀ e : Fin 2, Memory.wf (s.ctrl.engines[e]).code = true ∧ Memory.wf (s.ctrl.engines[e]).data = true) ∧
        s.solv.canonical = true ∧ tableWf pdflt s.cfg = true ∧ tableWf (fun _ => 0) s.sec.counters = true ∧
        tableWf (fun _ => 0) s.intg.timeouts = true ∧ tableWf (fun _ => 0) s.intg.ceCount = true ∧
        tableWf (fun _ => 0) s.intg.blockErrors = true ∧ (s.sec.slots.map (·.1)).Pairwise (· < ·) := by
  have h : (∀ x ∈ s.ctrl.engines.toList, Memory.wf x.code = true ∧ Memory.wf x.data = true) ↔
      ∀ e : Fin 2, Memory.wf (s.ctrl.engines[e]).code = true ∧ Memory.wf (s.ctrl.engines[e]).data = true := by
    simp only [Vector.mem_toList_iff, Vector.mem_iff_getElem, Fin.forall_iff, Fin.getElem_fin]
    exact ⟨fun h i hi => h _ ⟨i, hi, rfl⟩, by rintro h _ ⟨i, hi, rfl⟩; exact h i hi⟩
  simp only [Canonical, Bool.and_eq_true, List.all_eq_true, decide_eq_true_eq, h, and_assoc]

theorem canonical_reset : Canonical State.reset = true := by
  refine (canonical_iff _).2 ⟨fun e => ?_, ?_, rfl, rfl, rfl, rfl, rfl, .nil⟩
  · have he : State.reset.ctrl.engines[e] = Engine.reset := Vector.getElem_replicate ..
    rw [he]; exact ⟨rfl, rfl⟩
  · simp [State.reset, Solv.reset, Solv.canonical, Region.wf, Memory.wf, Memory.ordered]

/-- Settles O58. -/
theorem resetState : Obligations.ResetState := by
  unfold Obligations.ResetState
  refine ⟨canonical_reset, ⟨rfl, rfl, rfl⟩, rfl, rfl, rfl, fun n => Vector.getElem_replicate .., rfl, rfl, rfl, fun tr => ?_,
    fun _ => rfl, fun e a => ?_⟩
  · rw [linkOf_reset]; exact ⟨rfl, rfl, rfl, rfl⟩
  · have he : State.reset.ctrl.engines[e] = Engine.reset := Vector.getElem_replicate ..
    rw [he]; exact ⟨rfl, rfl⟩

/-! ### Registers of a control engine (R274) -/

/-- Settles O29: g0 is no register of its own. -/
theorem registersHoldAndZeroReadsZero : Obligations.RegistersHoldAndZeroReadsZero := by
  unfold Obligations.RegistersHoldAndZeroReadsZero
  intro r n m v
  have hz : r.set 0 v = r := rfl
  refine ⟨?_, rfl, hz, ?_⟩
  · by_cases hn : n = 0
    · subst hn; simp [hz]
    · have hn' : n.val ≠ 0 := fun e => hn (Fin.ext e)
      have hset : r.set n v = { r with regs := vset r.regs n v } := if_neg hn'
      have hget : vget (vset r.regs n v) m 0 = if n = m then v else vget r.regs m 0 := by
        simp only [vget_fin, getElem_vset, Fin.ext_iff]
      simp only [hset, Run.get, hget]
      by_cases hnm : n = m
      · subst hnm; simp [hn, hn']
      · simp [hnm]
  · unfold Run.set; split <;> exact ⟨rfl, rfl, rfl⟩

end Sys2Proof.Machine

/-! Instructions of a control engine: what the running execution does, and what its row leaves as it was. -/

namespace Sys2Proof.Machine

/-! ### An engine's place -/

@[simp] theorem engOf_setEng_same (e : Fin 2) (x : Engine) (s : State) : engOf (setEng e x s) e = x :=
  (vget_fin ..).trans ((getElem_vset ..).trans (if_pos rfl))

theorem engOf_setEng_other {i : Nat} {e : Fin 2} (h : e.val ≠ i) (x : Engine) (s : State) : engOf (setEng e x s) i = engOf s i := by
  simp [engOf, vget, vset, setEng, h]

theorem engOf_elapse {s : State} (h : Quiet s) (dt e : Nat) : engOf (elapse dt s) e = engOf s e := by
  obtain ⟨_, he⟩ := elapse_fields h.nothingWaits dt; rw [he]; rfl

theorem atWord_elapse {s : State} (h : Quiet s) (dt e word : Nat) : atWord (elapse dt s) e word = atWord s e word := by
  obtain ⟨_, he⟩ := elapse_fields h.nothingWaits dt; rw [he]; rfl

/-! ### One instruction (R250) -/

section
variable {e word : Nat} {f : Engine → Run → List Run → CtrlRes} {r r' : Run} {below : List Run} {data : Memory} {s : State}
  (hat : atWord s e word = true) (hruns : (startRun s e (engOf s e)).runs = r :: below)

include hat hruns

/-- An execution that goes on at a code address has its new registers and its engine the new data; an execution that becomes
OVERFLOWED is counted. -/
theorem runInstr_cont (hf : f (startRun s e (engOf s e)) r below = .cont r' data) (hpc : InCode r'.pc) :
    runInstr e word f s =
      updCtrl (fun c => { c with
          journalOverflows := if r'.overflowed && !r.overflowed then c.journalOverflows + 1 else c.journalOverflows })
        (setEng e { startRun s e (engOf s e) with data := data, runs := r' :: below } s) := by
  obtain ⟨hlo, hhi⟩ := hpc
  have hin : ¬ (r'.pc.toNat < 0x40000 ∨ 0x80000 < r'.pc.toNat + 4) := by omega
  simp only [runInstr, hat, hruns, hf, hin, if_false, Bool.not_true, Bool.false_eq_true]
  cases (r'.overflowed && !r.overflowed) <;> rfl

/-- The same for an execution that keeps OVERFLOWED as it is. -/
theorem runInstr_goes_on (hf : f (startRun s e (engOf s e)) r below = .cont r' data) (ho : r'.overflowed = r.overflowed)
    (hpc : InCode r'.pc) :
    runInstr e word f s = setEng e { startRun s e (engOf s e) with data := data, runs := r' :: below } s := by
  rw [runInstr_cont hat hruns hf hpc, ho, Bool.and_not_self]
  rfl

theorem runInstr_fault {c a : Nat} (hf : f (startRun s e (engOf s e)) r below = .fault c a) :
    runInstr e word f s = taskFault e r.pc.toNat c a (setEng e (startRun s e (engOf s e)) s) := by
  simp only [runInstr, hat, hruns, hf, Bool.not_true, Bool.false_eq_true, if_false]
end

section
variable {dt : Nat} {e : Fin 2} {word : Nat} {r r' : Run} {below : List Run} {data : Memory} {s : State}

theorem Stands.atWord_elapse (h : Stands dt e word r below s) : atWord (elapse dt s) e word = true :=
  (Machine.atWord_elapse h.quiet ..).trans h.at_

theorem Stands.runs_elapse (h : Stands dt e word r below s) :
    (startRun (elapse dt s) e (engOf (elapse dt s) e)).runs = r :: below := by
  rw [engOf_elapse h.quiet]; exact h.runs

theorem started_eq (h : Quiet s) (dt : Nat) (e : Fin 2) : started dt e s = startRun (elapse dt s) e (engOf (elapse dt s) e) := by
  rw [engOf_elapse h]; rfl

/-- The row of an instruction that goes on: nothing but the execution and the data TCM changes. -/
theorem exec_goes_on {f : Engine → Run → List Run → CtrlRes} (h : Stands dt e word r below s)
    (hf : f (started dt e s) r below = .cont r' data) (ho : r'.overflowed = r.overflowed) (hpc : InCode r'.pc) :
    event dt (runInstr e word f) s = .next (ran dt e r' below data s) := by
  rw [started_eq h.quiet] at hf
  have hr := runInstr_goes_on h.atWord_elapse h.runs_elapse hf ho hpc
  rw [event_of_kept h.quiet (by rw [hr]; rfl) (by rw [hr]; rfl) (by rw [hr]; rfl), hr, ← started_eq h.quiet]
  rfl

/-- The same where the instruction looks at the state. -/
theorem exec_goes_on_of {g : State → State} {f : Engine → Run → List Run → CtrlRes} (h : Stands dt e word r below s)
    (hg : g (elapse dt s) = runInstr e word f (elapse dt s)) (hf : f (started dt e s) r below = .cont r' data)
    (ho : r'.overflowed = r.overflowed) (hpc : InCode r'.pc) : event dt g s = .next (ran dt e r' below data s) := by
  have he : event dt g s = event dt (runInstr e word f) s := by rw [event, hg]; rfl
  rw [he, exec_goes_on h hf ho hpc]
end

/-! ### Registers -/

@[simp] theorem Run.set_step (r : Run) (n : Nat) (v : W64) : (r.set n v).step = { r.set n v with pc := r.pc + 4 } := by
  unfold Run.set; split <;> rfl

@[simp] theorem Run.set_overflowed (r : Run) (n : Nat) (v : W64) : (r.set n v).overflowed = r.overflowed := by
  unfold Run.set; split <;> rfl

@[simp] theorem Run.set_links (r : Run) (n : Nat) (v : W64) : (r.set n v).links = r.links := by
  unfold Run.set; split <;> rfl

@[simp] theorem Run.set_pc (r : Run) (n : Nat) (v : W64) : (r.set n v).pc = r.pc := by
  unfold Run.set; split <;> rfl

/-- Settles O31: each row is one instruction that writes a register and moves the pc on. -/
theorem registerInstructionsComplete : Obligations.RegisterInstructionsComplete := by
  unfold Obligations.RegisterInstructionsComplete
  refine ⟨?alu, ?fpu, ?addi, ?logic, ?lui, ?sys⟩
  case alu =>
    intro dt e d a b fn r below v z s h hpc hv
    exact exec_goes_on h (by simp only [hv]; rw [Run.set_step]) (by simp) hpc
  case fpu =>
    intro dt e d a b fn r below v s h hpc hv
    exact exec_goes_on h (by simp only [hv]; rw [Run.set_step]) (by simp) hpc
  case addi =>
    intro dt e d a imm r below s h hpc
    exact exec_goes_on h (by rw [Run.set_step]) (by simp) hpc
  case logic =>
    intro dt e kind d a imm r below s h hpc
    refine exec_goes_on h (by fin_cases kind <;> simp) (by simp) hpc
  case lui =>
    intro dt e d imm r below s h hpc
    exact exec_goes_on h (by simp) (by simp) hpc
  case sys =>
    intro dt e d a b fn r below s h hpc hfn
    obtain hf | hf | hf : fn = 0#14 ∨ fn = 1#14 ∨ fn = 2#14 := by bv_omega
    all_goals subst hf; exact exec_goes_on_of h rfl (by simp) (by simp) hpc

/-! ### Control transfers (R245, R275) -/

/-- Settles O34: each row is one instruction that moves the pc, and CALL, CALLB and RET the link stack. -/
theorem controlTransfersComplete : Obligations.ControlTransfersComplete := by
  unfold Obligations.ControlTransfersComplete
  refine ⟨?branch, ?jmp, ?call, ?callb, ?ret, ?jr⟩
  case branch =>
    intro dt e kind d a imm r below s h taken pc hpc
    refine exec_goes_on h ?_ rfl hpc
    have ht : branchHolds kind (r.get d) (r.get a) = taken := by fin_cases kind <;> rfl
    rw [ht]
    simp only [pc]
    split <;> rfl
  case jmp =>
    intro dt e off r below s h hpc
    exact exec_goes_on h rfl rfl hpc
  case call =>
    intro dt e off r below s h hpc hl
    exact exec_goes_on h (by simp only [pushLink, if_neg (Nat.not_le.mpr hl)]; rfl) rfl hpc
  case callb =>
    intro dt e d a imm r below c s h hc hpc hl
    have hc' : typeCode (elapse dt s) e imm.toNat = some c := by
      obtain ⟨_, he⟩ := elapse_fields h.quiet.nothingWaits dt; rw [he]; exact hc
    exact exec_goes_on_of h rfl (by simp only [hc', pushLink, if_neg (Nat.not_le.mpr hl)]; rfl) rfl hpc
  case ret =>
    intro dt e d a b fn r below ret g rest s h hl hpc
    cases g with
    | none => exact exec_goes_on h (by simp only [hl]) rfl hpc
    | some v => exact exec_goes_on h (by simp only [hl]; rfl) rfl hpc
  case jr =>
    intro dt e d a b fn r below s h h4 hlo hhi
    have hpc : InCode ((r.get a).setWidth 32) := by
      have : ((r.get a).setWidth 32).toNat = (r.get a).toNat := by rw [BitVec.toNat_setWidth]; omega
      omega
    refine exec_goes_on h ?_ rfl hpc
    rw [if_neg (by omega), if_neg (by omega), BitVec.ofNat_toNat]

/-! ### Loads and stores (R247, R275) -/

/-- The address that a load or store of the running execution names. -/
theorem Stands.address {dt : Nat} {e : Fin 2} {word : Nat} {r : Run} {below : List Run} {s : State}
    (h : Stands dt e word r below s) (a : Nat) (imm : BitVec 18) :
    ((startRun (elapse dt s) e (engOf (elapse dt s) e)).runs.head?).elim 0 (fun r => effAddr r a imm) = effAddr r a imm := by
  rw [h.runs_elapse]; rfl

/-- A load of an unmarked word that its memory reads without an error is one instruction. -/
theorem ctrlLoadRow_unmarked {dt : Nat} {e : Fin 2} {kind d a : Nat} {imm : BitVec 18} {r : Run} {below : List Run} {s : State}
    (h : Stands dt e (encI (8 + kind) d a imm.toNat) r below s)
    (hm : (5, tcmWord e (effAddr r a imm)) ∉ s.intg.marked) :
    ctrlLoadRow e kind d a imm .none (elapse dt s) =
      runInstr e (encI (8 + kind) d a imm.toNat) (fun x r _ => ctrlLoad kind d a imm x.code r x.data) (elapse dt s) := by
  have hm' : (elapse dt s).intg.marked.contains (5, tcmWord e (effAddr r a imm)) = false := by
    simpa [elapse_intg h.quiet.nothingWaits] using hm
  simp only [ctrlLoadRow, h.atWord_elapse, h.address, hm']
  simp

/-- What a store does to the marks: a word written whole loses its own (R531). -/
def storeUnmark (e kind ea : Nat) (s : State) : State :=
  if kind = 3 ∧ (accessFault true ea 8).isNone then unmark 5 (tcmWord e ea) (tcmWord e ea + 1) s else s

/-- The state with other marked words. -/
def withMarks (m : List (Nat × Nat)) (s : State) : State := { s with intg := { s.intg with marked := m } }

theorem storeUnmark_shape (e kind ea : Nat) (s : State) : ∃ m, storeUnmark e kind ea s = withMarks m s := by
  unfold storeUnmark; split <;> exact ⟨_, rfl⟩

theorem ctrlStoreRow_eq {dt : Nat} {e : Fin 2} {kind d a : Nat} {imm : BitVec 18} {r : Run} {below : List Run} {s : State}
    (h : Stands dt e (encI (0x10 + kind) d a imm.toNat) r below s) :
    ctrlStoreRow e kind d a imm (elapse dt s) =
      runInstr e (encI (0x10 + kind) d a imm.toNat) (fun x r below => ctrlStore kind d a imm (journalUsed below) r x.data)
        (storeUnmark e kind (effAddr r a imm) (elapse dt s)) := by
  simp only [ctrlStoreRow, h.atWord_elapse, h.address, Bool.not_true, Bool.false_eq_true, if_false]
  rfl

/-- The execution after a store: its journal takes what stood there while it has room, and it is marked OVERFLOWED beyond it. -/
def stored (r : Run) (below : List Run) (data : Memory) (ea n : Nat) : Run :=
  if 2048 ≤ journalUsed below + r.journal.length then { r with pc := r.pc + 4, overflowed := true }
  else { r with pc := r.pc + 4, journal := ⟨ea, data.reads ea n⟩ :: r.journal }

theorem stored_pc (r : Run) (below : List Run) (data : Memory) (ea n : Nat) : (stored r below data ea n).pc = r.pc + 4 := by
  unfold stored; split <;> rfl

theorem ctrlStore_of_access {kind d a : Nat} {imm : BitVec 18} {r : Run} {below : List Run} {data : Memory}
    (h : accessFault true (effAddr r a imm) (2 ^ kind) = none) :
    ctrlStore kind d a imm (journalUsed below) r data =
      .cont (stored r below data (effAddr r a imm) (2 ^ kind)) (data.writes (effAddr r a imm) (le (2 ^ kind) (r.get d).toNat)) := by
  simp only [ctrlStore, h, stored]
  split <;> rfl

section
variable {dt : Nat} {e : Fin 2} {kind : Fin 4} {d a : Fin 16} {imm : BitVec 18} {r : Run} {below : List Run} {s : State}

/-- The row of a store: the execution and its engine's data as the store leaves them, an overflow counted, and the mark of a word
written whole gone. -/
theorem exec_store (h : Stands dt e (encI (0x10 + kind.val) d.val a.val imm.toNat) r below s) (hpc : InCode (r.pc + 4))
    (ha : accessFault true (effAddr r a imm) (2 ^ kind.val) = none) :
    ∃ m, exec (.storeInstruction dt e kind d a imm) s =
      .next (updCtrl (fun c => { c with
          journalOverflows :=
            if (stored r below (started dt e s).data (effAddr r a imm) (2 ^ kind.val)).overflowed && !r.overflowed
            then c.journalOverflows + 1 else c.journalOverflows })
        { ran dt e (stored r below (started dt e s).data (effAddr r a imm) (2 ^ kind.val)) below
            (Memory.writes (started dt e s).data (effAddr r a imm) (le (2 ^ kind.val) (r.get d).toNat)) s with
          intg := { s.intg with marked := m } }) := by
  obtain ⟨m, hm⟩ := storeUnmark_shape e kind (effAddr r a imm) (elapse dt s)
  have hat : atWord (withMarks m (elapse dt s)) e (encI (0x10 + kind.val) d.val a.val imm.toNat) = true := h.atWord_elapse
  have hruns : (startRun (withMarks m (elapse dt s)) e (engOf (withMarks m (elapse dt s)) e)).runs = r :: below :=
    h.runs_elapse
  have hrow := (ctrlStoreRow_eq h).trans (by rw [hm, runInstr_cont hat hruns (ctrlStore_of_access ha) (by rwa [stored_pc])])
  refine ⟨m, ?_⟩
  have hx : exec (.storeInstruction dt e kind d a imm) s = event dt (ctrlStoreRow e kind d a imm) s := rfl
  rw [hx, event_of_kept h.quiet (by rw [hrow]; rfl) (by rw [hrow]; rfl) (by rw [hrow]; rfl), hrow, ran, started_eq h.quiet,
    ← elapse_intg h.quiet.nothingWaits dt]
  rfl
end

/-- Settles O32. -/
theorem loadsAndStoresComplete : Obligations.LoadsAndStoresComplete := by
  unfold Obligations.LoadsAndStoresComplete
  refine ⟨?load, ?store, ?overflow⟩
  case load =>
    intro dt e kind d a imm r below s h hpc ha hm
    refine exec_goes_on_of h (ctrlLoadRow_unmarked h hm) ?_ (by simp) hpc
    simp only [ctrlLoad, ha, Run.set_step]
  case store =>
    intro dt e kind d a imm r below s h hpc ha hj
    obtain ⟨m, hx⟩ := exec_store h hpc ha
    refine ⟨_, m, hx, ?_⟩
    rw [stored, if_neg (by omega)]
    simp only [Bool.and_not_self]
    rfl
  case overflow =>
    intro dt e kind d a imm r below s h hpc ha hj
    obtain ⟨m, hx⟩ := exec_store h hpc ha
    refine ⟨_, hx, ?_⟩
    rw [stored, if_pos hj]
    have hc : (elapse dt s).ctrl = s.ctrl := elapse_ctrl h.quiet.nothingWaits dt
    refine ⟨?_, ?_, ?_⟩
    · exact congrArg Engine.runs (engOf_setEng_same e _ (elapse dt s))
    · exact congrArg Engine.data (engOf_setEng_same e _ (elapse dt s))
    · cases ho : r.overflowed <;> simp [updCtrl, ran, setEng, hc]

/-! ### Memories that stay canonical (R139) -/

/-- A fold whose steps keep a memory canonical keeps it canonical. -/
theorem Memory.wf_foldl {α : Type} {f : Memory → α → Memory} (h : ∀ m x, Memory.wf m = true → Memory.wf (f m x) = true)
    (l : List α) {m : Memory} (hm : Memory.wf m = true) : Memory.wf (l.foldl f m) = true :=
  List.foldlRecOn (motive := fun m => Memory.wf m = true) l f hm fun m hm x _ => h m x hm

theorem Memory.wf_applyForces {s : State} {e : Nat} {p : BVar → Bool} {m : Memory} (h : Memory.wf m = true) :
    Memory.wf (applyForces s e p m) = true := by
  unfold applyForces
  split
  · refine Memory.wf_foldl (fun m f hm => ?_) _ h
    split
    · split
      · exact Memory.wf_writes hm
      · exact hm
    · exact hm
  · exact h

theorem Memory.wf_rollback {r : Run} {m : Memory} (h : Memory.wf m = true) : Memory.wf (rollback r m) = true := by
  unfold rollback
  split
  · exact h
  · exact Memory.wf_foldl (fun _ _ hm => Memory.wf_writes hm) _ h

/-- The start of an execution applies forces to the data and leaves the code as it is. -/
theorem startRun_code (s : State) (e : Nat) (x : Engine) : (startRun s e x).code = x.code := by
  simp only [startRun]
  split
  · split <;> rfl
  · rfl

theorem startRun_data_wf {s : State} {e : Nat} {x : Engine} (h : Memory.wf x.data = true) :
    Memory.wf (startRun s e x).data = true := by
  simp only [startRun]
  split
  · split
    · exact h
    · exact Memory.wf_applyForces h
  · exact h

theorem engOf_data_wf {s : State} (h : Canonical s = true) (e : Fin 2) : Memory.wf (engOf s e).data = true := by
  rw [engOf, vget_fin]; exact (((canonical_iff s).1 h).1 e).2

/-- Settles O33: the bytes of a store are those of the register, and every other read finds what it found before. -/
theorem storesTouchOnlyTheirBytes : Obligations.StoresTouchOnlyTheirBytes := by
  unfold Obligations.StoresTouchOnlyTheirBytes
  intro dt e kind d a imm r below s h hcan hpc ha
  obtain ⟨m, hx⟩ := exec_store h hpc ha
  have hwf : Memory.wf (started dt e s).data = true := startRun_data_wf (engOf_data_wf hcan e)
  have hother : e.val ≠ 1 - e.val := by omega
  have hsame {x : Engine} : engOf (setEng e x (elapse dt s)) e = x := engOf_setEng_same ..
  refine ⟨_, hx, fun k hk => ?_, fun x hout => ?_, ?_, ?_, elapse_solv h.quiet.nothingWaits dt⟩
  · refine (congrArg (fun x => Memory.read (Engine.data x) _) hsame).trans ?_
    rw [Memory.read_writes hwf, if_pos (by simpa using hk), Nat.add_sub_cancel_left]
  · refine (congrArg (fun x => Memory.read (Engine.data x) _) hsame).trans ?_
    rw [Memory.read_writes hwf, if_neg (by rw [le_length]; omega)]
  · exact (congrArg Engine.code hsame).trans (startRun_code ..)
  · exact (engOf_setEng_other hother _ (elapse dt s)).trans (engOf_elapse h.quiet ..)

end Sys2Proof.Machine

/-! Division and shifts of a control engine, and the ends of an execution. -/

namespace Sys2Proof.Machine

/-! ### Integer operations (R275) -/

theorem sdiv_mul_add_srem (x y : W64) : x.sdiv y * y + x.srem y = x := by
  apply BitVec.eq_of_toInt_eq
  rw [BitVec.toInt_add, BitVec.toInt_mul, BitVec.toInt_sdiv, BitVec.toInt_srem, Int.bmod_mul_bmod, Int.bmod_add_bmod,
    Int.tdiv_mul_add_tmod, BitVec.toInt_bmod_cancel]

theorem udiv_mul_add_umod (x y : W64) : x / y * y + x % y = x := by
  apply BitVec.eq_of_toNat_eq
  rw [BitVec.toNat_add, BitVec.toNat_mul, BitVec.toNat_udiv, BitVec.toNat_umod, Nat.mod_add_mod, Nat.div_add_mod',
    Nat.mod_eq_of_lt x.isLt]

/-- The low six bits of a shift amount are what counts. -/
theorem toNat_and_63 (y : W64) : (y &&& 63).toNat % 64 = y.toNat % 64 := by
  have h : (y &&& 63).toNat = y.toNat % 64 := (BitVec.toNat_and ..).trans (Nat.and_two_pow_sub_one_eq_mod y.toNat 6)
  rw [h, Nat.mod_mod]

/-- Settles O30. -/
theorem divisionsAndShifts : Obligations.DivisionsAndShifts := by
  unfold Obligations.DivisionsAndShifts
  refine ⟨fun x y hy => ?signed, fun x y hy => ?unsigned, fun x => ⟨rfl, rfl, rfl, rfl⟩, fun x y => ?shifts⟩
  case signed => exact ⟨_, _, by simp only [aluOp, if_neg hy], by simp only [aluOp, if_neg hy], sdiv_mul_add_srem x y⟩
  case unsigned =>
    have hpos : 0 < y := (BitVec.pos_iff_ne_zero y).2 hy
    exact ⟨_, _, by simp only [aluOp, if_neg hy], by simp only [aluOp, if_neg hy], udiv_mul_add_umod x y,
      decide_eq_true (BitVec.umod_lt x hpos)⟩
  case shifts => simp only [aluOp, toNat_and_63, and_self]

/-! ### Outputs and axes that go to their safe states (R260, R261) -/

/-- Outputs and axes may have moved, and host moves of axes have been answered; nothing else has changed. -/
def OutputsMoved (s t : State) : Prop := ∃ p v h o, t = { s with pio := p, vax := v, hif := h, out := o }

theorem OutputsMoved.refl (s : State) : OutputsMoved s s := ⟨_, _, _, _, rfl⟩

theorem OutputsMoved.trans {s t u : State} (h : OutputsMoved s t) (h' : OutputsMoved t u) : OutputsMoved s u := by
  obtain ⟨_, _, _, _, rfl⟩ := h
  obtain ⟨_, _, _, _, rfl⟩ := h'
  exact ⟨_, _, _, _, rfl⟩

theorem OutputsMoved.foldl {α : Type} {f : State → α → State} (h : ∀ s x, OutputsMoved s (f s x)) (l : List α) (s : State) :
    OutputsMoved s (l.foldl f s) :=
  List.foldlRecOn (motive := OutputsMoved s) l f (.refl s) fun t ht x _ => ht.trans (h t x)

theorem sendReply_outputs (r : Reply) (s : State) : OutputsMoved s (sendReply r s) := by
  obtain ⟨⟨t, ip, port⟩, tag⟩ := r
  cases t <;> exact ⟨_, _, _, _, rfl⟩

theorem complete_outputs (tag st : Nat) (reg : Bool) (b : Bytes) (s : State) : OutputsMoved s (complete tag st reg b s) := by
  unfold complete
  split
  · exact .trans ⟨_, _, _, _, rfl⟩ (sendReply_outputs ..)
  · exact .refl s

theorem completeAll_outputs (f : Wait → Bool) (st : Nat) (reg : Bool) (b : Bytes) (s : State) :
    OutputsMoved s (completeAll f st reg b s) := .foldl (fun _ _ => complete_outputs ..) _ s

theorem hostDone_outputs (a outcome : Nat) (s : State) : OutputsMoved s (hostDone a outcome s) := by
  unfold hostDone
  simp only
  split
  · exact .refl s
  · exact .trans ⟨_, _, _, _, rfl⟩ (completeAll_outputs ..)

theorem doSafe_outputs (o : Nat) (s : State) : OutputsMoved s (doSafe o s) := ⟨_, _, _, _, rfl⟩

theorem pwmSafe_outputs (now : Bool) (p : Nat) (s : State) : OutputsMoved s (pwmSafe now p s) := ⟨_, _, _, _, rfl⟩

theorem axisSafe_outputs (now : Bool) (a : Nat) (s : State) : OutputsMoved s (axisSafe now a s) :=
  .trans ⟨_, _, _, _, rfl⟩ (hostDone_outputs ..)

theorem taskOutputsSafe_outputs (e t : Nat) (s : State) : OutputsMoved s (taskOutputsSafe e t s) := by
  unfold taskOutputsSafe
  split
  · refine .foldl (fun s o => ?_) _ s
    split
    · exact doSafe_outputs ..
    · exact pwmSafe_outputs ..
    · exact axisSafe_outputs ..
  · exact .refl s

/-! ### Tasks -/

theorem taskSt_elapse {s : State} (h : Quiet s) (dt e t : Nat) : taskSt (elapse dt s) e t = taskSt s e t := by
  obtain ⟨_, he⟩ := elapse_fields h.nothingWaits dt; rw [he]; rfl

/-- A task's record after an update that keeps whose it is. -/
theorem taskSt_updTask {e t : Nat} {f : TaskSt → TaskSt} (hf : ∀ x, (f x).engine = x.engine ∧ (f x).task = x.task) (s : State) :
    taskSt (updTask e t f s) e t = (taskSt s e t).map f := by
  simp only [taskSt, updTask, List.find?_map]
  have hp : ((fun x : TaskSt => x.engine == e && x.task == t) ∘ fun x => if x.engine = e ∧ x.task = t then f x else x) =
      fun x => x.engine == e && x.task == t := by
    funext x
    simp only [Function.comp_apply]
    split <;> simp [hf]
  rw [hp]
  cases hx : s.ctrl.tasks.find? fun x => x.engine == e && x.task == t with
  | none => rfl
  | some x =>
    have hx' := List.find?_some hx
    simp only [Bool.and_eq_true, beq_iff_eq] at hx'
    simp [hx']

/-- A task fault counted. -/
def countTaskFault (s : State) : State := updCtrl (fun c => { c with taskFaults := c.taskFaults + 1 }) s

@[simp] theorem engOf_countTaskFault (s : State) (e : Nat) : engOf (countTaskFault s) e = engOf s e := rfl
@[simp] theorem taskSt_countTaskFault (s : State) (e t : Nat) : taskSt (countTaskFault s) e t = taskSt s e t := rfl
@[simp] theorem engOf_updTask (e t : Nat) (f : TaskSt → TaskSt) (s : State) (i : Nat) : engOf (updTask e t f s) i = engOf s i := rfl
@[simp] theorem taskSt_setEng (i : Nat) (x : Engine) (s : State) (e t : Nat) : taskSt (setEng i x s) e t = taskSt s e t := rfl

/-- The running execution `r` of an engine has ended in a task fault: it is rolled back, and its task is FAULTED (R247, R261). -/
def taskFaulted (e pc cause addr : Nat) (r : Run) (below : List Run) (s : State) : State :=
  let x := engOf s e
  countTaskFault
    (updTask e r.task (fun y => { y with mode := .faulted, faultPc := pc, faultAddr := cause * 2 ^ 24 + addr % 2 ^ 24 })
      (updTask e r.task (fun y => { y with
          overflowed := r.overflowed, div0 := r.div0, journalPeak := max y.journalPeak r.journal.length })
        (setEng e { x with runs := below, data := rollback r x.data, regs := if r.started then r.regs else x.regs } s)))

section
variable {e : Fin 2} {pc cause addr : Nat} {r : Run} {below : List Run} {s : State}

theorem dropRun_running (hr : (engOf s e).runs = r :: below) (hb : ∀ q ∈ below, q.task ≠ r.task) :
    dropRun e r.task s =
      updTask e r.task (fun y => { y with
          overflowed := r.overflowed, div0 := r.div0, journalPeak := max y.journalPeak r.journal.length })
        (setEng e { engOf s e with
          runs := below, data := rollback r (engOf s e).data, regs := if r.started then r.regs else (engOf s e).regs } s) := by
  have hrun : runOf s e r.task = some r := by simp [runOf, hr]
  have hfilter : (r :: below).filter (fun y => y.task != r.task) = below := by simpa [List.filter_eq_self] using hb
  have hhead : ((r :: below).head?.any fun h => h.task == r.task) = true := by simp
  simp only [dropRun, hrun, hr, hfilter, hhead, Bool.true_and]

theorem taskFault_running (hr : (engOf s e).runs = r :: below) (hb : ∀ q ∈ below, q.task ≠ r.task) :
    taskFault e pc cause addr s =
      taskOutputsSafe e r.task
        (post 0x0603 (e * 16 + r.task) (le 4 pc ++ le 4 addr ++ le 1 cause) 0 (taskFaulted e pc cause addr r below s)) := by
  simp only [taskFault, hr, List.head?_cons, dropRun_running hr hb]
  rfl

theorem taskFaulted_kept :
    (taskFaulted e pc cause addr r below s).sys = s.sys ∧ (taskFaulted e pc cause addr r below s).pair = s.pair ∧
      (taskFaulted e pc cause addr r below s).pending = s.pending := by
  simp only [taskFaulted, countTaskFault, updCtrl, updTask, setEng, and_self]

theorem taskFaulted_taskFaults :
    (taskFaulted e pc cause addr r below s).ctrl.taskFaults = s.ctrl.taskFaults + 1 := by
  simp only [taskFaulted, countTaskFault, updCtrl, updTask, setEng]

theorem engOf_taskFaulted :
    engOf (taskFaulted e pc cause addr r below s) e =
      { engOf s e with
        runs := below, data := rollback r (engOf s e).data, regs := if r.started then r.regs else (engOf s e).regs } := by
  rw [taskFaulted, engOf_countTaskFault, engOf_updTask, engOf_updTask, engOf_setEng_same]

theorem taskSt_taskFaulted {x : TaskSt} (hx : taskSt s e r.task = some x) :
    taskSt (taskFaulted e pc cause addr r below s) e r.task =
      some { x with
        overflowed := r.overflowed, div0 := r.div0, journalPeak := max x.journalPeak r.journal.length, mode := .faulted,
        faultPc := pc, faultAddr := cause * 2 ^ 24 + addr % 2 ^ 24 } := by
  rw [taskFaulted, taskSt_countTaskFault, taskSt_updTask (by exact fun _ => ⟨rfl, rfl⟩), taskSt_updTask (by exact fun _ => ⟨rfl, rfl⟩), taskSt_setEng,
    hx]
  rfl

end

theorem engOf_of_ctrl {s t : State} (h : t.ctrl = s.ctrl) (e : Nat) : engOf t e = engOf s e := by simp [engOf, h]

theorem taskSt_of_ctrl {s t : State} (h : t.ctrl = s.ctrl) (e k : Nat) : taskSt t e k = taskSt s e k := by simp [taskSt, h]

/-- What a task fault leaves: the rolled back execution of its engine, and all else but outputs, axes and the record of events. -/
theorem taskFault_leaves {e : Fin 2} {pc cause addr : Nat} {r : Run} {below : List Run} {s : State}
    (hr : (engOf s e).runs = r :: below) (hb : ∀ q ∈ below, q.task ≠ r.task) :
    (taskFault e pc cause addr s).ctrl = (taskFaulted e pc cause addr r below s).ctrl ∧
      (taskFault e pc cause addr s).sys = s.sys ∧ (taskFault e pc cause addr s).pair = s.pair ∧
      (taskFault e pc cause addr s).pending = s.pending := by
  obtain ⟨hsys, hpair, hpend⟩ := taskFaulted_kept (e := e) (pc := pc) (cause := cause) (addr := addr) (r := r) (below := below) (s := s)
  obtain ⟨_, _, _, _, ho⟩ := taskOutputsSafe_outputs e r.task (post 0x0603 (e * 16 + r.task)
    (le 4 pc ++ le 4 addr ++ le 1 cause) 0 (taskFaulted e pc cause addr r below s))
  rw [taskFault_running hr hb, ho]
  simp only [post_ctrl, post_sys, post_pair, post_pending, hsys, hpair, hpend, and_self]

/-- The row of an instruction that ends in a task fault. -/
theorem exec_fault {dt : Nat} {e : Fin 2} {word c addr : Nat} {r : Run} {below : List Run} {x : TaskSt} {g : State → State}
    {f : Engine → Run → List Run → CtrlRes} {m : List (Nat × Nat)} {s : State} (h : Stands dt e word r below s)
    (hg : g (elapse dt s) = runInstr e word f (withMarks m (elapse dt s)))
    (hf : f (started dt e s) r below = .fault c addr) (hx : taskSt s e r.task = some x) (hb : ∀ q ∈ below, q.task ≠ r.task) :
    ∃ t y, event dt g s = .next t ∧ taskSt t e r.task = some y ∧ y.mode = .faulted ∧ y.faultPc = r.pc.toNat ∧
      y.faultAddr = c * 2 ^ 24 + addr % 2 ^ 24 ∧ (engOf t e).runs = below ∧
      (engOf t e).data = rollback r (started dt e s).data ∧ t.ctrl.taskFaults = s.ctrl.taskFaults + 1 := by
  have hat : atWord (withMarks m (elapse dt s)) e word = true := h.atWord_elapse
  have hruns : (startRun (withMarks m (elapse dt s)) e (engOf (withMarks m (elapse dt s)) e)).runs = r :: below := h.runs_elapse
  rw [started_eq h.quiet] at hf ⊢
  let u := setEng e (startRun (elapse dt s) e (engOf (elapse dt s) e)) (withMarks m (elapse dt s))
  have he : engOf u e = startRun (elapse dt s) e (engOf (elapse dt s) e) := engOf_setEng_same ..
  have hrow : g (elapse dt s) = taskFault e r.pc.toNat c addr u := hg.trans (runInstr_fault hat hruns hf)
  obtain ⟨hctrl, hsys, hpair, hpend⟩ := taskFault_leaves (pc := r.pc.toNat) (cause := c) (addr := addr) (s := u)
    (by rw [he]; exact h.runs_elapse) hb
  have hxu : taskSt u e r.task = some x := (taskSt_elapse h.quiet ..).trans hx
  have hn : u.ctrl.taskFaults = s.ctrl.taskFaults :=
    show (elapse dt s).ctrl.taskFaults = _ by rw [elapse_ctrl h.quiet.nothingWaits]
  have hy := taskSt_taskFaulted (pc := r.pc.toNat) (cause := c) (addr := addr) (below := below) hxu
  refine ⟨_, _, event_of_kept h.quiet (by rw [hrow, hsys]; rfl) (by rw [hrow, hpair]; rfl) (by rw [hrow, hpend]; rfl),
    (taskSt_of_ctrl (hrow ▸ hctrl) ..).trans hy, rfl, rfl, rfl, ?_⟩
  rw [hrow, engOf_of_ctrl hctrl, hctrl, engOf_taskFaulted, taskFaulted_taskFaults, hn, he]
  exact ⟨rfl, rfl, rfl⟩

/-! ### END (R256) -/

theorem sendPair_shape (kind : Nat) (body : Bytes) (s : State) : ∃ o, sendPair kind body s = { s with out := o } := by
  unfold sendPair; split <;> exact ⟨_, rfl⟩

/-- A heartbeat is numbered and sent. -/
theorem heartbeat_shape (s : State) : ∃ n o, heartbeat s = { s with pair := { s.pair with sequence := n }, out := o } := by
  simp only [heartbeat]
  split
  · obtain ⟨o, h⟩ := sendPair_shape 1 (heartbeatContent (s.pair.sequence + 1) s.sys.mode
      (if s.sys.mode == .fallback then s.sys.returnMode else none) (s.nmod.lastRound.getD 0) (tickStamp s))
      { s with pair := { s.pair with sequence := s.pair.sequence + 1 } }
    exact ⟨_, o, h⟩
  · exact ⟨_, _, rfl⟩

/-- The data TCM after the forces of an execution's end (R290). -/
def endData (s : State) (e : Nat) (d : BTask) (data : Memory) : Memory :=
  applyForces s e (inOutput d) (applyForces s e isData data)

/-- What publication writes into a task's record. -/
def publishedRecord (s : State) (r : Run) (image : Bytes) (y : TaskSt) : TaskSt :=
  { y with
    lastRun := BitVec.ofNat 32 (monoUs s - r.beganUs), runPrev := y.lastRun,
    maxRun := if y.maxRun.ult (BitVec.ofNat 32 (monoUs s - r.beganUs)) then BitVec.ofNat 32 (monoUs s - r.beganUs) else y.maxRun,
    journalPeak := max y.journalPeak r.journal.length, overflowed := r.overflowed, div0 := r.div0, landPrev := y.landOut,
    landOut := image, landUs := monoUs s, toApply := true }

/-- The running execution `r` has ended, and its output image is in the task's record. -/
def runEnded (e : Nat) (d : BTask) (r : Run) (below : List Run) (s : State) : State :=
  updTask e r.task (publishedRecord s r ((endData s e d (engOf s e).data).reads d.outAddr d.outLen))
    (transfer (iCtrl e) (.bank 0) d.outLen
      (setEng e { engOf s e with data := endData s e d (engOf s e).data, runs := below, regs := r.regs } s))

/-- After the end of an execution only the pair's images and heartbeats, and the message with one, are left to do. -/
theorem publishRun_running {e : Fin 2} {d : BTask} {r : Run} {below : List Run} {s : State}
    (hr : (engOf s e).runs = r :: below) (hd : taskDef s e r.task = some d) :
    ∃ i n o, publishRun e s =
      { runEnded e d r below s with pair := { s.pair with images := i, sequence := n }, out := o } := by
  have hp (u : State) : ∃ n o, (if designated u e r.task then heartbeat u else u) =
      { u with pair := { u.pair with sequence := n }, out := o } := by
    split
    · exact heartbeat_shape u
    · exact ⟨_, _, rfl⟩
  simp only [publishRun, hr, hd, Option.getD_some]
  obtain ⟨n, o, h⟩ := hp { runEnded e d r below s with pair := { s.pair with
    images := if paired s then s.pair.images ++ (endData s e d (engOf s e).data).reads d.outAddr d.outLen else [] } }
  exact ⟨_, n, o, h⟩

theorem runEnded_kept (e : Nat) (d : BTask) (r : Run) (below : List Run) (s : State) :
    (runEnded e d r below s).sys = s.sys ∧ (runEnded e d r below s).pio = s.pio ∧ (runEnded e d r below s).pending = s.pending := by
  simp only [runEnded, updTask, transfer, updGal, setEng, and_self]

/-- What the end of the running execution leaves. -/
theorem publishRun_leaves {e : Fin 2} {d : BTask} {r : Run} {below : List Run} {s : State}
    (hr : (engOf s e).runs = r :: below) (hd : taskDef s e r.task = some d) :
    (publishRun e s).ctrl = (runEnded e d r below s).ctrl ∧ (publishRun e s).sys = s.sys ∧
      (publishRun e s).pair.peerDigests = s.pair.peerDigests ∧ (publishRun e s).pending = s.pending ∧
      (publishRun e s).pio = s.pio := by
  obtain ⟨i, n, o, hp⟩ := publishRun_running hr hd
  obtain ⟨hsys, hpio, hpend⟩ := runEnded_kept e d r below s
  rw [hp]
  exact ⟨rfl, hsys, rfl, hpend, hpio⟩

theorem engOf_runEnded (e : Fin 2) (d : BTask) (r : Run) (below : List Run) (s : State) :
    engOf (runEnded e d r below s) e =
      { engOf s e with data := endData s e d (engOf s e).data, runs := below, regs := r.regs } := by
  rw [runEnded, engOf_updTask]
  exact engOf_setEng_same e _ s

theorem taskSt_runEnded {e : Fin 2} {d : BTask} {r : Run} {below : List Run} {x : TaskSt} {s : State}
    (hx : taskSt s e r.task = some x) :
    taskSt (runEnded e d r below s) e r.task =
      some (publishedRecord s r ((endData s e d (engOf s e).data).reads d.outAddr d.outLen) x) := by
  rw [runEnded, taskSt_updTask (by exact fun _ => ⟨rfl, rfl⟩)]
  exact congrArg _ hx

/-- Settles O35: a task fault rolls the execution back before its task's outputs go to their safe states. -/
theorem executionEndsComplete : Obligations.ExecutionEndsComplete := by
  unfold Obligations.ExecutionEndsComplete
  refine ⟨?publish, ?trap, ?access⟩
  case publish =>
    intro dt e d a b fn r below x k s h hx hk
    let u := setEng e (startRun (elapse dt s) e (engOf (elapse dt s) e)) (elapse dt s)
    have he : engOf u e = started dt e s := (engOf_setEng_same ..).trans (started_eq h.quiet dt e).symm
    have hk' : taskDef u e r.task = some k := by
      obtain ⟨_, hs⟩ := elapse_fields h.quiet.nothingWaits dt; rw [← hk]; simp only [u, hs]; rfl
    have hforce (data : Memory) : endData u e k data = applyForces s e (inOutput k) (applyForces s e isData data) := by
      obtain ⟨_, hs⟩ := elapse_fields h.quiet.nothingWaits dt; simp only [u, hs]; rfl
    have hrow : ctrlEnd e d a b fn.toNat (elapse dt s) = publishRun e u := by rw [ctrlEnd, h.atWord_elapse]; rfl
    obtain ⟨hctrl, hsys, hdig, hpend, hpio⟩ := publishRun_leaves (s := u) (by rw [he]; exact h.runs) hk'
    rw [← hrow] at hctrl hsys hdig hpend hpio
    have hxu : taskSt u e r.task = some x := (taskSt_elapse h.quiet ..).trans hx
    have hy := (taskSt_of_ctrl hctrl e r.task).trans (taskSt_runEnded (d := k) (below := below) hxu)
    have hen := (engOf_of_ctrl hctrl e).trans (engOf_runEnded e k r below u)
    rw [he, hforce] at hy hen
    obtain ⟨htrig, hdig', -⟩ := quiet_elapse h.quiet dt
    have hq : Settled (ctrlEnd e d a b fn.toNat (elapse dt s)) := ⟨by rw [hsys]; exact htrig, hdig.trans hdig'⟩
    have hruns := congrArg Engine.runs hen
    have hdata := congrArg Engine.data hen
    exact ⟨_, _, event_of_settled hq (hpend.trans (elapse_pending h.quiet.nothingWaits dt)), hruns, hy, rfl, rfl, by rw [hdata]; rfl,
      rfl, hdata, rfl, rfl, rfl, rfl, congrArg Engine.regs hen, hpio.trans (elapse_pio h.quiet.nothingWaits dt)⟩
  case trap =>
    intro dt e w r below x s h hw hx hb
    have hg : ctrlTrap e w (elapse dt s) = runInstr e w.toNat (fun _ r _ =>
        if wOp w.toNat = 0x3F then .fault 7 (w.toNat % 2 ^ 18) else .fault 6 r.pc.toNat)
        (withMarks (elapse dt s).intg.marked (elapse dt s)) :=
      if_neg (by
        rcases hw with hw | hw
        · simp [hw]
        · rw [hw, Bool.and_false]; exact Bool.false_ne_true)
    by_cases h7 : wOp w.toNat = 0x3F
    · obtain ⟨t, y, hs, hy, hmode, hpc, haddr, hrest⟩ := exec_fault h hg (if_pos h7) hx hb
      exact ⟨t, y, hs, hy, hmode, hpc, by rw [haddr, if_pos h7]; omega, hrest⟩
    · obtain ⟨t, y, hs, hy, hmode, hpc, haddr, hrest⟩ := exec_fault h hg (if_neg h7) hx hb
      exact ⟨t, y, hs, hy, hmode, hpc, by rw [haddr, if_neg h7], hrest⟩
  case access =>
    intro dt e kind d a imm r below c x s h ha hx hb
    obtain ⟨m, hm⟩ := storeUnmark_shape e kind (effAddr r a imm) (elapse dt s)
    obtain ⟨t, y, hs, hy, hmode, hpc, haddr, hruns, hdata, -⟩ := exec_fault h ((ctrlStoreRow_eq h).trans (by rw [hm]))
      (c := c) (addr := effAddr r a imm) (by simp only [ctrlStore, ha]) hx hb
    exact ⟨t, y, hs, hy, hmode, hpc, haddr, hruns, hdata⟩

end Sys2Proof.Machine


/-! What the effect of a host command must be shown to do where its answer goes out at once or something follows the answer, and
the system commands. -/

namespace Sys2Proof.Machine

/-! ### What a step leaves for its end -/

/-- The triggers of the tick, the digests of the peer and the commands that wait are as they were. -/
structure Steady (s t : State) : Prop where
  triggers : t.sys.triggers = s.sys.triggers
  digests : t.pair.peerDigests = s.pair.peerDigests
  pending : t.pending = s.pending

theorem Steady.refl (s : State) : Steady s s := ⟨rfl, rfl, rfl⟩

theorem Steady.trans {s t u : State} (ht : Steady s t) (hu : Steady t u) : Steady s u :=
  ⟨hu.triggers.trans ht.triggers, hu.digests.trans ht.digests, hu.pending.trans ht.pending⟩

theorem Steady.of_kept {s t : State} (hs : t.sys = s.sys) (hp : t.pair = s.pair) (hq : t.pending = s.pending) : Steady s t :=
  ⟨by rw [hs], by rw [hp], hq⟩

theorem Steady.foldl {α : Type} {f : State → α → State} (h : ∀ s x, Steady s (f s x)) (l : List α) (s : State) :
    Steady s (l.foldl f s) := by
  induction l generalizing s with
  | nil => exact .refl s
  | cons x l ih => exact (h s x).trans (ih _)

theorem Steady.settled {s t : State} (h : Steady s t) (hs : Settled s) : Settled t :=
  ⟨h.triggers.trans hs.1, h.digests.trans hs.2⟩

theorem Quiet.settled {s : State} (h : Quiet s) : Settled s := ⟨h.1, h.2.1⟩

/-- A row ends with its effect where the effect leaves what the end of the step looks at. -/
theorem event_of_steady {dt : Nat} {f : State → State} {s : State} (hq : Quiet s) (h : Steady (elapse dt s) (f (elapse dt s))) :
    event dt f s = .next (f (elapse dt s)) :=
  event_of_settled (h.settled (quiet_elapse hq dt).settled) (h.pending.trans (elapse_pending hq.nothingWaits dt))

theorem steady_withAcceptance (h : Hif) (n : List (Nat × Nat)) (o : List Nat) (e : Evr) (s : State) :
    Steady s (withAcceptance h n o e s) := ⟨rfl, rfl, rfl⟩

theorem steady_replyTo (p : Pkt) (status flags : Nat) (body : Bytes) (crcs : Nat × Nat) (back held : Nat × Nat) (s : State) :
    Steady s (replyTo p status flags body crcs back held s) :=
  .of_kept (sendReply_sys ..) (sendReply_pair ..) (sendReply_pending ..)

/-! ### Acceptance, as the effects see it -/

theorem received_eq (c : Cmd) (q : Env) (pl : Bytes) (s : State) :
    ∃ h, received c q pl s = withAcceptance h s.sec.counters s.sys.lastOps s.evr s := by
  obtain ⟨h, e⟩ := received_only c q pl s
  exact ⟨h, e⟩

theorem accepted_eq (c : Cmd) (q : Env) (pl : Bytes) (a : Auth) (s : State) :
    ∃ h n o e, accepted c q pl a s = withAcceptance h n o e s := accepted_only c q pl a s

theorem elapse_logs {s : State} (h : s.cfgPending.any waitsTick = false) (dt : Nat) (c : Cmd) (pl : Bytes) :
    logs c pl (elapse dt s) = logs c pl s := by simp [logs, paired, getP, h]

/-- The result is delivered and what follows the answer is done. -/
theorem completesThen_of {i : Nat → Env → Bytes → Instr} {c : Cmd} {ok : Req → State → Prop} {body : Req → State → Bytes}
    {effect : Req → State → State} {after : Req → State → State → State}
    (hi : ∀ dt q pl s, exec (i dt q pl) s = event dt (hostCommand c q pl) s)
    (hok : ∀ q pl a s, Quiet s → ok (requestOf c q pl a) s →
      ok (requestOf c q pl a) (received c q pl s) ∧ ok (requestOf c q pl a) (accepted c q pl a s))
    (hd : ∀ r u, Quiet u → ok r u → c.eff r u = .doneThen (body r u) (effect r u) (after r u) ∧ Steady u (effect r u))
    (ha : ∀ r u v, Steady v (after r u v)) : CompletesThen i c ok body effect after := by
  intro dt q pl a s h ho
  have hz : Quiet (elapse dt s) := quiet_elapse h.quiet dt
  obtain ⟨hr, er⟩ := received_eq c q pl (elapse dt s)
  obtain ⟨ha', n, o, e, ea⟩ := accepted_eq c q pl a (elapse dt s)
  obtain ⟨ok1, ok2⟩ := hok q pl a (elapse dt s) hz ho
  have h1 := hd (requestOf c q pl a) (received c q pl (elapse dt s)) (by rw [er]; exact hz) ok1
  have h2 := hd (requestOf c q pl a) (accepted c q pl a (elapse dt s)) (by rw [ea]; exact hz) ok2
  have hx := hostCommand_thenDone h.admitted (by rw [elapse_logs h.quiet.nothingWaits]; exact h.direct) (by rw [h1.1]; rfl) h2.1
  rw [hi, event_of_steady h.quiet, hx]
  rw [hx]
  have hst : Steady (elapse dt s) (accepted c q pl a (elapse dt s)) := by rw [ea]; exact steady_withAcceptance _ _ _ _ _
  exact (hst.trans h2.2).trans ((Steady.of_kept (complete_sys ..) (complete_pair ..) (complete_pending ..)).trans (ha _ _ _))

/-! ### Mode requests (R49, R570) -/

theorem ofCode_code (m : Mode) : Mode.ofCode m.code = some m := by cases m <;> rfl

theorem code_le (m : Mode) : m.code ≤ 11 := by cases m <;> decide

/-- A well-formed request for a mode while no transition runs. -/
theorem effModeRequest_of {p : Bytes} {m : Mode} {s : State} (hm : fld p 0 1 = m.code) (hz : allZero (slice p 1 3) = true)
    (ht : s.sys.trans = none) :
    effModeRequest p s =
      if m = s.sys.mode ∧ namable m = true then .ok (notInStateBody s) s
      else
        match requestTo s m with
        | none => .done stNotInState false (notInStateBody s) s
        | some atCut =>
          .wait .modeEnd (updSys (fun x => { x with trans := some { target := m, cause := 1, tag := none, atCut := atCut } }) s) := by
  rw [effModeRequest, checked_of_all (by simp [hm, code_le, hz]), ht, hm, ofCode_code]
  rfl

/-! ### An orderly stop of metering (R360) -/

theorem steady_snapshotPoint (s : State) : Steady s (snapshotPoint s) := by
  obtain ⟨_, _, _, _, _, _, e⟩ := channelsOnly_snapshotPoint s
  rw [e]; exact ⟨rfl, rfl, rfl⟩

theorem steady_beginSave (s : State) : Steady s (beginSave s) := (steady_snapshotPoint s).trans ⟨rfl, rfl, rfl⟩

theorem steady_saveReadback (ok : Bool) (s : State) : Steady s (saveReadback ok s) := by
  unfold saveReadback; split <;> exact ⟨rfl, rfl, rfl⟩

theorem steady_orderlyStop (s : State) : Steady s (orderlyStop s) := by
  have hr := steady_saveReadback true
  have hsave : Steady s (saveReadback true (beginSave (saveReadback true s))) :=
    ((hr s).trans (steady_beginSave _)).trans (hr _)
  have hstop : ∀ u, Steady s u → Steady s (stopEngines { u with bill := { u.bill with stop := none, orderly := true } }) :=
    fun u hu => hu.trans ⟨rfl, rfl, rfl⟩
  unfold orderlyStop
  split
  · exact .refl s
  · refine hstop _ ?_
    split
    · split
      · exact hr s
      · exact hsave
    · exact hr s

/-! ### The statement -/

/-- Settles O1: SYS_STATUS only reads, the branches of SYS_MODE_REQUEST are those of `effModeRequest_of`, and an orderly stop leaves
nothing for the end of the tick. -/
theorem systemCommandsComplete : Obligations.SystemCommandsComplete := by
  unfold Obligations.SystemCommandsComplete
  refine ⟨?status, ?current, ?barred, ?begins, ?reset⟩
  case status => exact completes_of_read (fun _ _ _ _ => rfl) (fun _ _ _ _ _ _ h => h) fun _ _ _ => rfl
  case current =>
    refine completes_of_read (fun _ _ _ _ => rfl) (fun _ _ _ _ _ _ h => h) fun r u ⟨hm, hn, hz, ht⟩ => ?_
    exact (effModeRequest_of hm hz ht).trans (if_pos ⟨rfl, hn⟩)
  case barred =>
    refine fun m => completes_of (fun _ _ _ _ => rfl) (fun _ _ _ _ _ _ h => h) fun r u hq ⟨hm, hne, hz, ht, hto⟩ =>
      ⟨?_, hq.settled, rfl⟩
    refine (effModeRequest_of hm hz ht).trans ((if_neg fun h => hne h.1).trans ?_)
    rw [hto]
  case begins =>
    refine fun m atCut => begins_of (fun _ _ _ _ => rfl) (fun _ _ _ _ _ _ h => h) fun r u hq ⟨hm, hne, hz, ht, hto⟩ =>
      ⟨?_, hq.settled, rfl⟩
    refine (effModeRequest_of hm hz ht).trans ((if_neg fun h => hne h.1).trans ?_)
    rw [hto]; rfl
  case reset =>
    refine completesThen_of (fun _ _ _ _ => rfl) (fun _ _ _ _ _ h => ⟨h, h⟩) (fun r u _ hk => ⟨?_, .refl u⟩)
      fun _ _ v => (steady_orderlyStop v).trans ⟨rfl, rfl, rfl⟩
    exact checked_of_all (by simp [hk]) _

end Sys2Proof.Machine


/-! What canonical form and the end of a step look at, and the functions of the model that leave it as it was. -/

namespace Sys2Proof.Machine

/-- What canonical form and the end of a step look at. -/
structure Seen where
  mode : Mode
  triggers : List (Mode × Nat)
  digests : List (Nat × Nat × Bytes)
  pending : List Instr
  engines : Vector (Memory × Memory) 2
  test : Memory
  locals : Vector Region 8
  work : Region
  ddr : Region
  cfg : List (Nat × Nat)
  counters : List (Nat × Nat)
  slots : List (Nat × KeySlot)
  timeouts : List (Nat × Nat)
  ceCount : List (Nat × Nat)
  blockErrors : List (Nat × Nat)

/-- The TCMs of the engines. -/
def tcms (v : Vector Engine 2) : Vector (Memory × Memory) 2 := v.map fun e => (e.code, e.data)

def seen (s : State) : Seen :=
  ⟨s.sys.mode, s.sys.triggers, s.pair.peerDigests, s.pending, tcms s.ctrl.engines, s.solv.test, s.solv.locals, s.solv.work, s.solv.ddr, s.cfg,
    s.sec.counters, s.sec.slots, s.intg.timeouts, s.intg.ceCount, s.intg.blockErrors⟩

@[simp] theorem seen_mk (clock sys pair hif evr sec tamp intg pwr mth mel bill time pio pioBegan ctrl vax eth rtc epd subl nmod solv gal
    cfg cfgPending draws out pending) :
    seen ⟨clock, sys, pair, hif, evr, sec, tamp, intg, pwr, mth, mel, bill, time, pio, pioBegan, ctrl, vax, eth, rtc, epd, subl, nmod,
      solv, gal, cfg, cfgPending, draws, out, pending⟩ =
      ⟨sys.mode, sys.triggers, pair.peerDigests, pending, tcms ctrl.engines, solv.test, solv.locals, solv.work, solv.ddr, cfg, sec.counters,
        sec.slots, intg.timeouts, intg.ceCount, intg.blockErrors⟩ := rfl

@[simp] theorem seen_fold (s : State) :
    Seen.mk s.sys.mode s.sys.triggers s.pair.peerDigests s.pending (tcms s.ctrl.engines) s.solv.test s.solv.locals s.solv.work s.solv.ddr s.cfg
      s.sec.counters s.sec.slots s.intg.timeouts s.intg.ceCount s.intg.blockErrors = seen s := rfl

theorem seen_foldl {α : Type} {f : State → α → State} (h : ∀ s x, seen (f s x) = seen s) (l : List α) (s : State) :
    seen (l.foldl f s) = seen s := by
  induction l generalizing s with
  | nil => rfl
  | cons x l ih => exact (ih _).trans (h s x)

@[simp] theorem seen_ite (c : Prop) [Decidable c] (s t : State) : seen (if c then s else t) = if c then seen s else seen t := by
  split <;> rfl

/-! ### Parts of the state changed by a function -/

@[simp] theorem seen_updSys {f : Sys → Sys} {s : State} (hm : (f s.sys).mode = s.sys.mode) (h : (f s.sys).triggers = s.sys.triggers) :
    seen (updSys f s) = seen s := by
  simp [updSys, hm, h]

@[simp] theorem seen_updPair {f : Pair → Pair} {s : State} (h : (f s.pair).peerDigests = s.pair.peerDigests) :
    seen (updPair f s) = seen s := by
  simp [updPair, h]

@[simp] theorem seen_updCtrl {f : Ctrl → Ctrl} {s : State} (h : (f s.ctrl).engines = s.ctrl.engines) :
    seen (updCtrl f s) = seen s := by
  simp [updCtrl, h]

@[simp] theorem seen_updSec {f : Sec → Sec} {s : State} (hc : (f s.sec).counters = s.sec.counters) (hs : (f s.sec).slots = s.sec.slots) :
    seen (updSec f s) = seen s := by
  simp [updSec, hc, hs]

@[simp] theorem seen_updIntg {f : Intg → Intg} {s : State} (ht : (f s.intg).timeouts = s.intg.timeouts)
    (hc : (f s.intg).ceCount = s.intg.ceCount) (hb : (f s.intg).blockErrors = s.intg.blockErrors) :
    seen (updIntg f s) = seen s := by
  simp [updIntg, ht, hc, hb]

end Sys2Proof.Machine


/-! The functions of the model that touch nothing of what canonical form and the end of a step look at. -/

namespace Sys2Proof.Machine

@[simp] theorem seen_passTime (dt : Nat) (s : State) : seen (passTime dt s) = seen s := by
  unfold passTime; (repeat' split) <;> simp

@[simp] theorem seen_draw (s : State) : seen (draw s) = seen s := by
  unfold draw; simp

@[simp] theorem seen_post (code index : Nat) (data : Bytes) (keyId : Nat) (s : State) : seen (post code index data keyId s) = seen s := by
  unfold post; simp

@[simp] theorem seen_snapSource (k : Nat) (s : State) : seen (snapSource k s) = seen s := by
  unfold snapSource; (repeat' split) <;> simp

@[simp] theorem seen_unmark (code lo hi : Nat) (s : State) : seen (unmark code lo hi s) = seen s := by
  unfold unmark; simp

@[simp] theorem seen_setLink (t : Transport) (l : Link) (s : State) : seen (setLink t l s) = seen s := by
  unfold setLink; (repeat' split) <;> simp

@[simp] theorem seen_setTag (tag : Nat) (x : TagState) (s : State) : seen (setTag tag x s) = seen s := by
  unfold setTag; simp

@[simp] theorem seen_freeTag (tag : Nat) (s : State) : seen (freeTag tag s) = seen s := by
  unfold freeTag; simp

@[simp] theorem seen_irqUpdate (s : State) : seen (irqUpdate s) = seen s := by
  unfold irqUpdate; simp

@[simp] theorem seen_sendReply (r : Reply) (s : State) : seen (sendReply r s) = seen s := by
  simp only [sendReply]; (repeat' split) <;> simp

@[simp] theorem seen_complete (tag status : Nat) (regularised : Bool) (body : Bytes) (s : State) : seen (complete tag status regularised body s) = seen s := by
  unfold complete; (repeat' split) <;> simp

@[simp] theorem seen_completeFree (tag status : Nat) (body : Bytes) (s : State) : seen (completeFree tag status body s) = seen s := by
  unfold completeFree; simp

@[simp] theorem seen_completeAll (f : Wait → Bool) (status : Nat) (regularised : Bool) (body : Bytes) (s : State) : seen (completeAll f status regularised body s) = seen s := by
  simp only [completeAll]; exact seen_foldl (fun s x => by simp) _ _

@[simp] theorem seen_updEpd (f : Epd → Epd) (s : State) : seen (updEpd f s) = seen s := by
  unfold updEpd; simp

@[simp] theorem seen_epdRequest (r : EpdReq) (s : State) : seen (epdRequest r s) = seen s := by
  unfold epdRequest; (repeat' split) <;> simp

@[simp] theorem seen_requestRegion (region waveform : Nat) (all : Bool) (s : State) : seen (requestRegion region waveform all s) = seen s := by
  unfold requestRegion; (repeat' split) <;> simp

@[simp] theorem seen_requestStrip (k waveform : Nat) (s : State) : seen (requestStrip k waveform s) = seen s := by
  unfold requestStrip; simp

@[simp] theorem seen_updGal (f : Gallery → Gallery) (s : State) : seen (updGal f s) = seen s := by
  unfold updGal; simp

@[simp] theorem seen_transfer (src : Nat) (port : GPort) (len : Nat) (s : State) : seen (transfer src port len s) = seen s := by
  unfold transfer; simp

@[simp] theorem seen_publishWindow (len : Nat) (s : State) : seen (publishWindow len s) = seen s := by
  unfold publishWindow; simp

@[simp] theorem seen_readWindow (src len : Nat) (s : State) : seen (readWindow src len s) = seen s := by
  unfold readWindow; simp

@[simp] theorem seen_startReads (mask : Nat) (s : State) : seen (startReads mask s) = seen s := by
  unfold startReads; simp

@[simp] theorem seen_endReads (mask : Nat) (s : State) : seen (endReads mask s) = seen s := by
  unfold endReads; simp

@[simp] theorem seen_abandonReads (mask : Nat) (s : State) : seen (abandonReads mask s) = seen s := by
  unfold abandonReads; simp

@[simp] theorem seen_attribDir (s : State) (c n : Nat) (reverse : Bool) (ch : MthChan) (st : State) : seen (attribDir s c n reverse ch st) = seen st := by
  unfold attribDir; (repeat' split) <;> simp

@[simp] theorem seen_closeSpan (s : State) (c : Nat) : seen (closeSpan s c) = seen s := by
  unfold closeSpan; simp

@[simp] theorem seen_bumpCounter (s : State) : seen (bumpCounter s) = seen s := by
  unfold bumpCounter; simp

@[simp] theorem seen_snapshotPoint (s : State) : seen (snapshotPoint s) = seen s := by
  unfold snapshotPoint
  split
  · simpa using seen_foldl seen_closeSpan _ s
  · rfl

@[simp] theorem seen_publishPage0 (round : Nat) (s : State) : seen (publishPage0 round s) = seen s := by
  unfold publishPage0; (repeat' split) <;> simp

@[simp] theorem seen_publishPage1 (s : State) : seen (publishPage1 s) = seen s := by
  unfold publishPage1; simp

@[simp] theorem seen_errorSeconds (s : State) (c : Nat) : seen (errorSeconds s c) = seen s := by
  unfold errorSeconds; simp

@[simp] theorem seen_thermTurnAll (l closeFl : Nat) (openFl : Nat → Nat) (s : State) : seen (thermTurnAll l closeFl openFl s) = seen s := by
  unfold thermTurnAll; simp

@[simp] theorem seen_markTamper (s : State) : seen (markTamper s) = seen s := by
  unfold markTamper; simp

@[simp] theorem seen_startThermal (s : State) : seen (startThermal s) = seen s := by
  unfold startThermal; simp

@[simp] theorem seen_flowEdgeRejected (c : Nat) (s : State) : seen (flowEdgeRejected c s) = seen s := by
  unfold flowEdgeRejected; (repeat' split) <;> simp

@[simp] theorem seen_flowPulse (c : Nat) (rising : Bool) (held : Nat) (dir : Bool) (s : State) : seen (flowPulse c rising held dir s) = seen s := by
  unfold flowPulse; (repeat' split) <;> simp

@[simp] theorem seen_setMel (k : Nat) (m : MelSys) (s : State) : seen (setMel k m s) = seen s := by
  unfold setMel; simp

@[simp] theorem seen_elecSeconds (s : State) (k : Nat) (m : MelSys) : seen (elecSeconds s k m) = seen s := by
  unfold elecSeconds; simp

@[simp] theorem seen_closeCycle (k : Nat) (ph : Option Phasors) (s : State) : seen (closeCycle k ph s) = seen s := by
  unfold closeCycle; (repeat' split) <;> simp

@[simp] theorem seen_countForced (s : State) : seen (countForced s) = seen s := by
  unfold countForced; simp

@[simp] theorem seen_forceClose (k : Nat) (s : State) : seen (forceClose k s) = seen s := by
  unfold forceClose; simp

@[simp] theorem seen_lineCycleClose (k : Nat) (e : CycleEnd) (ph : Phasors) (s : State) : seen (lineCycleClose k e ph s) = seen s := by
  unfold lineCycleClose; (repeat' split) <;> simp

@[simp] theorem seen_publishPage2 (round : Nat) (s : State) : seen (publishPage2 round s) = seen s := by
  unfold publishPage2; (repeat' split) <;> simp

@[simp] theorem seen_publishPage3 (s : State) : seen (publishPage3 s) = seen s := by
  unfold publishPage3; (repeat' split) <;> simp

@[simp] theorem seen_elecTurnAll (l closeFl : Nat) (openFl : Nat → Nat) (s : State) : seen (elecTurnAll l closeFl openFl s) = seen s := by
  unfold elecTurnAll; simp

@[simp] theorem seen_calWindowEnd (k : Nat) (s : State) : seen (calWindowEnd k s) = seen s := by
  simp only [calWindowEnd]
  split
  · split
    · rfl
    · exact (seen_foldl (fun _ _ => seen_complete ..) _ _).trans (seen_setMel ..)
  · rfl

@[simp] theorem seen_putSlot (r : SaveRec) (intact : Bool) (s : State) : seen (putSlot r intact s) = seen s := by
  unfold putSlot; simp

@[simp] theorem seen_endSlot (seq : Nat) (intact : Bool) (s : State) : seen (endSlot seq intact s) = seen s := by
  unfold endSlot; simp

@[simp] theorem seen_beginSave (s : State) : seen (beginSave s) = seen s := by
  unfold beginSave; simp

@[simp] theorem seen_registerSave (s : State) : seen (registerSave s) = seen s := by
  unfold registerSave; (repeat' split) <;> simp

@[simp] theorem seen_saveReadback (ok : Bool) (s : State) : seen (saveReadback ok s) = seen s := by
  unfold saveReadback; (repeat' split) <;> simp

@[simp] theorem seen_stopEngines (s : State) : seen (stopEngines s) = seen s := by
  unfold stopEngines; simp

@[simp] theorem seen_orderlyStop (s : State) : seen (orderlyStop s) = seen s := by
  unfold orderlyStop; (repeat' split) <;> simp

@[simp] theorem seen_abruptStop (cause : Nat) (s : State) : seen (abruptStop cause s) = seen s := by
  unfold abruptStop; (repeat' split) <;> simp

@[simp] theorem seen_resume (r : SaveRec) (s : State) : seen (resume r s) = seen s := by
  unfold resume; simp

@[simp] theorem seen_writeGap (r : SaveRec) (fell : Bool) (stop : Option (Stamp × Nat)) (s : State) : seen (writeGap r fell stop s) = seen s := by
  unfold writeGap; (repeat' split) <;> simp

@[simp] theorem seen_followEnables (s : State) : seen (followEnables s) = seen s := by
  unfold followEnables; simp

theorem seen_bill (b : Bill) (s : State) : seen { s with bill := b } = seen s := rfl

@[simp] theorem seen_moveSave (s : State) : seen (moveSave s) = seen s := by
  unfold moveSave
  split
  · exact seen_bill _ s
  · rfl

@[simp] theorem seen_turnIntervals (ls : List Nat) (closeFl openFl : Nat) (ids : List Nat) (s : State) : seen (turnIntervals ls closeFl openFl ids s) = seen s := by
  simp only [turnIntervals]; exact seen_foldl (fun s x => by simp) _ _

@[simp] theorem seen_driveDo (o : Nat) (v : Bool) (s : State) : seen (driveDo o v s) = seen s := by
  unfold driveDo; simp

@[simp] theorem seen_doSafe (o : Nat) (s : State) : seen (doSafe o s) = seen s := by
  unfold doSafe; simp

@[simp] theorem seen_pwmSafe (now : Bool) (p : Nat) (s : State) : seen (pwmSafe now p s) = seen s := by
  unfold pwmSafe; (repeat' split) <;> simp

@[simp] theorem seen_outputsSafe (now : Bool) (s : State) : seen (outputsSafe now s) = seen s := by
  exact (seen_foldl (fun _ _ => seen_pwmSafe ..) _ _).trans (seen_foldl (fun _ _ => seen_doSafe ..) _ _)

@[simp] theorem seen_drivePairOutput (s : State) : seen (drivePairOutput s) = seen s := by
  unfold drivePairOutput; (repeat' split) <;> simp

@[simp] theorem seen_publishDo (o : Nat) (v : Bool) (s : State) : seen (publishDo o v s) = seen s := by
  unfold publishDo; (repeat' split) <;> simp

@[simp] theorem seen_publishPwm (p duty : Nat) (s : State) : seen (publishPwm p duty s) = seen s := by
  unfold publishPwm; simp

@[simp] theorem seen_digitalEdge (n : Nat) (pin : Bool) (s : State) : seen (digitalEdge n pin s) = seen s := by
  unfold digitalEdge; simp

@[simp] theorem seen_takeSample (s : State) : seen (takeSample s) = seen s := by
  unfold takeSample; (repeat' split) <;> simp

@[simp] theorem seen_outputFault (o kind : Nat) (driven read : Bool) (s : State) : seen (outputFault o kind driven read s) = seen s := by
  unfold outputFault; simp

@[simp] theorem seen_padFault (o : Nat) (read : Bool) (s : State) : seen (padFault o read s) = seen s := by
  unfold padFault; (repeat' split) <;> simp

@[simp] theorem seen_feedbackFault (o : Nat) (s : State) : seen (feedbackFault o s) = seen s := by
  unfold feedbackFault; simp

@[simp] theorem seen_clearPioFault (mask : Nat) (s : State) : seen (clearPioFault mask s) = seen s := by
  unfold clearPioFault; simp

@[simp] theorem seen_pioStart (s : State) : seen (pioStart s) = seen s := by
  unfold pioStart; simp

@[simp] theorem seen_restoreCounts (s : State) : seen (restoreCounts s) = seen s := by
  unfold restoreCounts; simp

@[simp] theorem seen_turnPeriod (r : Nat) (day : Bool) (closeFl openFl stop : Nat) (s : State) : seen (turnPeriod r day closeFl openFl stop s) = seen s := by
  unfold turnPeriod; (repeat' split) <;> simp

@[simp] theorem seen_turnAllPeriods (day : Bool) (closeFl openFl : Nat) (s : State) : seen (turnAllPeriods day closeFl openFl s) = seen s := by
  simp only [turnAllPeriods]; exact seen_foldl (fun s x => by simp) _ _

@[simp] theorem seen_periodBoundary (s : State) : seen (periodBoundary s) = seen s := by
  have one (m : Nat) (day : Bool) (t : State) : seen (if m % periodSec day != 0 then t else (List.range 32).foldl (fun s r =>
      let c := vget s.evr.channels r RecChan.reset
      if recSource s r = 0 || (if day then c.day.met else c.hour.met) == some m then s
      else turnPeriod r day 0 0 (ptpSec s) s) t) = seen t := by
    split
    · rfl
    · exact seen_foldl (fun _ _ => by simp) _ _
  exact (one _ true _).trans (one _ false _)

@[simp] theorem seen_periodStep (old oldNs : Nat) (s : State) : seen (periodStep old oldNs s) = seen s := by
  unfold periodStep; simp

@[simp] theorem seen_periodsHold (s : State) : seen (periodsHold s) = seen s := by
  unfold periodsHold; simp

@[simp] theorem seen_periodsLost (s : State) : seen (periodsLost s) = seen s := by
  unfold periodsLost; simp

@[simp] theorem seen_periodsBoot (stop : Option Nat) (s : State) : seen (periodsBoot stop s) = seen s := by
  simp only [periodsBoot]; exact seen_foldl (fun s x => by (repeat' split) <;> simp) _ _

@[simp] theorem seen_recSampleValue (r : Nat) (v : Option Nat) (s : State) : seen (recSampleValue r v s) = seen s := by
  unfold recSampleValue; (repeat' split) <;> simp

@[simp] theorem seen_recordSample (s : State) : seen (recordSample s) = seen s := by
  unfold recordSample
  split
  · rfl
  · exact seen_foldl (fun _ _ => by simp) _ _

@[simp] theorem seen_recordRound (good : Bool) (v : Nat → Nat) (s : State) : seen (recordRound good v s) = seen s := by
  simp only [recordRound]; exact seen_foldl (fun s x => by simp) _ _

@[simp] theorem seen_clearPeriods (s : State) : seen (clearPeriods s) = seen s := by
  unfold clearPeriods; simp

@[simp] theorem seen_stagingDrain (s : State) : seen (stagingDrain s) = seen s := by
  unfold stagingDrain; (repeat' split) <;> simp

@[simp] theorem seen_counterCopyTick (s : State) : seen (counterCopyTick s) = seen s := by
  unfold counterCopyTick; (repeat' split) <;> simp

@[simp] theorem seen_updTask (e t : Nat) (f : TaskSt → TaskSt) (s : State) : seen (updTask e t f s) = seen s := by
  unfold updTask; simp

@[simp] theorem seen_setAxis (a : Nat) (x : Axis) (s : State) : seen (setAxis a x s) = seen s := by
  unfold setAxis; simp

@[simp] theorem seen_hostDone (a outcome : Nat) (s : State) : seen (hostDone a outcome s) = seen s := by
  unfold hostDone; simp

@[simp] theorem seen_endHoming (a result : Nat) (s : State) : seen (endHoming a result s) = seen s := by
  simp only [endHoming]; (repeat' split) <;> simp

@[simp] theorem seen_homed (a : Nat) (s : State) : seen (homed a s) = seen s := by
  simp only [homed]; (repeat' split) <;> simp

@[simp] theorem seen_afterHoming (a : Nat) (s : State) : seen (afterHoming a s) = seen s := by
  simp only [afterHoming]; (repeat' split) <;> simp

@[simp] theorem seen_axisSafe (now : Bool) (a : Nat) (s : State) : seen (axisSafe now a s) = seen s := by
  unfold axisSafe; (repeat' split) <;> simp

@[simp] theorem seen_axesSafe (now : Bool) (s : State) : seen (axesSafe now s) = seen s := by
  simp only [axesSafe]; exact seen_foldl (fun s x => by simp) _ _

@[simp] theorem seen_takeOver (a : Nat) (s : State) : seen (takeOver a s) = seen s := by
  unfold takeOver; simp

@[simp] theorem seen_applyRecord (a : Nat) (r : Bytes) (s : State) : seen (applyRecord a r s) = seen s := by
  unfold applyRecord; simp

@[simp] theorem seen_restCheck (a : Nat) (s : State) : seen (restCheck a s) = seen s := by
  simp only [restCheck]; (repeat' split) <;> simp

@[simp] theorem seen_homeStep (a : Nat) (s : State) : seen (homeStep a s) = seen s := by
  simp only [homeStep]; (repeat' split) <;> simp

@[simp] theorem seen_countStall (a : Nat) (s : State) : seen (countStall a s) = seen s := by
  unfold countStall; simp

@[simp] theorem seen_stall (a : Nat) (s : State) : seen (stall a s) = seen s := by
  unfold stall; simp; (repeat' split) <;> simp

@[simp] theorem seen_stallAt (a : Nat) (gammaU : Int) (s : State) : seen (stallAt a gammaU s) = seen s := by
  unfold stallAt; (repeat' split) <;> simp

@[simp] theorem seen_driveFault (a : Nat) (openPhase : Bool) (s : State) : seen (driveFault a openPhase s) = seen s := by
  unfold driveFault; (repeat' split) <;> simp

@[simp] theorem seen_standstillExpiry (a : Nat) (s : State) : seen (standstillExpiry a s) = seen s := by
  unfold standstillExpiry; simp

@[simp] theorem seen_retainAxes (s : State) : seen (retainAxes s) = seen s := by
  unfold retainAxes; simp

@[simp] theorem seen_vaxBoot (s : State) : seen (vaxBoot s) = seen s := by
  unfold vaxBoot; (repeat' split) <;> simp

@[simp] theorem seen_vaxStart (s : State) : seen (vaxStart s) = seen s := by
  unfold vaxStart; simp

@[simp] theorem seen_updTime (f : TimeB → TimeB) (s : State) : seen (updTime f s) = seen s := by
  unfold updTime; simp

@[simp] theorem seen_tasksStep (oldUs newUs : Nat) (s : State) : seen (tasksStep oldUs newUs s) = seen s := by
  unfold tasksStep; simp

@[simp] theorem seen_triggersStep (old new : Nat) (s : State) : seen (triggersStep old new s) = seen s := by
  unfold triggersStep
  split
  · rfl
  · exact seen_foldl (fun _ _ => by simp) _ _

@[simp] theorem seen_servoTo (n : Servo) (s : State) : seen (servoTo n s) = seen s := by
  unfold servoTo; (repeat' split) <;> simp

@[simp] theorem seen_servoWrite (limitPpm : Nat) (s : State) : seen (servoWrite limitPpm s) = seen s := by
  simp [servoWrite, openVal]

@[simp] theorem seen_enterHoldover (s : State) : seen (enterHoldover s) = seen s := by
  unfold enterHoldover; simp

@[simp] theorem seen_delayReqSend (s : State) : seen (delayReqSend s) = seen s := by
  unfold delayReqSend; (repeat' split) <;> simp

@[simp] theorem seen_delayResp (port seq : Nat) (t4 : Nat) (corr : Int) (s : State) : seen (delayResp port seq t4 corr s) = seen s := by
  unfold delayResp; (repeat' split) <;> simp

@[simp] theorem seen_pdelayReqRx (port seq : Nat) (s : State) : seen (pdelayReqRx port seq s) = seen s := by
  unfold pdelayReqRx; (repeat' split) <;> simp

@[simp] theorem seen_pdelayReqSend (s : State) : seen (pdelayReqSend s) = seen s := by
  unfold pdelayReqSend
  split
  · rfl
  · exact (seen_updTime ..).trans (seen_foldl (fun _ _ => by simp) _ _)

@[simp] theorem seen_pdelayResp (port seq : Nat) (corr : Int) (s : State) : seen (pdelayResp port seq corr s) = seen s := by
  unfold pdelayResp; (repeat' split) <;> simp

@[simp] theorem seen_syncAnnounceSend (ann : Bool) (s : State) : seen (syncAnnounceSend ann s) = seen s := by
  unfold syncAnnounceSend; (repeat' split) <;> simp

@[simp] theorem seen_holdoverTimeout (s : State) : seen (holdoverTimeout s) = seen s := by
  unfold holdoverTimeout; (repeat' split) <;> simp

@[simp] theorem seen_rtcReferenceWindow (result : Nat) (s : State) : seen (rtcReferenceWindow result s) = seen s := by
  unfold rtcReferenceWindow; simp

@[simp] theorem seen_leapSecond (s : State) : seen (leapSecond s) = seen s := by
  simp only [leapSecond]; (repeat' split) <;> simp

@[simp] theorem seen_triggerStart (k : Nat) (s : State) : seen (triggerStart k s) = seen s := by
  unfold triggerStart; simp

@[simp] theorem seen_triggerEnd (k : Nat) (s : State) : seen (triggerEnd k s) = seen s := by
  unfold triggerEnd; simp

@[simp] theorem seen_captureEdge (n : Nat) (rising : Bool) (s : State) : seen (captureEdge n rising s) = seen s := by
  unfold captureEdge; (repeat' split) <;> simp

@[simp] theorem seen_capturePublish (s : State) : seen (capturePublish s) = seen s := by
  unfold capturePublish; (repeat' split) <;> simp

@[simp] theorem seen_triggersOff (s : State) : seen (triggersOff s) = seen s := by
  unfold triggersOff; simp

@[simp] theorem seen_emit (f : EthFrame) (entry : Nat) (s : State) (p : Nat) : seen (emit f entry s p) = seen s := by
  unfold emit; (repeat' split) <;> simp

@[simp] theorem seen_etherFrame (f : EthFrame) (s : State) : seen (etherFrame f s) = seen s := by
  unfold etherFrame
  dsimp only
  (repeat' split)
  · rfl
  · rfl
  · rfl
  · rfl
  · exact (seen_foldl (fun _ _ => seen_emit ..) _ _).trans rfl

@[simp] theorem seen_phyPoll (p : Nat) (up : Bool) (speed : Nat) (high : Bool) (s : State) : seen (phyPoll p up speed high s) = seen s := by
  unfold phyPoll; (repeat' split) <;> simp

@[simp] theorem seen_ageOut (vid mac : Nat) (s : State) : seen (ageOut vid mac s) = seen s := by
  unfold ageOut; simp

@[simp] theorem seen_wrapFor (index gen : Nat) (s : State) : seen (wrapFor index gen s).2 = seen s := by
  unfold wrapFor
  split <;> rfl

@[simp] theorem seen_fillKeys (s : State) : seen (fillKeys s) = seen s := by
  refine seen_foldl (fun s x => ?_) _ _
  have hk := seen_wrapFor x.index x.gen s
  cases x.prevGen with
  | none => exact hk
  | some g => exact (seen_wrapFor x.index g _).trans hk

@[simp] theorem seen_updSubl (index : Nat) (f : SublEntry → SublEntry) (s : State) : seen (updSubl index f s) = seen s := by
  unfold updSubl; simp

@[simp] theorem seen_countReport (index : Nat) (e : RepEnd) (s : State) : seen (countReport index e s) = seen s := by
  unfold countReport; simp

@[simp] theorem seen_countSet (index : Nat) (f : SetCounts → SetCounts) (s : State) : seen (countSet index f s) = seen s := by
  unfold countSet; simp

@[simp] theorem seen_countForeign (s : State) : seen (countForeign s) = seen s := by
  unfold countForeign; simp

@[simp] theorem seen_sublSend (index type ip port : Nat) (body : Bytes) (s : State) :
    seen (sublSend index type ip port body s).1 = seen s := by
  unfold sublSend
  split
  · rfl
  · split
    · rfl
    · dsimp only
      split_ifs <;> simp

@[simp] theorem seen_retryAfter (index : Nat) (m : SublMsg) (s : State) : seen (retryAfter index m s) = seen s := by
  simp only [retryAfter]
  (repeat' split) <;> simp

@[simp] theorem seen_confirmMsg (x : SublEntry) (m : SublMsg) (s : State) : seen (confirmMsg x m s) = seen s := by
  simp only [confirmMsg]; (repeat' split) <;> simp

@[simp] theorem seen_sublPayload (ip port : Nat) (data : Bytes) (s : State) : seen (sublPayload ip port data s) = seen s := by
  simp only [sublPayload]; (repeat' split) <;> simp

@[simp] theorem seen_sublDatagram (f : UdpFrag) (s : State) : seen (sublDatagram f s) = seen s := by
  unfold sublDatagram; (repeat' split) <;> simp

@[simp] theorem seen_classify (x : SublEntry) (m : SublMsg) (s : State) : seen (classify x m s) = seen s := by
  simp only [classify]; (repeat' split) <;> simp

@[simp] theorem seen_reportClassification (s : State) : seen (reportClassification s) = seen s := by
  simp only [reportClassification]; (repeat' split) <;> simp

@[simp] theorem seen_freezeReports (s : State) : seen (freezeReports s) = seen s := by
  unfold freezeReports; simp

@[simp] theorem seen_sealCut (s : State) : seen (sealCut s) = seen s := by
  unfold sealCut; simp

@[simp] theorem seen_staged (s : State) (index : Nat) : seen (staged s index).2 = seen s := by
  unfold staged
  split
  · rfl
  · simp [openVal]

@[simp] theorem seen_sendSetpoint (s : State) (x : SublEntry) : seen (sendSetpoint s x) = seen s := by
  unfold sendSetpoint
  split
  · rfl
  · simp

@[simp] theorem seen_setpointIssue (s : State) : seen (setpointIssue s) = seen s := by
  simp only [setpointIssue]
  split
  · split
    · rfl
    · exact (seen_foldl seen_sendSetpoint _ _).trans rfl
  · rfl

@[simp] theorem seen_confirmTimeout (index : Nat) (s : State) : seen (confirmTimeout index s) = seen s := by
  unfold confirmTimeout; (repeat' split) <;> simp

@[simp] theorem seen_downlinkSave (s : State) : seen (downlinkSave s) = seen s := by
  unfold downlinkSave; (repeat' split) <;> simp

@[simp] theorem seen_register (o : SublOp) (s : State) : seen (register o s) = seen s := by
  unfold register; simp

@[simp] theorem seen_unregister (index : Nat) (s : State) : seen (unregister index s) = seen s := by
  unfold unregister; (repeat' split) <;> simp

@[simp] theorem seen_applySublOp (s : State) (c : SublOp × Nat) : seen (applySublOp s c) = seen s := by
  unfold applySublOp; simp

@[simp] theorem seen_sublOps (s : State) : seen (sublOps s) = seen s := by
  simp only [sublOps]; exact seen_foldl (fun s x => by simp) _ _

@[simp] theorem seen_bufferRead (s : State) : seen (bufferRead s) = seen s := by
  unfold bufferRead; simp

@[simp] theorem seen_sublBoot (s : State) : seen (sublBoot s) = seen s := by
  unfold sublBoot; simp

@[simp] theorem seen_submitJob (kind : NJobKind) (owner deadline : Nat) (s : State) : seen (submitJob kind owner deadline s) = seen s := by
  unfold submitJob; simp

@[simp] theorem seen_withdraw (f : NJobKind → Bool) (s : State) : seen (withdraw f s) = seen s := by
  unfold withdraw; simp

@[simp] theorem seen_recoveryCheck (s : State) : seen (recoveryCheck s) = seen s := by
  unfold recoveryCheck; (repeat' split) <;> simp

@[simp] theorem seen_sendPair (kind : Nat) (body : Bytes) (s : State) : seen (sendPair kind body s) = seen s := by
  unfold sendPair; (repeat' split) <;> simp

@[simp] theorem seen_sendDigest (kind round : Nat) (item : Bytes) (s : State) : seen (sendDigest kind round item s) = seen s := by
  unfold sendDigest; (repeat' split) <;> simp

@[simp] theorem seen_calibSample (m : Mizon) (old : NetState) (r : EstRun) (ws : List Props) (net : NetState) (exps : List (List (Nat × Nat))) (s : State) : seen (calibSample m old r ws net exps s) = seen s := by
  unfold calibSample; (repeat' split) <;> simp

@[simp] theorem seen_optStateReady (s : State) : seen (optStateReady s) = seen s := by
  unfold optStateReady; (repeat' split) <;> simp

@[simp] theorem seen_startOpt (cutSec : Nat) (s : State) : seen (startOpt cutSec s) = seen s := by
  unfold startOpt; (repeat' split) <;> simp

@[simp] theorem seen_abandonRounds (s : State) : seen (abandonRounds s) = seen s := by
  unfold abandonRounds; simp

@[simp] theorem seen_cancelOpt (s : State) : seen (cancelOpt s) = seen s := by
  unfold cancelOpt; (repeat' split) <;> simp

@[simp] theorem seen_updRtc (f : Rtc → Rtc) (s : State) : seen (updRtc f s) = seen s := by
  unfold updRtc; simp

@[simp] theorem seen_alarmEvent (k date time fl : Nat) (s : State) : seen (alarmEvent k date time fl s) = seen s := by
  unfold alarmEvent; simp

@[simp] theorem seen_alarmFire (k : Nat) (skipped : Bool) (s : State) : seen (alarmFire k skipped s) = seen s := by
  unfold alarmFire; simp

@[simp] theorem seen_alarmCheck (k a : Nat) (adj : Bool) (s : State) : seen (alarmCheck k a adj s) = seen s := by
  unfold alarmCheck; (repeat' split) <;> simp

@[simp] theorem seen_alarmsCheck (a : Nat) (adj : Bool) (s : State) : seen (alarmsCheck a adj s) = seen s := by
  unfold alarmsCheck; simp

@[simp] theorem seen_repeatEnds (s : State) : seen (repeatEnds s) = seen s := by
  unfold repeatEnds; (repeat' split) <;> simp

@[simp] theorem seen_rtcAdjust (a new : Nat) (s : State) : seen (rtcAdjust a new s) = seen s := by
  unfold rtcAdjust; simp

@[simp] theorem seen_countCycles (s : State) : seen (countCycles s) = seen s := by
  unfold countCycles; simp

@[simp] theorem seen_rtcCompare (s : State) : seen (rtcCompare s) = seen s := by
  unfold rtcCompare
  split
  · exact seen_updRtc _ s
  · dsimp only
    split
    · exact seen_updRtc _ s
    · split
      · exact seen_updRtc _ s
      · exact (seen_updRtc _ _).trans (seen_draw s)

@[simp] theorem seen_dstMake (fwd : Bool) (a next : Nat) (s : State) : seen (dstMake fwd a next s) = seen s := by
  unfold dstMake; (repeat' split) <;> simp

@[simp] theorem seen_rtcSyncStep (a : Nat) (diff : Int) (s : State) : seen (rtcSyncStep a diff s) = seen s := by
  unfold rtcSyncStep; simp

@[simp] theorem seen_learningWindow (r : Int) (mean : Int) (span : Nat) (s : State) : seen (learningWindow r mean span s) = seen s := by
  unfold learningWindow; (repeat' split) <;> simp

@[simp] theorem seen_learnedSave (s : State) : seen (learnedSave s) = seen s := by
  unfold learnedSave; (repeat' split) <;> simp

@[simp] theorem seen_rtcHook (id : Nat) (s : State) : seen (rtcHook id s) = seen s := by
  unfold rtcHook; (repeat' split) <;> simp

@[simp] theorem seen_clearRtcStatus (mask : Nat) (s : State) : seen (clearRtcStatus mask s) = seen s := by
  unfold clearRtcStatus; simp

@[simp] theorem seen_rtcLatch (t : Nat) (s : State) : seen (rtcLatch t s) = seen s := by
  unfold rtcLatch; simp

@[simp] theorem seen_rtcRestart (s : State) : seen (rtcRestart s) = seen s := by
  unfold rtcRestart; simp

@[simp] theorem seen_rtcBoot (s : State) : seen (rtcBoot s) = seen s := by
  simp only [rtcBoot]; (repeat' split) <;> simp

@[simp] theorem seen_modelValidated (s : State) : seen (modelValidated s) = seen s := by
  unfold modelValidated; simp

@[simp] theorem seen_modelBuilt (s : State) : seen (modelBuilt s) = seen s := by
  unfold modelBuilt; (repeat' split) <;> simp

@[simp] theorem seen_modelFlashed (s : State) : seen (modelFlashed s) = seen s := by
  unfold modelFlashed; (repeat' split) <;> simp

@[simp] theorem seen_nmodBoot (s : State) : seen (nmodBoot s) = seen s := by
  unfold nmodBoot; (repeat' split) <;> simp

@[simp] theorem seen_takeConfig (cutSec : Nat) (s : State) (q : RoundPend) : seen (takeConfig cutSec s q) = seen s := by
  unfold takeConfig; (repeat' split) <;> simp

@[simp] theorem seen_takeConfigs (cutSec : Nat) (s : State) : seen (takeConfigs cutSec s) = seen s := by
  simp only [takeConfigs]; exact seen_foldl (fun s x => by simp) _ _

@[simp] theorem seen_calibDone (ok : Bool) (lam : List Nat) (s : State) : seen (calibDone ok lam s) = seen s := by
  unfold calibDone; (repeat' split) <;> simp

@[simp] theorem seen_calibPropose (date : Nat) (s : State) : seen (calibPropose date s) = seen s := by
  simp only [calibPropose]; (repeat' split) <;> simp

@[simp] theorem seen_calibCut (s : State) : seen (calibCut s) = seen s := by
  unfold calibCut; (repeat' split) <;> simp

@[simp] theorem seen_setFlights (mask : Nat) (p : FlightPower) (s : State) : seen (setFlights mask p s) = seen s := by
  unfold setFlights; simp

@[simp] theorem seen_releaseFlights (mask : Nat) (s : State) : seen (releaseFlights mask s) = seen s := by
  unfold releaseFlights; simp

@[simp] theorem seen_gateFlights (s : State) : seen (gateFlights s) = seen s := by
  unfold gateFlights; (repeat' split) <;> simp

@[simp] theorem seen_countJob (e : JobEnd) (s : State) : seen (countJob e s) = seen s := by
  unfold countJob; (repeat' split) <;> simp

@[simp] theorem seen_settleReads (mask : Nat) (e : JobEnd) (s : State) : seen (settleReads mask e s) = seen s := by
  unfold settleReads; (repeat' split) <;> simp

@[simp] theorem seen_endHost (j : HJob) (e : JobEnd) (s : State) : seen (endHost j e s) = seen s := by
  unfold endHost; simp

theorem seen_solv_queue (q : List HJob) (s : State) : seen { s with solv := { s.solv with queue := q } } = seen s := rfl

@[simp] theorem seen_JobEnd_short (k : NormsKnown) (reason index iters regs first : Nat) (s : State) :
    seen (JobEnd.short k reason index iters regs first s).2 = seen s := rfl

@[simp] theorem seen_startHost (s : State) : seen (startHost s) = seen s := by
  unfold startHost
  split
  · split
    · dsimp only
      split
      · generalize hr : JobEnd.short _ _ _ _ _ _ _ = r
        exact (seen_endHost ..).trans (hr ▸ (seen_JobEnd_short ..).trans (seen_solv_queue _ s))
      · simp
    · rfl
  · rfl

@[simp] theorem seen_dropHostJobs (s : State) : seen (dropHostJobs s) = seen s := by
  simp only [dropHostJobs]; exact seen_foldl (fun s x => by simp) _ _

@[simp] theorem seen_abandonedRead (s : State) : seen (abandonedRead s) = seen s := by
  unfold abandonedRead; simp

@[simp] theorem seen_restartTasks (s : State) : seen (restartTasks s) = seen s := by
  unfold restartTasks; simp

@[simp] theorem seen_taskOutputsSafe (e t : Nat) (s : State) : seen (taskOutputsSafe e t s) = seen s := by
  unfold taskOutputsSafe
  split
  · exact seen_foldl (fun _ _ => by split <;> simp) _ _
  · rfl

@[simp] theorem seen_heartbeat (s : State) : seen (heartbeat s) = seen s := by
  unfold heartbeat; (repeat' split) <;> simp

@[simp] theorem seen_unmarkWhole (e addr len : Nat) (s : State) : seen (unmarkWhole e addr len s) = seen s := by
  unfold unmarkWhole; simp

@[simp] theorem seen_unmarkInputs (e : Nat) (d : BTask) (s : State) : seen (unmarkInputs e d s) = seen s := by
  simp only [unmarkInputs]; exact seen_foldl (fun s x => by simp) _ _

@[simp] theorem seen_ownAxes (e t : Nat) (s : State) : seen (ownAxes e t s) = seen s := by
  unfold ownAxes
  split
  · rfl
  · split
    · exact seen_foldl (fun _ _ => by simp) _ _
    · rfl

@[simp] theorem seen_applyTask (b : BImg) (x : TaskSt) (s : State) : seen (applyTask b x s) = seen s := by
  unfold applyTask
  split
  · rfl
  · exact seen_foldl (fun _ _ => by dsimp only; split <;> simp) _ _

@[simp] theorem seen_outputApply (s : State) : seen (outputApply s) = seen s := by
  unfold outputApply
  split
  · exact (seen_updCtrl rfl).trans (seen_foldl (fun _ _ => seen_applyTask ..) _ _)
  · rfl

@[simp] theorem seen_pruneForces (b : BImg) (s : State) : seen (pruneForces b s) = seen s := by
  simp only [pruneForces]; exact seen_foldl (fun s x => by simp) _ _

@[simp] theorem seen_releaseAxes (b : Option BImg) (s : State) : seen (releaseAxes b s) = seen s := by
  simp only [releaseAxes]; exact seen_foldl (fun s x => by simp) _ _

@[simp] theorem seen_blockValidated (s : State) : seen (blockValidated s) = seen s := by
  unfold blockValidated; simp

@[simp] theorem seen_blockFlashed (s : State) : seen (blockFlashed s) = seen s := by
  unfold blockFlashed; (repeat' split) <;> simp

@[simp] theorem seen_releaseTaskAxes (e t : Nat) (s : State) : seen (releaseTaskAxes e t s) = seen s := by
  simp only [releaseTaskAxes]; exact seen_foldl (fun s x => by simp) _ _

@[simp] theorem seen_swapTick (s : State) : seen (swapTick s) = seen s := by
  unfold swapTick; (repeat' split) <;> simp

@[simp] theorem seen_changePrepared (s : State) : seen (changePrepared s) = seen s := by
  unfold changePrepared; (repeat' split) <;> simp

@[simp] theorem seen_orphansSafe (a b : BImg) (s : State) : seen (orphansSafe a b s) = seen s := by
  simp only [orphansSafe]; exact seen_foldl (fun s x => by (repeat' split) <;> simp) _ _

@[simp] theorem seen_markInstant (e t : Nat) (s : State) : seen (markInstant e t s) = seen s := by
  unfold markInstant; simp

@[simp] theorem seen_holdRelease (h : HeldRelease) (s : State) : seen (holdRelease h s) = seen s := by
  unfold holdRelease; (repeat' split) <;> simp

@[simp] theorem seen_shadowAxes (e t : Nat) (image : Bytes) (s : State) : seen (shadowAxes e t image s) = seen s := by
  simp only [shadowAxes]; exact seen_foldl (fun s x => by simp) _ _

@[simp] theorem seen_stripCheck (k : Nat) (s : State) : seen (stripCheck k s) = seen s := by
  unfold stripCheck; simp

@[simp] theorem seen_stripRefresh (s : State) : seen (stripRefresh s) = seen s := by
  unfold stripRefresh; simp

@[simp] theorem seen_takeTemp (t : Int) (s : State) : seen (takeTemp t s) = seen s := by
  unfold takeTemp; simp

@[simp] theorem seen_crcTouch (s : State) : seen (crcTouch s) = seen s := by
  simp [crcTouch, openVal]

@[simp] theorem seen_autoRefresh (r : EpdReq) (s : State) : seen (autoRefresh r s) = seen s := by
  unfold autoRefresh; (repeat' split) <;> simp

@[simp] theorem seen_epdComplete (u : EpdRun) (count : Nat) (s : State) : seen (epdComplete u count s) = seen s := by
  unfold epdComplete; (repeat' split) <;> simp

@[simp] theorem seen_epdShow (u : EpdRun) (s : State) : seen (epdShow u s) = seen s := by
  unfold epdShow; simp

@[simp] theorem seen_startLines (r : EpdReq) (s : State) : seen (startLines r s).2 = seen s := by
  simp only [startLines, openVal]
  (repeat' split) <;> simp

@[simp] theorem seen_epdStart (r : EpdReq) (s : State) : seen (epdStart r s) = seen s := by
  have hl := fun t => seen_startLines r t
  simp only [epdStart]
  split
  · simp [openVal, hl]
  · simp [openVal, hl]

@[simp] theorem seen_updateStart (s : State) : seen (updateStart s) = seen s := by
  unfold updateStart; (repeat' split) <;> simp

@[simp] theorem seen_displayPhase (s : State) : seen (displayPhase s) = seen s := by
  unfold displayPhase
  split
  · rfl
  · exact (seen_foldl (fun _ _ => by simp) _ _).trans (seen_updEpd ..)

@[simp] theorem seen_epdPowerGood (s : State) : seen (epdPowerGood s) = seen s := by
  unfold epdPowerGood; (repeat' split) <;> simp

@[simp] theorem seen_epdPowerFail (s : State) : seen (epdPowerFail s) = seen s := by
  unfold epdPowerFail
  split
  · rfl
  · exact seen_foldl (fun _ _ => by simp) _ _

@[simp] theorem seen_epdPowerOff (s : State) : seen (epdPowerOff s) = seen s := by
  unfold epdPowerOff; (repeat' split) <;> simp

@[simp] theorem seen_epdStop (s : State) : seen (epdStop s) = seen s := by
  simp only [epdStop]; exact seen_foldl (fun s x => by simp) _ _

@[simp] theorem seen_queueClear (s : State) : seen (queueClear s) = seen s := by
  unfold queueClear; simp

@[simp] theorem seen_epdBoot (s : State) : seen (epdBoot s) = seen s := by
  unfold epdBoot; simp

@[simp] theorem seen_wrapRec (storage : Bytes) (slot attrs : Nat) (key : Bytes) (s : State) : seen (wrapRec storage slot attrs key s) = seen s := by
  simp only [wrapRec, trngBytes]
  exact (seen_updSec rfl rfl).trans (seen_draw s)

@[simp] theorem seen_createRoot (s : State) : seen (createRoot s) = seen s := by
  simp only [createRoot, trngBytes]
  exact (seen_updSec rfl rfl).trans ((seen_draw _).trans (seen_draw s))

@[simp] theorem seen_countBoot (s : State) : seen (countBoot s) = seen s := by
  unfold countBoot; (repeat' split) <;> simp

@[simp] theorem seen_updClass (cls : Nat) (f : ImageClass → ImageClass) (s : State) : seen (updClass cls f s) = seen s := by
  unfold updClass; simp

@[simp] theorem seen_imageEvent (cls outcome : Nat) (old new : W32) (v : ImageSlot) (keyId : Nat) (s : State) : seen (imageEvent cls outcome old new v keyId s) = seen s := by
  unfold imageEvent; simp

@[simp] theorem seen_imageVerified (cls : Nat) (readable classOk : Bool) (s : State) : seen (imageVerified cls readable classOk s) = seen s := by
  unfold imageVerified; simp

@[simp] theorem seen_metroSwitch (old new : W32) (cosigner : Nat) (s : State) : seen (metroSwitch old new cosigner s) = seen s := by
  unfold metroSwitch; simp

@[simp] theorem seen_tamperEvent (src sit count first keyId : Nat) (s : State) : seen (tamperEvent src sit count first keyId s) = seen s := by
  unfold tamperEvent; simp

@[simp] theorem seen_recordBackupTamper (s : State) : seen (recordBackupTamper s) = seen s := by
  simp only [recordBackupTamper]; exact seen_foldl (fun s x => by simp) _ _

@[simp] theorem seen_trngFailure (s : State) : seen (trngFailure s) = seen s := by
  unfold trngFailure; (repeat' split) <;> simp

@[simp] theorem seen_snapshotTick (s : State) : seen (snapshotTick s) = seen s := by
  unfold snapshotTick; (repeat' split) <;> simp

@[simp] theorem seen_snapInEdge (rising : Bool) (s : State) : seen (snapInEdge rising s) = seen s := by
  unfold snapInEdge; (repeat' split) <;> simp

@[simp] theorem seen_copyFaults (s : State) : seen (copyFaults s) = seen s := by
  unfold copyFaults; simp

@[simp] theorem seen_failCommands (f : Exec → Bool) (tags : List Byte) (s : State) : seen (failCommands f tags s) = seen s := by
  simp only [failCommands]; exact seen_foldl (fun s x => by (repeat' split) <;> simp) _ _

@[simp] theorem seen_coreCommands (core : Nat) (tags : List Byte) (s : State) : seen (coreCommands core tags s) = seen s := by
  unfold coreCommands; simp

@[simp] theorem seen_coreRestart (core : Nat) (s : State) : seen (coreRestart core s) = seen s := by
  unfold coreRestart; (repeat' split) <;> simp

@[simp] theorem seen_restarted (blocks : List Nat) (bound : Option Nat) (s : State) : seen (restarted blocks bound s) = seen s := by
  unfold restarted; simp

@[simp] theorem seen_galleryPromotion (s : State) : seen (galleryPromotion s) = seen s := by
  unfold galleryPromotion; (repeat' split) <;> simp

@[simp] theorem seen_balustradeWrite (s : State) : seen (balustradeWrite s) = seen s := by
  unfold balustradeWrite; (repeat' split) <;> simp

@[simp] theorem seen_updPwr (f : Pwr → Pwr) (s : State) : seen (updPwr f s) = seen s := by
  unfold updPwr; simp

@[simp] theorem seen_wakeFlights (mask : Nat) (s : State) : seen (wakeFlights mask s) = seen s := by
  unfold wakeFlights; simp

@[simp] theorem seen_modeFlights (old m : Mode) (s : State) : seen (modeFlights old m s) = seen s := by
  unfold modeFlights; (repeat' split) <;> simp

@[simp] theorem seen_modeOutputs (m : Mode) (s : State) : seen (modeOutputs m s) = seen s := by
  unfold modeOutputs
  split
  case h_5 => exact seen_foldl (fun _ _ => by simp) _ _
  all_goals simp

@[simp] theorem seen_endHostAxes (m : Mode) (s : State) : seen (endHostAxes m s) = seen s := by
  simp only [endHostAxes]; exact seen_foldl (fun s x => by (repeat' split) <;> simp) _ _

@[simp] theorem seen_lateRefusal (f : Wait → Bool) (s : State) : seen (lateRefusal f s) = seen s := by
  simp only [lateRefusal]; exact seen_foldl (fun s x => by simp) _ _

@[simp] theorem seen_endListening (m : Mode) (s : State) : seen (endListening m s) = seen s := by
  unfold endListening; (repeat' split) <;> simp

@[simp] theorem seen_giveUpRole (cause : Nat) (m : Mode) (s : State) : seen (giveUpRole cause m s) = seen s := by
  unfold giveUpRole; (repeat' split) <;> simp

@[simp] theorem seen_endInFault (s : State) : seen (endInFault s) = seen s := by
  unfold endInFault; simp

@[simp] theorem seen_closeMram (s : State) : seen (closeMram s) = seen s := by
  simp only [closeMram]; (repeat' split) <;> simp

@[simp] theorem seen_mramPathClose (s : State) : seen (mramPathClose s) = seen s := by
  unfold mramPathClose; (repeat' split) <;> simp

@[simp] theorem seen_hifRestart (s : State) : seen (hifRestart s) = seen s := by
  unfold hifRestart; simp

@[simp] theorem seen_setPll (n : Nat) (v : Bool) (s : State) : seen (setPll n v s) = seen s := by
  unfold setPll; (repeat' split) <;> simp

@[simp] theorem seen_pllLoss (n : Nat) (s : State) : seen (pllLoss n s) = seen s := by
  unfold pllLoss; (repeat' split) <;> simp

@[simp] theorem seen_pllRegained (n : Nat) (s : State) : seen (pllRegained n s) = seen s := by
  unfold pllRegained; (repeat' split) <;> simp

@[simp] theorem seen_flightWake (s : State) : seen (flightWake s) = seen s := by
  unfold flightWake; (repeat' split) <;> simp

@[simp] theorem seen_supplyMeasure (core soc ana vbat : W16) (temp : W32) (s : State) : seen (supplyMeasure core soc ana vbat temp s) = seen s := by
  unfold supplyMeasure; (repeat' split) <;> simp

@[simp] theorem seen_hostInterfaceStart (s : State) : seen (hostInterfaceStart s) = seen s := by
  unfold hostInterfaceStart; (repeat' split) <;> simp

@[simp] theorem seen_startFlash (sfdp : Option Bool) (s : State) : seen (startFlash sfdp s) = seen s := by
  unfold startFlash; (repeat' split) <;> simp


@[simp] theorem seen_heartbeatRx (mode : Mode) (ret : Option Mode) (s : State) : seen (heartbeatRx mode ret s) = seen s := by
  unfold heartbeatRx
  dsimp only
  split
  · rw [seen_post]; split
    · exact (seen_updPair rfl).trans (seen_updPair rfl)
    · exact seen_updPair rfl
  · exact seen_updPair rfl

@[simp] theorem seen_sendCut (s : State) : seen (sendCut s) = seen s := by
  unfold sendCut
  split
  · exact seen_foldl (fun _ _ => seen_sendPair ..) _ _
  · rfl

@[simp] theorem seen_sendState (s : State) : seen (sendState s) = seen s := by
  unfold sendState; (repeat' split) <;> simp

@[simp] theorem seen_resyncRequest (s : State) : seen (resyncRequest s) = seen s := by
  unfold resyncRequest; (repeat' split) <;> simp

@[simp] theorem seen_shadowStatus (qualified : Bool) (s : State) : seen (shadowStatus qualified s) = seen s := by
  unfold shadowStatus; (repeat' split) <;> simp

@[simp] theorem seen_shadowStatusSend (s : State) : seen (shadowStatusSend s) = seen s := by
  unfold shadowStatusSend; (repeat' split) <;> simp

@[simp] theorem seen_imagesDigest (round : Nat) (s : State) : seen (imagesDigest round s) = seen s := by
  unfold imagesDigest; (repeat' split) <;> simp

@[simp] theorem seen_putPending (v : PendingValue) (s : State) : seen (putPending v s) = seen s := by
  unfold putPending; simp

@[simp] theorem seen_storeMetro (v : PendingValue) (s : State) : seen (storeMetro v s) = seen s := by
  unfold storeMetro; (repeat' split) <;> simp

@[simp] theorem seen_replyTo (p : Pkt) (status flags : Nat) (body : Bytes) (crcs : Nat × Nat) (back held : Nat × Nat) (s : State) : seen (replyTo p status flags body crcs back held s) = seen s := by
  unfold replyTo; (repeat' split) <;> simp

@[simp] theorem seen_updHif (f : Hif → Hif) (s : State) : seen (updHif f s) = seen s := by
  unfold updHif; simp

@[simp] theorem seen_refuse (p : Pkt) (status : Nat) (body : Bytes) (back : Bool) (s : State) : seen (refuse p status body back s) = seen s := by
  simp only [refuse]
  split <;> simp [openVal]

@[simp] theorem seen_reject (p : Pkt) (status : Nat) (body : Bytes) (s : State) : seen (reject p status body s) = seen s := by
  unfold reject; (repeat' split) <;> simp

@[simp] theorem seen_setWait (tag : Nat) (w : Wait) (s : State) : seen (setWait tag w s) = seen s := by
  unfold setWait; (repeat' split) <;> simp



@[simp] theorem seen_touchSession (p : Pkt) (s : State) : seen (touchSession p s) = seen s := by
  simp only [touchSession]; (repeat' split) <;> simp







@[simp] theorem seen_commandLog (sec ns : Nat) (packet : Bytes) (s : State) : seen (commandLog sec ns packet s) = seen s := by
  unfold commandLog; (repeat' split) <;> simp

@[simp] theorem seen_padHeader (raw : Bytes) (s : State) : seen (padHeader raw s).2 = seen s := by
  unfold padHeader
  split <;> rfl

@[simp] theorem seen_crcError (org : Origin) (raw : Bytes) (s : State) : seen (crcError org raw s) = seen s := by
  simp only [crcError]
  split <;> simp [openVal]

@[simp] theorem seen_irqHoldoffEnd (s : State) : seen (irqHoldoffEnd s) = seen s := by
  unfold irqHoldoffEnd; simp

@[simp] theorem seen_udpDrop (s : State) : seen (udpDrop s) = seen s := by
  unfold udpDrop; simp

@[simp] theorem seen_fragmentDiscard (srcIp ident : Nat) (s : State) : seen (fragmentDiscard srcIp ident s) = seen s := by
  unfold fragmentDiscard; (repeat' split) <;> simp


end Sys2Proof.Machine

/-! Canonical form of what is seen, and the functions that keep it. -/

namespace Sys2Proof.Machine

variable {keep : Bool}

/-- Memories and tables stand in canonical form. -/
structure Sound (a : Seen) : Prop where
  engines : ∀ e : Fin 2, Memory.wf (a.engines[e]).1 = true ∧ Memory.wf (a.engines[e]).2 = true
  test : Memory.wf a.test = true
  locals : ∀ k : Fin 8, Region.wf a.locals[k] = true
  work : Region.wf a.work = true
  ddr : Region.wf a.ddr = true
  cfg : tableWf pdflt a.cfg = true
  counters : tableWf (fun _ => 0) a.counters = true
  slots : (a.slots.map (·.1)).Pairwise (· < ·)
  timeouts : tableWf (fun _ => 0) a.timeouts = true
  ceCount : tableWf (fun _ => 0) a.ceCount = true
  blockErrors : tableWf (fun _ => 0) a.blockErrors = true

theorem Solv.canonical_iff (v : Solv) :
    v.canonical = true ↔
      Memory.wf v.test = true ∧ (∀ k : Fin 8, Region.wf v.locals[k] = true) ∧ Region.wf v.work = true ∧ Region.wf v.ddr = true := by
  have h : v.locals.all Region.wf = true ↔ ∀ k : Fin 8, Region.wf v.locals[k] = true := by
    simp only [Vector.all_eq_true, Fin.forall_iff, Fin.getElem_fin]
  simp only [Solv.canonical, Bool.and_eq_true, h, and_assoc]

theorem tcms_getElem (v : Vector Engine 2) (e : Fin 2) : (tcms v)[e] = ((v[e]).code, (v[e]).data) := Vector.getElem_map ..

theorem canonical_iff_sound (s : State) : Canonical s = true ↔ Sound (seen s) := by
  rw [canonical_iff, Solv.canonical_iff]
  constructor
  · rintro ⟨he, ⟨ht, hl, hw, hd⟩, hc, hn, ho, hce, hb, hs⟩
    exact ⟨fun e => by simpa [seen, tcms] using he e, ht, hl, hw, hd, hc, hn, hs, ho, hce, hb⟩
  · rintro ⟨he, ht, hl, hw, hd, hc, hn, hs, ho, hce, hb⟩
    exact ⟨fun e => by simpa [seen, tcms] using he e, ⟨ht, hl, hw, hd⟩, hc, hn, ho, hce, hb, hs⟩

/-- What is left for the end of the step is as it was, and canonical form is kept; the mode, too, is as it was if `keep` says so. -/
structure Follows (keep : Bool) (a b : Seen) : Prop where
  triggers : b.triggers = a.triggers
  digests : b.digests = a.digests
  pending : b.pending = a.pending
  mode : keep = true → b.mode = a.mode
  sound : Sound a → Sound b

@[simp] theorem Follows.refl (a : Seen) : Follows keep a a := ⟨rfl, rfl, rfl, fun _ => rfl, id⟩

theorem Follows.trans {a b c : Seen} (h : Follows keep a b) (k : Follows keep b c) : Follows keep a c :=
  ⟨k.triggers.trans h.triggers, k.digests.trans h.digests, k.pending.trans h.pending, fun hk => (k.mode hk).trans (h.mode hk), k.sound ∘ h.sound⟩

theorem Follows.of_seen {a : Seen} {t u : State} (e : seen u = seen t) (h : Follows keep a (seen t)) : Follows keep a (seen u) := e ▸ h

theorem Follows.loose {a b : Seen} (h : Follows true a b) : Follows keep a b :=
  ⟨h.triggers, h.digests, h.pending, fun _ => h.mode rfl, h.sound⟩

theorem Follows.steady {s t : State} (h : Follows false (seen s) (seen t)) : Steady s t := ⟨h.triggers, h.digests, h.pending⟩

theorem Follows.foldl {α : Type} {f : State → α → State} {a : Seen}
    (h : ∀ s x, Follows keep (seen s) (seen (f s x))) (l : List α) {s : State} (hs : Follows keep a (seen s)) :
    Follows keep a (seen (l.foldl f s)) := by
  induction l generalizing s with
  | nil => exact hs
  | cons x l ih => exact ih (hs.trans (h s x))

@[simp] theorem follows_ite (a : Seen) (c : Prop) [Decidable c] (x y : Seen) :
    Follows keep a (if c then x else y) ↔ (c → Follows keep a x) ∧ (¬c → Follows keep a y) := by
  split <;> simp [*]

/-! ### Tables -/

theorem tableWf_foldl {α : Type} {d : Nat → Nat} (k v : α → Nat) (l : List α) {t : List (Nat × Nat)} (h : tableWf d t = true) :
    tableWf d (l.foldl (fun c p => tableSet d c (k p) (v p)) t) = true := by
  induction l generalizing t with
  | nil => exact h
  | cons x l ih => exact ih (tableWf_set h)

@[simp] theorem follows_setP {a : Seen} {id v : Nat} {s : State} (h : Follows keep a (seen s)) : Follows keep a (seen (setP id v s)) :=
  h.trans ⟨rfl, rfl, rfl, fun _ => rfl, fun h => { h with cfg := tableWf_set h.cfg }⟩

@[simp] theorem follows_applyBoundary {a : Seen} {b : Boundary} {s : State} (h : Follows keep a (seen s)) :
    Follows keep a (seen (applyBoundary b s)) :=
  h.trans ⟨rfl, rfl, rfl, fun _ => rfl, fun h => { h with cfg := tableWf_foldl _ _ _ h.cfg }⟩

@[simp] theorem follows_paramsReset {a : Seen} {s : State} (h : Follows keep a (seen s)) : Follows keep a (seen (paramsReset s)) :=
  h.trans ⟨rfl, rfl, rfl, fun _ => rfl, fun h => { h with cfg := tableWf_foldl _ _ _ h.cfg }⟩

@[simp] theorem follows_correctable {a : Seen} {b : Nat} {s : State} (h : Follows keep a (seen s)) :
    Follows keep a (seen (correctable b s)) :=
  h.trans ⟨rfl, rfl, rfl, fun _ => rfl, fun h => { h with ceCount := tableWf_set h.ceCount }⟩

@[simp] theorem follows_bumpErrors {a : Seen} {b : Nat} {s : State} (h : Follows keep a (seen s)) :
    Follows keep a (seen (bumpErrors b s)) :=
  h.trans ⟨rfl, rfl, rfl, fun _ => rfl, fun h => { h with blockErrors := tableWf_set h.blockErrors }⟩

@[simp] theorem follows_commitCounter {a : Seen} {op : Nat} {u : Auth} {s : State} (h : Follows keep a (seen s)) :
    Follows keep a (seen (commitCounter op u s)) := by
  refine h.trans ?_
  unfold commitCounter
  split
  · exact .refl _
  · dsimp only
    split
    · rw [seen_post]; exact ⟨rfl, rfl, rfl, fun _ => rfl, fun h => { h with counters := tableWf_set h.counters }⟩
    · exact ⟨rfl, rfl, rfl, fun _ => rfl, fun h => { h with counters := tableWf_set h.counters }⟩

/-! ### Key slots -/

theorem above_putKeyIn {n m : Nat} {k : KeySlot} {l : List (Nat × KeySlot)} (hn : m < n) (h : ∀ x ∈ l.map (·.1), m < x) :
    ∀ x ∈ (putKeyIn n k l).map (·.1), m < x := by
  induction l with
  | nil => simpa [putKeyIn] using hn
  | cons y t ih =>
    simp only [List.map_cons, List.forall_mem_cons] at h
    unfold putKeyIn
    split_ifs
    · simpa [List.forall_mem_cons] using ⟨hn, h.1, by simpa using h.2⟩
    · simpa [List.forall_mem_cons] using ⟨hn, by simpa using h.2⟩
    · simp only [List.map_cons, List.forall_mem_cons]; exact ⟨h.1, ih h.2⟩

theorem putKeyIn_ascending {n : Nat} {k : KeySlot} {l : List (Nat × KeySlot)} (h : (l.map (·.1)).Pairwise (· < ·)) :
    ((putKeyIn n k l).map (·.1)).Pairwise (· < ·) := by
  induction l with
  | nil => simp [putKeyIn]
  | cons y t ih =>
    simp only [List.map_cons, List.pairwise_cons] at h
    unfold putKeyIn
    split_ifs with h1 h2
    · simp only [List.map_cons, List.pairwise_cons, List.forall_mem_cons]
      exact ⟨⟨h1, fun x hx => lt_trans h1 (h.1 x hx)⟩, h.1, h.2⟩
    · simp only [List.map_cons, List.pairwise_cons]; exact ⟨fun x hx => h2 ▸ h.1 x hx, h.2⟩
    · simp only [List.map_cons, List.pairwise_cons]; exact ⟨above_putKeyIn (by omega) h.1, ih h.2⟩

@[simp] theorem follows_putKey {a : Seen} {n attrs : Nat} {key : Bytes} {s : State} (h : Follows keep a (seen s)) :
    Follows keep a (seen (putKey n attrs key s)) :=
  h.trans ⟨rfl, rfl, rfl, fun _ => rfl, fun h => { h with slots := putKeyIn_ascending h.slots }⟩

@[simp] theorem follows_eraseKey {a : Seen} {n : Nat} {s : State} (h : Follows keep a (seen s)) : Follows keep a (seen (eraseKey n s)) :=
  h.trans ⟨rfl, rfl, rfl, fun _ => rfl, fun h => { h with slots := h.slots.sublist (List.filter_sublist.map _) }⟩

theorem follows_noSlots {f : Sec → Sec} {s : State} (hc : (f s.sec).counters = s.sec.counters) (hs : (f s.sec).slots = []) :
    Follows keep (seen s) (seen (updSec f s)) :=
  ⟨rfl, rfl, rfl, fun _ => rfl, fun h => { h with
    counters := (congrArg (tableWf _) hc).trans h.counters
    slots := (congrArg (fun l => (l.map (·.1)).Pairwise (· < ·)) hs).mpr .nil }⟩

/-! ### Memories of the solver address map -/

theorem jobWrite_shape (s : State) (w : Nat × Nat × Bytes) :
    ∃ m, jobWrite s w = { s with solv := (jobWrite s w).solv, intg := { s.intg with marked := m } } := by
  unfold jobWrite
  dsimp only
  split <;> exact ⟨_, rfl⟩

@[simp] theorem follows_jobWrite {a : Seen} {w : Nat × Nat × Bytes} {s : State} (h : Follows keep a (seen s)) :
    Follows keep a (seen (jobWrite s w)) := by
  obtain ⟨m, e⟩ := jobWrite_shape s w
  have hw (hs : Sound (seen s)) := (Solv.canonical_iff _).1 (jobWrite_wf w ((Solv.canonical_iff s.solv).2 ⟨hs.test, hs.locals, hs.work, hs.ddr⟩))
  rw [e]
  refine h.trans ⟨rfl, rfl, rfl, fun _ => rfl, fun hs => ?_⟩
  obtain ⟨ht, hl, hk, hd⟩ := hw hs
  exact { hs with test := ht, locals := hl, work := hk, ddr := hd }

theorem Region.wf_vset {v : Vector Region 8} {r : Region} (h : ∀ k : Fin 8, Region.wf v[k] = true) (hr : Region.wf r = true) (n : Nat)
    (k : Fin 8) : Region.wf (vset v n r)[k] = true := by
  simp only [vset, Fin.getElem_fin, Vector.getElem_setIfInBounds]
  split
  · exact hr
  · exact h k

@[simp] theorem follows_clearLocal {a : Seen} {n : Nat} {s : State} (h : Follows keep a (seen s)) : Follows keep a (seen (clearLocal n s)) :=
  h.trans ⟨rfl, rfl, rfl, fun _ => rfl, fun hs => { hs with locals := Region.wf_vset hs.locals rfl n }⟩

theorem Region.wf_reload {v : Vector Region 8} {r : Region} (h : ∀ k : Fin 8, Region.wf v[k] = true) (hr : Region.wf r = true)
    (mask : Nat) (k : Fin 8) : Region.wf (v.mapFinIdx fun i x _ => if bit mask i then r else x)[k] = true := by
  simp only [Fin.getElem_fin, Vector.getElem_mapFinIdx]
  split
  · exact hr
  · exact h k

@[simp] theorem follows_reloadWork {a : Seen} {mask : Nat} {s : State} (h : Follows keep a (seen s)) :
    Follows keep a (seen (reloadWork mask s)) := by
  let t := (List.range 8).foldl (fun s f =>
    if bit mask f then unmark 2 ((0x01000000 + f * 0x100000) / 8) ((0x01100000 + f * 0x100000) / 8) s else s)
    (unmark 1 (0x04800000 / 8) (0x05000000 / 8) s)
  have ht : seen t = seen s := (seen_foldl (fun _ _ => by simp) _ _).trans (seen_unmark ..)
  refine h.trans (ht ▸ ?_)
  exact ⟨rfl, rfl, rfl, fun _ => rfl, fun hs => { hs with locals := Region.wf_reload hs.locals rfl mask, work := rfl, ddr := rfl }⟩

/-! ### The TCMs of the engines -/

theorem engOf_sound {s : State} (h : Sound (seen s)) (e : Nat) :
    Memory.wf (engOf s e).code = true ∧ Memory.wf (engOf s e).data = true := by
  unfold engOf vget
  by_cases he : e < 2
  · have hx : Memory.wf ((tcms s.ctrl.engines)[(⟨e, he⟩ : Fin 2)]).1 = true ∧ Memory.wf ((tcms s.ctrl.engines)[(⟨e, he⟩ : Fin 2)]).2 = true :=
      h.engines ⟨e, he⟩
    rw [tcms_getElem] at hx
    simpa [Vector.getElem?_eq_getElem he] using hx
  · rw [Vector.getElem?_eq_none (by omega)]; exact ⟨rfl, rfl⟩

/-- An engine replaced by one whose TCMs are canonical. -/
theorem follows_setEng {e : Nat} {x : Engine} {s : State}
    (hx : Sound (seen s) → Memory.wf x.code = true ∧ Memory.wf x.data = true) : Follows keep (seen s) (seen (setEng e x s)) := by
  refine ⟨rfl, rfl, rfl, fun _ => rfl, fun hs => { hs with engines := fun k => ?_ }⟩
  have hk : (seen (setEng e x s)).engines[k] = ((tcms (vset s.ctrl.engines e x))[k]) := rfl
  have he := hs.engines k
  have hk' : (seen s).engines[k] = (tcms s.ctrl.engines)[k] := rfl
  rw [hk', tcms_getElem] at he
  rw [hk, tcms_getElem, vset, Fin.getElem_fin, Vector.getElem_setIfInBounds]
  split
  · exact hx hs
  · exact he

end Sys2Proof.Machine


/-! The functions that write memories, parameters, counters or key slots keep canonical form. -/

namespace Sys2Proof.Machine

variable {keep : Bool}

@[simp] theorem follows_applyOne {a₀ : Seen} {id : Nat} {s : State} (h : Follows keep a₀ (seen s)) : Follows keep a₀ (seen (applyOne id s)) := by
  unfold applyOne
  split
  · exact follows_setP h
  · exact h

@[simp] theorem follows_uncorrectable {a₀ : Seen} {memCode blk addr : Nat} {s : State} (h : Follows keep a₀ (seen s)) : Follows keep a₀ (seen (uncorrectable memCode blk addr s)) := by
  simp only [uncorrectable]
  split
  · exact h
  · rw [seen_snapSource, seen_post]
    exact follows_bumpErrors h

@[simp] theorem follows_pathError {a₀ : Seen} {memCode blk addr : Nat} {s : State} (h : Follows keep a₀ (seen s)) : Follows keep a₀ (seen (pathError memCode blk addr s)) := by
  unfold pathError; simp [h]

@[simp] theorem follows_chanFrame {a₀ : Seen} {fr : Vector RtdFrame 16} {s : State} {c : Nat} (h : Follows keep a₀ (seen s)) : Follows keep a₀ (seen (chanFrame fr s c)) := by
  simp only [chanFrame]
  split
  · exact h
  · split
    · exact follows_pathError h
    · split <;> exact h

@[simp] theorem follows_frameEnd {a₀ : Seen} {fr : Vector RtdFrame 16} {s : State} (h : Follows keep a₀ (seen s)) : Follows keep a₀ (seen (frameEnd fr s)) := by
  simp only [frameEnd]
  split
  · exact h
  · have hs : Follows keep a₀ (seen ((List.range 16).foldl (chanFrame fr) (snapshotPoint s))) :=
      Follows.foldl (fun _ _ => follows_chanFrame (.refl _)) _ (by simpa using h)
    rw [seen_publishPage1, seen_foldl (fun _ _ => by simp)]
    split
    · rw [seen_startThermal]; exact hs
    · exact hs

@[simp] theorem follows_sampleParity {a₀ : Seen} {k : Nat} {smps : Vector RawSample 6} {s : State} (h : Follows keep a₀ (seen s)) : Follows keep a₀ (seen (sampleParity k smps s)) := by
  refine Follows.foldl (fun s c => ?_) _ h
  dsimp only
  split
  · exact .refl _
  · exact follows_pathError (.refl _)

@[simp] theorem follows_rawSample {a₀ : Seen} {k : Nat} {smps : Vector RawSample 6} {s : State} (h : Follows keep a₀ (seen s)) : Follows keep a₀ (seen (rawSample k smps s)) := by
  unfold rawSample; (repeat' split) <;> simp [h]

@[simp] theorem follows_damageSlots {a₀ : Seen} {bad : List (Fin 64)} {s : State} (h : Follows keep a₀ (seen s)) : Follows keep a₀ (seen (damageSlots bad s)) := by
  simp only [damageSlots]; exact Follows.foldl (fun s x => by simp) _ h

@[simp] theorem follows_billBoot {a₀ : Seen} {bad : List (Fin 64)} {s : State} (h : Follows keep a₀ (seen s)) : Follows keep a₀ (seen (billBoot bad s)) := by
  simp only [billBoot]; (repeat' split) <;> simp [h]

@[simp] theorem follows_takeEffect {a₀ : Seen} {p : PendingValue} {s : State} (h : Follows keep a₀ (seen s)) : Follows keep a₀ (seen (takeEffect p s)) := by
  unfold takeEffect; simp [h]

@[simp] theorem follows_applyMinute {a₀ : Seen} {s : State} (h : Follows keep a₀ (seen s)) : Follows keep a₀ (seen (applyMinute s)) := by
  have hf (f : State → Nat → State) (hf : ∀ s k, seen (f s k) = seen s) (l : List PendingValue) (m : List Nat) :
      Follows keep a₀ (seen (l.foldl (fun s p => takeEffect p s) (m.foldl f s))) :=
    Follows.foldl (fun _ _ => follows_takeEffect (.refl _)) _ ((seen_foldl hf m s).symm ▸ h)
  have hp {u : State} (hu : Follows keep a₀ (seen u)) (l : List PendingValue) : Follows keep a₀ (seen { u with cfgPending := l }) := hu
  have hm {u : State} (hu : Follows keep a₀ (seen u)) (v : Vector MelSys 4) :
      Follows keep a₀ (seen { u with mel := { u.mel with systems := v } }) := hu
  unfold applyMinute
  dsimp only
  rw [seen_followEnables]
  refine hm ?_ _
  split
  · rw [seen_moveSave]
    exact hp (hf _ (fun _ _ => by simp) _ _) _
  · exact hp (hf _ (fun _ _ => by simp) _ _) _

@[simp] theorem follows_intervalBoundary {a₀ : Seen} {s : State} (h : Follows keep a₀ (seen s)) : Follows keep a₀ (seen (intervalBoundary s)) := by
  unfold intervalBoundary; simp [h]

@[simp] theorem follows_closeStepped {a₀ : Seen} {ls : List Nat} {back : Bool} {new : Nat} {s : State} (h : Follows keep a₀ (seen s)) : Follows keep a₀ (seen (closeStepped ls back new s)) := by
  unfold closeStepped; (repeat' split) <;> simp [h]

@[simp] theorem follows_intervalStep {a₀ : Seen} {old oldNs oldPtp : Nat} {s : State} (h : Follows keep a₀ (seen s)) : Follows keep a₀ (seen (intervalStep old oldNs oldPtp s)) := by
  simp only [intervalStep]
  split
  · exact h
  · split
    · exact h
    · exact follows_closeStepped h

@[simp] theorem follows_pwmBoundary {a₀ : Seen} {p : Nat} {s : State} (h : Follows keep a₀ (seen s)) : Follows keep a₀ (seen (pwmBoundary p s)) := by
  unfold pwmBoundary; (repeat' split) <;> simp [h]

theorem seen_cfgBack {s u : State} {id v : Nat} (h : seen u = seen (setP id v s)) : seen { u with cfg := s.cfg } = seen s :=
  congrArg (fun a : Seen => { a with cfg := s.cfg }) h

@[simp] theorem follows_pioHook {a₀ : Seen} {id : Nat} {s : State} (h : Follows keep a₀ (seen s)) : Follows keep a₀ (seen (pioHook id s)) := by
  simp only [pioHook]
  (repeat' split)
  · exact h
  · exact (seen_cfgBack (seen_doSafe ..)).symm ▸ h
  · exact h
  · exact (seen_cfgBack (seen_pwmSafe ..)).symm ▸ h
  · exact h
  · exact h

@[simp] theorem follows_analogConversion {a₀ : Seen} {a : Nat} {code : BitVec 24} {s : State} (h : Follows keep a₀ (seen s)) : Follows keep a₀ (seen (analogConversion a code s)) := by
  simp only [analogConversion]
  split
  · exact h
  · exact Follows.foldl (fun _ _ => follows_applyOne (.refl _)) _ h

@[simp] theorem follows_windowEnd {a₀ : Seen} {s : State} (h : Follows keep a₀ (seen s)) : Follows keep a₀ (seen (windowEnd s)) := by
  simp only [windowEnd]; exact Follows.foldl (fun s x => by simp) _ h

@[simp] theorem follows_recWrite {a₀ : Seen} {id v : Nat} {s : State} (h : Follows keep a₀ (seen s)) : Follows keep a₀ (seen (recWrite id v s)) := by
  simp only [recWrite]
  split
  · exact h
  · have hs : Follows keep a₀ (seen (setP id v (if recSource s (id % 32) != 0 then
        turnPeriod (id % 32) true 0 0 (ptpSec s) (turnPeriod (id % 32) false 0 0 (ptpSec s) s) else s))) := by
      refine follows_setP ?_
      split
      · simpa using h
      · exact h
    exact hs

@[simp] theorem follows_evrWindowEnd {a₀ : Seen} {s : State} (h : Follows keep a₀ (seen s)) : Follows keep a₀ (seen (evrWindowEnd s)) := by
  unfold evrWindowEnd; (repeat' split) <;> simp [h]

@[simp] theorem follows_axisParams {a₀ : Seen} {a : Nat} {s : State} (h : Follows keep a₀ (seen s)) : Follows keep a₀ (seen (axisParams a s)) := by
  have hf : Follows keep a₀ (seen ((List.range 16).foldl (fun s j => applyOne (0x0B10 + 16 * a + j) s) s)) :=
    Follows.foldl (fun _ _ => follows_applyOne (.refl _)) _ h
  simp only [axisParams]
  split
  · split
    · rw [seen_setAxis]; exact hf
    · exact hf
  · exact h

@[simp] theorem follows_profilePeriod {a₀ : Seen} {a : Nat} {m : AxisPeriod} {s : State} (h : Follows keep a₀ (seen s)) : Follows keep a₀ (seen (profilePeriod a m s)) := by
  simp only [profilePeriod]; (repeat' split) <;> simp [h]

@[simp] theorem follows_clockStep {a₀ : Seen} {delta : Int} {source : Nat} {s : State} (h : Follows keep a₀ (seen s)) : Follows keep a₀ (seen (clockStep delta source s)) := by
  unfold clockStep; simp [h]

@[simp] theorem follows_clockSet {a₀ : Seen} {t : Nat} {source : Nat} {s : State} (h : Follows keep a₀ (seen s)) : Follows keep a₀ (seen (clockSet t source s)) := by
  unfold clockSet; simp [h]

@[simp] theorem follows_useOffset {a₀ : Seen} {top : Servo} {off : Int} {s : State} (h : Follows keep a₀ (seen s)) : Follows keep a₀ (seen (useOffset top off s)) := by
  simp only [useOffset]; (repeat' split) <;> simp [h]

@[simp] theorem follows_setUtc {a₀ : Seen} {off : Int} {leap : Nat} {fromMaster : Bool} {s : State} (h : Follows keep a₀ (seen s)) : Follows keep a₀ (seen (setUtc off leap fromMaster s)) := by
  unfold setUtc; (repeat' split) <;> simp [h]

@[simp] theorem follows_takeUtcConfig {a₀ : Seen} {s : State} (h : Follows keep a₀ (seen s)) : Follows keep a₀ (seen (takeUtcConfig s)) := by
  unfold takeUtcConfig; simp [h]

@[simp] theorem follows_servoRestart {a₀ : Seen} {s : State} (h : Follows keep a₀ (seen s)) : Follows keep a₀ (seen (servoRestart s)) := by
  unfold servoRestart; (repeat' split) <;> simp [h]

@[simp] theorem follows_dropMaster {a₀ : Seen} {s : State} (h : Follows keep a₀ (seen s)) : Follows keep a₀ (seen (dropMaster s)) := by
  unfold dropMaster; simp [h]

@[simp] theorem follows_announce {a₀ : Seen} {port : Nat} {a : AnnounceMsg} {s : State} (h : Follows keep a₀ (seen s)) : Follows keep a₀ (seen (announce port a s)) := by
  simp only [announce]; (repeat' split) <;> simp [h]

@[simp] theorem follows_useSync {a₀ : Seen} {port : Nat} {t1 t2 corr : Int} {s : State} (h : Follows keep a₀ (seen s)) : Follows keep a₀ (seen (useSync port t1 t2 corr s)) := by
  unfold useSync; simp [h]

@[simp] theorem follows_syncRx {a₀ : Seen} {port seq : Nat} {twoStep : Bool} {origin : Nat} {corr : Int} {s : State} (h : Follows keep a₀ (seen s)) : Follows keep a₀ (seen (syncRx port seq twoStep origin corr s)) := by
  unfold syncRx; (repeat' split) <;> simp [h]

@[simp] theorem follows_followUp {a₀ : Seen} {port seq : Nat} {origin : Nat} {corr : Int} {s : State} (h : Follows keep a₀ (seen s)) : Follows keep a₀ (seen (followUp port seq origin corr s)) := by
  unfold followUp; (repeat' split) <;> simp [h]

@[simp] theorem follows_syncTimeout {a₀ : Seen} {k : LossKind} {s : State} (h : Follows keep a₀ (seen s)) : Follows keep a₀ (seen (syncTimeout k s)) := by
  unfold syncTimeout; (repeat' split) <;> simp [h]

@[simp] theorem follows_ppsEdge {a₀ : Seen} {rising : Bool} {s : State} (h : Follows keep a₀ (seen s)) : Follows keep a₀ (seen (ppsEdge rising s)) := by
  simp only [ppsEdge]; (repeat' split) <;> simp [h]

@[simp] theorem follows_tickValues {a₀ : Seen} {s : State} (h : Follows keep a₀ (seen s)) : Follows keep a₀ (seen (tickValues s)) := by
  unfold tickValues; (repeat' split) <;> simp [h]

@[simp] theorem follows_timeHook {a₀ : Seen} {id : Nat} {s : State} (h : Follows keep a₀ (seen s)) : Follows keep a₀ (seen (timeHook id s)) := by
  unfold timeHook; (repeat' split) <;> simp [h]

@[simp] theorem follows_timeBoot {a₀ : Seen} {ns : Nat} {s : State} (h : Follows keep a₀ (seen s)) : Follows keep a₀ (seen (timeBoot ns s)) := by
  unfold timeBoot; simp [h]

/-- A second advances by what the calendar finds due. -/
def secondMade (del : Bool) (a next : Nat) (s : State) : State :=
  match s.rtc.dstPending, s.rtc.stepDue with
  | some fwd, _ => dstMake fwd a next s
  | none, some d => rtcSyncStep a d s
  | none, none =>
    let s := if del then rtcAdjust a next s else alarmsCheck a false (repeatEnds (updRtc (fun r => { r with cal := next }) s))
    rtcCompare s

@[simp] theorem seen_secondMade (del : Bool) (a next : Nat) (s : State) : seen (secondMade del a next s) = seen s := by
  unfold secondMade
  split <;> simp

/-- SECOND_BOUNDARY once RTC_ZONE has taken effect. -/
def secondTurned (s : State) : State :=
  let a := s.rtc.cal
  let utc := utcOfCal s (a + 1)
  let s := countCycles (updRtc (fun r => { r with since := s.clock.real }) s)
  if !rtcAlone s && s.time.leap == 1 && utc == (s.time.leapAt : Int) && s.rtc.leapShown != s.time.leapAt then
    updRtc (fun r => { r with leapShown := s.time.leapAt }) s
  else
    let del := !rtcAlone s && leapDeletes s utc
    let step := if del then 2 else 1
    let next := (a + step) % cycleSec
    let wrap := decide (cycleSec ≤ a + step)
    let s := if wrap then updRtc (fun r => { r with wrapped := true }) s else s
    let s := if wrap && !rtcAlone s then post 0x0E01 0 [] 0 s else s
    let s := if del then updRtc (fun r => { r with leapShown := (utc + 1).toNat, leapSkip := none }) s else s
    secondMade del a next s

theorem secondBoundary_eq (s : State) : secondBoundary s = secondTurned (if rtcAlone s then s else applyOne 0x0E13 s) := rfl

theorem seen_secondTurned (s : State) : seen (secondTurned s) = seen s := by
  simp only [secondTurned, seen_ite, seen_updRtc, seen_secondMade, seen_post, seen_countCycles, ite_self]

@[simp] theorem follows_secondBoundary {a₀ : Seen} {s : State} (h : Follows keep a₀ (seen s)) : Follows keep a₀ (seen (secondBoundary s)) := by
  refine .of_seen (seen_secondTurned _) ?_
  split
  · exact h
  · exact follows_applyOne h

@[simp] theorem follows_rtcTempSample {a₀ : Seen} {t : Int} {s : State} (h : Follows keep a₀ (seen s)) : Follows keep a₀ (seen (rtcTempSample t s)) := by
  have hf : Follows keep a₀ (seen ((List.range 17).foldl (fun s k => applyOne (0x0E20 + k) s) (applyOne 0x0E19 s))) :=
    Follows.foldl (fun _ _ => follows_applyOne (.refl _)) _ (follows_applyOne h)
  simp only [rtcTempSample, seen_updRtc]
  split
  · exact h
  · exact hf

@[simp] theorem follows_spoilWorkspace {a₀ : Seen} {d : Bytes} {s : State} (h : Follows keep a₀ (seen s)) : Follows keep a₀ (seen (spoilWorkspace d s)) := by
  unfold spoilWorkspace; (repeat' split) <;> simp [h]

@[simp] theorem follows_countFault {a₀ : Seen} {f : JobFault} {s : State} (h : Follows keep a₀ (seen s)) : Follows keep a₀ (seen (countFault f s)) := by
  unfold countFault; (repeat' split) <;> simp [h]

@[simp] theorem follows_stopEnd {α : Type} {a₀ : Seen} {k : NormsKnown} {run : Except KErr α} {x : JobStop} {s : State}
    (h : Follows keep a₀ (seen s)) : Follows keep a₀ (seen (stopEnd k run x s).2) := by
  unfold stopEnd
  split
  · exact follows_countFault h
  · exact h
  · exact h

@[simp] theorem follows_hostCompletion {a₀ : Seen} {x : Option JobStop} {s : State} (h : Follows keep a₀ (seen s)) : Follows keep a₀ (seen (hostCompletion x s)) := by
  have hs (j : HJob) : Follows keep a₀ (seen (spoilWorkspace j.desc s)) := follows_spoilWorkspace h
  unfold hostCompletion
  split
  · exact h
  · dsimp only
    split
    · exact .of_seen (seen_endHost ..) <| follows_stopEnd (hs _)
    · exact .of_seen (seen_endHost ..) <| hs _
    · split
      · exact .of_seen (seen_endHost ..) <| hs _
      · exact .of_seen (seen_endHost ..) <| Follows.foldl (fun _ _ => follows_jobWrite (.refl _)) _ (hs _)

@[simp] theorem follows_dropRun {a₀ : Seen} {e t : Nat} {s : State} (h : Follows keep a₀ (seen s)) : Follows keep a₀ (seen (dropRun e t s)) := by
  unfold dropRun
  split
  · rw [seen_updTask]
    exact h.trans (follows_setEng fun hs => ⟨(engOf_sound hs e).1, Memory.wf_rollback (engOf_sound hs e).2⟩)
  · exact h

@[simp] theorem follows_dropRuns {a₀ : Seen} {e : Nat} {s : State} (h : Follows keep a₀ (seen s)) : Follows keep a₀ (seen (dropRuns e s)) := by
  simp only [dropRuns]; exact Follows.foldl (fun s x => by simp) _ h

@[simp] theorem follows_stopTasks {a₀ : Seen} {s : State} (h : Follows keep a₀ (seen s)) : Follows keep a₀ (seen (stopTasks s)) := by
  unfold stopTasks; simp [h]

theorem follows_latchRun {a₀ : Seen} {e : Nat} {d : BTask} {rel relMono : Nat} {data : Memory} {s : State} (h : Follows keep a₀ (seen s))
    (hd : Sound (seen s) → Memory.wf data = true) : Follows keep a₀ (seen (latchRun e d rel relMono data s)) := by
  refine h.trans ?_
  have ht : seen (transfer (iCtrl e) (.bank 0) d.inLen s) = seen s := seen_transfer ..
  simp only [latchRun]
  split
  · rw [seen_sendPair, seen_updTask, ← ht]
    exact follows_setEng fun hs => ⟨(engOf_sound hs e).1, Memory.wf_applyForces (hd (ht ▸ hs))⟩
  · rw [seen_updTask, ← ht]
    exact follows_setEng fun hs => ⟨(engOf_sound hs e).1, Memory.wf_applyForces (hd (ht ▸ hs))⟩

theorem Memory.wf_assemble {s : State} {e : Nat} {d : BTask} {x : TaskSt} {rel relMono : Nat} {m : Memory} (h : Memory.wf m = true) :
    Memory.wf (assemble s e d x rel relMono m) = true :=
  Memory.wf_foldl (fun _ _ hm => Memory.wf_writes hm) _ (Memory.wf_writes h)

@[simp] theorem follows_executeRelease {a₀ : Seen} {e : Nat} {d : BTask} {x : TaskSt} {rel relMono : Nat} {s : State} (h : Follows keep a₀ (seen s)) : Follows keep a₀ (seen (executeRelease e d x rel relMono s)) := by
  have hw (s : State) (l : List BIn) : seen (l.foldl (fun s i => readWindow (iCtrl e) i.len s) s) = seen s :=
    seen_foldl (fun _ _ => seen_readWindow ..) _ _
  have hu (l : List BIn) : seen (unmarkInputs e d (ownAxes e d.task (l.foldl (fun s i => readWindow (iCtrl e) i.len s) s))) = seen s :=
    (seen_unmarkInputs ..).trans ((seen_ownAxes ..).trans (hw s l))
  exact follows_latchRun (hu _ ▸ h) fun hs => Memory.wf_assemble (engOf_sound hs e).2

@[simp] theorem follows_abortTask {a₀ : Seen} {e t : Nat} {s : State} (h : Follows keep a₀ (seen s)) : Follows keep a₀ (seen (abortTask e t s)) := by
  have hd := follows_dropRun (e := e) (t := t) h
  simp only [abortTask, seen_taskOutputsSafe, seen_post, seen_updTask, seen_updCtrl]
  exact hd

@[simp] theorem follows_taskFault {a₀ : Seen} {e pc cause addr : Nat} {s : State} (h : Follows keep a₀ (seen s)) : Follows keep a₀ (seen (taskFault e pc cause addr s)) := by
  unfold taskFault
  split
  · have hd (t : Nat) := follows_dropRun (e := e) (t := t) h
    simp only [seen_taskOutputsSafe, seen_post, seen_updTask, seen_updCtrl]
    exact hd _
  · exact h

@[simp] theorem follows_skipRelease {a₀ : Seen} {e : Nat} {d : BTask} {x : TaskSt} {s : State} (h : Follows keep a₀ (seen s)) : Follows keep a₀ (seen (skipRelease e d x s)) := by
  have hs (f : TaskSt → TaskSt) (g : Ctrl → Ctrl) (hg : (g (updTask e d.task f s).ctrl).engines = (updTask e d.task f s).ctrl.engines)
      (c i : Nat) (b : Bytes) : Follows keep a₀ (seen (post c i b 0 (updCtrl g (updTask e d.task f s)))) := by
    rw [seen_post, seen_updCtrl hg, seen_updTask]; exact h
  simp only [skipRelease]
  split
  · exact follows_abortTask (hs _ _ rfl _ _ _)
  · exact hs _ _ rfl _ _ _

/-- An instruction keeps the data TCM canonical. -/
def KeepsData (f : Engine → Run → List Run → CtrlRes) : Prop :=
  ∀ x r below r' m, f x r below = .cont r' m → Memory.wf x.data = true → Memory.wf m = true

theorem KeepsData.of_same {f : Engine → Run → List Run → CtrlRes} (h : ∀ x r below r' m, f x r below = .cont r' m → m = x.data) :
    KeepsData f := fun x r below r' m e hx => h x r below r' m e ▸ hx

theorem follows_runInstr {a₀ : Seen} {e word : Nat} {f : Engine → Run → List Run → CtrlRes} {s : State} (hf : KeepsData f)
    (h : Follows keep a₀ (seen s)) : Follows keep a₀ (seen (runInstr e word f s)) := by
  simp only [runInstr]
  split
  · exact h
  · have hc : (startRun s e (engOf s e)).code = (engOf s e).code := startRun_code ..
    have hw (hs : Sound (seen s)) : Memory.wf (startRun s e (engOf s e)).data = true := startRun_data_wf (engOf_sound hs e).2
    split
    · split
      · exact follows_taskFault (h.trans (follows_setEng fun hs => ⟨hc ▸ (engOf_sound hs e).1, hw hs⟩))
      · rename_i r below _ _ r' m hr
        have hm {t : State} (ht : seen t = seen (setEng e { startRun s e (engOf s e) with data := m, runs := r' :: below } s)) :
            Follows keep a₀ (seen t) :=
          ht ▸ h.trans (follows_setEng fun hs => ⟨hc ▸ (engOf_sound hs e).1, hf _ _ _ _ _ hr (hw hs)⟩)
        have hv : seen (if r'.overflowed && !r.overflowed then
            updCtrl (fun c => { c with journalOverflows := c.journalOverflows + 1 })
              (setEng e { startRun s e (engOf s e) with data := m, runs := r' :: below } s)
            else setEng e { startRun s e (engOf s e) with data := m, runs := r' :: below } s) =
            seen (setEng e { startRun s e (engOf s e) with data := m, runs := r' :: below } s) := by
          split
          · exact seen_updCtrl rfl
          · rfl
        split
        · exact follows_taskFault (hm hv)
        · exact hm hv
    · exact h

@[simp] theorem follows_ctrlCallb {a₀ : Seen} {e d a : Nat} {imm : BitVec 18} {s : State} (h : Follows keep a₀ (seen s)) :
    Follows keep a₀ (seen (ctrlCallb e d a imm s)) := by
  refine follows_runInstr (.of_same fun x r below r' m hr => ?_) h
  dsimp only at hr
  (repeat' split at hr) <;> cases hr <;> rfl

@[simp] theorem follows_ctrlSys {a₀ : Seen} {e d a b fn : Nat} {s : State} (h : Follows keep a₀ (seen s)) :
    Follows keep a₀ (seen (ctrlSys e d a b fn s)) := by
  refine follows_runInstr (.of_same fun x r below r' m hr => ?_) h
  (repeat' split at hr) <;> cases hr <;> rfl

@[simp] theorem follows_ctrlTrap {a₀ : Seen} {e : Nat} {w : W32} {s : State} (h : Follows keep a₀ (seen s)) : Follows keep a₀ (seen (ctrlTrap e w s)) := by
  unfold ctrlTrap
  split
  · exact h
  · exact follows_runInstr (.of_same fun x r below r' m hr => by split at hr <;> cases hr) h

@[simp] theorem follows_ctrlLoadRow {a₀ : Seen} {e kind d a : Nat} {imm : BitVec 18} {err : MemErr} {s : State} (h : Follows keep a₀ (seen s)) : Follows keep a₀ (seen (ctrlLoadRow e kind d a imm err s)) := by
  simp only [ctrlLoadRow]
  split
  · exact h
  · refine follows_runInstr (.of_same fun x r below r' m hr => ?_) ?_
    · split at hr
      · cases hr
      · simp only [ctrlLoad] at hr
        split at hr <;> cases hr
        rfl
    · split
      · split
        · exact h
        · split
          · exact h
          · exact follows_correctable h
        · exact follows_uncorrectable h
      · exact h

@[simp] theorem follows_ctrlStoreRow {a₀ : Seen} {e kind d a : Nat} {imm : BitVec 18} {s : State} (h : Follows keep a₀ (seen s)) : Follows keep a₀ (seen (ctrlStoreRow e kind d a imm s)) := by
  simp only [ctrlStoreRow]
  split
  · exact h
  · refine follows_runInstr (fun x r below r' m hr hx => ?_) ?_
    · simp only [ctrlStore] at hr
      split at hr <;> cases hr
      exact Memory.wf_writes hx
    · split
      · rw [seen_unmark]; exact h
      · exact h

@[simp] theorem follows_publishRun {a₀ : Seen} {e : Nat} {s : State} (h : Follows keep a₀ (seen s)) : Follows keep a₀ (seen (publishRun e s)) := by
  have hs (d : Nat) (x : Engine) (hx : Sound (seen s) → Memory.wf x.code = true ∧ Memory.wf x.data = true) :
      Follows keep a₀ (seen (transfer (iCtrl e) (.bank 0) d (setEng e x s))) :=
    .of_seen (seen_transfer ..) (h.trans (follows_setEng hx))
  have hp {u : State} (hu : Follows keep a₀ (seen u)) (i : Bytes) : Follows keep a₀ (seen { u with pair := { u.pair with images := i } }) := hu
  have hb (c : Prop) [Decidable c] (u : State) : seen (if c then heartbeat u else u) = seen u := by simp
  have hw (hs : Sound (seen s)) (p q : BVar → Bool) :
      Memory.wf (engOf s e).code = true ∧ Memory.wf (applyForces s e p (applyForces s e q (engOf s e).data)) = true :=
    ⟨(engOf_sound hs e).1, Memory.wf_applyForces (Memory.wf_applyForces (engOf_sound hs e).2)⟩
  unfold publishRun
  dsimp only
  split
  · exact h
  · exact .of_seen (hb ..) (hp (.of_seen (seen_updTask ..) (hs _ _ fun k => hw k _ _)) _)

@[simp] theorem follows_ctrlEnd {a₀ : Seen} {e d a b fn : Nat} {s : State} (h : Follows keep a₀ (seen s)) : Follows keep a₀ (seen (ctrlEnd e d a b fn s)) := by
  unfold ctrlEnd
  split
  · exact h
  · exact follows_publishRun (h.trans (follows_setEng fun hs =>
      ⟨(startRun_code s e (engOf s e)).symm ▸ (engOf_sound hs e).1, startRun_data_wf (engOf_sound hs e).2⟩))

@[simp] theorem follows_loadEngine {a₀ : Seen} {b : BImg} {e : Nat} {s : State} (h : Follows keep a₀ (seen s)) : Follows keep a₀ (seen (loadEngine b e s)) := by
  simp only [loadEngine, seen_unmark]
  exact h.trans (follows_setEng fun hs => ⟨Memory.wf_writes (engOf_sound hs e).1, Memory.wf_writes (engOf_sound hs e).2⟩)

@[simp] theorem follows_startImage {a₀ : Seen} {b : BImg} {s : State} (h : Follows keep a₀ (seen s)) : Follows keep a₀ (seen (startImage b s)) := by
  unfold startImage; simp [h]

@[simp] theorem follows_coldStart {a₀ : Seen} {b : BImg} {s : State} (h : Follows keep a₀ (seen s)) : Follows keep a₀ (seen (coldStart b s)) := by
  have hd : Follows keep a₀ (seen (startImage b (dropRuns 1 (dropRuns 0 s)))) := follows_startImage (follows_dropRuns (follows_dropRuns h))
  simp only [coldStart, seen_releaseAxes, seen_outputsSafe, seen_updCtrl]
  exact hd

theorem sound_resetEngines (e : Fin 2) :
    Memory.wf ((tcms Ctrl.reset.engines)[e]).1 = true ∧ Memory.wf ((tcms Ctrl.reset.engines)[e]).2 = true := by
  rw [tcms_getElem, Ctrl.reset, Fin.getElem_fin, Vector.getElem_replicate]
  exact ⟨rfl, rfl⟩

@[simp] theorem follows_ctrlBoot {a₀ : Seen} {s : State} (h : Follows keep a₀ (seen s)) : Follows keep a₀ (seen (ctrlBoot s)) := by
  have hr (c : Ctrl) : Follows keep (seen s) (seen (updCtrl (fun _ =>
      { Ctrl.reset with forces := c.forces, flashA := c.flashA, flashB := c.flashB, selector := c.selector }) s)) :=
    ⟨rfl, rfl, rfl, fun _ => rfl, fun hs => { hs with engines := sound_resetEngines }⟩
  have hm {u : State} (hu : Follows keep a₀ (seen u)) (m : List (Nat × Nat)) :
      Follows keep a₀ (seen { u with intg := { u.intg with marked := m } }) := hu
  unfold ctrlBoot
  dsimp only
  split
  · split
    · exact follows_startImage (hm (h.trans (hr _)) _)
    · exact hm (h.trans (hr _)) _
  · exact hm (h.trans (hr _)) _

theorem Memory.wf_initInstance {b : BImg} {i : BInst} {reinit : Bool} {m : Memory} (h : Memory.wf m = true) :
    Memory.wf (initInstance b i reinit m) = true := Memory.wf_writes (Memory.wf_writes h)

theorem Memory.wf_exchangedData {a b : BImg} {old : Nat → Memory} {e : Nat} (h : Memory.wf (old e) = true) :
    Memory.wf (exchangedData a b old e) = true := by
  refine Memory.wf_foldl (fun m v hm => ?_) _ (Memory.wf_foldl (fun m i hm => ?_) _ h)
  · split
    · split <;> exact Memory.wf_writes hm
    · exact Memory.wf_writes hm
  · split
    · exact Memory.wf_writes hm
    · exact Memory.wf_initInstance hm

theorem follows_setEngs {x y : Engine} {s : State}
    (hx : Sound (seen s) → Memory.wf x.code = true ∧ Memory.wf x.data = true)
    (hy : Sound (seen s) → Memory.wf y.code = true ∧ Memory.wf y.data = true) :
    Follows keep (seen s) (seen (setEng 1 y (setEng 0 x s))) :=
  ⟨rfl, rfl, rfl, fun _ => rfl, fun hs =>
    (follows_setEng (keep := false) fun _ => hy hs).sound ((follows_setEng (keep := false) fun _ => hx hs).sound hs)⟩

theorem Memory.wf_reload {a b : BImg} {k : Nat} {m : Memory} (h : Memory.wf m = true) :
    Memory.wf (if reloads a b k then Memory.writes m 0 (vget b.code k []) else m) = true := by
  split
  · exact Memory.wf_writes h
  · exact h

@[simp] theorem follows_exchange {a₀ : Seen} {s : State} (h : Follows keep a₀ (seen s)) : Follows keep a₀ (seen (exchange s)) := by
  unfold exchange
  split
  · split
    · exact h
    · refine .of_seen (seen_updCtrl rfl) (.of_seen (seen_pruneForces ..) (h.trans (follows_setEngs ?_ ?_)))
      · exact fun hs => ⟨Memory.wf_reload (engOf_sound hs 0).1,
          Memory.wf_exchangedData (old := fun e => (engOf s e).data) (engOf_sound hs 0).2⟩
      · exact fun hs => ⟨Memory.wf_reload (engOf_sound hs 1).1,
          Memory.wf_exchangedData (old := fun e => (engOf s e).data) (engOf_sound hs 1).2⟩
  · exact h

@[simp] theorem follows_latchImage {a₀ : Seen} {d : BTask} {image : Bytes} {s : State} (h : Follows keep a₀ (seen s)) : Follows keep a₀ (seen (latchImage d image s)) := by
  exact follows_latchRun (by simpa [unmarkWhole] using h)
    fun hs => Memory.wf_writes (engOf_sound (by simpa [unmarkWhole] using hs) d.engine).2

@[simp] theorem follows_latchHeld {a₀ : Seen} {held : List HeldRelease} {s : State} (h : Follows keep a₀ (seen s)) : Follows keep a₀ (seen (latchHeld held s)) := by
  unfold latchHeld
  split
  · exact h
  · refine Follows.foldl (fun s d => ?_) _ (by simpa using h)
    dsimp only
    split
    · split
      · exact .refl _
      · split
        · exact follows_latchImage (.refl _)
        · exact follows_executeRelease (by simp)
    · exact .refl _

@[simp] theorem follows_releaseHeld {a₀ : Seen} {held : List HeldRelease} {s : State} (h : Follows keep a₀ (seen s)) : Follows keep a₀ (seen (releaseHeld held s)) := by
  unfold releaseHeld; (repeat' split) <;> simp [h]

@[simp] theorem follows_changeNotMade {a₀ : Seen} {outcome : Nat} {s : State} (h : Follows keep a₀ (seen s)) : Follows keep a₀ (seen (changeNotMade outcome s)) := by
  unfold changeNotMade
  split
  · dsimp only [openVal]
    refine follows_releaseHeld ?_
    rw [seen_completeAll, seen_post, seen_updCtrl rfl]
    exact h
  · exact h

@[simp] theorem follows_changeTick {a₀ : Seen} {s : State} (h : Follows keep a₀ (seen s)) : Follows keep a₀ (seen (changeTick s)) := by
  unfold changeTick; (repeat' split) <;> simp [h]

@[simp] theorem follows_changeDrainTimeout {a₀ : Seen} {s : State} (h : Follows keep a₀ (seen s)) : Follows keep a₀ (seen (changeDrainTimeout s)) := by
  unfold changeDrainTimeout; (repeat' split) <;> simp [h]

@[simp] theorem follows_dropChange {a₀ : Seen} {s : State} (h : Follows keep a₀ (seen s)) : Follows keep a₀ (seen (dropChange s)) := by
  unfold dropChange; (repeat' split) <;> simp [h]

@[simp] theorem follows_latchTick {a₀ : Seen} {s : State} (h : Follows keep a₀ (seen s)) : Follows keep a₀ (seen (latchTick s)) := by
  unfold latchTick; (repeat' split) <;> simp [h]

@[simp] theorem follows_releaseOne {a₀ : Seen} {e : Nat} {d : BTask} {s : State} (h : Follows keep a₀ (seen s)) : Follows keep a₀ (seen (releaseOne e d s)) := by
  simp only [releaseOne]; (repeat' split) <;> simp [h]

@[simp] theorem follows_releaseAbove {a₀ : Seen} {e prio : Nat} {s : State} (h : Follows keep a₀ (seen s)) : Follows keep a₀ (seen (releaseAbove e prio s)) := by
  simp only [releaseAbove]; exact Follows.foldl (fun s x => by simp) _ h

@[simp] theorem follows_taskRelease {a₀ : Seen} {e t : Nat} {s : State} (h : Follows keep a₀ (seen s)) : Follows keep a₀ (seen (taskRelease e t s)) := by
  unfold taskRelease; (repeat' split) <;> simp [h]

@[simp] theorem follows_imageSegment {a₀ : Seen} {e t : Nat} {image : Bytes} {s : State} (h : Follows keep a₀ (seen s)) : Follows keep a₀ (seen (imageSegment e t image s)) := by
  unfold imageSegment; (repeat' split) <;> simp [h]

@[simp] theorem follows_panelSample {a₀ : Seen} {i2c : Option (BitVec 16)} {s : State} (h : Follows keep a₀ (seen s)) : Follows keep a₀ (seen (panelSample i2c s)) := by
  simp only [panelSample]; (repeat' split) <;> simp [h]

@[simp] theorem follows_displayScan {a₀ : Seen} {ok : Bool} {s : State} (h : Follows keep a₀ (seen s)) : Follows keep a₀ (seen (displayScan ok s)) := by
  have ha := follows_applyOne (id := 0x0F13) h
  simp only [displayScan]
  split
  · exact h
  · split
    · exact ha
    · rw [seen_queueClear, seen_post, seen_updEpd]
      exact ha.trans ⟨rfl, rfl, rfl, fun _ => rfl, fun h => { h with blockErrors := tableWf_set h.blockErrors }⟩

@[simp] theorem follows_endSession {a₀ : Seen} {t : Transport} {s : State} (h : Follows keep a₀ (seen s)) : Follows keep a₀ (seen (endSession t s)) := by
  unfold endSession; simp [h]

@[simp] theorem follows_endSessions {a₀ : Seen} {s : State} (h : Follows keep a₀ (seen s)) : Follows keep a₀ (seen (endSessions s)) := by
  exact follows_endSession (follows_endSession (follows_endSession h))

@[simp] theorem follows_zeroise {a₀ : Seen} {s : State} (h : Follows keep a₀ (seen s)) : Follows keep a₀ (seen (zeroise s)) := by
  exact (follows_endSessions h).trans (follows_noSlots rfl rfl)

@[simp] theorem follows_loadRec {a₀ : Seen} {storage : Bytes} {s : State} {r : KeyRec} (h : Follows keep a₀ (seen s)) : Follows keep a₀ (seen (loadRec storage s r)) := by
  unfold loadRec; (repeat' split) <;> simp [h]

@[simp] theorem follows_loadKeys {a₀ : Seen} {prk : Bytes} {s : State} (h : Follows keep a₀ (seen s)) : Follows keep a₀ (seen (loadKeys prk s)) := by
  have hs := follows_putKey (n := 2) (attrs := keyAttrs 2 2 s.sec.lifecycle.code false false true true)
    (key := be 48 (deriveScalar prk (ascii "AKN IMPORT" ++ le 1 s.sec.lifecycle.code)))
    (follows_putKey (n := 1) (attrs := keyAttrs 4 2 s.sec.lifecycle.code false false true true)
      (key := storageKey prk s.sec.lifecycle.code)
      (follows_putKey (n := 0) (attrs := keyAttrs 1 1 1 false false true true) (key := be 48 (deriveScalar prk (ascii "AKN ID"))) h))
  simp only [loadKeys, seen_updSec]
  exact Follows.foldl (fun _ _ => follows_loadRec (.refl _)) _ hs

@[simp] theorem follows_drawWrapKey {a₀ : Seen} {s : State} (h : Follows keep a₀ (seen s)) : Follows keep a₀ (seen (drawWrapKey s)) := by
  exact follows_putKey h

@[simp] theorem follows_destroyClasses {a₀ : Seen} {old : Nat} {s : State} (h : Follows keep a₀ (seen s)) : Follows keep a₀ (seen (destroyClasses old s)) := by
  unfold destroyClasses
  dsimp only
  have hz (f : Sec → Sec) (hc : (f (zeroise s).sec).counters = (zeroise s).sec.counters)
      (hk : (f (zeroise s).sec).slots = (zeroise s).sec.slots) : Follows keep a₀ (seen (updSec f (zeroise s))) := by
    rw [seen_updSec hc hk]
    exact follows_zeroise h
  have he {u : State} (hu : Follows keep a₀ (seen u)) (m : List Entry) : Follows keep a₀ (seen { u with evr := { u.evr with metro := m } }) := hu
  split
  · split
    · refine he ?_ _
      rw [seen_foldl (fun _ _ => seen_wrapRec ..)]
      exact hz _ rfl rfl
    · exact he (hz _ rfl rfl) _
  · split
    · rw [seen_foldl (fun _ _ => seen_wrapRec ..)]
      exact hz _ rfl rfl
    · exact hz _ rfl rfl

@[simp] theorem follows_transitionKeys {a₀ : Seen} {old : Nat} {keyId : Nat} {s : State} (h : Follows keep a₀ (seen s)) : Follows keep a₀ (seen (transitionKeys old keyId s)) := by
  unfold transitionKeys; simp [h]

@[simp] theorem follows_bootTransition {a₀ : Seen} {s : State} (h : Follows keep a₀ (seen s)) : Follows keep a₀ (seen (bootTransition s)) := by
  simp only [bootTransition]; (repeat' split) <;> simp [h]

/-- What BOOT does for the keys once the wrap key is drawn. -/
def keysDerived (s : State) : State :=
  if s.sec.lifecycle = .blank then s else
  let s := if s.sec.root.isNone then createRoot s else s
  match prkOf s with
  | some p => fillKeys (loadKeys p s)
  | none => s

theorem follows_keysDerived {a₀ : Seen} {s : State} (h : Follows keep a₀ (seen s)) : Follows keep a₀ (seen (keysDerived s)) := by
  have hr : Follows keep a₀ (seen (if s.sec.root.isNone then createRoot s else s)) := by simpa using h
  unfold keysDerived
  split
  · exact h
  · dsimp only
    split
    · exact .of_seen (seen_fillKeys _) (follows_loadKeys hr)
    · exact hr

theorem bootKeys_eq (reads : Nat) (s : State) :
    bootKeys reads s = keysDerived (drawWrapKey (bootTransition (updSec (fun x => { x with pufReads := reads }) s))) := rfl

@[simp] theorem follows_bootKeys {a₀ : Seen} {reads : Nat} {s : State} (h : Follows keep a₀ (seen s)) : Follows keep a₀ (seen (bootKeys reads s)) := by
  exact follows_keysDerived (follows_drawWrapKey (follows_bootTransition (.of_seen (seen_updSec rfl rfl) h)))

@[simp] theorem follows_endActivation {a₀ : Seen} {cls outcome : Nat} {s : State} (h : Follows keep a₀ (seen s)) : Follows keep a₀ (seen (endActivation cls outcome s)) := by
  unfold endActivation; (repeat' split) <;> simp [h]

@[simp] theorem follows_switchEffects {a₀ : Seen} {cls restartUs : Nat} {s : State} (h : Follows keep a₀ (seen s)) : Follows keep a₀ (seen (switchEffects cls restartUs s)) := by
  unfold switchEffects; (repeat' split) <;> simp [h]

@[simp] theorem follows_imageSwitch {a₀ : Seen} {cls restartUs : Nat} {selfTest : Bool} {s : State} (h : Follows keep a₀ (seen s)) : Follows keep a₀ (seen (imageSwitch cls restartUs selfTest s)) := by
  unfold imageSwitch
  dsimp only
  have h3 : Follows keep a₀ (seen (if cls = 3 then intervalBoundary s else s)) := by
    split
    · exact follows_intervalBoundary h
    · exact h
  split
  · exact h
  · split
    · split
      · exact follows_endActivation h
      · exact h
    · refine follows_switchEffects (follows_endActivation ?_)
      split
      · rw [seen_metroSwitch]; exact h3
      · exact h3

@[simp] theorem follows_swapTimeout {a₀ : Seen} {s : State} (h : Follows keep a₀ (seen s)) : Follows keep a₀ (seen (swapTimeout s)) := by
  unfold swapTimeout
  split
  · split
    · exact follows_latchHeld (follows_endActivation (by simpa using h))
    · exact h
  · exact h

@[simp] theorem follows_dropActivations {a₀ : Seen} {s : State} (h : Follows keep a₀ (seen s)) : Follows keep a₀ (seen (dropActivations s)) := by
  have hs : Follows keep a₀ (seen ([1, 2, 3, 4, 5, 6, 7].foldl (fun s c => if (imageOf s c).stage = 5 then endActivation c 3 s else s) s)) :=
    Follows.foldl (fun _ _ => by simp) _ h
  unfold dropActivations
  generalize [1, 2, 3, 4, 5, 6, 7].foldl (fun s c => if (imageOf s c).stage = 5 then endActivation c 3 s else s) s = u at hs
  dsimp only
  split
  · exact follows_latchHeld (by rw [seen_updCtrl rfl]; exact hs)
  · exact hs

theorem follows_putSlot {n : Nat} {k : KeySlot} {s : State} :
    Follows keep (seen s) (seen (updSec (fun y => { y with slots := putKeyIn n k y.slots }) s)) :=
  ⟨rfl, rfl, rfl, fun _ => rfl, fun h => { h with slots := putKeyIn_ascending (l := s.sec.slots) h.slots }⟩

@[simp] theorem follows_remask {a₀ : Seen} {s : State} (h : Follows keep a₀ (seen s)) : Follows keep a₀ (seen (remask s)) := by
  have hf (l : List (Nat × KeySlot)) : Follows keep a₀ (seen (l.foldl (fun s x =>
      let (m, s) := trngBytes x.2.share0.length s
      updSec (fun y => { y with
        slots := putKeyIn x.1 ⟨xorBytes x.2.share0 m, xorBytes x.2.share1 m, x.2.attrs⟩ y.slots }) s) s)) :=
    .foldl (fun s _ => .trans (.of_seen (seen_draw s) (.refl _)) follows_putSlot) l h
  unfold remask
  split
  · exact h
  · exact .of_seen (seen_updSec rfl rfl) (hf _)

@[simp] theorem follows_metrologyRestart {a₀ : Seen} {bad : List (Fin 64)} {s : State} (h : Follows keep a₀ (seen s)) : Follows keep a₀ (seen (metrologyRestart bad s)) := by
  unfold metrologyRestart; simp [h]

@[simp] theorem follows_dropLate {a₀ : Seen} {m : Mode} {s : State} (h : Follows keep a₀ (seen s)) : Follows keep a₀ (seen (dropLate m s)) := by
  unfold dropLate; (repeat' split) <;> simp [h]

theorem follows_updSys {a₀ : Seen} {f : Sys → Sys} {s : State} (ht : (f s.sys).triggers = s.sys.triggers)
    (h : Follows false a₀ (seen s)) : Follows false a₀ (seen (updSys f s)) :=
  h.trans ⟨ht, rfl, rfl, nofun, fun hs => { hs with }⟩

@[simp] theorem follows_showMode {a₀ : Seen} {m : Mode} {cause : Nat} {ret : Option Mode} {s : State} (h : Follows false a₀ (seen s)) : Follows false a₀ (seen (showMode m cause ret s)) := by
  have hu {f : Sys → Sys} (ht : (f s.sys).triggers = s.sys.triggers) : Follows false a₀ (seen (updSys f s)) := follows_updSys ht h
  simp only [showMode]
  (repeat' split) <;> (simp only [seen_completeAll, seen_snapSource, seen_post]; exact hu rfl)

@[simp] theorem follows_holdupEnd {a₀ : Seen} {s : State} (h : Follows false a₀ (seen s)) : Follows false a₀ (seen (holdupEnd s)) := by
  unfold holdupEnd
  split
  · rw [seen_hifRestart]
    exact follows_updSys rfl (by simpa using h)
  · exact h

@[simp] theorem follows_modeTo {a₀ : Seen} {m : Mode} {cause : Nat} {ret : Option Mode} {s : State} (h : Follows false a₀ (seen s)) : Follows false a₀ (seen (modeTo m cause ret s)) := by
  have hs := follows_showMode (m := m) (cause := cause) (ret := ret) h
  unfold modeTo; (repeat' split) <;> simp [hs]

@[simp] theorem follows_bootEnter {a₀ : Seen} {m : Mode} {cause : Nat} {s : State} (h : Follows false a₀ (seen s)) : Follows false a₀ (seen (bootEnter m cause s)) := by
  unfold bootEnter; simp [h]

@[simp] theorem follows_endTransition {a₀ : Seen} {t : Transition} {s : State} (h : Follows false a₀ (seen s)) : Follows false a₀ (seen (endTransition t s)) := by
  unfold endTransition; simp [h]

@[simp] theorem follows_takeRole {a₀ : Seen} {s : State} (h : Follows false a₀ (seen s)) : Follows false a₀ (seen (takeRole s)) := by
  unfold takeRole; (repeat' split) <;> simp [h]

@[simp] theorem follows_actTrigger {a₀ : Seen} {t : Mode × Nat} {s : State} (h : Follows false a₀ (seen s)) : Follows false a₀ (seen (actTrigger t s)) := by
  unfold actTrigger; (repeat' split) <;> simp [h]

@[simp] theorem follows_recover {a₀ : Seen} {m : Mode} {s : State} (h : Follows false a₀ (seen s)) : Follows false a₀ (seen (recover m s)) := by
  exact follows_modeTo h

@[simp] theorem follows_cutTransitions {a₀ : Seen} {s : State} (h : Follows false a₀ (seen s)) : Follows false a₀ (seen (cutTransitions s)) := by
  unfold cutTransitions; (repeat' split) <;> simp [h]

@[simp] theorem follows_enterHoldup {a₀ : Seen} {uv : Option Nat} {s : State} (h : Follows false a₀ (seen s)) : Follows false a₀ (seen (enterHoldup uv s)) := by
  unfold enterHoldup; (repeat' split) <;> simp [h]

@[simp] theorem follows_pfwAsserted {a₀ : Seen} {s : State} (h : Follows false a₀ (seen s)) : Follows false a₀ (seen (pfwAsserted s)) := by
  unfold pfwAsserted; simp [h]

@[simp] theorem follows_undervoltage {a₀ : Seen} {rail : Nat} {s : State} (h : Follows false a₀ (seen s)) : Follows false a₀ (seen (undervoltage rail s)) := by
  unfold undervoltage; (repeat' split) <;> simp [h]

@[simp] theorem follows_railLow {a₀ : Seen} {r : Rail} {mv ns : Nat} {s : State} (h : Follows false a₀ (seen s)) : Follows false a₀ (seen (railLow r mv ns s)) := by
  unfold railLow; (repeat' split) <;> simp [h]

@[simp] theorem follows_resetNRelease {a₀ : Seen} {banks : Vector W16 8} {s : State} (h : Follows false a₀ (seen s)) : Follows false a₀ (seen (resetNRelease banks s)) := by
  unfold resetNRelease
  dsimp only
  have hn {u : State} (hu : Follows false a₀ (seen u)) : Follows false a₀ (seen (updPwr (fun p => { p with ioBanks := bankLevels banks })
      (updSys (fun x => { x with inReset := false }) u))) := by
    rw [seen_updPwr, seen_updSys rfl rfl]; exact hu
  have hl : Follows false a₀ (seen (updPwr (fun p => { p with resetNLow := false }) s)) := by rw [seen_updPwr]; exact h
  split
  · split
    · exact follows_enterHoldup (hn hl)
    · exact hn hl
  · exact hl

@[simp] theorem follows_flightWakeEnd {a₀ : Seen} {n : Nat} {s : State} (h : Follows keep a₀ (seen s)) : Follows keep a₀ (seen (flightWakeEnd n s)) := by
  unfold flightWakeEnd; (repeat' split) <;> simp [h]

@[simp] theorem follows_retainedLost {a₀ : Seen} {s : State} {x : Retained × W32} (h : Follows keep a₀ (seen s)) : Follows keep a₀ (seen (retainedLost s x)) := by
  unfold retainedLost; (repeat' split) <;> simp [h]

/-- The blocks whose state MRAM, flash and the always-on domain keep, as BOOT restores it. -/
def restored (x : BootReport) (s : State) : State :=
  let s := copyFaults (x.lost.foldl retainedLost (startFlash x.sfdp s))
  let s := if s.pwr.alwaysOnFresh then restoreCounts s else s
  rtcBoot (recordBackupTamper s)

/-- The blocks that follow the clock. -/
def timed (bad : List (Fin 64)) (s : State) : State :=
  let stop := match s.bill.stop with
    | some t => some t.1.sec
    | none => (chooseSlot s).map fun r => r.at_.sec
  let s := periodsBoot stop (billBoot bad s)
  let s := vaxBoot (sublBoot (nmodBoot (ctrlBoot s)))
  let s := epdBoot s
  let s := setPll 1 true (setPll 0 true s)
  { s with hif := { s.hif with up := true }, pwr := { s.pwr with alwaysOnFresh := false } }

theorem startBlocks_eq (x : BootReport) (s : State) :
    startBlocks x s = timed x.badSlots (timeBoot (ptpOfCal (restored x s)) (restored x s)) := rfl

theorem follows_restored {a₀ : Seen} {x : BootReport} {s : State} (h : Follows keep a₀ (seen s)) : Follows keep a₀ (seen (restored x s)) := by
  have hc : Follows keep a₀ (seen (copyFaults (x.lost.foldl retainedLost (startFlash x.sfdp s)))) :=
    .of_seen (seen_copyFaults _) (.foldl (fun _ _ => follows_retainedLost (.refl _)) _ (.of_seen (seen_startFlash ..) h))
  refine .of_seen (seen_rtcBoot _) (.of_seen (seen_recordBackupTamper _) ?_)
  split
  · exact .of_seen (seen_restoreCounts _) hc
  · exact hc

theorem follows_timed {a₀ : Seen} {bad : List (Fin 64)} {s : State} (h : Follows keep a₀ (seen s)) : Follows keep a₀ (seen (timed bad s)) := by
  have hp {u : State} (hu : Follows keep a₀ (seen u)) (f : Hif) (p : Pwr) : Follows keep a₀ (seen { u with hif := f, pwr := p }) := hu
  refine hp (.of_seen (seen_setPll ..) (.of_seen (seen_setPll ..) (.of_seen (seen_epdBoot _) ?_))) _ _
  refine .of_seen (seen_vaxBoot _) (.of_seen (seen_sublBoot _) (.of_seen (seen_nmodBoot _) (follows_ctrlBoot ?_)))
  exact .of_seen (seen_periodsBoot ..) (follows_billBoot h)

@[simp] theorem follows_startBlocks {a₀ : Seen} {x : BootReport} {s : State} (h : Follows keep a₀ (seen s)) : Follows keep a₀ (seen (startBlocks x s)) := by
  exact follows_timed (follows_timeBoot (follows_restored h))

@[simp] theorem follows_pairListenEnd {a₀ : Seen} {s : State} (h : Follows false a₀ (seen s)) : Follows false a₀ (seen (pairListenEnd s)) := by
  have hu {u : State} (hu : Follows false a₀ (seen u)) (f : Pair → Pair) (hf : (f u.pair).peerDigests = u.pair.peerDigests) :
      Follows false a₀ (seen (updPair f u)) := by
    rw [seen_updPair hf]; exact hu
  unfold pairListenEnd
  split
  · exact h
  · dsimp only
    split
    · split
      · exact follows_bootEnter (follows_timeBoot (hu h _ rfl))
      · exact follows_bootEnter (follows_timeBoot (hu h _ rfl))
    · split
      · exact hu (hu h _ rfl) _ rfl
      · split
        · rw [seen_drivePairOutput]; exact hu (hu h _ rfl) _ rfl
        · exact hu h _ rfl

@[simp] theorem follows_stateSegment {a₀ : Seen} {b : Bytes} {s : State} (h : Follows keep a₀ (seen s)) : Follows keep a₀ (seen (stateSegment b s)) := by
  have hk {u : State} (hu : Follows keep a₀ (seen u)) (n : Nmod) (l : List (List Nat)) :
      Follows keep a₀ (seen (l.foldl (fun s i => match i with
        | e :: a :: d =>
          let x := engOf s e
          if e < 2 then setEng e { x with data := Memory.writes x.data a (d.map (BitVec.ofNat 8)) } s else s
        | _ => s) { u with nmod := n })) := by
    refine Follows.foldl (fun s i => ?_) l hu
    split
    · dsimp only
      split
      · exact follows_setEng fun hs => ⟨(engOf_sound hs _).1, Memory.wf_writes (engOf_sound hs _).2⟩
      · exact .refl _
    · exact .refl _
  unfold stateSegment
  split
  · exact h
  · exact .of_seen (seen_updPair rfl) (hk h _ _)

@[simp] theorem follows_paramHook {a₀ : Seen} {id : Nat} {s : State} (h : Follows keep a₀ (seen s)) : Follows keep a₀ (seen (paramHook id s)) := by
  unfold paramHook; simp [h]

@[simp] theorem follows_storeEntry {a₀ : Seen} {a : Auth} {s : State} {e : PEntry} (h : Follows keep a₀ (seen s)) : Follows keep a₀ (seen (storeEntry a s e)) := by
  unfold storeEntry; (repeat' split) <;> simp [h]

@[simp] theorem follows_baudEffect {a₀ : Seen} {s : State} (h : Follows keep a₀ (seen s)) : Follows keep a₀ (seen (baudEffect s)) := by
  unfold baudEffect; simp [h]

@[simp] theorem follows_baudAfter {a₀ : Seen} {tr : Transport} {s : State} (h : Follows keep a₀ (seen s)) : Follows keep a₀ (seen (baudAfter tr s)) := by
  unfold baudAfter; (repeat' split) <;> simp [h]

@[simp] theorem follows_accept {a₀ : Seen} {p : Pkt} {a : Auth} {w : Wait} {s : State} (h : Follows keep a₀ (seen s)) : Follows keep a₀ (seen (accept p a w s)) := by
  unfold accept; (repeat' split) <;> simp [h]


@[simp] theorem follows_openSession {a₀ : Seen} {tr : Transport} {x : Session} {s : State} (h : Follows keep a₀ (seen s)) : Follows keep a₀ (seen (openSession tr x s)) := by
  unfold openSession; simp [h]



@[simp] theorem follows_replyLeft {a₀ : Seen} {r : Reply} {s : State} (h : Follows keep a₀ (seen s)) : Follows keep a₀ (seen (replyLeft r s)) := by
  unfold replyLeft; (repeat' split) <;> simp [h]

@[simp] theorem follows_readHead {a₀ : Seen} {n : Nat} {s : State} (h : Follows keep a₀ (seen s)) : Follows keep a₀ (seen (readHead n s)) := by
  unfold readHead; (repeat' split) <;> simp [h]

@[simp] theorem follows_readReply {a₀ : Seen} {code n : Nat} {s : State} (h : Follows keep a₀ (seen s)) : Follows keep a₀ (seen (readReply code n s)) := by
  unfold readReply; (repeat' split) <;> simp [h]




@[simp] theorem follows_uartSent {a₀ : Seen} {s : State} (h : Follows keep a₀ (seen s)) : Follows keep a₀ (seen (uartSent s)) := by
  unfold uartSent; (repeat' split) <;> simp [h]

@[simp] theorem follows_sessionIdle {a₀ : Seen} {tr : Transport} {s : State} (h : Follows keep a₀ (seen s)) : Follows keep a₀ (seen (sessionIdle tr s)) := by
  unfold sessionIdle; (repeat' split) <;> simp [h]

@[simp] theorem follows_elapse {a₀ : Seen} {dt : Nat} {s : State} (h : Follows keep a₀ (seen s)) : Follows keep a₀ (seen (elapse dt s)) := by
  unfold elapse; (repeat' split) <;> simp [h]

end Sys2Proof.Machine

/-! The effects of the host commands keep canonical form. -/

namespace Sys2Proof.Machine

/-- Whatever state an effect leads to keeps what is left for the end of the step, and canonical form. -/
def CmdRes.Leaves (a : Seen) : CmdRes → Prop
  | .badParam _ => True
  | .reject _ _ => True
  | .answer _ _ _ _ t => Follows true a (seen t)
  | .done _ _ _ t => Follows true a (seen t)
  | .wait _ t => Follows true a (seen t)
  | .doneThen _ t after => Follows true a (seen t) ∧ ∀ u, Follows true (seen u) (seen (after u))

section
variable (a : Seen) (t : State)

@[simp] theorem leaves_badParam (off : Nat) : (CmdRes.badParam off).Leaves a := trivial
@[simp] theorem leaves_reject (st : Nat) (b : Bytes) : (CmdRes.reject st b).Leaves a := trivial
@[simp] theorem leaves_answer (st fl : Nat) (b : Bytes) (c : Option (Nat × Nat)) :
    (CmdRes.answer st fl b c t).Leaves a ↔ Follows true a (seen t) := .rfl
@[simp] theorem leaves_done (st : Nat) (reg : Bool) (b : Bytes) : (CmdRes.done st reg b t).Leaves a ↔ Follows true a (seen t) := .rfl
@[simp] theorem leaves_ok (b : Bytes) : (CmdRes.ok b t).Leaves a ↔ Follows true a (seen t) := .rfl
@[simp] theorem leaves_wait (w : Wait) : (CmdRes.wait w t).Leaves a ↔ Follows true a (seen t) := .rfl
@[simp] theorem leaves_doneThen (b : Bytes) (f : State → State) :
    (CmdRes.doneThen b t f).Leaves a ↔ Follows true a (seen t) ∧ ∀ u, Follows true (seen u) (seen (f u)) := .rfl

end

@[simp] theorem leaves_checked {a : Seen} {cs : List (Bool × Nat)} {r : CmdRes} (h : r.Leaves a) : (checked cs r).Leaves a := by
  unfold checked
  split
  · trivial
  · exact h

@[simp] theorem leaves_needRandom {s : State} {r : CmdRes} (h : r.Leaves (seen s)) : (needRandom s r).Leaves (seen s) := by
  unfold needRandom
  split
  · exact .refl _
  · exact h

theorem leaves_ite {a : Seen} {c : Prop} [Decidable c] {r q : CmdRes} (hr : r.Leaves a) (hq : q.Leaves a) :
    (if c then r else q).Leaves a := by
  split
  · exact hr
  · exact hq

end Sys2Proof.Machine


/-! What each command of the host does keeps canonical form. -/

namespace Sys2Proof.Machine

theorem leaves_effCalWindow (r : Req) (s : State) : (effCalWindow r s).Leaves (seen s) := by
  simp only [effCalWindow]; (repeat' split) <;> simp

theorem leaves_effBillRead (r : Req) (s : State) : (effBillRead r s).Leaves (seen s) := by
  simp only [effBillRead]; (repeat' split) <;> simp

theorem leaves_effEvrRead (q : Req) (s : State) : (effEvrRead q s).Leaves (seen s) := by
  simp only [effEvrRead]; (repeat' split) <;> simp

theorem leaves_effEvrClear (q : Req) (s : State) : (effEvrClear q s).Leaves (seen s) := by
  unfold effEvrClear; simp

theorem leaves_effVaxMove (r : Req) (s : State) : (effVaxMove r s).Leaves (seen s) := by
  simp only [effVaxMove]; (repeat' split) <;> simp

theorem leaves_effVaxHome (r : Req) (s : State) : (effVaxHome r s).Leaves (seen s) := by
  simp only [effVaxHome]; (repeat' split) <;> simp

theorem leaves_effVaxStatus (r : Req) (s : State) : (effVaxStatus r s).Leaves (seen s) := by
  unfold effVaxStatus; simp

theorem leaves_effTimeSet (q : Req) (s : State) : (effTimeSet q s).Leaves (seen s) := by
  simp only [effTimeSet]; (repeat' split) <;> simp

theorem leaves_effTriggerSet (q : Req) (s : State) : (effTriggerSet q s).Leaves (seen s) := by
  unfold effTriggerSet; simp

theorem leaves_effCaptureGet (q : Req) (s : State) : (effCaptureGet q s).Leaves (seen s) := by
  exact .refl _

theorem leaves_effRegister (p : Bytes) (s : State) : (effRegister p s).Leaves (seen s) := by
  unfold effRegister; apply leaves_checked; (repeat' split) <;> simp

theorem leaves_effUnregister (p : Bytes) (s : State) : (effUnregister p s).Leaves (seen s) := by
  unfold effUnregister; simp

theorem leaves_effSublStatus (p : Bytes) (s : State) : (effSublStatus p s).Leaves (seen s) := by
  unfold effSublStatus; (repeat' split) <;> simp

theorem leaves_effForecast (p : Bytes) (s : State) : (effForecast p s).Leaves (seen s) := by
  unfold effForecast; simp

theorem leaves_effOptConfig (p : Bytes) (s : State) : (effOptConfig p s).Leaves (seen s) := by
  unfold effOptConfig; (repeat' split) <;> simp

theorem leaves_effRtcSet (q : Req) (s : State) : (effRtcSet q s).Leaves (seen s) := by
  unfold effRtcSet; (repeat' split) <;> simp

theorem leaves_effDstAdjust (q : Req) (s : State) : (effDstAdjust q s).Leaves (seen s) := by
  unfold effDstAdjust; (repeat' split) <;> simp

theorem leaves_effAlarmSet (q : Req) (s : State) : (effAlarmSet q s).Leaves (seen s) := by
  unfold effAlarmSet; simp

theorem leaves_effModelLoad (p : Bytes) (s : State) : (effModelLoad p s).Leaves (seen s) := by
  simp only [effModelLoad]; (repeat' split) <;> simp

theorem leaves_effActivate (p : Bytes) (s : State) : (effActivate p s).Leaves (seen s) := by
  simp only [effActivate]; (repeat' split) <;> simp

theorem leaves_effRoundConfig (p : Bytes) (s : State) : (effRoundConfig p s).Leaves (seen s) := by
  unfold effRoundConfig; (repeat' split) <;> simp

theorem leaves_effCalibGet (s : State) : (effCalibGet s).Leaves (seen s) := by
  unfold effCalibGet; simp

theorem leaves_effCalibAdopt (p : Bytes) (s : State) : (effCalibAdopt p s).Leaves (seen s) := by
  unfold effCalibAdopt; (repeat' split) <;> simp

theorem leaves_effJobSubmit (tag : Nat) (p : Bytes) (s : State) : (effJobSubmit tag p s).Leaves (seen s) := by
  unfold effJobSubmit; simp

theorem leaves_effTestWrite (p : Bytes) (s : State) : (effTestWrite p s).Leaves (seen s) := by
  unfold effTestWrite; simp

theorem leaves_effTestRead (p : Bytes) (s : State) : (effTestRead p s).Leaves (seen s) := by
  unfold effTestRead; simp

theorem leaves_effCtrlImageLoad (p : Bytes) (s : State) : (effCtrlImageLoad p s).Leaves (seen s) := by
  simp only [effCtrlImageLoad]; (repeat' split) <;> simp

theorem leaves_effColdStart (p : Bytes) (s : State) : (effColdStart p s).Leaves (seen s) := by
  unfold effColdStart; (repeat' split) <;> simp

theorem leaves_effForceSet (p : Bytes) (keyId : Nat) (s : State) : (effForceSet p keyId s).Leaves (seen s) := by
  unfold effForceSet; simp

theorem leaves_effForceClear (p : Bytes) (keyId : Nat) (s : State) : (effForceClear p keyId s).Leaves (seen s) := by
  refine leaves_checked (.of_seen (seen_foldl (fun _ _ => seen_post ..) _ _) (.of_seen (seen_updCtrl rfl) (.refl _)))

theorem leaves_effForceList (s : State) : (effForceList s).Leaves (seen s) := by
  unfold effForceList; simp

theorem leaves_effTaskControl (p : Bytes) (s : State) : (effTaskControl p s).Leaves (seen s) := by
  unfold effTaskControl; (repeat' split) <;> simp

theorem leaves_effTaskStatus (p : Bytes) (s : State) : (effTaskStatus p s).Leaves (seen s) := by
  simp only [effTaskStatus]; (repeat' split) <;> simp

theorem leaves_effOnlineChange (p : Bytes) (s : State) : (effOnlineChange p s).Leaves (seen s) := by
  simp only [effOnlineChange]; (repeat' split) <;> simp

theorem leaves_effEpdDraw (q : Req) (s : State) : (effEpdDraw q s).Leaves (seen s) := by
  simp only [effEpdDraw]; (repeat' split) <;> simp

theorem leaves_effImageStage (p : Bytes) (s : State) : (effImageStage p s).Leaves (seen s) := by
  simp only [effImageStage]; (repeat' split) <;> simp

theorem leaves_effImageActivate (p : Bytes) (s : State) : (effImageActivate p s).Leaves (seen s) := by
  simp only [effImageActivate]; (repeat' split) <;> simp

theorem leaves_effKeyInstall (p : Bytes) (s : State) : (effKeyInstall p s).Leaves (seen s) := by
  unfold effKeyInstall; simp

theorem leaves_effKeyImport (p : Bytes) (s : State) : (effKeyImport p s).Leaves (seen s) := by
  unfold effKeyImport; apply leaves_checked; (repeat' split) <;> simp

theorem leaves_effKeyGenerate (p : Bytes) (s : State) : (effKeyGenerate p s).Leaves (seen s) := by
  refine leaves_checked (leaves_needRandom ?_)
  split
  · exact .refl _
  · exact follows_putKey (.of_seen (seen_wrapRec ..) (.of_seen (seen_draw s) (.refl _)))

theorem leaves_effKeySign (p : Bytes) (s : State) : (effKeySign p s).Leaves (seen s) := by
  unfold effKeySign
  dsimp only
  split
  · trivial
  · exact leaves_checked (leaves_needRandom (.of_seen (seen_draw s) (.refl _)))

theorem leaves_effKeyDelete (p : Bytes) (s : State) : (effKeyDelete p s).Leaves (seen s) := by
  unfold effKeyDelete; apply leaves_checked; simp

theorem leaves_effAttest (p : Bytes) (s : State) : (effAttest p s).Leaves (seen s) := by
  refine leaves_checked ?_
  split
  · exact .refl _
  · dsimp only
    split
    · exact leaves_needRandom (.of_seen (seen_draw s) (.refl _))
    · exact .refl _

theorem leaves_effIdentityCert (p : Bytes) (s : State) : (effIdentityCert p s).Leaves (seen s) := by
  unfold effIdentityCert; (repeat' split) <;> simp

theorem leaves_effLifecycle (p : Bytes) (keyId : Nat) (s : State) : (effLifecycle p keyId s).Leaves (seen s) := by
  unfold effLifecycle; simp

theorem leaves_effTamperRelease (p : Bytes) (keyId : Nat) (s : State) : (effTamperRelease p keyId s).Leaves (seen s) := by
  unfold effTamperRelease; simp

theorem leaves_effSnapshotTrigger (p : Bytes) (s : State) : (effSnapshotTrigger p s).Leaves (seen s) := by
  unfold effSnapshotTrigger; (repeat' split) <;> simp

theorem leaves_effSnapshotRead (p : Bytes) (s : State) : (effSnapshotRead p s).Leaves (seen s) := by
  unfold effSnapshotRead; (repeat' split) <;> simp

theorem leaves_effFaultRead (p : Bytes) (s : State) : (effFaultRead p s).Leaves (seen s) := by
  simp only [effFaultRead]; (repeat' split) <;> simp

theorem leaves_effModeRequest (p : Bytes) (s : State) : (effModeRequest p s).Leaves (seen s) := by
  unfold effModeRequest; (repeat' split) <;> simp

theorem leaves_effSysReset (p : Bytes) (s : State) : (effSysReset p s).Leaves (seen s) := by
  unfold effSysReset; simp

theorem leaves_effParamWrite (q : Req) (s : State) : (effParamWrite q s).Leaves (seen s) := by
  refine leaves_checked ⟨.foldl (fun _ _ => follows_storeEntry (.refl _)) _ (.refl _), fun u => ?_⟩
  split
  · exact follows_baudAfter (.refl _)
  · exact .refl _

@[simp] theorem seen_readParam (tr : Transport) (id : Nat) (s : State) : seen (readParam tr id s).2 = seen s := by
  unfold readParam
  split
  · exact seen_rtcLatch ..
  · (repeat' split) <;> simp

@[simp] theorem seen_readRun (tr : Transport) (l : List Nat) (s : State) : seen (readRun tr l s).2 = seen s := by
  induction l generalizing s with
  | nil => rfl
  | cons id l ih => exact (ih _).trans (seen_readParam tr id s)

theorem leaves_effParamRead (q : Req) (s : State) : (effParamRead q s).Leaves (seen s) := by
  exact leaves_checked (.of_seen (seen_readRun ..) (.refl _))

theorem leaves_effSysStatus (q : Req) (s : State) : (effSysStatus q s).Leaves (seen s) := by
  unfold effSysStatus; simp

theorem leaves_effCreditSync (q : Req) (s : State) : (effCreditSync q s).Leaves (seen s) := by
  unfold effCreditSync; simp

@[simp] theorem seen_estimate (w : Wait) (s : State) : seen (estimate w s).2 = seen s := by
  unfold estimate
  split
  all_goals try rfl
  · split <;> rfl

theorem leaves_effFetch (q : Req) (s : State) : (effFetch q s).Leaves (seen s) := by
  refine leaves_checked ?_
  split
  · exact .refl _
  · exact .of_seen (seen_estimate ..) (.refl _)
  · exact .refl _

theorem leaves_effRelease (q : Req) (s : State) : (effRelease q s).Leaves (seen s) := by
  unfold effRelease; (repeat' split) <;> simp

theorem leaves_effSessionOpen (q : Req) (s : State) : (effSessionOpen q s).Leaves (seen s) := by
  have he := follows_endSession (keep := true) (t := q.org.tr) (.refl (seen s))
  refine leaves_checked ?_
  have hn {u : State} {r : CmdRes} (hu : Follows true (seen s) (seen u)) (hr : r.Leaves (seen s)) : (needRandom u r).Leaves (seen s) := by
    unfold needRandom
    split
    · exact hu
    · exact hr
  refine hn he ?_
  split
  · exact he
  · exact follows_openSession (.of_seen (seen_draw _) (.of_seen (seen_draw _) (.of_seen (seen_draw _) (.of_seen (seen_draw _) he))))

theorem leaves_effResultGet (q : Req) (s : State) : (effResultGet q s).Leaves (seen s) := by
  simp only [effResultGet]; (repeat' split) <;> simp

end Sys2Proof.Machine

/-! Host commands, however they arrive, keep canonical form. -/

namespace Sys2Proof.Machine

variable {keep : Bool}

/-- The effect of a command leaves what is left for the end of the step and keeps canonical form. -/
def Cmd.Tame (c : Cmd) : Prop := ∀ q s, (c.eff q s).Leaves (seen s)

@[simp] theorem tame_cmdSysStatus : cmdSysStatus.Tame := fun q s => leaves_effSysStatus q s
@[simp] theorem tame_cmdModeRequest : cmdModeRequest.Tame := fun q s => leaves_effModeRequest q.payload s
@[simp] theorem tame_cmdSysReset : cmdSysReset.Tame := fun q s => leaves_effSysReset q.payload s
@[simp] theorem tame_cmdParamRead : cmdParamRead.Tame := fun q s => leaves_effParamRead q s
@[simp] theorem tame_cmdParamWrite : cmdParamWrite.Tame := fun q s => leaves_effParamWrite q s
@[simp] theorem tame_cmdResultFetch : cmdResultFetch.Tame := fun q s => leaves_effFetch q s
@[simp] theorem tame_cmdResultRelease : cmdResultRelease.Tame := fun q s => leaves_effRelease q s
@[simp] theorem tame_cmdSnapshotTrigger : cmdSnapshotTrigger.Tame := fun q s => leaves_effSnapshotTrigger q.payload s
@[simp] theorem tame_cmdSnapshotRead : cmdSnapshotRead.Tame := fun q s => leaves_effSnapshotRead q.payload s
@[simp] theorem tame_cmdCreditSync : cmdCreditSync.Tame := fun q s => leaves_effCreditSync q s
@[simp] theorem tame_cmdSessionOpen : cmdSessionOpen.Tame := fun q s => leaves_effSessionOpen q s
@[simp] theorem tame_cmdJobSubmit : cmdJobSubmit.Tame := fun q s => leaves_effJobSubmit q.hdr.tag q.payload s
@[simp] theorem tame_cmdTestWrite : cmdTestWrite.Tame := fun q s => leaves_effTestWrite q.payload s
@[simp] theorem tame_cmdTestRead : cmdTestRead.Tame := fun q s => leaves_effTestRead q.payload s
@[simp] theorem tame_cmdModelLoad : cmdModelLoad.Tame := fun q s => leaves_effModelLoad q.payload s
@[simp] theorem tame_cmdModelActivate : cmdModelActivate.Tame := fun q s => leaves_effActivate q.payload s
@[simp] theorem tame_cmdRoundConfig : cmdRoundConfig.Tame := fun q s => leaves_effRoundConfig q.payload s
@[simp] theorem tame_cmdResultGet : cmdResultGet.Tame := fun q s => leaves_effResultGet q s
@[simp] theorem tame_cmdOptConfig : cmdOptConfig.Tame := fun q s => leaves_effOptConfig q.payload s
@[simp] theorem tame_cmdForecastLoad : cmdForecastLoad.Tame := fun q s => leaves_effForecast q.payload s
@[simp] theorem tame_cmdCalibGet : cmdCalibGet.Tame := fun _ s => leaves_effCalibGet s
@[simp] theorem tame_cmdCalibAdopt : cmdCalibAdopt.Tame := fun q s => leaves_effCalibAdopt q.payload s
@[simp] theorem tame_cmdSublRegister : cmdSublRegister.Tame := fun q s => leaves_effRegister q.payload s
@[simp] theorem tame_cmdSublUnregister : cmdSublUnregister.Tame := fun q s => leaves_effUnregister q.payload s
@[simp] theorem tame_cmdSublStatus : cmdSublStatus.Tame := fun q s => leaves_effSublStatus q.payload s
@[simp] theorem tame_cmdCtrlImageLoad : cmdCtrlImageLoad.Tame := fun q s => leaves_effCtrlImageLoad q.payload s
@[simp] theorem tame_cmdOnlineChange : cmdOnlineChange.Tame := fun q s => leaves_effOnlineChange q.payload s
@[simp] theorem tame_cmdColdStart : cmdColdStart.Tame := fun q s => leaves_effColdStart q.payload s
@[simp] theorem tame_cmdForceSet : cmdForceSet.Tame := fun q s => leaves_effForceSet q.payload q.auth.keyId s
@[simp] theorem tame_cmdForceClear : cmdForceClear.Tame := fun q s => leaves_effForceClear q.payload q.auth.keyId s
@[simp] theorem tame_cmdForceList : cmdForceList.Tame := fun _ s => leaves_effForceList s
@[simp] theorem tame_cmdTaskControl : cmdTaskControl.Tame := fun q s => leaves_effTaskControl q.payload s
@[simp] theorem tame_cmdTaskStatus : cmdTaskStatus.Tame := fun q s => leaves_effTaskStatus q.payload s
@[simp] theorem tame_cmdCalWindow : cmdCalWindow.Tame := fun q s => leaves_effCalWindow q s
@[simp] theorem tame_cmdBillRead : cmdBillRead.Tame := fun q s => leaves_effBillRead q s
@[simp] theorem tame_cmdVaxMove : cmdVaxMove.Tame := fun q s => leaves_effVaxMove q s
@[simp] theorem tame_cmdVaxHome : cmdVaxHome.Tame := fun q s => leaves_effVaxHome q s
@[simp] theorem tame_cmdVaxStatus : cmdVaxStatus.Tame := fun q s => leaves_effVaxStatus q s
@[simp] theorem tame_cmdTimeSet : cmdTimeSet.Tame := fun q s => leaves_effTimeSet q s
@[simp] theorem tame_cmdTriggerSet : cmdTriggerSet.Tame := fun q s => leaves_effTriggerSet q s
@[simp] theorem tame_cmdCaptureGet : cmdCaptureGet.Tame := fun q s => leaves_effCaptureGet q s
@[simp] theorem tame_cmdRtcSet : cmdRtcSet.Tame := fun q s => leaves_effRtcSet q s
@[simp] theorem tame_cmdDstAdjust : cmdDstAdjust.Tame := fun q s => leaves_effDstAdjust q s
@[simp] theorem tame_cmdAlarmSet : cmdAlarmSet.Tame := fun q s => leaves_effAlarmSet q s
@[simp] theorem tame_cmdEpdDraw : cmdEpdDraw.Tame := fun q s => leaves_effEpdDraw q s
@[simp] theorem tame_cmdEvrRead : cmdEvrRead.Tame := fun q s => leaves_effEvrRead q s
@[simp] theorem tame_cmdEvrClear : cmdEvrClear.Tame := fun q s => leaves_effEvrClear q s
@[simp] theorem tame_cmdAttest : cmdAttest.Tame := fun q s => leaves_effAttest q.payload s
@[simp] theorem tame_cmdLifecycle : cmdLifecycle.Tame := fun q s => leaves_effLifecycle q.payload q.auth.keyId s
@[simp] theorem tame_cmdIdentityCert : cmdIdentityCert.Tame := fun q s => leaves_effIdentityCert q.payload s
@[simp] theorem tame_cmdImageStage : cmdImageStage.Tame := fun q s => leaves_effImageStage q.payload s
@[simp] theorem tame_cmdImageActivate : cmdImageActivate.Tame := fun q s => leaves_effImageActivate q.payload s
@[simp] theorem tame_cmdKeyInstall : cmdKeyInstall.Tame := fun q s => leaves_effKeyInstall q.payload s
@[simp] theorem tame_cmdKeyImport : cmdKeyImport.Tame := fun q s => leaves_effKeyImport q.payload s
@[simp] theorem tame_cmdKeyGenerate : cmdKeyGenerate.Tame := fun q s => leaves_effKeyGenerate q.payload s
@[simp] theorem tame_cmdKeySign : cmdKeySign.Tame := fun q s => leaves_effKeySign q.payload s
@[simp] theorem tame_cmdKeyDelete : cmdKeyDelete.Tame := fun q s => leaves_effKeyDelete q.payload s
@[simp] theorem tame_cmdTamperRelease : cmdTamperRelease.Tame := fun q s => leaves_effTamperRelease q.payload q.auth.keyId s
@[simp] theorem tame_cmdFaultRead : cmdFaultRead.Tame := fun q s => leaves_effFaultRead q.payload s

theorem cmdOf_tame {op : Nat} {c : Cmd} (h : cmdOf op = some c) : c.Tame := by
  unfold cmdOf at h
  split at h
  all_goals cases h
  all_goals simp

/-! ### Acceptance and the answer -/

theorem follows_finish {a : Seen} {tag : Nat} {r : CmdRes} {s : State} (h : Follows keep a (seen s)) (hr : r.Leaves a) :
    Follows keep a (seen (finish tag r s)) := by
  cases r with
  | badParam off => exact .of_seen (seen_complete ..) h
  | reject st b =>
    unfold finish
    dsimp only
    split
    · exact .of_seen (seen_completeFree ..) h
    · refine .of_seen (seen_complete ..) ?_
      split
      · exact .of_seen (seen_post ..) h
      · exact h
  | answer st fl b crcs t => exact hr.loose
  | done st reg b t => exact .of_seen (seen_complete ..) hr.loose
  | doneThen b t after => exact .trans (.of_seen (seen_complete ..) hr.1.loose) (hr.2 _).loose
  | wait w t => exact .of_seen (seen_setWait ..) hr.loose

theorem follows_run {a : Seen} {c : Cmd} (hc : c.Tame) {p : Pkt} {u : Auth} {s : State} (h : Follows keep a (seen s)) :
    Follows keep a (seen (run c p u s)) := by
  unfold run
  dsimp only
  split
  · exact .of_seen (seen_sendPair ..) (follows_accept h)
  · have hr := hc ⟨p.org, p.hdr, p.payload, u⟩ (accept p u .now s)
    have ha : Follows keep a (seen (accept p u .now s)) := follows_accept h
    split
    · rename_i e
      rw [e] at hr
      exact .of_seen (seen_replyTo ..) (ha.trans hr.loose)
    · exact ha.trans (follows_finish (.refl _) hr)

theorem follows_check8 {a : Seen} {c : Cmd} (hc : c.Tame) {p : Pkt} {u : Auth} {s : State} (h : Follows keep a (seen s)) :
    Follows keep a (seen (check8 c p u s)) := by
  unfold check8
  split
  · exact .of_seen (seen_reject ..) h
  · split
    · exact .of_seen (seen_reject ..) h
    · split
      · exact .of_seen (seen_reject ..) h
      · exact .of_seen (seen_reject ..) h
      · exact follows_run hc h

theorem follows_dispatch {a : Seen} {c : Cmd} (hc : c.Tame) {p : Pkt} {s : State} (h : Follows keep a (seen s)) :
    Follows keep a (seen (dispatch c p s)) := by
  unfold dispatch
  split
  · exact .of_seen (seen_reject ..) h
  · split
    · exact .of_seen ((seen_reject ..).trans (seen_touchSession ..)) h
    · exact follows_check8 hc (.of_seen (seen_touchSession ..) h)

theorem follows_inSequence {a : Seen} {c : Option Cmd} (hc : ∀ x, c = some x → x.Tame) {p : Pkt} {s : State}
    (h : Follows keep a (seen s)) : Follows keep a (seen (inSequence c p s)) := by
  unfold inSequence
  split
  · exact .of_seen ((seen_refuse ..).trans (seen_updHif ..)) h
  · split
    · exact .of_seen (seen_refuse ..) h
    · split
      · exact .of_seen (seen_refuse ..) h
      · split
        · exact .of_seen (seen_refuse ..) h
        · exact follows_dispatch (hc _ rfl) h

theorem follows_checks {a : Seen} {c : Option Cmd} (hc : ∀ x, c = some x → x.Tame) {p : Pkt} {s : State}
    (h : Follows keep a (seen s)) : Follows keep a (seen (checks c p s)) := by
  unfold checks
  dsimp only
  split
  · exact .of_seen ((seen_refuse ..).trans (seen_updHif ..)) h
  · exact follows_inSequence hc (.of_seen (seen_setLink ..) h)

@[simp] theorem follows_hostCommand {a : Seen} {c : Cmd} (hc : c.Tame) {q : Env} {pl : Bytes} {s : State} (h : Follows keep a (seen s)) :
    Follows keep a (seen (hostCommand c q pl s)) := by
  unfold hostCommand
  dsimp only
  split
  · exact h
  · split
    · exact .of_seen (seen_updHif ..) h
    · split
      · exact .of_seen (seen_udpDrop ..) h
      · split
        · exact .of_seen (seen_crcError ..) h
        · exact follows_checks (fun x hx => Option.some.inj hx ▸ hc) h

/-! ### Packets as they arrive -/

@[simp] theorem follows_arrive {a : Seen} {org : Origin} {raw : Bytes} {v : VestibuleErr} {s : State} (h : Follows keep a (seen s)) :
    Follows keep a (seen (arrive org raw v s)) := by
  have hv : Follows keep a (seen (match v.err with
      | .none => s
      | .correctable => correctable 0x02 s
      | .uncorrectable => unmark 8 v.addr.toNat (v.addr.toNat + 1) (uncorrectable 8 0x02 v.addr.toNat s))) := by
    split
    · exact h
    · exact follows_correctable h
    · exact .of_seen (seen_unmark ..) (follows_uncorrectable h)
  unfold arrive
  dsimp only
  split
  · exact follows_checks (fun x hx => cmdOf_tame hx) (.of_seen (seen_padHeader ..) hv)
  · exact .of_seen (seen_crcError ..) hv

@[simp] theorem follows_writePacket {a : Seen} {raw : Bytes} {v : VestibuleErr} {s : State} (h : Follows keep a (seen s)) :
    Follows keep a (seen (writePacket raw v s)) := by
  unfold writePacket
  split
  · exact h
  · split
    · exact .of_seen (seen_updHif ..) h
    · exact follows_arrive h

@[simp] theorem follows_datagram {a : Seen} {ip port : Nat} {ok : Bool} {data : Bytes} {v : VestibuleErr} {s : State}
    (h : Follows keep a (seen s)) : Follows keep a (seen (datagram ip port ok data v s)) := by
  unfold datagram
  split
  · exact .of_seen (seen_udpDrop ..) h
  · exact follows_arrive h

@[simp] theorem follows_udpDatagram {a : Seen} {f : UdpFrag} {v : VestibuleErr} {s : State} (h : Follows keep a (seen s)) :
    Follows keep a (seen (udpDatagram f v s)) := by
  unfold udpDatagram
  split
  · exact h
  · split
    · exact follows_datagram h
    · dsimp only
      generalize Reassembly.total _ = t, Reassembly.srcPort _ = port, Reassembly.pieces _ = l
      split_ifs <;> simp [h]

@[simp] theorem follows_uartFrame {a : Seen} {raw : Bytes} {v : VestibuleErr} {s : State} (h : Follows keep a (seen s)) :
    Follows keep a (seen (uartFrame raw v s)) := by
  unfold uartFrame
  split
  · exact h
  · dsimp only
    split
    · exact .of_seen (seen_updHif ..) h
    · split
      · exact .of_seen (seen_updHif ..) h
      · exact follows_arrive h

/-! ### Logged commands (R61) -/

theorem follows_effectNow (s : State) (x : Nat × Req) : Follows keep (seen s) (seen (effectNow s x)) := by
  unfold effectNow
  dsimp only
  split
  · exact .refl _
  · rename_i c hc
    split
    · exact .of_seen ((seen_complete ..).trans (seen_post ..)) (.refl _)
    · have hw : Follows keep (seen s) (seen (setWait x.1 .now s)) := .of_seen (seen_setWait ..) (.refl _)
      exact hw.trans (follows_finish (.refl _) (cmdOf_tame hc _ _))

/-- An effect without its reply. -/
theorem follows_unanswered {a : Seen} {r : CmdRes} {s : State} (h : Follows keep a (seen s)) :
    r.Leaves a → Follows keep a (seen (match r with
      | .done _ _ _ s => s
      | .doneThen _ s after => after s
      | .wait _ s => s
      | _ => s)) := by
  intro hr
  cases r with
  | badParam off => exact h
  | reject st b => exact h
  | answer st fl b crcs t => exact h
  | done st reg b t => exact hr.loose
  | doneThen b t after => exact (hr.1.trans (hr.2 t)).loose
  | wait w t => exact hr.loose

theorem follows_shadowEffect (s : State) (raw : Bytes) : Follows keep (seen s) (seen (shadowEffect s raw)) := by
  have hk (c : Prop) [Decidable c] (n : Nat) : seen (if c then openVal 63 s else (n, s)).2 = seen s := by
    split
    · exact seen_draw s
    · rfl
  unfold shadowEffect
  dsimp only
  split
  · exact .of_seen (hk ..) (.refl _)
  · rename_i c hc
    have hs := hk (!(parsePkt ⟨.xspi, 0, 0⟩ raw).signed && (parsePkt ⟨.xspi, 0, 0⟩ raw).session) (fld (parsePkt ⟨.xspi, 0, 0⟩ raw).sig 0 2)
    exact follows_unanswered (.of_seen hs (.refl _)) (hs ▸ cmdOf_tame hc _ _)

@[simp] theorem follows_loggedEffect {a : Seen} {s : State} (h : Follows keep a (seen s)) : Follows keep a (seen (loggedEffect s)) := by
  have hd : Follows keep a (seen ((dueLogged s).foldl effectNow s)) := .foldl follows_effectNow _ h
  unfold loggedEffect
  dsimp only
  split
  · exact hd
  · refine .foldl (fun s (x : Nat × Bytes) => follows_shadowEffect s x.2) _ (.of_seen ?_ hd)
    exact seen_updPair rfl

end Sys2Proof.Machine


/-! Canonical form through mode triggers and digests, which it does not look at. -/

namespace Sys2Proof.Machine

variable {keep : Bool}

/-- Canonical form does not look at what is left for the end of the step. -/
theorem sound_of_same {a b : Seen} (h : { a with mode := b.mode, triggers := b.triggers, digests := b.digests, pending := b.pending } = b) :
    Sound b ↔ Sound a := by
  rw [← h]
  exact ⟨fun h => ⟨h.engines, h.test, h.locals, h.work, h.ddr, h.cfg, h.counters, h.slots, h.timeouts, h.ceCount, h.blockErrors⟩,
    fun h => ⟨h.engines, h.test, h.locals, h.work, h.ddr, h.cfg, h.counters, h.slots, h.timeouts, h.ceCount, h.blockErrors⟩⟩

@[simp] theorem sound_ite (c : Prop) [Decidable c] (a b : Seen) : Sound (if c then a else b) ↔ if c then Sound a else Sound b := by
  split <;> rfl

theorem sound_foldl_iff {α : Type} {f : State → α → State} (h : ∀ s x, Sound (seen (f s x)) ↔ Sound (seen s)) (l : List α) (s : State) :
    Sound (seen (l.foldl f s)) ↔ Sound (seen s) := by
  induction l generalizing s with
  | nil => rfl
  | cons x l ih => exact (ih _).trans (h s x)

theorem sound_foldl {α : Type} {f : State → α → State} (h : ∀ s x, Sound (seen s) → Sound (seen (f s x))) (l : List α) {s : State}
    (hs : Sound (seen s)) : Sound (seen (l.foldl f s)) := by
  induction l generalizing s with
  | nil => exact hs
  | cons x l ih => exact ih (h s x hs)

@[simp] theorem sound_trigger (m : Mode) (cause : Nat) (s : State) : Sound (seen (trigger m cause s)) ↔ Sound (seen s) := sound_of_same rfl
@[simp] theorem sound_clearTriggers (s : State) : Sound (seen (clearTriggers s)) ↔ Sound (seen s) := sound_of_same rfl
@[simp] theorem sound_digestRx (kind round : Nat) (d : Bytes) (s : State) : Sound (seen (digestRx kind round d s)) ↔ Sound (seen s) :=
  sound_of_same rfl

end Sys2Proof.Machine


/-! Functions that assert a mode trigger or leave a digest: canonical form holds after them exactly when it held before. -/

namespace Sys2Proof.Machine

variable {keep : Bool}

@[simp] theorem sound_fallbackCheck (fails : Nat) (s : State) : Sound (seen (fallbackCheck fails s)) ↔ Sound (seen s) := by
  unfold fallbackCheck; (repeat' split) <;> simp

@[simp] theorem sound_countEst (st : Nat) (s : State) : Sound (seen (countEst st s)) ↔ Sound (seen s) := by
  unfold countEst; simp

@[simp] theorem sound_countOpt (st : Nat) (s : State) : Sound (seen (countOpt st s)) ↔ Sound (seen s) := by
  unfold countOpt; simp

@[simp] theorem sound_publishEst (r : EstRes) (sr : Option StateRound) (s : State) : Sound (seen (publishEst r sr s)) ↔ Sound (seen s) := by
  unfold publishEst; simp

@[simp] theorem sound_closeWith (m : Mizon) (r : EstRun) (it : Iterate) (status flags best : Nat) (s : State) : Sound (seen (closeWith m r it status flags best s)) ↔ Sound (seen s) := by
  simp only [closeWith, openVal]; (repeat' split) <;> simp

@[simp] theorem sound_closeShort (m : Mizon) (r : EstRun) (flags : Nat) (s : State) : Sound (seen (closeShort m r flags s)) ↔ Sound (seen s) := by
  unfold closeShort; (repeat' split) <;> simp

@[simp] theorem sound_nextNewton (m : Mizon) (r : EstRun) (s : State) : Sound (seen (nextNewton m r s)) ↔ Sound (seen s) := by
  unfold nextNewton; (repeat' split) <;> simp

@[simp] theorem sound_applyStep (m : Mizon) (r : EstRun) (dp : List Nat) (s : State) : Sound (seen (applyStep m r dp s)) ↔ Sound (seen s) := by
  unfold applyStep; (repeat' split) <;> simp

@[simp] theorem sound_estJobEnd (kind : NJobKind) (status : Nat) (out : KOut) (s : State) : Sound (seen (estJobEnd kind status out s)) ↔ Sound (seen s) := by
  unfold estJobEnd; (repeat' split) <;> simp

@[simp] theorem seen_resolveBind (m : Mizon) (v : CutVec) (s : State) (b : MBind) (held : Option Nat) :
    seen (resolveBind m v s b held).2 = seen s := by
  unfold resolveBind
  dsimp only
  split
  · split
    · rfl
    · rfl
    · split <;> rfl
  · rfl

@[simp] theorem seen_resolveBinds (m : Mizon) (v : CutVec) (bs : List MBind) (held : List (Option Nat)) (s : State) :
    seen (resolveBinds m v bs held s).2 = seen s := by
  induction bs generalizing held s with
  | nil => rfl
  | cons b bs ih => exact (ih _ _).trans (seen_resolveBind ..)

@[simp] theorem sound_resolveEst (s : State) : Sound (seen (resolveEst s)) ↔ Sound (seen s) := by
  unfold resolveEst
  split
  · split
    · rfl
    · exact (sound_nextNewton ..).trans (iff_of_eq (congrArg Sound (seen_resolveBinds ..)))
  · rfl

@[simp] theorem sound_startEst (round cutSec : Nat) (s : State) : Sound (seen (startEst round cutSec s)) ↔ Sound (seen s) := by
  simp only [startEst]; (repeat' split) <;> simp

@[simp] theorem sound_stallEst (s : State) : Sound (seen (stallEst s)) ↔ Sound (seen s) := by
  unfold stallEst; (repeat' split) <;> simp

@[simp] theorem sound_endRunningEst (s : State) : Sound (seen (endRunningEst s)) ↔ Sound (seen s) := by
  unfold endRunningEst; (repeat' split) <;> simp

@[simp] theorem sound_publishOpt (res : OptRes) (startNs : Nat) (s : State) : Sound (seen (publishOpt res startNs s)) ↔ Sound (seen s) := by
  unfold publishOpt; simp

@[simp] theorem sound_closeOpt (m : Mizon) (r : OptRun) (t : Traj) (status flags best : Nat) (s : State) : Sound (seen (closeOpt m r t status flags best s)) ↔ Sound (seen s) := by
  unfold closeOpt; simp

@[simp] theorem seen_warmTraj (m : Mizon) (r : OptRun) (evaluated : Bool) (s : State) : seen (warmTraj m r evaluated s).2 = seen s := by
  unfold warmTraj
  dsimp only
  split <;> rfl

@[simp] theorem sound_closeOptShort (m : Mizon) (r : OptRun) (flags : Nat) (s : State) : Sound (seen (closeOptShort m r flags s)) ↔ Sound (seen s) := by
  unfold closeOptShort
  split
  · exact sound_closeOpt ..
  · split
    · exact sound_closeOpt ..
    · exact (sound_closeOpt ..).trans (iff_of_eq (congrArg Sound (seen_warmTraj ..)))

@[simp] theorem sound_optPump (s : State) : Sound (seen (optPump s)) ↔ Sound (seen s) := by
  unfold optPump; (repeat' split) <;> simp

@[simp] theorem sound_afterEst (s : State) : Sound (seen (afterEst s)) ↔ Sound (seen s) := by
  unfold afterEst; (repeat' split) <;> simp

@[simp] theorem sound_optIterate (m : Mizon) (r : OptRun) (sol : List Nat) (s : State) : Sound (seen (optIterate m r sol s)) ↔ Sound (seen s) := by
  unfold optIterate; (repeat' split) <;> simp

@[simp] theorem sound_optJobEnd (kind : NJobKind) (status : Nat) (out : KOut) (s : State) : Sound (seen (optJobEnd kind status out s)) ↔ Sound (seen s) := by
  simp only [optJobEnd]; (repeat' split) <;> simp

@[simp] theorem sound_optWaitExpiry (s : State) : Sound (seen (optWaitExpiry s)) ↔ Sound (seen s) := by
  unfold optWaitExpiry; (repeat' split) <;> simp

@[simp] theorem sound_stallOpt (s : State) : Sound (seen (stallOpt s)) ↔ Sound (seen s) := by
  unfold stallOpt
  split
  · rename_i m r _ _
    refine (sound_publishOpt ..).trans ?_
    have hk {u : State} (hu : seen u = seen s) (i : Nat) (b : Bytes) (n : Nmod) :
        Sound (seen { post 0x0402 i b 0 u with nmod := n }) ↔ Sound (seen s) :=
      iff_of_eq (congrArg Sound ((seen_post 0x0402 i b 0 u).trans hu))
    refine hk ?_ _ _ _
    split
    · rfl
    · exact seen_warmTraj ..
  · rfl

@[simp] theorem sound_endRunningOpt (s : State) : Sound (seen (endRunningOpt s)) ↔ Sound (seen s) := by
  unfold endRunningOpt; (repeat' split) <;> simp

@[simp] theorem sound_coreStall (s : State) : Sound (seen (coreStall s)) ↔ Sound (seen s) := by
  unfold coreStall; (repeat' split) <;> simp

@[simp] theorem sound_endNmod (j : NJob) (e : JobEnd) (out : KOut) (s : State) : Sound (seen (endNmod j e out s)) ↔ Sound (seen s) := by
  unfold endNmod; (repeat' split) <;> simp

@[simp] theorem sound_faultEntry (cause block : Nat) (detail : Bytes) (s : State) : Sound (seen (faultEntry cause block detail s)) ↔ Sound (seen s) := by
  unfold faultEntry; simp

@[simp] theorem sound_coreExpiry (core pc : Nat) (tags : List Byte) (s : State) : Sound (seen (coreExpiry core pc tags s)) ↔ Sound (seen s) := by
  unfold coreExpiry; simp

@[simp] theorem sound_matchDigests (s : State) : Sound (seen (matchDigests s)) ↔ Sound (seen s) := by
  refine sound_foldl_iff (fun s d => ?_) _ s
  have hd (f : Pair → Pair) (s : State) : Sound (seen (updPair f s)) ↔ Sound (seen s) := sound_of_same rfl
  split
  · rfl
  · dsimp only
    split
    · exact (hd ..).trans (hd ..)
    · split
      · simp [hd]
      · exact hd ..

@[simp] theorem sound_modeTransitionEnd (s : State) : Sound (seen (modeTransitionEnd s)) ↔ Sound (seen s) := by
  unfold modeTransitionEnd; (repeat' split) <;> simp

@[simp] theorem sound_alwaysOnReset (s : State) : Sound (seen (alwaysOnReset s)) ↔ Sound (seen s) := by
  have hb {u : State} (hu : seen u = seen s) {v : State} (hv : { seen u with mode := v.sys.mode, triggers := [] } = seen v) : Sound (seen v) ↔ Sound (seen s) :=
    hu ▸ sound_of_same (hv ▸ rfl)
  unfold alwaysOnReset
  dsimp only
  refine (iff_of_eq (congrArg Sound (seen_hifRestart ..))).trans (hb (u := periodsLost (rtcRestart (if meteringMode s then
    stopEngines (closeMram { s with bill := { s.bill with orderly := false } }) else closeMram s))) ?_ rfl)
  simp

@[simp] theorem sound_pllTimeout (n : Nat) (s : State) : Sound (seen (pllTimeout n s)) ↔ Sound (seen s) := by
  unfold pllTimeout; (repeat' split) <;> simp

@[simp] theorem sound_takeover (s : State) : Sound (seen (takeover s)) ↔ Sound (seen s) := by
  unfold takeover; (repeat' split) <;> simp

@[simp] theorem sound_startRounds (round sec : Nat) (s : State) : Sound (seen (startRounds round sec s)) ↔ Sound (seen s) := by
  unfold startRounds; simp

@[simp] theorem sound_cutSegment (round index : Nat) (part : Bytes) (s : State) : Sound (seen (cutSegment round index part s)) ↔ Sound (seen s) := by
  unfold cutSegment; (repeat' split) <;> simp

@[simp] theorem sound_cutSeal (s : State) : Sound (seen (cutSeal s)) ↔ Sound (seen s) := by
  unfold cutSeal; (repeat' split) <;> simp

end Sys2Proof.Machine

/-! Canonical form through the ends of jobs, lockstep, tamper, watchdogs, resets, the end of BOOT and the cut. -/

namespace Sys2Proof.Machine

variable {keep : Bool}

theorem Sound.follows {s t : State} (hs : Sound (seen s)) (h : Follows false (seen s) (seen t)) : Sound (seen t) := h.sound hs

theorem Sound.of_seen {s t : State} (hs : Sound (seen s)) (e : seen t = seen s) : Sound (seen t) := e ▸ hs

/-! ### Ends of jobs (R144, R147) -/

theorem sound_nmodCompletion {x : Option JobStop} {s : State} (h : Sound (seen s)) : Sound (seen (nmodCompletion x s)) := by
  unfold nmodCompletion
  split
  · exact h
  · dsimp only
    split
    · exact (sound_endNmod ..).2 (h.follows (follows_stopEnd (.refl _)))
    · exact (sound_endNmod ..).2 (h.of_seen (seen_draw s))
    · split
      · exact (sound_endNmod ..).2 (h.of_seen (seen_draw s))
      · exact (sound_endNmod ..).2 (h.of_seen (seen_draw s))

theorem sound_jobCompletion {host : Bool} {x : Option JobStop} {s : State} (h : Sound (seen s)) :
    Sound (seen (jobCompletion host x s)) := by
  unfold jobCompletion
  split
  · exact h.follows (follows_hostCompletion (.refl _))
  · exact sound_nmodCompletion h

theorem sound_jobDeadlineMiss {host : Bool} {x : JobStop} {s : State} (h : Sound (seen s)) :
    Sound (seen (jobDeadlineMiss host x s)) := by
  unfold jobDeadlineMiss
  split
  · split
    · exact h.follows (follows_hostCompletion (.refl _))
    · exact h
  · split
    · exact sound_nmodCompletion h
    · exact h
  · exact h

theorem sound_startNmod {s : State} (h : Sound (seen s)) : Sound (seen (startNmod s)) := by
  have hr (r : List NJob) : Sound (seen { s with solv := { s.solv with ring := r } }) := h
  unfold startNmod
  split
  · split
    · dsimp only
      split
      · exact (sound_endNmod ..).2 ((hr _).of_seen (seen_draw _))
      · refine h.follows ?_
        exact .of_seen (seen_startReads ..) (follows_reloadWork (.of_seen (seen_setFlights ..) (Follows.refl (seen s))))
    · exact h
  · exact h

theorem sound_jobStart {host : Bool} {s : State} (h : Sound (seen s)) : Sound (seen (jobStart host s)) := by
  unfold jobStart
  split
  · exact h.of_seen (seen_startHost s)
  · exact sound_startNmod h

/-! ### Lockstep (R263, R264) -/

theorem sound_lockstepUnrecovered {e : Nat} {s : State} (h : Sound (seen s)) : Sound (seen (lockstepUnrecovered e s)) := by
  have ht {u : State} (hu : Sound (seen u)) (c : Prop) [Decidable c] : Sound (seen (if c then trigger .safe 7 u else u)) := by
    split
    · exact (sound_trigger ..).2 hu
    · exact hu
  have hs (p : Bytes) : Sound (seen (stopTasks (post 0x0605 0 p 0 (draw s)))) :=
    h.follows (follows_stopTasks (.of_seen ((seen_post ..).trans (seen_draw s)) (.refl _)))
  exact ht ((hs _).of_seen
    ((seen_snapSource ..).trans ((seen_axesSafe ..).trans ((seen_outputsSafe ..).trans (seen_updCtrl rfl))))) _

/-- A mismatch once its time is noted: not recovered where a rollback or a third mismatch forbids it. -/
def mismatchTaken (e : Nat) (forbidden : Bool) (s : State) : State :=
  let x := engOf s e
  match x.runs with
  | [] =>
    if forbidden then lockstepUnrecovered e s
    else
      let s := setEng e { x with regs := zeroRegs } s
      snapSource 4 (post 0x0604 e [] 0 (updCtrl (fun c => { c with recovered := c.recovered + 1 }) s))
  | r :: below =>
    if forbidden || r.again || r.overflowed then lockstepUnrecovered e s
    else
      let entry := (taskDef s e r.task).elim 0x40000 (·.entry)
      let r' : Run :=
        { r with
          started := false, pc := BitVec.ofNat 32 entry, links := [], journal := [], div0 := false, again := true }
      let s := setEng e { x with regs := zeroRegs, data := rollback r x.data, runs := r' :: below } s
      let s := updTask e r.task (fun y => { y with journalPeak := max y.journalPeak r.journal.length }) s
      snapSource 4 (post 0x0604 e [] 0 (updCtrl (fun c => { c with recovered := c.recovered + 1 }) s))

theorem lockstepMismatch_eq (e : Nat) (inRollback : Bool) (s : State) :
    lockstepMismatch e inRollback s =
      if s.sys.inReset || s.sys.mode == .backup then s
      else
        mismatchTaken e
          (inRollback || decide (2 ≤ ((engOf s e).mismatches.filter fun t => decide (monoUs s < t + 60000000)).length))
          (setEng e
            { engOf s e with
              mismatches := monoUs s :: (engOf s e).mismatches.filter fun t => decide (monoUs s < t + 60000000) } s) := rfl

theorem sound_mismatchTaken {e : Nat} {f : Bool} {s : State} (h : Sound (seen s)) : Sound (seen (mismatchTaken e f s)) := by
  have hset {x : Engine} (hx : Memory.wf x.code = true ∧ Memory.wf x.data = true) : Sound (seen (setEng e x s)) :=
    h.follows (follows_setEng fun _ => hx)
  have he := engOf_sound h e
  unfold mismatchTaken
  dsimp only
  split
  · split
    · exact sound_lockstepUnrecovered h
    · exact (hset (x := { engOf s e with regs := zeroRegs }) he).of_seen
        ((seen_snapSource ..).trans ((seen_post ..).trans (seen_updCtrl rfl)))
  · rename_i r below _
    split
    · exact sound_lockstepUnrecovered h
    · have hr (q : Run) : Sound (seen (setEng e
          { engOf s e with regs := zeroRegs, data := rollback r (engOf s e).data, runs := q :: below } s)) :=
        hset ⟨he.1, Memory.wf_rollback he.2⟩
      exact (hr _).of_seen
        ((seen_snapSource ..).trans ((seen_post ..).trans ((seen_updCtrl rfl).trans (seen_updTask ..))))

theorem sound_lockstepMismatch {e : Nat} {r : Bool} {s : State} (h : Sound (seen s)) : Sound (seen (lockstepMismatch e r s)) := by
  rw [lockstepMismatch_eq]
  split
  · exact h
  · exact sound_mismatchTaken (h.follows (follows_setEng fun hs => engOf_sound hs e))

/-! ### Tamper (R520 to R525) -/

/-- A detection once it is latched. -/
def tamperTaken (sit : Nat) (t : Tamp) (s : State) : State :=
  if sit = 0 then { s with tamp := { t with unrecorded := t.unrecorded ++ [(t.sources, 0, t.count.toNat, t.first)] } }
  else
    let s := snapSource 9 (tamperEvent t.sources sit t.count.toNat t.first 0 s)
    match sit with
    | 1 => s
    | 4 => s
    | 5 => zeroise s
    | _ => trigger .lockdown 5 (zeroise (dropActivations s))

theorem sound_tamperTaken {sit : Nat} {t : Tamp} {s : State} (h : Sound (seen s)) : Sound (seen (tamperTaken sit t s)) := by
  have he : Sound (seen (snapSource 9 (tamperEvent t.sources sit t.count.toNat t.first 0 s))) := by simpa using h
  unfold tamperTaken
  split
  · exact h
  · dsimp only
    split
    · exact he
    · exact he
    · exact he.follows (follows_zeroise (.refl _))
    · exact (sound_trigger ..).2 (he.follows (follows_zeroise (follows_dropActivations (.refl _))))

theorem sound_tamper {k : Nat} {s : State} (h : Sound (seen s)) : Sound (seen (tamper k s)) := by
  have hm (t : Tamp) (c : Prop) [Decidable c] :
      Sound (seen (if c then markTamper { s with tamp := t } else { s with tamp := t })) := by
    split
    · exact h.of_seen (seen_markTamper _)
    · exact h
  unfold tamper
  split
  · exact h
  · exact sound_tamperTaken (hm _ _)

theorem sound_tamperSign {x : TamperSign} {s : State} (h : Sound (seen s)) : Sound (seen (tamperSign x s)) := by
  unfold tamperSign
  cases tamperSource x s with
  | none => exact h
  | some k => exact sound_tamper h

theorem sound_meshComparison {loop : Nat} {m : Bool} {s : State} (h : Sound (seen s)) : Sound (seen (meshComparison loop m s)) := by
  unfold meshComparison
  dsimp only
  (repeat' split)
  · exact h
  · exact h
  · exact h
  · exact sound_tamper h
  · exact h

/-! ### Memory errors and watchdogs (R529 to R534) -/

theorem sound_watchdogExpiry {e : WdtEngine} {s : State} (h : Sound (seen s)) : Sound (seen (watchdogExpiry e s)) := by
  unfold watchdogExpiry
  split
  · simpa using h
  · split
    · exact h
    · split <;> simpa using h
  · split
    · exact (sound_faultEntry ..).2 (h.follows (follows_zeroise (by simp)))
    · exact h
  · split
    · refine (sound_faultEntry ..).2 (h.of_seen ?_)
      simp
    · exact h
  · split
    · exact h
    · exact h.follows (follows_metrologyRestart (by simp))
  · split <;> simpa using h
  · split <;> simpa using h

theorem sound_wordUsed {mem addr : Nat} {u : WordUse} {s : State} (h : Sound (seen s)) : Sound (seen (wordUsed mem addr u s)) := by
  unfold wordUsed
  split
  · split
    · exact (sound_faultEntry ..).2 h
    · exact h
  · split
    · exact h.of_seen (seen_failCommands ..)
    · exact h
  · split
    · exact h.follows (follows_metrologyRestart (.refl _))
    · exact h
  · split
    · exact (sound_faultEntry ..).2 (h.follows (follows_zeroise (.refl _)))
    · exact h

theorem sound_scrubFinding {s : State} {f : ScrubFinding} (h : Sound (seen s)) : Sound (seen (scrubFinding s f)) := by
  unfold scrubFinding
  dsimp only
  split
  · exact h
  · split
    · exact h.follows (follows_correctable (.refl _))
    · have hu : Sound (seen (uncorrectable f.mem.val (memBlock f.mem.val f.addr.toNat f.owner.val) f.addr.toNat s)) :=
        h.follows (follows_uncorrectable (.refl _))
      split
      · exact sound_wordUsed hu
      · exact hu

theorem sound_scrubPass {fs : List ScrubFinding} {s : State} (h : Sound (seen s)) : Sound (seen (scrubPass fs s)) := by
  unfold scrubPass
  split
  · have hf : Sound (seen (fs.foldl scrubFinding s)) := sound_foldl (fun _ _ => sound_scrubFinding) fs h
    exact hf.follows (follows_applyOne (.of_seen (seen_updIntg rfl rfl rfl) (.refl _)))
  · exact h

theorem sound_galleryTimeout {t i a : Nat} {p0 : Bool} {s : State} (h : Sound (seen s)) :
    Sound (seen (galleryTimeout t i a p0 s)) := by
  have hi (n : Nat) : Sound (seen (updIntg (fun x => { x with timeouts := tableSet (fun _ => 0) x.timeouts t n }) s)) :=
    { h with timeouts := tableWf_set h.timeouts }
  have hg (n : Nat) (f : Gallery → Gallery) (o : List Output) (b : Bytes) :
      Sound (seen (snapSource 10 (post 0x1302 0 b 0 { updGal f (updIntg (fun x => { x with timeouts := tableSet (fun _ => 0) x.timeouts t n }) s)
        with out := o }))) :=
    (hi n).of_seen ((seen_snapSource ..).trans (seen_post ..))
  unfold galleryTimeout
  split
  · exact h
  · dsimp only
    split
    · exact (sound_faultEntry ..).2 (hg _ _ _ _)
    · exact hg _ _ _ _

/-! ### The end of the tick (R45) -/

theorem sound_arbitrate {s : State} (h : Sound (seen s)) : Sound (seen (arbitrate s)) := by
  unfold arbitrate
  split
  · exact ((sound_clearTriggers s).2 h).follows (follows_actTrigger (.refl _))
  · exact h

theorem sound_settle {s : State} (h : Sound (seen s)) : Sound (seen (settle s)) := by
  unfold settle
  refine (sound_clearTriggers _).2 ?_
  split
  · exact sound_arbitrate h
  · exact (sound_matchDigests _).2 (sound_arbitrate h)

theorem sound_endRow {q : List Instr} {s : State} (h : Sound (seen s)) : Sound (seen (endRow q s)) := by
  unfold endRow
  split
  · exact h
  · exact sound_settle h

/-! ### Resets (R556, R557) -/

theorem sound_mainReset {code : Nat} {banks : Byte} {s : State} (h : Sound (seen s)) : Sound (seen (mainReset code banks s)) := by
  have hp : Sound (seen (paramsReset (periodsHold (epdStop s)))) := h.follows (follows_paramsReset (by simp))
  have hq {u : State} (hu : Sound (seen u)) (c : Prop) [Decidable c] (d : Bytes) :
      Sound (seen (if c then post 0x0101 0 d 0 u else u)) := by
    split
    · exact hu.of_seen (seen_post ..)
    · exact hu
  refine hq (Sound.of_seen ?_ (seen_hifRestart _)) _ _
  exact ⟨sound_resetEngines, rfl, fun k => congrArg Region.wf (Vector.getElem_replicate k.isLt), rfl, rfl, hp.cfg, hp.counters, .nil,
    rfl, rfl, rfl⟩

theorem sound_mainResetRow {banks : Vector W16 8} {s : State} (h : Sound (seen s)) : Sound (seen (mainResetRow banks s)) := by
  unfold mainResetRow
  split
  · split
    · refine sound_mainReset ?_
      split
      · exact h.of_seen (seen_abruptStop ..)
      · exact h
    · exact h
  · exact h

theorem sound_resetN {s : State} (h : Sound (seen s)) : Sound (seen (resetN s)) := by
  have hl : Sound (seen (updPwr (fun p => { p with resetNLow := true }) s)) := h.of_seen (seen_updPwr ..)
  unfold resetN
  dsimp only
  split
  · exact hl
  · exact (sound_mainReset (hl.of_seen (seen_abruptStop ..))).of_seen (seen_updSys rfl rfl)

theorem sound_backupExit {banks : Vector W16 8} {s : State} (h : Sound (seen s)) : Sound (seen (backupExit banks s)) := by
  unfold backupExit
  split
  · exact (sound_mainReset h).of_seen (seen_updPwr ..)
  · exact h

/-! ### The end of BOOT and the cut (R28, R42, R516) -/

theorem seen_bootImages (bad : Nat) (s : State) : seen (bootImages bad s).1 = seen s := by
  unfold bootImages
  refine List.foldlRecOn (motive := fun x : State × Bool => seen x.1 = seen s) _ _ rfl fun x hx cls _ => ?_
  dsimp only
  split
  · simpa using hx
  · split
    · simpa using hx
    · exact hx

/-- The end of BOOT once the blocks have started. -/
def bootTurned (pufReads : Nat) (latched : Bool) (bad : Option Bytes) (fault : Option (Nat × Nat × Bytes)) (s : State) : State :=
  match bad, fault with
  | some d, _ => bootEnter .fault 6 (updSys (fun y => { y with triggers := [] }) (faultEntry 0x22 0x11 d s))
  | none, some (c, b, d) => bootEnter .fault 6 (updSys (fun y => { y with triggers := [] }) (faultEntry c b d s))
  | none, none =>
    if latched then bootEnter .lockdown 5 s
    else
      let s := bootKeys pufReads s
      let (m, c) := bootTarget s
      if m = .run ∧ paired s = true then updPair (fun p => { p with listening := some (m, c), heard := false }) s
      else bootEnter m c s

theorem sound_bootTurned {n : Nat} {l : Bool} {bad : Option Bytes} {fault : Option (Nat × Nat × Bytes)} {s : State}
    (h : Sound (seen s)) : Sound (seen (bootTurned n l bad fault s)) := by
  have hf (c b : Nat) (d : Bytes) : Sound (seen (updSys (fun y => { y with triggers := [] }) (faultEntry c b d s))) :=
    (sound_of_same rfl).2 ((sound_faultEntry c b d s).2 h)
  have hk : Sound (seen (bootKeys n s)) := h.follows (follows_bootKeys (.refl _))
  unfold bootTurned
  split
  · exact (hf _ _ _).follows (follows_bootEnter (.refl _))
  · exact (hf _ _ _).follows (follows_bootEnter (.refl _))
  · split
    · exact h.follows (follows_bootEnter (.refl _))
    · dsimp only
      split
      · exact hk.of_seen (seen_updPair rfl)
      · exact hk.follows (follows_bootEnter (.refl _))

theorem bootEnd_eq (x : BootReport) (s : State) :
    bootEnd x s =
      if s.sys.mode ≠ .boot ∨ s.sys.inReset = true ∨ s.pair.listening.isSome = true then s
      else
        bootTurned (x.pufReads.val + 1) s.tamp.set_ (imageFault s x.badFlash.toNat) (x.fault.bind (bootFault s s.tamp.set_))
          (countBoot (startBlocks x (bootImages x.badFlash.toNat s).1)) := rfl

theorem sound_bootEnd {x : BootReport} {s : State} (h : Sound (seen s)) : Sound (seen (bootEnd x s)) := by
  rw [bootEnd_eq]
  split
  · exact h
  · refine sound_bootTurned (h.follows ?_)
    exact .of_seen (seen_countBoot _) (follows_startBlocks (.of_seen (seen_bootImages ..) (.refl _)))

@[simp] theorem seen_carryState (old : Option Mizon) (n : NetState) (m : Mizon) (v : CutVec) (s : State) :
    seen (carryState old n m v s).2 = seen s := rfl

@[simp] theorem seen_activateAt (c : Nat) (s : State) : seen (activateAt c s).1 = seen s := by
  unfold activateAt
  split
  · rfl
  · split
    · rfl
    · exact (seen_completeAll ..).trans (seen_cancelOpt s)

theorem sound_roundsEnded {c : Bool} {s : State} (h : Sound (seen s)) :
    Sound (seen (if c then afterEst (endRunningEst s) else s)) := by
  split
  · simpa using h
  · exact h

theorem sound_cutActivated {sec : Nat} {s : State} (h : Sound (seen s)) :
    Sound (seen (if s.sys.mode = .fault then s else (activateAt sec s).1)) := by
  split
  · exact h
  · exact h.of_seen (seen_activateAt ..)

/-- The rounds that a cut starts. -/
def cutStarts (sec round : Nat) (s : State) : State :=
  if roundsRun s then
    calibCut
      (if s.sys.mode = .shadow then { s with nmod := { s.nmod with cutOpen := !skipsRound round s } }
      else if monoUs s < s.sys.coresUntil then { s with nmod := { s.nmod with optExtra := false } }
      else startRounds round sec s)
  else { s with nmod := { s.nmod with optExtra := false } }

theorem sound_cutStarts {sec round : Nat} {s : State} (h : Sound (seen s)) : Sound (seen (cutStarts sec round s)) := by
  unfold cutStarts
  split
  · refine Sound.of_seen ?_ (seen_calibCut _)
    split
    · exact h
    · split
      · exact h
      · exact (sound_startRounds ..).2 h
  · exact h

theorem sound_cut {s : State} (h : Sound (seen s)) : Sound (seen (cut s)) := by
  unfold cut
  extract_lets sec this
  split
  · exact h
  next =>
    rename_i subl taken round sampled frozen subl' opened windowed listed moved ended activated nmod started _
    have ht : Sound (seen taken) := h.of_seen (seen_takeConfigs ..)
    have hs : Sound (seen sampled) :=
      ht.follows (follows_applyBoundary (.of_seen (seen_takeSample taken) (.refl _)))
    have hf : Sound (seen frozen) :=
      hs.of_seen ((seen_freezeReports _).trans ((seen_publishPage2 ..).trans (seen_publishPage0 ..)))
    have ho : Sound (seen opened) := by
      unfold opened
      split
      · exact hf
      · exact hf
    have hl : Sound (seen listed) :=
      ho.of_seen ((seen_imagesDigest ..).trans ((seen_sublOps _).trans ((seen_readWindow ..).trans (seen_readWindow ..))))
    have hs : Sound (seen started) :=
      sound_cutStarts (sound_cutActivated (sound_roundsEnded (hl.follows (follows_cutTransitions (.refl _)))))
    exact hs.of_seen ((seen_gateFlights _).trans (seen_sendState _))

end Sys2Proof.Machine


/-! Every row of the table keeps what canonical form says. -/

namespace Sys2Proof.Machine

/-- A function that leads from a sound state to a sound state. -/
def Keeps (f : State → State) : Prop := ∀ s, Sound (seen s) → Sound (seen (f s))

theorem Keeps.of {f : State → State} (h : ∀ s, Sound (seen s) → Sound (seen (f s))) : Keeps f := h

theorem Keeps.of_iff {f : State → State} (h : ∀ s, Sound (seen (f s)) ↔ Sound (seen s)) : Keeps f := fun s hs => (h s).2 hs

theorem Keeps.of_seen {f : State → State} (h : ∀ s, seen (f s) = seen s) : Keeps f := fun s hs => Sound.of_seen hs (h s)

theorem Keeps.of_follows {f : State → State} (h : ∀ s, Follows false (seen s) (seen (f s))) : Keeps f := fun s hs => hs.follows (h s)

theorem Keeps.host {c : Cmd} {q : Env} {pl : Bytes} (h : c.Tame) : Keeps (hostCommand c q pl) :=
  .of_follows fun _ => follows_hostCommand h (.refl _)

theorem Keeps.event {f : State → State} {dt : Nat} {s t : State} (hf : Keeps f) (h : Sound (seen s))
    (ht : event dt f s = .next t) : Sound (seen t) := by
  cases ht
  exact (sound_of_same rfl).2 (sound_endRow (hf _ (h.follows (follows_elapse (.refl _)))))

theorem Keeps.pairTaken {f : State → State} {kind : Nat} {body tag : Bytes} (hf : Keeps f) : Keeps (pairTaken kind body tag f) := by
  intro s h
  unfold Machine.pairTaken
  split
  · exact h
  · split
    · exact hf s h
    · exact h.of_seen (seen_updPair rfl)

theorem Keeps.runInstr {f : Engine → Run → List Run → CtrlRes} {e word : Nat} (hf : KeepsData f) : Keeps (runInstr e word f) :=
  .of_follows fun _ => follows_runInstr hf (.refl _)

theorem keeps_ctrlAlu {e d a b fn : Nat} : Keeps (ctrlAlu e d a b fn) :=
  .runInstr (.of_same fun _ _ _ _ _ hr => by dsimp only at hr; split at hr <;> cases hr; rfl)

theorem keeps_ctrlFpu {e d a b fn : Nat} : Keeps (ctrlFpu e d a b fn) :=
  .runInstr (.of_same fun _ _ _ _ _ hr => by split at hr <;> cases hr; rfl)

theorem keeps_ctrlAddi {e d a : Nat} {imm : BitVec 18} : Keeps (ctrlAddi e d a imm) :=
  .runInstr (.of_same fun _ _ _ _ _ hr => by cases hr; rfl)

theorem keeps_ctrlLogic {e kind d a : Nat} {imm : BitVec 18} : Keeps (ctrlLogic e kind d a imm) :=
  .runInstr (.of_same fun _ _ _ _ _ hr => by cases hr; rfl)

theorem keeps_ctrlLui {e d a : Nat} {imm : BitVec 18} : Keeps (ctrlLui e d a imm) :=
  .runInstr (.of_same fun _ _ _ _ _ hr => by split at hr <;> cases hr; rfl)

theorem keeps_ctrlBranch {e kind d a : Nat} {imm : BitVec 18} : Keeps (ctrlBranch e kind d a imm) :=
  .runInstr (.of_same fun _ _ _ _ _ hr => by cases hr; rfl)

theorem keeps_ctrlJmp {e : Nat} {off : BitVec 26} : Keeps (ctrlJmp e off) :=
  .runInstr (.of_same fun _ _ _ _ _ hr => by cases hr; rfl)

theorem keeps_ctrlCall {e : Nat} {off : BitVec 26} : Keeps (ctrlCall e off) :=
  .runInstr (.of_same fun _ _ _ _ _ hr => by split at hr <;> cases hr; rfl)

theorem keeps_ctrlRet {e d a b fn : Nat} : Keeps (ctrlRet e d a b fn) :=
  .runInstr (.of_same fun _ _ _ _ _ hr => by dsimp only at hr; split at hr <;> cases hr; rfl)

theorem keeps_ctrlJr {e d a b fn : Nat} : Keeps (ctrlJr e d a b fn) :=
  .runInstr (.of_same fun _ _ _ _ _ hr => by dsimp only at hr; (repeat' split at hr) <;> cases hr; rfl)

theorem sound_exec {i : Instr} {s t : State} (h : Sound (seen s)) (ht : exec i s = .next t) : Sound (seen t) := by
  cases i with
  | sysStatus => exact (Keeps.host tame_cmdSysStatus).event h ht
  | sysModeRequest => exact (Keeps.host tame_cmdModeRequest).event h ht
  | sysReset => exact (Keeps.host tame_cmdSysReset).event h ht
  | paramRead => exact (Keeps.host tame_cmdParamRead).event h ht
  | paramWrite => exact (Keeps.host tame_cmdParamWrite).event h ht
  | pioFaultClear => exact (Keeps.host tame_cmdParamWrite).event h ht
  | rtcStatusClear => exact (Keeps.host tame_cmdParamWrite).event h ht
  | bufferStateRead => exact (Keeps.host tame_cmdParamRead).event h ht
  | rtcDateRead => exact (Keeps.host tame_cmdParamRead).event h ht
  | resultFetch => exact (Keeps.host tame_cmdResultFetch).event h ht
  | resultRelease => exact (Keeps.host tame_cmdResultRelease).event h ht
  | snapshotTrigger => exact (Keeps.host tame_cmdSnapshotTrigger).event h ht
  | snapshotRead => exact (Keeps.host tame_cmdSnapshotRead).event h ht
  | hifCreditSync => exact (Keeps.host tame_cmdCreditSync).event h ht
  | hifSessionOpen => exact (Keeps.host tame_cmdSessionOpen).event h ht
  | solvJobSubmit => exact (Keeps.host tame_cmdJobSubmit).event h ht
  | solvTestWrite => exact (Keeps.host tame_cmdTestWrite).event h ht
  | solvTestRead => exact (Keeps.host tame_cmdTestRead).event h ht
  | nmodModelLoad => exact (Keeps.host tame_cmdModelLoad).event h ht
  | nmodModelActivate => exact (Keeps.host tame_cmdModelActivate).event h ht
  | nmodRoundConfig => exact (Keeps.host tame_cmdRoundConfig).event h ht
  | nmodResultGet => exact (Keeps.host tame_cmdResultGet).event h ht
  | nmodOptConfig => exact (Keeps.host tame_cmdOptConfig).event h ht
  | nmodForecastLoad => exact (Keeps.host tame_cmdForecastLoad).event h ht
  | nmodCalibGet => exact (Keeps.host tame_cmdCalibGet).event h ht
  | nmodCalibAdopt => exact (Keeps.host tame_cmdCalibAdopt).event h ht
  | sublRegister => exact (Keeps.host tame_cmdSublRegister).event h ht
  | sublUnregister => exact (Keeps.host tame_cmdSublUnregister).event h ht
  | sublStatus => exact (Keeps.host tame_cmdSublStatus).event h ht
  | ctrlImageLoad => exact (Keeps.host tame_cmdCtrlImageLoad).event h ht
  | ctrlOnlineChange => exact (Keeps.host tame_cmdOnlineChange).event h ht
  | ctrlColdStart => exact (Keeps.host tame_cmdColdStart).event h ht
  | ctrlForceSet => exact (Keeps.host tame_cmdForceSet).event h ht
  | ctrlForceClear => exact (Keeps.host tame_cmdForceClear).event h ht
  | ctrlForceList => exact (Keeps.host tame_cmdForceList).event h ht
  | ctrlTaskControl => exact (Keeps.host tame_cmdTaskControl).event h ht
  | ctrlTaskStatus => exact (Keeps.host tame_cmdTaskStatus).event h ht
  | melCalWindow => exact (Keeps.host tame_cmdCalWindow).event h ht
  | billRead => exact (Keeps.host tame_cmdBillRead).event h ht
  | vaxMove => exact (Keeps.host tame_cmdVaxMove).event h ht
  | vaxHome => exact (Keeps.host tame_cmdVaxHome).event h ht
  | vaxStatus => exact (Keeps.host tame_cmdVaxStatus).event h ht
  | timeSet => exact (Keeps.host tame_cmdTimeSet).event h ht
  | timeTriggerSet => exact (Keeps.host tame_cmdTriggerSet).event h ht
  | timeCaptureGet => exact (Keeps.host tame_cmdCaptureGet).event h ht
  | rtcSet => exact (Keeps.host tame_cmdRtcSet).event h ht
  | rtcDstAdjust => exact (Keeps.host tame_cmdDstAdjust).event h ht
  | rtcAlarmSet => exact (Keeps.host tame_cmdAlarmSet).event h ht
  | epdDraw => exact (Keeps.host tame_cmdEpdDraw).event h ht
  | evrRead => exact (Keeps.host tame_cmdEvrRead).event h ht
  | evrClear => exact (Keeps.host tame_cmdEvrClear).event h ht
  | secAttest => exact (Keeps.host tame_cmdAttest).event h ht
  | secLifecycleAdvance => exact (Keeps.host tame_cmdLifecycle).event h ht
  | secIdentityCert => exact (Keeps.host tame_cmdIdentityCert).event h ht
  | secImageStage => exact (Keeps.host tame_cmdImageStage).event h ht
  | secImageActivate => exact (Keeps.host tame_cmdImageActivate).event h ht
  | secKeyInstall => exact (Keeps.host tame_cmdKeyInstall).event h ht
  | secKeyImport => exact (Keeps.host tame_cmdKeyImport).event h ht
  | secKeyGenerate => exact (Keeps.host tame_cmdKeyGenerate).event h ht
  | secKeySign => exact (Keeps.host tame_cmdKeySign).event h ht
  | secKeyDelete => exact (Keeps.host tame_cmdKeyDelete).event h ht
  | secTamperRelease => exact (Keeps.host tame_cmdTamperRelease).event h ht
  | intgFaultRead => exact (Keeps.host tame_cmdFaultRead).event h ht
  | writePacket => exact (Keeps.of_follows fun _ => follows_writePacket (.refl _)).event h ht
  | readReply => exact (Keeps.of_follows fun _ => follows_readReply (.refl _)).event h ht
  | udpDatagram => exact (Keeps.of_follows fun _ => follows_udpDatagram (.refl _)).event h ht
  | uartFrame => exact (Keeps.of_follows fun _ => follows_uartFrame (.refl _)).event h ht
  | fragmentDiscard => exact (Keeps.of_seen fun _ => seen_fragmentDiscard ..).event h ht
  | irqHoldoffEnd => exact (Keeps.of_seen fun _ => seen_irqHoldoffEnd ..).event h ht
  | sessionIdleExpiry => exact (Keeps.of_follows fun _ => follows_sessionIdle (.refl _)).event h ht
  | loggedCommandEffect => exact (Keeps.of_follows fun _ => follows_loggedEffect (.refl _)).event h ht
  | mainReset => exact (Keeps.of fun _ => sound_mainResetRow).event h ht
  | resetN => exact (Keeps.of fun _ => sound_resetN).event h ht
  | resetNRelease => exact (Keeps.of_follows fun _ => follows_resetNRelease (.refl _)).event h ht
  | alwaysOnReset => exact (Keeps.of_iff fun _ => sound_alwaysOnReset ..).event h ht
  | backupExit => exact (Keeps.of fun _ => sound_backupExit).event h ht
  | bootEnd => exact (Keeps.of fun _ => sound_bootEnd).event h ht
  | pfwAsserted => exact (Keeps.of_follows fun _ => follows_pfwAsserted (.refl _)).event h ht
  | undervoltage => exact (Keeps.of_follows fun _ => follows_railLow (.refl _)).event h ht
  | mramWritePathClose => exact (Keeps.of_seen fun _ => seen_mramPathClose ..).event h ht
  | holdupEnd => exact (Keeps.of_follows fun _ => follows_holdupEnd (.refl _)).event h ht
  | pllLockLoss => exact (Keeps.of_seen fun _ => seen_pllLoss ..).event h ht
  | pllLockTimeout => exact (Keeps.of_iff fun _ => sound_pllTimeout ..).event h ht
  | flightWake => exact (Keeps.of_seen fun _ => seen_flightWake ..).event h ht
  | flightWakeEnd => exact (Keeps.of_follows fun _ => follows_flightWakeEnd (.refl _)).event h ht
  | supplyMeasurement => exact (Keeps.of_seen fun _ => seen_supplyMeasure ..).event h ht
  | cut => exact (Keeps.of fun _ => sound_cut).event h ht
  | cutVectorSeal => exact (Keeps.of_iff fun _ => sound_cutSeal ..).event h ht
  | coreStall => exact (Keeps.of_iff fun _ => sound_coreStall ..).event h ht
  | optimisationWaitExpiry => exact (Keeps.of_iff fun _ => sound_optWaitExpiry ..).event h ht
  | modelBuildComplete => exact (Keeps.of_seen fun _ => seen_modelBuilt ..).event h ht
  | modelFlashWrite => exact (Keeps.of_seen fun _ => seen_modelFlashed ..).event h ht
  | jobStart => exact (Keeps.of fun _ => sound_jobStart).event h ht
  | jobCompletion => exact (Keeps.of fun _ => sound_jobCompletion).event h ht
  | jobDeadlineMiss => exact (Keeps.of fun _ => sound_jobDeadlineMiss).event h ht
  | galleryTimeout => exact (Keeps.of fun _ => sound_galleryTimeout).event h ht
  | galleryPromotion => exact (Keeps.of_seen fun _ => seen_galleryPromotion ..).event h ht
  | balustradeWrite => exact (Keeps.of_seen fun _ => seen_balustradeWrite ..).event h ht
  | reportArrival => exact (Keeps.of_seen fun _ => seen_sublDatagram ..).event h ht
  | reportClassification => exact (Keeps.of_seen fun _ => seen_reportClassification ..).event h ht
  | setpointConfirm => exact (Keeps.of_seen fun _ => seen_sublDatagram ..).event h ht
  | setpointIssue => exact (Keeps.of_seen fun _ => seen_setpointIssue ..).event h ht
  | confirmTimeoutExpiry => exact (Keeps.of_seen fun _ => seen_confirmTimeout ..).event h ht
  | downlinkStateSave => exact (Keeps.of_seen fun _ => seen_downlinkSave ..).event h ht
  | taskRelease => exact (Keeps.of_follows fun _ => follows_taskRelease (.refl _)).event h ht
  | outputApply => exact (Keeps.of_seen fun _ => seen_outputApply ..).event h ht
  | lockstepMismatch => exact (Keeps.of fun _ => sound_lockstepMismatch).event h ht
  | alu => exact (keeps_ctrlAlu).event h ht
  | fpu => exact (keeps_ctrlFpu).event h ht
  | addi => exact (keeps_ctrlAddi).event h ht
  | andiOriXori => exact (keeps_ctrlLogic).event h ht
  | lui => exact (keeps_ctrlLui).event h ht
  | loadInstruction => exact (Keeps.of_follows fun _ => follows_ctrlLoadRow (.refl _)).event h ht
  | storeInstruction => exact (Keeps.of_follows fun _ => follows_ctrlStoreRow (.refl _)).event h ht
  | branchInstruction => exact (keeps_ctrlBranch).event h ht
  | jmp => exact (keeps_ctrlJmp).event h ht
  | call => exact (keeps_ctrlCall).event h ht
  | callb => exact (Keeps.of_follows fun _ => follows_ctrlCallb (.refl _)).event h ht
  | ret => exact (keeps_ctrlRet).event h ht
  | sys => exact (Keeps.of_follows fun _ => follows_ctrlSys (.refl _)).event h ht
  | jr => exact (keeps_ctrlJr).event h ht
  | endRun => exact (Keeps.of_follows fun _ => follows_ctrlEnd (.refl _)).event h ht
  | trap => exact (Keeps.of_follows fun _ => follows_ctrlTrap (.refl _)).event h ht
  | onlineChangePrepared => exact (Keeps.of_seen fun _ => seen_changePrepared ..).event h ht
  | changeTick => exact (Keeps.of_follows fun s => .of_seen (seen_swapTick (Machine.changeTick s)) (follows_changeTick (.refl _))).event h ht
  | exchange => exact (Keeps.of_follows fun _ => follows_exchange (.refl _)).event h ht
  | latchTick => exact (Keeps.of_follows fun _ => follows_latchTick (.refl _)).event h ht
  | changeDrainTimeout => exact (Keeps.of_follows fun _ => follows_swapTimeout (follows_changeDrainTimeout (.refl _))).event h ht
  | frameEnd => exact (Keeps.of_follows fun _ => follows_frameEnd (.refl _)).event h ht
  | flowPulse => exact (Keeps.of_seen fun _ => seen_flowPulse ..).event h ht
  | intervalBoundary => exact (Keeps.of_follows fun _ => follows_intervalBoundary (.refl _)).event h ht
  | lineCycleClose => exact (Keeps.of_seen fun _ => seen_lineCycleClose ..).event h ht
  | electricalPagePublish => exact (Keeps.of_seen fun _ => seen_publishPage3 ..).event h ht
  | calWindowEnd => exact (Keeps.of_seen fun _ => seen_calWindowEnd ..).event h ht
  | registerSave => exact (Keeps.of_seen fun _ => seen_registerSave ..).event h ht
  | saveReadback => exact (Keeps.of_seen fun _ => seen_saveReadback ..).event h ht
  | analogConversion => exact (Keeps.of_follows fun _ => follows_analogConversion (.refl _)).event h ht
  | digitalInputEdge => exact (Keeps.of_seen fun _ => seen_digitalEdge ..).event h ht
  | padFault => exact (Keeps.of_seen fun _ => seen_padFault ..).event h ht
  | feedbackFault => exact (Keeps.of_seen fun _ => seen_feedbackFault ..).event h ht
  | profilePeriod => exact (Keeps.of_follows fun _ => follows_profilePeriod (.refl _)).event h ht
  | stall => exact (Keeps.of_seen fun _ => seen_stallAt ..).event h ht
  | driveFault => exact (Keeps.of_seen fun _ => seen_driveFault ..).event h ht
  | standstillDelayExpiry => exact (Keeps.of_seen fun _ => seen_standstillExpiry ..).event h ht
  | ethernetFrame => exact (Keeps.of_seen fun _ => seen_etherFrame ..).event h ht
  | phySpeedPoll => exact (Keeps.of_seen fun _ => seen_phyPoll ..).event h ht
  | addressAgeOut => exact (Keeps.of_seen fun _ => seen_ageOut ..).event h ht
  | sync => exact (Keeps.of_follows fun _ => follows_syncRx (.refl _)).event h ht
  | announce => exact (Keeps.of_follows fun _ => follows_announce (.refl _)).event h ht
  | pdelayReq => exact (Keeps.of_seen fun _ => seen_pdelayReqRx ..).event h ht
  | pdelayReqSend => exact (Keeps.of_seen fun _ => seen_pdelayReqSend ..).event h ht
  | syncAnnounceSend => exact (Keeps.of_seen fun _ => seen_syncAnnounceSend ..).event h ht
  | syncTimeout => exact (Keeps.of_follows fun _ => follows_syncTimeout (.refl _)).event h ht
  | holdoverTimeout => exact (Keeps.of_seen fun _ => seen_holdoverTimeout ..).event h ht
  | ppsEdge => exact (Keeps.of_follows fun _ => follows_ppsEdge (.refl _)).event h ht
  | rtcReferenceWindow => exact (Keeps.of_seen fun _ => seen_rtcReferenceWindow ..).event h ht
  | leapSecond => exact (Keeps.of_seen fun _ => seen_leapSecond ..).event h ht
  | triggerPulseStart => exact (Keeps.of_seen fun _ => seen_triggerStart ..).event h ht
  | triggerPulseEnd => exact (Keeps.of_seen fun _ => seen_triggerEnd ..).event h ht
  | captureEdge => exact (Keeps.of_seen fun _ => seen_captureEdge ..).event h ht
  | capturePagePublish => exact (Keeps.of_seen fun _ => seen_capturePublish ..).event h ht
  | secondBoundary => exact (Keeps.of_follows fun _ => follows_secondBoundary (.refl _)).event h ht
  | rtcTemperatureSample => exact (Keeps.of_follows fun _ => follows_rtcTempSample (.refl _)).event h ht
  | rtcLearningWindow => exact (Keeps.of_seen fun _ => seen_learningWindow ..).event h ht
  | learnedTableSave => exact (Keeps.of_seen fun _ => seen_learnedSave ..).event h ht
  | updateStart => exact (Keeps.of_seen fun _ => seen_updateStart ..).event h ht
  | displayPhase => exact (Keeps.of_seen fun _ => seen_displayPhase ..).event h ht
  | epdPower => exact (Keeps.of_seen fun _ => seen_epdPowerFail ..).event h ht
  | epdPowerGood => exact (Keeps.of_seen fun _ => seen_epdPowerGood ..).event h ht
  | epdPowerOff => exact (Keeps.of_seen fun _ => seen_epdPowerOff ..).event h ht
  | panelTemperatureSample => exact (Keeps.of_follows fun _ => follows_panelSample (.refl _)).event h ht
  | displayScan => exact (Keeps.of_follows fun _ => follows_displayScan (.refl _)).event h ht
  | stripRefresh => exact (Keeps.of_seen fun _ => seen_stripRefresh ..).event h ht
  | stagingDrain => exact (Keeps.of_seen fun _ => seen_stagingDrain ..).event h ht
  | evrWindowEnd => exact (Keeps.of_follows fun _ => follows_evrWindowEnd (.refl _)).event h ht
  | counterCopy => exact (Keeps.of_seen fun _ => seen_counterCopyTick ..).event h ht
  | recordSample => exact (Keeps.of_seen fun _ => seen_recordSample ..).event h ht
  | periodClose => exact (Keeps.of_seen fun _ => seen_periodBoundary ..).event h ht
  | remask => exact (Keeps.of_follows fun _ => follows_remask (.refl _)).event h ht
  | imageSwitch => exact (Keeps.of_follows fun _ => follows_imageSwitch (.refl _)).event h ht
  | tamper => exact (Keeps.of fun _ => sound_tamperSign).event h ht
  | trngHealthFailure => exact (Keeps.of_seen fun _ => seen_trngFailure ..).event h ht
  | scrubPass => exact (Keeps.of fun _ => sound_scrubPass).event h ht
  | watchdogExpiry => exact (Keeps.of fun _ => sound_watchdogExpiry).event h ht
  | snapshotTick => exact (Keeps.of_seen fun _ => seen_snapshotTick ..).event h ht
  | takeover => exact (Keeps.of_iff fun _ => sound_takeover ..).event h ht
  | pairListenEnd => exact (Keeps.of_follows fun _ => follows_pairListenEnd (.refl _)).event h ht
  | heartbeat => exact (Keeps.pairTaken (.of_seen (seen_heartbeatRx _ _))).event h ht
  | cutSegment => exact (Keeps.pairTaken (.of_iff (sound_cutSegment _ _ _))).event h ht
  | imageSegment => exact (Keeps.pairTaken (.of_follows fun _ => follows_imageSegment (.refl _))).event h ht
  | commandLog => exact (Keeps.pairTaken (.of_seen (seen_commandLog _ _ _))).event h ht
  | digest => exact (Keeps.pairTaken (.of_iff (sound_digestRx _ _ _))).event h ht
  | resyncRequest => exact (Keeps.pairTaken (.of_seen seen_resyncRequest)).event h ht
  | stateSegment => exact (Keeps.pairTaken (.of_follows fun _ => follows_stateSegment (.refl _))).event h ht
  | shadowStatus => exact (Keeps.pairTaken (.of_seen (seen_shadowStatus _))).event h ht
  | shadowStatusSend => exact (Keeps.of_seen fun _ => seen_shadowStatusSend ..).event h ht
  | hostInterfaceStart => exact (Keeps.of_seen fun _ => seen_hostInterfaceStart ..).event h ht
  | modeTransitionEnd => exact (Keeps.of_iff fun _ => sound_modeTransitionEnd ..).event h ht
  | modelValidationComplete => exact (Keeps.of_seen fun _ => seen_modelValidated ..).event h ht
  | blockImageValidationComplete => exact (Keeps.of_seen fun _ => seen_blockValidated ..).event h ht
  | imageVerificationComplete => exact (Keeps.of_seen fun _ => seen_imageVerified ..).event h ht
  | blockImageFlashWrite => exact (Keeps.of_seen fun _ => seen_blockFlashed ..).event h ht
  | pllLockRegained => exact (Keeps.of_seen fun _ => seen_pllRegained ..).event h ht
  | snapInEdge => exact (Keeps.of_seen fun _ => seen_snapInEdge ..).event h ht
  | electricalRawSample => exact (Keeps.of_follows fun _ => follows_rawSample (.refl _)).event h ht
  | flowEdgeRejected => exact (Keeps.of_seen fun _ => seen_flowEdgeRejected ..).event h ht
  | pwmPeriodBoundary => exact (Keeps.of_follows fun _ => follows_pwmBoundary (.refl _)).event h ht
  | abandonedReadResponse => exact (Keeps.of_seen fun _ => seen_abandonedRead ..).event h ht
  | followUp => exact (Keeps.of_follows fun _ => follows_followUp (.refl _)).event h ht
  | delayReqSend => exact (Keeps.of_seen fun _ => seen_delayReqSend ..).event h ht
  | delayResp => exact (Keeps.of_seen fun _ => seen_delayResp ..).event h ht
  | pdelayResp => exact (Keeps.of_seen fun _ => seen_pdelayResp ..).event h ht
  | meshComparison => exact (Keeps.of fun _ => sound_meshComparison).event h ht
  | uartTransmitComplete => exact (Keeps.of_follows fun _ => follows_uartSent (.refl _)).event h ht

/-- Settles O57: canonical form is a property of what `seen` keeps of a state, and every row of the table either leaves that as it is
or changes it by writes that canonical memories and tables survive. -/
theorem stepKeepsCanonicalForm : Obligations.StepKeepsCanonicalForm := by
  unfold Obligations.StepKeepsCanonicalForm
  intro s t hs ht
  rw [canonical_iff_sound] at hs ⊢
  unfold step at ht
  split at ht
  · cases ht
    exact hs.follows (follows_elapse (.refl _))
  · exact sound_exec (s := { s with pending := _ }) ((sound_of_same rfl).2 hs) ht

end Sys2Proof.Machine


/-! PARAM_READ and PARAM_WRITE (R572, R573), with the reads and writes that have a row of their own. -/

namespace Sys2Proof.Machine

/-! ### What an effect must leave for the end of the step -/

theorem Steady.of_seen {s t : State} (h : seen t = seen s) : Steady s t := (Follows.of_seen h (.refl _)).steady

/-- A command completes at once, what its effect leaves for the end of the step being known of the command. -/
theorem completes_of_tame {i : Nat → Env → Bytes → Instr} {c : Cmd} {ok : Req → State → Prop} {st : Nat}
    {body : Req → State → Bytes} {effect : Req → State → State} (hc : c.Tame)
    (hi : ∀ dt q pl s, exec (i dt q pl) s = event dt (hostCommand c q pl) s)
    (hok : ∀ r s h n o e, ok r s → ok r (withAcceptance h n o e s))
    (hd : ∀ r u, Quiet u → ok r u → c.eff r u = .done st false (body r u) (effect r u)) :
    Completes i c ok st body effect :=
  completes_of hi hok fun r u hq ho =>
    have hs : Steady u (effect r u) := (hd r u hq ho ▸ hc r u : (CmdRes.done ..).Leaves _).loose.steady
    ⟨hd r u hq ho, hs.settled hq.settled, hs.pending⟩

/-- A command begins work that ends later. -/
theorem begins_of_tame {i : Nat → Env → Bytes → Instr} {c : Cmd} {ok : Req → State → Prop} {w : Req → State → Wait}
    {effect : Req → State → State} (hc : c.Tame)
    (hi : ∀ dt q pl s, exec (i dt q pl) s = event dt (hostCommand c q pl) s)
    (hok : ∀ r s h n o e, ok r s → ok r (withAcceptance h n o e s))
    (hd : ∀ r u, Quiet u → ok r u → c.eff r u = .wait (w r u) (effect r u)) :
    Begins i c ok w effect :=
  begins_of hi hok fun r u hq ho =>
    have hs : Steady u (effect r u) := (hd r u hq ho ▸ hc r u : (CmdRes.wait ..).Leaves _).loose.steady
    ⟨hd r u hq ho, hs.settled hq.settled, hs.pending⟩

/-- A command is answered, and something follows its answer. -/
theorem completesThen_of_tame {i : Nat → Env → Bytes → Instr} {c : Cmd} {ok : Req → State → Prop} {body : Req → State → Bytes}
    {effect : Req → State → State} {after : Req → State → State → State} (hc : c.Tame)
    (hi : ∀ dt q pl s, exec (i dt q pl) s = event dt (hostCommand c q pl) s)
    (hok : ∀ q pl a s, Quiet s → ok (requestOf c q pl a) s →
      ok (requestOf c q pl a) (received c q pl s) ∧ ok (requestOf c q pl a) (accepted c q pl a s))
    (hd : ∀ r u, Quiet u → ok r u → c.eff r u = .doneThen (body r u) (effect r u) (after r u)) :
    CompletesThen i c ok body effect after := by
  intro dt q pl a s h ho
  have hz : Quiet (elapse dt s) := quiet_elapse h.quiet dt
  obtain ⟨hr, er⟩ := received_eq c q pl (elapse dt s)
  obtain ⟨ha', n, o, e, ea⟩ := accepted_eq c q pl a (elapse dt s)
  obtain ⟨ok1, ok2⟩ := hok q pl a (elapse dt s) hz ho
  have h1 := hd (requestOf c q pl a) (received c q pl (elapse dt s)) (by rw [er]; exact hz) ok1
  have h2 := hd (requestOf c q pl a) (accepted c q pl a (elapse dt s)) (by rw [ea]; exact hz) ok2
  have hx := hostCommand_thenDone h.admitted (by rw [elapse_logs h.quiet.nothingWaits]; exact h.direct) (by rw [h1]; rfl) h2
  have ⟨he, haft⟩ := (h2 ▸ hc _ _ : (CmdRes.doneThen ..).Leaves (seen (accepted c q pl a (elapse dt s))))
  rw [hi, event_of_steady h.quiet, hx]
  rw [hx]
  have hst : Steady (elapse dt s) (accepted c q pl a (elapse dt s)) := by rw [ea]; exact steady_withAcceptance _ _ _ _ _
  exact (hst.trans he.loose.steady).trans ((Steady.of_kept (complete_sys ..) (complete_pair ..) (complete_pending ..)).trans (haft _).loose.steady)

/-- A command is answered at once, its tag as it was. -/
theorem answers_of_tame {c : Cmd} {dt st fl : Nat} {q : Env} {pl b : Bytes} {a : Auth} {crcs : Option (Nat × Nat)} {s t : State}
    (hc : c.Tame) (h : Arrives c dt q pl a s)
    (hr : (c.eff (requestOf c q pl a) (received c q pl (elapse dt s))).rejects = false)
    (hd : c.eff (requestOf c q pl a) (accepted c q pl a (elapse dt s)) = .answer st fl b crcs t) :
    event dt (hostCommand c q pl) s =
      .next (replyTo (envPkt c.op q pl) st fl b (crcs.getD (crcsOf (envPkt c.op q pl) b)) (debit c.op (envPkt c.op q pl).size)
        (debit c.op (envPkt c.op q pl).size) t) := by
  have hx := hostCommand_answers h.admitted (by rw [elapse_logs h.quiet.nothingWaits]; exact h.direct) hr hd
  have hs : Steady (accepted c q pl a (elapse dt s)) t := (hd ▸ hc _ _ : (CmdRes.answer ..).Leaves _).loose.steady
  obtain ⟨_, _, _, _, ea⟩ := accepted_eq c q pl a (elapse dt s)
  have hst : Steady (elapse dt s) (accepted c q pl a (elapse dt s)) := by rw [ea]; exact steady_withAcceptance _ _ _ _ _
  rw [event_of_steady h.quiet, hx]
  rw [hx]
  exact (hst.trans hs).trans (steady_replyTo ..)

/-- A command that takes no tag is answered at once. -/
theorem replies_of_tame {i : Nat → Env → Bytes → Instr} {c : Cmd} {ok : Req → State → Prop} {status : Nat}
    {body : Req → State → Bytes} {effect : Req → State → State} (hc : c.Tame)
    (hi : ∀ dt q pl s, exec (i dt q pl) s = event dt (hostCommand c q pl) s)
    (hok : ∀ q pl a s, Quiet s → ok (requestOf c q pl a) s →
      ok (requestOf c q pl a) (received c q pl s) ∧ ok (requestOf c q pl a) (accepted c q pl a s))
    (hd : ∀ r u, ok r u → c.eff r u = .answer status 0 (body r u) none (effect r u)) :
    Replies i c ok status body effect := by
  intro dt q pl a s h ho
  obtain ⟨ok1, ok2⟩ := hok q pl a (elapse dt s) (quiet_elapse h.quiet dt) ho
  rw [hi, answers_of_tame hc h (by rw [hd _ _ ok1]; rfl) (hd _ _ ok2), Option.getD_none]

/-! ### Reads -/

theorem paramReads : Completes .paramRead cmdParamRead
    (fun r _ => (pinfo (fld r.payload 0 2)).isSome = true ∧ 1 ≤ fld r.payload 2 1 ∧ fld r.payload 2 1 ≤ 64 ∧
      fld r.payload 0 2 % 256 + fld r.payload 2 1 ≤ 256 ∧
      (∀ k < fld r.payload 2 1, (pinfo (fld r.payload 0 2 + k)).isSome = true) ∧ fld r.payload 3 1 = 0)
    stOK
    (fun r u => (readRun r.org.tr ((List.range (fld r.payload 2 1)).map (fld r.payload 0 2 + ·)) u).1)
    (fun r u => (readRun r.org.tr ((List.range (fld r.payload 2 1)).map (fld r.payload 0 2 + ·)) u).2) := by
  refine completes_of_tame tame_cmdParamRead (fun _ _ _ _ => rfl) (fun _ _ _ _ _ _ h => h)
    fun r u _ ⟨hid, hlo, hhi, hblk, hall, hz⟩ => checked_of_all ?_ _
  simp [hid, hlo, hhi, hblk, hz, between]
  exact hall

theorem fld_paramReadOne {id : Nat} (h : id < 65536) :
    fld (paramReadOne id) 0 2 = id ∧ fld (paramReadOne id) 2 1 = 1 ∧ fld (paramReadOne id) 3 1 = 0 := by
  simp only [paramReadOne, List.append_assoc]
  refine ⟨fld_append_zero (by omega) _, ?_, ?_⟩
  · rw [fld_append_of_le (Nat.le_refl 2)]
    exact fld_append_zero (by decide) _
  · rw [fld_append_of_le (by decide), fld_append_of_le (by decide)]
    rfl

/-- A read of one parameter alone. -/
theorem paramReads_one {id dt : Nat} {q : Env} {a : Auth} {s t : State} {info : PInfo} {v : Nat} (h16 : id < 65536)
    (hid : pinfo id = some info) (hb : id % 256 + 1 ≤ 256)
    (h : Arrives cmdParamRead dt q (paramReadOne id) a s)
    (hr : readParam q.tr id (accepted cmdParamRead q (paramReadOne id) a (elapse dt s)) = (v, t)) :
    exec (.paramRead dt q (paramReadOne id)) s = .next (answered q stOK (le 2 id ++ le 1 info.width ++ [0] ++ le 8 v) t) := by
  obtain ⟨h0, h2, h3⟩ := fld_paramReadOne h16
  have hp : (requestOf cmdParamRead q (paramReadOne id) a).payload = paramReadOne id := rfl
  have htr : (requestOf cmdParamRead q (paramReadOne id) a).org.tr = q.tr := rfl
  have e := paramReads dt q (paramReadOne id) a s h (by
    beta_reduce
    rw [hp, h0, h2, h3]
    refine ⟨by rw [hid]; rfl, by omega, by omega, hb, fun k hk => ?_, rfl⟩
    obtain rfl : k = 0 := by omega
    simp [hid])
  simp only [hp, htr, h0, h2] at e
  simpa [readRun, hr, hid] using e

/-- Settles O2: a run is read by `readRun`; the two single reads are its runs of
one parameter. -/
theorem parameterReadsComplete : Obligations.ParameterReadsComplete := by
  unfold Obligations.ParameterReadsComplete
  refine ⟨paramReads, fun dt q a s h => ?buffer, fun dt q a s h => ?date⟩
  case buffer =>
    obtain ⟨_, _, _, _, ea⟩ := accepted_eq cmdParamRead q (paramReadOne 0x0518) a (elapse dt s)
    have hs : (accepted cmdParamRead q (paramReadOne 0x0518) a (elapse dt s)).subl = s.subl := by
      rw [ea]; exact elapse_subl h.quiet.nothingWaits dt
    refine (paramReads_one (by decide) (info := (pinfo 0x0518).get rfl) rfl (by decide) h rfl).trans ?_
    rw [bufferState, bufferRead, hs]; rfl
  case date =>
    obtain ⟨_, _, _, _, ea⟩ := accepted_eq cmdParamRead q (paramReadOne 0x0E10) a (elapse dt s)
    have hr : (accepted cmdParamRead q (paramReadOne 0x0E10) a (elapse dt s)).rtc = s.rtc := by
      rw [ea]; exact elapse_rtc h.quiet.nothingWaits dt
    have hc : (accepted cmdParamRead q (paramReadOne 0x0E10) a (elapse dt s)).clock = (elapse dt s).clock := by rw [ea]; rfl
    refine (paramReads_one (by decide) (info := (pinfo 0x0E10).get rfl) rfl (by decide) h rfl).trans ?_
    simp only [rtcDate, rtcLatch, updRtc, rtcTime, rtcSubsec, hr, hc, elapse_rtc h.quiet.nothingWaits]
    rfl

/-! ### Writes -/

theorem postingIn_metro (p : Posting) (limit : Option Nat) (e : Evr) : (postingIn p limit e).metro = e.metro := by
  simp only [postingIn]
  (repeat' split) <;> rfl

theorem accepted_metro (c : Cmd) (q : Env) (pl : Bytes) (a : Auth) (s : State) : (accepted c q pl a s).evr.metro = s.evr.metro := by
  have hp (code index : Nat) (d : Bytes) (k : Nat) (u : State) : (post code index d k u).evr.metro = u.evr.metro := postingIn_metro ..
  obtain ⟨h, e⟩ := received_eq c q pl s
  simp only [accepted, e, accept, commitCounter]
  (repeat' split) <;> simp [hp, withAcceptance]

theorem paramChecks_withAcceptance {h : Hif} {n : List (Nat × Nat)} {o : List Nat} {e : Evr} {s : State} (hm : e.metro = s.evr.metro)
    (p : Bytes) : paramChecks (withAcceptance h n o e s) p = paramChecks s p := by
  have hf : metroFree (withAcceptance h n o e s) = metroFree s := by simp only [metroFree, withAcceptance, hm]
  have he (es : List PEntry) (k : Nat) (x : PEntry) : entryChecks (withAcceptance h n o e s) es k x = entryChecks s es k x := by
    simp only [entryChecks, hf]; rfl
  simp only [paramChecks, he]

theorem paramWrites : CompletesThen .paramWrite cmdParamWrite (fun r s => firstBad (paramChecks s r.payload) = none) (fun _ _ => [])
    (fun r u => (entriesOf r.payload).foldl (storeEntry r.auth) u)
    (fun r _ v => if (entriesOf r.payload).any fun e => e.id == 0x0214 then baudAfter r.org.tr v else v) := by
  refine completesThen_of_tame tame_cmdParamWrite (fun _ _ _ _ => rfl) (fun q pl a s _ h => ?_) fun r u _ h => ?_
  · obtain ⟨hr, er⟩ := received_eq cmdParamWrite q pl s
    obtain ⟨ha, n, o, e, ea⟩ := accepted_eq cmdParamWrite q pl a s
    have hm : e.metro = s.evr.metro := by rw [← accepted_metro cmdParamWrite q pl a s, ea]; rfl
    rw [er, ea, paramChecks_withAcceptance rfl, paramChecks_withAcceptance hm]
    exact ⟨h, h⟩
  · change checked (paramChecks u r.payload) _ = _
    rw [checked, h]
    dsimp only
    split <;> simp_all

theorem zeros_eq_le (n : Nat) : zeros n = le n 0 := by
  induction n with
  | zero => rfl
  | succ n ih => rw [zeros, List.replicate_succ, ← zeros, ih]; rfl

theorem fld_le {n v : Nat} (h : v < 256 ^ n) : fld (le n v) 0 n = v := by
  simpa using fld_append_zero h []

/-- The one entry of a write of one parameter. -/
theorem entriesOf_paramWriteOne {id width value : Nat} (hi : id < 65536) (hw : width < 256) (hv : value < 2 ^ 64) :
    entriesOf (paramWriteOne id width value) = [⟨id, width, 0, value⟩] := by
  have hl : (paramWriteOne id width value).length = 16 := by simp [paramWriteOne]
  have hp : paramWriteOne id width value = le 2 1 ++ (le 2 0 ++ (le 2 id ++ (le 1 width ++ (le 1 0 ++ le 8 value)))) := by
    simp only [paramWriteOne, zeros_eq_le, List.append_assoc]
  have hn : fld (paramWriteOne id width value) 0 2 = 1 := by
    rw [hp]; exact fld_append_zero (by decide) _
  have h4 : entryAt (paramWriteOne id width value) 0 = ⟨id, width, 0, value⟩ := by
    simp (disch := decide) only [hp, entryAt, Nat.mul_zero, Nat.add_zero, Nat.reduceAdd, fld_append_of_le, Nat.reduceSub]
    rw [fld_append_zero hi, fld_append_zero hw, fld_append_zero (by decide), fld_le hv]
  rw [entriesOf, hn, hl]
  exact congrArg (· :: []) h4

/-- A write of one parameter alone. -/
theorem paramWrites_one {id dt : Nat} {q : Env} {a : Auth} {s : State} {mask : W64} (hi : id < 65536) (hb : id ≠ 0x0214)
    (h : Arrives cmdParamWrite dt q (paramWriteOne id 4 mask.toNat) a s)
    (hc : firstBad (paramChecks (elapse dt s) (paramWriteOne id 4 mask.toNat)) = none) :
    exec (.paramWrite dt q (paramWriteOne id 4 mask.toNat)) s =
      .next (answered q stOK []
        (storeEntry a (accepted cmdParamWrite q (paramWriteOne id 4 mask.toNat) a (elapse dt s)) ⟨id, 4, 0, mask.toNat⟩)) := by
  refine (paramWrites dt q _ a s h hc).trans ?_
  have hp : (requestOf cmdParamWrite q (paramWriteOne id 4 mask.toNat) a).payload = paramWriteOne id 4 mask.toNat := rfl
  have ha : (requestOf cmdParamWrite q (paramWriteOne id 4 mask.toNat) a).auth = a := rfl
  beta_reduce
  rw [hp, ha, entriesOf_paramWriteOne hi (by decide) mask.isLt]
  simp [hb]

theorem bit_eq_testBit (v k : Nat) : bit v k = v.testBit k := by
  simp only [bit, Nat.testBit_eq_decide_div_mod_eq, Nat.shiftRight_eq_div_pow]; rfl

theorem bit_mod {k : Nat} (h : k < 32) (mask : W64) : bit (mask.toNat % 2 ^ 32) k = mask.getLsbD k := by
  rw [bit_eq_testBit, Nat.testBit_mod_two_pow, decide_eq_true h, Bool.true_and]; rfl

theorem val_of_narrow {id width res value : Nat} {info : PInfo} (h : pinfo id = some info) (hw : info.width ≠ 8) :
    (PEntry.mk id width res value).val = value % 2 ^ 32 := by
  simp [PEntry.val, h, hw]

theorem storeEntry_pioFault (a : Auth) (s : State) (mask : W64) :
    storeEntry a s ⟨0x0A98, 4, 0, mask.toNat⟩ = clearPioFault (mask.toNat % 2 ^ 32) s := by
  obtain ⟨info, hi, hw⟩ : ∃ i, pinfo 0x0A98 = some i ∧ i.width = 4 := ⟨_, rfl, rfl⟩
  have hv := val_of_narrow (width := 4) (res := 0) (value := mask.toNat) hi (by omega)
  rw [storeEntry, hi]
  dsimp only
  rw [hv]
  exact if_pos rfl

theorem storeEntry_rtcStatus (a : Auth) (s : State) (mask : W64) :
    storeEntry a s ⟨0x0E14, 4, 0, mask.toNat⟩ = clearRtcStatus (mask.toNat % 2 ^ 32) s := by
  obtain ⟨info, hi, hw⟩ : ∃ i, pinfo 0x0E14 = some i ∧ i.width = 4 := ⟨_, rfl, rfl⟩
  have hv := val_of_narrow (width := 4) (res := 0) (value := mask.toNat) hi (by omega)
  rw [storeEntry, hi]
  dsimp only
  rw [hv]
  rfl

/-- Settles O3: the entries are stored one after the other; a write of PIO_FAULT or of
RTC_STATUS alone stores its one entry. -/
theorem parameterWritesComplete : Obligations.ParameterWritesComplete := by
  unfold Obligations.ParameterWritesComplete
  refine ⟨paramWrites, fun dt q mask a s h hc => ?fault, fun dt q mask a s h hc => ?status⟩
  case fault =>
    have hw := h.quiet.nothingWaits
    refine ⟨_, paramWrites_one (id := 0x0A98) (by decide) (by decide) h hc, ?_⟩
    simp only [storeEntry_pioFault, answered, complete_pio, complete_cfg, complete_cfgPending, complete_rtc, clearPioFault,
      accepted_pio, accepted_cfg, accepted_cfgPending, accepted_rtc, elapse_pio hw, elapse_cfg hw, elapse_cfgPending hw,
      elapse_rtc hw, and_true]
    refine ⟨?_, fun o => ?_⟩
    · congr 2
      apply BitVec.eq_of_toNat_eq
      simp
    · have ho : (o : Nat) < 32 := by omega
      simp only [Fin.getElem_fin, Vector.getElem_mapFinIdx, bit_mod ho]
      cases mask.getLsbD o <;> simp
  case status =>
    refine (paramWrites_one (id := 0x0E14) (by decide) (by decide) h hc).trans ?_
    simp only [storeEntry_rtcStatus, clearRtcStatus, updRtc, accepted_rtc, elapse_rtc h.quiet.nothingWaits]
    simp (disch := decide) only [bit_mod]

end Sys2Proof.Machine


/-! The commands that take no tag: RESULT_FETCH, RESULT_RELEASE and HIF_CREDIT_SYNC (R88, R92 to R94). -/

namespace Sys2Proof.Machine

/-! ### Tags, as the effects see them -/

theorem tagOf_congr {s t : State} (h : t.hif.tags = s.hif.tags) (tag : Nat) : tagOf t tag = tagOf s tag := by
  simp only [tagOf, h]

@[simp] theorem setLink_tags (tr : Transport) (l : Link) (s : State) : (setLink tr l s).hif.tags = s.hif.tags := by
  cases tr <;> rfl

theorem received_tags (c : Cmd) (q : Env) (pl : Bytes) (s : State) : (received c q pl s).hif.tags = s.hif.tags := by
  simp only [received, touchSession, sequenced]
  (repeat' split) <;> simp

/-- A command that takes no tag leaves the tags as it is accepted. -/
theorem accepted_tags {c : Cmd} (h : tagless c.op = true) (q : Env) (pl : Bytes) (a : Auth) (s : State) :
    (accepted c q pl a s).hif.tags = s.hif.tags := by
  have ht : tagless (envPkt c.op q pl).hdr.opcode = true := h
  simp only [accepted, accept, ht, commitCounter, if_true]
  (repeat' split) <;> simp [received_tags]

/-- A command that takes no tag is answered by what it finds of the tags, which its acceptance leaves. -/
theorem replies_of_tags {i : Nat → Env → Bytes → Instr} {c : Cmd} {ok : Req → State → Prop} {status : Nat}
    {body : Req → State → Bytes} {effect : Req → State → State} (hc : c.Tame)
    (hi : ∀ dt q pl s, exec (i dt q pl) s = event dt (hostCommand c q pl) s) (ht : tagless c.op = true)
    (hok : ∀ r s t, t.hif.tags = s.hif.tags → ok r s → ok r t)
    (hd : ∀ r u, ok r u → c.eff r u = .answer status 0 (body r u) none (effect r u)) :
    Replies i c ok status body effect :=
  replies_of_tame hc hi
    (fun q pl a s _ h => ⟨hok _ _ _ (received_tags c q pl s) h, hok _ _ _ (accepted_tags ht q pl a s) h⟩) hd

/-! ### RESULT_FETCH and RESULT_RELEASE (R92 to R94) -/

theorem effFetch_held {r : Req} {s : State} {h : Held} (ht : tagOf s r.hdr.tag = some (.held h))
    (hoff : fld r.payload 0 4 ≤ h.body.length) (hn : fld r.payload 4 2 ≤ 4096) (hz : fld r.payload 6 2 = 0) :
    effFetch r s =
      .answer h.status
        (replyFlags (decide (fld r.payload 0 4 + min (fld r.payload 4 2) (h.body.length - fld r.payload 0 4) < h.body.length))
          h.regularised true)
        (slice h.body (fld r.payload 0 4) (min (fld r.payload 4 2) (h.body.length - fld r.payload 0 4)))
        (some (h.reqCrc, h.resCrc)) s := by
  simp only [effFetch, ht]
  exact checked_of_all (by simp [hoff, hn, hz]) _

theorem effFetch_executing {r : Req} {s : State} {e : Exec} (ht : tagOf s r.hdr.tag = some (.executing e))
    (hn : fld r.payload 4 2 ≤ 4096) (hz : fld r.payload 6 2 = 0) :
    effFetch r s =
      .answer stPending 0
        (le 6 ((estimate e.wait s).1 / 1000000000) ++ le 4 ((estimate e.wait s).1 % 1000000000) ++ zeros 2) none
        (estimate e.wait s).2 := by
  simp only [effFetch, ht]
  exact checked_of_all (by simp [hn, hz]) _

theorem effFetch_free {r : Req} {s : State} (ht : tagOf s r.hdr.tag = none) (hn : fld r.payload 4 2 ≤ 4096)
    (hz : fld r.payload 6 2 = 0) : effFetch r s = .answer stNoResult 0 [] none s := by
  simp only [effFetch, ht]
  exact checked_of_all (by simp [hn, hz]) _

/-! ### HIF_CREDIT_SYNC (R88) -/

/-- A discrepancy of credits is counted and recorded. -/
def discrepancyNoted (tr : Transport) (epoch : W16) (slots bufs : Int) (s : State) : State :=
  if slots = 0 ∧ bufs = 0 then s
  else
    post 0x0201 (Transport.num tr) (le 2 (unsgn 16 slots) ++ le 2 (unsgn 16 bufs) ++ le 2 epoch.toNat) 0
      (updHif (fun h => { h with creditDiscrepancies := h.creditDiscrepancies + 1 }) s)

/-- HIF_CREDIT_SYNC with DISCARD frees the HELD tags of its transport. -/
theorem creditSync_tags (d : Nat) (tr : Transport) (s synced : State) (h : ∀ tag, tagInRange synced tr tag = tagInRange s tr tag) :
    (if d = 1 then
        updHif (fun h => { h with
          tags := h.tags.filter fun x => match x.2 with
            | .held _ => !tagInRange synced tr x.1
            | .executing _ => true }) synced
      else synced) =
      { synced with hif := { synced.hif with
        tags := synced.hif.tags.filter fun x =>
          !(d == 1 && tagInRange s tr x.1 && (match x.2 with | .held _ => true | .executing _ => false)) } } := by
  by_cases hd : d = 1
  · subst hd
    simp only [if_true, updHif, h]
    congr 3
    funext x
    cases x.2 <;> simp
  · rw [if_neg hd, List.filter_eq_self.2 (fun x _ => by simp [hd])]


/-! ### The statement -/

/-- Settles O4: RESULT_FETCH and RESULT_RELEASE answer by the state of their tag, which acceptance of a command without a tag leaves, and
the tags freed by HIF_CREDIT_SYNC are those of `creditSync_tags`. -/
theorem resultsAndCreditsComplete : Obligations.ResultsAndCreditsComplete := by
  unfold Obligations.ResultsAndCreditsComplete
  refine ⟨?held, fun e => ?executing, ?free, fun h => ?released, fun e => ?busy, ?none, ?sync⟩
  case held =>
    intro dt q pl a s h hs ht hoff hn hz
    have hte : tagOf (elapse dt s) q.tag.toNat = some (.held h) := by
      obtain ⟨_, e⟩ := elapse_fields hs.quiet.nothingWaits dt
      rw [e]; exact ht
    have h1 := (tagOf_congr (received_tags cmdResultFetch q pl (elapse dt s)) _).trans hte
    have h2 := (tagOf_congr (accepted_tags (c := cmdResultFetch) rfl q pl a (elapse dt s)) _).trans hte
    change event dt (hostCommand cmdResultFetch q pl) s = _
    rw [answers_of_tame tame_cmdResultFetch hs (congrArg CmdRes.rejects (effFetch_held h1 hoff hn hz)) (effFetch_held h2 hoff hn hz),
      Option.getD_some]
    rfl
  case executing =>
    exact replies_of_tags tame_cmdResultFetch (fun _ _ _ _ => rfl) rfl
      (fun r s t ht ⟨h, hr⟩ => ⟨(tagOf_congr ht _).trans h, hr⟩)
      fun r u ⟨ht, hn, hz⟩ => effFetch_executing ht hn hz
  case free =>
    exact replies_of_tags tame_cmdResultFetch (fun _ _ _ _ => rfl) rfl
      (fun r s t ht ⟨h, hr⟩ => ⟨(tagOf_congr ht _).trans h, hr⟩)
      fun r u ⟨ht, hn, hz⟩ => effFetch_free ht hn hz
  case released =>
    exact replies_of_tags tame_cmdResultRelease (fun _ _ _ _ => rfl) rfl
      (fun r s t ht h => (tagOf_congr ht _).trans h)
      fun r u ht => by change effRelease r u = _; simp only [effRelease, ht]
  case busy =>
    exact replies_of_tags tame_cmdResultRelease (fun _ _ _ _ => rfl) rfl
      (fun r s t ht h => (tagOf_congr ht _).trans h)
      fun r u ht => by change effRelease r u = _; simp only [effRelease, ht]
  case none =>
    exact replies_of_tags tame_cmdResultRelease (fun _ _ _ _ => rfl) rfl
      (fun r s t ht h => (tagOf_congr ht _).trans h)
      fun r u ht => by change effRelease r u = _; simp only [effRelease, ht]
  case sync =>
    refine replies_of_tame tame_cmdCreditSync (fun _ _ _ _ => rfl) (fun _ _ _ _ _ h => ⟨h, h⟩) fun r u ⟨hd, hz⟩ => ?_
    refine (checked_of_all (by simp [hd, hz]) _).trans ?_
    exact congrArg (fun k => CmdRes.answer stOK 0 _ none (discrepancyNoted r.org.tr _ _ _ k))
      (creditSync_tags (fld r.payload 4 1) r.org.tr u _ fun tag => by cases r.org.tr <;> rfl)

end Sys2Proof.Machine


/-! Snapshot commands (R535 to R542). -/

namespace Sys2Proof.Machine

/-- Source 0 acts on an armed trigger: it joins the sources of a snapshot tick to come, and is missed where that tick has begun. -/
theorem snapSource_zero_of_armed {s : State} (h : s.intg.armed = true) :
    snapSource 0 s =
      { s with intg :=
        if s.intg.pending.isSome && decide (s.intg.pendingUs < monoUs s) then { s.intg with snapMissed := s.intg.snapMissed + 1 }
        else
          { s.intg with
            pending := some (Nat.lor (s.intg.pending.getD 0) 1),
            pendingUs := if s.intg.pending.isSome then s.intg.pendingUs else monoUs s } } := by
  simp only [snapSource, h]
  cases s.intg.pending with
  | none => simp
  | some p => by_cases hl : s.intg.pendingUs < monoUs s <;> simp [hl, Nat.not_le.2, Nat.le_of_not_lt]

theorem effSnapshotRead_of {p : Bytes} {s : State} {x : Snapshot} (hx : s.intg.held = some x)
    (hy : ∃ y ∈ x.sections, fld p 0 1 = 0 ∨ y.1 = fld p 0 1) (hz : allZero (slice p 1 3) = true) :
    effSnapshotRead p s =
      .ok (le 4 x.seq.toNat ++ le 2 x.sources ++ le 1 (fld p 0 1) ++ le 1 x.mode ++ le 6 x.at_.sec ++
        le 2 ((x.sections.filter fun y => fld p 0 1 == 0 || y.1 == fld p 0 1).flatMap (·.2)).length ++ le 4 x.at_.ns ++ zeros 4 ++
        (x.sections.filter fun y => fld p 0 1 == 0 || y.1 == fld p 0 1).flatMap (·.2)) s := by
  simp only [effSnapshotRead, hx]
  refine checked_of_all ?_ _
  obtain ⟨y, hm, hy⟩ := hy
  have hne : x.sections.filter (fun y => fld p 0 1 == 0 || y.1 == fld p 0 1) ≠ [] :=
    List.ne_nil_of_mem (List.mem_filter.2 ⟨hm, by simpa using hy⟩)
  simpa [hz] using hne

theorem effFaultRead_of {p : Bytes} {s : State} {x : FaultRec} (ha : fld p 0 1 ≤ 31) (hx : (faultRecs s)[fld p 0 1]? = some x)
    (hi : x.intact = true) (hz : allZero (slice p 1 3) = true) : effFaultRead p s = .ok (faultBytes x) s := by
  simp only [effFaultRead, ha, if_true, hx]
  exact checked_of_all (by simp [hi, hz]) _

/-- Settles O5: SNAPSHOT_TRIGGER arms, and with ACTION 1 its source is that of `snapSource`; the others only read. -/
theorem snapshotCommandsComplete : Obligations.SnapshotCommandsComplete := by
  unfold Obligations.SnapshotCommandsComplete
  refine ⟨?arm, ?source, fun x => ?read, fun x => ?fault⟩
  case arm =>
    refine completes_of_tame tame_cmdSnapshotTrigger (fun _ _ _ _ => rfl) (fun _ _ _ _ _ _ h => h) fun r u _ ⟨ha, hz⟩ => ?_
    exact (checked_of_all (by simp [ha, hz]) _).trans (if_pos ha)
  case source =>
    refine begins_of_tame tame_cmdSnapshotTrigger (fun _ _ _ _ => rfl) (fun _ _ _ _ _ _ h => h) fun r u _ ⟨ha, hz⟩ => ?_
    refine (checked_of_all (by simp [ha, hz]) _).trans ((if_neg (by rw [ha]; decide)).trans ?_)
    exact congrArg (CmdRes.wait .snapshot) (snapSource_zero_of_armed rfl)
  case read =>
    exact completes_of_read (fun _ _ _ _ => rfl) (fun _ _ _ _ _ _ h => h) fun r u ⟨hx, hy, hz⟩ => effSnapshotRead_of hx hy hz
  case fault =>
    exact completes_of_read (fun _ _ _ _ => rfl) (fun _ _ _ _ _ _ h => h) fun r u ⟨ha, hx, hi, hz⟩ => effFaultRead_of ha hx hi hz

end Sys2Proof.Machine


/-! Key use commands (R97, R504, R505, R507). -/

namespace Sys2Proof.Machine

theorem needRandom_of {s : State} (h : noRandom s = false) (k : CmdRes) : needRandom s k = k := by rw [needRandom, h]; rfl

theorem slotKey_congr {s t : State} (h : t.sec.slots = s.sec.slots) (n : Nat) : slotKey t n = slotKey s n := by
  simp only [slotKey, h]

theorem slotKey_endSession (tr : Transport) (s : State) (n : Nat) :
    slotKey (endSession tr s) n = slotKey (eraseKey (sessionSlot tr + 1) (eraseKey (sessionSlot tr) s)) n :=
  slotKey_congr (by simp [endSession, eraseKey]) n

theorem noRandom_endSession (tr : Transport) (s : State) : noRandom (endSession tr s) = noRandom s := by
  simp [noRandom, endSession, eraseKey]

theorem keyRole_draw (s : State) (k : Nat) : keyRole (draw s) k = keyRole s k := rfl

theorem monoUs_draw (s : State) : monoUs (draw s) = monoUs s := rfl

theorem Attestable.ne_certificate {s : State} {sel : Nat} (h : Attestable s sel) : sel ≠ 0xFE := by
  rcases h with h | ⟨_, h, _⟩ <;> omega

/-- SEC_ATTEST of a selection that it attests: the record, signed if there is an identity key. -/
theorem effAttest_of {p : Bytes} {s : State} (h : Attestable s (fld p 0 1)) (hz : allZero (slice p 1 3) = true) :
    effAttest p s =
      match slotKey s 0 with
      | some d =>
        needRandom s
          (.ok (attestBytes s (fld p 0 1) (slice p 4 32) ++ (signWith d (sha384 (attestBytes s (fld p 0 1) (slice p 4 32))) s).1)
            (signWith d (sha384 (attestBytes s (fld p 0 1) (slice p 4 32))) s).2)
      | none => .ok (attestBytes s (fld p 0 1) (slice p 4 32) ++ zeros 96) s := by
  have ha : (decide (fld p 0 1 ≤ 2) || fld p 0 1 == 0xFE ||
      (decide (32 ≤ fld p 0 1) && decide (fld p 0 1 ≤ 63) && ((selected s (fld p 0 1)).isSome || s.sys.mode == .lockdown))) = true := by
    rcases h with h | ⟨hlo, hhi, hk⟩
    · simp [h]
    · rcases hk with hk | hk <;> simp [hlo, hhi, hk]
  refine (checked_of_all (by simp [ha, hz]) _).trans (if_neg h.ne_certificate)

/-- Settles O6: with a random source and the key that signs or wraps, each command draws what it needs in the order of the statement. -/
theorem keyUseCommandsComplete : Obligations.KeyUseCommandsComplete := by
  unfold Obligations.KeyUseCommandsComplete
  refine ⟨fun identity => ?session, fun d => ?attest, ?unsigned, ?certificate, fun d => ?sign, fun st => ?generate⟩
  case session =>
    refine completes_of_tame tame_cmdSessionOpen (fun _ _ _ _ => rfl) ?_ fun r u _ ⟨hz, hp, hy, hn, hi⟩ => ?_
    · intro r s h n o e ⟨hz, hp, hy, hn, hi⟩
      refine ⟨hz, hp, hy, hn, ?_⟩
      rw [slotKey_endSession] at hi ⊢
      exact hi
    · refine (checked_of_all (by simp [hz, hp, hy]) _).trans ?_
      refine (needRandom_of (by rw [noRandom_endSession]; exact hn) _).trans ?_
      rw [hi]
      simp only [trngBytes, signWith, keyRole_draw, monoUs_draw, draw_sec, draw_draws, Nat.add_assoc, Nat.reduceAdd, CmdRes.ok]
  case attest =>
    refine completes_of_tame tame_cmdAttest (fun _ _ _ _ => rfl) (fun _ _ _ _ _ _ h => h) fun r u _ ⟨hs, hz, hn, hk⟩ => ?_
    refine (effAttest_of hs hz).trans ?_
    rw [hk]
    exact needRandom_of hn _
  case unsigned =>
    refine completes_of_tame tame_cmdAttest (fun _ _ _ _ => rfl) (fun _ _ _ _ _ _ h => h) fun r u _ ⟨hs, hz, hk⟩ => ?_
    refine (effAttest_of hs hz).trans ?_
    rw [hk]
    rfl
  case certificate =>
    refine completes_of_tame tame_cmdAttest (fun _ _ _ _ => rfl) (fun _ _ _ _ _ _ h => h) fun r u _ ⟨hs, hz⟩ => ?_
    exact (checked_of_all (by simp [hs, hz]) _).trans (if_pos hs)
  case sign =>
    refine completes_of_tame tame_cmdKeySign (fun _ _ _ _ => rfl) (fun _ _ _ _ _ _ h => h) fun r u _ ⟨hlo, hhi, hk, hz, hn⟩ => ?_
    change effKeySign r.payload u = _
    simp only [effKeySign, hk]
    exact (checked_of_all (by simp [hlo, hhi, hz]) _).trans (needRandom_of hn _)
  case generate =>
    refine completes_of_tame tame_cmdKeyGenerate (fun _ _ _ _ => rfl) (fun _ _ _ _ _ _ h => h)
      fun r u _ ⟨hlo, hhi, hk, hz, hn, hst⟩ => ?_
    refine (checked_of_all (by simp [hlo, hhi, hk, hz]) _).trans ((needRandom_of hn _).trans ?_)
    rw [hst]
    rfl

end Sys2Proof.Machine


/-! Key table commands (R501, R503, R504, R507). -/

namespace Sys2Proof.Machine

/-- Settles O7: each command writes its table once its fields have passed. -/
theorem keyTableCommandsComplete : Obligations.KeyTableCommandsComplete := by
  unfold Obligations.KeyTableCommandsComplete
  refine ⟨fun place => ?enter, fun k => ?remove, fun k st => ?import_, fun k => ?delete, fun d => ?cert⟩
  case enter =>
    refine completes_of_tame tame_cmdKeyInstall (fun _ _ _ _ => rfl) (fun _ _ _ _ _ _ h => h)
      fun r u _ ⟨hlo, hhi, hk, hp, hr1, hr3, hz, hpt, hz'⟩ => ?_
    have h0 : fld r.payload 2 1 ≠ 0 := by omega
    refine (checked_of_all (by simp [hlo, hhi, hk, hp, h0, hr3, hz, hpt, hz']) _).trans ?_
    simp only [h0, if_false, hp]
    rfl
  case remove =>
    refine completes_of_tame tame_cmdKeyInstall (fun _ _ _ _ => rfl) (fun _ _ _ _ _ _ h => h)
      fun r u _ ⟨hk, hb, h0, hz, hp, hz'⟩ => ?_
    refine (checked_of_all (by simp [hk, hb, h0, hz, hp, hz']) _).trans ?_
    simp only [h0, if_true]
    rfl
  case import_ =>
    refine completes_of_tame tame_cmdKeyImport (fun _ _ _ _ => rfl) (fun _ _ _ _ _ _ h => h)
      fun r u _ ⟨ht, hz, hpt, hz', hk, hn, hst⟩ => ?_
    refine (checked_of_all ?_ _).trans ((needRandom_of hn _).trans ?_)
    · rcases ht with ht | ⟨ht, he⟩
      · simp [ht, hz, hpt, hz', hk]
      · simp [ht, he, hz, hpt, hz', hk]
    · rw [hk, hst]
      rcases ht with ht | ⟨ht, -⟩
      · simp only [ht, show ¬ (2 = 1) by decide, if_false]
        rfl
      · simp only [ht, if_true]
        rfl
  case delete =>
    refine completes_of_tame tame_cmdKeyDelete (fun _ _ _ _ => rfl) (fun _ _ _ _ _ _ h => h)
      fun r u _ ⟨hlo, hhi, hk, hz⟩ => checked_of_all (by simp [hlo, hhi, hk, hz]) _
  case cert =>
    refine completes_of_tame tame_cmdIdentityCert (fun _ _ _ _ => rfl) (fun _ _ _ _ _ _ h => h) fun r u _ ⟨hk, hc⟩ => ?_
    change effIdentityCert r.payload u = _
    simp only [effIdentityCert, hk]
    exact checked_of_all (by simp [hc]) _

end Sys2Proof.Machine


/-! Lifecycle and image commands (R508, R509, R517, R518, R525). -/

namespace Sys2Proof.Machine

theorem stage_setImageSlot (b : Bool) (x : ImageSlot) (c : ImageClass) : (setImageSlot b x c).stage = c.stage := by
  unfold setImageSlot; split <;> rfl

/-- What an image chunk that SEC_IMAGE_STAGE takes does. -/
theorem effImageStage_of {p old : Bytes} {s : State} {stage : Nat} (h : ImageChunk s p old)
    (hl : (old ++ p.drop 12).length ≤ fld p 8 4) (hs : stage = if (old ++ p.drop 12).length = fld p 8 4 then 2 else 1) :
    effImageStage p s =
      if stage = 2 then .wait (.imageVerify (fld p 0 1)) (updClass (fld p 0 1) (fun _ => chunkStored s p old stage) s)
      else .ok (imageStageBody (chunkStored s p old stage)) (updClass (fld p 0 1) (fun _ => chunkStored s p old stage) s) := by
  obtain ⟨hlo, hhi, h2, h5, hz, hold, hmin, hmax⟩ := h
  have hgot : (if fld p 4 4 == 0 then p.drop 12 else (imageOf s (fld p 0 1)).received ++ p.drop 12) = old ++ p.drop 12 := by
    rcases hold with ⟨h0, rfl⟩ | ⟨h0, _, rfl, _⟩ <;> simp [h0]
  have hend : fld p 4 4 + (p.drop 12).length = (old ++ p.drop 12).length := by
    rcases hold with ⟨h0, rfl⟩ | ⟨_, _, _, hoff, _⟩ <;> simp [*]
  simp only [effImageStage, hgot]
  rw [if_neg (by simp [h2, h5])]
  refine (checked_of_all ?_ _).trans ?_
  · have hfirst : (fld p 4 4 == 0 || ((imageOf s (fld p 0 1)).stage == 1 && fld p 4 4 == (imageOf s (fld p 0 1)).received.length)) =
        true ∧ (fld p 4 4 == 0 || fld p 8 4 == (imageOf s (fld p 0 1)).length) = true := by
      rcases hold with ⟨h0, _⟩ | ⟨_, h1, ho, hoff, hlen⟩
      · simp [h0]
      · simp [h1, ← ho, hoff, hlen]
    simp only [hend, List.forall_mem_cons, hfirst.1, hfirst.2]
    simpa [hlo, hhi, hz, hmin, hmax] using hl
  · simp only [← hs, stage_setImageSlot]
    rfl

/-- Settles O8: a chunk is stored and then either answered or, when it completes the image, left to its verification; the other commands
pass their checks and act. -/
theorem lifecycleAndImageCommandsComplete : Obligations.LifecycleAndImageCommandsComplete := by
  unfold Obligations.LifecycleAndImageCommandsComplete
  refine ⟨?advance, ?release, fun old => ?chunk, fun old => ?whole, ?activate⟩
  case advance =>
    refine completesThen_of_tame tame_cmdLifecycle (fun _ _ _ _ => rfl) ?_ fun r u _ ⟨ht, h4, hc, hz⟩ => ?_
    · intro q pl a s _ h
      obtain ⟨_, er⟩ := received_eq cmdLifecycle q pl s
      obtain ⟨_, _, _, _, ea⟩ := accepted_eq cmdLifecycle q pl a s
      rw [er, ea]
      exact ⟨h, h⟩
    · refine (checked_of_all ?_ _).trans ?_
      · by_cases h1 : u.sec.lifecycle.code = 1
        · obtain ⟨hcert, hco⟩ := hc h1
          simp [ht, h1, hcert, hco, hz]
        · simp [ht, h1, hz]
          omega
      · simp only [ht]
        rfl
  case release =>
    refine completesThen_of_tame tame_cmdTamperRelease (fun _ _ _ _ => rfl) ?_ fun r u _ ⟨hc, hz⟩ => ?_
    · intro q pl a s _ h
      obtain ⟨_, er⟩ := received_eq cmdTamperRelease q pl s
      obtain ⟨_, _, _, _, ea⟩ := accepted_eq cmdTamperRelease q pl a s
      rw [er, ea]
      exact ⟨h, h⟩
    · exact (checked_of_all (by simp [hc, hz]) _).trans rfl
  case chunk =>
    refine completes_of_tame tame_cmdImageStage (fun _ _ _ _ => rfl) (fun _ _ _ _ _ _ h => h) fun r u _ ⟨hch, hl⟩ => ?_
    exact (effImageStage_of hch (by omega) (if_neg (by omega)).symm).trans (if_neg (by decide))
  case whole =>
    refine begins_of_tame tame_cmdImageStage (fun _ _ _ _ => rfl) (fun _ _ _ _ _ _ h => h) fun r u _ ⟨hch, hl⟩ => ?_
    exact (effImageStage_of hch (by omega) (if_pos hl).symm).trans (if_pos rfl)
  case activate =>
    refine begins_of_tame tame_cmdImageActivate (fun _ _ _ _ => rfl) (fun _ _ _ _ _ _ h => h)
      fun r u _ ⟨hlo, hhi, h3, hz, hd⟩ => ?_
    change effImageActivate r.payload u = _
    simp only [effImageActivate]
    rw [if_neg (by simp [h3])]
    exact (checked_of_all (by simp [hlo, hhi, h3, hz, hd]) _).trans rfl

end Sys2Proof.Machine


/-! SOLV_TEST_WRITE also takes the marks off the words that it writes whole (R175). -/

namespace Sys2Proof.Machine

/-- SOLV_TEST_WRITE writes as a job does. -/
theorem testWrites : Completes .solvTestWrite cmdTestWrite
    (fun r _ => fld r.payload 0 4 + (r.payload.length - 8) ≤ testSize ∧ fld r.payload 4 4 = 0) stOK (fun _ _ => [])
    (fun r u => jobWrite u (0, testBase + fld r.payload 0 4, r.payload.drop 8)) :=
  completes_of_tame tame_cmdTestWrite (fun _ _ _ _ => rfl) (fun _ _ _ _ _ _ h => h)
    fun _ _ _ ⟨hn, hz⟩ => checked_of_all (by simp [hn, hz]) _

/-- The first word of the test region stands marked as uncorrectable, and a session of role 2 is open on xSPI. -/
def markedTestRegion : State :=
  { State.reset with
    sys := { Sys.reset with mode := .service },
    hif := { Hif.reset with
      up := true,
      xspi := { Hif.reset.xspi with
        session := some { id := 1, keyId := 1, role := 2, h2d := zeros 48, d2h := zeros 48, serial := 1, last := 0 } } },
    intg := { Intg.reset with marked := [(10, testBase / 8)] } }

/-- The first 8 bytes of the test region, all zero. -/
def firstTestWord : Bytes := zeros 16

/-- The packet that writes them. -/
def firstTestWordEnv (sess : Bytes) : Env :=
  { tr := .xspi, srcIp := 0, srcPort := 0, tag := 3, epoch := 0, seq := 0, e2e := false, sig := none, sess := some sess }

def firstTestWordPacket : Env := firstTestWordEnv (hmac384 (zeros 48) (envPkt cmdTestWrite.op (firstTestWordEnv (zeros 48)) firstTestWord).pre)

def hostOfSession : Auth := { level := 2, keyId := 1, counter := 0, signed := false, a3 := false, session := some 1 }

theorem arrives_markedTestRegion : Arrives cmdTestWrite 0 firstTestWordPacket firstTestWord hostOfSession markedTestRegion where
  quiet := by decide
  admitted := by decide +kernel
  direct := by decide +kernel

theorem canonical_markedTestRegion : Canonical markedTestRegion = true := by decide +kernel

/-- A word of the test region that is written whole loses its mark. -/
theorem jobWrite_firstTestWord (s : State) : (10, testBase / 8) ∉ (jobWrite s (0, testBase, zeros 8)).intg.marked := by
  have hl : locate 0 testBase = some (.test, 0) := by decide
  simp only [jobWrite, hl, unmark, List.mem_filter]
  exact fun h => absurd h.2 (by decide)

/-- Refutes O9: SOLV_TEST_WRITE of a whole word that stands marked as uncorrectable also takes the mark off, so that more than the test
region changes. -/
theorem not_solverCommandsComplete : ¬ Obligations.SolverCommandsComplete := by
  unfold Obligations.SolverCommandsComplete
  rintro ⟨-, hw, -⟩
  obtain ⟨m, he, -⟩ := hw 0 firstTestWordPacket firstTestWord hostOfSession markedTestRegion arrives_markedTestRegion
    canonical_markedTestRegion (by decide) (by decide)
  have hx := testWrites 0 firstTestWordPacket firstTestWord hostOfSession markedTestRegion arrives_markedTestRegion ⟨by decide, by decide⟩
  have hi := congrArg (fun t : State => t.intg.marked) (Host.Outcome.next.inj (he.symm.trans hx))
  have hp : (requestOf cmdTestWrite firstTestWordPacket firstTestWord hostOfSession).payload = firstTestWord := rfl
  simp only [answered, complete_intg, accepted_intg, hp, show fld firstTestWord 0 4 = 0 by decide,
    show firstTestWord.drop 8 = zeros 8 by decide, Nat.add_zero, elapse_intg arrives_markedTestRegion.quiet.nothingWaits] at hi
  have hm : (10, testBase / 8) ∈ markedTestRegion.intg.marked := List.mem_singleton_self _
  rw [hi] at hm
  exact jobWrite_firstTestWord _ hm

end Sys2Proof.Machine


/-! Model, round and substation commands. -/

namespace Sys2Proof.Machine

/-- A command completes at once with a status and REGULARISED of its own. -/
theorem done_of_tame {c : Cmd} {dt st : Nat} {reg : Bool} {q : Env} {pl b : Bytes} {a : Auth} {s t : State}
    (hc : c.Tame) (h : Arrives c dt q pl a s)
    (hr : (c.eff (requestOf c q pl a) (received c q pl (elapse dt s))).rejects = false)
    (hd : c.eff (requestOf c q pl a) (accepted c q pl a (elapse dt s)) = .done st reg b t) :
    event dt (hostCommand c q pl) s = .next (complete q.tag.toNat st reg b t) := by
  have hx := hostCommand_done h.admitted (by rw [elapse_logs h.quiet.nothingWaits]; exact h.direct) hr hd
  have hs : Steady (accepted c q pl a (elapse dt s)) t := (hd ▸ hc _ _ : (CmdRes.done ..).Leaves _).loose.steady
  obtain ⟨_, _, _, _, ea⟩ := accepted_eq c q pl a (elapse dt s)
  have hst : Steady (elapse dt s) (accepted c q pl a (elapse dt s)) := by rw [ea]; exact steady_withAcceptance _ _ _ _ _
  rw [event_of_steady h.quiet, hx]
  rw [hx]
  exact (hst.trans hs).trans (.of_kept (complete_sys ..) (complete_pair ..) (complete_pending ..))

/-- A chunk of a Mizon image that NMOD_MODEL_LOAD takes. -/
theorem effModelLoad_of {p : Bytes} {s : State} (h2 : s.nmod.stage.code ≠ 2) (h5 : s.nmod.stage.code ≠ 5)
    (hc : firstBad (chunkChecks s.nmod.stage 68 2693956 p) = none) :
    effModelLoad p s =
      if (chunkTake s.nmod.stage p).code = 2 then
        .wait .modelValidation { s with nmod := { s.nmod with stage := chunkTake s.nmod.stage p, staged := none } }
      else
        .ok (stageBody (chunkTake s.nmod.stage p))
          { s with nmod := { s.nmod with stage := chunkTake s.nmod.stage p, staged := none } } := by
  simp only [effModelLoad, checked, hc]
  exact if_neg (by simp [h2, h5])

/-- Settles O10: a chunk is taken as `effModelLoad_of` says, and the other commands act on the model or proposal that they name. -/
theorem modelCommandsComplete : Obligations.ModelCommandsComplete := by
  unfold Obligations.ModelCommandsComplete
  refine ⟨?chunk, ?whole, fun m => ?activate, ?get, fun p m => ?adopt⟩
  case chunk =>
    refine completes_of_tame tame_cmdModelLoad (fun _ _ _ _ => rfl) (fun _ _ _ _ _ _ h => h) fun r u _ ⟨h2, h5, hc, h1⟩ => ?_
    exact (effModelLoad_of h2 h5 hc).trans (if_neg (by omega))
  case whole =>
    refine begins_of_tame tame_cmdModelLoad (fun _ _ _ _ => rfl) (fun _ _ _ _ _ _ h => h) fun r u _ ⟨h2, h5, hc, h2'⟩ => ?_
    exact (effModelLoad_of h2 h5 hc).trans (if_pos h2')
  case activate =>
    refine begins_of_tame tame_cmdModelActivate (fun _ _ _ _ => rfl) (fun _ _ _ _ _ _ h => h) fun r u _ ⟨hm, hs, hi, hr⟩ => ?_
    have h5 : u.nmod.stage.code ≠ 5 := by omega
    change effActivate r.payload u = _
    simp only [effActivate, h5, if_false, hm]
    exact checked_of_all (by simpa [hi, hr] using hs) _
  case get => exact completes_of_read (fun _ _ _ _ => rfl) (fun _ _ _ _ _ _ h => h) fun _ _ _ => rfl
  case adopt =>
    refine begins_of_tame tame_cmdCalibAdopt (fun _ _ _ _ => rfl) (fun _ _ _ _ _ _ h => h)
      fun r u _ ⟨hp, hm, h0, hid, hrev, hz, h5⟩ => ?_
    change effCalibAdopt r.payload u = _
    simp only [effCalibAdopt, hp, hm]
    exact (checked_of_all (by simp [h0, hid, hrev, hz]) _).trans (if_neg h5)

/-! ### Rounds -/

theorem resultGet_est {p : Bytes} {s : State} {x : EstRes} (h0 : fld p 0 1 = 0)
    (h : (fld p 1 1 = 0 ∧ s.nmod.estResults.head? = some x) ∨
      (fld p 1 1 = 1 ∧ s.nmod.estResults.find? (fun y => y.round == fld p 8 8) = some x)) :
    resultGet p s = some (x.status, bit x.flags 1, estBody x) ∧ fld p 1 1 ≤ 1 := by
  rcases h with ⟨h1, hx⟩ | ⟨h1, hx⟩ <;> simp [resultGet, h0, h1, hx]

theorem resultGet_opt {p : Bytes} {s : State} {x : OptRes} (h0 : fld p 0 1 = 1)
    (h : (fld p 1 1 = 0 ∧ s.nmod.optResults.head? = some x) ∨
      (fld p 1 1 = 1 ∧ s.nmod.optResults.find? (fun y => y.start == fld p 8 8) = some x)) :
    resultGet p s = some (x.status, bit x.flags 1, optBody x) ∧ fld p 1 1 ≤ 1 := by
  rcases h with ⟨h1, hx⟩ | ⟨h1, hx⟩ <;> simp [resultGet, h0, h1, hx]

theorem effResultGet_of {r : Req} {s : State} {st : Nat} {reg : Bool} {b : Bytes} (h0 : fld r.payload 0 1 ≤ 2)
    (h1 : fld r.payload 1 1 ≤ 1) (hz : allZero (slice r.payload 2 6) = true) (hg : resultGet r.payload s = some (st, reg, b)) :
    effResultGet r s = .done st reg b s := by
  simp only [effResultGet, hg]
  exact checked_of_all (by simp [h0, h1, hz]) _

/-- NMOD_RESULT_GET answers what is retained, which acceptance leaves. -/
theorem resultGet_answers {dt : Nat} {q : Env} {pl : Bytes} {a : Auth} {s : State} {st : Nat} {reg : Bool} {b : Bytes}
    (h : Arrives cmdResultGet dt q pl a s) (h0 : fld pl 0 1 ≤ 2) (h1 : fld pl 1 1 ≤ 1) (hz : allZero (slice pl 2 6) = true)
    (hg : resultGet pl s = some (st, reg, b)) :
    exec (.nmodResultGet dt q pl) s = .next (complete q.tag.toNat st reg b (accepted cmdResultGet q pl a (elapse dt s))) := by
  have hg' (t : State) (ht : t.nmod = s.nmod) : effResultGet (requestOf cmdResultGet q pl a) t = .done st reg b t :=
    effResultGet_of h0 h1 hz (by rw [← hg]; simp only [resultGet, requestOf, ht]; rfl)
  have hr : (received cmdResultGet q pl (elapse dt s)).nmod = s.nmod := by
    obtain ⟨_, er⟩ := received_eq cmdResultGet q pl (elapse dt s)
    rw [er]; exact elapse_nmod h.quiet.nothingWaits dt
  have ha : (accepted cmdResultGet q pl a (elapse dt s)).nmod = s.nmod := by simp [h.quiet.nothingWaits]
  exact done_of_tame tame_cmdResultGet h (congrArg CmdRes.rejects (hg' _ hr)) (hg' _ ha)

theorem effForecast_of {p : Bytes} {s : State} (hlo : 1 ≤ fld p 0 1) (hhi : fld p 0 1 ≤ 7)
    (hroom : ((mergeSeries s.nmod.forecasts s.nmod.forecastPend).filter fun x =>
      !(x.1 == fld p 0 1 && x.2.1 == fld p 2 2)).length < 256)
    (hz1 : fld p 1 1 = 0) (hidx : fld p 0 1 = 1 ∨ fld p 0 1 = 4 → fld p 2 2 = 0) (hn : 1 ≤ fld p 4 2) (hn' : fld p 4 2 ≤ 384)
    (hlen : p.length = 24 + 8 * fld p 4 2) (hz6 : fld p 6 2 = 0) (hz14 : fld p 14 2 = 0)
    (hstep : fld p 16 4 ∈ [300, 600, 900, 1800, 3600]) (hz20 : fld p 20 4 = 0)
    (hv : ∀ k < fld p 4 2, fFinite f64 (fld p (24 + 8 * k) 8) = true) :
    effForecast p s =
      .ok [] { s with nmod := { s.nmod with
        forecastPend := s.nmod.forecastPend ++
          [(fld p 0 1, fld p 2 2, fld p 8 6, fld p 16 4, (List.range (fld p 4 2)).map fun k => fld p (24 + 8 * k) 8)] } } := by
  have hbad : (List.range (fld p 4 2)).find? (fun k => !fFinite f64 (fld p (24 + 8 * k) 8)) = none := by
    rw [List.find?_eq_none]
    intro k hk
    simp [hv k (List.mem_range.1 hk)]
  simp only [effForecast, hbad]
  refine checked_of_all ?_ _
  simp [hlo, hhi, hz1, hn, hn', hlen, hz6, hz14, hz20]
  refine ⟨by simpa only [Bool.not_and] using hroom, ?_, by simpa using hstep⟩
  split
  · next h => simpa using hidx (.inl h)
  · next h => simpa using hidx (.inr h)
  · rfl

/-- Settles O11: a configuration is answered or kept, a result answered as it is retained, a forecast kept as it came. -/
theorem roundCommandsComplete : Obligations.RoundCommandsComplete := by
  unfold Obligations.RoundCommandsComplete
  refine ⟨?round, ?roundWaits, ?est, ?opt, ?record, ?optCfg, ?optKept, ?forecast⟩
  case round =>
    refine completes_of_read (fun _ _ _ _ => rfl) (fun _ _ _ _ _ _ h => h) fun r u h => ?_
    exact if_pos (by rw [h]; rfl)
  case roundWaits =>
    refine begins_of_tame tame_cmdRoundConfig (fun _ _ _ _ => rfl) (fun _ _ _ _ _ _ h => h) fun r u _ ⟨hp, hc⟩ => ?_
    change effRoundConfig r.payload u = _
    simp only [effRoundConfig, checked, hc]
    exact if_neg (by simpa using hp)
  case est =>
    intro dt q pl a s x h h0 hz hx
    obtain ⟨hg, h1⟩ := resultGet_est h0 hx
    exact resultGet_answers h (by omega) h1 hz hg
  case opt =>
    intro dt q pl a s x h h0 hz hx
    obtain ⟨hg, h1⟩ := resultGet_opt h0 hx
    exact resultGet_answers h (by omega) h1 hz hg
  case record =>
    refine completes_of_read (fun _ _ _ _ => rfl) (fun _ _ _ _ _ _ h => h) fun r u ⟨h0, h1, hz⟩ => ?_
    exact effResultGet_of (by omega) h1 hz (by simp [resultGet, h0])
  case optCfg =>
    refine completes_of_read (fun _ _ _ _ => rfl) (fun _ _ _ _ _ _ h => h) fun r u h => ?_
    exact if_pos (by rw [h]; rfl)
  case optKept =>
    refine completes_of_tame tame_cmdOptConfig (fun _ _ _ _ => rfl) (fun _ _ _ _ _ _ h => h) fun r u _ ⟨hp, hc⟩ => ?_
    change effOptConfig r.payload u = _
    simp only [effOptConfig, checked, hc]
    exact if_neg (by simpa using hp)
  case forecast =>
    refine completes_of_tame tame_cmdForecastLoad (fun _ _ _ _ => rfl) (fun _ _ _ _ _ _ h => h) fun r u _ h => ?_
    obtain ⟨hlo, hhi, hroom, hz1, hidx, hn, hn', hlen, hz6, hz14, hstep, hz20, hv⟩ := h
    exact effForecast_of hlo hhi hroom hz1 hidx hn hn' hlen hz6 hz14 hstep hz20 hv

/-! ### Substations -/

/-- Settles O12: the entry or removal waits behind those sent before; the counters are only read. -/
theorem substationCommandsComplete : Obligations.SubstationCommandsComplete := by
  unfold Obligations.SubstationCommandsComplete
  refine ⟨?register, ?unregister, fun x => ?status⟩
  case register =>
    refine begins_of_tame tame_cmdSublRegister (fun _ _ _ _ => rfl) (fun _ _ _ _ _ _ h => h) fun r u _ ⟨hi, hb, hr, hz⟩ => ?_
    exact checked_of_all (by simp [hi, hb, hr, hz]) _
  case unregister =>
    refine begins_of_tame tame_cmdSublUnregister (fun _ _ _ _ => rfl) (fun _ _ _ _ _ _ h => h) fun r u _ ⟨hr, hz⟩ => ?_
    exact checked_of_all (by simp [hr, hz]) _
  case status =>
    refine completes_of_read (fun _ _ _ _ => rfl) (fun _ _ _ _ _ _ h => h) fun r u ⟨hx, hz⟩ => ?_
    change effSublStatus r.payload u = _
    simp only [effSublStatus, hx]
    exact checked_of_all (by simp [hz]) _

end Sys2Proof.Machine


/-! Block image, force and task commands. -/

namespace Sys2Proof.Machine

/-- A chunk of a block image that CTRL_IMAGE_LOAD takes. -/
theorem effCtrlImageLoad_of {p : Bytes} {s : State} (h2 : s.ctrl.stage.code ≠ 2) (h5 : s.ctrl.stage.code ≠ 5)
    (hc : firstBad (chunkChecks s.ctrl.stage 64 1048576 p) = none) :
    effCtrlImageLoad p s =
      if (chunkTake s.ctrl.stage p).code = 2 then
        .wait .blockValidation { s with ctrl := { s.ctrl with stage := chunkTake s.ctrl.stage p, staged := none } }
      else
        .ok (stageBody (chunkTake s.ctrl.stage p))
          { s with ctrl := { s.ctrl with stage := chunkTake s.ctrl.stage p, staged := none } } := by
  simp only [effCtrlImageLoad, checked, hc]
  exact if_neg (by simp [h2, h5])

/-- Settles O13: a chunk is taken as `effCtrlImageLoad_of` says, and the other commands act on the staged image that they name. -/
theorem blockImageCommandsComplete : Obligations.BlockImageCommandsComplete := by
  unfold Obligations.BlockImageCommandsComplete
  refine ⟨?chunk, ?whole, fun b => ?cold, fun a b => ?online⟩
  case chunk =>
    refine completes_of_tame tame_cmdCtrlImageLoad (fun _ _ _ _ => rfl) (fun _ _ _ _ _ _ h => h) fun r u _ ⟨h2, h5, hc, h1⟩ => ?_
    exact (effCtrlImageLoad_of h2 h5 hc).trans (if_neg (by omega))
  case whole =>
    refine begins_of_tame tame_cmdCtrlImageLoad (fun _ _ _ _ => rfl) (fun _ _ _ _ _ _ h => h) fun r u _ ⟨h2, h5, hc, h2'⟩ => ?_
    exact (effCtrlImageLoad_of h2 h5 hc).trans (if_pos h2')
  case cold =>
    refine completes_of_tame tame_cmdColdStart (fun _ _ _ _ => rfl) (fun _ _ _ _ _ _ h => h) fun r u _ ⟨hb, hs, hi, hr⟩ => ?_
    change effColdStart r.payload u = _
    simp only [effColdStart, hb]
    exact checked_of_all (by simpa [hi, hr] using hs) _
  case online =>
    refine begins_of_tame tame_cmdOnlineChange (fun _ _ _ _ => rfl) (fun _ _ _ _ _ _ h => h)
      fun r u _ ⟨ha, hb, hs, hi, hr, ho, hz⟩ => ?_
    have h5 : u.ctrl.stage.code ≠ 5 := by omega
    change effOnlineChange r.payload u = _
    simp only [effOnlineChange, updCtrl, h5, if_false, ha, hb]
    refine (checked_of_all ?_ _).trans rfl
    simpa [hi, hr, ho, hz] using hs

/-! ### Forces and tasks -/

theorem effTaskStatus_of {p : Bytes} {s : State} (he : fld p 0 1 ≤ 1) (ht : fld p 1 1 ≤ 15) (hz : allZero (slice p 2 2) = true) :
    effTaskStatus p s =
      match taskSt s (fld p 0 1) (fld p 1 1) with
      | none => .ok (le 1 7 ++ zeros 39 ++ le 4 0xFFFFFFFF ++ zeros 4) s
      | some x =>
        .ok (le 1 (taskState s (fld p 0 1) x) ++
          le 1 (4 * b2n x.overflowed + 2 * b2n x.div0 + b2n (drivesAny s (fld p 0 1) (fld p 1 1))) ++ zeros 2 ++
          le 4 x.cycleCount.toNat ++ le 4 x.skippedAll.toNat ++ le 4 x.overruns.toNat ++ le 4 x.lastRun.toNat ++
          le 4 x.maxRun.toNat ++ le 6 (stampOfUs x.release).sec ++ zeros 2 ++ le 4 (stampOfUs x.release).ns ++
          le 4 x.journalPeak ++ le 4 x.faultPc ++ le 4 x.faultAddr) s :=
  checked_of_all (by simp [he, ht, hz]) _

/-- Settles O14: the table of forces and the state of a task are written as the commands say. -/
theorem forceAndTaskCommandsComplete : Obligations.ForceAndTaskCommandsComplete := by
  unfold Obligations.ForceAndTaskCommandsComplete
  refine ⟨fun b v => ?set, ?clear, ?list, fun d => ?stop, fun d => ?restart, ?undefined, fun x => ?status⟩
  case set =>
    refine completes_of_tame tame_cmdForceSet (fun _ _ _ _ => rfl) (fun _ _ _ _ _ _ h => h)
      fun r u _ ⟨hb, hv, hd, hroom, hz, hok⟩ => ?_
    have hr : ((u.ctrl.forces.any fun f => f.var == fld r.payload 0 4) || decide (u.ctrl.forces.length < 256)) = true := by
      simpa using hroom
    exact checked_of_all (by simp [hb, hv, hd, hr, hz, hok]) _
  case clear =>
    exact completes_of_tame tame_cmdForceClear (fun _ _ _ _ => rfl) (fun _ _ _ _ _ _ h => h)
      fun r u _ hz => checked_of_all (by simp [hz]) _
  case list => exact completes_of_read (fun _ _ _ _ => rfl) (fun _ _ _ _ _ _ h => h) fun _ _ _ => rfl
  case stop =>
    refine completes_of_tame tame_cmdTaskControl (fun _ _ _ _ => rfl) (fun _ _ _ _ _ _ h => h) fun r u _ ⟨he, ht, h0, hz⟩ => ?_
    exact (checked_of_all (by simp [he, ht, h0, hz]) _).trans (if_pos h0)
  case restart =>
    refine completes_of_tame tame_cmdTaskControl (fun _ _ _ _ => rfl) (fun _ _ _ _ _ _ h => h) fun r u _ ⟨he, ht, h1, hz⟩ => ?_
    exact (checked_of_all (by simp [he, ht, h1, hz]) _).trans (if_neg (by omega))
  case undefined =>
    refine completes_of_read (fun _ _ _ _ => rfl) (fun _ _ _ _ _ _ h => h) fun r u ⟨he, ht, hz, hx⟩ => ?_
    exact (effTaskStatus_of he ht hz).trans (by rw [hx])
  case status =>
    refine completes_of_read (fun _ _ _ _ => rfl) (fun _ _ _ _ _ _ h => h) fun r u ⟨he, ht, hz, hx⟩ => ?_
    exact (effTaskStatus_of he ht hz).trans (by rw [hx])

end Sys2Proof.Machine


/-! Time, calendar and panel commands. -/

namespace Sys2Proof.Machine

/-! ### TIME_SET and TIME_TRIGGER_SET (R433, R437) -/

theorem not_busy {s : State} (ha : s.time.servo ≠ .acquiring) (hl : servoLocked s = false) :
    ¬ (s.time.servo == .acquiring || servoLocked s) = true := by simp [ha, hl]

/-- Settles O16: the fields pass, and the clock or the trigger is set as they say. -/
theorem timeCommandsComplete : Obligations.TimeCommandsComplete := by
  unfold Obligations.TimeCommandsComplete
  refine ⟨?now, ?atPps, ?single, ?train, ?off, ?capture⟩
  case now =>
    refine completes_of_tame tame_cmdTimeSet (fun _ _ _ _ => rfl) (fun _ _ _ _ _ _ h => h)
      fun r u _ ⟨h0, h1, hlo, hhi, hns, ha, hl⟩ => ?_
    refine (checked_of_all (by simp [h0, h1, hlo, hhi, hns]) _).trans ((if_neg (not_busy ha hl)).trans ?_)
    exact if_neg (by omega)
  case atPps =>
    refine begins_of_tame tame_cmdTimeSet (fun _ _ _ _ => rfl) (fun _ _ _ _ _ _ h => h)
      fun r u _ ⟨h0, h1, hlo, hhi, hns, ha, hl⟩ => ?_
    refine (checked_of_all (by simp [h0, h1, hlo, hhi, hns]) _).trans ((if_neg (not_busy ha hl)).trans ?_)
    exact if_pos h0
  case single =>
    refine completes_of_tame tame_cmdTriggerSet (fun _ _ _ _ => rfl) (fun _ _ _ _ _ _ h => h)
      fun r u _ ⟨h0, h1, h2, h3, hc, hs, hz, hns, hz', hp, hw, hw'⟩ => ?_
    refine (checked_of_all (by simp [h0, h1, h2, h3, hc, hs, hz, hns, hz', hp, hw, hw']) _).trans ?_
    simp [h1, hp, hc, updTime, CmdRes.ok]
  case train =>
    refine completes_of_tame tame_cmdTriggerSet (fun _ _ _ _ => rfl) (fun _ _ _ _ _ _ h => h)
      fun r u _ ⟨h0, h1, h2, h3, hz, hns, hz', hp, hp', hw, hw'⟩ => ?_
    refine (checked_of_all (by simp [h0, h1, h2, h3, hz, hns, hz', hp, hp', hw, hw']) _).trans ?_
    simp [h1, updTime, CmdRes.ok]
  case off =>
    refine completes_of_tame tame_cmdTriggerSet (fun _ _ _ _ => rfl) (fun _ _ _ _ _ _ h => h)
      fun r u _ ⟨h0, h1, h2, h3, hc, hz, hns, hz', hp⟩ => ?_
    refine (checked_of_all (by simp [h0, h1, h2, h3, hc, hz, hns, hz', hp]) _).trans ?_
    simp [h1, updTime, CmdRes.ok]
  case capture => exact completes_of_read (fun _ _ _ _ => rfl) (fun _ _ _ _ _ _ h => h) fun _ _ _ => rfl

/-! ### Calendar and panel -/

theorem effEpdDraw_of {r : Req} {s : State} (hon : panelOn s = true) (hlo : 2 ≤ fld r.payload 0 1) (hhi : fld r.payload 0 1 ≤ 15)
    (hw : bits (fld r.payload 1 1) 2 1 ≠ 0) (hf : fld r.payload 1 1 < 8) (hz : fld r.payload 2 2 = 0) (hz' : fld r.payload 12 4 = 0)
    (heven : fld r.payload 8 2 % 2 = 0) (hwide : fld r.payload 8 2 ≠ 0) (hhigh : fld r.payload 10 2 ≠ 0)
    (hx : fld r.payload 4 2 + fld r.payload 8 2 ≤ panelWidth s) (hy : panelHeight s / 8 * 2 ≤ fld r.payload 6 2)
    (hy' : fld r.payload 6 2 + fld r.payload 10 2 ≤ panelHeight s)
    (hpx : (r.payload.drop 16).length = fld r.payload 8 2 * fld r.payload 10 2 / 2 ∨
      (bit (fld r.payload 1 1) 0 = true ∧ r.payload.drop 16 = [])) :
    effEpdDraw r s =
      let area : Rect := ⟨fld r.payload 4 2, fld r.payload 6 2, fld r.payload 8 2, fld r.payload 10 2⟩
      let drawn := { s with epd := { s.epd with canvas := drawPixels area (r.payload.drop 16) s.epd.canvas } }
      if bit (fld r.payload 1 1) 0 = true then
        .wait (.display s.epd.nextId)
          (epdRequest
            { id := s.epd.nextId, region := fld r.payload 0 1, rect := area, waveform := bits (fld r.payload 1 1) 2 1, all := false,
              auto := false }
            { drawn with epd := { drawn.epd with nextId := s.epd.nextId + 1, rects := vset s.epd.rects (fld r.payload 0 1) area } })
      else .ok [] drawn := by
  have hp : ((r.payload.drop 16).length == fld r.payload 8 2 * fld r.payload 10 2 / 2 ||
      (bit (fld r.payload 1 1) 0 && (r.payload.drop 16).isEmpty)) = true := by
    rcases hpx with h | ⟨hb, h⟩
    · rw [beq_iff_eq.2 h, Bool.true_or]
    · rw [hb, h]; simp
  refine (checked_of_all ?_ _).trans ?_
  · simp only [List.forall_mem_cons, hp]
    simp [hon, hlo, hhi, hw, hf, hz, hz', heven, hwide, hhigh, hx, hy, hy']
  · cases bit (fld r.payload 1 1) 0 <;> rfl

/-- The day of an alarm lies within the month that it names. -/
theorem alarmDayOk {p : Bytes} (hd : alarmFieldOk p 6 3 1 31 = true) (hm : alarmFieldOk p 7 4 1 12 = true)
    (h : bit (fld p 2 1) 3 = false → bit (fld p 2 1) 4 = false → fld p 6 1 ≤ monthDays 2000 (fld p 7 1)) :
    alarmFieldOk p 6 3 1
      (if !bit (fld p 2 1) 4 && !bit (fld p 2 1) 3 && decide (1 ≤ fld p 7 1) && decide (fld p 7 1 ≤ 12) then monthDays 2000 (fld p 7 1)
        else 31) = true := by
  split
  · next hb =>
    simp only [Bool.and_eq_true, Bool.not_eq_true', decide_eq_true_eq] at hb
    obtain ⟨⟨⟨h4, h3⟩, -⟩, -⟩ := hb
    simp only [alarmFieldOk, h3] at hd ⊢
    simp at hd ⊢
    exact ⟨hd.1, h h3 h4⟩
  · exact hd

theorem effDstAdjust_of {r : Req} {s : State}
    (hok : (if fld r.payload 0 1 = 1 then !s.rtc.dst && decide ((s.rtc.cal + 1) % cycleSec + 3600 < cycleSec)
      else fld r.payload 0 1 == 2 && s.rtc.dst && decide (3600 ≤ (s.rtc.cal + 1) % cycleSec)) = true)
    (hz : allZero (slice r.payload 1 3) = true) (hp : s.rtc.dstPending = none) :
    effDstAdjust r s =
      .wait .rtcDst { s with rtc := { s.rtc with dstPending := some (fld r.payload 0 1 == 1), stepDue := none } } := by
  refine (checked_of_all ?_ _).trans (if_neg (by simp [hp]))
  simp only [List.forall_mem_cons, hok, hz]
  simp

/-- Settles O17: the fields pass and the calendar, the adjustment, the alarm or the canvas is written. -/
theorem calendarAndPanelCommandsComplete : Obligations.CalendarAndPanelCommandsComplete := by
  unfold Obligations.CalendarAndPanelCommandsComplete
  refine ⟨?set, ?forward, ?back, ?alarm, ?draw, ?update⟩
  case set =>
    refine completes_of_tame tame_cmdRtcSet (fun _ _ _ _ => rfl) (fun _ _ _ _ _ _ h => h)
      fun r u _ ⟨hy, hy', hm, hm', hd, hd', hh, hmi, hs, hf, hl, hp⟩ => ?_
    refine (checked_of_all (by simp [hy, hy', hm, hm', hd, hd', hh, hmi, hs, hf]) _).trans ((if_neg (by simp [hl, hp])).trans ?_)
    simp only [List.append_assoc]
    rfl
  case forward =>
    refine begins_of_tame tame_cmdDstAdjust (fun _ _ _ _ => rfl) (fun _ _ _ _ _ _ h => h) fun r u _ ⟨h1, hd, hn, hz, hp⟩ => ?_
    refine (effDstAdjust_of (by simp [h1, hd, hn]) hz hp).trans ?_
    rw [h1]; rfl
  case back =>
    refine begins_of_tame tame_cmdDstAdjust (fun _ _ _ _ => rfl) (fun _ _ _ _ _ _ h => h) fun r u _ ⟨h2, hd, hn, hz, hp⟩ => ?_
    refine (effDstAdjust_of (by simp [h2, hd, hn]) hz hp).trans ?_
    rw [h2]; rfl
  case alarm =>
    refine completes_of_tame tame_cmdAlarmSet (fun _ _ _ _ => rfl) (fun _ _ _ _ _ _ h => h)
      fun r u _ ⟨hk, hf, hm, hnot, h3, h4, h5, h6, h7, h8, hday, hz⟩ => ?_
    have hb : (!(bit (fld r.payload 1 1) 0 && fld r.payload 2 1 == 0x3F)) = true := by
      rw [Bool.not_eq_true', Bool.eq_false_iff]
      simpa using hnot
    refine (checked_of_all ?_ _).trans rfl
    simp only [List.forall_mem_cons, alarmDayOk h6 h7 hday, h3, h4, h5, h7, h8, hz, hb]
    simp [hk, hf, hm]
  case draw =>
    refine completes_of_tame tame_cmdEpdDraw (fun _ _ _ _ => rfl) (fun _ _ _ _ _ _ h => h)
      fun r u _ ⟨hon, hlo, hhi, hw, hf, hb, hz, hz', he, hwd, hh, hx, hy, hy', hpx⟩ => ?_
    refine (effEpdDraw_of hon hlo hhi hw hf hz hz' he hwd hh hx hy hy' (.inl hpx)).trans (if_neg (by simp [hb]))
  case update =>
    refine begins_of_tame tame_cmdEpdDraw (fun _ _ _ _ => rfl) (fun _ _ _ _ _ _ h => h)
      fun r u _ ⟨hon, hlo, hhi, hw, hf, hb, hz, hz', he, hwd, hh, hx, hy, hy', hpx⟩ => ?_
    exact (effEpdDraw_of hon hlo hhi hw hf hz hz' he hwd hh hx hy hy' (hpx.imp id fun h => ⟨hb, h⟩)).trans (if_pos hb)

end Sys2Proof.Machine


/-! Recorder commands (R490, R491). -/

namespace Sys2Proof.Machine

/-- A command completes at once, what it asks for being known of the received and of the accepted state. -/
theorem completes_of_accepted {i : Nat → Env → Bytes → Instr} {c : Cmd} {ok : Req → State → Prop} {st : Nat}
    {body : Req → State → Bytes} {effect : Req → State → State} (hc : c.Tame)
    (hi : ∀ dt q pl s, exec (i dt q pl) s = event dt (hostCommand c q pl) s)
    (hok : ∀ q pl a s, Quiet s → ok (requestOf c q pl a) s →
      ok (requestOf c q pl a) (received c q pl s) ∧ ok (requestOf c q pl a) (accepted c q pl a s))
    (hd : ∀ r u, ok r u → c.eff r u = .done st false (body r u) (effect r u)) :
    Completes i c ok st body effect := by
  intro dt q pl a s h ho
  obtain ⟨ok1, ok2⟩ := hok q pl a (elapse dt s) (quiet_elapse h.quiet dt) ho
  rw [hi]
  exact done_of_tame hc h (by rw [hd _ _ ok1]; rfl) (hd _ _ ok2)

theorem postingIn_channels (p : Posting) (limit : Option Nat) (e : Evr) : (postingIn p limit e).channels = e.channels := by
  simp only [postingIn]
  (repeat' split) <;> rfl

theorem accepted_channels (c : Cmd) (q : Env) (pl : Bytes) (a : Auth) (s : State) :
    (accepted c q pl a s).evr.channels = s.evr.channels := by
  have hp (code index : Nat) (d : Bytes) (k : Nat) (u : State) : (post code index d k u).evr.channels = u.evr.channels :=
    postingIn_channels ..
  obtain ⟨h, e⟩ := received_eq c q pl s
  simp only [accepted, e, accept, commitCounter]
  (repeat' split) <;> simp [hp, withAcceptance]

theorem periodAt_congr {s t : State} (h : t.evr.channels = s.evr.channels) (r age len : Nat) : periodAt t r age len = periodAt s r age len := by
  simp only [periodAt, h]

/-- Settles O18: EVR_READ reads what its section holds, whose periods acceptance leaves; EVR_CLEAR clears by its two bits. -/
theorem recorderCommandsComplete : Obligations.RecorderCommandsComplete := by
  unfold Obligations.RecorderCommandsComplete
  refine ⟨?log, ?general, ?metro, fun x => ?period, ?counts, ?clear⟩
  case log =>
    refine completes_of_read (fun _ _ _ _ => rfl) (fun _ _ _ _ _ _ h => h) fun r u ⟨h0, h1, hn, hn', hz⟩ => ?_
    refine (checked_of_all (by simp [h0, h1, hn, hn', hz]) _).trans ?_
    rw [h0]
    rfl
  case general =>
    refine completes_of_read (fun _ _ _ _ => rfl) (fun _ _ _ _ _ _ h => h) fun r u ⟨h0, h1, hn, hn', hz⟩ => ?_
    refine (checked_of_all (by simp [h0, h1, hn, hn', hz]) _).trans ?_
    rw [h0]
    rfl
  case metro =>
    refine completes_of_read (fun _ _ _ _ => rfl) (fun _ _ _ _ _ _ h => h) fun r u ⟨h0, h1, hn, hn', hz⟩ => ?_
    refine (checked_of_all (by simp [h0, h1, hn, hn', hz]) _).trans ?_
    rw [h0]
    rfl
  case period =>
    refine completes_of_accepted tame_cmdEvrRead (fun _ _ _ _ => rfl) ?_ fun r u ⟨h0, h1, hz, hl, hx⟩ => ?_
    · intro q pl a s _ ⟨h0, h1, hz, hl, hx⟩
      obtain ⟨_, er⟩ := received_eq cmdEvrRead q pl s
      refine ⟨⟨h0, h1, hz, hl, ?_⟩, ⟨h0, h1, hz, hl, ?_⟩⟩
      · rw [er]; exact hx
      · rw [periodAt_congr (accepted_channels ..)]; exact hx
    · have hm : fld r.payload 8 8 % 256 = fld r.payload 8 8 := Nat.mod_eq_of_lt (by omega)
      have hs : ((periodAt u (fld r.payload 1 1) (fld r.payload 4 4) 0).isSome ||
          (periodAt u (fld r.payload 1 1) (fld r.payload 4 4) 1).isSome) = true := by
        rcases Nat.le_one_iff_eq_zero_or_eq_one.1 hl with h | h <;> rw [h] at hx <;> simp [hx]
      refine (checked_of_all ?_ _).trans ?_
      · simp only [List.forall_mem_cons, h0, if_true, hs, hm, hx]
        simp [h1, hz, hl]
      · rw [h0]
        simp only [hx]
        rfl
  case counts =>
    refine completes_of_read (fun _ _ _ _ => rfl) (fun _ _ _ _ _ _ h => h) fun r u ⟨h0, h1, hn, ha, hc, hz⟩ => ?_
    refine (checked_of_all (by simp [h0, h1, hn, ha, hc, hz]) _).trans ?_
    rw [h0]
    rfl
  case clear =>
    refine completes_of_tame tame_cmdEvrClear (fun _ _ _ _ => rfl) (fun _ _ _ _ _ _ h => h) fun r u _ ⟨h0, h3, hz⟩ => ?_
    refine (checked_of_all (by simp [h0, h3, hz]) _).trans ?_
    cases bit (fld r.payload 0 1) 0 <;> cases bit (fld r.payload 0 1) 1 <;> rfl

end Sys2Proof.Machine


/-! Events of the transports (R60, R61, R69 to R72, R98, R101, R103, R104). -/

namespace Sys2Proof.Machine

/-! ### A row ends with what it does -/

/-- A row whose function leaves what the end of the step looks at ends with that function's state. -/
theorem row_of_follows {f : State → State} {dt : Nat} {s : State} (hq : Quiet s) (h : ∀ u, Follows false (seen u) (seen (f u))) :
    event dt f s = .next (f (elapse dt s)) := event_of_steady hq (h _).steady

theorem row_of_seen {f : State → State} {dt : Nat} {s : State} (hq : Quiet s) (h : ∀ u, seen (f u) = seen u) :
    event dt f s = .next (f (elapse dt s)) := event_of_steady hq (.of_seen (h _))

/-! ### Packets that fail their checksum (R70, R103) -/

theorem crcError_xspi {raw : Bytes} {s : State} (hlo : 16 ≤ raw.length) (hhi : raw.length ≤ 4268)
    (he : bit (hdrOf raw).verFlags 2 = false) :
    ∃ r, crcError ⟨.xspi, 0, 0⟩ raw s =
        (let u := setLink .xspi { linkOf s .xspi with replySeq := (linkOf s .xspi).replySeq + 1 } s
         irqUpdate { u with hif := { u.hif with crcErrors := s.hif.crcErrors + 1, xspiQ := s.hif.xspiQ ++ [r] } }) ∧
      r.status = stCrcError ∧ r.body = le 4 raw.length ∧ r.tag = (hdrOf raw).tag ∧ r.heldSlots = 0 ∧ r.heldBufs = 0 := by
  have hp : padHeader (raw.take 4268) s = (raw, s) := by
    rw [List.take_of_length_le hhi, padHeader, if_pos hlo]
  simp only [crcError, hp, Nat.min_eq_left hhi, Pkt.e2e, he]
  exact ⟨_, rfl, rfl, rfl, rfl, rfl, rfl⟩

theorem writePacket_badCrc {raw : Bytes} {v : VestibuleErr} {s : State} (ho : hostOpen s = true) (hr : rxReady s = true)
    (hc : crcOk raw = false) (hv : v.err = .none) : writePacket raw v s = crcError ⟨.xspi, 0, 0⟩ raw s := by
  simp [writePacket, arrive, ho, hr, hc, hv]

/-! ### Fragments (R72) -/

/-- A first fragment that does not complete its datagram is kept. -/
theorem udpDatagram_kept {f : UdpFrag} {v : VestibuleErr} {s : State} (ho : hostOpen s = true) (hu : f.unicast = true)
    (hl : f.vlan = getP s 0x0213) (hp : f.dstPort.toNat = getP s 0x0211) (hm : f.more = true) (hn : f.offset + f.data.length ≤ 4268)
    (h4 : s.hif.frags.length < 4) (hne : ∀ r ∈ s.hif.frags, r.srcIp ≠ f.srcIp.toNat ∨ r.ident ≠ f.ident.toNat) :
    udpDatagram f v s =
      { s with hif := { s.hif with
        frags := s.hif.frags ++ [⟨f.srcIp.toNat, f.srcPort.toNat, f.ident.toNat, [(f.offset, f.data)], none⟩] } } := by
  have hmine : ∀ r ∈ s.hif.frags, (r.srcIp == f.srcIp.toNat && r.ident == f.ident.toNat) = false := by
    intro r hr
    rcases hne r hr with h | h <;> simp [h]
  have hfind : s.hif.frags.find? (fun r => r.srcIp == f.srcIp.toNat && r.ident == f.ident.toNat) = none := by
    rw [List.find?_eq_none]; intro r hr; simp [hmine r hr]
  have hrest : s.hif.frags.filter (fun r => !(r.srcIp == f.srcIp.toNat && r.ident == f.ident.toNat)) = s.hif.frags := by
    rw [List.filter_eq_self]; intro r hr; simp [hmine r hr]
  simp only [udpDatagram, hfind, hrest]
  rw [if_neg (by simp [ho, hu, hl, hp]), if_neg (by simp [hm]), if_neg (by simp; omega), if_neg (by omega), if_neg (by simp [hm])]
  simp [putPiece, hm, updHif]

theorem fragmentDiscard_known {ip ident : Nat} {s : State} (h : ∃ r ∈ s.hif.frags, r.srcIp = ip ∧ r.ident = ident) :
    fragmentDiscard ip ident s =
      { s with hif := { s.hif with
        frags := s.hif.frags.filter fun r => !(r.srcIp == ip && r.ident == ident), udpDropped := s.hif.udpDropped + 1 } } := by
  exact if_pos (by simpa using h)

/-! ### Replies read and sent (R69, R71, R101, R104) -/

theorem replyLeft_of_none {r : Reply} {s : State} (h : s.hif.baudPending = none) : replyLeft r s = s := by
  simp only [replyLeft, h]

theorem readHead_whole {n : Nat} {r : Reply} {rest : List Reply} {s : State} (hq : s.hif.xspiQ = r :: rest)
    (hb : s.hif.baudPending = none) (hn : (replyBytes s r).length ≤ n) :
    readHead n s =
      { s with
        out := s.out ++ [.xspi (replyBytes s r)],
        hif := { s.hif with
          xspiQ := rest,
          irq := s.hif.irq && !rest.isEmpty,
          holdoff := if rest = [] ∧ s.hif.irq = true then getP s 0x0216 != 0 else s.hif.holdoff } } := by
  simp only [readHead, hq, Nat.not_lt.2 hn, if_false, List.take_of_length_le hn]
  rw [replyLeft_of_none]
  · cases rest with
    | nil => cases hi : s.hif.irq <;> simp [updHif, hi, getP]
    | cons x t => simp [updHif]
  · cases rest <;> exact hb

theorem readHead_part {n : Nat} {r : Reply} {rest : List Reply} {s : State} (hq : s.hif.xspiQ = r :: rest)
    (hn : n < (replyBytes s r).length) : readHead n s = { s with out := s.out ++ [.xspi ((replyBytes s r).take n)] } := by
  simp only [readHead, hq, hn, if_true]

theorem readHead_empty {n : Nat} {s : State} (hq : s.hif.xspiQ = []) : readHead n s = { s with out := s.out ++ [.xspi (zeros n)] } := by
  simp only [readHead, hq]

theorem readReply_head {n : Nat} {s : State} (hr : s.sys.inReset = false) (hm : s.sys.mode ≠ .backup) :
    readReply 0x0B n s = readHead n s := by
  simp [readReply, hr, hm]

theorem readReply_status {n : Nat} {s : State} (hr : s.sys.inReset = false) (hm : s.sys.mode ≠ .backup) :
    readReply 0x05 n s = { s with out := s.out ++ [.xspi ((le 4 (xspiStatus s)).take n)] } := by
  simp [readReply, hr, hm]

theorem uartSent_of {r : Reply} {rest : List Reply} {s : State} (hq : s.hif.uartQ = r :: rest) :
    uartSent s =
      replyLeft r { s with out := s.out ++ [.uart (stuff (replyBytes s r))], hif := { s.hif with uartQ := rest } } := by
  simp only [uartSent, hq, updHif]

/-- The reply that a UART_BAUD waits for has been sent: the value takes effect. -/
theorem replyLeft_baud {r : Reply} {v : Nat} {p : PendingValue} {s : State} (h : s.hif.baudPending = some (r.org.tr, r.seq, v))
    (hp : pendingOf s 0x0214 = some p) (hw : tableWf pdflt s.cfg = true) :
    replyLeft r s =
      { s with
        cfg := tableSet pdflt s.cfg 0x0214 p.value, cfgPending := s.cfgPending.filter fun q => q.id != 0x0214,
        hif := { s.hif with baud := p.value, baudPending := none } } := by
  have hg : getP { setP 0x0214 p.value s with cfgPending := s.cfgPending.filter fun q => q.id != 0x0214 } 0x0214 = p.value := by
    change getP (setP 0x0214 p.value s) 0x0214 = p.value
    rw [getP_setP hw, if_pos rfl]
  simp only [replyLeft, h, and_self, if_true, baudEffect, applyOne, hp, hg]
  rfl

/-! ### Sessions (R98) -/

theorem sessionIdle_expired {tr : Transport} {x : Session} {s : State} (hx : (linkOf s tr).session = some x)
    (hi : x.last + getP s 0x0215 * 1000000 ≤ monoUs s) :
    sessionIdle tr s =
      { setLink tr { linkOf s tr with session := none } s with
        sec := { s.sec with slots := s.sec.slots.filter fun k => k.1 != sessionSlot tr && k.1 != sessionSlot tr + 1 } } := by
  have hf (l : List (Nat × KeySlot)) (a b : Nat) :
      (l.filter fun k => k.1 != a).filter (fun k => k.1 != b) = l.filter fun k => k.1 != a && k.1 != b := by
    rw [List.filter_filter]; congr 1; funext k; exact Bool.and_comm ..
  simp only [sessionIdle, hx, hi, if_true, endSession, eraseKey, setLink_sec, hf]

/-! ### Logged commands (R60, R61, R565) -/

/-- A command that a paired active device logs waits for its tick of effect. -/
theorem hostCommand_logged {c : Cmd} {q : Env} {pl : Bytes} {a : Auth} {s : State} (h : Admitted c q pl a s)
    (hl : logs c pl (received c q pl s) = true)
    (hb : ∀ off, c.eff (requestOf c q pl a) (received c q pl s) ≠ .badParam off)
    (hr : ∀ st b, c.eff (requestOf c q pl a) (received c q pl s) ≠ .reject st b) :
    hostCommand c q pl s =
      (let p := envPkt c.op q pl
       let u := received c q pl s
       let tick := tickUs u + getP u 0x0125
       sendPair 4 (le 6 (tick / 1000000) ++ le 4 (tick % 1000000 * 1000) ++ p.bytes)
         (accept p a (.logged (requestOf c q pl a) tick) u)) := by
  have hx : hostCommand c q pl s = run c (envPkt c.op q pl) a (received c q pl s) := by
    rw [hostCommand_admitted h]
    split
    · next e => exact absurd e (hb _)
    · next e => exact absurd e (hr _ _)
    · rfl
  rw [hx, run]
  exact if_pos hl

theorem effectNow_done {c : Cmd} {tag st : Nat} {reg : Bool} {body : Bytes} {q : Req} {s u : State}
    (hc : cmdOf q.hdr.opcode = some c) (hm : c.modeOk q.payload s = true) (hd : c.eff q (setWait tag .now s) = .done st reg body u) :
    effectNow s (tag, q) = complete tag st reg body u := by
  simp only [effectNow, hc, hm, hd]
  rfl

theorem complete_mode (tag st : Nat) (reg : Bool) (body : Bytes) (s : State) : (complete tag st reg body s).sys.mode = s.sys.mode := by
  rw [complete_sys]

theorem row_logged {c : Cmd} {dt tag st : Nat} {reg : Bool} {body : Bytes} {q : Req} {s u : State} (hq : Quiet s)
    (hm : s.sys.mode ≠ .shadow) (hd : dueLogged (elapse dt s) = [(tag, q)]) (hc : cmdOf q.hdr.opcode = some c)
    (ho : c.modeOk q.payload s = true) (he : c.eff q (setWait tag .now (elapse dt s)) = .done st reg body u) :
    event dt loggedEffect s = .next (complete tag st reg body u) := by
  have ho' : c.modeOk q.payload (elapse dt s) = true := by
    simpa only [Cmd.modeOk, elapse_sys hq.nothingWaits] using ho
  have hl : Follows true (seen (setWait tag .now (elapse dt s))) (seen u) := (he ▸ cmdOf_tame hc _ _ : (CmdRes.done ..).Leaves _)
  have hmu : u.sys.mode = s.sys.mode := by
    rw [show u.sys.mode = (setWait tag .now (elapse dt s)).sys.mode from hl.mode rfl, setWait_sys, elapse_sys hq.nothingWaits]
  have hx : loggedEffect (elapse dt s) = complete tag st reg body u := by
    have hne : ((complete tag st reg body u).sys.mode != .shadow) = true := by
      rw [complete_mode, hmu]; exact bne_iff_ne.2 hm
    simp only [loggedEffect, hd, List.foldl_cons, List.foldl_nil, effectNow_done hc ho' he, hne, if_true]
  rw [row_of_follows hq fun u => follows_loggedEffect (.refl _), hx]

theorem row_hostLogged {rc : (Nat → Env → Bytes → Instr) × Cmd} (hrc : rc.2.Tame) {dt : Nat} {q : Env} {pl : Bytes} {a : Auth} {s : State}
    (hq : Quiet s) (h : Admitted rc.2 q pl a (elapse dt s)) (hl : logs rc.2 pl s = true)
    (hb : ∀ off, rc.2.eff (requestOf rc.2 q pl a) (received rc.2 q pl (elapse dt s)) ≠ .badParam off)
    (hr : ∀ st b, rc.2.eff (requestOf rc.2 q pl a) (received rc.2 q pl (elapse dt s)) ≠ .reject st b) :
    event dt (hostCommand rc.2 q pl) s =
      .next (let p := envPkt rc.2.op q pl
        let u := received rc.2 q pl (elapse dt s)
        let tick := tickUs u + getP u 0x0125
        sendPair 4 (le 6 (tick / 1000000) ++ le 4 (tick % 1000000 * 1000) ++ p.bytes)
          (accept p a (.logged (requestOf rc.2 q pl a) tick) u)) := by
  have hl' : logs rc.2 pl (received rc.2 q pl (elapse dt s)) = true := by
    simpa only [logs, paired, received_pair, elapse_pair hq.nothingWaits, getP, received_cfg, elapse_cfg hq.nothingWaits] using hl
  rw [row_of_follows hq fun u => follows_hostCommand hrc (.refl _), hostCommand_logged h hl' hb hr]

theorem hostRows_tame : ∀ rc ∈ hostRows, rc.2.Tame := by
  simp only [hostRows, List.forall_mem_append, List.forall_mem_cons, List.not_mem_nil, false_imp_iff, implies_true, and_true]
  and_intros <;> simp

/-- Settles O21: every row follows from what its function does after the time that has passed. -/
theorem transportEventsComplete : Obligations.TransportEventsComplete := by
  unfold Obligations.TransportEventsComplete
  refine ⟨?_, ?_, ?_, ?_, ?_, ?_, ?_, ?_, ?_, ?_, ?_, ?_, fun dt c tag q st reg body u s hq hm hd hc ho he _ _ =>
    row_logged hq hm hd hc ho he⟩
  · intro dt raw v s hq ho hr hc hv hlo hhi he
    obtain ⟨r, hx, hs, hb, ht, hh, hbf⟩ := crcError_xspi (s := elapse dt s) hlo hhi he
    refine ⟨r, ?_, hs, hb, ht, hh, hbf⟩
    have hrow : exec (.writePacket dt ⟨raw, v⟩) s = event dt (writePacket raw v) s := rfl
    rw [hrow, row_of_follows hq fun u => follows_writePacket (.refl _),
      writePacket_badCrc ((hostOpen_elapse hq dt).trans ho) ((rxReady_elapse hq dt).trans hr) hc hv, hx, elapse_hif hq.nothingWaits,
      linkOf_elapse hq]
  · intro dt f v s hq ho hu hl hp hm hn h4 hne
    have hrow : exec (.udpDatagram dt ⟨f, v⟩) s = event dt (udpDatagram f v) s := rfl
    rw [hrow, row_of_follows hq fun u => follows_udpDatagram (.refl _),
      udpDatagram_kept ((hostOpen_elapse hq dt).trans ho) hu (by rw [getP_elapse hq, hl]) (by rw [getP_elapse hq, hp]) hm hn
        (by rwa [elapse_hif hq.nothingWaits]) (by rwa [elapse_hif hq.nothingWaits]), elapse_hif hq.nothingWaits]
  · intro dt ip ident s hq h
    have hrow : exec (.fragmentDiscard dt ip ident) s = event dt (fragmentDiscard ip.toNat ident.toNat) s := rfl
    rw [hrow, row_of_seen hq fun u => seen_fragmentDiscard .., fragmentDiscard_known (by rwa [elapse_hif hq.nothingWaits]),
      elapse_hif hq.nothingWaits]
  · intro dt n r rest s hq hr hm hx hb hn
    have hrow : exec (.readReply dt ⟨0x0B, n⟩) s = event dt (readReply 0x0B n) s := rfl
    rw [hrow, row_of_follows hq fun u => follows_readReply (.refl _),
      readReply_head (by rwa [elapse_sys hq.nothingWaits]) (by rwa [elapse_sys hq.nothingWaits]),
      readHead_whole (by rwa [elapse_hif hq.nothingWaits]) (by rwa [elapse_hif hq.nothingWaits]) hn, elapse_hif hq.nothingWaits,
      elapse_out hq.nothingWaits, getP_elapse hq]
  · intro dt n r rest s hq hr hm hx hn
    have hrow : exec (.readReply dt ⟨0x0B, n⟩) s = event dt (readReply 0x0B n) s := rfl
    rw [hrow, row_of_follows hq fun u => follows_readReply (.refl _),
      readReply_head (by rwa [elapse_sys hq.nothingWaits]) (by rwa [elapse_sys hq.nothingWaits]),
      readHead_part (by rwa [elapse_hif hq.nothingWaits]) hn, elapse_out hq.nothingWaits]
  · intro dt n s hq hr hm hx
    have hrow : exec (.readReply dt ⟨0x0B, n⟩) s = event dt (readReply 0x0B n) s := rfl
    rw [hrow, row_of_follows hq fun u => follows_readReply (.refl _),
      readReply_head (by rwa [elapse_sys hq.nothingWaits]) (by rwa [elapse_sys hq.nothingWaits]),
      readHead_empty (by rwa [elapse_hif hq.nothingWaits]), elapse_out hq.nothingWaits]
  · intro dt n s hq hr hm
    have hrow : exec (.readReply dt ⟨0x05, n⟩) s = event dt (readReply 0x05 n) s := rfl
    rw [hrow, row_of_follows hq fun u => follows_readReply (.refl _),
      readReply_status (by rwa [elapse_sys hq.nothingWaits]) (by rwa [elapse_sys hq.nothingWaits]), elapse_out hq.nothingWaits]
  · intro dt s hq
    have hrow : exec (.irqHoldoffEnd dt) s = event dt irqHoldoffEnd s := rfl
    rw [hrow, row_of_seen hq seen_irqHoldoffEnd]
    simp [irqHoldoffEnd, irqUpdate, updHif, elapse_hif hq.nothingWaits]
  · intro dt tr x s hq hx hi
    have hrow : exec (.sessionIdleExpiry dt tr) s = event dt (sessionIdle tr) s := rfl
    rw [hrow, row_of_follows hq fun u => follows_sessionIdle (.refl _),
      sessionIdle_expired (by rwa [linkOf_elapse hq]) (by rwa [getP_elapse hq]), linkOf_elapse hq, elapse_sec hq.nothingWaits]
  · intro dt r rest s hq hx hb
    have hrow : exec (.uartTransmitComplete dt) s = event dt uartSent s := rfl
    rw [hrow, row_of_follows hq fun u => follows_uartSent (.refl _), uartSent_of (by rwa [elapse_hif hq.nothingWaits]), replyLeft_of_none,
      elapse_out hq.nothingWaits, elapse_hif hq.nothingWaits]
    rwa [elapse_hif hq.nothingWaits]
  · intro dt r rest v p s hq hc hx hb ht hp
    obtain ⟨-, -, hw, -⟩ := (canonical_iff s).1 hc
    have hrow : exec (.uartTransmitComplete dt) s = event dt uartSent s := rfl
    refine ⟨tableSet pdflt s.cfg 0x0214 p.value, s.cfgPending.filter fun q => q.id != 0x0214, ?_, fun id => tableGet_set hw .., ?_, ?_⟩
    · rw [hrow, row_of_follows hq fun u => follows_uartSent (.refl _), uartSent_of (by rwa [elapse_hif hq.nothingWaits]),
        replyLeft_baud (v := v) (p := p), elapse_out hq.nothingWaits, elapse_hif hq.nothingWaits, elapse_cfg hq.nothingWaits,
        elapse_cfgPending hq.nothingWaits]
      · rw [elapse_hif hq.nothingWaits, ht]; exact hb
      · simpa only [pendingOf, elapse_cfgPending hq.nothingWaits] using hp
      · rwa [elapse_cfg hq.nothingWaits]
    · rw [List.all_filter]; simp
    · intro id hid
      rw [List.find?_filter]
      congr 1; funext x
      by_cases e : x.id = id <;> simp [e, hid]
  · intro rc hrc dt q pl a s hq ha hl hb hr
    rw [exec_hostRow hrc]
    exact row_hostLogged (hostRows_tame rc hrc) hq ha hl hb hr

end Sys2Proof.Machine


/-! Boot and transitions (R44, R49). -/

namespace Sys2Proof.Machine

/-- A shadow whose transition to RUN carries cause 8, the cause of a takeover. -/
def shadowCalled : State :=
  { State.reset with
    sys := { Sys.reset with
      mode := .shadow, trans := some { target := .run, cause := 8, tag := none, atCut := false } } }

/-- The end of that transition asserts a takeover, which leads to the mode of the last heartbeat and not to the target. -/
theorem modeTransitionEnd_shadowCalled : ∀ t, exec (.modeTransitionEnd 0) shadowCalled = .next t → t.sys.mode = .safe := by
  intro t h
  have hm : (match exec (.modeTransitionEnd 0) shadowCalled with | .next t => t.sys.mode | _ => .boot) = .safe := by decide +kernel
  rw [h] at hm
  exact hm

/-- Refutes O24: the statement leaves the cause of a waiting transition open, and one with cause 8 that ends in SHADOW is a takeover,
which enters the mode of the last heartbeat (SAFE where there was none) in place of the transition's target. -/
theorem not_bootAndTransitionsComplete : ¬ Obligations.BootAndTransitionsComplete := by
  unfold Obligations.BootAndTransitionsComplete
  rintro ⟨-, -, -, -, h⟩
  obtain ⟨t, ht, hm, -⟩ := h 0 { target := .run, cause := 8, tag := none, atCut := false } shadowCalled (by decide) (by decide) rfl rfl rfl
    (by decide)
  exact absurd ((modeTransitionEnd_shadowCalled t ht).symm.trans hm) (by decide)

end Sys2Proof.Machine


/-! What the completion of a command does to its tag (R89, R91), how an indexed table reads after a write, and what time leaves. -/

namespace Sys2Proof.Machine

theorem vget_vset_self {α : Type} {n i : Nat} (h : i < n) (v : Vector α n) (x d : α) : vget (vset v i x) i d = x := by
  simp [vget, vset, h]

theorem vget_vset_ne {α : Type} {n i j : Nat} (h : i ≠ j) (v : Vector α n) (x d : α) : vget (vset v i x) j d = vget v j d := by
  simp [vget, vset, h]

theorem vset_vset {α : Type} {n : Nat} (v : Vector α n) (i : Nat) (x y : α) : vset (vset v i x) i y = vset v i y := by
  ext j hj
  by_cases h : i = j <;> simp [vset, h]

/-- Time that passes leaves whatever does not look at the clocks. -/
theorem elapse_read {β : Sort*} (f : State → β) (hf : ∀ s c p, f { s with clock := c, pioBegan := p } = f s) {s : State} (h : Quiet s)
    (dt : Nat) : f (elapse dt s) = f s := by
  obtain ⟨_, e⟩ := elapse_fields h.nothingWaits dt
  rw [e, hf]

theorem find_putTag (tag : Nat) (x : TagState) (l : List (Nat × TagState)) :
    (putTag tag x l).find? (fun y => y.1 == tag) = some (tag, x) := by
  induction l with
  | nil => simp [putTag]
  | cons y t ih =>
    unfold putTag
    split
    · simp
    · split
      · simp
      · next h => rw [List.find?_cons_of_neg (by simpa using fun e : y.1 = tag => h e.symm), ih]

theorem tagOf_setTag (tag : Nat) (x : TagState) (s : State) : tagOf (setTag tag x s) tag = some x := by
  simp only [tagOf, setTag_hif, find_putTag]

@[simp] theorem sendReply_tags (r : Reply) (s : State) : (sendReply r s).hif.tags = s.hif.tags := by
  obtain ⟨⟨tr, ip, port⟩, tag⟩ := r
  cases tr <;> rfl

theorem tagOf_complete {tag : Nat} {e : Exec} {s : State} (h : tagOf s tag = some (.executing e)) (st : Nat) (reg : Bool) (b : Bytes) :
    ∃ x, tagOf (complete tag st reg b s) tag = some (.held x) ∧ x.status = st ∧ x.body = b := by
  simp only [complete, h]
  exact ⟨_, (tagOf_congr (sendReply_tags ..) tag).trans (tagOf_setTag ..), rfl, rfl⟩

theorem sendReply_shape (r : Reply) (s : State) : ∃ h o, sendReply r s = { s with hif := h, out := o } := by
  obtain ⟨⟨tr, ip, port⟩, tag⟩ := r
  cases tr <;> exact ⟨_, _, rfl⟩

theorem complete_shape (tag st : Nat) (reg : Bool) (b : Bytes) (s : State) :
    ∃ h o, complete tag st reg b s = { s with hif := h, out := o } := by
  unfold complete
  split
  · next e _ => exact sendReply_shape ..
  · exact ⟨_, _, rfl⟩

/-- Completions change nothing but the host interface and what it puts out. -/
theorem completions_shape {α : Type} {g : State → α → State} (hg : ∀ s x, ∃ h o, g s x = { s with hif := h, out := o }) (l : List α)
    (s : State) : ∃ h o, l.foldl g s = { s with hif := h, out := o } := by
  induction l generalizing s with
  | nil => exact ⟨_, _, rfl⟩
  | cons x l ih =>
    obtain ⟨h, o, e⟩ := hg s x
    obtain ⟨h', o', e'⟩ := ih (g s x)
    exact ⟨h', o', by rw [List.foldl_cons, e', e]⟩

theorem completeAll_shape (f : Wait → Bool) (st : Nat) (reg : Bool) (b : Bytes) (s : State) :
    ∃ h o, completeAll f st reg b s = { s with hif := h, out := o } := completions_shape (fun s t => complete_shape t st reg b s) _ s

@[simp] theorem completeAll_clock (f : Wait → Bool) (st : Nat) (reg : Bool) (b : Bytes) (s : State) : (completeAll f st reg b s).clock = s.clock := by
  obtain ⟨_, _, e⟩ := completeAll_shape f st reg b s; rw [e]
@[simp] theorem completeAll_sys (f : Wait → Bool) (st : Nat) (reg : Bool) (b : Bytes) (s : State) : (completeAll f st reg b s).sys = s.sys := by
  obtain ⟨_, _, e⟩ := completeAll_shape f st reg b s; rw [e]
@[simp] theorem completeAll_pair (f : Wait → Bool) (st : Nat) (reg : Bool) (b : Bytes) (s : State) : (completeAll f st reg b s).pair = s.pair := by
  obtain ⟨_, _, e⟩ := completeAll_shape f st reg b s; rw [e]
@[simp] theorem completeAll_evr (f : Wait → Bool) (st : Nat) (reg : Bool) (b : Bytes) (s : State) : (completeAll f st reg b s).evr = s.evr := by
  obtain ⟨_, _, e⟩ := completeAll_shape f st reg b s; rw [e]
@[simp] theorem completeAll_sec (f : Wait → Bool) (st : Nat) (reg : Bool) (b : Bytes) (s : State) : (completeAll f st reg b s).sec = s.sec := by
  obtain ⟨_, _, e⟩ := completeAll_shape f st reg b s; rw [e]
@[simp] theorem completeAll_tamp (f : Wait → Bool) (st : Nat) (reg : Bool) (b : Bytes) (s : State) : (completeAll f st reg b s).tamp = s.tamp := by
  obtain ⟨_, _, e⟩ := completeAll_shape f st reg b s; rw [e]
@[simp] theorem completeAll_intg (f : Wait → Bool) (st : Nat) (reg : Bool) (b : Bytes) (s : State) : (completeAll f st reg b s).intg = s.intg := by
  obtain ⟨_, _, e⟩ := completeAll_shape f st reg b s; rw [e]
@[simp] theorem completeAll_pwr (f : Wait → Bool) (st : Nat) (reg : Bool) (b : Bytes) (s : State) : (completeAll f st reg b s).pwr = s.pwr := by
  obtain ⟨_, _, e⟩ := completeAll_shape f st reg b s; rw [e]
@[simp] theorem completeAll_mth (f : Wait → Bool) (st : Nat) (reg : Bool) (b : Bytes) (s : State) : (completeAll f st reg b s).mth = s.mth := by
  obtain ⟨_, _, e⟩ := completeAll_shape f st reg b s; rw [e]
@[simp] theorem completeAll_mel (f : Wait → Bool) (st : Nat) (reg : Bool) (b : Bytes) (s : State) : (completeAll f st reg b s).mel = s.mel := by
  obtain ⟨_, _, e⟩ := completeAll_shape f st reg b s; rw [e]
@[simp] theorem completeAll_bill (f : Wait → Bool) (st : Nat) (reg : Bool) (b : Bytes) (s : State) : (completeAll f st reg b s).bill = s.bill := by
  obtain ⟨_, _, e⟩ := completeAll_shape f st reg b s; rw [e]
@[simp] theorem completeAll_time (f : Wait → Bool) (st : Nat) (reg : Bool) (b : Bytes) (s : State) : (completeAll f st reg b s).time = s.time := by
  obtain ⟨_, _, e⟩ := completeAll_shape f st reg b s; rw [e]
@[simp] theorem completeAll_pio (f : Wait → Bool) (st : Nat) (reg : Bool) (b : Bytes) (s : State) : (completeAll f st reg b s).pio = s.pio := by
  obtain ⟨_, _, e⟩ := completeAll_shape f st reg b s; rw [e]
@[simp] theorem completeAll_pioBegan (f : Wait → Bool) (st : Nat) (reg : Bool) (b : Bytes) (s : State) : (completeAll f st reg b s).pioBegan = s.pioBegan := by
  obtain ⟨_, _, e⟩ := completeAll_shape f st reg b s; rw [e]
@[simp] theorem completeAll_ctrl (f : Wait → Bool) (st : Nat) (reg : Bool) (b : Bytes) (s : State) : (completeAll f st reg b s).ctrl = s.ctrl := by
  obtain ⟨_, _, e⟩ := completeAll_shape f st reg b s; rw [e]
@[simp] theorem completeAll_vax (f : Wait → Bool) (st : Nat) (reg : Bool) (b : Bytes) (s : State) : (completeAll f st reg b s).vax = s.vax := by
  obtain ⟨_, _, e⟩ := completeAll_shape f st reg b s; rw [e]
@[simp] theorem completeAll_eth (f : Wait → Bool) (st : Nat) (reg : Bool) (b : Bytes) (s : State) : (completeAll f st reg b s).eth = s.eth := by
  obtain ⟨_, _, e⟩ := completeAll_shape f st reg b s; rw [e]
@[simp] theorem completeAll_rtc (f : Wait → Bool) (st : Nat) (reg : Bool) (b : Bytes) (s : State) : (completeAll f st reg b s).rtc = s.rtc := by
  obtain ⟨_, _, e⟩ := completeAll_shape f st reg b s; rw [e]
@[simp] theorem completeAll_epd (f : Wait → Bool) (st : Nat) (reg : Bool) (b : Bytes) (s : State) : (completeAll f st reg b s).epd = s.epd := by
  obtain ⟨_, _, e⟩ := completeAll_shape f st reg b s; rw [e]
@[simp] theorem completeAll_subl (f : Wait → Bool) (st : Nat) (reg : Bool) (b : Bytes) (s : State) : (completeAll f st reg b s).subl = s.subl := by
  obtain ⟨_, _, e⟩ := completeAll_shape f st reg b s; rw [e]
@[simp] theorem completeAll_nmod (f : Wait → Bool) (st : Nat) (reg : Bool) (b : Bytes) (s : State) : (completeAll f st reg b s).nmod = s.nmod := by
  obtain ⟨_, _, e⟩ := completeAll_shape f st reg b s; rw [e]
@[simp] theorem completeAll_solv (f : Wait → Bool) (st : Nat) (reg : Bool) (b : Bytes) (s : State) : (completeAll f st reg b s).solv = s.solv := by
  obtain ⟨_, _, e⟩ := completeAll_shape f st reg b s; rw [e]
@[simp] theorem completeAll_gal (f : Wait → Bool) (st : Nat) (reg : Bool) (b : Bytes) (s : State) : (completeAll f st reg b s).gal = s.gal := by
  obtain ⟨_, _, e⟩ := completeAll_shape f st reg b s; rw [e]
@[simp] theorem completeAll_cfg (f : Wait → Bool) (st : Nat) (reg : Bool) (b : Bytes) (s : State) : (completeAll f st reg b s).cfg = s.cfg := by
  obtain ⟨_, _, e⟩ := completeAll_shape f st reg b s; rw [e]
@[simp] theorem completeAll_cfgPending (f : Wait → Bool) (st : Nat) (reg : Bool) (b : Bytes) (s : State) : (completeAll f st reg b s).cfgPending = s.cfgPending := by
  obtain ⟨_, _, e⟩ := completeAll_shape f st reg b s; rw [e]
@[simp] theorem completeAll_draws (f : Wait → Bool) (st : Nat) (reg : Bool) (b : Bytes) (s : State) : (completeAll f st reg b s).draws = s.draws := by
  obtain ⟨_, _, e⟩ := completeAll_shape f st reg b s; rw [e]
@[simp] theorem completeAll_pending (f : Wait → Bool) (st : Nat) (reg : Bool) (b : Bytes) (s : State) : (completeAll f st reg b s).pending = s.pending := by
  obtain ⟨_, _, e⟩ := completeAll_shape f st reg b s; rw [e]

/-- The one command that executes waits for what a completion ends. -/
theorem waiting_single {f : Wait → Bool} {tag : Nat} {e : Exec} {s : State} (h : s.hif.tags = [(tag, .executing e)])
    (hf : f e.wait = true) : waiting f s = [tag] := by
  simp [waiting, executing, h, hf]

theorem tagOf_single {tag : Nat} {x : TagState} {s : State} (h : s.hif.tags = [(tag, x)]) : tagOf s tag = some x := by
  simp [tagOf, h]

theorem tagOf_completeAll {f : Wait → Bool} {tag st : Nat} {reg : Bool} {b : Bytes} {e : Exec} {s : State}
    (h : s.hif.tags = [(tag, .executing e)]) (hf : f e.wait = true) :
    ∃ x, tagOf (completeAll f st reg b s) tag = some (.held x) ∧ x.status = st ∧ x.body = b := by
  rw [completeAll, waiting_single h hf]
  exact tagOf_complete (tagOf_single h) st reg b

end Sys2Proof.Machine


/-! Events of the network model (R125 to R131). -/

namespace Sys2Proof.Machine

/-- Settles O26: each event does what its function does after the time that has passed. -/
theorem modelEventsComplete : Obligations.ModelEventsComplete := by
  unfold Obligations.ModelEventsComplete
  refine ⟨?_, ?_, ?_, ?_⟩
  · intro dt s hq hc
    have hrow : exec (.modelValidationComplete dt) s = .next (modelValidated (elapse dt s)) :=
      event_of_steady hq (Steady.of_seen (seen_modelValidated _))
    refine ⟨_, hrow, ?_⟩
    simp [modelValidated, elapse_nmod hq.nothingWaits, hc]
  · intro dt s hq hc
    have hrow : exec (.modelBuildComplete dt) s = .next (modelBuilt (elapse dt s)) :=
      event_of_steady hq (Steady.of_seen (seen_modelBuilt _))
    rw [hrow, modelBuilt, elapse_nmod hq.nothingWaits, if_pos hc]
  all_goals
    intro dt m s hq hw ha hs
    have hrow : exec (.modelFlashWrite dt) s = .next (modelFlashed (elapse dt s)) :=
      event_of_steady hq (Steady.of_seen (seen_modelFlashed _))
    simp only [hrow, modelFlashed, elapse_nmod hq.nothingWaits, hw, ha, hs]
    rfl

end Sys2Proof.Machine


/-! The register saves (R358). -/

namespace Sys2Proof.Machine

/-- A channel's metering counts, the energy registers and the wrong-sign energy have changed, nothing else. -/
def Attributed (s t : State) : Prop := ∃ m r w, t = { s with mth := m, bill := { s.bill with regs := r, wrongDt := w } }

theorem attribDir_attributed (s : State) (c n : Nat) (reverse : Bool) (ch : MthChan) (st : State) :
    Attributed st (attribDir s c n reverse ch st) := by
  unfold attribDir
  split
  · exact ⟨_, _, _, rfl⟩
  · exact ⟨_, _, _, rfl⟩

theorem Attributed.trans {s t u : State} (h : Attributed s t) (h' : Attributed t u) : Attributed s u := by
  obtain ⟨_, _, _, rfl⟩ := h
  obtain ⟨_, _, _, rfl⟩ := h'
  exact ⟨_, _, _, rfl⟩

theorem closeSpan_attributed (s : State) (c : Nat) : Attributed s (closeSpan s c) :=
  ((attribDir_attributed ..).trans (attribDir_attributed ..)).trans ⟨_, _, _, rfl⟩

theorem snapshotPoint_shape (s : State) :
    ∃ m r w x, snapshotPoint s = { s with mth := m, bill := { s.bill with regs := r, wrongDt := w, shown := x } } := by
  unfold snapshotPoint
  split
  · have hf : Attributed s ((List.range 16).foldl closeSpan s) :=
      List.foldlRecOn _ _ ⟨_, _, _, rfl⟩ fun _ h c _ => h.trans (closeSpan_attributed _ c)
    obtain ⟨m, r, w, e⟩ := hf
    exact ⟨m, r, w, _, by rw [e]⟩
  · exact ⟨_, _, _, _, rfl⟩

theorem registerSave_due {s : State} (hr : s.mth.running = true) (hs : s.bill.saving = none)
    (hd : s.bill.lastSave + saveIntervalUs s ≤ monoUs s) : registerSave s = beginSave s := by
  simp [registerSave, hr, hs, hd]

/-- A save takes the next number and stands in its slot until it has been read back. -/
theorem beginSave_bill (s : State) :
    ∃ r, (beginSave s).bill.saving = some (s.bill.lastSeq + 1) ∧ (beginSave s).bill.lastSeq = s.bill.lastSeq + 1 ∧
      (beginSave s).bill.lastSave = monoUs s ∧ vget (beginSave s).bill.ring ((s.bill.lastSeq + 1) % 64) none = some ⟨false, r⟩ ∧
      r.seq = s.bill.lastSeq + 1 ∧ r.regs = regsAtStart (snapshotPoint s) ∧ r.at_ = tickStamp s ∧ r.gapCount = s.bill.gapCount := by
  obtain ⟨m, w, x, y, e⟩ := snapshotPoint_shape s
  have hl : (snapshotPoint s).bill.lastSeq = s.bill.lastSeq := by rw [e]
  have hc : (snapshotPoint s).clock = s.clock := by rw [e]
  refine ⟨makeRec (snapshotPoint s) ((snapshotPoint s).bill.lastSeq + 1), ?_, ?_, ?_, ?_, ?_, rfl, ?_, ?_⟩
  · exact congrArg (fun n => some (n + 1)) hl
  · exact congrArg (· + 1) hl
  · exact congrArg (fun c : Clock => c.mono / (1000 * nsUnit)) hc
  · rw [← hl]
    exact vget_vset_self (Nat.mod_lt _ (by decide)) ..
  · exact congrArg (· + 1) hl
  · simp only [makeRec, tickStamp, ptpSec, ptpNs, hc]
  · simp only [makeRec]; rw [e]

/-- Settles O42: a save begins on the snapshot point, and its readback ends it. -/
theorem savesComplete : Obligations.SavesComplete := by
  unfold Obligations.SavesComplete
  constructor
  · intro dt s hq hr hs hd
    have hrow : exec (.registerSave dt) s = .next (registerSave (elapse dt s)) :=
      event_of_steady hq (Steady.of_seen (seen_registerSave _))
    have hb := elapse_bill hq.nothingWaits dt
    have hp : saveIntervalUs (elapse dt s) = saveIntervalUs s := congrArg (· * 1000000) (getP_elapse hq dt _)
    rw [registerSave_due (by rw [elapse_mth hq.nothingWaits, hr]) (by rw [hb, hs]) (by rw [hb, hp]; exact hd)] at hrow
    obtain ⟨r, h⟩ := beginSave_bill (elapse dt s)
    rw [hb] at h
    exact ⟨_, r, hrow, h⟩
  · intro dt ok n s hq hs
    have hrow : exec (.saveReadback dt ok) s = .next (saveReadback ok (elapse dt s)) :=
      event_of_steady hq (Steady.of_seen (seen_saveReadback ..))
    simp only [hrow, saveReadback, elapse_bill hq.nothingWaits, hs, endSlot]

end Sys2Proof.Machine


/-! Events of the electrical metering (R334 to R350). -/

namespace Sys2Proof.Machine

/-! ### Systems -/

theorem melSys_setMel_self (k : Fin 4) (m : MelSys) (s : State) : melSys (setMel k m s) k = m := vget_vset_self k.isLt ..

theorem melSys_setMel_ne {k o : Fin 4} (h : o ≠ k) (m : MelSys) (s : State) : melSys (setMel k m s) o = melSys s o :=
  vget_vset_ne (fun e => h (Fin.ext e.symm)) ..

theorem melSys_congr {s t : State} (h : t.mel.systems = s.mel.systems) (k : Nat) : melSys t k = melSys s k := by
  simp only [melSys, h]

theorem melSys_elapse {s : State} (h : Quiet s) (dt k : Nat) : melSys (elapse dt s) k = melSys s k :=
  elapse_read (melSys · k) (fun _ _ _ => rfl) h dt

/-! ### Raw samples (R334) -/

theorem modClk_elapse {s : State} (h : Quiet s) (dt k : Nat) : modClk (elapse dt s) k = modClk s k :=
  elapse_read (modClk · k) (fun _ _ _ => rfl) h dt

theorem rawSample_settling {k : Nat} {smps : Vector RawSample 6} {s : State} (hc : modClk s k = true) (hs : 0 < (melSys s k).settle) :
    rawSample k smps s = setMel k { melSys s k with settle := (melSys s k).settle - 1 } s := by
  simp [rawSample, hc, hs]

theorem pathError_shape (m b a : Nat) (s : State) : ∃ i v, pathError m b a s = { s with intg := i, evr := v } := by
  obtain ⟨j, e⟩ := snapSource_intg 5 (post 0x1301 0 (le 1 m ++ le 1 b ++ le 4 a ++
    le 4 (tableGet (fun _ => 0) (bumpErrors b s).intg.blockErrors b)) 0 (bumpErrors b s))
  exact ⟨_, _, e⟩

/-- A parity failure is counted and recorded; no system changes. -/
theorem sampleParity_shape (k : Nat) (smps : Vector RawSample 6) (s : State) :
    ∃ i v n, sampleParity k smps s = { s with intg := i, evr := v, mel := { s.mel with paritySubstituted := n } } := by
  unfold sampleParity
  refine List.foldlRecOn (motive := fun t => ∃ i v n, t = { s with intg := i, evr := v, mel := { s.mel with paritySubstituted := n } })
    _ _ ⟨s.intg, s.evr, s.mel.paritySubstituted, rfl⟩ ?_
  rintro u ⟨i, v, n, rfl⟩ c -
  split
  · exact ⟨_, _, _, rfl⟩
  · obtain ⟨j, w, e⟩ := pathError_shape 13 0x08 (6 * k + c) { s with intg := i, evr := v, mel := { s.mel with paritySubstituted := n + 1 } }
    exact ⟨_, _, _, e⟩

theorem rawSample_open {k : Nat} {smps : Vector RawSample 6} {s : State} (hc : modClk s k = true) (hs : (melSys s k).settle = 0) :
    ∃ m u, rawSample k smps s = setMel k m u ∧ m.running = true ∧ m.open_.samples = (melSys s k).open_.samples + 1 ∧
      m.sinceCross = (melSys s k).sinceCross + 1 ∧ u.mel.systems = s.mel.systems ∧ u.bill = s.bill ∧ u.mth = s.mth := by
  obtain ⟨i, v, n, e⟩ := sampleParity_shape k smps s
  simp only [rawSample, hc, hs, Nat.lt_irrefl, if_false, Bool.not_true, Bool.false_eq_true]
  refine ⟨_, _, rfl, ?_, ?_, ?_, by rw [e], by rw [e], by rw [e]⟩
  · dsimp only; split <;> simp_all
  · dsimp only; split <;> rfl
  · dsimp only; split <;> rfl

/-! ### Line cycles (R338, R339, R342) -/

/-- What the ends of a line cycle look at besides the flags of a system. -/
def cyclePlace (m : MelSys) : Cycle × W32 × Nat × Nat := (m.open_, m.cycles, m.sinceCross, m.frac)

theorem cyclePlace_keepFresh (s : State) (k : Nat) (m : MelSys) : cyclePlace (keepFresh s k m) = cyclePlace m := by
  unfold keepFresh; (repeat' split) <;> rfl

theorem cyclePlace_lockUpd (len : Option Nat) (m : MelSys) : cyclePlace (lockUpd len m) = cyclePlace m := rfl

theorem cyclePlace_lostUpd (s : State) (k l : Nat) (c : Cycle) (m : MelSys) : cyclePlace (lostUpd s k l c m) = cyclePlace m := by
  unfold lostUpd; dsimp only; split <;> rfl

theorem attributeCycle_setMel (j : Nat) (m : MelSys) (s : State) : attributeCycle (setMel j m s) = attributeCycle s := rfl

theorem attributeCycle_elapse {s : State} (h : Quiet s) (dt : Nat) : attributeCycle (elapse dt s) = attributeCycle s :=
  elapse_read attributeCycle (fun _ _ _ => rfl) h dt

/-- The registers of a system (R342). -/
def elecOf (s : State) (k : Nat) : ElecReg := vget s.bill.regs.elec k ⟨Vector.replicate 4 (Vector.replicate 8 0), 0, 0⟩

/-- A system and its registers have been written. -/
def elecWritten (k : Nat) (m : MelSys) (r : ElecReg) (s : State) : State :=
  setMel k m { s with bill := { s.bill with regs := { s.bill.regs with elec := vset s.bill.regs.elec k r } } }

theorem elecSeconds_shape (s : State) (k : Nat) (m : MelSys) :
    ∃ m' r, elecSeconds s k m = elecWritten k m' r s ∧ cyclePlace m' = cyclePlace m ∧ r.regs = (elecOf s k).regs :=
  ⟨_, _, rfl, rfl, rfl⟩

/-- The end of a line cycle that has samples attributes its quanta and opens the next. -/
theorem closeCycle_of_samples {k : Fin 4} {ph : Option Phasors} {s : State} (h : (melSys s k).open_.samples ≠ 0) :
    ∃ m r, closeCycle k ph s = elecWritten k m r s ∧
      cyclePlace m = (Cycle.empty, (melSys s k).cycles + 1, (melSys s k).sinceCross, (melSys s k).frac) ∧
      r.regs = attributeCycle s k (melSys s k).open_.sums (elecOf s k).regs := by
  have hp := cyclePlace_keepFresh s k (melSys s k)
  obtain ⟨ho, hc, hs, hf⟩ : (keepFresh s k (melSys s k)).open_ = (melSys s k).open_ ∧
      (keepFresh s k (melSys s k)).cycles = (melSys s k).cycles ∧
      (keepFresh s k (melSys s k)).sinceCross = (melSys s k).sinceCross ∧ (keepFresh s k (melSys s k)).frac = (melSys s k).frac := by
    simpa only [cyclePlace, Prod.mk.injEq] using hp
  unfold closeCycle
  extract_lets m0 m1 prev src c r0 r export_ m2 m3 m4 m5
  rw [if_neg (by rw [ho]; exact h)]
  have h2 : cyclePlace m2 = cyclePlace m1 :=
    List.foldlRecOn (motive := fun m => cyclePlace m = cyclePlace m1) _ _ rfl fun m e l _ => (cyclePlace_lostUpd s k l c m).trans e
  have h3 : cyclePlace m3 = cyclePlace m2 := by
    simp only [m3]; split <;> rfl
  have h4 : cyclePlace m4 = ((keepFresh s k (melSys s k)).open_, (keepFresh s k (melSys s k)).cycles,
      (keepFresh s k (melSys s k)).sinceCross, (keepFresh s k (melSys s k)).frac) := (h3.trans h2).trans rfl
  rw [ho, hc, hs, hf] at h4
  simp only [cyclePlace, Prod.mk.injEq] at h4
  obtain ⟨-, hc4, hs4, hf4⟩ := h4
  obtain ⟨m6, r6, e, hm, hr⟩ := elecSeconds_shape { s with bill := { s.bill with regs := { s.bill.regs with
    elec := vset s.bill.regs.elec k r } } } k m5
  refine ⟨m6, r6, e.trans ?_, hm.trans ?_, hr.trans ?_⟩
  · simp only [elecWritten, vset_vset]
  · simp only [cyclePlace, m5, hc4, hs4, hf4]
  · rw [elecOf, vget_vset_self k.isLt]
    simp only [r, c, src, m1, m0, ho]
    rfl

section
variable (k : Fin 4) (m : MelSys) (r : ElecReg) (s : State)

theorem elecWritten_self : melSys (elecWritten k m r s) k = m := melSys_setMel_self ..

theorem elecWritten_ne {o : Fin 4} (h : o ≠ k) : melSys (elecWritten k m r s) o = melSys s o := melSys_setMel_ne h ..

theorem elecWritten_elec : (elecWritten k m r s).bill.regs.elec = s.bill.regs.elec.set k r := vset_fin ..

end

theorem elecOf_fin (s : State) (k : Fin 4) : elecOf s k = s.bill.regs.elec[k] := vget_fin ..

/-- What the timeout of a line cycle in a running system leaves. -/
theorem lineCycleClose_timeout {k : Fin 4} {ph : Phasors} {s : State} (hm : meteringMode s = true) (hr : (melSys s k).running = true)
    (h0 : (melSys s k).open_.samples ≠ 0) (hc : closeAfter s k (melSys s k) ≤ (melSys s k).open_.samples) :
    ∃ m r n, lineCycleClose k .timeout ph s = elecWritten k m r { s with mel := { s.mel with forcedCycles := n } } ∧
      m.open_ = Cycle.empty ∧ m.cycles = (melSys s k).cycles + 1 ∧
      r.regs = attributeCycle s k (melSys s k).open_.sums (s.bill.regs.elec[k]).regs ∧
      n = (if (melSys s k).unlocked || allLost s k (melSys s k) then s.mel.forcedCycles else s.mel.forcedCycles + 1) := by
  simp only [lineCycleClose, hm, hr, Bool.and_self, Bool.not_true, Bool.false_eq_true, if_false, Nat.not_lt.2 hc]
  split
  · next hf =>
    obtain ⟨m, r, e, hp, hx⟩ := closeCycle_of_samples (ph := some ph) h0
    simp only [cyclePlace, Prod.mk.injEq] at hp
    exact ⟨m, r, _, e, hp.1, hp.2.1, elecOf_fin s k ▸ hx, rfl⟩
  · next hf =>
    have hl : melSys (setMel k (lockUpd none (melSys s k)) s) k = lockUpd none (melSys s k) := melSys_setMel_self ..
    obtain ⟨m, r, e, hp, hx⟩ := closeCycle_of_samples (ph := some ph) (s := setMel k (lockUpd none (melSys s k)) s) (by rw [hl]; exact h0)
    rw [hl] at hp hx
    simp only [cyclePlace, Prod.mk.injEq] at hp
    refine ⟨m, r, _, ?_, hp.1, hp.2.1, elecOf_fin s k ▸ hx, rfl⟩
    rw [e]
    simp only [countForced, elecWritten, setMel, vset_vset]

/-- A system at a crossing of its reference phase, `frac` behind the last sample (R339). -/
def crossed (frac : Fin 4096) (m : MelSys) : MelSys :=
  { lockUpd (some (m.sinceCross * 4096 + frac.val - m.frac)) m with sinceCross := 0, frac := frac.val }

/-- What a crossing of the reference phase of a locked system leaves. -/
theorem lineCycleClose_crossing {k : Fin 4} {phase : Fin 3} {frac : Fin 4096} {ph : Phasors} {s : State} (hm : meteringMode s = true)
    (hr : (melSys s k).running = true) (hp : phase.val = (melSys s k).refPhase) (h0 : (melSys s k).open_.samples ≠ 0)
    (hc : 246 ≤ (melSys s k).sinceCross) (hu : (melSys s k).unlocked = false) (ha : allLost s k (melSys s k) = false) :
    ∃ m r, lineCycleClose k (.crossing phase frac) ph s = elecWritten k m r s ∧ m.open_ = Cycle.empty ∧
      m.cycles = (melSys s k).cycles + 1 ∧ m.sinceCross = 0 ∧ m.frac = frac ∧
      r.regs = attributeCycle s k (melSys s k).open_.sums (s.bill.regs.elec[k]).regs := by
  have hx : lineCycleClose k (.crossing phase frac) ph s = closeCycle k (some ph) (setMel k (crossed frac (melSys s k)) s) := by
    simp only [lineCycleClose, hm, hr, Bool.and_self, Bool.not_true, Bool.false_eq_true, if_false, hp, ne_eq, not_true, false_or,
      Nat.not_lt.2 hc, hu, ha, Bool.or_self, crossed]
  have hl : melSys (setMel k (crossed frac (melSys s k)) s) k = crossed frac (melSys s k) := melSys_setMel_self ..
  obtain ⟨m, r, e, hp', hr'⟩ := closeCycle_of_samples (ph := some ph) (s := setMel k (crossed frac (melSys s k)) s) (by rw [hl]; exact h0)
  rw [hl] at hp' hr'
  simp only [cyclePlace, Prod.mk.injEq] at hp'
  refine ⟨m, r, (hx.trans e).trans ?_, hp'.1, hp'.2.1, hp'.2.2.1, hp'.2.2.2, elecOf_fin s k ▸ hr'⟩
  simp only [elecWritten, setMel, vset_vset]

/-! ### The events -/

theorem closeAfter_elapse {s : State} (h : Quiet s) (dt k : Nat) : closeAfter (elapse dt s) k = closeAfter s k :=
  elapse_read (closeAfter · k) (fun _ _ _ => rfl) h dt

theorem allLost_elapse {s : State} (h : Quiet s) (dt k : Nat) : allLost (elapse dt s) k = allLost s k :=
  elapse_read (allLost · k) (fun _ _ _ => rfl) h dt

theorem publishPage3_shape {s : State} (h : meteringMode s = true) :
    ∃ v g d, publishPage3 s = { s with
      mel := { s.mel with
        page3 := Paged.write s (elecPage s 3 (s.mel.seq3 + 1).toNat 0) s.mel.page3, seq3 := s.mel.seq3 + 1, systems := v },
      gal := g, draws := d } := by
  rw [publishPage3, if_pos h]
  exact ⟨_, _, _, rfl⟩

theorem calWindowEnd_ended {k : Nat} {w : CalWin} {s : State} (hw : (melSys s k).cal = some w) (hs : w.stop ≤ sampleStamp s) :
    calWindowEnd k s =
      completeAll (· == .calWindow k) stOK false (calBody s k w) (setMel k { melSys s k with cal := none } s) := by
  simp only [calWindowEnd, hw, if_neg (not_lt.2 hs)]
  rfl

/-- Settles O41: samples, ends of line cycles, page 3 and calibration windows, each by what its function does. -/
theorem electricalEventsComplete : Obligations.ElectricalEventsComplete := by
  unfold Obligations.ElectricalEventsComplete
  refine ⟨?_, ?_, ?_, ?_, ?_, ?_⟩
  · intro dt k smp s hq hm he hs
    have hrow : exec (.electricalRawSample dt k smp) s = .next (rawSample k smp (elapse dt s)) :=
      row_of_follows hq fun u => follows_rawSample (.refl _)
    rw [hrow, rawSample_settling (by rw [modClk_elapse hq, modClk, hm, he]; rfl) (by rwa [melSys_elapse hq]), melSys_elapse hq,
      setMel, vset_fin, elapse_mel hq.nothingWaits, melSys, vget_fin]
  · intro dt k smp s hq hm he hs
    have hrow : exec (.electricalRawSample dt k smp) s = .next (rawSample k smp (elapse dt s)) :=
      row_of_follows hq fun u => follows_rawSample (.refl _)
    obtain ⟨m, u, e, h1, h2, h3, hy, hb, ht⟩ := rawSample_open (k := k) (smps := smp) (s := elapse dt s)
      (by rw [modClk_elapse hq, modClk, hm, he]; rfl) (by rwa [melSys_elapse hq])
    rw [melSys_elapse hq] at h2 h3
    rw [elapse_bill hq.nothingWaits] at hb
    rw [elapse_mth hq.nothingWaits] at ht
    refine ⟨_, hrow.trans (congrArg _ e), ?_, ?_, ?_, fun o ho => ?_, hb, ht⟩
    · rw [melSys_setMel_self, h1]
    · rw [melSys_setMel_self, h2]
    · rw [melSys_setMel_self, h3]
    · rw [melSys_setMel_ne ho, melSys_congr hy, melSys_elapse hq]
  · intro dt k ph s hq hm hr h0 hc
    have hrow : exec (.lineCycleClose dt k .timeout ph) s = .next (lineCycleClose k .timeout ph (elapse dt s)) :=
      row_of_seen hq fun u => seen_lineCycleClose ..
    obtain ⟨m, r, n, e, h1, h2, h3, h4⟩ := lineCycleClose_timeout (k := k) (ph := ph) (s := elapse dt s)
      (by rwa [meteringMode_elapse hq]) (by rwa [melSys_elapse hq]) (by rwa [melSys_elapse hq])
      (by rwa [melSys_elapse hq, closeAfter_elapse hq])
    rw [melSys_elapse hq] at h2 h3 h4
    rw [attributeCycle_elapse hq, elapse_bill hq.nothingWaits] at h3
    rw [allLost_elapse hq, elapse_mel hq.nothingWaits] at h4
    refine ⟨_, hrow.trans (congrArg _ e), ?_, ?_, ?_, h4, ?_, fun o ho => ⟨?_, ?_⟩, elapse_mth hq.nothingWaits dt⟩
    · rw [elecWritten_self, h1]
    · rw [elecWritten_self, h2]
    · rw [elecWritten_elec, Fin.getElem_fin, Vector.getElem_set_self, h3]
    · exact congrArg (·.regs.therm) (elapse_bill hq.nothingWaits dt)
    · rw [elecWritten_ne _ _ _ _ ho]; exact melSys_elapse hq dt o
    · rw [elecWritten_elec, Fin.getElem_fin, Vector.getElem_set_ne _ _ (fun h => ho (Fin.ext h.symm))]
      exact congrArg (fun b : Bill => b.regs.elec[o]) (elapse_bill hq.nothingWaits dt)
  · intro dt k phase frac ph s hq hm hr hp h0 hc hu ha
    have hrow : exec (.lineCycleClose dt k (.crossing phase frac) ph) s = .next (lineCycleClose k (.crossing phase frac) ph (elapse dt s)) :=
      row_of_seen hq fun u => seen_lineCycleClose ..
    obtain ⟨m, r, e, h1, h2, h3, h4, h5⟩ := lineCycleClose_crossing (k := k) (phase := phase) (frac := frac) (ph := ph) (s := elapse dt s)
      (by rwa [meteringMode_elapse hq]) (by rwa [melSys_elapse hq]) (by rwa [melSys_elapse hq]) (by rwa [melSys_elapse hq])
      (by rwa [melSys_elapse hq]) (by rwa [melSys_elapse hq]) (by rwa [melSys_elapse hq, allLost_elapse hq])
    rw [melSys_elapse hq] at h2 h5
    rw [attributeCycle_elapse hq, elapse_bill hq.nothingWaits] at h5
    refine ⟨_, hrow.trans (congrArg _ e), ?_, ?_, ?_, ?_, ?_, ?_, ?_⟩
    · rw [elecWritten_self, h1]
    · rw [elecWritten_self, h2]
    · rw [elecWritten_self, h3]
    · rw [elecWritten_self, h4]
    · rw [elecWritten_elec, Fin.getElem_fin, Vector.getElem_set_self, h5]
    · exact congrArg (·.regs.therm) (elapse_bill hq.nothingWaits dt)
    · exact congrArg (·.forcedCycles) (elapse_mel hq.nothingWaits dt)
  · intro dt s hq hm
    have hrow : exec (.electricalPagePublish dt) s = .next (publishPage3 (elapse dt s)) := row_of_seen hq seen_publishPage3
    obtain ⟨v, g, d, e⟩ := publishPage3_shape (s := elapse dt s) (by rwa [meteringMode_elapse hq])
    rw [elapse_mel hq.nothingWaits] at e
    exact ⟨_, hrow.trans (congrArg _ e), rfl, rfl, rfl, elapse_bill hq.nothingWaits dt, elapse_mth hq.nothingWaits dt⟩
  · intro dt k w s hq hw hs
    have hrow : exec (.calWindowEnd dt k) s = .next (calWindowEnd k (elapse dt s)) := row_of_seen hq fun u => seen_calWindowEnd ..
    rw [calWindowEnd_ended (by rwa [melSys_elapse hq]) hs, melSys_elapse hq] at hrow
    refine ⟨_, hrow, ?_, fun o ho => ?_, ?_, fun tag e ht he => ?_⟩
    · rw [melSys_congr (congrArg Mel.systems (completeAll_mel ..)), melSys_setMel_self]
    · rw [melSys_congr (congrArg Mel.systems (completeAll_mel ..)), melSys_setMel_ne ho, melSys_elapse hq]
    · rw [completeAll_bill, setMel_bill, elapse_bill hq.nothingWaits]
    · exact tagOf_completeAll (by rw [setMel_hif, elapse_hif hq.nothingWaits, ht]) (by simp [he])

end Sys2Proof.Machine


/-! Process inputs and outputs (R376 to R386). -/

namespace Sys2Proof.Machine

/-! ### Written values that take effect (R34) -/

/-- What waits for a parameter no longer waits once it has been applied. -/
theorem applyOne_cfgPending (id : Nat) (s : State) : (applyOne id s).cfgPending = s.cfgPending.filter fun q => q.id != id := by
  unfold applyOne
  split
  · rfl
  · next h =>
    rw [pendingOf, List.find?_eq_none] at h
    exact (List.filter_eq_self.2 fun q hq => by simpa using h q hq).symm

theorem applyOne_shape (id : Nat) (s : State) : ∃ c w, applyOne id s = { s with cfg := c, cfgPending := w } := by
  unfold applyOne; split
  · exact ⟨_, _, rfl⟩
  · exact ⟨_, _, rfl⟩

theorem applyOne_none {id : Nat} {s : State} (h : pendingOf s id = none) : applyOne id s = s := by simp only [applyOne, h]

/-- The four settings of an analog input in turn. -/
def ainApplied (a : Nat) (s : State) : State := (List.range 4).foldl (fun s j => applyOne (0x0A10 + 4 * a + j) s) s

theorem ainApplied_shape (a : Nat) (s : State) : ∃ c w, ainApplied a s = { s with cfg := c, cfgPending := w } := by
  refine List.foldlRecOn (motive := fun t : State => ∃ c w, t = { s with cfg := c, cfgPending := w }) _ _ ⟨s.cfg, s.cfgPending, rfl⟩ ?_
  rintro u ⟨c, w, rfl⟩ j -
  obtain ⟨c', w', e⟩ := applyOne_shape (0x0A10 + 4 * a + j) { s with cfg := c, cfgPending := w }
  exact ⟨c', w', e⟩

theorem ainApplied_pending (a : Nat) (s : State) : ainPending (ainApplied a s) a = false := by
  simp only [ainPending, pendingIn, ainApplied, List.range_succ, List.range_zero, List.nil_append, List.foldl_append, List.foldl_cons,
    List.foldl_nil, applyOne_cfgPending, List.filter_filter, List.any_filter, List.any_eq_false]
  intro q _
  simp only [bne_iff_ne, Bool.and_eq_true, decide_eq_true_eq]
  omega

theorem ainApplied_none {a : Nat} {s : State} (h : ainPending s a = false) : ainApplied a s = s := by
  have hn {j : Nat} (hj : j < 4) : pendingOf s (0x0A10 + 4 * a + j) = none := by
    simp only [ainPending, pendingIn, List.any_eq_false, Bool.and_eq_true, decide_eq_true_eq] at h
    rw [pendingOf, List.find?_eq_none]
    intro q hq e
    have := h q hq
    have : q.id = 0x0A10 + 4 * a + j := by simpa using e
    omega
  refine List.foldlRecOn (motive := fun t => t = s) _ _ rfl ?_
  rintro u rfl j hj
  exact applyOne_none (hn (List.mem_range.1 hj))

/-! ### Analog inputs (R376, R377) -/

theorem sgn_toNat {n : Nat} (v : BitVec n) : sgn n v.toNat = v.toInt := by
  rw [sgn, Nat.mod_eq_of_lt v.isLt, BitVec.toInt_eq_toNat_cond]
  have h : v.toNat < 2 ^ (n - 1) ↔ 2 * v.toNat < 2 ^ n := by
    cases n with
    | zero => simp [BitVec.eq_nil v]
    | succ n => rw [Nat.add_sub_cancel, Nat.pow_succ]; omega
  simp only [h]
  push_cast
  rfl

theorem pioRuns_elapse {s : State} (h : Quiet s) (dt : Nat) : pioRuns (elapse dt s) = pioRuns s :=
  elapse_read pioRuns (fun _ _ _ => rfl) h dt

theorem ainPending_elapse {s : State} (h : Quiet s) (dt a : Nat) : ainPending (elapse dt s) a = ainPending s a :=
  elapse_read (ainPending · a) (fun _ _ _ => rfl) h dt

/-- A conversion of a used input whose settings stand. -/
theorem analogConversion_used {a : Nat} {code : BitVec 24} {s : State} (hr : pioRuns s = true) (hp : ainPending s a = false)
    (hm : getP s (0x0A10 + 4 * a) % 8 ≠ 0) :
    analogConversion a code s =
      { s with pio := { s.pio with
        ain := vset s.pio.ain a
          { raw := max (-335544) code.toInt,
            value := BitVec.ofNat 64 (ainValue s a (getP s (0x0A10 + 4 * a) % 8) (max (-335544) code.toInt)),
            marks := ainMarks s a (getP s (0x0A10 + 4 * a) % 8) (max (-335544) code.toInt),
            settling := (vget s.pio.ain a Ain.reset).settling - 1, converted := true, endUs := monoUs s } } } := by
  have he : (List.range 4).foldl (fun s j => applyOne (0x0A10 + 4 * a + j) s) s = s := ainApplied_none hp
  simp only [analogConversion, hr, hp, he, sgn_toNat, if_neg hm, Bool.not_true, Bool.false_eq_true, if_false]

/-- A conversion at which a written setting takes effect. -/
theorem analogConversion_pending {a : Nat} {code : BitVec 24} {s : State} (hr : pioRuns s = true) (hp : ainPending s a = true) :
    ∃ x : Ain, x.settling = 3 ∧
      analogConversion a code s = { ainApplied a s with pio := { s.pio with ain := vset s.pio.ain a x } } := by
  obtain ⟨c, w, e⟩ := ainApplied_shape a s
  have he : (List.range 4).foldl (fun s j => applyOne (0x0A10 + 4 * a + j) s) s = { s with cfg := c, cfgPending := w } := e
  simp only [analogConversion, hr, hp, he, e, Bool.not_true, Bool.false_eq_true, if_false, if_true]
  refine ⟨_, ?_, rfl⟩
  split <;> rfl

/-! ### Digital inputs (R378, R379) -/

theorem digitalEdge_moved {n : Fin 32} {pin : Bool} {s : State} (hr : pioRuns s = true) (hp : (s.pio.din[n]).pin ≠ pin) :
    ∃ d, digitalEdge n pin s = { s with pio := { s.pio with din := s.pio.din.set n d } } ∧
      d.pin = pin ∧ d.level = (pin != bit (getP s (0x0A50 + n)) 0) ∧
      d.rise = (if d.level then (s.pio.din[n]).rise + 1 else (s.pio.din[n]).rise) ∧
      d.fall = (if d.level then (s.pio.din[n]).fall else (s.pio.din[n]).fall + 1) ∧
      d.at_ = stampOfUs (tickUs s - getP s (0x0A50 + n) / 65536) := by
  have hb : ((s.pio.din[n]).pin == pin) = false := by simpa using hp
  simp only [digitalEdge, vget_fin, hr, hb, Bool.not_true, Bool.or_self, Bool.false_eq_true, if_false, vset_fin]
  exact ⟨_, rfl, rfl, rfl, rfl, rfl, rfl⟩

/-! ### Faults of the outputs (R384) -/

/-- The fault of an output is set and recorded. -/
def faultSet (o kind : Nat) (driven read : Bool) (s : State) : State :=
  post 0x0A01 o (le 1 kind ++ le 1 (b2n driven) ++ le 1 (b2n read)) 0
    { s with pio := { s.pio with fault := BitVec.ofNat 32 (Nat.lor s.pio.fault.toNat (2 ^ o)) } }

theorem getLsbD_faultSet {o kind : Nat} {driven read : Bool} {s : State} {k : Nat} (hk : k < 32) :
    (faultSet o kind driven read s).pio.fault.getLsbD k = (s.pio.fault.getLsbD k || k == o) := by
  change (BitVec.ofNat 32 (s.pio.fault.toNat ||| 2 ^ o)).getLsbD k = _
  simp only [BitVec.getLsbD_ofNat, hk, decide_true, Bool.true_and, Nat.testBit_lor, Nat.testBit_two_pow, BitVec.testBit_toNat]
  by_cases e : k = o
  · subst e; simp
  · simp [e, Ne.symm e]

/-- The output, its fault level asked for, at its safe level. -/
def faultDriven (o : Nat) (s : State) : State :=
  doSafe o { s with pio := { s.pio with dos := vset s.pio.dos o { vget s.pio.dos o DOut.reset with faultSafe := true } } }

theorem outputFault_kept {o kind : Nat} {driven read : Bool} {s : State} (h : o < 24 → bit (doConfig s o) 8 = false) :
    outputFault o kind driven read s = faultSet o kind driven read s := by
  refine if_neg ?_
  simp only [Bool.and_eq_true, decide_eq_true_eq, not_and]
  intro ho
  exact Bool.eq_false_iff.1 (h ho)

theorem outputFault_driven {o : Fin 24} {kind : Nat} {driven read : Bool} {s : State} (h : bit (doConfig s o) 8 = true) :
    outputFault o kind driven read s = faultDriven o (faultSet o kind driven read s) := by
  refine if_pos ?_
  simp only [o.isLt, decide_true, Bool.true_and]
  exact h

theorem faultDriven_shape (o : Nat) (s : State) : ∃ d, faultDriven o s = { s with pio := { s.pio with dos := vset s.pio.dos o d } } := by
  simp only [faultDriven, doSafe, driveDo, vset_vset]
  exact ⟨_, rfl⟩

theorem safeLevel_fault {o : Nat} {d : DOut} {s : State} (h : pairOutput s ≠ some o) (hd : d.faultSafe = true) :
    safeLevel s o d = (doConfig s o % 4 == 1) := by
  simp only [safeLevel, beq_iff_eq, h, if_false, hd, if_true]
  split <;> simp_all

theorem driveDo_level (o : Fin 24) (v : Bool) (s : State) :
    ((driveDo o v s).pio.dos[o]).level = v ∧ ((driveDo o v s).pio.dos[o]).faultSafe = (s.pio.dos[o]).faultSafe := by
  simp only [driveDo, getElem_vset, vget_fin, if_true]
  split
  · next h => exact ⟨h, rfl⟩
  · exact ⟨rfl, rfl⟩

theorem faultDriven_level {o : Fin 24} {s : State} (h : pairOutput s ≠ some o.val) :
    ((faultDriven o s).pio.dos[o]).faultSafe = true ∧ ((faultDriven o s).pio.dos[o]).level = (doConfig s o % 4 == 1) := by
  have hd := driveDo_level o
  simp only [faultDriven, doSafe, vset_vset, hd, getElem_vset, if_true, vget_vset_self o.isLt]
  exact ⟨trivial, safeLevel_fault h rfl⟩

/-- What the fault of an output leaves: the fault bit, the level of the output if it is configured so, and nothing else of the outputs. -/
theorem outputFault_shape (o kind : Nat) (driven read : Bool) (s : State) :
    ∃ v f d, outputFault o kind driven read s = { s with evr := v, pio := { s.pio with fault := f, dos := d } } ∧
      (∀ k, k < 32 → f.getLsbD k = (s.pio.fault.getLsbD k || k == o)) ∧ (∀ p : Fin 24, p.val ≠ o → d[p] = s.pio.dos[p]) ∧
      ((o < 24 → bit (doConfig s o) 8 = false) → d = s.pio.dos) ∧
      (∀ h : o < 24, bit (doConfig s o) 8 = true → pairOutput s ≠ some o →
        (d[o]).faultSafe = true ∧ (d[o]).level = (doConfig s o % 4 == 1)) := by
  by_cases h : o < 24 ∧ bit (doConfig s o) 8 = true
  · obtain ⟨ho, hb⟩ := h
    obtain ⟨x, e⟩ := faultDriven_shape o (faultSet o kind driven read s)
    have hl := outputFault_driven (o := ⟨o, ho⟩) (kind := kind) (driven := driven) (read := read) hb
    refine ⟨_, _, vset s.pio.dos o x, hl.trans e, fun k hk => getLsbD_faultSet (kind := kind) hk, fun p hp => ?_, fun h => ?_, fun _ _ hp => ?_⟩
    · rw [getElem_vset, if_neg (Ne.symm hp)]
    · exact absurd (h ho) (by simp [hb])
    · have hx := faultDriven_level (o := ⟨o, ho⟩) (s := faultSet o kind driven read s) hp
      rw [e] at hx
      exact hx
  · have hk : o < 24 → bit (doConfig s o) 8 = false := fun ho => Bool.eq_false_iff.2 fun hb => h ⟨ho, hb⟩
    refine ⟨_, _, _, outputFault_kept hk, fun k hk => getLsbD_faultSet (kind := kind) (driven := driven) (read := read) hk, fun p _ => rfl, fun _ => rfl, fun ho hb => ?_⟩
    rw [hk ho] at hb; cases hb

theorem padFault_shape {o : Fin 32} {read : Bool} {s : State} (hr : pioRuns s = true)
    (hl : ∀ h : o.val < 24, (s.pio.dos[o.val]).level ≠ read) :
    ∃ v f d, padFault o read s = { s with evr := v, pio := { s.pio with fault := f, dos := d } } ∧
      (∀ k, k < 32 → f.getLsbD k = (s.pio.fault.getLsbD k || k == o.val)) ∧ (∀ p : Fin 24, p.val ≠ o.val → d[p] = s.pio.dos[p]) ∧
      (∀ h : o.val < 24, bit (doConfig s o) 8 = false → d = s.pio.dos.set o { s.pio.dos[o.val] with pad := read }) ∧
      (∀ h : o.val < 24, bit (doConfig s o) 8 = true → pairOutput s ≠ some o.val →
        (d[o.val]).faultSafe = true ∧ (d[o.val]).level = (doConfig s o % 4 == 1)) := by
  by_cases ho : o.val < 24
  · have hv : vget s.pio.dos o.val DOut.reset = s.pio.dos[o.val] := vget_fin s.pio.dos ⟨o.val, ho⟩ _
    obtain ⟨v, f, d, e, hf, hp, hk, hd⟩ := outputFault_shape o.val 0 (s.pio.dos[o.val]).level read
      { s with pio := { s.pio with dos := vset s.pio.dos o.val { s.pio.dos[o.val] with pad := read } } }
    refine ⟨v, f, d, ?_, hf, fun p h => ?_, fun _ hb => ?_, hd⟩
    · simp only [padFault, hr, Bool.not_true, Bool.false_eq_true, if_false, ho, if_true, hv, if_neg (hl ho)]
      exact e
    · rw [hp p h, getElem_vset, if_neg (Ne.symm h)]
    · exact (hk fun _ => hb).trans (vset_fin s.pio.dos ⟨o.val, ho⟩ _)
  · obtain ⟨v, f, d, e, hf, hp, hk, hd⟩ := outputFault_shape o.val 0 (!read) read s
    refine ⟨v, f, d, ?_, hf, hp, fun h => absurd h ho, hd⟩
    simp only [padFault, hr, Bool.not_true, Bool.false_eq_true, if_false, ho]
    exact e

theorem feedbackFault_seen {o : Fin 24} {s : State} (hr : pioRuns s = true) (hb : bit (doConfig s o) 15 = true)
    (hl : (diLevel s (bits (doConfig s o) 13 9) != bit (doConfig s o) 14) ≠ (s.pio.dos[o]).level)
    (ht : (s.pio.dos[o]).changedUs + doConfig s o / 65536 * 1000 < monoUs s) :
    feedbackFault o s =
      outputFault o 1 (s.pio.dos[o]).level (diLevel s (bits (doConfig s o) 13 9) != bit (doConfig s o) 14) s := by
  simp only [feedbackFault, vget_fin, hr, hb, bne_iff_ne.2 hl, decide_eq_true ht, Bool.and_self, if_true]

/-! ### PWM (R380, R386) -/

theorem applyOne_getP {id : Nat} {s : State} (h : tableWf pdflt s.cfg = true) :
    getP (applyOne id s) id = ((pendingOf s id).map (·.value)).getD (getP s id) := by
  unfold applyOne
  split
  · next p e =>
    rw [e]
    exact (getP_setP h).trans (if_pos rfl)
  · next e => rw [e]; rfl

theorem pwmBoundary_shape {p : Fin 8} {s : State} (hw : tableWf pdflt s.cfg = true) (hr : pioRuns s = true) :
    ∃ c w, pwmBoundary p s =
      { s with
        cfg := c, cfgPending := w,
        pio := { s.pio with pwm := s.pio.pwm.set p { s.pio.pwm[p] with
          duty := (s.pio.pwm[p]).next.getD (s.pio.pwm[p]).duty, next := none,
          period := ((pendingOf s (0x0A88 + 2 * p)).map (·.value)).getD (getP s (0x0A88 + 2 * p)) } } } := by
  obtain ⟨c, w, e⟩ := applyOne_shape (0x0A88 + 2 * p) s
  have hg := applyOne_getP (id := 0x0A88 + 2 * p) hw
  simp only [pwmBoundary, hr, Bool.not_true, Bool.false_eq_true, if_false, hg]
  rw [e]
  simp only [vget_fin, vset_fin]
  exact ⟨_, _, rfl⟩

theorem doConfig_elapse {s : State} (h : Quiet s) (dt o : Nat) : doConfig (elapse dt s) o = doConfig s o := getP_elapse h dt _

theorem pairOutput_elapse {s : State} (h : Quiet s) (dt : Nat) : pairOutput (elapse dt s) = pairOutput s :=
  elapse_read pairOutput (fun _ _ _ => rfl) h dt

/-- Settles O43: each event by what its function does to the inputs and outputs. -/
theorem processInputsAndOutputsComplete : Obligations.ProcessInputsAndOutputsComplete := by
  unfold Obligations.ProcessInputsAndOutputsComplete
  refine ⟨?_, ?_, ?_, ?_, ?_, ?_⟩
  · intro dt a code s hq hr hp hm
    have hrow : exec (.analogConversion dt a code) s = .next (analogConversion a code (elapse dt s)) :=
      row_of_follows hq fun u => follows_analogConversion (.refl _)
    rw [hrow, analogConversion_used (by rwa [pioRuns_elapse hq]) (by rwa [ainPending_elapse hq]) (by rwa [getP_elapse hq]),
      elapse_pio hq.nothingWaits, getP_elapse hq, vset_fin, vget_fin, elapse_read ainValue (fun _ _ _ => rfl) hq dt,
      elapse_read ainMarks (fun _ _ _ => rfl) hq dt]
  · intro dt a code s hq hr hp
    have hrow : exec (.analogConversion dt a code) s = .next (analogConversion a code (elapse dt s)) :=
      row_of_follows hq fun u => follows_analogConversion (.refl _)
    obtain ⟨x, hx, e⟩ := analogConversion_pending (a := a) (code := code) (s := elapse dt s) (by rwa [pioRuns_elapse hq])
      (by rwa [ainPending_elapse hq])
    have hn := ainApplied_pending a (elapse dt s)
    obtain ⟨c, w, ea⟩ := ainApplied_shape a (elapse dt s)
    rw [ea] at e hn
    refine ⟨_, hrow.trans (congrArg _ e), ?_, hn, fun b hb => ?_, ?_, ?_, ?_⟩
    · rw [getElem_vset, if_pos rfl, hx]
    · rw [getElem_vset, if_neg (fun h => hb (Fin.ext h.symm)), elapse_pio hq.nothingWaits]
    · exact congrArg (·.din) (elapse_pio hq.nothingWaits dt)
    · exact congrArg (·.dos) (elapse_pio hq.nothingWaits dt)
    · exact elapse_evr hq.nothingWaits dt
  · intro dt n pin s hq hr hp
    have hrow : exec (.digitalInputEdge dt n pin) s = .next (digitalEdge n pin (elapse dt s)) := row_of_seen hq fun u => seen_digitalEdge ..
    obtain ⟨d, e, h⟩ := digitalEdge_moved (n := n) (pin := pin) (s := elapse dt s) (by rwa [pioRuns_elapse hq])
      (by rwa [elapse_pio hq.nothingWaits])
    rw [elapse_pio hq.nothingWaits] at e h
    rw [getP_elapse hq] at h
    exact ⟨d, hrow.trans (congrArg _ e), h⟩
  · intro dt o read s hq hr hl
    have hrow : exec (.padFault dt o read) s = .next (padFault o read (elapse dt s)) := row_of_seen hq fun u => seen_padFault ..
    obtain ⟨v, f, d, e, hf, hp, hk, hd⟩ := padFault_shape (o := o) (read := read) (s := elapse dt s) (by rwa [pioRuns_elapse hq])
      (by rwa [elapse_pio hq.nothingWaits])
    rw [elapse_pio hq.nothingWaits] at e hf hp hk
    rw [doConfig_elapse hq] at hk hd
    rw [pairOutput_elapse hq] at hd
    exact ⟨_, hrow.trans (congrArg _ e), hf, hk, hd, hp, rfl, rfl, rfl, elapse_sys hq.nothingWaits dt⟩
  · intro dt o s hq hr hb hl ht
    have hrow : exec (.feedbackFault dt o) s = .next (feedbackFault o (elapse dt s)) := row_of_seen hq fun u => seen_feedbackFault ..
    have hfb : ∀ n, diLevel (elapse dt s) n = diLevel s n := fun n => elapse_read (diLevel · n) (fun _ _ _ => rfl) hq dt
    rw [feedbackFault_seen (by rwa [pioRuns_elapse hq]) (by rwa [doConfig_elapse hq])
      (by rwa [doConfig_elapse hq, hfb, elapse_pio hq.nothingWaits]) (by rwa [doConfig_elapse hq, elapse_pio hq.nothingWaits])] at hrow
    obtain ⟨v, f, d, e, hf, hp, hk, hd⟩ := outputFault_shape o 1 ((elapse dt s).pio.dos[o]).level
      (diLevel (elapse dt s) (bits (doConfig (elapse dt s) o) 13 9) != bit (doConfig (elapse dt s) o) 14) (elapse dt s)
    rw [elapse_pio hq.nothingWaits, doConfig_elapse hq] at hk
    rw [doConfig_elapse hq, pairOutput_elapse hq] at hd
    rw [elapse_pio hq.nothingWaits] at hf hp
    refine ⟨_, hrow.trans (congrArg _ e), hf, fun hb => hk fun _ => hb, hd o.isLt, fun p h => hp p fun e => h (Fin.ext e), ?_,
      elapse_sys hq.nothingWaits dt⟩
    exact congrArg (·.pwm) (elapse_pio hq.nothingWaits dt)
  · intro dt p s hq hc hr
    obtain ⟨-, -, hw, -⟩ := (canonical_iff s).1 hc
    have hrow : exec (.pwmPeriodBoundary dt p) s = .next (pwmBoundary p (elapse dt s)) :=
      row_of_follows hq fun u => follows_pwmBoundary (.refl _)
    obtain ⟨c, w, e⟩ := pwmBoundary_shape (p := p) (s := elapse dt s) (by rwa [elapse_cfg hq.nothingWaits]) (by rwa [pioRuns_elapse hq])
    have hp : pendingOf (elapse dt s) = pendingOf s := elapse_read pendingOf (fun _ _ _ => rfl) hq dt
    rw [elapse_pio hq.nothingWaits, hp, getP_elapse hq] at e
    refine ⟨_, hrow.trans (congrArg _ e), ?_, ?_, ?_, fun q h => ?_, rfl, rfl, rfl, elapse_sys hq.nothingWaits dt⟩
    · rw [Fin.getElem_fin, Vector.getElem_set_self]
    · rw [Fin.getElem_fin, Vector.getElem_set_self]
    · rw [Fin.getElem_fin, Vector.getElem_set_self]
    · rw [Fin.getElem_fin, Vector.getElem_set_ne _ _ (fun e => h (Fin.ext e.symm))]; rfl

end Sys2Proof.Machine


/-! The Ethernet switch, trigger outputs and capture inputs (R414 to R421, R435, R438, R439). -/

namespace Sys2Proof.Machine

/-! ### Frames (R415 to R421) -/

theorem switchRuns_elapse {s : State} (h : Quiet s) (dt : Nat) : switchRuns (elapse dt s) = switchRuns s :=
  elapse_read switchRuns (fun _ _ _ => rfl) h dt

theorem portEnabled_elapse {s : State} (h : Quiet s) (dt p : Nat) : portEnabled (elapse dt s) p = portEnabled s p :=
  elapse_read (portEnabled · p) (fun _ _ _ => rfl) h dt

theorem frameVid_elapse {s : State} (h : Quiet s) (dt : Nat) (f : EthFrame) : frameVid (elapse dt s) f = frameVid s f :=
  elapse_read (frameVid · f) (fun _ _ _ => rfl) h dt

theorem vlanEntry_elapse {s : State} (h : Quiet s) (dt vid : Nat) : vlanEntry (elapse dt s) vid = vlanEntry s vid :=
  elapse_read (vlanEntry · vid) (fun _ _ _ => rfl) h dt

theorem etherFrame_error {f : EthFrame} {s : State} (hr : switchRuns s = true) (hp : portEnabled s f.port = true)
    (h : f.fcsOk = false ∨ 1522 < f.length) :
    etherFrame f s = { s with eth := { s.eth with rxErrors := vset s.eth.rxErrors f.port (vget s.eth.rxErrors f.port 0 + 1) } } := by
  have hc : (!f.fcsOk || decide (1522 < f.length)) = true := by simpa using h
  simp only [etherFrame, hr, hp, hc, Bool.not_true, Bool.or_self, Bool.false_eq_true, if_false, if_true]

section
variable {f : EthFrame} {s : State} (hr : switchRuns s = true) (hp : portEnabled s f.port = true) (hf : f.fcsOk = true)
  (hl : f.length ≤ 1522) (h64 : 64 ≤ f.length) (hu : f.pause = false)
include hr hp hf hl h64 hu

theorem etherFrame_dropped (hn : ((vlanEntry s (frameVid s f)).filter fun e => isMember e f.port) = none) :
    etherFrame f s = { s with eth := { s.eth with vlanDrops := s.eth.vlanDrops + 1 } } := by
  simp only [etherFrame, hr, hp, hf, hu, hn, Nat.not_lt.2 hl, Nat.not_lt.2 h64, Bool.not_true, Bool.or_self, Bool.false_eq_true, if_false,
    decide_false]

theorem etherFrame_taken {e : Nat} (he : ((vlanEntry s (frameVid s f)).filter fun e => isMember e f.port) = some e) :
    etherFrame f s =
      (let u := { s with eth := { s.eth with table := learn (frameVid s f) f.src.toNat f.port s.clock.real s.eth.table } }
      (egressPorts u e (frameVid s f) f.port f.dst.toNat).foldl (emit f e) u) := by
  simp only [etherFrame, hr, hp, hf, hu, he, Nat.not_lt.2 hl, Nat.not_lt.2 h64, Bool.not_true, Bool.or_self, Bool.false_eq_true, if_false,
    decide_false]

end

/-- What a frame teaches of its sender leaves what is known of another address. -/
theorem find_learn {vid src dst port now : Nat} (h : src ≠ dst) (l : List Learned) {x : Learned}
    (hx : (l.find? fun y => y.vid == vid && y.mac == dst) = some x) :
    ((learn vid src port now l).find? fun y => y.vid == vid && y.mac == dst) = some x := by
  unfold learn
  split
  · exact hx
  · split
    · rw [List.find?_map]
      have hc : ((fun y : Learned => y.vid == vid && y.mac == dst) ∘
          fun y => if y.vid = vid ∧ y.mac = src then { y with port := port, seen := now } else y) =
            fun y => y.vid == vid && y.mac == dst := by
        funext y
        simp only [Function.comp]
        split <;> rfl
      rw [hc, hx]
      have hf := List.find?_some hx
      have hm : x.mac ≠ src := by simp_all [Ne.symm h]
      simp [hm]
    · split
      · rw [List.find?_append, hx]; rfl
      · exact hx

/-- A frame to a learned address leaves by its port alone. -/
theorem egressPorts_learned {s : State} {e vid port dst : Nat} {x : Learned} (hg : isGroup dst = false)
    (hx : (s.eth.table.find? fun y => y.vid == vid && y.mac == dst) = some x) (h5 : x.port < 5) (hn : x.port ≠ port)
    (hm : isMember e x.port = true) (hp : portEnabled s x.port = true) : egressPorts s e vid port dst = [x.port] := by
  have hf : ((List.range 5).filter (· == x.port)) = [x.port] := by
    generalize x.port = p at h5
    decide +revert
  simp only [egressPorts, hg, hx, Bool.false_eq_true, if_false, List.filter_filter]
  rw [← hf]
  refine List.filter_congr fun p _ => ?_
  by_cases h : p = x.port
  · subst h; simp [hm, hn, hp]
  · simp [h]

theorem etherFrame_forwarded {f : EthFrame} {e : Nat} {x : Learned} {s : State} (hr : switchRuns s = true)
    (hp : portEnabled s f.port = true) (hf : f.fcsOk = true) (hl : f.length ≤ 1522) (h64 : 64 ≤ f.length) (hu : f.pause = false)
    (he : vlanEntry s (frameVid s f) = some e) (hm : isMember e f.port = true) (hg : isGroup f.dst.toNat = false) (hd : f.src ≠ f.dst)
    (hx : (s.eth.table.find? fun y => y.vid == frameVid s f && y.mac == f.dst.toNat) = some x) (h5 : x.port < 5) (hn : x.port ≠ f.port)
    (hmx : isMember e x.port = true) (hpx : portEnabled s x.port = true)
    (hq : f.full.getLsbD (4 * x.port + egressQueue f x.port) = false) :
    etherFrame f s =
      { s with
        eth := { s.eth with table := learn (frameVid s f) f.src.toNat f.port s.clock.real s.eth.table },
        out := s.out ++ [.frame x.port (egressQueue f x.port) (!bit e (17 + x.port)) (tcCorrection s f x.port)] } := by
  have hfil : (vlanEntry s (frameVid s f)).filter (fun e => isMember e f.port) = some e := by simp [he, hm]
  rw [etherFrame_taken hr hp hf hl h64 hu hfil]
  have hs : f.src.toNat ≠ f.dst.toNat := fun h => hd (BitVec.eq_of_toNat_eq h)
  simp only [egressPorts_learned (s := { s with eth := { s.eth with table := learn (frameVid s f) f.src.toNat f.port s.clock.real s.eth.table } })
    hg (find_learn hs _ hx) h5 hn hmx hpx, List.foldl_cons, List.foldl_nil, emit, hq, Bool.false_eq_true, if_false]
  rfl

/-- Settles O45: frames, polls and ageing, each by what its function does. -/
theorem switchEventsComplete : Obligations.SwitchEventsComplete := by
  unfold Obligations.SwitchEventsComplete
  refine ⟨?_, ?_, ?_, ?_, ?_⟩
  · intro dt f s hq hr hp h4 h
    have hrow : exec (.ethernetFrame dt f) s = .next (etherFrame f (elapse dt s)) := row_of_seen hq fun u => seen_etherFrame ..
    rw [hrow, etherFrame_error (by rwa [switchRuns_elapse hq]) (by rwa [portEnabled_elapse hq]) h, elapse_eth hq.nothingWaits]
    rw [vset_fin s.eth.rxErrors ⟨f.port, h4⟩, vget_fin s.eth.rxErrors ⟨f.port, h4⟩]
    rfl
  · intro dt f s hq hr hp hf hl h64 hu hv
    have hrow : exec (.ethernetFrame dt f) s = .next (etherFrame f (elapse dt s)) := row_of_seen hq fun u => seen_etherFrame ..
    have hn : (vlanEntry s (frameVid s f)).filter (fun e => isMember e f.port) = none := by
      rw [Option.filter_eq_none_iff]
      exact fun e he => by simp [hv e he]
    rw [hrow, etherFrame_dropped (by rwa [switchRuns_elapse hq]) (by rwa [portEnabled_elapse hq]) hf hl h64 hu
      (by rwa [frameVid_elapse hq, vlanEntry_elapse hq]), elapse_eth hq.nothingWaits]
  · intro dt f e x s hq hr hp hf hl h64 hu he hm hg hd hx h5 hn hmx hpx hfull
    have hrow : exec (.ethernetFrame dt f) s = .next (etherFrame f (elapse dt s)) := row_of_seen hq fun u => seen_etherFrame ..
    rw [hrow, etherFrame_forwarded (e := e) (x := x) (by rwa [switchRuns_elapse hq]) (by rwa [portEnabled_elapse hq]) hf hl h64 hu
      (by rwa [frameVid_elapse hq, vlanEntry_elapse hq]) hm hg hd (by rwa [frameVid_elapse hq, elapse_eth hq.nothingWaits]) h5 hn hmx
      (by rwa [portEnabled_elapse hq]) hfull, frameVid_elapse hq, elapse_eth hq.nothingWaits, elapse_out hq.nothingWaits,
      elapse_read (tcCorrection · f x.port) (fun _ _ _ => rfl) hq dt]
  · intro dt p up speed high s hq hr hm hu
    have hrow : exec (.phySpeedPoll dt p up speed high) s = .next (phyPoll p up speed high (elapse dt s)) :=
      row_of_seen hq fun u => seen_phyPoll ..
    have hp : portEnabled s p = bit (getP s (0x0C10 + p)) 0 := by simp [portEnabled, p.isLt.ne]
    rw [hrow]
    simp [phyPoll, elapse_sys hq.nothingWaits, elapse_hif hq.nothingWaits, elapse_eth hq.nothingWaits, hr, hm, hu, getP_elapse hq,
      portEnabled_elapse hq, vset_fin, hp]
  · intro dt vid mac s hq
    have hrow : exec (.addressAgeOut dt vid mac) s = .next (ageOut vid mac.toNat (elapse dt s)) := row_of_seen hq fun u => seen_ageOut ..
    rw [hrow, ageOut, elapse_eth hq.nothingWaits]

/-! ### Trigger outputs (R435) -/

theorem triggersRun_elapse {s : State} (h : Quiet s) (dt : Nat) : triggersRun (elapse dt s) = triggersRun s :=
  elapse_read triggersRun (fun _ _ _ => rfl) h dt

theorem triggerStart_train {k : Fin 8} {s : State} (hr : triggersRun s = true) (ho : (s.time.triggers[k]).on = true)
    (hp : (s.time.triggers[k]).period ≠ 0)
    (hm : (s.time.triggers[k]).count = 0 ∨ (s.time.triggers[k]).made < (s.time.triggers[k]).count)
    (hn : (s.time.triggers[k]).next ≤ ptpTotalNs s) :
    triggerStart k s = { s with time := { s.time with triggers := s.time.triggers.set k { s.time.triggers[k] with
      level := true,
      endAt :=
        if (s.time.triggers[k]).level then
          max (s.time.triggers[k]).endAt ((s.time.triggers[k]).next + (s.time.triggers[k]).width)
        else (s.time.triggers[k]).next + (s.time.triggers[k]).width,
      next := (s.time.triggers[k]).next + (s.time.triggers[k]).period,
      made := if (s.time.triggers[k]).count = 0 then 0 else (s.time.triggers[k]).made + 1 } } } := by
  have hc : ((s.time.triggers[k]).count != 0 && decide ((s.time.triggers[k]).count ≤ (s.time.triggers[k]).made)) = false := by
    generalize s.time.triggers[k] = t at hm
    rcases hm with h | h
    · simp [h]
    · simp [h]
  simp only [triggerStart, vget_fin, hr, ho, hp, hc, Nat.not_lt.2 hn, Bool.not_true, Bool.or_self, Bool.false_eq_true, if_false,
    decide_false, updTime, vset_fin]

theorem triggerStart_single {k : Fin 8} {s : State} (hr : triggersRun s = true) (ho : (s.time.triggers[k]).on = true)
    (hp : (s.time.triggers[k]).period = 0) (hm : (s.time.triggers[k]).made = 0) (hl : (s.time.triggers[k]).level = false)
    (hn : (s.time.triggers[k]).next ≤ ptpTotalNs s) :
    triggerStart k s = { s with time := { s.time with triggers := s.time.triggers.set k { s.time.triggers[k] with
      level := true, endAt := (s.time.triggers[k]).next + (s.time.triggers[k]).width, made := 1 } } } := by
  simp only [triggerStart, vget_fin, hr, ho, hp, hm, hl, Nat.not_lt.2 hn, Bool.not_true, Bool.or_self, Bool.false_eq_true, if_false,
    if_true, decide_false, updTime, vset_fin, bne_self_eq_false]

theorem triggerEnd_over {k : Fin 8} {s : State} (hl : (s.time.triggers[k]).level = true) (he : (s.time.triggers[k]).endAt ≤ ptpTotalNs s) :
    triggerEnd k s =
      { s with time := { s.time with triggers := s.time.triggers.set k { s.time.triggers[k] with level := false } } } := by
  simp only [triggerEnd, vget_fin, hl, Nat.not_lt.2 he, Bool.not_true, Bool.or_self, Bool.false_eq_true, if_false, decide_false, updTime,
    vset_fin]

/-! ### Capture inputs (R438, R439) -/

theorem bit_mod_four {v k : Nat} (h : k < 2) : bit (v % 4) k = bit v k := by
  rw [bit_eq_testBit, bit_eq_testBit, show 4 = 2 ^ 2 from rfl, Nat.testBit_mod_two_pow]
  simp [h]

theorem captureEdge_selected {n : Fin 4} {rising : Bool} {s : State} (hr : triggersRun s = true)
    (he : (if rising then bit (getP s (0x0D1D + n)) 0 else bit (getP s (0x0D1D + n)) 1) = true) :
    captureEdge n rising s = { s with time := { s.time with
      captures := s.time.captures.set n (if 64 ≤ (s.time.captures[n]).ring.length then
          { s.time.captures[n] with overrun := (s.time.captures[n]).overrun + 1 }
        else
          { s.time.captures[n] with
            count := (s.time.captures[n]).count + 1,
            ring := ⟨(s.time.captures[n]).count + 1, rising, ⟨ptpSec s, ptpNs s⟩⟩ :: (s.time.captures[n]).ring }) } } := by
  simp only [captureEdge, vget_fin, hr, he, bit_mod_four (Nat.zero_lt_two), bit_mod_four (Nat.one_lt_two), Bool.not_true, Bool.or_self,
    Bool.false_eq_true, if_false, updTime, vset_fin]

/-- The inputs after a page has taken their newest records. -/
def capturesTaken (v : Vector CapIn 4) : Vector CapIn 4 := v.map fun c => { c with newest := (c.ring ++ c.newest).take 4, ring := [] }

theorem capturePublish_due {s : State} (hr : triggersRun s = true) (h : ∃ n : Fin 4, (s.time.captures[n]).ring ≠ []) :
    capturePublish s =
      (let u := { s with time := { s.time with captures := capturesTaken s.time.captures } }
      { u with time := { u.time with
        page := u.time.page.write u (capturePage u (s.time.pageSeq + 1).toNat), pageSeq := s.time.pageSeq + 1 } }) := by
  have ha : (s.time.captures.toList.all fun c => c.ring.isEmpty) = false := by
    obtain ⟨n, hn⟩ := h
    rw [List.all_eq_false]
    exact ⟨s.time.captures[n], by simp, by simpa using hn⟩
  simp only [capturePublish, hr, ha, Bool.not_true, Bool.or_self, Bool.false_eq_true, if_false, updTime]
  rfl

/-- Settles O48: trigger pulses, captured edges and the page, each by what its function does. -/
theorem triggersAndCapturesComplete : Obligations.TriggersAndCapturesComplete := by
  unfold Obligations.TriggersAndCapturesComplete
  refine ⟨?_, ?_, ?_, ?_, ?_⟩
  · intro dt k s hq hr ho hp hm hn
    have hrow : exec (.triggerPulseStart dt k) s = .next (triggerStart k (elapse dt s)) := row_of_seen hq fun u => seen_triggerStart ..
    have ht := elapse_time hq.nothingWaits dt
    rw [hrow, triggerStart_train (by rwa [triggersRun_elapse hq]) (by rwa [ht]) (by rwa [ht]) (by rwa [ht]) (by rwa [ht]), ht]
  · intro dt k s hq hr ho hp hm hl hn
    have hrow : exec (.triggerPulseStart dt k) s = .next (triggerStart k (elapse dt s)) := row_of_seen hq fun u => seen_triggerStart ..
    have ht := elapse_time hq.nothingWaits dt
    rw [hrow, triggerStart_single (by rwa [triggersRun_elapse hq]) (by rwa [ht]) (by rwa [ht]) (by rwa [ht]) (by rwa [ht]) (by rwa [ht]),
      ht]
  · intro dt k s hq hl he
    have hrow : exec (.triggerPulseEnd dt k) s = .next (triggerEnd k (elapse dt s)) := row_of_seen hq fun u => seen_triggerEnd ..
    have ht := elapse_time hq.nothingWaits dt
    rw [hrow, triggerEnd_over (by rwa [ht]) (by rwa [ht]), ht]
  · intro dt n rising s hq hr he
    have hrow : exec (.captureEdge dt n rising) s = .next (captureEdge n rising (elapse dt s)) := row_of_seen hq fun u => seen_captureEdge ..
    rw [hrow, captureEdge_selected (by rwa [triggersRun_elapse hq]) (by rwa [getP_elapse hq]), elapse_time hq.nothingWaits]
  · intro dt s hq hr h
    have hrow : exec (.capturePagePublish dt) s = .next (capturePublish (elapse dt s)) := row_of_seen hq seen_capturePublish
    have ht := elapse_time hq.nothingWaits dt
    rw [capturePublish_due (by rwa [triggersRun_elapse hq]) (by rwa [ht]), ht] at hrow
    exact ⟨_, hrow, rfl, rfl, fun n => by simp [capturesTaken], rfl⟩

end Sys2Proof.Machine


/-! Two statements on the clock fail: a step of metering time may bring the minute change that requests a status strip anew, and the
request that this supersedes completes a command that waits for it (R331, R471). -/

namespace Sys2Proof.Machine

/-- A command that waits for the panel request 5. -/
def awaitsStrip : Exec :=
  { op := 0x0F01, org := ⟨.uart, 0, 0⟩, bufs := 0, e2e := false, reqCrc := 0,
    auth := { level := 2, keyId := 1, counter := 0, signed := false, a3 := false, session := none },
    wait := .display 5, accUs := 0, order := 0 }

/-- Metering second 63, with a change of SAVE_INTERVAL that waits for the minute, and panel request 5, of the lower strip, that a
command awaits. -/
def stripAwaited : State :=
  { State.reset with
    clock := { State.reset.clock with ptp := 100 * secUnit },
    sys := { Sys.reset with mode := .run },
    hif := { Hif.reset with tags := [(7, .executing awaitsStrip)] },
    epd := { Epd.reset with
      queue := [{ id := 5, region := 1, rect := ⟨0, 0, 1, 1⟩, waveform := 1, all := false, auto := false }] },
    cfg := [(0x0F10, 100 * 2 ^ 20 + 100 * 2 ^ 8)],
    cfgPending := [⟨0x0910, 5, 1, 0⟩] }

/-- The same with a master, whose time the clock takes. -/
def stripAwaitedSlave : State :=
  { stripAwaited with time := { stripAwaited.time with
    isMaster := false,
    master := some { priority1 := 0, clockClass := 0, accuracy := 0, variance := 0, priority2 := 0, identity := 0, steps := 0, port := 2 } } }

/-- An Announce whose UTC offset is 97 s less than the one in use. -/
def offsetAnnounce : AnnounceMsg :=
  { domain := 0, priority1 := 0, clockClass := 0, accuracy := 0, variance := 0, priority2 := 0, identity := 0, steps := 0,
    utcOffset := -60, utcValid := true, leap61 := false, leap59 := false }

/-- The command still executes after a row. -/
def stillAwaits : Host.Outcome State Fault Refusal → Bool
  | .next t => t.hif.tags == [(7, .executing awaitsStrip)]
  | _ => true

theorem announce_endsWait : stillAwaits (exec (.announce 0 2 offsetAnnounce) stripAwaited) = false := by decide +kernel

theorem sync_endsWait : stillAwaits (exec (.sync 0 2 0 false 160000000000 0) stripAwaitedSlave) = false := by decide +kernel

theorem stillAwaits_of_hif {o : Host.Outcome State Fault Refusal} {t : State} (h : o = .next t) (ht : t.hif = stripAwaited.hif) :
    stillAwaits o = true := by
  have hw : (stripAwaited.hif.tags == [(7, .executing awaitsStrip)]) = true := by decide
  rw [h, stillAwaits, ht]
  exact hw

/-- Refutes O47: the UTC offset of an Announce steps metering time over a minute, whose change requests the strip anew and so completes a
command, where the statement has the host interface unchanged. -/
theorem not_ordinaryClockEventsComplete : ¬ Obligations.OrdinaryClockEventsComplete := by
  unfold Obligations.OrdinaryClockEventsComplete
  rintro ⟨h, -⟩
  obtain ⟨t, _, ht, -, -, -, -, -, -, -, -, -, -, -, -, hh⟩ :=
    h 0 2 offsetAnnounce stripAwaited (by decide) (by decide) (by decide) (by decide) (by decide) (by decide) rfl rfl
  exact absurd ((stillAwaits_of_hif ht hh).symm.trans announce_endsWait) (by decide)

/-- Refutes O46: the step of the clock by a Sync 60 s ahead crosses a minute of metering time in the same way. -/
theorem not_servoEventsComplete : ¬ Obligations.ServoEventsComplete := by
  unfold Obligations.ServoEventsComplete
  rintro ⟨-, -, -, h, -⟩
  obtain ⟨t, ht, -, -, -, -, -, -, hh, -⟩ :=
    h 0 2 0 160000000000 0 stripAwaitedSlave (by decide) (by decide) (by decide) (by decide) (by decide)
  exact absurd ((stillAwaits_of_hif ht hh).symm.trans sync_endsWait) (by decide)

end Sys2Proof.Machine


/-! The calendar, its alarms and its trim (R444 to R459). -/

namespace Sys2Proof.Machine

/-! ### Alarms (R454 to R456) -/

/-- Whether an alarm has fired. -/
def alarmFlag (r : Rtc) (k : Nat) : Bool := if k = 0 then r.alarm0 else r.alarm1

theorem alarmFlag_fin (r : Rtc) (k : Fin 2) : alarmFlag r k = if k = 0 then r.alarm0 else r.alarm1 := by
  have hd : k = 0 ∨ k = 1 := by omega
  rcases hd with rfl | rfl
  · rfl
  · rfl

/-- Flags, fire times and what BACKUP keeps of the alarms have changed, and the recorder. -/
def AlarmsMoved (s t : State) : Prop :=
  ∃ a b f i x e, t = { s with rtc := { s.rtc with alarm0 := a, alarm1 := b, fired := f, inBackup := i, backupFired := x }, evr := e }

theorem AlarmsMoved.refl (s : State) : AlarmsMoved s s := ⟨_, _, _, _, _, _, rfl⟩

theorem AlarmsMoved.trans {s t u : State} (h : AlarmsMoved s t) (h' : AlarmsMoved t u) : AlarmsMoved s u := by
  obtain ⟨_, _, _, _, _, _, rfl⟩ := h
  obtain ⟨_, _, _, _, _, _, rfl⟩ := h'
  exact ⟨_, _, _, _, _, _, rfl⟩

theorem AlarmsMoved.kept {s t : State} (h : AlarmsMoved s t) :
    t.hif = s.hif ∧ t.time = s.time ∧ t.clock = s.clock ∧ t.out = s.out ∧ t.rtc.cal = s.rtc.cal ∧ t.rtc.dst = s.rtc.dst ∧
      t.rtc.repeated = s.rtc.repeated ∧ t.rtc.dstPending = s.rtc.dstPending ∧ t.rtc.adjustments = s.rtc.adjustments ∧
      t.rtc.wrapped = s.rtc.wrapped ∧ t.rtc.since = s.rtc.since := by
  obtain ⟨_, _, _, _, _, _, rfl⟩ := h
  exact ⟨rfl, rfl, rfl, rfl, rfl, rfl, rfl, rfl, rfl, rfl, rfl⟩

theorem alarmFire_moves (k : Nat) (skipped : Bool) (s : State) : AlarmsMoved s (alarmFire k skipped s) := by
  simp only [alarmFire]
  repeat' split
  · exact .refl s
  · exact ⟨_, _, _, _, _, _, rfl⟩
  · exact ⟨_, _, _, _, _, _, rfl⟩

theorem alarmCheck_moves (k a : Nat) (adj : Bool) (s : State) : AlarmsMoved s (alarmCheck k a adj s) := by
  simp only [alarmCheck]
  repeat' split
  any_goals exact alarmFire_moves ..
  all_goals exact ⟨_, _, _, _, _, _, rfl⟩

/-- An alarm leaves the other as it was. -/
theorem alarmFire_other {j k : Nat} (hj : j < 2) (hk : k < 2) (h : k ≠ j) (skipped : Bool) (s : State) :
    alarmFlag (alarmFire k skipped s).rtc j = alarmFlag s.rtc j ∧ vget (alarmFire k skipped s).rtc.fired j none = vget s.rtc.fired j none := by
  have hf : (alarmFire k skipped s).rtc.fired = s.rtc.fired ∨ (alarmFire k skipped s).rtc.fired = vset s.rtc.fired k (some (monoUs s)) := by
    simp only [alarmFire]
    repeat' split
    · exact .inl rfl
    · exact .inr rfl
    · exact .inr rfl
  have ha : alarmFlag (alarmFire k skipped s).rtc j = alarmFlag s.rtc j ∨
      alarmFlag (alarmFire k skipped s).rtc j = (alarmFlag s.rtc j || k == j) := by
    have hd : j = 0 ∨ j = 1 := by omega
    simp only [alarmFire]
    rcases hd with rfl | rfl
    all_goals
      repeat' split
      · exact .inl rfl
      · exact .inr rfl
      · exact .inr rfl
  constructor
  · have hb : (k == j) = false := by simp [h]
    rw [hb, Bool.or_false] at ha
    exact ha.elim id id
  · rcases hf with e | e
    · rw [e]
    · rw [e, vget_vset_ne h]

theorem alarmCheck_other {j k : Nat} (hj : j < 2) (hk : k < 2) (h : k ≠ j) (a : Nat) (adj : Bool) (s : State) :
    alarmFlag (alarmCheck k a adj s).rtc j = alarmFlag s.rtc j ∧ vget (alarmCheck k a adj s).rtc.fired j none = vget s.rtc.fired j none := by
  simp only [alarmCheck]
  repeat' split
  any_goals exact alarmFire_other hj hk h ..
  all_goals exact ⟨rfl, rfl⟩

theorem alarmCheck_repeated {k : Nat} {s : State} (hr : s.rtc.repeated = true) (hb : bit (fld (vget s.rtc.alarms k []) 1 1) 2 = false)
    (a : Nat) (adj : Bool) : alarmCheck k a adj s = s := by
  simp only [alarmCheck, hr, hb, Bool.not_false, Bool.and_self, Bool.or_true, if_true]

theorem alarmCheck_fires {k a : Nat} {s : State} (hk : k < 2) (he : bit (fld (vget s.rtc.alarms k []) 0 1) 0 = true)
    (hr : s.rtc.repeated = false ∨ bit (fld (vget s.rtc.alarms k []) 1 1) 2 = true) (hf : vget s.rtc.fired k none = none)
    (hm : alarmMatch (vget s.rtc.alarms k []) s.rtc.cal = true) (hn : alarmMatch (vget s.rtc.alarms k []) a = false) :
    alarmFlag (alarmCheck k a false s).rtc k = true ∧ vget (alarmCheck k a false s).rtc.fired k none = some (monoUs s) := by
  have hc : (s.rtc.repeated && !bit (fld (vget s.rtc.alarms k []) 1 1) 2) = false := by
    rcases hr with h | h
    · simp [h]
    · simp [h]
  have e : alarmCheck k a false s = alarmFire k false s := by
    simp [alarmCheck, he, hc, hm, hn]
  rw [e, alarmFire, hf]
  have hd : k = 0 ∨ k = 1 := by omega
  simp only [Option.any_none, Bool.false_eq_true, if_false]
  refine ⟨?_, ?_⟩
  · rcases hd with rfl | rfl
    all_goals
      split
      · simp [alarmFlag, updRtc]
      · simp [alarmFlag, updRtc, alarmEvent]
  · split
    · exact vget_vset_self hk ..
    · exact vget_vset_self hk ..

/-- Both alarms at a second: one that is enabled and reached fires. -/
theorem alarmsCheck_fires {k : Fin 2} {a : Nat} {s : State} (he : bit (fld s.rtc.alarms[k] 0 1) 0 = true)
    (hr : s.rtc.repeated = false ∨ bit (fld s.rtc.alarms[k] 1 1) 2 = true) (hf : s.rtc.fired[k] = none)
    (hm : alarmMatch s.rtc.alarms[k] s.rtc.cal = true) (hn : alarmMatch s.rtc.alarms[k] a = false) :
    alarmFlag (alarmsCheck a false s).rtc k = true ∧ (alarmsCheck a false s).rtc.fired[k] = some (monoUs s) := by
  rw [← vget_fin _ _ []] at he hr hm hn
  rw [← vget_fin _ _ none] at hf ⊢
  obtain ⟨_, _, _, _, _, _, e⟩ := alarmCheck_moves 0 a false s
  have hd : k = 0 ∨ k = 1 := by omega
  rcases hd with rfl | rfl
  · have h0 := alarmCheck_fires (by decide) he hr hf hm hn
    have h1 := alarmCheck_other (j := 0) (k := 1) (by decide) (by decide) (by decide) a false (alarmCheck 0 a false s)
    exact ⟨h1.1.trans h0.1, h1.2.trans h0.2⟩
  · have h0 := alarmCheck_other (j := 1) (k := 0) (by decide) (by decide) (by decide) a false s
    have h1 := alarmCheck_fires (s := alarmCheck 0 a false s) (k := 1) (a := a) (by decide) (by rw [e]; exact he) (by rw [e]; exact hr)
      (h0.2.trans hf) (by rw [e]; exact hm) (by rw [e]; exact hn)
    refine ⟨h1.1, h1.2.trans ?_⟩
    rw [e]; rfl

/-- In a repeated hour an alarm with HOUR not masked stays as it was. -/
theorem alarmsCheck_repeated {k : Fin 2} {s : State} (hr : s.rtc.repeated = true) (hb : bit (fld s.rtc.alarms[k] 1 1) 2 = false) (a : Nat)
    (adj : Bool) :
    alarmFlag (alarmsCheck a adj s).rtc k = alarmFlag s.rtc k ∧ (alarmsCheck a adj s).rtc.fired[k] = s.rtc.fired[k] := by
  rw [← vget_fin _ _ []] at hb
  rw [← vget_fin _ _ none, ← vget_fin _ _ none]
  obtain ⟨_, _, _, _, _, _, e⟩ := alarmCheck_moves 0 a adj s
  have hd : k = 0 ∨ k = 1 := by omega
  rcases hd with rfl | rfl
  · have h0 : alarmCheck 0 a adj s = s := alarmCheck_repeated hr hb a adj
    rw [alarmsCheck, h0]
    exact alarmCheck_other (by decide) (by decide) (by decide) a adj s
  · have h1 : alarmCheck 1 a adj (alarmCheck 0 a adj s) = alarmCheck 0 a adj s :=
      alarmCheck_repeated (by rw [e]; exact hr) (by rw [e]; exact hb) a adj
    rw [alarmsCheck, h1]
    exact alarmCheck_other (by decide) (by decide) (by decide) a adj s

theorem alarmsCheck_moves (a : Nat) (adj : Bool) (s : State) : AlarmsMoved s (alarmsCheck a adj s) :=
  (alarmCheck_moves 0 a adj s).trans (alarmCheck_moves 1 a adj _)

/-! ### Second boundaries (R444, R449, R452) -/

theorem repeatEnds_eq (s : State) :
    repeatEnds s = { s with rtc := { s.rtc with repeated := s.rtc.repeated && !decide (s.rtc.repEnd ≤ s.rtc.cal) } } := by
  unfold repeatEnds
  split
  · next h =>
    rw [Bool.and_eq_true] at h
    rw [h.1, h.2]; rfl
  · next h =>
    have e : (s.rtc.repeated && !decide (s.rtc.repEnd ≤ s.rtc.cal)) = s.rtc.repeated := by
      cases hr : s.rtc.repeated
      · rfl
      · simpa [hr] using h
    rw [e]

/-- The comparison with PTP time adapts the phase or leaves a step to make. -/
theorem rtcCompare_shape (s : State) : ∃ d p w, rtcCompare s = { s with rtc := { s.rtc with stepDue := d, phase := p }, draws := w } := by
  simp only [rtcCompare]
  repeat' split
  all_goals exact ⟨_, _, _, rfl⟩

theorem rtcCompare_kept (s : State) :
    (rtcCompare s).hif = s.hif ∧ (rtcCompare s).time = s.time ∧ (rtcCompare s).clock = s.clock ∧ (rtcCompare s).out = s.out ∧
      (rtcCompare s).rtc.cal = s.rtc.cal ∧ (rtcCompare s).rtc.dst = s.rtc.dst ∧ (rtcCompare s).rtc.adjustments = s.rtc.adjustments ∧
      (rtcCompare s).rtc.wrapped = s.rtc.wrapped ∧ (rtcCompare s).rtc.since = s.rtc.since ∧ (rtcCompare s).rtc.fired = s.rtc.fired ∧
      ∀ k, alarmFlag (rtcCompare s).rtc k = alarmFlag s.rtc k := by
  obtain ⟨_, _, _, e⟩ := rtcCompare_shape s
  rw [e]
  exact ⟨rfl, rfl, rfl, rfl, rfl, rfl, rfl, rfl, rfl, rfl, fun _ => rfl⟩

theorem countCycles_shape (s : State) : ∃ c f, countCycles s = { s with rtc := { s.rtc with cycles := c, cycleFrac := f } } := ⟨_, _, rfl⟩

/-- The state of a second boundary before the calendar moves: a written zone is in effect. -/
def boundaryBegun (s : State) : State :=
  let u := applyOne 0x0E13 s
  countCycles (updRtc (fun r => { r with since := u.clock.real }) u)

theorem boundaryBegun_shape (s : State) :
    ∃ c w n f, boundaryBegun s =
      { s with cfg := c, cfgPending := w, rtc := { s.rtc with since := s.clock.real, cycles := n, cycleFrac := f } } := by
  obtain ⟨c, w, e⟩ := applyOne_shape 0x0E13 s
  obtain ⟨n, f, e'⟩ := countCycles_shape
    (updRtc (fun r => { r with since := (applyOne 0x0E13 s).clock.real }) (applyOne 0x0E13 s))
  refine ⟨c, w, n, f, ?_⟩
  rw [boundaryBegun, e', e]
  rfl

/-- The carry over the end of the 400-year cycle, recorded. -/
def cycleWraps (a : Nat) (s : State) : State :=
  if cycleSec ≤ a + 1 then post 0x0E01 0 [] 0 (updRtc (fun r => { r with wrapped := true }) s) else s

theorem cycleWraps_shape (a : Nat) (s : State) :
    ∃ e, cycleWraps a s = { s with rtc := { s.rtc with wrapped := s.rtc.wrapped || decide (cycleSec ≤ a + 1) }, evr := e } := by
  unfold cycleWraps
  split
  · next h => exact ⟨_, by simp only [h, decide_true, Bool.or_true]; rfl⟩
  · next h => exact ⟨_, by simp only [h, decide_false, Bool.or_false]; rfl⟩

/-- How the calendar moves from `a` at a second without a leap second: by an adjustment, a step, or the second. -/
def calendarMoves (a : Nat) (s : State) : State :=
  match s.rtc.dstPending, s.rtc.stepDue with
  | some fwd, _ => dstMake fwd a ((a + 1) % cycleSec) s
  | none, some d => rtcSyncStep a d s
  | none, none => rtcCompare (alarmsCheck a false (repeatEnds (updRtc (fun r => { r with cal := (a + 1) % cycleSec }) s)))

theorem secondBoundary_plain {s : State} (ha : rtcAlone s = false) (hl : s.time.leap = 0) (hk : s.rtc.leapSkip = none) :
    secondBoundary s = calendarMoves s.rtc.cal (cycleWraps s.rtc.cal (boundaryBegun s)) := by
  obtain ⟨_, _, _, _, e⟩ := boundaryBegun_shape s
  have hA : rtcAlone (boundaryBegun s) = false := by rw [e]; exact ha
  have hL : (boundaryBegun s).time.leap = 0 := by rw [e]; exact hl
  have hD (x : Int) : leapDeletes (boundaryBegun s) x = false := by
    have hn : (boundaryBegun s).rtc.leapSkip = none := by rw [e]; exact hk
    simp [leapDeletes, hL, hn]
  obtain ⟨_, _, e'⟩ := applyOne_shape 0x0E13 s
  have hc : (applyOne 0x0E13 s).rtc = s.rtc := by rw [e']
  have hu : boundaryBegun s = countCycles (updRtc (fun r => { r with since := (applyOne 0x0E13 s).clock.real }) (applyOne 0x0E13 s)) := rfl
  simp only [secondBoundary, ha, Bool.false_eq_true, if_false, ← hu, hc]
  generalize boundaryBegun s = v at *
  have hw (f : Rtc → Rtc) : rtcAlone (updRtc f v) = false := hA
  simp only [hA, hL, hD, Bool.not_false, Bool.true_and, Bool.false_eq_true, if_false, show (0 == 1) = false from rfl, Bool.false_and]
  by_cases hwrap : cycleSec ≤ s.rtc.cal + 1
  · simp only [hwrap, cycleWraps, hw, decide_true, if_true, Bool.not_false, Bool.true_and]
    rfl
  · simp only [hwrap, cycleWraps, decide_false, if_false, Bool.false_and, Bool.false_eq_true]
    rfl

theorem calendarMoves_second {a : Nat} {s : State} (hd : s.rtc.dstPending = none) (hs : s.rtc.stepDue = none) :
    calendarMoves a s = rtcCompare (alarmsCheck a false (repeatEnds (updRtc (fun r => { r with cal := (a + 1) % cycleSec }) s))) := by
  simp only [calendarMoves, hd, hs]

theorem calendarMoves_dst {a : Nat} {fwd : Bool} {s : State} (hd : s.rtc.dstPending = some fwd) :
    calendarMoves a s = dstMake fwd a ((a + 1) % cycleSec) s := by
  simp only [calendarMoves, hd]

/-- The calendar after an ordinary second, before the alarms are looked at. -/
def secondPut (s : State) (c : List (Nat × Nat)) (w : List PendingValue) (e : Evr) (n f : Nat) : State :=
  { s with
    cfg := c, cfgPending := w, evr := e,
    rtc := { s.rtc with
      since := s.clock.real, cycles := n, cycleFrac := f, wrapped := s.rtc.wrapped || decide (cycleSec ≤ s.rtc.cal + 1),
      cal := (s.rtc.cal + 1) % cycleSec, repeated := s.rtc.repeated && !decide (s.rtc.repEnd ≤ (s.rtc.cal + 1) % cycleSec) } }

theorem secondPut_flag (s : State) (c : List (Nat × Nat)) (w : List PendingValue) (e : Evr) (n f k : Nat) :
    alarmFlag (secondPut s c w e n f).rtc k = alarmFlag s.rtc k := rfl

/-- What a second has changed when its adjustment is made. -/
theorem secondReady_shape (s : State) :
    ∃ c w e n f, cycleWraps s.rtc.cal (boundaryBegun s) =
      { s with
        cfg := c, cfgPending := w, evr := e,
        rtc := { s.rtc with
          since := s.clock.real, cycles := n, cycleFrac := f, wrapped := s.rtc.wrapped || decide (cycleSec ≤ s.rtc.cal + 1) } } := by
  obtain ⟨c, w, n, f, eb⟩ := boundaryBegun_shape s
  obtain ⟨e, ew⟩ := cycleWraps_shape s.rtc.cal (boundaryBegun s)
  exact ⟨c, w, e, n, f, by rw [ew, eb]⟩

theorem secondBoundary_second {s : State} (ha : rtcAlone s = false) (hl : s.time.leap = 0) (hk : s.rtc.leapSkip = none)
    (hd : s.rtc.dstPending = none) (hs : s.rtc.stepDue = none) :
    ∃ c w e n f, secondBoundary s = rtcCompare (alarmsCheck s.rtc.cal false (secondPut s c w e n f)) := by
  obtain ⟨c, w, e, n, f, er⟩ := secondReady_shape s
  refine ⟨c, w, e, n, f, ?_⟩
  rw [secondBoundary_plain ha hl hk, er, calendarMoves_second (by exact hd) (by exact hs)]
  exact congrArg (fun u => rtcCompare (alarmsCheck s.rtc.cal false u)) (repeatEnds_eq _)

/-- At an ordinary second an enabled alarm fires that matches the new second and not the one before. -/
theorem second_fires {s : State} {c : List (Nat × Nat)} {w : List PendingValue} {e : Evr} {n f : Nat} {k : Fin 2} {t : State}
    (ht : t = rtcCompare (alarmsCheck s.rtc.cal false (secondPut s c w e n f))) (he : bit (fld s.rtc.alarms[k] 0 1) 0 = true) (hr : s.rtc.repeated = false ∨ bit (fld s.rtc.alarms[k] 1 1) 2 = true)
    (hf : s.rtc.fired[k] = none) (hm : alarmMatch s.rtc.alarms[k] ((s.rtc.cal + 1) % cycleSec) = true)
    (hn : alarmMatch s.rtc.alarms[k] s.rtc.cal = false) :
    alarmFlag t.rtc k = true ∧ t.rtc.fired[k] = some (monoUs s) := by
  have hrep : (secondPut s c w e n f).rtc.repeated = false ∨ bit (fld s.rtc.alarms[k] 1 1) 2 = true :=
    hr.imp_left fun h => by rw [secondPut, h, Bool.false_and]
  have h := alarmsCheck_fires (s := secondPut s c w e n f) he hrep hf hm hn
  obtain ⟨-, -, -, -, -, -, -, -, -, hfi, hfl⟩ := rtcCompare_kept (alarmsCheck s.rtc.cal false (secondPut s c w e n f))
  rw [ht, hfl, hfi]
  exact h

/-- At a second of a repeated hour an alarm with HOUR not masked stays as it was. -/
theorem second_repeated {s : State} {c : List (Nat × Nat)} {w : List PendingValue} {e : Evr} {n f : Nat} {k : Fin 2} {t : State}
    (ht : t = rtcCompare (alarmsCheck s.rtc.cal false (secondPut s c w e n f))) (hr : s.rtc.repeated = true) (hl : (s.rtc.cal + 1) % cycleSec < s.rtc.repEnd) (hb : bit (fld s.rtc.alarms[k] 1 1) 2 = false) :
    alarmFlag t.rtc k = alarmFlag s.rtc k ∧ t.rtc.fired[k] = s.rtc.fired[k] := by
  have hrep : (secondPut s c w e n f).rtc.repeated = true := by
    rw [secondPut, hr, decide_eq_false (Nat.not_le.2 hl)]; rfl
  have h := alarmsCheck_repeated (s := secondPut s c w e n f) hrep hb s.rtc.cal false
  obtain ⟨-, -, -, -, -, -, -, -, -, hfi, hfl⟩ := rtcCompare_kept (alarmsCheck s.rtc.cal false (secondPut s c w e n f))
  rw [ht, hfl, hfi]
  exact h

/-- The calendar after a forward adjustment of summer time, before the alarms are looked at. -/
def forwardPut (s : State) (c : List (Nat × Nat)) (w : List PendingValue) (e : Evr) (n f : Nat) : State :=
  { s with
    cfg := c, cfgPending := w, evr := e,
    rtc := { s.rtc with
      since := s.clock.real, cycles := n, cycleFrac := f, wrapped := s.rtc.wrapped || decide (cycleSec ≤ s.rtc.cal + 1),
      dst := true, repeated := false, repEnd := s.rtc.cal + 1, dstPending := none, cal := s.rtc.cal + 1 + 3600,
      adjustments := s.rtc.adjustments + 1 } }

theorem secondBoundary_forward {s : State} (ha : rtcAlone s = false) (hl : s.time.leap = 0) (hk : s.rtc.leapSkip = none)
    (hd : s.rtc.dstPending = some true) (hc : s.rtc.cal + 1 < cycleSec) :
    ∃ c w e n f, secondBoundary s =
      completeAll (fun w => w == .rtcDst) stOK false [] (alarmsCheck s.rtc.cal true (forwardPut s c w e n f)) := by
  obtain ⟨c, w, e, n, f, er⟩ := secondReady_shape s
  refine ⟨c, w, e, n, f, ?_⟩
  rw [secondBoundary_plain ha hl hk, er, calendarMoves_dst (by exact hd)]
  simp only [dstMake, updRtc, forwardPut, Nat.mod_eq_of_lt hc, if_true, Bool.not_true]

/-- An inserted leap second is shown in place of an advance. -/
theorem secondBoundary_inserted {s : State} (ha : rtcAlone s = false) (hz : pendingOf s 0x0E13 = none) (hl : s.time.leap = 1)
    (hu : utcOfCal s (s.rtc.cal + 1) = s.time.leapAt) (hn : s.rtc.leapShown ≠ s.time.leapAt) :
    secondBoundary s = { s with rtc := { (countCycles s).rtc with since := s.clock.real, leapShown := s.time.leapAt } } := by
  have hA (f : Rtc → Rtc) : rtcAlone (countCycles (updRtc f s)) = false := ha
  have hL (f : Rtc → Rtc) : (countCycles (updRtc f s)).time = s.time := rfl
  have hc : (!false && s.time.leap == 1 && utcOfCal s (s.rtc.cal + 1) == (s.time.leapAt : Int) && s.rtc.leapShown != s.time.leapAt) = true := by
    simp [hl, hu, hn]
  simp only [secondBoundary, ha, Bool.false_eq_true, if_false, applyOne_none hz, hA, hL]
  exact if_pos hc

theorem completeAll_held {f : Wait → Bool} {st : Nat} {reg : Bool} {b : Bytes} {s u : State} (hu : u.hif = s.hif) :
    ∀ tag e, s.hif.tags = [(tag, .executing e)] → f e.wait = true →
      ∃ x, tagOf (completeAll f st reg b u) tag = some (.held x) ∧ x.status = st := by
  intro tag e h hf
  obtain ⟨x, hx, hst, -⟩ := tagOf_completeAll (st := st) (reg := reg) (b := b) (s := u) (by rw [hu]; exact h) hf
  exact ⟨x, hx, hst⟩

/-! ### Trim (R458, R459) -/

theorem rtcTempSample_shape (t : Int) (s : State) :
    ∃ c w m, rtcTempSample t s = { s with cfg := c, cfgPending := w, rtc := { s.rtc with temp := t, trim := m } } ∧
      m = trimAt (rtcTempSample t s) t := by
  have hs : ∃ c w, (if rtcAlone s then s else
      (List.range 17).foldl (fun s k => applyOne (0x0E20 + k) s) (applyOne 0x0E19 s)) = { s with cfg := c, cfgPending := w } := by
    split
    · exact ⟨_, _, rfl⟩
    · obtain ⟨c, w, e⟩ := applyOne_shape 0x0E19 s
      refine List.foldlRecOn (motive := fun t : State => ∃ c w, t = { s with cfg := c, cfgPending := w }) _ _ ⟨c, w, e⟩ ?_
      rintro _ ⟨c, w, rfl⟩ k -
      obtain ⟨c', w', e'⟩ := applyOne_shape (0x0E20 + k) { s with cfg := c, cfgPending := w }
      exact ⟨c', w', e'⟩
  obtain ⟨c, w, e⟩ := hs
  refine ⟨c, w, trimAt { s with cfg := c, cfgPending := w } t, ?_, ?_⟩
  · simp only [rtcTempSample, e]; rfl
  · simp only [rtcTempSample, e]; rfl

theorem trimPlace_lt (t : Int) : (trimPlace t).1 + 1 < 17 := by
  simp only [trimPlace]
  split
  · decide
  · simp only; omega

/-- A learned point moved by its part of a measured residual, within ±20,000 ppb. -/
def movedPoint (r : Int) (wt : Nat) (x : Int) : Int := max (-20000) (min 20000 (x + roundDiv (r * wt) 8000))

/-- The learned points about a temperature after a learning window. -/
def movedTwo (r : Int) (k w : Nat) (l : Vector Int 17) : Vector Int 17 :=
  let l := vset l k (movedPoint r (1000 - w) (vget l k 0))
  vset l (k + 1) (movedPoint r w (vget l (k + 1) 0))

theorem movedTwo_spec {k : Nat} (hk : k + 1 < 17) (w : Nat) (r : Int) (l : Vector Int 17) :
    vget (movedTwo r k w l) k 0 = movedPoint r (1000 - w) (vget l k 0) ∧
      vget (movedTwo r k w l) (k + 1) 0 = movedPoint r w (vget l (k + 1) 0) ∧
      ∀ i : Fin 17, i.val ≠ k → i.val ≠ k + 1 → (movedTwo r k w l)[i] = l[i] := by
  refine ⟨?_, ?_, fun i h h' => ?_⟩
  · rw [movedTwo, vget_vset_ne (by omega), vget_vset_self (by omega)]
  · rw [movedTwo, vget_vset_self hk, vget_vset_ne (by omega)]
  · rw [← vget_fin _ _ 0, ← vget_fin _ _ 0, movedTwo, vget_vset_ne (Ne.symm h'), vget_vset_ne (Ne.symm h)]

theorem learningWindow_long {r mean : Int} {span : Nat} {s : State} (hr : timeRuns s = true) (hl : servoLocked s = true)
    (hu : (s.time.lockedUs.any fun u => decide (u + 60000000 ≤ s.clock.real)) = true) (hs : span ≤ 200) :
    learningWindow r mean span s =
      { s with rtc := { s.rtc with learned := movedTwo r (trimPlace mean).1 (trimPlace mean).2 s.rtc.learned, hasLearned := true } } := by
  simp only [learningWindow, hr, hl, hu, Nat.not_lt.2 hs, Bool.not_true, decide_false, Bool.or_self, Bool.false_eq_true, if_false]
  rfl

theorem lockedLong_elapse {s : State} (hq : Quiet s) {dt u : Nat} (hu : s.time.lockedUs = some u)
    (h : u + 60000000 ≤ (elapse dt s).clock.real) :
    ((elapse dt s).time.lockedUs.any fun u => decide (u + 60000000 ≤ (elapse dt s).clock.real)) = true := by
  rw [elapse_time hq.nothingWaits, hu, Option.any_some, decide_eq_true_iff]
  exact h

/-- Settles O49: the calendar at a second, its alarms and adjustments, and the trim, each by what its function does. -/
theorem calendarEventsComplete : Obligations.CalendarEventsComplete := by
  unfold Obligations.CalendarEventsComplete
  refine ⟨?_, ?_, ?_, ?_, ?_, ?_⟩
  · intro dt s hq ha hl hk hd hs
    have hrow : exec (.secondBoundary dt) s = .next (secondBoundary (elapse dt s)) := row_of_follows hq fun u => follows_secondBoundary (.refl _)
    have hr := elapse_rtc hq.nothingWaits dt
    have ht := elapse_time hq.nothingWaits dt
    obtain ⟨c, w, e, n, f, hsec⟩ := secondBoundary_second (s := elapse dt s)
      (by rwa [elapse_read rtcAlone (fun _ _ _ => rfl) hq dt]) (by rwa [ht]) (by rwa [hr]) (by rwa [hr]) (by rwa [hr])
    rw [hr] at hsec
    obtain ⟨ah, at_, ac, ao, acal, adst, -, -, aadj, awr, asi⟩ := (alarmsCheck_moves s.rtc.cal false (secondPut (elapse dt s) c w e n f)).kept
    obtain ⟨ch, ct, cc, co, ccal, cdst, cadj, cwr, csi, cfi, cfl⟩ :=
      rtcCompare_kept (alarmsCheck s.rtc.cal false (secondPut (elapse dt s) c w e n f))
    rw [hsec] at hrow
    have hput : (secondPut (elapse dt s) c w e n f).rtc.cal = (s.rtc.cal + 1) % cycleSec ∧
        (secondPut (elapse dt s) c w e n f).rtc.wrapped = (s.rtc.wrapped || decide (cycleSec ≤ s.rtc.cal + 1)) := by
      simp only [secondPut, hr]; exact ⟨trivial, trivial⟩
    refine ⟨_, hrow, ccal.trans (acal.trans hput.1), cwr.trans (awr.trans hput.2), csi.trans asi, ?_, ?_, ?_, ?_, cc.trans ac, ?_, ?_, ?_⟩
    · rw [cdst, adst, secondPut, hr]
    · rw [cadj, aadj, secondPut, hr]
    · intro k he hrep hf hm hn
      rw [← alarmFlag_fin, ← hr]
      exact second_fires rfl (by rwa [hr]) (by rwa [hr]) (by rwa [hr]) (by rwa [hr]) (by rwa [hr])
    · intro k hrep hlt hb
      have h := second_repeated (s := elapse dt s) (k := k) (c := c) (w := w) (e := e) (n := n) (f := f) rfl (by rwa [hr]) (by rwa [hr]) (by rwa [hr])
      rw [alarmFlag_fin, alarmFlag_fin, hr] at h
      refine ⟨h.2, ?_⟩
      split
      · next hk0 => simpa only [hk0, if_true] using h.1
      · next hk0 => simpa only [hk0, if_false] using h.1
    · exact ct.trans (at_.trans ht)
    · exact ch.trans (ah.trans (elapse_hif hq.nothingWaits dt))
    · exact co.trans (ao.trans (elapse_out hq.nothingWaits dt))
  · intro dt s hq ha hz hl hu hn
    have hrow : exec (.secondBoundary dt) s = .next (secondBoundary (elapse dt s)) := row_of_follows hq fun u => follows_secondBoundary (.refl _)
    have hr := elapse_rtc hq.nothingWaits dt
    have ht := elapse_time hq.nothingWaits dt
    rw [hrow, secondBoundary_inserted (by rwa [elapse_read rtcAlone (fun _ _ _ => rfl) hq dt])
      (by rwa [elapse_read (pendingOf · 0x0E13) (fun _ _ _ => rfl) hq dt]) (by rwa [ht])
      (by rw [hr, ht, elapse_read (utcOfCal · _) (fun _ _ _ => rfl) hq dt]; exact hu) (by rwa [hr, ht]),
      show (elapse dt s).time.leapAt = s.time.leapAt by rw [ht]]
  · intro dt s hq ha hl hk hd hc
    have hrow : exec (.secondBoundary dt) s = .next (secondBoundary (elapse dt s)) := row_of_follows hq fun u => follows_secondBoundary (.refl _)
    have hr := elapse_rtc hq.nothingWaits dt
    have ht := elapse_time hq.nothingWaits dt
    obtain ⟨c, w, e, n, f, hsec⟩ := secondBoundary_forward (s := elapse dt s)
      (by rwa [elapse_read rtcAlone (fun _ _ _ => rfl) hq dt]) (by rwa [ht]) (by rwa [hr]) (by rwa [hr]) (by rwa [hr])
    obtain ⟨hh, hti, -, -, hcal, hdst, hrep, hpend, hadj, -, -⟩ :=
      (alarmsCheck_moves (elapse dt s).rtc.cal true (forwardPut (elapse dt s) c w e n f)).kept
    rw [hsec] at hrow
    refine ⟨_, hrow, ?_, ?_, ?_, ?_, ?_, ?_, fun tag x hx hw => ?_⟩
    · rw [completeAll_rtc, hcal, forwardPut, hr]
    · rw [completeAll_rtc, hdst, forwardPut]
    · rw [completeAll_rtc, hrep, forwardPut]
    · rw [completeAll_rtc, hpend, forwardPut]
    · rw [completeAll_rtc, hadj, forwardPut, hr]
    · rw [completeAll_time, hti]; exact ht
    · exact completeAll_held (hh.trans (elapse_hif hq.nothingWaits dt)) tag x hx (by simp [hw])
  · intro dt x s hq
    have hrow : exec (.rtcTemperatureSample dt x) s = .next (rtcTempSample x (elapse dt s)) :=
      row_of_follows hq fun u => follows_rtcTempSample (.refl _)
    obtain ⟨c, w, m, e, hm⟩ := rtcTempSample_shape x (elapse dt s)
    refine ⟨_, hrow, ?_, ?_, ?_, ?_⟩
    · rw [← hm, e, ← elapse_rtc hq.nothingWaits dt]
    · rw [e]; exact elapse_time hq.nothingWaits dt
    · rw [e]
    · rw [e]; exact elapse_pio hq.nothingWaits dt
  · intro dt r mean span u s hq hr hl hu h60 hspan
    have hrow : exec (.rtcLearningWindow dt r mean span) s = .next (learningWindow r mean span (elapse dt s)) :=
      row_of_seen hq fun u => seen_learningWindow ..
    have hrt := elapse_rtc hq.nothingWaits dt
    rw [learningWindow_long (by rwa [elapse_read timeRuns (fun _ _ _ => rfl) hq dt])
      (by rwa [elapse_read servoLocked (fun _ _ _ => rfl) hq dt]) (lockedLong_elapse hq hu h60) hspan, hrt] at hrow
    obtain ⟨h1, h2, h3⟩ := movedTwo_spec (trimPlace_lt mean) (trimPlace mean).2 r s.rtc.learned
    exact ⟨_, hrow, h1, h2, h3⟩
  · intro dt s hq hr
    have hrow : exec (.learnedTableSave dt) s = .next (learnedSave (elapse dt s)) := row_of_seen hq seen_learnedSave
    rw [hrow, learnedSave, elapse_read timeRuns (fun _ _ _ => rfl) hq dt, hr, if_pos rfl, updRtc, elapse_rtc hq.nothingWaits]

end Sys2Proof.Machine


/-! The event recorder: staging, windows, counters, samples and periods (R480 to R489). -/

namespace Sys2Proof.Machine

/-! ### A vector updated place by place -/

theorem vset_vget {α : Type} {n : Nat} (v : Vector α n) (i : Nat) (d : α) : vset v i (vget v i d) = v := by
  ext j hj
  by_cases h : i = j
  · subst h
    simp [vset, vget, hj]
  · simp [vset, h]

/-- The first `m` places each replaced by what `f` makes of it. -/
def mapFirst {α : Type} {n : Nat} (f : Nat → α → α) (d : α) (m : Nat) (v : Vector α n) : Vector α n :=
  (List.range m).foldl (fun v r => vset v r (f r (vget v r d))) v

theorem mapFirst_succ {α : Type} {n : Nat} (f : Nat → α → α) (d : α) (m : Nat) (v : Vector α n) :
    mapFirst f d (m + 1) v = vset (mapFirst f d m v) m (f m (vget (mapFirst f d m v) m d)) := by
  simp [mapFirst, List.range_succ]

theorem vget_mapFirst {α : Type} {n : Nat} (f : Nat → α → α) (d : α) (v : Vector α n) {m : Nat} (hm : m ≤ n) (i : Nat) :
    vget (mapFirst f d m v) i d = if i < m then f i (vget v i d) else vget v i d := by
  induction m with
  | zero => rfl
  | succ m ih =>
    have ihm := ih (by omega)
    by_cases h : m = i
    · subst h
      rw [mapFirst_succ, vget_vset_self hm, ihm, if_neg (Nat.lt_irrefl m), if_pos (Nat.lt_succ_self m)]
    · rw [mapFirst_succ, vget_vset_ne h, ihm]
      by_cases hi : i < m
      · rw [if_pos hi, if_pos (by omega)]
      · rw [if_neg hi, if_neg (by omega)]

theorem getElem_mapFirst {α : Type} {n : Nat} (f : Nat → α → α) (d : α) (v : Vector α n) (i : Fin n) :
    (mapFirst f d n v)[i] = f i v[i] := by
  rw [← vget_fin _ _ d, vget_mapFirst f d v (Nat.le_refl n), if_pos i.isLt, vget_fin]

/-- A run over the record channels that changes each by itself. -/
theorem foldl_channels {s : State} {g : State → Nat → State} {f : Nat → RecChan → RecChan}
    (hg : ∀ w r, g { s with evr := { s.evr with channels := w } } r =
      { s with evr := { s.evr with channels := vset w r (f r (vget w r RecChan.reset)) } }) (m : Nat) :
    (List.range m).foldl g s = { s with evr := { s.evr with channels := mapFirst f RecChan.reset m s.evr.channels } } := by
  induction m with
  | zero => rfl
  | succ m ih => rw [List.range_succ, List.foldl_append, ih, List.foldl_cons, List.foldl_nil, hg, mapFirst_succ]

/-! ### Staging and windows (R480 to R487) -/

theorem evrRuns_elapse {s : State} (h : Quiet s) (dt : Nat) : evrRuns (elapse dt s) = evrRuns s :=
  elapse_read evrRuns (fun _ _ _ => rfl) h dt

theorem admitHeld_none {n : Nat} {e : Evr} (h : e.heldPosts = []) : admitHeld n e = e := by
  cases n with
  | zero => rfl
  | succ n => simp only [admitHeld, h]

theorem appendPost_held (p : Posting) (e : Evr) : (appendPost p e).heldPosts = e.heldPosts := by
  unfold appendPost
  split
  · rfl
  · unfold appendMetro
    split
    · rfl
    · rfl
  · rfl

theorem drainOne_staged {p : Posting} {rest : List Posting} {e : Evr} (h : e.staging = p :: rest) (hh : e.heldPosts = []) :
    drainOne e = appendPost p { e with staging := rest } := by
  simp only [drainOne, h]
  exact admitHeld_none ((appendPost_held ..).trans hh)

/-- A run that moves the oldest posting. -/
theorem stagingDrain_staged {dt : Nat} {p : Posting} {rest : List Posting} {s : State} (hq : Quiet s) (hr : evrRuns s = true)
    (h : s.evr.staging = p :: rest) (hh : s.evr.heldPosts = []) :
    exec (.stagingDrain dt) s = .next { elapse dt s with evr := appendPost p { s.evr with staging := rest } } := by
  have hrow : exec (.stagingDrain dt) s = .next (stagingDrain (elapse dt s)) := row_of_seen hq seen_stagingDrain
  rw [hrow, stagingDrain, evrRuns_elapse hq, hr, if_pos rfl, elapse_evr hq.nothingWaits, drainOne_staged h hh]

/-- The end of a window leaves the recorder with the entries of what was limited in it. -/
theorem windowEnd_shape (s : State) :
    ∃ c w, windowEnd s = { s with
      cfg := c, cfgPending := w,
      evr := { s.evr.winLimited.foldl (fun e x => suppressedEntry s x.1 x.2 e) s.evr with winRecorded := [], winLimited := [] } } := by
  unfold windowEnd
  refine List.foldlRecOn (motive := fun t : State => ∃ c w, t = { s with
      cfg := c, cfgPending := w,
      evr := { s.evr.winLimited.foldl (fun e x => suppressedEntry s x.1 x.2 e) s.evr with winRecorded := [], winLimited := [] } })
    _ _ ⟨s.cfg, s.cfgPending, rfl⟩ ?_
  rintro t ⟨c, w, e⟩ k -
  obtain ⟨c', w', e'⟩ := applyOne_shape (if k < 2 then 0x1016 + k else 0x101E + k) t
  exact ⟨c', w', by rw [e', e]⟩

/-- The entry of a code of class 0 goes to the event log. -/
theorem suppressedEntry_log {c : Nat} (h : eventClass c = some 0) (s : State) (n : Nat) (e : Evr) :
    ∃ x, (suppressedEntry s c n e).log = (x :: e.log).take 12288 ∧ x.seq = (e.logSeq + 1).toNat ∧ x.post.code = 0x1001 ∧
      x.post.index = c ∧ x.post.summary = true ∧ x.post.data.take 4 = le 4 n ∧ x.post.at_ = tickStamp s ∧
      (suppressedEntry s c n e).staging = e.staging ∧ (suppressedEntry s c n e).general = e.general ∧
      (suppressedEntry s c n e).metro = e.metro := by
  have ha : (eventClass c == some 1) = false := by rw [h]; decide
  simp only [suppressedEntry, ha, Bool.false_eq_true, if_false, appendLog, bumpCount]
  exact ⟨_, rfl, rfl, rfl, rfl, rfl, by simp, rfl, trivial, trivial, trivial⟩

/-! ### Samples and periods (R488, R489) -/

/-- A record channel after its source has been sampled. -/
def sampled (s : State) (r : Nat) (c : RecChan) : RecChan :=
  let f (p : Period) : Period :=
    match recValue s r with
    | some x => takeInto (recBin s r x) x (ptpSec s) p
    | none => { p with invalid := p.invalid + 1 }
  if recSource s r = 1 ∨ recSource s r = 2 ∨ recSource s r = 3 ∨ recSource s r = 5 then { c with hour := f c.hour, day := f c.day } else c

theorem recordSample_due {s : State} (hr : pioRuns s = true) (hn : (tickStamp s).ns = 0) (hs : s.evr.sampled ≠ some (monoUs s)) :
    recordSample s = { s with evr := { s.evr with
      sampled := some (monoUs s), channels := mapFirst (sampled s) RecChan.reset 32 s.evr.channels } } := by
  have hb : (s.evr.sampled == some (monoUs s)) = false := by simpa using hs
  simp only [recordSample, hr, hn, hb, bne_self_eq_false, Bool.not_true, Bool.or_self, Bool.false_eq_true, if_false]
  refine foldl_channels (f := sampled s) (fun w r => ?_) 32
  unfold sampled
  by_cases h : recSource s r = 1 ∨ recSource s r = 2 ∨ recSource s r = 3 ∨ recSource s r = 5
  · rw [if_pos h]
    exact if_pos h
  · rw [if_neg h, vset_vget]
    exact if_neg h

/-- A record channel after its hour has closed. -/
def hourTurned (s : State) (r : Nat) (c : RecChan) : RecChan :=
  if recSource s r = 0 || c.hour.met == some (meterSec s) then c
  else { c with
    hour := periodOpen s r (c.hour.seq.toNat + 1) 0,
    hours := (periodClosed s r 0 (ptpSec s) c.hour :: c.hours).take 48 }

theorem periodBoundary_hour {s : State} (hh : meterSec s % 3600 = 0) (hd : meterSec s % 86400 ≠ 0) :
    periodBoundary s = { s with evr := { s.evr with channels := mapFirst (hourTurned s) RecChan.reset 32 s.evr.channels } } := by
  have hm : (meterSec s % periodSec false != 0) = false := by simpa [periodSec] using hh
  have hm' : (meterSec s % periodSec true != 0) = true := by simpa [periodSec] using hd
  simp only [periodBoundary, hm, hm', Bool.false_eq_true, if_false, if_true]
  refine foldl_channels (f := hourTurned s) (fun w r => ?_) 32
  unfold hourTurned
  by_cases h : (recSource s r = 0 || (vget w r RecChan.reset).hour.met == some (meterSec s)) = true
  · rw [if_pos h, vset_vget]
    exact if_pos h
  · rw [if_neg h]
    exact if_neg h

/-- Settles O50: the recorder's staging, windows, copies, samples and periods, each by what its function does. -/
theorem recorderEventsComplete : Obligations.RecorderEventsComplete := by
  unfold Obligations.RecorderEventsComplete
  refine ⟨?_, ?_, ?_, ?_, ?_, ?_, ?_⟩
  · intro dt p rest s hq hr h hh hc
    rw [stagingDrain_staged hq hr h hh]
    simp only [appendPost, hc, appendLog]
  · intro dt p rest s hq hr h hh hc
    rw [stagingDrain_staged hq hr h hh]
    simp only [appendPost, hc, appendGeneral]
  · intro dt p rest s hq hr h hh hc hl
    rw [stagingDrain_staged hq hr h hh]
    simp only [appendPost, hc, appendMetro, hl, if_true]
  · intro dt c n s hq hr hb hw hc
    have hrow : exec (.evrWindowEnd dt) s = .next (evrWindowEnd (elapse dt s)) := row_of_follows hq fun u => follows_evrWindowEnd (.refl _)
    have hrun : (evrRuns (elapse dt s) && (elapse dt s).sys.mode != .boot) = true := by
      rw [evrRuns_elapse hq, elapse_sys hq.nothingWaits, hr]; simpa using hb
    obtain ⟨_, _, e⟩ := windowEnd_shape (elapse dt s)
    rw [evrWindowEnd, if_pos hrun, e, elapse_evr hq.nothingWaits, hw] at hrow
    obtain ⟨x, hlog, hseq, hcode, hidx, hsum, hdat, hat, hst, hgen, hmet⟩ := suppressedEntry_log hc (elapse dt s) n s.evr
    exact ⟨_, x, hrow, rfl, rfl, hlog, hseq, hcode, hidx, hsum, hdat, hat, hst, hgen, hmet, elapse_pio hq.nothingWaits dt⟩
  · intro dt s hq hr
    have hrow : exec (.counterCopy dt) s = .next (counterCopyTick (elapse dt s)) := row_of_seen hq seen_counterCopyTick
    rw [hrow, counterCopyTick, evrRuns_elapse hq, hr, if_pos rfl, elapse_evr hq.nothingWaits, counterCopy]
  · intro dt s hq hr hn hs
    have hrow : exec (.recordSample dt) s = .next (recordSample (elapse dt s)) := row_of_seen hq seen_recordSample
    rw [recordSample_due (by rwa [pioRuns_elapse hq]) hn (by rwa [elapse_evr hq.nothingWaits]), elapse_evr hq.nothingWaits] at hrow
    refine ⟨_, hrow, fun r => ?_⟩
    rw [getElem_mapFirst]
    have hsrc : recSource (elapse dt s) r = recSource s r := elapse_read (recSource · r) (fun _ _ _ => rfl) hq dt
    have hbin (x : Nat) : recBin (elapse dt s) r x = recBin s r x := elapse_read (recBin · r x) (fun _ _ _ => rfl) hq dt
    have hmem : recSource s r ∈ [1, 2, 3, 5] ↔ (recSource s r = 1 ∨ recSource s r = 2 ∨ recSource s r = 3 ∨ recSource s r = 5) := by simp
    simp only [sampled, hsrc, hbin, hmem]
    by_cases h : recSource s r = 1 ∨ recSource s r = 2 ∨ recSource s r = 3 ∨ recSource s r = 5
    · rw [if_pos h, if_pos h]
      refine ⟨rfl, rfl, ?_⟩
      cases recValue (elapse dt s) r with
      | some x => exact ⟨rfl, rfl⟩
      | none => exact ⟨rfl, rfl⟩
    · rw [if_neg h, if_neg h]
  · intro dt s hq hh hd
    have hrow : exec (.periodClose dt) s = .next (periodBoundary (elapse dt s)) := row_of_seen hq seen_periodBoundary
    rw [periodBoundary_hour hh hd, elapse_evr hq.nothingWaits] at hrow
    refine ⟨_, hrow, fun r => ?_⟩
    rw [getElem_mapFirst]
    have hsrc : recSource (elapse dt s) r = recSource s r := elapse_read (recSource · r) (fun _ _ _ => rfl) hq dt
    have hcl (p : Period) : periodClosed (elapse dt s) r 0 (ptpSec (elapse dt s)) p = periodClosed s r 0 (ptpSec (elapse dt s)) p :=
      elapse_read (periodClosed · r 0 _ p) (fun _ _ _ => rfl) hq dt
    simp only [hourTurned, hsrc, hcl]
    by_cases h : recSource s r ≠ 0 ∧ (s.evr.channels[r]).hour.met ≠ some (meterSec (elapse dt s))
    · have hb : ¬ ((decide (recSource s r = 0) || (s.evr.channels[r]).hour.met == some (meterSec (elapse dt s))) = true) := by simpa using h
      rw [if_pos h, if_neg hb]
      refine ⟨rfl, ?_, rfl, rfl, rfl, rfl, rfl, rfl⟩
      show BitVec.ofNat 32 ((s.evr.channels[r]).hour.seq.toNat + 1) = (s.evr.channels[r]).hour.seq + 1
      rw [BitVec.ofNat_add, BitVec.ofNat_toNat, BitVec.setWidth_eq]
      rfl
    · have hb : (decide (recSource s r = 0) || (s.evr.channels[r]).hour.met == some (meterSec (elapse dt s))) = true := by
        simpa [← or_iff_not_imp_left] using h
      rw [if_neg h, if_pos hb]

end Sys2Proof.Machine


/-! The panel: its requests, updates, supply and checks (R462 to R477). -/

namespace Sys2Proof.Machine

theorem epdRuns_elapse {s : State} (h : Quiet s) (dt : Nat) : epdRuns (elapse dt s) = epdRuns s :=
  elapse_read epdRuns (fun _ _ _ => rfl) h dt

/-! ### Updates (R470, R472) -/

/-- The panel's record once an update has ended. -/
def updateEnded (u : EpdRun) (now : Nat) (e : Epd) : Epd :=
  { e with
    running := e.running.filter (fun x => x.req.id != u.req.id), endUs := now, updates := e.updates + 1,
    bandDrifts := if u.drift then e.bandDrifts + 1 else e.bandDrifts, recovery := e.recovery && u.req.region != 16 }

theorem autoRefresh_shape (r : EpdReq) (s : State) : ∃ n q, autoRefresh r s = { s with epd := { s.epd with nextId := n, queue := q } } := by
  unfold autoRefresh
  split
  · exact ⟨s.epd.nextId, _, rfl⟩
  · exact ⟨_, _, rfl⟩

/-- The end of an update changes its record and the queue, and completes the command that waits for it. -/
theorem epdComplete_shape (u : EpdRun) (count : Nat) (s : State) :
    ∃ n q h o, epdComplete u count s =
        { s with hif := h, out := o, epd := { updateEnded u (monoUs s) s.epd with nextId := n, queue := q } } ∧
      (u.drift = false → q = s.epd.queue) ∧
      ∀ tag e, s.hif.tags = [(tag, .executing e)] → e.wait = .display u.req.id →
        ∃ x, tagOf (epdComplete u count s) tag = some (.held x) ∧ x.status = stOK := by
  have hh := completeAll_held (f := fun w => w == .display u.req.id) (st := stOK) (reg := false)
    (b := drawBody (updEpd (updateEnded u (monoUs s)) s) u count) (s := s) (u := updEpd (updateEnded u (monoUs s)) s) rfl
  obtain ⟨h, o, e⟩ := completeAll_shape (fun w => w == .display u.req.id) stOK false
    (drawBody (updEpd (updateEnded u (monoUs s)) s) u count) (updEpd (updateEnded u (monoUs s)) s)
  by_cases hd : (u.drift && !u.req.auto && u.req.region != 16) = true
  · have hc : epdComplete u count s = autoRefresh u.req (completeAll (fun w => w == .display u.req.id) stOK false
        (drawBody (updEpd (updateEnded u (monoUs s)) s) u count) (updEpd (updateEnded u (monoUs s)) s)) := if_pos hd
    obtain ⟨n, q, e'⟩ := autoRefresh_shape u.req (completeAll (fun w => w == .display u.req.id) stOK false
      (drawBody (updEpd (updateEnded u (monoUs s)) s) u count) (updEpd (updateEnded u (monoUs s)) s))
    refine ⟨n, q, h, o, ?_, fun hf => by simp [hf] at hd, fun tag x hx hw => ?_⟩
    · rw [hc, e', e]; rfl
    · rw [hc, e']
      exact hh tag x hx (by simp [hw])
  · have hc : epdComplete u count s = completeAll (fun w => w == .display u.req.id) stOK false
        (drawBody (updEpd (updateEnded u (monoUs s)) s) u count) (updEpd (updateEnded u (monoUs s)) s) := if_neg hd
    refine ⟨s.epd.nextId, s.epd.queue, h, o, ?_, fun _ => rfl, fun tag x hx hw => ?_⟩
    · rw [hc, e]; rfl
    · rw [hc]
      exact hh tag x hx (by simp [hw])

theorem updateStart_only {r : EpdReq} {s : State} (hr : epdRuns s = true) (hq : s.epd.queue = [r]) (he : epdEligible s r = true) :
    updateStart s = epdStart r s := by
  simp only [updateStart, hr, hq, List.find?_cons, he, Bool.not_true, Bool.false_eq_true, if_false]

/-- An update of all lines begins. -/
theorem epdStart_all {r : EpdReq} {s : State} (hq : s.epd.queue = [r]) (ha : r.all = true) (hh : 0 < r.rect.h) :
    ∃ n g c d st, epdStart r s =
      { s with
        draws := d,
        epd := { s.epd with
          queue := [], crcRef := c, good := g, power := true,
          target := copyLines r.rect ((List.range r.rect.h).map (· + r.rect.y)) s.epd.canvas s.epd.target,
          running := s.epd.running ++ [{
            req := r, band := if tempInvalid s then bits (tempConfig s) 10 8 else s.epd.band,
            lines := (List.range r.rect.h).map (· + r.rect.y), count := r.rect.h, left := n, start := tickStamp s, startUs := monoUs s,
            invalid := tempInvalid s, drift := false, strips := st }] } } := by
  have hl : ((List.range r.rect.h).map (· + r.rect.y)).isEmpty = false := by
    rw [List.isEmpty_eq_false_iff, ← List.length_pos_iff]; simpa using hh
  have hf : s.epd.queue.filter (fun q => q.id != r.id) = [] := by simp [hq]
  simp only [epdStart, startLines, ha, if_true, hl, Bool.false_eq_true, if_false, updEpd, hf, List.length_map, List.length_range, openVal]
  exact ⟨_, _, _, _, _, rfl⟩

/-- An update of a host region that shows no change ends at once. -/
theorem epdStart_unchanged {r : EpdReq} {s : State} (ha : r.all = false) (hr : 2 ≤ r.region)
    (hc : changedLines r.rect s.epd.canvas s.epd.current = []) :
    ∃ u : EpdRun, u.req = r ∧ u.drift = false ∧
      epdStart r s = epdComplete u 0
        { s with draws := s.draws + 1, epd := { s.epd with queue := s.epd.queue.filter fun q => q.id != r.id } } := by
  have h2 : ¬ r.region < 2 := Nat.not_lt.2 hr
  simp only [epdStart, startLines, ha, Bool.false_eq_true, if_false, h2, updEpd, openVal, hc, List.isEmpty_nil, if_true]
  exact ⟨_, rfl, rfl, rfl⟩

theorem displayPhase_goesOn {u : EpdRun} {s : State} (hr : epdRuns s = true) (hp : s.epd.power = true) (hg : s.epd.good = true)
    (hu : s.epd.running = [u]) (hl : 1 < u.left) :
    displayPhase s = { s with epd := { s.epd with running := [{ u with left := u.left - 1 }] } } := by
  have hz : (u.left - 1 == 0) = false := by simpa using by omega
  simp only [displayPhase, hr, hp, hg, hu, updEpd, Bool.not_true, Bool.or_self, Bool.false_eq_true, if_false, List.map_cons, List.map_nil,
    List.filter_cons, hz, List.filter_nil, List.foldl_nil]

theorem displayPhase_last {u : EpdRun} {s : State} (hr : epdRuns s = true) (hp : s.epd.power = true) (hg : s.epd.good = true)
    (hu : s.epd.running = [u]) (hl : u.left = 1) :
    displayPhase s =
      epdComplete { u with left := 0 } u.count (epdShow { u with left := 0 }
        { s with epd := { s.epd with running := [{ u with left := 0 }] } }) := by
  simp only [displayPhase, hr, hp, hg, hu, updEpd, Bool.not_true, Bool.or_self, Bool.false_eq_true, if_false, List.map_cons, List.map_nil,
    hl, Nat.sub_self, List.filter_cons, beq_self_eq_true, if_true, List.filter_nil, List.foldl_cons, List.foldl_nil]

theorem epdPowerFail_late {u : EpdRun} {s : State} (hr : epdRuns s = true) (hp : s.epd.power = true) (hg : s.epd.good = false)
    (hu : s.epd.running = [u]) (hl : u.startUs + 50000 ≤ monoUs s) :
    epdPowerFail s = epdComplete u 0 (post 0x0F01 0 [] 0 s) := by
  have hd : decide (u.startUs + 50000 ≤ monoUs s) = true := by simpa using hl
  simp only [epdPowerFail, hr, hp, hg, hu, Bool.not_true, Bool.or_self, Bool.false_eq_true, if_false, List.filter_cons, hd, if_true,
    List.filter_nil, List.foldl_cons, List.foldl_nil]

/-! ### Strips and checks (R471 to R477) -/

/-- A request at the end of the queue, or in the place of the one for its region. -/
theorem epdRequest_shape (r : EpdReq) (s : State) :
    ∃ q n h o, epdRequest r s = { s with hif := h, out := o, epd := { s.epd with queue := q, superseded := n } } := by
  unfold epdRequest
  split
  · next q _ =>
    obtain ⟨h, o, e⟩ := completeAll_shape (fun w => w == .display q.id) stOK false supersededBody (updEpd (fun e =>
      { e with queue := e.queue.filter (fun x => x.id != q.id) ++ [r], superseded := e.superseded + 1 }) s)
    exact ⟨_, _, h, o, e⟩
  · exact ⟨_, _, _, _, rfl⟩

theorem epdRequest_new {r : EpdReq} {s : State} (h : s.epd.queue.find? (fun q => q.region == r.region) = none) :
    epdRequest r s = { s with epd := { s.epd with queue := s.epd.queue ++ [r] } } := by
  simp only [epdRequest, h, updEpd]

theorem requestStrip_shape (k w : Nat) (s : State) :
    ∃ i q n h o, requestStrip k w s = { s with hif := h, out := o, epd := { s.epd with nextId := i, queue := q, superseded := n } } := by
  simp only [requestStrip, requestRegion]
  split
  · exact ⟨_, _, _, _, _, rfl⟩
  · obtain ⟨q, n, h, o, e⟩ := epdRequest_shape
      { id := s.epd.nextId, region := k, rect := regionRect s k, waveform := w, all := false, auto := false }
      (updEpd (fun e => { e with nextId := e.nextId + 1 }) s)
    exact ⟨_, q, n, h, o, e⟩

theorem stripCheck_shape (k : Nat) (s : State) :
    ∃ a i q n h o, stripCheck k s =
      { s with hif := h, out := o, epd := { s.epd with asked := a, nextId := i, queue := q, superseded := n } } := by
  simp only [stripCheck]
  split
  · exact ⟨s.epd.asked, _, _, _, _, _, rfl⟩
  · split
    · exact ⟨_, s.epd.nextId, _, _, _, _, rfl⟩
    · obtain ⟨i, q, n, h, o, e⟩ := requestStrip_shape k 2 (updEpd (fun e => { e with asked := vset e.asked k (stripBytes s k) }) s)
      exact ⟨_, i, q, n, h, o, e⟩

/-- A sample of the panel's own sensor: the temperature is taken, then both strips are looked at. -/
theorem panelSample_i2c {v : BitVec 16} {s : State} (hr : epdRuns s = true) (hp : pendingOf s 0x0F11 = none) (hc : tempConfig s % 4 = 2) :
    panelSample (some v) s = stripCheck 1 (stripCheck 0 (takeTemp (v.toInt * 2 ^ 24) s)) := by
  simp only [panelSample, hr, applyOne_none hp, hc, Bool.not_true, Bool.false_eq_true, if_false]

theorem stripChecks_shape (s : State) :
    ∃ a i q n h o, stripCheck 1 (stripCheck 0 s) =
      { s with hif := h, out := o, epd := { s.epd with asked := a, nextId := i, queue := q, superseded := n } } := by
  obtain ⟨_, _, _, _, _, _, e⟩ := stripCheck_shape 0 s
  obtain ⟨a, i, q, n, h, o, e'⟩ := stripCheck_shape 1 (stripCheck 0 s)
  exact ⟨a, i, q, n, h, o, by rw [e', e]⟩

theorem displayScan_ok {s : State} (hr : epdRuns s = true) : displayScan true s = applyOne 0x0F13 s := by
  simp only [displayScan, hr, Bool.not_true, Bool.true_or, Bool.false_eq_true, if_false, if_true]

/-- A scan that fails counts the error and requests that the whole panel be cleared. -/
theorem displayScan_fails {s : State} (hr : epdRuns s = true) (hn : s.epd.recovery = false) :
    ∃ c w i e r, displayScan false s =
      { s with
        cfg := c, cfgPending := w, intg := i, evr := e,
        epd := { s.epd with crcErrors := s.epd.crcErrors + 1, recovery := true, nextId := s.epd.nextId + 1, queue := r :: s.epd.queue } } ∧
      r.region = 16 ∧ r.waveform = 0 ∧ r.all = true := by
  obtain ⟨c, w, e⟩ := applyOne_shape 0x0F13 s
  simp only [displayScan, hr, e, hn, Bool.not_true, Bool.or_self, Bool.false_eq_true, if_false]
  exact ⟨_, _, _, _, _, rfl, rfl, rfl, rfl⟩

/-- Both strips requested on an empty queue. -/
theorem stripRefresh_empty {s : State} (hr : epdRuns s = true) (hq : s.epd.queue = []) :
    ∃ a b, stripRefresh s = { s with epd := { s.epd with nextId := s.epd.nextId + 1 + 1, queue := [a, b] } } ∧
      a.region = 0 ∧ b.region = 1 ∧ a.waveform = 1 ∧ b.waveform = 1 := by
  have h0 : requestStrip 0 1 s = { s with epd := { s.epd with
      nextId := s.epd.nextId + 1,
      queue := [{ id := s.epd.nextId, region := 0, rect := regionRect s 0, waveform := 1, all := false, auto := false }] } } := by
    simp only [requestStrip, requestRegion, hr, Bool.not_true, Bool.false_eq_true, if_false]
    rw [epdRequest_new (by simp [updEpd, hq])]
    simp only [updEpd, hq, List.nil_append]
  have hr1 : epdRuns (requestStrip 0 1 s) = true := by rw [h0]; exact hr
  have h1 : ∃ b, requestStrip 1 1 (requestStrip 0 1 s) = { s with epd := { s.epd with
      nextId := s.epd.nextId + 1 + 1,
      queue := [{ id := s.epd.nextId, region := 0, rect := regionRect s 0, waveform := 1, all := false, auto := false }, b] } } ∧
      b.region = 1 ∧ b.waveform = 1 := by
    rw [requestStrip, requestRegion, hr1, h0]
    simp only [Bool.not_true, Bool.false_eq_true, if_false]
    rw [epdRequest_new (by simp [updEpd])]
    exact ⟨_, rfl, rfl, rfl⟩
  obtain ⟨b, e, hb, hw⟩ := h1
  exact ⟨_, b, e, rfl, hb, rfl, hw⟩

/-- Settles O51: the panel's updates, supply, temperature and checks, each by what its function does. -/
theorem displayEventsComplete : Obligations.DisplayEventsComplete := by
  unfold Obligations.DisplayEventsComplete
  refine ⟨?_, ?_, ?_, ?_, ?_, ?_, ?_, ?_, ?_, ?_⟩
  · intro dt r s hq hr hu he ha hh
    have hrow : exec (.updateStart dt) s = .next (updateStart (elapse dt s)) := row_of_seen hq seen_updateStart
    have hep := elapse_epd hq.nothingWaits dt
    obtain ⟨n, g, c, d, st, e⟩ := epdStart_all (s := elapse dt s) (by rwa [hep]) ha hh
    rw [updateStart_only (by rwa [epdRuns_elapse hq]) (by rwa [hep])
      (by rwa [elapse_read (epdEligible · r) (fun _ _ _ => rfl) hq dt]), e, hep,
      elapse_read tempConfig (fun _ _ _ => rfl) hq dt] at hrow
    exact ⟨_, _, hrow, rfl, rfl, rfl, rfl, rfl, rfl, rfl, rfl, rfl, elapse_hif hq.nothingWaits dt, elapse_pio hq.nothingWaits dt⟩
  · intro dt r s hq hr hu he ha hreg hc
    have hrow : exec (.updateStart dt) s = .next (updateStart (elapse dt s)) := row_of_seen hq seen_updateStart
    have hep := elapse_epd hq.nothingWaits dt
    obtain ⟨u, hur, hud, e⟩ := epdStart_unchanged (s := elapse dt s) ha hreg (by rwa [hep])
    obtain ⟨n, q, h, o, e', hq', hx⟩ := epdComplete_shape u 0
      { elapse dt s with draws := (elapse dt s).draws + 1, epd := { (elapse dt s).epd with queue := (elapse dt s).epd.queue.filter fun q => q.id != r.id } }
    rw [updateStart_only (by rwa [epdRuns_elapse hq]) (by rwa [hep])
      (by rwa [elapse_read (epdEligible · r) (fun _ _ _ => rfl) hq dt]), e] at hrow
    refine ⟨_, hrow, ?_, ?_, ?_, ?_, ?_, fun tag x ht hw => ?_⟩
    · rw [e', hq' hud, hep, hu]; simp
    · rw [e', hep]; rfl
    · rw [e', hep]; rfl
    · rw [e', hep]; rfl
    · rw [e', hep]; rfl
    · exact hx tag x (by rw [← ht, ← elapse_hif hq.nothingWaits dt]) (by rw [hw, hur])
  · intro dt u s hq hr hp hg hu hl
    have hrow : exec (.displayPhase dt) s = .next (displayPhase (elapse dt s)) := row_of_seen hq seen_displayPhase
    have hep := elapse_epd hq.nothingWaits dt
    rw [hrow, displayPhase_goesOn (by rwa [epdRuns_elapse hq]) (by rwa [hep]) (by rwa [hep]) (by rwa [hep]) hl, hep]
  · intro dt u s hq hr hp hg hu hl
    have hrow : exec (.displayPhase dt) s = .next (displayPhase (elapse dt s)) := row_of_seen hq seen_displayPhase
    have hep := elapse_epd hq.nothingWaits dt
    rw [displayPhase_last (by rwa [epdRuns_elapse hq]) (by rwa [hep]) (by rwa [hep]) (by rwa [hep]) hl] at hrow
    obtain ⟨n, q, h, o, e', -, hx⟩ := epdComplete_shape { u with left := 0 } u.count (epdShow { u with left := 0 }
      { elapse dt s with epd := { (elapse dt s).epd with running := [{ u with left := 0 }] } })
    refine ⟨_, hrow, ?_, ?_, ?_, ?_, ?_, fun tag x ht hw => ?_⟩
    · rw [e']; simp [updateEnded, epdShow, crcTouch, updEpd, openVal, draw]
    · rw [e']; simp [updateEnded, epdShow, crcTouch, updEpd, openVal, draw, hep]
    · rw [e']; simp [updateEnded, epdShow, crcTouch, updEpd, openVal, draw, hep]
    · rw [e']; simp [updateEnded, epdShow, crcTouch, updEpd, openVal, draw, hep]
    · rw [e']; simp [updateEnded, epdShow, crcTouch, updEpd, openVal, draw, hep]
    · exact hx tag x (by rw [← ht, ← elapse_hif hq.nothingWaits dt]; rfl) hw
  · intro dt u s hq hr hp hg hu hl
    have hrow : exec (.epdPower dt) s = .next (epdPowerFail (elapse dt s)) := row_of_seen hq seen_epdPowerFail
    have hep := elapse_epd hq.nothingWaits dt
    rw [epdPowerFail_late (by rwa [epdRuns_elapse hq]) (by rwa [hep]) (by rwa [hep]) (by rwa [hep]) hl] at hrow
    obtain ⟨n, q, h, o, e', -, hx⟩ := epdComplete_shape u 0 (post 0x0F01 0 [] 0 (elapse dt s))
    refine ⟨_, hrow, ?_, ?_, ?_, fun tag x ht hw => ?_⟩
    · rw [e']; simp [updateEnded, hep, hu]
    · rw [e']; simp [updateEnded, hep]
    · rw [e']; simp [updateEnded, hep]
    · exact hx tag x (by rw [← ht, ← elapse_hif hq.nothingWaits dt]; rfl) hw
  · intro dt s hq hp
    have hrow : exec (.epdPowerGood dt) s = .next (epdPowerGood (elapse dt s)) := row_of_seen hq seen_epdPowerGood
    rw [hrow, epdPowerGood, elapse_epd hq.nothingWaits, hp, if_pos rfl, updEpd, elapse_epd hq.nothingWaits]
  · intro dt s hq hu hl
    have hrow : exec (.epdPowerOff dt) s = .next (epdPowerOff (elapse dt s)) := row_of_seen hq seen_epdPowerOff
    have hc : (s.epd.running.isEmpty && decide (s.epd.endUs + 100000 ≤ monoUs (elapse dt s))) = true := by simpa [hu] using hl
    rw [hrow, epdPowerOff, elapse_epd hq.nothingWaits, if_pos hc, updEpd, elapse_epd hq.nothingWaits]
  · intro dt v s hq hr hp hc
    have hrow : exec (.panelTemperatureSample dt (some v)) s = .next (panelSample (some v) (elapse dt s)) :=
      row_of_follows hq fun u => follows_panelSample (.refl _)
    have hep := elapse_epd hq.nothingWaits dt
    rw [panelSample_i2c (by rwa [epdRuns_elapse hq]) (by rwa [elapse_read (pendingOf · 0x0F11) (fun _ _ _ => rfl) hq dt])
      (by rwa [elapse_read tempConfig (fun _ _ _ => rfl) hq dt])] at hrow
    obtain ⟨a, i, q, n, h, o, e⟩ := stripChecks_shape (takeTemp (v.toInt * 2 ^ 24) (elapse dt s))
    refine ⟨_, hrow, ?_, ?_, ?_, ?_, ?_, ?_, ?_⟩
    · rw [e]; rfl
    · rw [e]; rfl
    · rw [e]; simp only [takeTemp, updEpd, hep, Option.isNone_iff_eq_none]
    · rw [e]; simp only [takeTemp, updEpd, hep]
    · rw [e]; simp only [takeTemp, updEpd, hep]
    · rw [e]; exact elapse_cfg hq.nothingWaits dt
    · rw [e]; exact elapse_pio hq.nothingWaits dt
  · intro dt ok s hq hr hn
    have hrow : exec (.displayScan dt ok) s = .next (displayScan ok (elapse dt s)) := row_of_follows hq fun u => follows_displayScan (.refl _)
    have hep := elapse_epd hq.nothingWaits dt
    cases ok
    · obtain ⟨c, w, i, ev, r, e, hreg, hwf, hall⟩ := displayScan_fails (s := elapse dt s) (by rwa [epdRuns_elapse hq]) (by rwa [hep])
      rw [e, hep] at hrow
      exact ⟨_, hrow, fun h => absurd h (by decide), fun _ => ⟨rfl, rfl, ⟨r, rfl, hreg, hwf, hall⟩, rfl⟩, elapse_hif hq.nothingWaits dt⟩
    · obtain ⟨c, w, e⟩ := applyOne_shape 0x0F13 (elapse dt s)
      rw [displayScan_ok (by rwa [epdRuns_elapse hq]), e] at hrow
      exact ⟨_, hrow, fun _ => ⟨hep, elapse_evr hq.nothingWaits dt⟩, fun h => absurd h (by decide), elapse_hif hq.nothingWaits dt⟩
  · intro dt s hq hr hu
    have hrow : exec (.stripRefresh dt) s = .next (stripRefresh (elapse dt s)) := row_of_seen hq seen_stripRefresh
    have hep := elapse_epd hq.nothingWaits dt
    obtain ⟨a, b, e, ha, hb, hwa, hwb⟩ := stripRefresh_empty (s := elapse dt s) (by rwa [epdRuns_elapse hq]) (by rwa [hep])
    rw [e, hep] at hrow
    exact ⟨_, a, b, hrow, rfl, ha, hb, hwa, hwb, rfl, elapse_hif hq.nothingWaits dt⟩

end Sys2Proof.Machine


/-! Block images and the online change (R266, R299 to R308). -/

namespace Sys2Proof.Machine

/-! ### Validation and the flash (R266, R307) -/

theorem blockValidated_received {s : State} (h : s.ctrl.stage.code = 2) :
    ∃ st hif out, blockValidated s =
        { s with
          hif := hif, out := out,
          ctrl := { s.ctrl with
            stage := st,
            staged := if (biValidate s.ctrl.stage.received).1 = 0 then some (biParse s.ctrl.stage.received) else none } } ∧
      st.code = (if (biValidate s.ctrl.stage.received).1 = 0 then 3 else 4) ∧
      st.validation = (biValidate s.ctrl.stage.received).1 := by
  have hc : (s.ctrl.stage.code != 2) = false := by simp [h]
  simp only [blockValidated, hc, Bool.false_eq_true, if_false, beq_iff_eq]
  obtain ⟨hif, out, e⟩ := completeAll_shape (· == .blockValidation) stOK false _ _
  exact ⟨_, hif, out, e, rfl, rfl⟩

theorem blockFlashed_due {b : BImg} {s : State} (hw : s.ctrl.flashWrite = true) (hb : s.ctrl.running = some b) :
    blockFlashed s = { s with ctrl := { s.ctrl with
      flashA := if s.ctrl.selector then some b.raw else s.ctrl.flashA,
      flashB := if s.ctrl.selector then s.ctrl.flashB else some b.raw,
      selector := !s.ctrl.selector, flashWrite := false } } := by
  have hn (x y : Option Bytes) : (if (!s.ctrl.selector) = true then x else y) = if s.ctrl.selector = true then y else x := by
    cases s.ctrl.selector
    · rfl
    · rfl
  unfold blockFlashed
  split
  · next b' _ hb' =>
    obtain rfl := Option.some.inj (hb.symm.trans hb')
    simp only [updCtrl, hn]
  · next hx => exact absurd hb (hx b hw)

theorem changePrepared_preparing {c : Change} {s : State} (hc : s.ctrl.change = some c) (hp : c.phase = .preparing) :
    changePrepared s = { s with ctrl := { s.ctrl with change := some { c with phase := .prepared } } } := by
  unfold changePrepared
  split
  · next c' hc' =>
    obtain rfl := Option.some.inj (hc.symm.trans hc')
    exact if_pos hp
  · next hn => exact absurd (hc.symm.trans hn) (by simp)

/-- At its tick a change without options begins to drain. -/
theorem changeTick_due {c : Change} {a b : BImg} {s : State} (hc : s.ctrl.change = some c) (ha : s.ctrl.running = some a)
    (hb : s.ctrl.staged = some b) (hp : c.phase = .preparing ∨ c.phase = .prepared) (hm : c.atMono ≤ monoUs s) (ho : c.options = 0) :
    changeTick s = { s with ctrl := { s.ctrl with change := some { c with phase := .draining } } } := by
  have hph : ¬ ((c.phase != .preparing && c.phase != .prepared) || decide (monoUs s < c.atMono)) = true := by
    rcases hp with h | h
    · simp [h, hm]
    · simp [h, hm]
  unfold changeTick
  split
  · next c' a' b' hc' _ _ =>
    obtain rfl := Option.some.inj (hc.symm.trans hc')
    rw [if_neg hph, if_neg (by simp [ho, bit]), if_neg (by simp [ho, bit])]
    rfl
  · next hn => exact absurd hb (hn c a b hc ha)

/-! ### What a change ends with (R300 to R303) -/

theorem takeSample_shape (s : State) : ∃ p g, takeSample s = { s with pio := p, gal := g } := by
  unfold takeSample
  split
  · exact ⟨_, _, rfl⟩
  · exact ⟨_, _, rfl⟩

/-- Without a held release no task begins. -/
theorem releaseHeld_nil {s : State} (h : s.ctrl.swap = none) : ∃ p g, releaseHeld [] s = { s with pio := p, gal := g } := by
  simp only [releaseHeld, h, latchHeld]
  split
  · exact ⟨_, _, rfl⟩
  · simp only [List.any_nil, List.filter_false]
    exact takeSample_shape s

theorem releaseHeld_completed {s : State} (h : s.ctrl.swap = none) (f : Wait → Bool) (st : Nat) (reg : Bool) (b : Bytes) :
    ∃ i o p g, releaseHeld [] (completeAll f st reg b s) = { s with hif := i, out := o, pio := p, gal := g } := by
  obtain ⟨i, o, e⟩ := completeAll_shape f st reg b s
  obtain ⟨p, g, e'⟩ := releaseHeld_nil (s := completeAll f st reg b s) (by rw [e]; exact h)
  exact ⟨i, o, p, g, by rw [e', e]⟩

theorem changeNotMade_eq {outcome : Nat} {c : Change} {a b : BImg} {s : State} (hc : s.ctrl.change = some c)
    (ha : s.ctrl.running = some a) (hb : s.ctrl.staged = some b) :
    ∃ d e body, changeNotMade outcome s = releaseHeld c.held (completeAll (· == .onlineChange) stOK false body
      { s with
        draws := d, evr := e,
        ctrl := { s.ctrl with
          change := none, changesNotMade := s.ctrl.changesNotMade + 1, stage := { s.ctrl.stage with code := c.prior } } }) := by
  unfold changeNotMade
  split
  · next c' a' b' h h' h'' =>
    obtain rfl := Option.some.inj (hc.symm.trans h)
    exact ⟨_, _, _, rfl⟩
  · next hn => exact absurd hb (hn c a b hc ha)

theorem orphansSafe_outputs (a b : BImg) (s : State) : OutputsMoved s (orphansSafe a b s) := by
  refine .foldl (fun s o => ?_) _ s
  simp only
  split
  · split
    · exact doSafe_outputs ..
    · exact pwmSafe_outputs ..
    · exact .trans ⟨_, _, _, _, rfl⟩ (axisSafe_outputs ..)
  · split
    · exact ⟨_, _, _, _, rfl⟩
    · exact .refl s
  · exact .refl s

theorem latchTick_exchanged {c : Change} {a b : BImg} {s : State} (hc : s.ctrl.change = some c) (hb : s.ctrl.running = some b)
    (ha : s.ctrl.staged = some a) (hp : c.phase = .exchanged) :
    ∃ v e h o p body, latchTick s = releaseHeld c.held (completeAll (· == .onlineChange) stOK false body
      { s with vax := v, evr := e, hif := h, out := o, pio := p, ctrl := { s.ctrl with change := none } }) := by
  obtain ⟨p, v, h, o, e⟩ := orphansSafe_outputs a b s
  have hf : ¬ (c.phase != .exchanged) = true := by simp [hp]
  unfold latchTick
  split
  · next c' b' a' hc' hb' ha' =>
    obtain rfl := Option.some.inj (hc.symm.trans hc')
    obtain rfl := Option.some.inj (hb.symm.trans hb')
    obtain rfl := Option.some.inj (ha.symm.trans ha')
    rw [if_neg hf]
    simp only [e]
    exact ⟨v, _, h, o, p, _, rfl⟩
  · next hn => exact absurd ha (hn c b a hc hb)

/-! ### The exchange (R302) -/

theorem pruneForces_shape (b : BImg) (s : State) : ∃ f e, pruneForces b s = { s with ctrl := { s.ctrl with forces := f }, evr := e } := by
  simp only [pruneForces]
  refine List.foldlRecOn (motive := fun t : State => ∃ f e, t = { s with ctrl := { s.ctrl with forces := f }, evr := e }) _ _
    ⟨_, s.evr, rfl⟩ ?_
  rintro _ ⟨f, e, rfl⟩ x -
  exact ⟨f, _, rfl⟩

/-- The engine of a change that is exchanged: its code is loaded where it differs. -/
def exchangedEngine (a b : BImg) (s : State) (e : Nat) : Engine :=
  { engOf s e with
    code := if reloads a b e then Memory.writes (engOf s e).code 0 (vget b.code e []) else (engOf s e).code,
    data := exchangedData a b (fun e => (engOf s e).data) e }

theorem exchangedEngine_code {a b : BImg} {k : Nat} (h : reloads a b k = false) (s : State) :
    (exchangedEngine a b s k).code = (engOf s k).code := by
  simp only [exchangedEngine, h, Bool.false_eq_true, if_false]

/-- The engines after an exchange. -/
theorem exchangedEngines_get (a b : BImg) (s : State) (k : Fin 2) :
    vget (vset (vset s.ctrl.engines 0 (exchangedEngine a b s 0)) 1 (exchangedEngine a b s 1)) k Engine.reset = exchangedEngine a b s k := by
  have hk : k = 0 ∨ k = 1 := by omega
  rcases hk with rfl | rfl
  · exact (vget_vset_ne (by decide) ..).trans (vget_vset_self (by decide) ..)
  · exact vget_vset_self (by decide) ..

/-- What an exchange leaves once engines and forces are exchanged. -/
def exchangeEnds (a b : BImg) (c : Change) (body : Bytes) (s : State) : State :=
  updCtrl (fun x => { x with
    running := some b, staged := some a, stage := formerStage (some a), tasks := exchangedTasks b x.tasks, flashWrite := true,
    onlineChanges := x.onlineChanges + 1,
    change := some { c with phase := .exchanged, exchangeMono := monoUs s, body := body } }) s

theorem exchange_drained {c : Change} {a b : BImg} {s : State} (hc : s.ctrl.change = some c) (ha : s.ctrl.running = some a)
    (hb : s.ctrl.staged = some b) (hp : c.phase = .draining) (h0 : (engOf s 0).runs = []) (h1 : (engOf s 1).runs = []) :
    ∃ f e m y, exchange s =
        { s with
          evr := e,
          ctrl := { s.ctrl with
            forces := f, engines := vset (vset s.ctrl.engines 0 (exchangedEngine a b s 0)) 1 (exchangedEngine a b s 1),
            running := some b, staged := some a, stage := formerStage (some a), tasks := exchangedTasks b s.ctrl.tasks,
            flashWrite := true, onlineChanges := s.ctrl.onlineChanges + 1,
            change := some { c with phase := .exchanged, exchangeMono := m, body := y } } } := by
  have hf : (c.phase != .draining || !(engOf s 0).runs.isEmpty || !(engOf s 1).runs.isEmpty) = false := by simp [hp, h0, h1]
  obtain ⟨f, e, ep⟩ := pruneForces_shape b (setEng 1 (exchangedEngine a b s 1) (setEng 0 (exchangedEngine a b s 0) s))
  unfold exchange
  split
  · next c₁ a₁ b₁ hc' ha' hb' =>
    obtain rfl := Option.some.inj (hc.symm.trans hc')
    obtain rfl := Option.some.inj (ha.symm.trans ha')
    obtain rfl := Option.some.inj (hb.symm.trans hb')
    rw [if_neg (by simp [hf])]
    exact ⟨f, e, _, _, congrArg (exchangeEnds a b c
      (le 1 (b2n (reloads a b 0) + 2 * b2n (reloads a b 1)) ++ changeCounts a b s.ctrl.forces)) ep⟩
  · next hn => exact absurd hb (hn c a b hc ha)

/-- Settles O38: the image's validation and flash, and the phases of an online change, each by what its function does. -/
theorem onlineChangeComplete : Obligations.OnlineChangeComplete := by
  unfold Obligations.OnlineChangeComplete
  refine ⟨?_, ?_, ?_, ?_, ?_, ?_, ?_⟩
  · intro dt s hq h
    have hrow : exec (.blockImageValidationComplete dt) s = .next (blockValidated (elapse dt s)) := row_of_seen hq seen_blockValidated
    obtain ⟨st, hif, out, e, hcode, hval⟩ := blockValidated_received (s := elapse dt s) (by rwa [elapse_ctrl hq.nothingWaits])
    rw [e, elapse_ctrl hq.nothingWaits] at hrow
    rw [elapse_ctrl hq.nothingWaits] at hcode hval
    exact ⟨_, hrow, hcode, hval, rfl, rfl, rfl, elapse_pio hq.nothingWaits dt⟩
  · intro dt b s hq hw hb
    have hrow : exec (.blockImageFlashWrite dt) s = .next (blockFlashed (elapse dt s)) := row_of_seen hq seen_blockFlashed
    rw [hrow, blockFlashed_due (by rwa [elapse_ctrl hq.nothingWaits]) (by rwa [elapse_ctrl hq.nothingWaits]), elapse_ctrl hq.nothingWaits]
  · intro dt c s hq hc hp
    have hrow : exec (.onlineChangePrepared dt) s = .next (changePrepared (elapse dt s)) := row_of_seen hq seen_changePrepared
    rw [hrow, changePrepared_preparing (by rwa [elapse_ctrl hq.nothingWaits]) hp, elapse_ctrl hq.nothingWaits]
  · intro dt c a b s hq hc ha hb hs hp hm ho
    have hrow : exec (.changeTick dt) s = .next (swapTick (changeTick (elapse dt s))) :=
      row_of_follows (f := fun s => swapTick (changeTick s)) hq fun u => by rw [seen_swapTick]; exact follows_changeTick (.refl _)
    have hct := elapse_ctrl hq.nothingWaits dt
    have es (u : State) (hu : u.ctrl.swap = none) : swapTick u = u := by simp only [swapTick, hu]
    rw [hrow, changeTick_due (by rwa [hct]) (by rwa [hct]) (by rwa [hct]) hp hm ho, es _ (by simpa only [hct] using hs), hct]
  · intro dt c a b s hq hc ha hb hp h0 h1
    have hrow : exec (.exchange dt) s = .next (exchange (elapse dt s)) := row_of_follows hq fun u => follows_exchange (.refl _)
    have hct := elapse_ctrl hq.nothingWaits dt
    obtain ⟨f, e, m, y, ex⟩ := exchange_drained (s := elapse dt s) (by rwa [hct]) (by rwa [hct]) (by rwa [hct]) hp
      (by rwa [engOf, hct]) (by rwa [engOf, hct])
    have heng := exchangedEngines_get a b (elapse dt s)
    rw [hct] at heng
    rw [ex, hct] at hrow
    refine ⟨_, _, hrow, rfl, rfl, rfl, rfl, rfl, rfl, rfl, rfl, rfl, elapse_pio hq.nothingWaits dt, elapse_vax hq.nothingWaits dt, fun k hk => ?_⟩
    refine (congrArg Engine.code (heng k)).trans ((exchangedEngine_code hk _).trans ?_)
    rw [engOf, engOf, hct]
  · intro dt c a b s hq hc hb ha hp hh hs
    have hrow : exec (.latchTick dt) s = .next (latchTick (elapse dt s)) := row_of_follows hq fun u => follows_latchTick (.refl _)
    have hct := elapse_ctrl hq.nothingWaits dt
    obtain ⟨v, e, h, o, p, body, el⟩ := latchTick_exchanged (s := elapse dt s) (by rwa [hct]) (by rwa [hct]) (by rwa [hct]) hp
    obtain ⟨i, o', p', g, er⟩ := releaseHeld_completed
      (s := { elapse dt s with vax := v, evr := e, hif := h, out := o, pio := p, ctrl := { (elapse dt s).ctrl with change := none } })
      (by simpa only [hct] using hs) (· == .onlineChange) stOK false body
    rw [el, hh, er, hct] at hrow
    exact ⟨_, hrow, rfl, hb, ha, rfl, rfl⟩
  · intro dt c a b s hq hc ha hb hp hm hr hh hs
    have hrow : exec (.changeDrainTimeout dt) s = .next (swapTimeout (changeDrainTimeout (elapse dt s))) :=
      row_of_follows (f := fun s => swapTimeout (changeDrainTimeout s)) hq fun u => follows_swapTimeout (follows_changeDrainTimeout (.refl _))
    have hct := elapse_ctrl hq.nothingWaits dt
    have hd : (c.phase == .draining && decide (c.atMono + c.drainMax ≤ monoUs (elapse dt s)) &&
        !((engOf (elapse dt s) 0).runs.isEmpty && (engOf (elapse dt s) 1).runs.isEmpty)) = true := by
      simp only [engOf, hct] at hr ⊢
      simp [hp, hm]
      tauto
    obtain ⟨d, e, body, en⟩ := changeNotMade_eq (outcome := 3) (s := elapse dt s) (by rwa [hct]) (by rwa [hct]) (by rwa [hct])
    obtain ⟨i, o, p, g, er⟩ := releaseHeld_completed
      (s := { elapse dt s with
        draws := d, evr := e,
        ctrl := { (elapse dt s).ctrl with
          change := none, changesNotMade := (elapse dt s).ctrl.changesNotMade + 1,
          stage := { (elapse dt s).ctrl.stage with code := c.prior } } })
      (by simpa only [hct] using hs) (· == .onlineChange) stOK false body
    have et : changeDrainTimeout (elapse dt s) = changeNotMade 3 (elapse dt s) := by
      unfold changeDrainTimeout
      rw [hct, hc]
      exact if_pos hd
    have es (u : State) (hu : u.ctrl.swap = none) : swapTimeout u = u := by simp only [swapTimeout, hu]
    rw [et, en, hh, er, es _ (by simpa only [hct] using hs), hct] at hrow
    exact ⟨_, hrow, rfl, ha, rfl, rfl, rfl⟩

end Sys2Proof.Machine


/-! Tasks: their releases, what is skipped and aborted, and what is applied (R249 to R260, R32). -/

namespace Sys2Proof.Machine

/-! ### Axes moved -/

/-- Axes, and the host's commands for them, have moved on, and nothing else. -/
def AxesMoved (s t : State) : Prop := ∃ v h o, t = { s with vax := v, hif := h, out := o }

theorem AxesMoved.refl (s : State) : AxesMoved s s := ⟨_, _, _, rfl⟩

theorem AxesMoved.trans {s t u : State} (h : AxesMoved s t) (h' : AxesMoved t u) : AxesMoved s u := by
  obtain ⟨_, _, _, rfl⟩ := h
  obtain ⟨_, _, _, rfl⟩ := h'
  exact ⟨_, _, _, rfl⟩

theorem AxesMoved.foldl {α : Type} {f : State → α → State} (h : ∀ s x, AxesMoved s (f s x)) (l : List α) (s : State) :
    AxesMoved s (l.foldl f s) :=
  List.foldlRecOn (motive := AxesMoved s) l f (.refl s) fun t ht x _ => ht.trans (h t x)

theorem setAxis_axes (a : Nat) (x : Axis) (s : State) : AxesMoved s (setAxis a x s) := ⟨_, _, _, rfl⟩

theorem hostDone_axes (a outcome : Nat) (s : State) : AxesMoved s (hostDone a outcome s) := by
  simp only [hostDone]
  split
  · exact .refl s
  · obtain ⟨h, o, e⟩ := completeAll_shape (fun w => w == .axis a) stOK false
      (axisBody (setAxis a { axisOf s a with host := none } s) a outcome { axisOf s a with host := none })
      (setAxis a { axisOf s a with host := none } s)
    exact ⟨_, h, o, e⟩

theorem takeOver_axes (a : Nat) (s : State) : AxesMoved s (takeOver a s) := (setAxis_axes ..).trans (hostDone_axes ..)

theorem ownAxes_axes (e t : Nat) (s : State) : AxesMoved s (ownAxes e t s) := by
  unfold ownAxes
  split
  · exact .refl s
  · split
    · refine .foldl (fun s o => ?_) _ s
      split
      · exact takeOver_axes ..
      · exact .refl s
    · exact .refl s

/-! ### A latched execution (R250, R254) -/

/-- The execution of a task that its release begins. -/
def newRun (d : BTask) (rel : Nat) : Run :=
  { task := d.task, prio := d.prio, started := false, pc := BitVec.ofNat 32 d.entry, regs := zeroRegs, links := [], journal := [],
    overflowed := false, div0 := false, release := rel, beganUs := 0, again := false }

/-- A task's record once its execution is latched. -/
def latched (rel relMono : Nat) (image : Bytes) (y : TaskSt) : TaskSt :=
  { y with
    cycleCount := y.cycleCount + 1, skipped := 0, release := rel, releaseMono := relMono, misses := 0, firstScan := false,
    restarted := false, afterChange := false, stepped := false, landIn := image }

/-- The control blocks once an execution is latched on an engine. -/
def latchedOn (e : Nat) (d : BTask) (rel relMono : Nat) (data : Memory) (image : Bytes) (s : State) : State :=
  updTask e d.task (latched rel relMono image)
    (setEng e { engOf s e with data := data, runs := insertRun (newRun d rel) (engOf s e).runs } s)

theorem latchRun_eq (e : Nat) (d : BTask) (rel relMono : Nat) (data : Memory) (s : State) :
    latchRun e d rel relMono data s =
      (let v := latchedOn e d rel relMono (applyForces (transfer (iCtrl e) (.bank 0) d.inLen s) e (inInput d) data)
        (data.reads d.inAddr d.inLen) (transfer (iCtrl e) (.bank 0) d.inLen s)
      if sendsHeartbeats v then sendPair 3 (imageContent e d.task (stampOfUs rel) (data.reads d.inAddr d.inLen)) v else v) := rfl

theorem transfer_shape (src : Nat) (port : GPort) (len : Nat) (s : State) : ∃ g, transfer src port len s = { s with gal := g } := ⟨_, rfl⟩

theorem latchedOn_shape (e : Nat) (d : BTask) (rel relMono : Nat) (data : Memory) (image : Bytes) (s : State) (g : Gallery) :
    latchedOn e d rel relMono data image { s with gal := g } =
      { s with gal := g, ctrl := (latchedOn e d rel relMono data image s).ctrl } := rfl

theorem latchRun_shape (e : Nat) (d : BTask) (rel relMono : Nat) (data : Memory) (s : State) :
    ∃ g o m im, latchRun e d rel relMono data s = { s with gal := g, out := o, ctrl := (latchedOn e d rel relMono m im s).ctrl } := by
  obtain ⟨g, eg⟩ := transfer_shape (iCtrl e) (.bank 0) d.inLen s
  rw [latchRun_eq]
  generalize applyForces (transfer (iCtrl e) (.bank 0) d.inLen s) e (inInput d) data = m
  simp only [eg, latchedOn_shape]
  refine ⟨g, ?_⟩
  split
  · obtain ⟨o, eo⟩ := sendPair_shape 3 (imageContent e d.task (stampOfUs rel) (data.reads d.inAddr d.inLen))
      { s with gal := g, ctrl := (latchedOn e d rel relMono m (data.reads d.inAddr d.inLen) s).ctrl }
    exact ⟨o, m, _, eo⟩
  · exact ⟨s.out, m, data.reads d.inAddr d.inLen, rfl⟩

theorem unmarkInputs_shape (e : Nat) (d : BTask) (s : State) : ∃ i, unmarkInputs e d s = { s with intg := i } := by
  unfold unmarkInputs
  refine List.foldlRecOn (motive := fun t : State => ∃ i, t = { s with intg := i }) _ _ ⟨_, rfl⟩ ?_
  rintro _ ⟨i, rfl⟩ x -
  exact ⟨_, rfl⟩

theorem readWindows_shape {α : Type} (src : Nat) (len : α → Nat) (l : List α) (s : State) :
    ∃ g, l.foldl (fun s i => readWindow src (len i) s) s = { s with gal := g } := by
  refine List.foldlRecOn (motive := fun t : State => ∃ g, t = { s with gal := g }) _ _ ⟨s.gal, rfl⟩ ?_
  rintro _ ⟨g, rfl⟩ x -
  exact ⟨_, rfl⟩

theorem executeRelease_shape (e : Nat) (d : BTask) (x : TaskSt) (rel relMono : Nat) (s : State) :
    ∃ g o i v h m im, executeRelease e d x rel relMono s =
      { s with gal := g, out := o, intg := i, vax := v, hif := h, ctrl := (latchedOn e d rel relMono m im s).ctrl } := by
  obtain ⟨g, eg⟩ := readWindows_shape (iCtrl e) BIn.len
    ((s.ctrl.running.elim [] (·.ins)).filter fun i => i.engine == e && i.task == d.task && i.source == 2) s
  obtain ⟨v, h, o, ea⟩ := ownAxes_axes e d.task { s with gal := g }
  obtain ⟨i, ei⟩ := unmarkInputs_shape e d { s with gal := g, vax := v, hif := h, out := o }
  simp only [executeRelease, eg, ea, ei]
  obtain ⟨g', o', m, im, el⟩ := latchRun_shape e d rel relMono
    (assemble { s with gal := g, vax := v, hif := h, out := o, intg := i } e d x rel relMono
      (engOf { s with gal := g, vax := v, hif := h, out := o, intg := i } e).data)
    { s with gal := g, vax := v, hif := h, out := o, intg := i }
  exact ⟨g', o', i, v, h, m, im, el⟩

theorem taskSt_latchedOn {e : Nat} {d : BTask} {x : TaskSt} {s : State} (hx : taskSt s e d.task = some x) (rel relMono : Nat)
    (data : Memory) (image : Bytes) :
    taskSt (latchedOn e d rel relMono data image s) e d.task = some (latched rel relMono image x) := by
  rw [latchedOn, taskSt_updTask (by exact fun _ => ⟨rfl, rfl⟩), taskSt_setEng, hx, Option.map_some]

/-! ### A release (R249, R259, R260) -/

/-- The state at a release whose task may execute: its instant is marked, the inputs are sampled. -/
def releaseBegun (e : Nat) (d : BTask) (s : State) : State := takeSample (markInstant e d.task s)

/-- What marks an instant in a task's record. -/
def instantMarked (now : Nat) (y : TaskSt) : TaskSt := { y with instant := some now }

theorem takeSample_dos (s : State) : (takeSample s).pio.dos = s.pio.dos := by
  unfold takeSample
  split
  · rfl
  · rfl

theorem takeSample_ctrl (s : State) : (takeSample s).ctrl = s.ctrl := by
  obtain ⟨_, _, e⟩ := takeSample_shape s
  rw [e]

theorem releaseBegun_ctrl (e : Nat) (d : BTask) (s : State) :
    (releaseBegun e d s).ctrl = (updTask e d.task (instantMarked (monoUs s)) s).ctrl := takeSample_ctrl _

theorem taskSt_releaseBegun {e : Nat} {d : BTask} {x : TaskSt} {s : State} (hx : taskSt s e d.task = some x) :
    taskSt (releaseBegun e d s) e d.task = some (instantMarked (monoUs s) x) := by
  rw [taskSt_of_ctrl (releaseBegun_ctrl e d s), taskSt_updTask (by exact fun _ => ⟨rfl, rfl⟩), hx, Option.map_some]

theorem engOf_releaseBegun (e : Nat) (d : BTask) (s : State) (i : Nat) : engOf (releaseBegun e d s) i = engOf s i :=
  engOf_of_ctrl (releaseBegun_ctrl e d s) i

theorem releaseBegun_clock (e : Nat) (d : BTask) (s : State) : (releaseBegun e d s).clock = s.clock := by
  obtain ⟨_, _, h⟩ := takeSample_shape (markInstant e d.task s)
  rw [releaseBegun, h]; rfl

/-- A release that nothing holds. -/
theorem releaseOne_free {e : Nat} {d : BTask} {x : TaskSt} {s : State} (ht : tasksExecute s = true) (hx : taskSt s e d.task = some x)
    (hw : x.mode = .waiting) (hc : s.ctrl.change = none) (hs : s.ctrl.swap = none) :
    releaseOne e d s =
      if (runOf s e d.task).isSome then skipRelease e d (instantMarked (monoUs s) x) (releaseBegun e d s)
      else executeRelease e d (instantMarked (monoUs s) x) (tickUs s) (monoUs s) (releaseBegun e d s) := by
  have hgo : taskGoes (markInstant e d.task s) e d.task = true := by
    rw [taskGoes, markInstant, taskSt_updTask (by exact fun _ => ⟨rfl, rfl⟩), hx]
    simp [hw]
  have hex : tasksExecute (markInstant e d.task s) = true := ht
  have hct : changeTick (markInstant e d.task s) = markInstant e d.task s := by
    have h : (markInstant e d.task s).ctrl.change = none := hc
    simp only [changeTick, h]
  have hst : swapTick (markInstant e d.task s) = markInstant e d.task s := by
    have h : (markInstant e d.task s).ctrl.swap = none := hs
    simp only [swapTick, h]
  have hfree : (swapping (markInstant e d.task s) || holding (markInstant e d.task s)) = false := by
    simp [swapping, holding, markInstant, hc, hs]
  have hr : runOf (releaseBegun e d s) e d.task = runOf s e d.task := congrArg (fun x : Engine => x.runs.find? _) (engOf_releaseBegun ..)
  have htick : tickUs (releaseBegun e d s) = tickUs s := by rw [tickUs, releaseBegun_clock]; rfl
  have hmono : monoUs (releaseBegun e d s) = monoUs s := by rw [monoUs, releaseBegun_clock]; rfl
  unfold releaseOne
  simp only [hex, hgo, hct, hst, hfree, Bool.not_true, Bool.or_self, Bool.false_eq_true, if_false]
  rw [← releaseBegun, taskSt_releaseBegun hx]
  simp only [hr, htick, hmono]

/-- A release comes alone when none of higher priority is due with it. -/
theorem taskRelease_alone {e k : Nat} {d : BTask} {x : TaskSt} {s : State} (hd : taskDef s e k = some d) (hx : taskSt s e k = some x)
    (hm : s.sys.mode ≠ .shadow) (ht : tickUs s % d.cycle = d.phase) (hi : x.instant ≠ some (monoUs s)) (ha : dueAbove s e d.prio = []) :
    taskRelease e k s = releaseOne e d s ∧ d.task = k := by
  have hdk : d.task = k := by
    unfold taskDef at hd
    split at hd
    · have h := List.find?_some hd
      simp only [Bool.and_eq_true, beq_iff_eq] at h
      exact h.2
    · exact absurd hd (by simp)
  have hdue : releaseDue s e d = true := by simp [releaseDue, ht, hdk, hx, hi]
  have hb : ¬ (!releaseDue s e d || s.sys.mode == .shadow) = true := by simp [hdue, hm]
  refine ⟨?_, hdk⟩
  unfold taskRelease
  rw [hd]
  simp only [if_neg hb, releaseAbove, ha, List.foldl_nil]

/-! ### Skipped and aborted releases (R259, R260) -/

/-- Dropping an execution changes its engine and its task's record, which keeps its counts and mode. -/
theorem dropRun_shape (e t : Nat) (s : State) :
    ∃ v l, dropRun e t s = { s with ctrl := { s.ctrl with engines := v, tasks := l } } := by
  unfold dropRun
  split
  · exact ⟨_, _, rfl⟩
  · exact ⟨_, _, rfl⟩

theorem taskOutputsSafe_ctrl (e t : Nat) (s : State) : (taskOutputsSafe e t s).ctrl = s.ctrl := by
  obtain ⟨_, _, _, _, h⟩ := taskOutputsSafe_outputs e t s
  rw [h]

theorem taskSt_dropRun {e t : Nat} {x : TaskSt} {s : State} (hx : taskSt s e t = some x) :
    ∃ y, taskSt (dropRun e t s) e t = some y ∧ y.skipped = x.skipped ∧ y.overruns = x.overruns ∧ y.cycleCount = x.cycleCount ∧
      y.mode = x.mode := by
  unfold dropRun
  split
  · rw [taskSt_updTask (by exact fun _ => ⟨rfl, rfl⟩), taskSt_setEng, hx]
    exact ⟨_, rfl, rfl, rfl, rfl, rfl⟩
  · exact ⟨x, hx, rfl, rfl, rfl, rfl⟩

/-- A task's record once its execution is aborted. -/
def abortedAt (pc : Nat) (y : TaskSt) : TaskSt := { y with mode := .aborted, faultPc := pc }

theorem abortTask_shape {e t : Nat} {x : TaskSt} {s : State} (hx : taskSt s e t = some x) :
    ∃ y, taskSt (abortTask e t s) e t = some y ∧ y.skipped = x.skipped ∧ y.overruns = x.overruns ∧ y.cycleCount = x.cycleCount ∧
      y.mode = .aborted ∧ (abortTask e t s).ctrl.overruns = s.ctrl.overruns ∧ (abortTask e t s).ctrl.aborts = s.ctrl.aborts + 1 := by
  obtain ⟨v, l, ed⟩ := dropRun_shape e t s
  obtain ⟨y, hy, hsk, hov, hcy, -⟩ := taskSt_dropRun hx
  have hctrl : (abortTask e t s).ctrl = (updCtrl (fun c => { c with aborts := c.aborts + 1 })
      (updTask e t (abortedAt ((runOf s e t).elim 0 fun r => r.pc.toNat)) (dropRun e t s))).ctrl := taskOutputsSafe_ctrl ..
  have hst : taskSt (abortTask e t s) e t = some (abortedAt ((runOf s e t).elim 0 fun r => r.pc.toNat) y) := by
    rw [taskSt_of_ctrl hctrl]
    exact (taskSt_updTask (f := abortedAt _) (fun _ => ⟨rfl, rfl⟩) (dropRun e t s)).trans (congrArg _ hy)
  refine ⟨_, hst, hsk, hov, hcy, rfl, ?_, ?_⟩
  · rw [hctrl, ed]; rfl
  · rw [hctrl, ed]; rfl

/-- A task's record after a release that found its execution in progress. -/
def skippedOnce (y : TaskSt) : TaskSt :=
  { y with skipped := y.skipped + 1, skippedAll := y.skippedAll + 1, overruns := y.overruns + 1, misses := y.misses + 1 }

/-- The state with a skip counted. -/
def skipCounted (e : Nat) (d : BTask) (s : State) : State :=
  post 0x0601 (e * 16 + d.task) [] 0 (updCtrl (fun c => { c with overruns := c.overruns + 1 }) (updTask e d.task skippedOnce s))

theorem taskSt_skipCounted {e : Nat} {d : BTask} {x : TaskSt} {s : State} (hx : taskSt s e d.task = some x) :
    taskSt (skipCounted e d s) e d.task = some (skippedOnce x) :=
  (taskSt_updTask (f := skippedOnce) (fun _ => ⟨rfl, rfl⟩) s).trans (congrArg _ hx)

theorem skipRelease_eq (e : Nat) (d : BTask) (x : TaskSt) (s : State) :
    skipRelease e d x s = if d.abortLimit ≤ x.misses + 1 then abortTask e d.task (skipCounted e d s) else skipCounted e d s := rfl

theorem skipRelease_shape {e : Nat} {d : BTask} {x : TaskSt} {s : State} (hx : taskSt s e d.task = some x) (hw : x.mode = .waiting) :
    ∃ y, taskSt (skipRelease e d x s) e d.task = some y ∧ y.skipped = x.skipped + 1 ∧ y.overruns = x.overruns + 1 ∧
      y.cycleCount = x.cycleCount ∧ (skipRelease e d x s).ctrl.overruns = s.ctrl.overruns + 1 ∧
      y.mode = (if d.abortLimit ≤ x.misses + 1 then .aborted else .waiting) ∧
      (skipRelease e d x s).ctrl.aborts = (if d.abortLimit ≤ x.misses + 1 then s.ctrl.aborts + 1 else s.ctrl.aborts) ∧
      (x.misses + 1 < d.abortLimit → (skipRelease e d x s).ctrl.engines = s.ctrl.engines) := by
  have hs := taskSt_skipCounted (e := e) hx
  rw [skipRelease_eq]
  by_cases h : d.abortLimit ≤ x.misses + 1
  · obtain ⟨y, hy, hsk, hov, hcy, hmo, ho, ha⟩ := abortTask_shape hs
    simp only [if_pos h]
    exact ⟨y, hy, hsk, hov, hcy, ho, hmo, ha, fun hl => absurd h (Nat.not_le.2 hl)⟩
  · simp only [if_neg h]
    exact ⟨_, hs, rfl, rfl, rfl, rfl, hw, rfl, fun _ => rfl⟩

/-! ### Outputs applied (R32, R380) -/

/-- Outputs and axis records have been written, and the recorder. -/
def OutputsWritten (s t : State) : Prop := ∃ p v e, t = { s with pio := p, vax := v, evr := e }

theorem OutputsWritten.refl (s : State) : OutputsWritten s s := ⟨_, _, _, rfl⟩

theorem OutputsWritten.trans {s t u : State} (h : OutputsWritten s t) (h' : OutputsWritten t u) : OutputsWritten s u := by
  obtain ⟨_, _, _, rfl⟩ := h
  obtain ⟨_, _, _, rfl⟩ := h'
  exact ⟨_, _, _, rfl⟩

theorem OutputsWritten.foldl {α : Type} {f : State → α → State} (h : ∀ s x, OutputsWritten s (f s x)) (l : List α) (s : State) :
    OutputsWritten s (l.foldl f s) :=
  List.foldlRecOn (motive := OutputsWritten s) l f (.refl s) fun t ht x _ => ht.trans (h t x)

theorem publishDo_written (o : Nat) (v : Bool) (s : State) : OutputsWritten s (publishDo o v s) := by
  simp only [publishDo]
  repeat' split
  · exact .refl s
  · exact ⟨_, _, _, rfl⟩
  · exact .refl s
  · exact ⟨_, _, _, rfl⟩

theorem applyTask_written (b : BImg) (x : TaskSt) (s : State) : OutputsWritten s (applyTask b x s) := by
  unfold applyTask
  split
  · exact .refl s
  · refine .foldl (fun s o => ?_) _ s
    simp only
    split
    · exact publishDo_written ..
    · exact ⟨_, _, _, rfl⟩
    · exact ⟨_, _, _, rfl⟩

/-- The mark of a publication that the tick has applied. -/
def applied (x : TaskSt) : TaskSt := { x with toApply := false }

theorem outputApply_running {b : BImg} {s : State} (hb : s.ctrl.running = some b) :
    outputApply s = updCtrl (fun c => { c with tasks := c.tasks.map applied })
      ((s.ctrl.tasks.filter (·.toApply)).foldl (fun s x => applyTask b x s) s) := by
  simp only [outputApply, hb]
  rfl

theorem applyTask_axis {b : BImg} {x : TaskSt} {o : BOut} {s : State} (hd : drives s x.engine x.task = true)
    (ho : b.outs.filter (fun o => o.engine == x.engine && o.task == x.task) = [o]) (h3 : o.dest = 3) :
    applyTask b x s = setAxis o.index { axisOf s o.index with record := some (slice x.landOut o.imgOff (destLen 3)) } s := by
  simp only [applyTask, hd, ho, Bool.not_true, Bool.false_eq_true, if_false, List.foldl_cons, List.foldl_nil, h3]

theorem applyTask_do {b : BImg} {x : TaskSt} {o : BOut} {s : State} (hd : drives s x.engine x.task = true)
    (ho : b.outs.filter (fun o => o.engine == x.engine && o.task == x.task) = [o]) (h1 : o.dest = 1) :
    applyTask b x s = publishDo o.index (bit (ofLE (slice x.landOut o.imgOff (destLen 1))) 0) s := by
  simp only [applyTask, hd, ho, Bool.not_true, Bool.false_eq_true, if_false, List.foldl_cons, List.foldl_nil, h1]

theorem driveDo_shape (o : Nat) (v : Bool) (s : State) :
    ∃ d : DOut, driveDo o v s = { s with pio := { s.pio with dos := vset s.pio.dos o d } } ∧ d.level = v ∧
      d.safe = (vget s.pio.dos o DOut.reset).safe := by
  refine ⟨_, rfl, ?_, ?_⟩
  · split
    · next h => exact h
    · rfl
  · split
    · rfl
    · rfl

/-- A published level drives an output that its pair and its faults leave to the task. -/
theorem publishDo_driven {i : Fin 24} {v : Bool} {s : State} (hp : pairOutput s ≠ some i.val) (hf : (s.pio.dos[i]).faultSafe = false) :
    ∃ d : DOut, publishDo i v s = { s with pio := { s.pio with dos := vset s.pio.dos i d } } ∧ d.level = v ∧ d.safe = false := by
  have hb : (pairOutput s == some i.val) = false := by simpa using hp
  obtain ⟨d, e, hl, hs⟩ := driveDo_shape i v
    { s with pio := { s.pio with dos := vset s.pio.dos i { s.pio.dos[i] with safe := false } } }
  refine ⟨d, ?_, hl, hs.trans (congrArg DOut.safe (vget_vset_self i.isLt ..))⟩
  have h0 : publishDo i v s = driveDo i v { s with pio := { s.pio with dos := vset s.pio.dos i { s.pio.dos[i] with safe := false } } } := by
    rw [← vget_fin _ _ DOut.reset] at hf ⊢
    simp only [publishDo, hb, Bool.false_eq_true, if_false]
    exact if_neg (by simp [hf])
  rw [h0, e]
  simp only [vset_vset]

/-- A release that executes latches the new execution on its engine. -/
theorem executeRelease_begun {e : Fin 2} {d : BTask} {x : TaskSt} {s : State} (hx : taskSt s e d.task = some x) (z : TaskSt)
    (rel relMono : Nat) :
    let t := executeRelease e d z rel relMono (releaseBegun e d s)
    (∃ im, taskSt t e d.task = some (latched rel relMono im (instantMarked (monoUs s) x))) ∧
      (engOf t e).runs = insertRun (newRun d rel) (engOf s e).runs ∧ engOf t (1 - e.val) = engOf s (1 - e.val) ∧
      t.pio.dos = s.pio.dos := by
  obtain ⟨g, o, i, v, h, m, im, ee⟩ := executeRelease_shape e d z rel relMono (releaseBegun e d s)
  have hc : (executeRelease e d z rel relMono (releaseBegun e d s)).ctrl = (latchedOn e d rel relMono m im (releaseBegun e d s)).ctrl := by
    rw [ee]
  refine ⟨⟨im, ?_⟩, ?_, ?_, ?_⟩
  · rw [taskSt_of_ctrl hc]
    exact taskSt_latchedOn (taskSt_releaseBegun hx) ..
  · rw [engOf_of_ctrl hc, latchedOn, engOf_updTask, engOf_setEng_same, engOf_releaseBegun]
  · rw [engOf_of_ctrl hc, latchedOn, engOf_updTask, engOf_setEng_other (by omega), engOf_releaseBegun]
  · rw [ee]
    exact takeSample_dos _

/-- Settles O36: releases, skips and applied outputs, each by what its function does. -/
theorem taskEventsComplete : Obligations.TaskEventsComplete := by
  unfold Obligations.TaskEventsComplete
  refine ⟨?_, ?_, ?_⟩
  · intro dt e k d x s hq hd hx hw ht hm htick hi ha hc hs hr
    have hrow : exec (.taskRelease dt e k) s = .next (taskRelease e k (elapse dt s)) := row_of_follows hq fun u => follows_taskRelease (.refl _)
    have hct := elapse_ctrl hq.nothingWaits dt
    obtain ⟨hone, hdk⟩ := taskRelease_alone (s := elapse dt s) (e := e) (k := k) (by rwa [elapse_read (taskDef · e k) (fun _ _ _ => rfl) hq dt])
      (by rwa [taskSt_elapse hq]) (by rwa [elapse_sys hq.nothingWaits]) htick hi ha
    have hxe : taskSt (elapse dt s) e d.task = some x := by rwa [hdk, taskSt_elapse hq]
    have hre : runOf (elapse dt s) e d.task = none := by rwa [hdk, elapse_read (runOf · e k) (fun _ _ _ => rfl) hq dt]
    rw [hone, releaseOne_free (by rwa [elapse_read tasksExecute (fun _ _ _ => rfl) hq dt]) hxe hw (by rwa [hct]) (by rwa [hct]), hre] at hrow
    obtain ⟨⟨im, hst⟩, hru, hot, hdo⟩ := executeRelease_begun hxe (instantMarked (monoUs (elapse dt s)) x) (tickUs (elapse dt s)) (monoUs (elapse dt s))
    rw [engOf_elapse hq] at hru hot
    rw [elapse_pio hq.nothingWaits] at hdo
    rw [hdk] at hst
    exact ⟨_, _, _, hrow, hst, rfl, rfl, rfl, rfl, rfl, hw, hru, hdk, rfl, rfl, rfl, rfl, rfl, hot, hdo⟩
  · intro dt e k d x s hq hd hx hw ht hm htick hi ha hc hs hr
    have hrow : exec (.taskRelease dt e k) s = .next (taskRelease e k (elapse dt s)) := row_of_follows hq fun u => follows_taskRelease (.refl _)
    have hct := elapse_ctrl hq.nothingWaits dt
    obtain ⟨hone, hdk⟩ := taskRelease_alone (s := elapse dt s) (e := e) (k := k) (by rwa [elapse_read (taskDef · e k) (fun _ _ _ => rfl) hq dt])
      (by rwa [taskSt_elapse hq]) (by rwa [elapse_sys hq.nothingWaits]) htick hi ha
    have hxe : taskSt (elapse dt s) e d.task = some x := by rwa [hdk, taskSt_elapse hq]
    have hre : (runOf (elapse dt s) e d.task).isSome = true := by rwa [hdk, elapse_read (runOf · e k) (fun _ _ _ => rfl) hq dt]
    rw [hone, releaseOne_free (by rwa [elapse_read tasksExecute (fun _ _ _ => rfl) hq dt]) hxe hw (by rwa [hct]) (by rwa [hct]),
      if_pos hre] at hrow
    obtain ⟨y, hy, hsk, hov, hcy, ho, hmo, hab, hen⟩ := skipRelease_shape (taskSt_releaseBegun (s := elapse dt s) hxe) hw
    rw [releaseBegun_ctrl, updTask_ctrl, hct] at ho hab hen
    rw [hdk] at hy
    exact ⟨_, y, hrow, hy, hsk, hov, hcy, ho, hmo, hab, hen⟩
  · intro dt b s hq hb
    have hrow : exec (.outputApply dt) s = .next (outputApply (elapse dt s)) := row_of_seen hq seen_outputApply
    have hct := elapse_ctrl hq.nothingWaits dt
    rw [outputApply_running (by rwa [hct]), hct] at hrow
    obtain ⟨p, v, ev, e⟩ : OutputsWritten (elapse dt s) ((s.ctrl.tasks.filter (·.toApply)).foldl (fun s x => applyTask b x s) (elapse dt s)) :=
      .foldl (fun _ _ => applyTask_written ..) _ _
    refine ⟨_, hrow, ?_, ?_, fun x o hone hdr ho => ?_⟩
    · rw [e, updCtrl, hct]; rfl
    · rw [e]; exact elapse_sys hq.nothingWaits dt
    · rw [hone, List.foldl_cons, List.foldl_nil]
      have hdr' : drives (elapse dt s) x.engine x.task = true := by rwa [elapse_read (drives · x.engine x.task) (fun _ _ _ => rfl) hq dt]
      refine ⟨fun h3 h8 => ?_, fun i h1 hi hp hf => ?_⟩
      · rw [applyTask_axis hdr' ho h3]
        refine ⟨?_, elapse_pio hq.nothingWaits dt⟩
        simp only [updCtrl, setAxis, elapse_vax hq.nothingWaits, elapse_read (axisOf · o.index) (fun _ _ _ => rfl) hq dt]
      · have hio := elapse_pio hq.nothingWaits dt
        obtain ⟨d, ep, hl, hs⟩ := publishDo_driven (i := i) (v := bit (ofLE (slice x.landOut o.imgOff (destLen 1))) 0) (s := elapse dt s)
          (by rwa [pairOutput_elapse hq]) (by rwa [hio])
        rw [applyTask_do hdr' ho h1, hi, ep]
        have hi' := vget_vset_self i.isLt (elapse dt s).pio.dos d DOut.reset
        rw [vget_fin] at hi'
        refine ⟨(congrArg DOut.level hi').trans hl, (congrArg DOut.safe hi').trans hs, fun j hj => ?_, elapse_vax hq.nothingWaits dt⟩
        have hj' := vget_vset_ne (fun h => hj (Fin.ext h.symm)) (elapse dt s).pio.dos d DOut.reset (i := i) (j := j)
        rw [vget_fin, vget_fin, hio] at hj'
        simpa only [updCtrl, hio] using hj'


end Sys2Proof.Machine


/-! Valve actuators: profile periods, stalls, drive faults and standstill (R387 to R407). -/

namespace Sys2Proof.Machine

/-! ### One axis among the eight -/

@[simp] theorem axisOf_setAxis_self (a : Fin 8) (x : Axis) (s : State) : axisOf (setAxis a x s) a = x := vget_vset_self a.isLt ..

theorem axisOf_setAxis_ne {a b : Fin 8} (h : b ≠ a) (x : Axis) (s : State) : axisOf (setAxis a x s) b = axisOf s b :=
  vget_vset_ne (fun e => h (Fin.ext e.symm)) ..

/-- From `s` to `t` one axis has moved on, and nothing but it has changed besides the commands that the host waits for, the
counters of the block, and what is recorded and transferred. -/
def AxisMoved (a : Fin 8) (s t : State) : Prop :=
  (∀ b : Fin 8, b ≠ a → axisOf t b = axisOf s b) ∧ t.pio = s.pio ∧ t.ctrl = s.ctrl

theorem AxisMoved.refl (a : Fin 8) (s : State) : AxisMoved a s s := ⟨fun _ _ => rfl, rfl, rfl⟩

theorem AxisMoved.trans {a : Fin 8} {s t u : State} (h : AxisMoved a s t) (h' : AxisMoved a t u) : AxisMoved a s u := by
  obtain ⟨hb, hp, hc⟩ := h
  obtain ⟨hb', hp', hc'⟩ := h'
  exact ⟨fun b n => (hb' b n).trans (hb b n), hp'.trans hp, hc'.trans hc⟩

theorem AxisMoved.of_elapse {a : Fin 8} {s t : State} (hq : Quiet s) {dt : Nat} (h : AxisMoved a (elapse dt s) t) :
    AxisMoved a s t := by
  obtain ⟨hb, hp, hc⟩ := h
  refine ⟨fun b n => (hb b n).trans (elapse_read (axisOf · b) (fun _ _ _ => rfl) hq dt), ?_, ?_⟩
  · rw [hp, elapse_pio hq.nothingWaits]
  · rw [hc, elapse_ctrl hq.nothingWaits]

theorem setAxis_moved (a : Fin 8) (x : Axis) (s : State) : AxisMoved a s (setAxis a x s) :=
  ⟨fun _ n => axisOf_setAxis_ne n .., rfl, rfl⟩

theorem AxisMoved.setAxis {a : Fin 8} {s t : State} (h : AxisMoved a s t) (x : Axis) : AxisMoved a s (setAxis a x t) :=
  h.trans (setAxis_moved ..)

theorem hostDone_vax (a outcome : Nat) (s : State) :
    (hostDone a outcome s).vax = { s.vax with axes := vset s.vax.axes a { axisOf s a with host := none } } := by
  simp only [hostDone]
  split
  next h =>
    have hx : { axisOf s a with host := none } = axisOf s a := by
      rw [← Option.isNone_iff_eq_none.1 h]
    rw [hx, axisOf, vset_vget]
  next => rw [completeAll_vax]; rfl

theorem axisOf_hostDone_self (a : Fin 8) (outcome : Nat) (s : State) :
    axisOf (hostDone a outcome s) a = { axisOf s a with host := none } := by
  rw [axisOf, hostDone_vax, vget_vset_self a.isLt]

theorem hostDone_moved (a : Fin 8) (outcome : Nat) (s : State) : AxisMoved a s (hostDone a outcome s) := by
  refine ⟨fun b n => ?_, ?_, ?_⟩
  · rw [axisOf, hostDone_vax, vget_vset_ne fun e => n (Fin.ext e.symm)]; rfl
  all_goals obtain ⟨_, _, _, e⟩ := hostDone_axes a outcome s; rw [e]

theorem hostDone_stalls (a outcome : Nat) (s : State) : (hostDone a outcome s).vax.stalls = s.vax.stalls := by rw [hostDone_vax]

theorem hostDone_homings (a outcome : Nat) (s : State) : (hostDone a outcome s).vax.homings = s.vax.homings := by rw [hostDone_vax]

theorem hostDone_driveFaults (a outcome : Nat) (s : State) : (hostDone a outcome s).vax.driveFaults = s.vax.driveFaults := by
  rw [hostDone_vax]

theorem post_moved (a : Fin 8) (code index : Nat) (data : Bytes) (keyId : Nat) (s : State) :
    AxisMoved a s (post code index data keyId s) := ⟨fun _ _ => rfl, rfl, rfl⟩

/-! ### What an axis reads is as it was when time has passed -/

section
variable {s : State} (h : Quiet s) (dt : Nat)
include h

theorem axisOf_elapse (a : Nat) : axisOf (elapse dt s) a = axisOf s a := elapse_read (axisOf · a) (fun _ _ _ => rfl) h dt

theorem vaxP_elapse (a j : Nat) : vaxP (elapse dt s) a j = vaxP s a j := getP_elapse h ..

theorem vaxRuns_elapse : vaxRuns (elapse dt s) = vaxRuns s := pioRuns_elapse h dt

theorem slow_elapse (a : Nat) (v : Int) : slow (elapse dt s) a v = slow s a v := elapse_read (slow · a v) (fun _ _ _ => rfl) h dt

theorem stallSeen_elapse (a : Nat) (x : Axis) : stallSeen (elapse dt s) a x = stallSeen s a x :=
  elapse_read (stallSeen · a x) (fun _ _ _ => rfl) h dt

theorem axisEnabled_elapse (a : Nat) : axisEnabled (elapse dt s) a = axisEnabled s a :=
  elapse_read (axisEnabled · a) (fun _ _ _ => rfl) h dt

theorem homeMethod_elapse (a : Nat) : homeMethod (elapse dt s) a = homeMethod s a :=
  elapse_read (homeMethod · a) (fun _ _ _ => rfl) h dt

theorem regulated_elapse (a : Nat) (x : Axis) : regulated (elapse dt s) a x = regulated s a x :=
  elapse_read (regulated · a x) (fun _ _ _ => rfl) h dt

theorem electricalAngle_elapse (a : Nat) (x : Axis) : electricalAngle (elapse dt s) a x = electricalAngle s a x :=
  elapse_read (electricalAngle · a x) (fun _ _ _ => rfl) h dt

theorem meanCurrent_elapse (a : Nat) (v : Vector (BitVec 12) 5) : meanCurrent (elapse dt s) a v = meanCurrent s a v :=
  elapse_read (meanCurrent · a v) (fun _ _ _ => rfl) h dt

theorem currentF32_elapse (a : Nat) (v : Vector (BitVec 12) 5) : currentF32 (elapse dt s) a v = currentF32 s a v :=
  elapse_read (currentF32 · a v) (fun _ _ _ => rfl) h dt

theorem gain_elapse (a supply kind : Nat) : gain (elapse dt s) a supply kind = gain s a supply kind :=
  elapse_read (gain · a supply kind) (fun _ _ _ => rfl) h dt

end

/-! ### What a period issues and measures (R388 to R394, R398) -/

/-- What issuing, measuring and resting leave of an axis: its goal, the target, the state, a homing that is not in progress. -/
theorem issue_kept (s : State) (a : Nat) (v : Int) (x : Axis) :
    (issue s a v x).state = x.state ∧ (issue s a v x).goal = x.goal ∧ (issue s a v x).target = x.target ∧
      (issue s a v x).record = x.record ∧ (issue s a v x).sumA = x.sumA ∧ (issue s a v x).sumB = x.sumB := ⟨rfl, rfl, rfl, rfl, rfl, rfl⟩

theorem issue_home {s : State} {a : Nat} {v : Int} {x : Axis} (h : x.home = none) : (issue s a v x).home = none := by
  simp [issue, h]

/-- A position in fractions of a microstep is its whole part and its remainder. -/
theorem stepUnits_split (p f v : Int) : (p + (f + v).tdiv stepUnit) * stepUnit + (f + v).tmod stepUnit = p * stepUnit + f + v := by
  have h := Int.mul_tdiv_add_tmod (f + v) stepUnit
  linarith

/-- Above start speed nothing stops at a barrier within the period (R393). -/
theorem issue_fast {s : State} {a : Nat} {v : Int} {x : Axis} (h : slow s a v = false) :
    (issue s a v x).pos * stepUnit + (issue s a v x).frac = x.pos * stepUnit + x.frac + v ∧ (issue s a v x).vel = v ∧
      (issue s a v x).acc = v - x.vel := by
  cases hb : barrier s a x v with
  | none => simp [issue, hb, stepUnits_split]
  | some t => simp [issue, hb, h, stepUnits_split]

/-- At start speed or below a move stands exactly at the target that it reaches (R393, R394). -/
theorem issue_arrives {s : State} {a : Nat} {v : Int} {x : Axis} (hs : x.state = .moving) (hm : x.goal.mode = 1)
    (hv : slow s a v = true) (pos : 0 < v) (hp : x.pos ≤ x.target) (hlo : x.pos * stepUnit + x.frac ≤ x.target * stepUnit)
    (hhi : x.target * stepUnit ≤ x.pos * stepUnit + x.frac + v) :
    (issue s a v x).pos = x.target ∧ (issue s a v x).frac = 0 ∧ (issue s a v x).vel = 0 ∧
      (issue s a v x).fwd = x.fwd + BitVec.ofInt 32 (x.target - x.pos) := by
  have hb : barrier s a x v = some x.target := by simp [barrier, hs, hm]
  have hne : v ≠ 0 := by omega
  obtain ⟨n, hn⟩ := Int.eq_ofNat_of_zero_le (sub_nonneg.2 hp)
  have hs : issue s a v x = { x with
      pos := x.pos + (x.target - x.pos), frac := 0, vel := 0, acc := 0 - x.vel,
      fwd := if 0 < x.target - x.pos then x.fwd + BitVec.ofNat 32 (x.target - x.pos).natAbs else x.fwd,
      rev := if x.target - x.pos < 0 then x.rev + BitVec.ofNat 32 (x.target - x.pos).natAbs else x.rev,
      home := x.home.map fun h => { h with issued := h.issued + (x.target - x.pos).natAbs },
      limit := x.limit || x.goal.mode == 2 } := by
    simp [issue, hb, hv, hlo, hhi, pos, hne]
  rw [hs]
  refine ⟨by simp, rfl, rfl, ?_⟩
  simp only [hn]
  rcases Nat.eq_zero_or_pos n with rfl | hpos
  · simp
  · rw [if_pos (by omega)]
    simp

/-- Where an axis stands and how it moves: what a measurement leaves as it was. -/
def Axis.motion (x : Axis) : Int × Int × Int × Int × AxisState × Goal × Option Homing × Int × W32 :=
  (x.pos, x.frac, x.vel, x.acc, x.state, x.goal, x.home, x.target, x.fwd)

/-- The currents of an axis, and what its bridges are driven with. -/
def Axis.currents (x : Axis) : W32 × W32 × Int × Int × Nat × Nat := (x.iA, x.iB, x.setA, x.setB, x.highA, x.highB)

theorem addLost_motion (g : Int) (x : Axis) : (addLost g x).motion = x.motion := rfl

theorem addLost_currents (g : Int) (x : Axis) : (addLost g x).currents = x.currents := rfl

/-- The load angle of a period and its run, before what is due of lost microsteps. -/
def withAngle (s : State) (a : Nat) (g : Option Int) (x : Axis) : Axis :=
  match g with
  | none => { x with estValid := false, aboveRun := 0 }
  | some g =>
    let turn := wrapDegrees (g - x.gammaLast)
    { x with
        estValid := true, gamma := BitVec.ofNat 32 (Fp.ofRatio f32 g (2 ^ 32)), gammaLast := g,
        gammaU := if g < stallAngle s a then g else x.gammaU + turn, aboveRun := if stallAngle s a < g then x.aboveRun + 1 else 0,
        stallOpen := x.stallOpen.map fun p => (p.1 + turn, if g < stallAngle s a then p.2 + 1 else 0) }

/-- The estimate that is due after a stall that did not stop the motion, taken. -/
def withLost (y : Axis) : Axis :=
  match y.stallOpen with
  | some (u, n) => if 16 ≤ n ∨ y.vel = 0 then addLost u y else y
  | none => y

theorem takeAngle_eq (s : State) (a : Nat) (g : Option Int) (x : Axis) : takeAngle s a g x = withLost (withAngle s a g x) := rfl

theorem motion_angles (x : Axis) (ev : Bool) (ga : W32) (gl gu : Int) (ar : Nat) (so : Option (Int × Nat)) :
    { x with estValid := ev, gamma := ga, gammaLast := gl, gammaU := gu, aboveRun := ar, stallOpen := so }.motion = x.motion ∧
      { x with estValid := ev, gamma := ga, gammaLast := gl, gammaU := gu, aboveRun := ar, stallOpen := so }.currents = x.currents :=
  ⟨rfl, rfl⟩

theorem withAngle_kept (s : State) (a : Nat) (g : Option Int) (x : Axis) :
    (withAngle s a g x).motion = x.motion ∧ (withAngle s a g x).currents = x.currents := by
  cases g with
  | none => exact motion_angles x false x.gamma x.gammaLast x.gammaU 0 x.stallOpen
  | some g => exact motion_angles x true ..

theorem withLost_kept (y : Axis) : (withLost y).motion = y.motion ∧ (withLost y).currents = y.currents := by
  unfold withLost
  split
  · split <;> exact ⟨rfl, rfl⟩
  · exact ⟨rfl, rfl⟩

/-- A load angle moves no axis and drives no current (R398, R400). -/
theorem takeAngle_kept (s : State) (a : Nat) (g : Option Int) (x : Axis) :
    (takeAngle s a g x).motion = x.motion ∧ (takeAngle s a g x).currents = x.currents := by
  obtain ⟨hm, hc⟩ := withLost_kept (withAngle s a g x)
  obtain ⟨hm', hc'⟩ := withAngle_kept s a g x
  rw [takeAngle_eq]
  exact ⟨hm.trans hm', hc.trans hc'⟩

/-- The set currents of a period, and its mean currents as they are published. -/
def withCurrents (s : State) (a : Nat) (m : AxisPeriod) (x : Axis) : Axis :=
  let i : Int := setCurrent s a x
  let ma := meanCurrent s a m.iA
  let mb := meanCurrent s a m.iB
  { x with
      setA := i * (sinCos (electricalAngle s a x)).2, setB := i * (sinCos (electricalAngle s a x)).1, meanA := ma, meanB := mb,
      iA := BitVec.ofNat 32 (currentF32 s a m.iA), iB := BitVec.ofNat 32 (currentF32 s a m.iB),
      openRun := if 0 < i ∧ 4 * (ma * ma + mb * mb) < i * i * 2 ^ 80 then x.openRun + 1 else 0 }

/-- The answer of a regulator of an axis to a set and a mean current. -/
def answer (s : State) (a : Nat) (m : AxisPeriod) (set_ mean sum : Int) : Int × Nat :=
  regulate (gain s a m.supply 71) (gain s a m.supply 72) (set_ - mean) sum

/-- What the bridges of an axis are driven with. -/
def withDuties (s : State) (a : Nat) (m : AxisPeriod) (x : Axis) : Axis :=
  if regulated s a x then
    { x with
        sumA := (answer s a m x.setA (meanCurrent s a m.iA) x.sumA).1, sumB := (answer s a m x.setB (meanCurrent s a m.iB) x.sumB).1,
        highA := (answer s a m x.setA (meanCurrent s a m.iA) x.sumA).2, highB := (answer s a m x.setB (meanCurrent s a m.iB) x.sumB).2 }
  else { x with sumA := 0, sumB := 0, highA := 0, highB := 0 }

theorem regulatePeriod_eq (s : State) (a : Nat) (m : AxisPeriod) (x : Axis) :
    regulatePeriod s a m x = withDuties s a m (withCurrents s a m x) := rfl

theorem withDuties_motion (s : State) (a : Nat) (m : AxisPeriod) (x : Axis) : (withDuties s a m x).motion = x.motion := by
  unfold withDuties
  split <;> rfl

theorem withDuties_kept (s : State) (a : Nat) (m : AxisPeriod) (x : Axis) :
    (withDuties s a m x).iA = x.iA ∧ (withDuties s a m x).iB = x.iB ∧ (withDuties s a m x).setA = x.setA ∧
      (withDuties s a m x).setB = x.setB := by
  unfold withDuties
  split <;> exact ⟨rfl, rfl, rfl, rfl⟩

/-- The regulators of a regulated axis answer its currents (R389, R390). -/
theorem withDuties_regulated {s : State} {a : Nat} {x : Axis} (h : regulated s a x = true) (m : AxisPeriod) :
    (withDuties s a m x).highA = (answer s a m x.setA (meanCurrent s a m.iA) x.sumA).2 ∧
      (withDuties s a m x).highB = (answer s a m x.setB (meanCurrent s a m.iB) x.sumB).2 := by
  rw [withDuties, if_pos h]
  exact ⟨rfl, rfl⟩

theorem motion_currents (x : Axis) (sa sb ma mb : Int) (ia ib : W32) (n : Nat) :
    { x with setA := sa, setB := sb, meanA := ma, meanB := mb, iA := ia, iB := ib, openRun := n }.motion = x.motion := rfl

theorem withCurrents_motion (s : State) (a : Nat) (m : AxisPeriod) (x : Axis) : (withCurrents s a m x).motion = x.motion :=
  motion_currents x ..

theorem sums_currents (x : Axis) (sa sb ma mb : Int) (ia ib : W32) (n : Nat) :
    { x with setA := sa, setB := sb, meanA := ma, meanB := mb, iA := ia, iB := ib, openRun := n }.sumA = x.sumA ∧
      { x with setA := sa, setB := sb, meanA := ma, meanB := mb, iA := ia, iB := ib, openRun := n }.sumB = x.sumB := ⟨rfl, rfl⟩

theorem withCurrents_sums (s : State) (a : Nat) (m : AxisPeriod) (x : Axis) :
    (withCurrents s a m x).sumA = x.sumA ∧ (withCurrents s a m x).sumB = x.sumB :=
  sums_currents x ..

theorem regulated_currents (s : State) (a : Nat) (x : Axis) (sa sb ma mb : Int) (ia ib : W32) (n : Nat) :
    regulated s a { x with setA := sa, setB := sb, meanA := ma, meanB := mb, iA := ia, iB := ib, openRun := n } = regulated s a x := rfl

theorem regulated_withCurrents (s : State) (a : Nat) (m : AxisPeriod) (x : Axis) :
    regulated s a (withCurrents s a m x) = regulated s a x :=
  regulated_currents s a x ..

theorem currents_eq {x y : Axis} (h : x.currents = y.currents) :
    x.iA = y.iA ∧ x.iB = y.iB ∧ x.setA = y.setA ∧ x.setB = y.setB ∧ x.highA = y.highA ∧ x.highB = y.highB := by
  simpa only [Axis.currents, Prod.mk.injEq] using h

theorem regulatePeriod_motion (s : State) (a : Nat) (m : AxisPeriod) (x : Axis) : (regulatePeriod s a m x).motion = x.motion := by
  rw [regulatePeriod_eq, withDuties_motion, withCurrents_motion]

/-- Measuring moves no axis (R388 to R390, R398). -/
theorem measure_motion (s : State) (a : Nat) (m : AxisPeriod) (x : Axis) : (measure s a m x).motion = x.motion :=
  (takeAngle_kept ..).1.trans (regulatePeriod_motion ..)

theorem measure_currents (s : State) (a : Nat) (m : AxisPeriod) (x : Axis) :
    (measure s a m x).currents = (withDuties s a m (withCurrents s a m x)).currents :=
  (takeAngle_kept ..).2

/-- The currents that a period takes and sets, and the duties that answer them (R389, R390). -/
theorem measure_sets (s : State) (a : Nat) (m : AxisPeriod) (x : Axis) :
    (measure s a m x).iA = BitVec.ofNat 32 (currentF32 s a m.iA) ∧ (measure s a m x).iB = BitVec.ofNat 32 (currentF32 s a m.iB) ∧
      (measure s a m x).setA = setCurrent s a x * (sinCos (electricalAngle s a x)).2 ∧
      (measure s a m x).setB = setCurrent s a x * (sinCos (electricalAngle s a x)).1 := by
  have h := measure_currents s a m x
  simp only [Axis.currents, Prod.mk.injEq] at h
  obtain ⟨hia, hib, hsa, hsb, -, -⟩ := h
  obtain ⟨ka, kb, ksa, ksb⟩ := withDuties_kept s a m (withCurrents s a m x)
  exact ⟨hia.trans ka, hib.trans kb, hsa.trans ksa, hsb.trans ksb⟩

theorem measure_duties {s : State} {a : Nat} {x : Axis} (h : regulated s a x = true) (m : AxisPeriod) :
    (measure s a m x).highA =
        (answer s a m (setCurrent s a x * (sinCos (electricalAngle s a x)).2) (meanCurrent s a m.iA) x.sumA).2 ∧
      (measure s a m x).highB =
        (answer s a m (setCurrent s a x * (sinCos (electricalAngle s a x)).1) (meanCurrent s a m.iB) x.sumB).2 := by
  have e := measure_currents s a m x
  simp only [Axis.currents, Prod.mk.injEq] at e
  obtain ⟨-, -, -, -, ha, hb⟩ := e
  obtain ⟨ka, kb⟩ := withDuties_regulated ((regulated_withCurrents s a m x).trans h) m
  obtain ⟨sa, sb⟩ := withCurrents_sums s a m x
  rw [sa] at ka
  rw [sb] at kb
  exact ⟨ha.trans ka, hb.trans kb⟩

/-! ### A profile period (R388, R394) -/

theorem axisParams_moving {s : State} {a : Nat} (h : (axisOf s a).state = .moving) : axisParams a s = s := by
  simp [axisParams, h]

theorem transfer_vax (src : Nat) (port : GPort) (len : Nat) (s : State) : (transfer src port len s).vax = s.vax := by
  obtain ⟨_, e⟩ := transfer_shape src port len s
  rw [e]

/-- What ends a profile period: the axis has its status, which is transferred (R408). -/
def periodDone (a : Nat) (us : Nat) (s : State) : State :=
  setAxis a { axisOf s a with status := axisStatus s a (axisOf s a), statusPrev := (axisOf s a).status, periodUs := some us }
    (transfer iMotion (.bank 3) 64 s)

theorem kept_status (x : Axis) (now before : Bytes) (us : Option Nat) :
    { x with status := now, statusPrev := before, periodUs := us }.motion = x.motion ∧
      { x with status := now, statusPrev := before, periodUs := us }.currents = x.currents ∧
      { x with status := now, statusPrev := before, periodUs := us }.atTarget = x.atTarget ∧
      { x with status := now, statusPrev := before, periodUs := us }.periodUs = us := ⟨rfl, rfl, rfl, rfl⟩

/-- The end of a period leaves where the axis stands and what its bridges are driven with. -/
theorem axisOf_periodDone (a : Fin 8) (us : Nat) (s : State) :
    (axisOf (periodDone a us s) a).motion = (axisOf s a).motion ∧ (axisOf (periodDone a us s) a).currents = (axisOf s a).currents ∧
      (axisOf (periodDone a us s) a).atTarget = (axisOf s a).atTarget ∧ (axisOf (periodDone a us s) a).periodUs = some us := by
  rw [periodDone, axisOf_setAxis_self]
  exact kept_status (axisOf s a) ..

theorem periodDone_moved (a : Fin 8) (us : Nat) (s : State) : AxisMoved a s (periodDone a us s) := by
  obtain ⟨_, e⟩ := transfer_shape iMotion (.bank 3) 64 s
  rw [periodDone, e]
  exact ⟨fun _ n => axisOf_setAxis_ne n .., rfl, rfl⟩

/-- A profile period of an axis on the move without a record: it issues and measures, and rests or goes on with its homing. -/
theorem profilePeriod_moving {s : State} {a : Nat} {m : AxisPeriod} (hr : vaxRuns s = true) (ht : monoUs s % 40 = 0)
    (hp : (axisOf s a).periodUs ≠ some (monoUs s)) (hrec : (axisOf s a).record = none) (hm : (axisOf s a).state = .moving)
    (hc : conforms s a (axisOf s a) m.vel = true) :
    profilePeriod a m s = periodDone a (monoUs s)
      (homeStep a (restCheck a (setAxis a (measure s a m (issue s a m.vel (axisOf s a))) s))) := by
  unfold profilePeriod
  simp [hr, ht, hp, axisParams_moving hm, hrec, hc, periodDone]

/-- An axis that moves on to a position does not rest (R394). -/
theorem restCheck_goesOn {s : State} {a : Nat} (hv : (axisOf s a).vel ≠ 0) (hm : (axisOf s a).goal.mode = 1) : restCheck a s = s := by
  simp [restCheck, hv, hm]

/-- One that stands at its position has come to rest (R394). -/
theorem restCheck_arrived {s : State} {a : Nat} (hv : (axisOf s a).vel = 0) (hs : (axisOf s a).state = .moving)
    (hm : (axisOf s a).goal.mode = 1) (hp : (axisOf s a).pos = (axisOf s a).target) (hf : (axisOf s a).frac = 0) :
    restCheck a s = hostDone a 0 (setAxis a { comeToRest s a (axisOf s a) with atTarget := true } s) := by
  simp [restCheck, hv, hs, hm, hp, hf]

theorem homeStep_none {s : State} {a : Nat} (h : (axisOf s a).home = none) : homeStep a s = s := by
  simp [homeStep, h]

theorem motion_eq {x y : Axis} (h : x.motion = y.motion) :
    x.pos = y.pos ∧ x.frac = y.frac ∧ x.vel = y.vel ∧ x.acc = y.acc ∧ x.state = y.state ∧ x.goal = y.goal ∧ x.home = y.home ∧
      x.target = y.target ∧ x.fwd = y.fwd := by
  simpa only [Axis.motion, Prod.mk.injEq] using h

theorem periodDone_evr (a : Nat) (us : Nat) (s : State) : (periodDone a us s).evr = s.evr := by
  obtain ⟨_, e⟩ := transfer_shape iMotion (.bank 3) 64 s
  rw [periodDone, e]
  rfl

/-- A period of an axis that moves to a position and does not reach it (R393, R401). -/
theorem profilePeriod_goesOn {s : State} {a : Fin 8} {m : AxisPeriod} (hr : vaxRuns s = true) (ht : monoUs s % 40 = 0)
    (hp : (axisOf s a).periodUs ≠ some (monoUs s)) (hrec : (axisOf s a).record = none) (hh : (axisOf s a).home = none)
    (hs : (axisOf s a).state = .moving) (hm : (axisOf s a).goal.mode = 1) (hc : conforms s a (axisOf s a) m.vel = true)
    (hv : slow s a m.vel = false) :
    profilePeriod a m s =
      periodDone a (monoUs s) (setAxis a (measure s a m (issue s a m.vel (axisOf s a))) s) := by
  obtain ⟨-, hvel, -⟩ := issue_fast (x := axisOf s a) hv
  obtain ⟨-, -, kvel, -, -, kgoal, khome, -, -⟩ := motion_eq (measure_motion s a m (issue s a m.vel (axisOf s a)))
  have hne : m.vel ≠ 0 := fun h => by simp [slow, h] at hv
  rw [profilePeriod_moving hr ht hp hrec hs hc, restCheck_goesOn, homeStep_none]
  · rw [axisOf_setAxis_self, khome, issue_home hh]
  · rw [axisOf_setAxis_self, kvel, hvel]; exact hne
  · rw [axisOf_setAxis_self, kgoal]; exact hm

theorem kept_rest (x : Axis) (us still : Nat) :
    { x with vel := 0, acc := 0, state := .standstill, restUs := us, still := still, atTarget := true }.pos = x.pos ∧
      { x with vel := 0, acc := 0, state := .standstill, restUs := us, still := still, atTarget := true }.frac = x.frac ∧
      { x with vel := 0, acc := 0, state := .standstill, restUs := us, still := still, atTarget := true }.vel = 0 ∧
      { x with vel := 0, acc := 0, state := .standstill, restUs := us, still := still, atTarget := true }.state = .standstill ∧
      { x with vel := 0, acc := 0, state := .standstill, restUs := us, still := still, atTarget := true }.atTarget = true ∧
      { x with vel := 0, acc := 0, state := .standstill, restUs := us, still := still, atTarget := true }.fwd = x.fwd :=
  ⟨rfl, rfl, rfl, rfl, rfl, rfl⟩

/-- An axis at rest at its target: where it stands. -/
theorem rested_facts (s : State) (a : Nat) (x : Axis) {y : Axis} (hy : y = { comeToRest s a x with atTarget := true }) :
    y.pos = x.pos ∧ y.frac = x.frac ∧ y.vel = 0 ∧ y.state = .standstill ∧ y.atTarget = true ∧ y.fwd = x.fwd := by
  rw [hy]
  exact kept_rest x ..

theorem kept_host (x : Axis) : { x with host := none }.motion = x.motion ∧ { x with host := none }.atTarget = x.atTarget := ⟨rfl, rfl⟩

/-- A period in which an axis reaches its position at start speed (R393, R394). -/
theorem profilePeriod_arrives {s : State} {a : Fin 8} {m : AxisPeriod} (hr : vaxRuns s = true) (ht : monoUs s % 40 = 0)
    (hp : (axisOf s a).periodUs ≠ some (monoUs s)) (hrec : (axisOf s a).record = none) (hh : (axisOf s a).home = none)
    (hs : (axisOf s a).state = .moving) (hm : (axisOf s a).goal.mode = 1) (hc : conforms s a (axisOf s a) m.vel = true)
    (hv : slow s a m.vel = true) (pos : 0 < m.vel) (htgt : (axisOf s a).pos ≤ (axisOf s a).target)
    (hlo : (axisOf s a).pos * stepUnit + (axisOf s a).frac ≤ (axisOf s a).target * stepUnit)
    (hhi : (axisOf s a).target * stepUnit ≤ (axisOf s a).pos * stepUnit + (axisOf s a).frac + m.vel) {y z : Axis}
    (hy : y = measure s a m (issue s a m.vel (axisOf s a))) (hz : z = { comeToRest (setAxis a y s) a y with atTarget := true }) :
    profilePeriod a m s =
      periodDone a (monoUs s) (hostDone a 0 (setAxis a z (setAxis a y s))) := by
  obtain ⟨hpos, hfrac, hvel, -⟩ := issue_arrives hs hm hv pos htgt hlo hhi
  obtain ⟨kpos, kfrac, kvel, -, kst, kgoal, khome, ktgt, -⟩ := motion_eq (measure_motion s a m (issue s a m.vel (axisOf s a)))
  rw [← hy] at kpos kfrac kvel kst kgoal khome ktgt
  rw [profilePeriod_moving hr ht hp hrec hs hc, ← hy, restCheck_arrived, axisOf_setAxis_self, ← hz, homeStep_none]
  · rw [axisOf_hostDone_self, axisOf_setAxis_self, hz]
    exact khome.trans (issue_home hh)
  · rw [axisOf_setAxis_self, kvel, hvel]
  · rw [axisOf_setAxis_self, kst]; exact hs
  · rw [axisOf_setAxis_self, kgoal]; exact hm
  · rw [axisOf_setAxis_self, kpos, ktgt, hpos]; rfl
  · rw [axisOf_setAxis_self, kfrac, hfrac]

/-! ### Stalls (R398 to R400, R405, R406) -/

theorem countStall_moved (a : Fin 8) (s : State) : AxisMoved a s (countStall a s) := ⟨fun _ n => axisOf_setAxis_ne n .., rfl, rfl⟩

theorem vaxP_setAxis (a b j : Nat) (x : Axis) (s : State) : vaxP (setAxis a x s) b j = vaxP s b j := rfl

theorem vaxP_post (b j code index : Nat) (d : Bytes) (k : Nat) (s : State) : vaxP (post code index d k s) b j = vaxP s b j := rfl

theorem vaxP_countStall (a b j : Nat) (s : State) : vaxP (countStall a s) b j = vaxP s b j := rfl

/-- A stall outside a homing whose STALL_ACTION stops the axis. -/
theorem stall_stops {s : State} {a : Fin 8} (hr : vaxRuns s = true) (hv : (axisOf s a).vel ≠ 0) (hs : (axisOf s a).state = .moving)
    (hseen : stallSeen s a (axisOf s a) = true) (ho : outranked s 4 (axisOf s a) = false) (hh : (axisOf s a).home = none)
    (hact : bits (vaxP s a 0) 19 18 ≠ 0) {d : Bytes} {x : Axis}
    (hd : d = le 4 (unsgn 32 (axisOf s a).pos) ++ le 4 (Fp.ofRatio f32 (axisOf s a).gammaU (2 ^ 32)) ++
      le 4 (unsgn 32 ((axisOf s a).vel / 2 ^ 32)))
    (hx : x = ranked s 4 { axisOf s a with stalls := (axisOf s a).stalls + 1, aboveRun := 0 }) :
    stall a s = hostDone a 4 (setAxis a
      { addLost (axisOf s a).gammaU (comeToRest s a { x with goal := Goal.stop }) with
        stallLatched := x.stallLatched || bits (vaxP s a 0) 19 18 == 2 }
      (setAxis a x (post 0x0B01 a d 0 (countStall a s)))) := by
  have hcount : axisOf (post 0x0B01 a d 0 (countStall a s)) a =
      { axisOf s a with stalls := (axisOf s a).stalls + 1, aboveRun := 0 } := axisOf_setAxis_self ..
  have hranked : ranked (post 0x0B01 a d 0 (countStall a s)) 4 (axisOf (post 0x0B01 a d 0 (countStall a s)) a) = x := by
    rw [hcount, hx]; rfl
  have hxh : x.home = none := by rw [hx]; exact hh
  have hend : endHoming a 3 (setAxis a x (post 0x0B01 a d 0 (countStall a s))) =
      setAxis a x (post 0x0B01 a d 0 (countStall a s)) := by simp [endHoming, hxh]
  unfold stall
  simp only [hr, hseen, ho, hv, hs, hh, hact, ← hd, hranked, hend, vaxP_setAxis, vaxP_post, vaxP_countStall, axisOf_setAxis_self, Option.isSome_none, Bool.not_true,
    Bool.or_self, Bool.false_eq_true, if_false, reduceCtorEq, or_self, false_and, ne_eq, not_false_eq_true, or_true, if_true]
  rfl

/-- How a homing of an axis has ended, and where it stands since. -/
def Axis.homing (x : Axis) : Option Homing × Bool × Int × Int × Nat × Nat :=
  (x.home, x.homed, x.pos, x.lost, x.homeDone, x.homeResult)

theorem comeToRest_homing (s : State) (a : Nat) (x : Axis) : (comeToRest s a x).homing = x.homing := rfl

theorem wake_eq (s : State) (x : Axis) :
    wake s x = { x with readyUs := if x.state = .standstill ∧ x.still ≤ 1 then monoUs s + 2000 else x.readyUs } := by
  unfold wake
  split <;> rfl

/-- A goal that starts leaves the end of a homing as it was. -/
theorem startGoal_homing (s : State) (a : Nat) (g : Goal) (x : Axis) : (startGoal s a g x).homing = x.homing := by
  simp only [startGoal, wake_eq]
  repeat' split
  all_goals rfl

/-- So does the goal that waits for the end of the homing, and the host's command that ends with it (R406, R411). -/
theorem afterHoming_homing (a : Fin 8) (s : State) : (axisOf (afterHoming a s) a).homing = (axisOf s a).homing := by
  simp only [afterHoming]
  rw [axisOf_hostDone_self]
  have goal : ∀ t : State, (axisOf t a).homing = (axisOf s a).homing →
      (axisOf (if (axisOf t a).vel = 0 ∧ (axisOf t a).state = .stopping then setAxis a (comeToRest t a (axisOf t a)) t else t) a).homing =
        (axisOf s a).homing := by
    intro t ht
    split
    · rw [axisOf_setAxis_self, comeToRest_homing, ht]
    · exact ht
  refine goal _ ?_
  split
  · split
    · rw [axisOf_setAxis_self]; rfl
    · rw [axisOf_setAxis_self, startGoal_homing]; rfl
  · rfl

theorem afterHoming_moved (a : Fin 8) (s : State) : AxisMoved a s (afterHoming a s) := by
  simp only [afterHoming]
  refine .trans ?_ (hostDone_moved ..)
  have rest : ∀ t : State, AxisMoved a s t →
      AxisMoved a s (if (axisOf t a).vel = 0 ∧ (axisOf t a).state = .stopping then setAxis a (comeToRest t a (axisOf t a)) t else t) := by
    intro t ht
    split
    · exact ht.setAxis _
    · exact ht
  refine rest _ ?_
  split
  · split <;> exact setAxis_moved ..
  · exact .refl ..

theorem afterHoming_homings (a : Nat) (s : State) : (afterHoming a s).vax.homings = s.vax.homings := by
  simp only [afterHoming]
  rw [hostDone_homings]
  repeat' split
  all_goals rfl

/-- The axis whose homing has ended well (R401, R406). -/
def homedAxis (s : State) (a : Nat) (h : Homing) (x : Axis) : Axis :=
  { x with
    home := none, homeDone := h.req, homeResult := 1, pos := vaxI s a 13, frac := 0, homed := true, lost := 0,
    unverified := false, state := .stopping }

theorem homedAxis_homing (s : State) (a : Nat) (h : Homing) (x : Axis) :
    (homedAxis s a h x).homing = (none, true, vaxI s a 13, 0, h.req, 1) := rfl

theorem homed_eq {s : State} {a : Nat} {h : Homing} (hh : (axisOf s a).home = some h) :
    homed a s = post 0x0B02 a (le 4 (unsgn 32 (axisOf s a).pos) ++ le 4 (unsgn 32 (vaxI s a 13))) 0
      (setAxis a (homedAxis s a h (axisOf s a)) { s with vax := { s.vax with homings := s.vax.homings + 1 } }) := by
  simp only [homed]
  split
  next hn => exact absurd (hn.symm.trans hh) (by simp)
  next h' e => obtain rfl := Option.some.inj (e.symm.trans hh); rfl

theorem homed_homing {s : State} {a : Fin 8} {h : Homing} (hh : (axisOf s a).home = some h) :
    (axisOf (homed a s) a).homing = (none, true, vaxI s a 13, 0, h.req, 1) := by
  rw [homed_eq hh]
  exact (congrArg Axis.homing (axisOf_setAxis_self ..)).trans (homedAxis_homing ..)

theorem homed_moved {s : State} {a : Fin 8} {h : Homing} (hh : (axisOf s a).home = some h) : AxisMoved a s (homed a s) := by
  rw [homed_eq hh]
  exact ⟨fun _ n => axisOf_setAxis_ne n .., rfl, rfl⟩

theorem homed_homings {s : State} {a : Nat} {h : Homing} (hh : (axisOf s a).home = some h) :
    (homed a s).vax.homings = s.vax.homings + 1 := by
  rw [homed_eq hh]
  rfl

/-- A stall of a homing to the end stop is its end stop (R405, R406). -/
theorem stall_homes {s : State} {a : Fin 8} {h : Homing} (hr : vaxRuns s = true) (hv : (axisOf s a).vel ≠ 0)
    (hs : (axisOf s a).state ≠ .standstill) (hseen : stallSeen s a (axisOf s a) = true) (ho : outranked s 4 (axisOf s a) = false)
    (hh : (axisOf s a).home = some h) (hm : homeMethod s a = 0) :
    stall a s = afterHoming a (homed a (setAxis a (ranked s 4 { axisOf s a with vel := 0, acc := 0, aboveRun := 0 }) s)) := by
  simp [stall, hr, hseen, ho, hv, hs, hh, hm]

/-! ### A drive fault (R407) -/

/-- The axis as a drive fault leaves it: its bridges are off. -/
def faulted (s : State) (openPhase : Bool) (x : Axis) : Axis :=
  { ranked s 3 (if x.home.isSome then { x with home := none, homeDone := (x.home.map (·.req)).getD 0, homeResult := 3 } else x) with
      driveFault := true, faultCause := if openPhase then 2 else 1, vel := 0, acc := 0, state := .standstill, still := 0,
      goal := Goal.stop, nextGoal := none, atTarget := false }

theorem driveFault_eq {s : State} {a : Nat} {o : Bool} (hr : vaxRuns s = true) (hd : (axisOf s a).driveFault = false)
    (he : axisEnabled s a = true) (hout : outranked s 3 (axisOf s a) = false) (ho : o = true → 64 ≤ (axisOf s a).openRun) :
    driveFault a o s = hostDone a 5 (setAxis a (faulted s o (axisOf s a))
      (post 0x0B03 a [] 0 { s with vax := { s.vax with driveFaults := s.vax.driveFaults + 1 } })) := by
  have hopen : (o && decide ((axisOf s a).openRun < 64)) = false := by
    cases o
    · rfl
    · simpa using ho rfl
  have hgo : ¬((!vaxRuns s || (axisOf s a).driveFault || !axisEnabled s a || outranked s 3 (axisOf s a) ||
      (o && decide ((axisOf s a).openRun < 64))) = true) := by simp [hr, hd, he, hout, hopen]
  exact if_neg hgo

theorem faulted_facts (s : State) (o : Bool) (x : Axis) :
    (faulted s o x).driveFault = true ∧ (faulted s o x).faultCause = (if o then 2 else 1) ∧ (faulted s o x).vel = 0 ∧
      (faulted s o x).state = .standstill ∧ (faulted s o x).still = 0 ∧ (faulted s o x).home = none ∧
      (faulted s o x).pos = x.pos := by
  refine ⟨rfl, rfl, rfl, rfl, rfl, ?_, ?_⟩
  · cases h : x.home <;> simp [faulted, ranked, h]
  · cases h : x.home <;> simp [faulted, ranked, h]

/-- Settles O44: a period issues and measures, and each other event is one change of its axis. -/
theorem axisEventsComplete : Obligations.AxisEventsComplete := by
  unfold Obligations.AxisEventsComplete
  refine ⟨?_, ?_, ?_, ?_, ?_, ?_, ?_⟩
  case refine_1 =>
    intro dt a m s hq hr ht hp hrec hh hs hm hc hv
    have hrow : exec (.profilePeriod dt a m) s = .next (profilePeriod a m (elapse dt s)) :=
      row_of_follows hq fun u => follows_profilePeriod (.refl _)
    rw [profilePeriod_goesOn (by rwa [vaxRuns_elapse hq]) ht (by rwa [axisOf_elapse hq]) (by rwa [axisOf_elapse hq])
      (by rwa [axisOf_elapse hq]) (by rwa [axisOf_elapse hq]) (by rwa [axisOf_elapse hq]) (by rwa [axisOf_elapse hq])
      (by rwa [slow_elapse hq]), axisOf_elapse hq] at hrow
    generalize hy : measure (elapse dt s) a m (issue (elapse dt s) a m.vel (axisOf s a)) = y at hrow
    obtain ⟨kpos, kfrac, kvel, kacc, kst, -, -, -, -⟩ := motion_eq (measure_motion (elapse dt s) a m (issue (elapse dt s) a m.vel (axisOf s a)))
    obtain ⟨ipos, ivel, iacc⟩ := issue_fast (s := elapse dt s) (a := a) (v := m.vel) (x := axisOf s a) (by rwa [slow_elapse hq])
    obtain ⟨hia, hib, hsa, hsb⟩ := measure_sets (elapse dt s) a m (issue (elapse dt s) a m.vel (axisOf s a))
    rw [hy] at kpos kfrac kvel kacc kst hia hib hsa hsb
    obtain ⟨hb, hpio, hctrl⟩ := ((setAxis_moved a y (elapse dt s)).trans (periodDone_moved a (monoUs (elapse dt s)) _)).of_elapse hq
    obtain ⟨pm, pc, -, pus⟩ := axisOf_periodDone a (monoUs (elapse dt s)) (setAxis a y (elapse dt s))
    rw [axisOf_setAxis_self] at pm pc
    obtain ⟨ppos, pfrac, pvel, pacc, pst, -, -, -, -⟩ := motion_eq pm
    obtain ⟨pia, pib, psa, psb, pha, phb⟩ := currents_eq pc
    refine ⟨_, hrow, by rw [ppos, pfrac, kpos, kfrac, ipos], pvel.trans (kvel.trans ivel), pacc.trans (kacc.trans iacc),
      pst.trans (kst.trans hs), pus, ?_, ?_, ⟨?_, ?_, ?_⟩, hb, hpio, hctrl, ?_⟩
    · rw [pia, hia, currentF32_elapse hq]
    · rw [pib, hib, currentF32_elapse hq]
    · rw [psa, hsa, electricalAngle_elapse hq]
    · rw [psb, hsb, electricalAngle_elapse hq]
    · intro hreg
      obtain ⟨hda, hdb⟩ := measure_duties (s := elapse dt s) (by rw [regulated_elapse hq]; exact hreg) m
      obtain ⟨-, -, -, -, ksa, ksb⟩ := issue_kept (elapse dt s) a m.vel (axisOf s a)
      rw [hy, ← hsa, ksa] at hda
      rw [hy, ← hsb, ksb] at hdb
      simp only [answer, gain_elapse hq, meanCurrent_elapse hq] at hda hdb
      rw [pha, phb, psa, psb]
      exact ⟨hda, hdb⟩
    · rw [periodDone_evr, setAxis_evr, elapse_evr hq.nothingWaits]
  case refine_2 =>
    intro dt a m s hq hr ht hp hrec hh hs hm hc hv pos htgt hlo hhi
    have hrow : exec (.profilePeriod dt a m) s = .next (profilePeriod a m (elapse dt s)) :=
      row_of_follows hq fun u => follows_profilePeriod (.refl _)
    obtain ⟨ipos, ifrac, -, ifwd⟩ := issue_arrives (s := elapse dt s) (a := a) hs hm (by rwa [slow_elapse hq]) pos htgt hlo hhi
    obtain ⟨kpos, kfrac, -, -, -, -, -, -, kfwd⟩ :=
      motion_eq (measure_motion (elapse dt s) a m (issue (elapse dt s) a m.vel (axisOf s a)))
    obtain ⟨y, hy⟩ : ∃ y, y = measure (elapse dt s) a m (issue (elapse dt s) a m.vel (axisOf s a)) := ⟨_, rfl⟩
    obtain ⟨z, hz⟩ : ∃ z : Axis, z = { comeToRest (setAxis a y (elapse dt s)) a y with atTarget := true } := ⟨_, rfl⟩
    rw [← hy] at kpos kfrac kfwd
    rw [profilePeriod_arrives (y := y) (z := z) (by rwa [vaxRuns_elapse hq]) ht (by rwa [axisOf_elapse hq]) (by rwa [axisOf_elapse hq])
      (by rwa [axisOf_elapse hq]) (by rwa [axisOf_elapse hq]) (by rwa [axisOf_elapse hq]) (by rwa [axisOf_elapse hq])
      (by rwa [slow_elapse hq]) pos (by rwa [axisOf_elapse hq]) (by rwa [axisOf_elapse hq]) (by rwa [axisOf_elapse hq])
      (by rw [axisOf_elapse hq]; exact hy) hz] at hrow
    obtain ⟨hb, hpio, hctrl⟩ := (((((AxisMoved.refl a (elapse dt s)).setAxis y).setAxis z).trans (hostDone_moved a 0 _)).trans
      (periodDone_moved a (monoUs (elapse dt s)) _)).of_elapse hq
    obtain ⟨pm, -, pat, -⟩ := axisOf_periodDone a (monoUs (elapse dt s)) (hostDone a 0 (setAxis a z (setAxis a y (elapse dt s))))
    rw [axisOf_hostDone_self, axisOf_setAxis_self] at pm pat
    obtain ⟨rpos, rfrac, rvel, rst, rat, rfwd⟩ := rested_facts _ _ _ hz
    obtain ⟨ppos, pfrac, pvel, -, pst, -, -, -, pfwd⟩ := motion_eq (pm.trans (kept_host z).1)
    exact ⟨_, hrow, ppos.trans (rpos.trans (kpos.trans ipos)), pfrac.trans (rfrac.trans (kfrac.trans ifrac)), pvel.trans rvel,
      pst.trans rst, (pat.trans (kept_host z).2).trans rat, pfwd.trans (rfwd.trans (kfwd.trans ifwd)), hb, hpio, hctrl⟩
  case refine_3 =>
    intro dt a s hq hr hv hs hseen ho hh hact
    have hrow : exec (.stall dt a (axisOf s a).gammaU) s = .next (stallAt a (axisOf s a).gammaU (elapse dt s)) :=
      row_of_seen hq fun u => seen_stallAt ..
    rw [stallAt, if_pos (by rw [axisOf_elapse hq]), stall_stops (by rwa [vaxRuns_elapse hq]) (by rwa [axisOf_elapse hq])
      (by rwa [axisOf_elapse hq]) (by rwa [axisOf_elapse hq, stallSeen_elapse hq]) (by rwa [axisOf_elapse hq]) (by rwa [axisOf_elapse hq])
      (by rwa [vaxP_elapse hq]) rfl rfl, axisOf_elapse hq, vaxP_elapse hq] at hrow
    refine ⟨_, hrow, ?_⟩
    obtain ⟨hb, hpio, hctrl⟩ := (((((countStall_moved a (elapse dt s)).trans (post_moved a ..)).setAxis _).setAxis _).trans
      (hostDone_moved a 4 _)).of_elapse hq
    rw [axisOf_hostDone_self, axisOf_setAxis_self, hostDone_stalls]
    exact ⟨rfl, congrArg (·.stalls + 1) (elapse_vax hq.nothingWaits dt), rfl, rfl, rfl, rfl, rfl, rfl, hb, hpio, hctrl⟩
  case refine_4 =>
    intro dt a g s hq hg
    have hrow : exec (.stall dt a g) s = .next (stallAt a g (elapse dt s)) := row_of_seen hq fun u => seen_stallAt ..
    rw [hrow, stallAt, if_neg (by rwa [axisOf_elapse hq])]
  case refine_5 =>
    intro dt a h s hq hr hv hs hseen ho hh hm
    have hrow : exec (.stall dt a (axisOf s a).gammaU) s = .next (stallAt a (axisOf s a).gammaU (elapse dt s)) :=
      row_of_seen hq fun u => seen_stallAt ..
    rw [stallAt, if_pos (by rw [axisOf_elapse hq]), stall_homes (h := h) (by rwa [vaxRuns_elapse hq]) (by rwa [axisOf_elapse hq])
      (by rwa [axisOf_elapse hq]) (by rwa [axisOf_elapse hq, stallSeen_elapse hq]) (by rwa [axisOf_elapse hq]) (by rwa [axisOf_elapse hq])
      (by rwa [homeMethod_elapse hq])] at hrow
    obtain ⟨x, hx⟩ : ∃ x, x = ranked (elapse dt s) 4 { axisOf (elapse dt s) a with vel := 0, acc := 0, aboveRun := 0 } := ⟨_, rfl⟩
    have hxh : (axisOf (setAxis a x (elapse dt s)) a).home = some h := by
      rw [axisOf_setAxis_self, hx, axisOf_elapse hq]; exact hh
    rw [← hx] at hrow
    have hend := (afterHoming_homing a (homed a (setAxis a x (elapse dt s)))).trans (homed_homing hxh)
    simp only [Axis.homing, Prod.mk.injEq] at hend
    obtain ⟨ehome, ehomed, epos, elost, edone, eresult⟩ := hend
    obtain ⟨hb, hpio, -⟩ := (((setAxis_moved a x (elapse dt s)).trans (homed_moved hxh)).trans (afterHoming_moved a _)).of_elapse hq
    refine ⟨_, hrow, ehome, ehomed, epos.trans ?_, elost, edone, eresult, ?_, hb, hpio⟩
    · rw [vaxI, vaxP_setAxis, vaxP_elapse hq]; rfl
    · rw [afterHoming_homings, homed_homings hxh, setAxis_vax, elapse_vax hq.nothingWaits]
  case refine_6 =>
    intro dt a o s hq hr hd he hout ho
    have hrow : exec (.driveFault dt a o) s = .next (driveFault a o (elapse dt s)) := row_of_seen hq fun u => seen_driveFault ..
    rw [driveFault_eq (by rwa [vaxRuns_elapse hq]) (by rwa [axisOf_elapse hq]) (by rwa [axisEnabled_elapse hq])
      (by rwa [axisOf_elapse hq]) (by rwa [axisOf_elapse hq]), axisOf_elapse hq] at hrow
    refine ⟨_, hrow, ?_⟩
    obtain ⟨x, hx⟩ : ∃ x, x = faulted (elapse dt s) o (axisOf s a) := ⟨_, rfl⟩
    obtain ⟨hdf, hcause, hvel, hst, hstill, hhome, hpos⟩ := faulted_facts (elapse dt s) o (axisOf s a)
    rw [← hx] at hdf hcause hvel hst hstill hhome hpos ⊢
    obtain ⟨hb, hpio, hctrl⟩ := ((AxisMoved.trans (t := { elapse dt s with vax := { (elapse dt s).vax with
        driveFaults := (elapse dt s).vax.driveFaults + 1 } }) ⟨fun _ _ => rfl, rfl, rfl⟩ (post_moved a 0x0B03 a [] 0 _)).setAxis x |>.trans
      (hostDone_moved a 5 _)).of_elapse hq
    rw [axisOf_hostDone_self, axisOf_setAxis_self, hostDone_driveFaults]
    exact ⟨hdf, hcause, hvel, hst, hstill, hhome, hpos, congrArg (·.driveFaults + 1) (elapse_vax hq.nothingWaits dt), hb, hpio, hctrl⟩
  case refine_7 =>
    intro dt a s hq hr hs hstill hdue
    have hrow : exec (.standstillDelayExpiry dt a) s = .next (standstillExpiry a (elapse dt s)) :=
      row_of_seen hq fun u => seen_standstillExpiry ..
    rw [hrow]
    simp [standstillExpiry, vaxRuns_elapse hq, axisOf_elapse hq, vaxP_elapse hq, hr, hs, hstill, hdue]



end Sys2Proof.Machine


/-! What a change of mode leaves as it was (R44 to R49): the parts of the state that last through it, the commands that execute,
and the runs of the rounds. -/

namespace Sys2Proof.Machine

/-! ### What lasts -/

/-- The parts of the state that the end of tasks, axes, jobs, commands and activations leaves as they were. -/
structure Lasting where
  clock : Clock
  mode : Mode × Nat × Nat
  trans : Option Transition
  modeChanges : W32
  inReset : Bool
  peerDigests : List (Nat × Nat × Bytes)
  keys : List (Nat × KeySlot) × Bool × List KeyRec × Vector (Option HostKey) 32
  tamp : Tamp
  ring : List FaultRec × W32 × W32
  supplies : Pwr
  pages : Bool × Paged Bytes × W32 × Paged Bytes × W32
  bill : Bill
  epd : Epd
  subl : Subl
  ops : List SublOp
  lockstepStop : Bool
  unrecovered : W32
  results : List EstRes × List OptRes × W32
  cfg : List (Nat × Nat)
  enLow : Bool
  triggers : List (Mode × Nat)

/-- What of a state lasts. -/
def lasting (s : State) : Lasting :=
  { clock := s.clock, mode := (s.sys.mode, s.sys.cause, s.sys.prevMode), trans := s.sys.trans, modeChanges := s.sys.modeChanges,
    inReset := s.sys.inReset, peerDigests := s.pair.peerDigests,
    keys := (s.sec.slots, s.sec.keysLoaded, s.sec.records, s.sec.hostKeys), tamp := s.tamp,
    ring := (s.intg.ring, s.intg.faultCount, s.intg.wdtRestarts), supplies := { s.pwr with flights := Vector.replicate 8 .off },
    pages := (s.mth.running, s.mth.page0, s.mth.seq0, s.mel.page2, s.mel.seq2), bill := s.bill, epd := s.epd,
    subl := { s.subl with ops := [] }, ops := s.subl.ops, lockstepStop := s.ctrl.lockstepStop, unrecovered := s.ctrl.unrecovered,
    results := (s.nmod.estResults, s.nmod.optResults, s.nmod.stalls), cfg := s.cfg, enLow := s.vax.enLow,
    triggers := s.sys.triggers }

/-- From `s` to `t` no command has begun to execute, no run of a round has begun, and no listening window has opened. -/
def Calm (s t : State) : Prop :=
  executing t ⊆ executing s ∧ (s.nmod.est = none → t.nmod.est = none) ∧ (s.nmod.opt = none → t.nmod.opt = none) ∧
    (s.pair.listening = none → t.pair.listening = none)

theorem Calm.refl (s : State) : Calm s s := ⟨List.Subset.refl _, id, id, id⟩

theorem Calm.trans {s t u : State} (h : Calm s t) (h' : Calm t u) : Calm s u := by
  obtain ⟨hc, he, ho, hp⟩ := h
  obtain ⟨hc', he', ho', hp'⟩ := h'
  exact ⟨List.Subset.trans hc' hc, he' ∘ he, ho' ∘ ho, hp' ∘ hp⟩

theorem calm_of {s t : State} (hh : t.hif = s.hif) (hn : t.nmod = s.nmod)
    (hp : t.pair.listening = s.pair.listening) : Calm s t := by
  refine ⟨?_, by rw [hn]; exact id, by rw [hn]; exact id, by rw [hp]; exact id⟩
  rw [show executing t = executing s from congrArg (fun x => List.filterMap _ (Hif.tags x)) hh]
  exact List.Subset.refl _

/-- From `s` to `t` only what does not last has changed, and nothing has begun. -/
def Mild (s t : State) : Prop := lasting t = lasting s ∧ Calm s t

theorem Mild.refl (s : State) : Mild s s := ⟨rfl, .refl s⟩

theorem Mild.trans {s t u : State} (h : Mild s t) (h' : Mild t u) : Mild s u := by
  obtain ⟨hl, hc⟩ := h
  obtain ⟨hl', hc'⟩ := h'
  exact ⟨hl'.trans hl, hc.trans hc'⟩

theorem mild_of {s t : State} (hl : lasting t = lasting s) (hh : t.hif = s.hif) (hn : t.nmod = s.nmod)
    (hp : t.pair.listening = s.pair.listening) : Mild s t :=
  ⟨hl, calm_of hh hn hp⟩

theorem Mild.foldl {α : Type} {f : State → α → State} (h : ∀ s x, Mild s (f s x)) (l : List α) (s : State) : Mild s (l.foldl f s) :=
  List.foldlRecOn (motive := Mild s) l f (.refl s) fun t ht x _ => ht.trans (h t x)

theorem mild_ite {s t u : State} {c : Prop} [Decidable c] (ht : Mild s t) (hu : Mild s u) : Mild s (if c then t else u) := by
  split
  · exact ht
  · exact hu

/-! ### Commands that end -/

theorem mem_putTag {tag : Nat} {x : TagState} {y : Nat × TagState} {l : List (Nat × TagState)} (h : y ∈ putTag tag x l) :
    y = (tag, x) ∨ y ∈ l := by
  induction l with
  | nil => simpa [putTag] using h
  | cons z l ih =>
    simp only [putTag] at h
    split at h
    · simpa using h
    · split at h
      · rcases List.mem_cons.1 h with rfl | h
        · exact .inl rfl
        · exact .inr (List.mem_cons_of_mem _ h)
      · rcases List.mem_cons.1 h with rfl | h
        · exact .inr List.mem_cons_self
        · exact (ih h).imp id (List.mem_cons_of_mem _)

theorem executing_setTag_held (tag : Nat) (h : Held) (s : State) : executing (setTag tag (.held h) s) ⊆ executing s := by
  intro x hx
  simp only [executing, setTag, List.mem_filterMap] at hx ⊢
  obtain ⟨y, hy, e⟩ := hx
  rcases mem_putTag hy with rfl | hy
  · simp at e
  · exact ⟨y, hy, e⟩

theorem executing_sendReply (r : Reply) (s : State) : executing (sendReply r s) = executing s := by
  obtain ⟨⟨tr, ip, port⟩, tag⟩ := r
  cases tr <;> rfl

theorem complete_mild (tag st : Nat) (reg : Bool) (b : Bytes) (s : State) : Mild s (complete tag st reg b s) := by
  obtain ⟨_, _, e⟩ := complete_shape tag st reg b s
  refine ⟨by rw [e]; rfl, ?_, by rw [e]; exact id, by rw [e]; exact id, by rw [e]; exact id⟩
  unfold complete
  split
  · rw [executing_sendReply]
    exact executing_setTag_held ..
  · exact List.Subset.refl _

theorem completeAll_mild (f : Wait → Bool) (st : Nat) (reg : Bool) (b : Bytes) (s : State) : Mild s (completeAll f st reg b s) :=
  .foldl (fun s t => complete_mild t st reg b s) _ s

theorem post_mild (code index : Nat) (data : Bytes) (keyId : Nat) (s : State) : Mild s (post code index data keyId s) :=
  mild_of rfl rfl rfl rfl

theorem snapSource_mild (k : Nat) (s : State) : Mild s (snapSource k s) := by
  unfold snapSource
  split
  · split <;> exact mild_of rfl rfl rfl rfl
  · exact .refl s

theorem setEng_mild (e : Nat) (x : Engine) (s : State) : Mild s (setEng e x s) := mild_of rfl rfl rfl rfl

theorem updTask_mild (e k : Nat) (f : TaskSt → TaskSt) (s : State) : Mild s (updTask e k f s) := mild_of rfl rfl rfl rfl

theorem updClass_mild (cls : Nat) (f : ImageClass → ImageClass) (s : State) : Mild s (updClass cls f s) := mild_of rfl rfl rfl rfl

theorem updGal_mild (f : Gallery → Gallery) (s : State) : Mild s (updGal f s) := mild_of rfl rfl rfl rfl

theorem draw_mild (s : State) : Mild s (draw s) := mild_of rfl rfl rfl rfl

theorem unmarkWhole_mild (e addr len : Nat) (s : State) : Mild s (unmarkWhole e addr len s) := mild_of rfl rfl rfl rfl

theorem updCtrl_mild {f : Ctrl → Ctrl} {s : State} (hl : (f s.ctrl).lockstepStop = s.ctrl.lockstepStop)
    (hu : (f s.ctrl).unrecovered = s.ctrl.unrecovered) : Mild s (updCtrl f s) :=
  mild_of (by simp only [lasting, updCtrl, hl, hu]) rfl rfl rfl

theorem lateRefusal_mild (f : Wait → Bool) (s : State) : Mild s (lateRefusal f s) :=
  .foldl (fun s t => (post_mild 0x0102 0 [] 0 s).trans (complete_mild t ..)) _ s

/-! ### Axes and outputs -/

theorem setAxis_mild (a : Nat) (x : Axis) (s : State) : Mild s (setAxis a x s) := mild_of rfl rfl rfl rfl

theorem hostDone_mild (a outcome : Nat) (s : State) : Mild s (hostDone a outcome s) := by
  simp only [hostDone]
  split
  · exact .refl s
  · exact (setAxis_mild ..).trans (completeAll_mild ..)

theorem axisSafe_mild (now : Bool) (a : Nat) (s : State) : Mild s (axisSafe now a s) := (setAxis_mild ..).trans (hostDone_mild ..)

theorem axesSafe_mild (now : Bool) (s : State) : Mild s (axesSafe now s) := .foldl (fun s a => axisSafe_mild now a s) _ s

theorem endHostAxes_mild (m : Mode) (s : State) : Mild s (endHostAxes m s) := by
  refine .foldl (fun s a => ?_) _ s
  split
  · exact mild_ite (.refl s) (axisSafe_mild ..)
  · exact .refl s

theorem driveDo_mild (o : Nat) (v : Bool) (s : State) : Mild s (driveDo o v s) := mild_of rfl rfl rfl rfl

theorem doSafe_mild (o : Nat) (s : State) : Mild s (doSafe o s) := mild_of rfl rfl rfl rfl

theorem pwmSafe_mild (now : Bool) (p : Nat) (s : State) : Mild s (pwmSafe now p s) := mild_of rfl rfl rfl rfl

theorem outputsSafe_mild (now : Bool) (s : State) : Mild s (outputsSafe now s) :=
  (Mild.foldl (fun s o => doSafe_mild o s) _ s).trans (.foldl (fun s p => pwmSafe_mild now p s) _ _)

theorem drivePairOutput_mild (s : State) : Mild s (drivePairOutput s) := by
  unfold drivePairOutput
  split
  · exact mild_ite (.refl s) (driveDo_mild ..)
  · exact .refl s

theorem taskOutputsSafe_mild (e t : Nat) (s : State) : Mild s (taskOutputsSafe e t s) := by
  unfold taskOutputsSafe
  split
  · refine .foldl (fun s o => ?_) _ s
    split
    · exact doSafe_mild ..
    · exact pwmSafe_mild ..
    · exact axisSafe_mild ..
  · exact .refl s

theorem modeOutputs_mild (m : Mode) (s : State) : Mild s (modeOutputs m s) := by
  cases m
  case safe => exact (outputsSafe_mild ..).trans (axesSafe_mild ..)
  case holdup => exact (outputsSafe_mild ..).trans (axesSafe_mild ..)
  case fault => exact (outputsSafe_mild ..).trans (axesSafe_mild ..)
  case shadow => exact (outputsSafe_mild ..).trans (axesSafe_mild ..)
  case commission => exact .foldl (fun s x => mild_ite (.refl s) (taskOutputsSafe_mild ..)) _ s
  all_goals exact .refl s

/-! ### Tasks -/

theorem dropRun_mild (e t : Nat) (s : State) : Mild s (dropRun e t s) := by
  obtain ⟨_, _, h⟩ := dropRun_shape e t s
  rw [h]
  exact mild_of rfl rfl rfl rfl

theorem dropRuns_mild (e : Nat) (s : State) : Mild s (dropRuns e s) :=
  .foldl (f := fun s (r : Run) => dropRun e r.task s) (fun s r => dropRun_mild e r.task s) _ s

theorem stopTasks_mild (s : State) : Mild s (stopTasks s) :=
  ((dropRuns_mild 0 s).trans (dropRuns_mild 1 _)).trans (updCtrl_mild rfl rfl)

theorem restartTasks_mild (s : State) : Mild s (restartTasks s) := updCtrl_mild rfl rfl

theorem takeOver_mild (a : Nat) (s : State) : Mild s (takeOver a s) := (setAxis_mild ..).trans (hostDone_mild ..)

theorem ownAxes_mild (e t : Nat) (s : State) : Mild s (ownAxes e t s) := by
  unfold ownAxes
  refine mild_ite (.refl s) ?_
  split
  · exact .foldl (fun s o => mild_ite (takeOver_mild ..) (.refl s)) _ s
  · exact .refl s

theorem unmarkInputs_mild (e : Nat) (d : BTask) (s : State) : Mild s (unmarkInputs e d s) :=
  (unmarkWhole_mild ..).trans (.foldl (f := fun s (i : BIn) => unmarkWhole e (d.inAddr + i.imgOff) i.len s) (fun _ _ => unmarkWhole_mild ..) _ _)

theorem sendPair_mild (kind : Nat) (b : Bytes) (s : State) : Mild s (sendPair kind b s) := by
  obtain ⟨o, e⟩ := sendPair_shape kind b s
  rw [e]
  exact mild_of rfl rfl rfl rfl

theorem latchRun_mild (e : Nat) (d : BTask) (rel relMono : Nat) (data : Memory) (s : State) : Mild s (latchRun e d rel relMono data s) := by
  obtain ⟨_, _, _, _, h⟩ := latchRun_shape e d rel relMono data s
  rw [h]
  exact mild_of rfl rfl rfl rfl

theorem executeRelease_mild (e : Nat) (d : BTask) (x : TaskSt) (rel relMono : Nat) (s : State) :
    Mild s (executeRelease e d x rel relMono s) := by
  simp only [executeRelease]
  refine .trans (.trans (.trans ?_ (ownAxes_mild e d.task _)) (unmarkInputs_mild e d _)) (latchRun_mild ..)
  exact .foldl (f := fun s (i : BIn) => readWindow (iCtrl e) i.len s) (fun _ _ => updGal_mild ..) _ s

theorem latchImage_mild (d : BTask) (image : Bytes) (s : State) : Mild s (latchImage d image s) := by
  simp only [latchImage]
  exact (unmarkWhole_mild ..).trans (latchRun_mild ..)

theorem takeSample_mild (s : State) : Mild s (takeSample s) := by
  obtain ⟨_, _, e⟩ := takeSample_shape s
  rw [e]
  exact mild_of rfl rfl rfl rfl

theorem latchHeld_mild (held : List HeldRelease) (s : State) : Mild s (latchHeld held s) := by
  unfold latchHeld
  refine mild_ite (.refl s) ((takeSample_mild s).trans (.foldl (fun s d => ?_) _ _))
  simp only
  split
  · refine mild_ite (.refl _) ?_
    split
    · exact latchImage_mild ..
    · exact (updTask_mild ..).trans (executeRelease_mild ..)
  · exact .refl _

theorem releaseHeld_mild (held : List HeldRelease) (s : State) : Mild s (releaseHeld held s) := by
  unfold releaseHeld
  split
  · exact mild_ite (updCtrl_mild rfl rfl) (latchHeld_mild ..)
  · exact latchHeld_mild ..

/-! ### Changes and activations that do not take place -/

theorem changeNotMade_mild (outcome : Nat) (s : State) : Mild s (changeNotMade outcome s) := by
  unfold changeNotMade
  split
  · simp only [openVal]
    refine ((draw_mild s).trans (draw_mild _)).trans ?_
    generalize draw (draw s) = u
    refine .trans ?_ (releaseHeld_mild ..)
    refine .trans ?_ (completeAll_mild ..)
    refine .trans ?_ (post_mild ..)
    refine updCtrl_mild ?_ ?_
    · rfl
    · rfl
  · exact .refl s

theorem dropChange_mild (s : State) : Mild s (dropChange s) := by
  unfold dropChange
  split
  · exact mild_ite (.refl s) (changeNotMade_mild ..)
  · exact .refl s

theorem endActivation_mild (cls outcome : Nat) (s : State) : Mild s (endActivation cls outcome s) := by
  simp only [endActivation, imageEvent]
  exact .trans (.trans (updClass_mild ..) (post_mild ..)) (completeAll_mild ..)

theorem dropActivations_mild (s : State) : Mild s (dropActivations s) := by
  simp only [dropActivations]
  have h := Mild.foldl (f := fun s c => if (imageOf s c).stage = 5 then endActivation c 3 s else s)
    (fun s c => mild_ite (endActivation_mild c 3 s) (.refl s)) [1, 2, 3, 4, 5, 6, 7] s
  revert h
  generalize List.foldl (fun s c => if (imageOf s c).stage = 5 then endActivation c 3 s else s) s [1, 2, 3, 4, 5, 6, 7] = u
  intro h
  refine h.trans ?_
  split
  · exact .trans (updCtrl_mild rfl rfl) (latchHeld_mild ..)
  · exact .refl _

/-! ### Jobs, rounds and flights -/

theorem releaseFlights_mild (mask : Nat) (s : State) : Mild s (releaseFlights mask s) := mild_of rfl rfl rfl rfl

theorem abandonReads_mild (mask : Nat) (s : State) : Mild s (abandonReads mask s) := updGal_mild ..

theorem dropHostJobs_mild (s : State) : Mild s (dropHostJobs s) := by
  simp only [dropHostJobs]
  refine .trans ?_ (.foldl (f := fun s (j : HJob) => complete j.tag stNotInState false (notInStateBody s) s)
    (fun s j => complete_mild ..) _ _)
  refine .trans ?_ (releaseFlights_mild ..)
  refine .trans ?_ (abandonReads_mild ..)
  exact mild_of rfl rfl rfl rfl

theorem abandonRounds_mild (s : State) : Mild s (abandonRounds s) :=
  ⟨rfl, List.Subset.refl _, fun _ => rfl, fun _ => rfl, id⟩

theorem setFlights_mild (mask : Nat) (p : FlightPower) (s : State) : Mild s (setFlights mask p s) := mild_of rfl rfl rfl rfl

theorem wakeFlights_mild (mask : Nat) (s : State) : Mild s (wakeFlights mask s) := mild_of rfl rfl rfl rfl

theorem gateFlights_mild (s : State) : Mild s (gateFlights s) := by
  simp only [gateFlights]
  refine mild_ite (mild_ite ?_ ?_) (.refl s)
  · exact .trans (mild_of rfl rfl rfl rfl) (setFlights_mild ..)
  · exact mild_of rfl rfl rfl rfl

theorem modeFlights_mild (old m : Mode) (s : State) : Mild s (modeFlights old m s) := by
  have off := setFlights_mild 0xFF .off s
  have wake := wakeFlights_mild 0xFF s
  cases m
  case reduced => exact (wakeFlights_mild ..).trans (gateFlights_mild _)
  case lockdown => exact wakeFlights_mild ..
  case fallback => exact wakeFlights_mild 3 s
  case backup => exact off
  case boot => exact off
  case safe => exact off
  case holdup => exact off
  case fault => exact off
  all_goals exact wake

/-! ### The pair, and commands that FAULT ends -/

theorem updPair_mild {f : Pair → Pair} {s : State} (h : (f s.pair).peerDigests = s.pair.peerDigests)
    (hl : (f s.pair).listening = s.pair.listening ∨ (f s.pair).listening = none) : Mild s (updPair f s) := by
  refine ⟨by simp only [lasting, updPair, h], List.Subset.refl _, id, id, fun hn => ?_⟩
  rcases hl with hl | hl
  · exact hl.trans hn
  · exact hl

theorem giveUpRole_mild (cause : Nat) (m : Mode) (s : State) : Mild s (giveUpRole cause m s) := by
  have safe : Mild s (drivePairOutput (axesSafe false (outputsSafe false
      (updPair (fun p => { p with active := false, toShadow := false }) s)))) :=
    (((updPair_mild rfl (.inl rfl)).trans (outputsSafe_mild ..)).trans (axesSafe_mild ..)).trans (drivePairOutput_mild _)
  unfold giveUpRole
  refine mild_ite (.refl s) ?_
  cases m
  case shadow => exact (updPair_mild rfl (.inl rfl)).trans (drivePairOutput_mild _)
  case safe => exact mild_ite ((updPair_mild rfl (.inl rfl)).trans (drivePairOutput_mild _)) (.refl s)
  case lockdown => exact safe
  case holdup => exact safe
  case fault => exact safe
  all_goals exact .refl s

theorem endListening_mild (m : Mode) (s : State) : Mild s (endListening m s) := by
  cases m
  case fault => exact updPair_mild rfl (.inr rfl)
  case lockdown => exact updPair_mild rfl (.inr rfl)
  case holdup => exact updPair_mild rfl (.inr rfl)
  case safe => exact updPair_mild rfl (.inr rfl)
  case shadow => exact updPair_mild rfl (.inr rfl)
  all_goals exact .refl s

theorem endInFault_mild (s : State) : Mild s (endInFault s) := completeAll_mild ..

theorem markTamper_mild (s : State) : Mild s (markTamper s) := mild_of rfl rfl rfl rfl

/-! ### The whole change -/

/-- The state once the new mode is shown (R43, R44). -/
def entered (m : Mode) (cause : Nat) (ret : Option Mode) (s : State) : State :=
  updSys
    (fun x => { x with
      mode := m, prevMode := s.sys.mode.code, cause := cause, returnMode := ret, trans := none, recovery := false,
      modeChanges := x.modeChanges + 1,
      resetPending := if m = .fault ∨ m = .lockdown then none else x.resetPending }) s

theorem showMode_mild (m : Mode) (cause : Nat) (ret : Option Mode) (s : State) : Mild (entered m cause ret s) (showMode m cause ret s) := by
  unfold showMode
  have h : Mild (entered m cause ret s) (post 0x0101 0 (le 1 s.sys.mode.code ++ le 1 m.code ++ le 1 cause) 0 (entered m cause ret s)) :=
    post_mild ..
  have h' := h.trans (mild_ite (c := cause = 1) (.refl _) (snapSource_mild 3 _))
  have h'' := h'.trans (mild_ite (c := m = .fault) (snapSource_mild 2 _) (.refl _))
  cases s.sys.trans with
  | none => exact h''
  | some x => exact h''.trans (completeAll_mild ..)

/-- What a mode without the commands of class A ends (R50). -/
def dropClassA (m : Mode) (s : State) : State :=
  if classA m then s
  else if (waiting (· == .modelActivation) (dropChange s)).isEmpty then dropChange s
  else lateRefusal (· == .modelActivation) { dropChange s with nmod := { (dropChange s).nmod with
    built := false, stage := { (dropChange s).nmod.stage with
      code := if (dropChange s).nmod.stage.code = 5 then 3 else (dropChange s).nmod.stage.code } } }

/-- What waits for a cut or an instant no more. -/
def nothingLate (s : State) : State :=
  { s with
      nmod := { s.nmod with roundPend := [] }, subl := { s.subl with ops := [] }, time := { s.time with atPps := none },
      rtc := { s.rtc with dstPending := none } }

theorem dropLate_eq (m : Mode) (s : State) :
    dropLate m s =
      if classW m && m != .fallback then (if classW m then dropClassA m s else lateRefusal waitsW (nothingLate (dropClassA m s)))
      else dropActivations (if classW m then dropClassA m s else lateRefusal waitsW (nothingLate (dropClassA m s))) := rfl

theorem dropClassA_mild (m : Mode) (s : State) : Mild s (dropClassA m s) := by
  have h := dropChange_mild s
  unfold dropClassA
  revert h
  generalize dropChange s = u
  intro h
  have hn : Mild u { u with nmod := { u.nmod with
      built := false, stage := { u.nmod.stage with code := if u.nmod.stage.code = 5 then 3 else u.nmod.stage.code } } } :=
    ⟨rfl, List.Subset.refl _, id, id, id⟩
  exact mild_ite (.refl s) (mild_ite h ((h.trans hn).trans (lateRefusal_mild ..)))

theorem nothingLate_lasting (s : State) : lasting (nothingLate s) = { lasting s with ops := [] } ∧ Calm s (nothingLate s) :=
  ⟨rfl, List.Subset.refl _, id, id, id⟩

/-- What waits for a cut or an instant and is not legal in the new mode is refused: what lasts is as it was, but for the link's
operations that waited (R50). -/
theorem dropLate_lasting (m : Mode) (s : State) :
    lasting (dropLate m s) = { lasting s with ops := if classW m then s.subl.ops else [] } ∧ Calm s (dropLate m s) := by
  rw [dropLate_eq]
  obtain ⟨hl, hc⟩ := dropClassA_mild m s
  generalize dropClassA m s = t at hl hc
  have hops : t.subl.ops = s.subl.ops := congrArg Lasting.ops hl
  cases hw : classW m with
  | true =>
    simp only [Bool.true_and, if_true]
    obtain ⟨hl', hc'⟩ := mild_ite (c := (m != .fallback) = true) (.refl t) (dropActivations_mild t)
    exact ⟨hl'.trans hl, hc.trans hc'⟩
  | false =>
    simp only [Bool.false_and, Bool.false_eq_true, if_false]
    obtain ⟨hl', hc'⟩ := nothingLate_lasting t
    obtain ⟨hl'', hc''⟩ := (lateRefusal_mild waitsW (nothingLate t)).trans (dropActivations_mild _)
    refine ⟨(hl''.trans hl').trans ?_, (hc.trans hc').trans hc''⟩
    rw [hl]

/-- What lasts of a state that enters a mode: the link's operations that the mode ends, and the stop of the engines that it lifts,
are gone. -/
def Lasting.entering (old m : Mode) (l : Lasting) : Lasting :=
  { l with
    ops := if classW m then l.ops else [], lockstepStop := if old = .safe ∧ taskMode m = true then false else l.lockstepStop }

/-- The tasks of a mode that follows another: stopped, or begun again (R44). -/
def modeStops (old m : Mode) (s : State) : State :=
  let s := if taskMode m then s else stopTasks s
  if old = .service ∧ m ≠ .service then restartTasks s else s

/-- The engines stopped by a lockstep mismatch run again in a mode with tasks that follows SAFE (R264). -/
def modeLifts (old m : Mode) (s : State) : State :=
  if old = .safe ∧ taskMode m = true then updCtrl (fun c => { c with lockstepStop := false }) s else s

/-- What a mode that follows another does to jobs, rounds, outputs, flights and the pair, after its tasks (R44 to R48, R64). -/
def modeRest (old m : Mode) (cause : Nat) (s : State) : State :=
  let s := if m = .commission ∨ m = .service then s else dropHostJobs s
  let s := if roundsRun s then s else abandonRounds s
  let s := modeFlights old m (modeOutputs m s)
  endListening m (giveUpRole cause m s)

/-- What a mode ends with (R516, R540). -/
def modeLast (m : Mode) (s : State) : State :=
  match m with
  | .fault => endInFault s
  | .lockdown => if meteringMode s then markTamper s else s
  | _ => s

theorem modeTo_eq (m : Mode) (cause : Nat) (ret : Option Mode) (s : State) :
    modeTo m cause ret s =
      modeLast m (modeRest s.sys.mode m cause
        (modeLifts s.sys.mode m (modeStops s.sys.mode m (dropLate m (endHostAxes m (showMode m cause ret s)))))) := rfl

theorem modeStops_mild (old m : Mode) (s : State) : Mild s (modeStops old m s) :=
  (mild_ite (.refl s) (stopTasks_mild s)).trans (mild_ite (restartTasks_mild _) (.refl _))

theorem modeLifts_lasting (old m : Mode) (s : State) :
    lasting (modeLifts old m s) =
        { lasting s with lockstepStop := if old = .safe ∧ taskMode m = true then false else s.ctrl.lockstepStop } ∧
      Calm s (modeLifts old m s) := by
  unfold modeLifts
  split
  · exact ⟨rfl, calm_of rfl rfl rfl⟩
  · exact ⟨rfl, .refl s⟩

theorem modeRest_mild (old m : Mode) (cause : Nat) (s : State) : Mild s (modeRest old m cause s) := by
  simp only [modeRest]
  refine .trans ?_ (endListening_mild ..)
  refine .trans ?_ (giveUpRole_mild ..)
  refine .trans ?_ (modeFlights_mild ..)
  refine .trans ?_ (modeOutputs_mild ..)
  exact (mild_ite (.refl s) (dropHostJobs_mild s)).trans (mild_ite (.refl _) (abandonRounds_mild _))

theorem modeLast_mild (m : Mode) (s : State) : Mild s (modeLast m s) := by
  cases m
  case fault => exact endInFault_mild s
  case lockdown => exact mild_ite (markTamper_mild s) (.refl s)
  all_goals exact .refl s

/-- A change of mode shows the mode, and leaves what lasts (R44). -/
theorem modeTo_lasting (m : Mode) (cause : Nat) (ret : Option Mode) (s : State) :
    lasting (modeTo m cause ret s) = (lasting (entered m cause ret s)).entering s.sys.mode m ∧
      Calm (entered m cause ret s) (modeTo m cause ret s) := by
  rw [modeTo_eq]
  obtain ⟨hl₁, hc₁⟩ := (showMode_mild m cause ret s).trans (endHostAxes_mild m _)
  generalize endHostAxes m (showMode m cause ret s) = s₁ at hl₁ hc₁ ⊢
  obtain ⟨hl₂, hc₂⟩ := dropLate_lasting m s₁
  generalize dropLate m s₁ = s₂ at hl₂ hc₂ ⊢
  obtain ⟨hl₃, hc₃⟩ := modeStops_mild s.sys.mode m s₂
  generalize modeStops s.sys.mode m s₂ = s₃ at hl₃ hc₃ ⊢
  obtain ⟨hl₄, hc₄⟩ := modeLifts_lasting s.sys.mode m s₃
  generalize modeLifts s.sys.mode m s₃ = s₄ at hl₄ hc₄ ⊢
  obtain ⟨hl₅, hc₅⟩ := (modeRest_mild s.sys.mode m cause s₄).trans (modeLast_mild m _)
  refine ⟨?_, (((hc₁.trans hc₂).trans hc₃).trans hc₄).trans hc₅⟩
  have hops : s₁.subl.ops = (lasting (entered m cause ret s)).ops := congrArg Lasting.ops hl₁
  have hstop : s₃.ctrl.lockstepStop = s₁.ctrl.lockstepStop :=
    (congrArg Lasting.lockstepStop hl₃).trans (congrArg Lasting.lockstepStop hl₂)
  have hstop' : s₁.ctrl.lockstepStop = (lasting (entered m cause ret s)).lockstepStop := congrArg Lasting.lockstepStop hl₁
  rw [hl₅, hl₄, hl₃, hl₂, hl₁, hops, hstop, hstop']
  rfl

end Sys2Proof.Machine


/-! The end of a tick in which one mode trigger has been asserted (R45), and the modes that it enters. -/

namespace Sys2Proof.Machine

/-! ### The trigger that acts -/

/-- The state once the trigger of a mode has acted. -/
def acted (m : Mode) (cause : Nat) (s : State) : State := actTrigger (m, cause) (clearTriggers s)

theorem topTrigger_single {s : State} {x : Mode × Nat} (ht : s.sys.triggers = [x]) (ha : triggerActs s x = true) : topTrigger s = some x := by
  simp [topTrigger, ht, ha]

/-- A tick that ends with one trigger enters its mode. -/
theorem settle_single {s : State} {m : Mode} {cause : Nat} (ht : s.sys.triggers = [(m, cause)]) (ha : triggerActs s (m, cause) = true)
    (hp : (acted m cause s).pair.peerDigests = []) : settle s = clearTriggers (acted m cause s) := by
  have h : arbitrate s = acted m cause s := by
    unfold arbitrate
    rw [topTrigger_single ht ha]
    rfl
  simp only [settle, h, hp, List.isEmpty_nil, if_true]

theorem pioStart_mild (s : State) : Mild s (pioStart s) := by
  unfold pioStart
  refine .trans ?_ (drivePairOutput_mild _)
  refine .trans ?_ (outputsSafe_mild ..)
  exact mild_of rfl rfl rfl rfl

theorem vaxStart_mild (s : State) : Mild s (vaxStart s) := by
  simp only [vaxStart]
  refine .trans (axesSafe_mild true s) ?_
  generalize axesSafe true s = u
  exact mild_of rfl rfl rfl rfl

/-- What lasts of a state that enters a mode for a cause (R43, R44). -/
def Lasting.entered (m : Mode) (cause : Nat) (l : Lasting) : Lasting :=
  { l with mode := (m, cause, l.mode.1.code), trans := none, modeChanges := l.modeChanges + 1 }

theorem entered_lasting (m : Mode) (cause : Nat) (ret : Option Mode) (s : State) :
    lasting (entered m cause ret s) = (lasting s).entered m cause := rfl

theorem bootEnter_lasting (m : Mode) (cause : Nat) (s : State) :
    lasting (bootEnter m cause s) = ((lasting s).entered m cause).entering s.sys.mode m ∧
      Calm (entered m cause none s) (bootEnter m cause s) := by
  obtain ⟨hl, hc⟩ := modeTo_lasting m cause none s
  obtain ⟨hl', hc'⟩ := (pioStart_mild (modeTo m cause none s)).trans (vaxStart_mild _)
  exact ⟨hl'.trans hl, hc.trans hc'⟩

theorem acted_eq {m : Mode} {cause : Nat} (h8 : cause ≠ 8) (h1 : cause ≠ 1) (s : State) :
    acted m cause s =
      if s.sys.mode = .boot then bootEnter m cause (clearTriggers s)
      else modeTo m cause (if m = .fallback then some s.sys.mode else none) (clearTriggers s) := by
  unfold acted actTrigger
  split
  next hc => exact absurd hc h8
  next hc => exact absurd hc h1
  next => rfl

/-- A mode entered at the end of a tick leaves what lasts. -/
theorem acted_lasting {m : Mode} {cause : Nat} (h8 : cause ≠ 8) (h1 : cause ≠ 1) (s : State) :
    lasting (acted m cause s) = ((lasting (clearTriggers s)).entered m cause).entering s.sys.mode m ∧
      ∃ ret, Calm (entered m cause ret (clearTriggers s)) (acted m cause s) := by
  rw [acted_eq h8 h1]
  split
  · obtain ⟨hl, hc⟩ := bootEnter_lasting m cause (clearTriggers s)
    exact ⟨hl, _, hc⟩
  · obtain ⟨hl, hc⟩ := modeTo_lasting m cause (if m = .fallback then some s.sys.mode else none) (clearTriggers s)
    exact ⟨hl, _, hc⟩

/-- The row of an event that asserts one trigger, in a tick that ends with it. -/
theorem row_of_trigger {f : State → State} {dt : Nat} {s : State} {m : Mode} {cause : Nat} (hg : tickGoesOn s.pending = false)
    (ht : (f (elapse dt s)).sys.triggers = [(m, cause)]) (ha : triggerActs (f (elapse dt s)) (m, cause) = true)
    (hp : (f (elapse dt s)).pair.peerDigests = []) (h8 : cause ≠ 8) (h1 : cause ≠ 1) :
    event dt f s = .next { clearTriggers (acted m cause (f (elapse dt s))) with pending := s.pending } := by
  have hd : (acted m cause (f (elapse dt s))).pair.peerDigests = [] :=
    (congrArg Lasting.peerDigests (acted_lasting h8 h1 (f (elapse dt s))).1).trans hp
  rw [event, endRow, if_neg (by rw [hg]; exact Bool.false_ne_true), settle_single ht ha hd]

/-! ### FAULT (R48, R540) -/

theorem axesSafe_outputs (now : Bool) (s : State) : OutputsMoved s (axesSafe now s) :=
  .foldl (fun s a => axisSafe_outputs now a s) _ s

theorem outputsSafe_outputs (now : Bool) (s : State) : OutputsMoved s (outputsSafe now s) := by
  unfold outputsSafe
  have h := OutputsMoved.foldl (f := fun s o => doSafe o s) (fun s o => doSafe_outputs o s) (List.range 24) s
  generalize (List.range 24).foldl (fun s o => doSafe o s) s = u at h ⊢
  exact h.trans (.foldl (f := fun s p => pwmSafe now p s) (fun s p => pwmSafe_outputs now p s) (List.range 8) u)

theorem drivePairOutput_outputs (s : State) : OutputsMoved s (drivePairOutput s) := by
  unfold drivePairOutput
  split
  · split
    · exact .refl s
    · exact ⟨_, _, _, _, rfl⟩
  · exact .refl s

theorem outputsMoved_pwr {s t : State} (h : OutputsMoved s t) : t.pwr = s.pwr := by
  obtain ⟨_, _, _, _, rfl⟩ := h
  rfl

theorem axesSafe_pwr (now : Bool) (s : State) : (axesSafe now s).pwr = s.pwr := outputsMoved_pwr (axesSafe_outputs now s)

theorem outputsSafe_pwr (now : Bool) (s : State) : (outputsSafe now s).pwr = s.pwr := outputsMoved_pwr (outputsSafe_outputs now s)

theorem drivePairOutput_pwr (s : State) : (drivePairOutput s).pwr = s.pwr := outputsMoved_pwr (drivePairOutput_outputs s)

theorem giveUpRole_pwr (cause : Nat) (m : Mode) (s : State) : (giveUpRole cause m s).pwr = s.pwr := by
  cases m <;> simp only [giveUpRole, axesSafe_pwr, outputsSafe_pwr, drivePairOutput_pwr, apply_ite State.pwr, updPair_pwr, ite_self]

theorem setFlights_all (p : FlightPower) (s : State) : (setFlights 0xFF p s).pwr.flights = Vector.replicate 8 p := by
  ext i hi
  simp only [setFlights, Vector.getElem_mapFinIdx, Vector.getElem_replicate]
  rw [if_pos]
  interval_cases i <;> rfl

theorem bootEnter_pwr (m : Mode) (cause : Nat) (s : State) : (bootEnter m cause s).pwr = (modeTo m cause none s).pwr := by
  have hv : ∀ u, (vaxStart u).pwr = u.pwr := by
    intro u
    simp only [vaxStart]
    exact outputsMoved_pwr (axesSafe_outputs true u)
  have hp : ∀ u, (pioStart u).pwr = u.pwr := by
    intro u
    simp only [pioStart]
    rw [outputsMoved_pwr (drivePairOutput_outputs _), outputsMoved_pwr (outputsSafe_outputs ..)]
  rw [bootEnter, hv, hp]

theorem endListening_pwr (m : Mode) (s : State) : (endListening m s).pwr = s.pwr := by
  cases m <;> rfl

theorem modeRest_fault_flights (old : Mode) (cause : Nat) (s : State) :
    (modeRest old .fault cause s).pwr.flights = Vector.replicate 8 .off := by
  simp only [modeRest, endListening_pwr, giveUpRole_pwr, modeFlights]
  exact setFlights_all ..

theorem modeLast_pwr (m : Mode) (s : State) : (modeLast m s).pwr = s.pwr := by
  cases m
  case fault => exact completeAll_pwr ..
  case lockdown =>
    simp only [modeLast]
    split <;> rfl
  all_goals rfl

/-- In FAULT every flight is off (R48). -/
theorem modeTo_fault_flights (cause : Nat) (ret : Option Mode) (s : State) :
    (modeTo .fault cause ret s).pwr.flights = Vector.replicate 8 .off := by
  rw [modeTo_eq, modeLast_pwr, modeRest_fault_flights]

theorem acted_fault_flights {cause : Nat} (h8 : cause ≠ 8) (h1 : cause ≠ 1) (s : State) :
    (acted .fault cause s).pwr.flights = Vector.replicate 8 .off := by
  rw [acted_eq h8 h1]
  split
  · rw [bootEnter_pwr, modeTo_fault_flights]
  · rw [modeTo_fault_flights]

/-- The record of a fault (R541). -/
def faultOf (cause block : Nat) (detail : Bytes) (s : State) : FaultRec :=
  { seq := (s.intg.faultCount + 1).toNat, cause := cause, block := block, mode := s.sys.mode.code, at_ := ⟨ptpSec s, ptpNs s⟩,
    detail := detail, snapSeq := s.intg.held.elim 0 (·.seq.toNat), intact := true }

theorem faultEntry_eq (cause block : Nat) (detail : Bytes) (s : State) :
    faultEntry cause block detail s =
      trigger .fault 6 (updIntg (fun x => { x with
        ring := (faultOf cause block detail s :: x.ring).take 8, faultCount := x.faultCount + 1 }) s) := rfl

/-- The row of an event that ends in a fault, in a tick that ends with it. `g` is the state in which the fault is recorded. -/
theorem row_of_faultEntry {f : State → State} {dt : Nat} {s g : State} {cause block : Nat} {detail : Bytes} (hq : Quiet s)
    (hg : tickGoesOn s.pending = false) (hf : f (elapse dt s) = faultEntry cause block detail g) (hsys : g.sys = s.sys)
    (hpair : g.pair.peerDigests = s.pair.peerDigests) (ha : triggerActs s (.fault, 6) = true) :
    event dt f s = .next { clearTriggers (acted .fault 6 (faultEntry cause block detail g)) with pending := s.pending } := by
  have ht : (faultEntry cause block detail g).sys.triggers = [(.fault, 6)] := by
    obtain ⟨h, -, -⟩ := hq
    rw [faultEntry_eq]
    show g.sys.triggers ++ [(.fault, 6)] = _
    rw [hsys, h, List.nil_append]
  have hact : triggerActs (faultEntry cause block detail g) (.fault, 6) = true := by
    rw [← ha]
    show (g.sys.mode != .backup && g.sys.mode != .holdup && g.sys.mode != .fault) = _
    rw [hsys]
    rfl
  have hp : (faultEntry cause block detail g).pair.peerDigests = [] := hpair.trans hq.2.1
  have hrow := row_of_trigger (f := f) (dt := dt) (s := s) (m := .fault) (cause := 6) hg (by rw [hf]; exact ht) (by rw [hf]; exact hact)
    (by rw [hf]; exact hp) (by decide) (by decide)
  rwa [hf] at hrow

/-- What the tick of a fault that ends with it leaves (R45, R540, R541). -/
theorem row_faults {f : State → State} {dt : Nat} {s g : State} {cause block : Nat} {detail : Bytes} (hq : Quiet s)
    (hg : tickGoesOn s.pending = false) (hf : f (elapse dt s) = faultEntry cause block detail g) (hsys : g.sys = s.sys)
    (hpair : g.pair.peerDigests = s.pair.peerDigests) (ha : triggerActs s (.fault, 6) = true) :
    ∃ t, event dt f s = .next t ∧ t.sys.mode = .fault ∧ t.sys.cause = 6 ∧ t.sys.prevMode = s.sys.mode.code ∧
      t.intg.ring = (faultOf cause block detail g :: g.intg.ring).take 8 ∧ t.intg.faultCount = g.intg.faultCount + 1 ∧
      t.intg.wdtRestarts = g.intg.wdtRestarts ∧ t.pwr.flights = Vector.replicate 8 .off ∧ t.sec.slots = g.sec.slots := by
  have hrow := row_of_faultEntry hq hg hf hsys hpair ha
  obtain ⟨hl, -⟩ := acted_lasting (m := .fault) (cause := 6) (by decide) (by decide) (faultEntry cause block detail g)
  have hring := congrArg Lasting.ring hl
  have hmode := congrArg Lasting.mode hl
  have hkeys := congrArg Lasting.keys hl
  have hfl := acted_fault_flights (cause := 6) (by decide) (by decide) (faultEntry cause block detail g)
  generalize acted .fault 6 (faultEntry cause block detail g) = u at hrow hring hmode hkeys hfl
  simp only [lasting, Lasting.entering, Lasting.entered, Prod.mk.injEq] at hring hmode hkeys
  obtain ⟨hr, hc, hw⟩ := hring
  obtain ⟨hm, hca, hpm⟩ := hmode
  obtain ⟨hk, -⟩ := hkeys
  refine ⟨_, hrow, hm, hca, hpm.trans ?_, hr, hc, hw, hfl, hk⟩
  rw [← hsys]
  rfl

end Sys2Proof.Machine


/-! Lockstep mismatches (R263, R264). -/

namespace Sys2Proof.Machine

/-- The execution that a recovered mismatch begins again. -/
def begunAgain (d : BTask) (r : Run) : Run :=
  { r with started := false, pc := BitVec.ofNat 32 d.entry, links := [], journal := [], div0 := false, again := true }

/-- The engine whose running execution is rolled back and begins again. -/
def rolledBack (us : Nat) (d : BTask) (r : Run) (below : List Run) (x : Engine) : Engine :=
  { x with mismatches := [us], regs := zeroRegs, data := rollback r x.data, runs := begunAgain d r :: below }

theorem vset_setEng (e : Nat) (x y : Engine) (s : State) : setEng e y (setEng e x s) = setEng e y s := by
  simp only [setEng, vset_vset]

theorem taskDef_setEng (e k i : Nat) (x : Engine) (s : State) : taskDef (setEng e x s) i k = taskDef s i k := rfl

/-- The first mismatch of an execution is recovered (R263). -/
theorem lockstepMismatch_recovers {s : State} {e : Fin 2} {r : Run} {below : List Run} {d : BTask} (hr : s.sys.inReset = false)
    (hb : s.sys.mode ≠ .backup) (hruns : (engOf s e).runs = r :: below) (hm : (engOf s e).mismatches = []) (ha : r.again = false)
    (ho : r.overflowed = false) (hd : taskDef s e r.task = some d) :
    lockstepMismatch e false s =
      snapSource 4 (post 0x0604 e [] 0 (updCtrl (fun c => { c with recovered := c.recovered + 1 })
        (updTask e r.task (fun y => { y with journalPeak := max y.journalPeak r.journal.length })
          (setEng e (rolledBack (monoUs s) d r below (engOf s e)) s)))) := by
  simp only [lockstepMismatch, hr, hm, List.filter_nil, List.length_nil, engOf_setEng_same, hruns, ha, ho, taskDef_setEng, hd, vset_setEng]
  simp only [hb, beq_iff_eq, Bool.false_or, if_false, Nat.le_zero_eq, OfNat.ofNat_ne_zero, decide_false, Bool.false_eq_true, Bool.or_self,
    Option.elim_some, rolledBack, begunAgain, ho]

/-- What a recovered mismatch leaves, and what it does not (R263). -/
theorem lockstepMismatch_recovered {s : State} {e : Fin 2} {r : Run} {below : List Run} {d : BTask} (hr : s.sys.inReset = false)
    (hb : s.sys.mode ≠ .backup) (hruns : (engOf s e).runs = r :: below) (hm : (engOf s e).mismatches = []) (ha : r.again = false)
    (ho : r.overflowed = false) (hd : taskDef s e r.task = some d) {t : State} (ht : t = lockstepMismatch e false s) :
    engOf t e = rolledBack (monoUs s) d r below (engOf s e) ∧ engOf t (1 - e.val) = engOf s (1 - e.val) ∧
      t.ctrl.recovered = s.ctrl.recovered + 1 ∧ t.ctrl.unrecovered = s.ctrl.unrecovered ∧ t.sys = s.sys ∧ t.pio = s.pio ∧
      t.pair = s.pair ∧ t.pending = s.pending := by
  rw [lockstepMismatch_recovers hr hb hruns hm ha ho hd] at ht
  generalize rolledBack (monoUs s) d r below (engOf s e) = x at ht ⊢
  have hctrl : t.ctrl = { (updTask e r.task (fun y => { y with journalPeak := max y.journalPeak r.journal.length }) (setEng e x s)).ctrl with
      recovered := s.ctrl.recovered + 1 } := by
    rw [ht]; simp
  have hother : (e.val : Nat) ≠ 1 - e.val := by omega
  have heng : ∀ i, engOf t i = engOf (setEng e x s) i := fun i => by
    rw [engOf, hctrl]; rfl
  refine ⟨by rw [heng, engOf_setEng_same], by rw [heng, engOf_setEng_other hother], by rw [hctrl], by rw [hctrl]; rfl, ?_, ?_, ?_, ?_⟩ <;>
    rw [ht] <;> simp

/-- The end of what executes when a mismatch is not recovered (R264). -/
def enginesStopped (e task pc : Nat) (s : State) : State :=
  snapSource 4 (axesSafe false (outputsSafe false
    (updCtrl (fun c => { c with lockstepStop := true, unrecovered := c.unrecovered + 1 })
      (stopTasks (post 0x0605 0 (le 1 e ++ le 1 task ++ le 4 pc) 0 (draw s))))))

theorem enginesStopped_lasting (e task pc : Nat) (s : State) :
    lasting (enginesStopped e task pc s) = { lasting s with lockstepStop := true, unrecovered := s.ctrl.unrecovered + 1 } := by
  obtain ⟨hl, -⟩ := ((draw_mild s).trans (post_mild 0x0605 0 (le 1 e ++ le 1 task ++ le 4 pc) 0 _)).trans (stopTasks_mild _)
  unfold enginesStopped
  generalize stopTasks (post 0x0605 0 (le 1 e ++ le 1 task ++ le 4 pc) 0 (draw s)) = u at hl ⊢
  obtain ⟨hl', -⟩ := ((outputsSafe_mild false (updCtrl (fun c => { c with lockstepStop := true, unrecovered := c.unrecovered + 1 }) u)).trans
    (axesSafe_mild false _)).trans (snapSource_mild 4 _)
  have hu : u.ctrl.unrecovered = s.ctrl.unrecovered := congrArg Lasting.unrecovered hl
  rw [hl', ← hl, ← hu]
  rfl

/-- A mismatch that is not recovered stops both engines, and asks for SAFE from a mode with codes 2 to 7 (R264). -/
theorem lockstepUnrecovered_trigger {s : State} (e : Nat) (h2 : 2 ≤ s.sys.mode.code) (h7 : s.sys.mode.code ≤ 7) :
    ∃ task pc, lockstepUnrecovered e s = trigger .safe 7 (enginesStopped e task pc s) := by
  have h : ∀ task pc, (enginesStopped e task pc s).sys.mode = s.sys.mode := fun task pc =>
    congrArg (·.mode.1) (enginesStopped_lasting e task pc s)
  refine ⟨(engOf s e).runs.head?.elim (Config.openValue 47 s.draws % 16) (·.task),
    (engOf s e).runs.head?.elim (0x40000 + 4 * (Config.openValue 47 s.draws / 16 % 65536)) fun x => x.pc.toNat, if_pos ?_⟩
  exact ⟨(congrArg Mode.code (h _ _)).symm ▸ h2, (congrArg Mode.code (h _ _)).symm ▸ h7⟩

/-- A mismatch in a rollback, or a second one of an execution, is not recovered (R264). -/
theorem lockstepMismatch_fails {s : State} {e : Fin 2} {inRollback : Bool} {r : Run} {below : List Run} (hr : s.sys.inReset = false)
    (hb : s.sys.mode ≠ .backup) (hruns : (engOf s e).runs = r :: below) (h : inRollback = true ∨ r.again = true) :
    ∃ x, lockstepMismatch e inRollback s = lockstepUnrecovered e (setEng e x s) := by
  have hstop : ∀ third, (inRollback || third || r.again || r.overflowed) = true := by
    intro third
    rcases h with h | h <;> simp [h]
  simp only [lockstepMismatch, hr, engOf_setEng_same, hruns, hstop, hb, beq_iff_eq, Bool.false_or, if_false, if_true]
  exact ⟨_, rfl⟩

theorem tasksExecute_of_stop {s : State} (h : s.ctrl.lockstepStop = true) : tasksExecute s = false := by
  simp [tasksExecute, h]

/-- Settles O37: a recovered mismatch is one change of its engine; one that is not asserts the trigger of SAFE. -/
theorem lockstepComplete : Obligations.LockstepComplete := by
  unfold Obligations.LockstepComplete
  refine ⟨?_, ?_⟩
  · intro dt e r below d s hq hr hb hruns hm ha ho hd
    have hmono := engOf_elapse hq dt e
    obtain ⟨t, ht⟩ : ∃ t, t = lockstepMismatch e false (elapse dt s) := ⟨_, rfl⟩
    obtain ⟨heng, hother, hrec, hunrec, hsys, hpio, hpair, hpend⟩ := lockstepMismatch_recovered
      (by rw [elapse_sys hq.nothingWaits]; exact hr) (by rw [elapse_sys hq.nothingWaits]; exact hb) (by rw [hmono]; exact hruns)
      (by rw [hmono]; exact hm) ha ho ((elapse_read (taskDef · e r.task) (fun _ _ _ => rfl) hq dt).trans hd) ht
    have hrow : exec (.lockstepMismatch dt e false) s = .next (lockstepMismatch e false (elapse dt s)) := by
      obtain ⟨htrig, hdig, -⟩ := quiet_elapse hq dt
      refine event_of_settled ?_ ?_
      · rw [← ht]
        exact ⟨by rw [hsys, htrig], by rw [hpair, hdig]⟩
      · rw [← ht, hpend, elapse_pending hq.nothingWaits]
    rw [← ht] at hrow
    rw [hmono] at heng
    refine ⟨t, hrow, by rw [heng]; rfl, by rw [heng]; rfl, by rw [heng]; rfl, ?_, ?_, ?_, ?_, ?_⟩
    · rw [hrec, elapse_ctrl hq.nothingWaits]
    · rw [hunrec, elapse_ctrl hq.nothingWaits]
    · rw [hother, engOf_elapse hq]
    · rw [hsys, elapse_sys hq.nothingWaits]
    · rw [hpio, elapse_pio hq.nothingWaits]
  · intro dt e inRollback r below s hq hg hr h2 h7 hruns h
    have hsys := elapse_sys hq.nothingWaits dt
    have hb : s.sys.mode ≠ .backup := fun e => by rw [e] at h2; exact absurd h2 (by decide)
    have hsafe : s.sys.mode ≠ .safe := fun e => by rw [e] at h7; exact absurd h7 (by decide)
    obtain ⟨x, hx⟩ := lockstepMismatch_fails (s := elapse dt s) (by rw [hsys]; exact hr) (by rw [hsys]; exact hb)
      (by rw [engOf_elapse hq]; exact hruns) h
    obtain ⟨task, pc, hu⟩ := lockstepUnrecovered_trigger (s := setEng e x (elapse dt s)) e
      (by rw [setEng_sys, hsys]; exact h2) (by rw [setEng_sys, hsys]; exact h7)
    have hl := enginesStopped_lasting e task pc (setEng e x (elapse dt s))
    rw [hu] at hx
    generalize enginesStopped e task pc (setEng e x (elapse dt s)) = u at hl hx
    have ht : u.sys.triggers = [] := (congrArg Lasting.triggers hl).trans (by rw [← hq.1, ← hsys]; rfl)
    have hmode : u.sys.mode = s.sys.mode := (congrArg (·.mode.1) hl).trans (congrArg Sys.mode hsys)
    have hp : u.pair.peerDigests = [] := (congrArg Lasting.peerDigests hl).trans (quiet_elapse hq dt).2.1
    have hrow : exec (.lockstepMismatch dt e inRollback) s =
        .next { clearTriggers (acted .safe 7 (lockstepMismatch e inRollback (elapse dt s))) with pending := s.pending } := by
      refine row_of_trigger hg ?_ ?_ ?_ (by decide) (by decide)
      · rw [hx]; exact congrArg (· ++ [(Mode.safe, 7)]) ht
      · rw [hx]
        show (decide (2 ≤ u.sys.mode.code) && decide (u.sys.mode.code ≤ 7)) = true
        rw [hmode]
        simp [h2, h7]
      · rw [hx]; exact hp
    rw [hx] at hrow
    obtain ⟨hl', -⟩ := acted_lasting (m := .safe) (cause := 7) (by decide) (by decide) (trigger .safe 7 u)
    generalize acted .safe 7 (trigger .safe 7 u) = w at hl' hrow
    have hstop : w.ctrl.lockstepStop = true := by
      refine (congrArg Lasting.lockstepStop hl').trans ?_
      show (if u.sys.mode = .safe ∧ taskMode .safe = true then false else u.ctrl.lockstepStop) = true
      rw [if_neg (by rw [hmode]; exact fun e => hsafe e.1)]
      exact congrArg Lasting.lockstepStop hl
    refine ⟨_, hrow, congrArg (·.mode.1) hl', congrArg (·.mode.2.1) hl', hstop, ?_, tasksExecute_of_stop hstop⟩
    refine (congrArg Lasting.unrecovered hl').trans ((congrArg Lasting.unrecovered hl).trans ?_)
    exact congrArg (·.unrecovered + 1) (elapse_ctrl hq.nothingWaits dt)

end Sys2Proof.Machine


/-! Keys, images and tamper detection (R494 to R523). -/

namespace Sys2Proof.Machine

/-! ### The key table (R494) -/

/-- The key of a slot in a table of slots. -/
def keyIn (l : List (Nat × KeySlot)) (n : Nat) : Option Bytes := (l.find? fun x => x.1 == n).map fun x => xorBytes x.2.share0 x.2.share1

theorem find_putKeyIn_self (n : Nat) (k : KeySlot) (l : List (Nat × KeySlot)) :
    (putKeyIn n k l).find? (fun x => x.1 == n) = some (n, k) := by
  induction l with
  | nil => simp [putKeyIn]
  | cons y l ih =>
    simp only [putKeyIn]
    split
    · simp
    · split
      · simp
      · next h => rw [List.find?_cons_of_neg (by simpa using fun e => h e.symm), ih]

theorem find_putKeyIn_ne {m n : Nat} (h : m ≠ n) (k : KeySlot) (l : List (Nat × KeySlot)) :
    (putKeyIn n k l).find? (fun x => x.1 == m) = l.find? (fun x => x.1 == m) := by
  induction l with
  | nil => simp [putKeyIn, h.symm]
  | cons y l ih =>
    simp only [putKeyIn]
    split
    · rw [List.find?_cons_of_neg (by simpa using h.symm)]
    · split
      · next e => rw [List.find?_cons_of_neg (by simpa using h.symm), List.find?_cons_of_neg (by simpa [← e] using h.symm)]
      · simp only [List.find?_cons, ih]

/-- A slot of an ascending table that is written again keeps its place. -/
theorem putKeyIn_keys {n : Nat} {l : List (Nat × KeySlot)} (k : KeySlot) (hn : n ∈ l.map (·.1))
    (ha : (l.map (·.1)).Pairwise (· < ·)) : (putKeyIn n k l).map (·.1) = l.map (·.1) := by
  induction l with
  | nil => simp at hn
  | cons y l ih =>
    simp only [List.map_cons, List.pairwise_cons, List.mem_cons] at ha hn
    obtain ⟨hy, ha⟩ := ha
    simp only [putKeyIn]
    split
    next h =>
      rcases hn with rfl | hn
      · exact absurd h (lt_irrefl _)
      · exact absurd (hy n hn) (by omega)
    next =>
      split
      next e => simp [e]
      next hne => simp [ih (hn.resolve_left hne) ha]

theorem keyIn_of_mem {l : List (Nat × KeySlot)} (ha : (l.map (·.1)).Pairwise (· < ·)) {x : Nat × KeySlot} (hx : x ∈ l) :
    keyIn l x.1 = some (xorBytes x.2.share0 x.2.share1) := by
  induction l with
  | nil => simp at hx
  | cons y l ih =>
    simp only [List.map_cons, List.pairwise_cons] at ha
    obtain ⟨hy, ha⟩ := ha
    rcases List.mem_cons.1 hx with rfl | hx
    · simp [keyIn]
    · have hne : y.1 ≠ x.1 := Nat.ne_of_lt (hy x.1 (List.mem_map_of_mem hx))
      rw [keyIn, List.find?_cons_of_neg (by simpa using hne)]
      exact ih ha hx

/-- A mask on both shares leaves the key (R494). -/
theorem xorBytes_masked (a b m : Bytes) (h : m.length = a.length) : xorBytes (xorBytes a m) (xorBytes b m) = xorBytes a b := by
  apply List.ext_getElem
  · simp [xorBytes]; omega
  · intro i h1 h2
    simp only [xorBytes, List.getElem_map, List.getElem_zip]
    generalize a[i]'_ = x, b[i]'_ = y, m[i]'_ = z
    rw [BitVec.xor_assoc, BitVec.xor_comm y z, ← BitVec.xor_assoc z, BitVec.xor_self, BitVec.zero_xor]

/-- A slot of the key table masked anew. -/
def maskedSlot (s : State) (k : KeySlot) : KeySlot :=
  ⟨xorBytes k.share0 (trngBytes k.share0.length s).1, xorBytes k.share1 (trngBytes k.share0.length s).1, k.attrs⟩

def maskStep (s : State) (x : Nat × KeySlot) : State :=
  updSec (fun y => { y with slots := putKeyIn x.1 (maskedSlot s x.2) y.slots }) (draw s)

/-- Masks on slots of a table leave every key, and the slots in their places. -/
theorem maskSteps_eq {S : List (Nat × KeySlot)} (ha : (S.map (·.1)).Pairwise (· < ·)) (l : List (Nat × KeySlot)) (hl : l ⊆ S) (s : State)
    (hk : s.sec.slots.map (·.1) = S.map (·.1)) (hkey : ∀ n, keyIn s.sec.slots n = keyIn S n) :
    ∃ sl, l.foldl maskStep s = { s with sec := { s.sec with slots := sl }, draws := s.draws + l.length } ∧
      sl.map (·.1) = S.map (·.1) ∧ ∀ n, keyIn sl n = keyIn S n := by
  induction l generalizing s with
  | nil => exact ⟨s.sec.slots, rfl, hk, hkey⟩
  | cons x l ih =>
    have hx := hl List.mem_cons_self
    have hkeys : (maskStep s x).sec.slots.map (·.1) = S.map (·.1) :=
      (putKeyIn_keys (l := s.sec.slots) _ (by rw [hk]; exact List.mem_map_of_mem hx) (by rw [hk]; exact ha)).trans hk
    have hkeep : ∀ n, keyIn (maskStep s x).sec.slots n = keyIn S n := by
      intro n
      show keyIn (putKeyIn x.1 (maskedSlot s x.2) s.sec.slots) n = _
      by_cases hn : n = x.1
      · rw [hn, keyIn_of_mem ha hx, keyIn, find_putKeyIn_self]
        exact congrArg some (xorBytes_masked _ _ _ (by simp [trngBytes]))
      · rw [← hkey, keyIn, find_putKeyIn_ne hn, keyIn]
    obtain ⟨sl, e, h1, h2⟩ := ih (fun y hy => hl (List.mem_cons_of_mem _ hy)) (maskStep s x) hkeys hkeep
    refine ⟨sl, e.trans ?_, h1, h2⟩
    simp only [maskStep, updSec, draw, List.length_cons, Nat.add_assoc, Nat.add_comm 1]

/-- Re-masking (R494). -/
theorem remask_eq {s : State} (ha : (s.sec.slots.map (·.1)).Pairwise (· < ·)) (hr : s.sys.inReset = false) (hb : s.sys.mode ≠ .backup)
    (ht : s.sec.trngStopped = false) :
    ∃ sl, remask s =
        { s with sec := { s.sec with slots := sl, remasks := s.sec.remasks + 1 }, draws := s.draws + s.sec.slots.length } ∧
      sl.map (·.1) = s.sec.slots.map (·.1) ∧ ∀ n, keyIn sl n = slotKey s n := by
  obtain ⟨sl, e, hk, hkey⟩ := maskSteps_eq ha s.sec.slots (List.Subset.refl _) s rfl fun _ => rfl
  refine ⟨sl, ?_, hk, hkey⟩
  have hgo : (s.sys.inReset || s.sys.mode == .backup || noRandom s) = false := by simp [hr, hb, noRandom, ht]
  unfold remask
  rw [if_neg (by rw [hgo]; exact Bool.false_ne_true)]
  exact congrArg (updSec fun x => { x with remasks := x.remasks + 1 }) e

/-! ### Images (R514, R517, R518) -/

theorem imageOf_updClass_self {cls : Nat} (h1 : 1 ≤ cls) (h7 : cls ≤ 7) (f : ImageClass → ImageClass) (s : State) :
    imageOf (updClass cls f s) cls = f (imageOf s cls) := vget_vset_self (by omega) ..

theorem imageOf_updClass_ne {cls c : Nat} (h1 : 1 ≤ cls) (hc : 1 ≤ c) (hne : c ≠ cls) (f : ImageClass → ImageClass) (s : State) :
    imageOf (updClass cls f s) c = imageOf s c := vget_vset_ne (by omega) ..

theorem imageOf_of_sec {s t : State} (h : t.sec = s.sec) (c : Nat) : imageOf t c = imageOf s c := by simp [imageOf, h]

theorem imageOf_completeAll (f : Wait → Bool) (st : Nat) (reg : Bool) (b : Bytes) (s : State) (c : Nat) :
    imageOf (completeAll f st reg b s) c = imageOf s c := imageOf_of_sec (completeAll_sec ..) c

theorem imageSlot_setImageSlot_same (b : Bool) (v : ImageSlot) (x : ImageClass) : imageSlot (setImageSlot b v x) b = v := by
  cases b <;> rfl

theorem imageSlot_setImageSlot_other (b : Bool) (v : ImageSlot) (x : ImageClass) :
    imageSlot (setImageSlot (!b) v x) b = imageSlot x b := by
  cases b <;> rfl

/-- What an activation that ends leaves of its image class (R518). -/
def activated (outcome : Nat) (y : ImageClass) : ImageClass :=
  match outcome with
  | 0 =>
    let z := { runSlot (!y.running) y with
      selector := !y.running, counter := max y.counter (slotRollback (imageSlot y (!y.running))) }
    let back := decide (slotRollback (imageSlot y y.running) < z.counter)
    { z with stage := if back then 4 else 3, verify := if back then 6 else 0, length := 0, received := [] }
  | 1 => { y with stage := 4, verify := 7 }
  | _ => { y with stage := 3 }

/-- An activation that ends changes its image class, is recorded, and completes the command that waits for it. -/
theorem endActivation_eq (cls outcome : Nat) (s : State) :
    ∃ body u, u.hif = s.hif ∧ u.sec = (updClass cls (activated outcome) s).sec ∧
      endActivation cls outcome s = completeAll (· == .imageSwitch cls) stOK false body u := by
  simp only [endActivation]
  refine ⟨_, _, ?_, ?_, rfl⟩
  · rfl
  · rcases outcome with _ | _ | n <;> rfl

theorem switchEffects_kept {cls : Nat} (h : 4 ≤ cls) (us : Nat) (s : State) :
    (switchEffects cls us s).sec = s.sec ∧ (switchEffects cls us s).hif = s.hif := by
  unfold switchEffects
  split
  · omega
  · omega
  · exact ⟨rfl, rfl⟩
  · exact ⟨rfl, rfl⟩

theorem monoUs_elapse_le {s : State} (h : Quiet s) (dt : Nat) : monoUs s ≤ monoUs (elapse dt s) := by
  unfold monoUs
  rw [elapse_clock h.nothingWaits]
  refine Nat.div_le_div_right ?_
  simp [Clock.advance]

theorem atSwitchPoint_elapse {s : State} (h : Quiet s) (dt : Nat) {cls : Nat} (h4 : 4 ≤ cls) (ha : atSwitchPoint cls s = true) :
    atSwitchPoint cls (elapse dt s) = true := by
  unfold atSwitchPoint at ha ⊢
  split
  · omega
  · omega
  · omega
  · simp only [elapse_subl h.nothingWaits, Bool.and_eq_true, decide_eq_true_eq] at ha ⊢
    obtain ⟨hc, hp, hm⟩ := ha
    exact ⟨hc, (elapse_read (fun s => (imageOf s 4).pendUs) (fun _ _ _ => rfl) h dt).trans_le hp, lt_of_lt_of_le hm (monoUs_elapse_le h dt)⟩
  · exact (elapse_read (fun s => (List.range 8).all fun a => (axisOf s a).state == .standstill || !axisEnabled s a)
      (fun _ _ _ => rfl) h dt).trans ha
  · exact (elapse_read (fun s => s.epd.running.isEmpty) (fun _ _ _ => rfl) h dt).trans ha
  · rfl

/-- A pending image of classes 4 to 7 at its switch point: the activation ends, and the switch has its effects (R518). -/
theorem imageSwitch_at {s : State} {cls : Nat} (h4 : 4 ≤ cls) (h7 : cls ≤ 7) (hs : (imageOf s cls).stage = 5)
    (ha : atSwitchPoint cls s = true) (us : Nat) (ok : Bool) :
    imageSwitch cls us ok s = switchEffects cls us (endActivation cls (if ok then 0 else 1) s) := by
  have h3 : cls ≠ 3 := by omega
  simp [imageSwitch, hs, ha, h3]

/-- What an image switch leaves of the classes, and of the command that waits for it. -/
theorem imageSwitch_ends {s : State} {cls : Nat} (h4 : 4 ≤ cls) (h7 : cls ≤ 7) (hs : (imageOf s cls).stage = 5)
    (ha : atSwitchPoint cls s = true) (us : Nat) (ok : Bool) {t : State} (ht : t = imageSwitch cls us ok s) :
    imageOf t cls = activated (if ok then 0 else 1) (imageOf s cls) ∧ (∀ c, 1 ≤ c → c ≠ cls → imageOf t c = imageOf s c) ∧
      (∀ tag e, s.hif.tags = [(tag, .executing e)] → e.wait = .imageSwitch cls → ∃ h, tagOf t tag = some (.held h) ∧ h.status = stOK) := by
  rw [imageSwitch_at h4 h7 hs ha] at ht
  obtain ⟨body, u, hhif, hsec, e⟩ := endActivation_eq cls (if ok then 0 else 1) s
  rw [e] at ht
  obtain ⟨ksec, khif⟩ := switchEffects_kept h4 us (completeAll (· == .imageSwitch cls) stOK false body u)
  have himg : ∀ c, imageOf t c = imageOf (updClass cls (activated (if ok then 0 else 1)) s) c := fun c =>
    imageOf_of_sec (by rw [ht, ksec, completeAll_sec, hsec]) c
  refine ⟨?_, fun c hc hne => ?_, fun tag e htag hw => ?_⟩
  · rw [himg, imageOf_updClass_self (by omega) h7]
  · rw [himg, imageOf_updClass_ne (by omega) hc hne]
  · obtain ⟨h, hh, hst⟩ := completeAll_held (f := (· == .imageSwitch cls)) (st := stOK) (reg := false) (b := body) hhif tag e htag
      (by simp [hw])
    refine ⟨h, ?_, hst⟩
    rw [← hh, ht]
    simp only [tagOf, khif]

/-! ### Verification of a staged image (R514, R517) -/

/-- The class whose staged image has been verified with a code. -/
def verified (code : Nat) (x : ImageClass) : ImageClass :=
  setImageSlot (!x.running) (.held ⟨x.received.take 512, x.received.drop 512⟩)
    { x with stage := if code = 0 then 3 else 4, verify := code }

theorem verified_facts (code : Nat) (x : ImageClass) :
    (verified code x).stage = (if code = 0 then 3 else 4) ∧ (verified code x).verify = code ∧
      imageSlot (verified code x) (!x.running) = .held ⟨x.received.take 512, x.received.drop 512⟩ ∧
      imageSlot (verified code x) x.running = imageSlot x x.running ∧ (verified code x).running = x.running := by
  unfold verified
  cases h : x.running <;> exact ⟨rfl, rfl, rfl, rfl, rfl⟩

theorem imageVerified_eq {s : State} {cls : Nat} (hs : (imageOf s cls).stage = 2) (readable classOk : Bool) {code : Nat}
    (hc : code = imageCode s cls ⟨(imageOf s cls).received.take 512, (imageOf s cls).received.drop 512⟩ readable classOk) :
    imageVerified cls readable classOk s =
      completeAll (· == .imageVerify cls) stOK false (imageStageBody (verified code (imageOf s cls)))
        (updClass cls (fun _ => verified code (imageOf s cls)) s) := by
  rw [hc]
  simp only [imageVerified, hs, bne_self_eq_false, Bool.false_eq_true, if_false]
  rfl

/-! ### Tamper detection (R520 to R523) -/

/-- The tamper record once a source has been detected (R522). -/
def detected (k now : Nat) (sit : Nat) (t : Tamp) : Tamp :=
  { t with
    set_ := true, sources := Nat.lor t.sources (2 ^ k), situation := if t.set_ then t.situation else sit,
    count := if t.count = 0xFFFFFFFF then t.count else t.count + 1, first := if t.set_ then t.first else now }

theorem bit_lor_self (n k : Nat) : bit (Nat.lor n (2 ^ k)) k = true := by
  have h : (n ||| 2 ^ k).testBit k = true := by rw [Nat.testBit_lor, Nat.testBit_two_pow_self, Bool.or_true]
  rwa [← bit_eq_testBit] at h

theorem endSession_shape (tr : Transport) (s : State) :
    ∃ h sl, endSession tr s = { s with hif := h, sec := { s.sec with slots := sl } } := by
  cases tr <;> exact ⟨_, _, rfl⟩

/-- Zeroisation ends the sessions and leaves no key (R523). -/
theorem zeroise_shape (s : State) :
    ∃ h, zeroise s = { s with hif := h, sec := { s.sec with slots := [], keysLoaded := false } } := by
  obtain ⟨h₁, sl₁, e₁⟩ := endSession_shape .xspi s
  obtain ⟨h₂, sl₂, e₂⟩ := endSession_shape .udp { s with hif := h₁, sec := { s.sec with slots := sl₁ } }
  obtain ⟨h₃, sl₃, e₃⟩ := endSession_shape .uart { s with hif := h₂, sec := { s.sec with slots := sl₂ } }
  refine ⟨h₃, ?_⟩
  rw [zeroise, endSessions, e₁, e₂, e₃]
  rfl

theorem zeroise_lasting (s : State) :
    lasting (zeroise s) = { lasting s with keys := ([], false, s.sec.records, s.sec.hostKeys) } := by
  obtain ⟨_, e⟩ := zeroise_shape s
  rw [e]
  rfl

/-- The tamper recorded (R522). -/
def tamperRecorded (k : Nat) (s : State) : State := { s with tamp := detected k (ptpSec s) 3 s.tamp }

/-- The flags of the metering marked in a metering mode, and the event recorded (R520, R522). -/
def tamperPosted (k : Nat) (s : State) : State :=
  let d := detected k (ptpSec s) 3 s.tamp
  snapSource 9 (tamperEvent d.sources 3 d.count.toNat d.first 0
    (if meteringMode (tamperRecorded k s) then markTamper (tamperRecorded k s) else tamperRecorded k s))

theorem tamper_eq {s : State} {k : Nat} (ha : tampArmed s k = true) (hsit : tampSituation s = 3) (hb : s.sys.mode ≠ .backup) :
    tamper k s = trigger .lockdown 5 (zeroise (dropActivations (tamperPosted k s))) := by
  have hb' : (s.sys.mode == .backup) = false := by simpa using hb
  simp only [tamper, ha, hb', hsit, Bool.and_false, Bool.not_true, Bool.or_self, Bool.false_eq_true, if_false, OfNat.ofNat_ne_zero]
  rfl

theorem tamperPosted_lasting (k : Nat) (s : State) :
    lasting (tamperPosted k s) = { lasting s with tamp := detected k (ptpSec s) 3 s.tamp } := by
  obtain ⟨hm, -⟩ := mild_ite (c := meteringMode (tamperRecorded k s) = true) (markTamper_mild (tamperRecorded k s)) (.refl _)
  simp only [tamperPosted]
  generalize (if meteringMode (tamperRecorded k s) = true then markTamper (tamperRecorded k s) else tamperRecorded k s) = u at hm ⊢
  obtain ⟨hs, -⟩ := (post_mild 0x1102 0 (le 1 (detected k (ptpSec s) 3 s.tamp).sources ++ le 1 3 ++
    le 4 (detected k (ptpSec s) 3 s.tamp).count.toNat ++ le 6 (detected k (ptpSec s) 3 s.tamp).first) 0 u).trans (snapSource_mild 9 _)
  exact hs.trans hm

/-- A detection outside BOOT, BACKUP, HOLDUP, LOCKDOWN and FAULT latches the tamper, zeroises, and asks for LOCKDOWN (R520 to R523). -/
theorem tamper_trigger {s : State} {k : Nat} (ha : tampArmed s k = true) (h2 : 2 ≤ s.sys.mode.code) (h8 : s.sys.mode.code ≤ 8) :
    ∃ u, tamper k s = trigger .lockdown 5 u ∧
      lasting u = { lasting s with
        tamp := detected k (ptpSec s) 3 s.tamp, keys := ([], false, s.sec.records, s.sec.hostKeys) } := by
  have hsit : tampSituation s = 3 := by
    unfold tampSituation
    split <;> simp_all [Mode.code]
  have hb : s.sys.mode ≠ .backup := fun e => by rw [e] at h2; exact absurd h2 (by decide)
  refine ⟨_, tamper_eq ha hsit hb, ?_⟩
  obtain ⟨hd, -⟩ := dropActivations_mild (tamperPosted k s)
  have hl := hd.trans (tamperPosted_lasting k s)
  rw [zeroise_lasting, hl]
  have hk := congrArg Lasting.keys hl
  simp only [lasting, Prod.mk.injEq] at hk
  obtain ⟨-, -, hr, hh⟩ := hk
  rw [hr, hh]

theorem tampArmed_elapse {s : State} {k : Nat} (hq : Quiet s) (dt : Nat) (ha : tampArmed s k = true) : tampArmed (elapse dt s) k = true :=
  (elapse_read (tampArmed · k) (fun _ _ _ => rfl) hq dt).trans ha

/-- The state whose mesh loop has a number of mismatches in succession. -/
def meshRunSet (loop : Fin 2) (n : Nat) (s : State) : State :=
  { s with tamp := { s.tamp with meshRun := s.tamp.meshRun.set loop n } }

/-- The first mismatch of a mesh loop is counted (R520). -/
theorem meshComparison_first {s : State} {loop : Fin 2} (ha : tampArmed s loop = true) (hn : s.tamp.meshRun[loop] = 0) :
    meshComparison loop true s =
      { s with tamp := { s.tamp with meshMismatches := s.tamp.meshMismatches + 1, meshRun := s.tamp.meshRun.set loop 1 } } := by
  have hg : vget s.tamp.meshRun loop 0 = 0 := (vget_fin _ loop 0).trans hn
  simp only [meshComparison, ha, hg, Bool.not_true, Bool.false_eq_true, if_false]
  congr 2
  exact vset_fin _ loop 1

/-- The second in succession is a detection (R520). -/
theorem meshComparison_second {s : State} {loop : Fin 2} (ha : tampArmed s loop = true) (hn : s.tamp.meshRun[loop] = 1) :
    meshComparison loop true s = tamper loop (meshRunSet loop 2 s) := by
  have hg : vget s.tamp.meshRun loop 0 = 1 := (vget_fin _ loop 0).trans hn
  simp only [meshComparison, ha, hg, Bool.not_true, Bool.false_eq_true, if_false]
  rw [vset_fin]
  rfl

/-- What the tick of a detection leaves, where it ends with it (R523). -/
theorem row_tampers {f : State → State} {dt k : Nat} {s : State} (hq : Quiet s) (hg : tickGoesOn s.pending = false)
    (h2 : 2 ≤ s.sys.mode.code) (h8 : s.sys.mode.code ≤ 8) {v : State} (hf : f (elapse dt s) = tamper k v) (hv : v.sys = s.sys)
    (hp : v.pair.peerDigests = []) (ha : tampArmed v k = true) :
    ∃ t, event dt f s = .next t ∧ t.sys.mode = .lockdown ∧ t.sys.cause = 5 ∧ t.sec.slots = [] ∧ t.sec.keysLoaded = false ∧
      t.tamp = detected k (ptpSec v) 3 v.tamp ∧ t.sec.records = v.sec.records ∧ t.sec.hostKeys = v.sec.hostKeys ∧ t.cfg = v.cfg := by
  obtain ⟨u, hu, hl⟩ := tamper_trigger ha (by rw [hv]; exact h2) (by rw [hv]; exact h8)
  rw [hu] at hf
  have ht : u.sys.triggers = [] := (congrArg Lasting.triggers hl).trans ((congrArg Sys.triggers hv).trans hq.1)
  have hmode : u.sys.mode = s.sys.mode := (congrArg (·.mode.1) hl).trans (congrArg Sys.mode hv)
  have hrow : event dt f s = .next { clearTriggers (acted .lockdown 5 (f (elapse dt s))) with pending := s.pending } := by
    refine row_of_trigger hg ?_ ?_ ?_ (by decide) (by decide)
    · rw [hf]; exact congrArg (· ++ [(Mode.lockdown, 5)]) ht
    · rw [hf]
      show (decide (2 ≤ u.sys.mode.code) && decide (u.sys.mode.code ≤ 8) || (u.sys.mode == .boot && u.pair.listening.isSome)) = true
      rw [hmode]
      simp [h2, h8]
    · rw [hf]; exact (congrArg Lasting.peerDigests hl).trans hp
  rw [hf] at hrow
  obtain ⟨hl', -⟩ := acted_lasting (m := .lockdown) (cause := 5) (by decide) (by decide) (trigger .lockdown 5 u)
  generalize acted .lockdown 5 (trigger .lockdown 5 u) = w at hl' hrow
  have hku : (lasting w).keys = (lasting u).keys := (congrArg Lasting.keys hl').trans rfl
  have htamp : w.tamp = u.tamp := (congrArg Lasting.tamp hl').trans rfl
  have hcfg : w.cfg = u.cfg := (congrArg Lasting.cfg hl').trans rfl
  have hk := hku.trans (congrArg Lasting.keys hl)
  simp only [lasting, Prod.mk.injEq] at hk
  obtain ⟨hslots, hload, hrec, hhost⟩ := hk
  exact ⟨_, hrow, congrArg (·.mode.1) hl', congrArg (·.mode.2.1) hl', hslots, hload,
    htamp.trans (congrArg Lasting.tamp hl), hrec, hhost, hcfg.trans (congrArg Lasting.cfg hl)⟩

/-- Settles O52: each event is followed through its row, and a detection through the trigger of LOCKDOWN. -/
theorem securityEventsComplete : Obligations.SecurityEventsComplete := by
  unfold Obligations.SecurityEventsComplete
  refine ⟨?_, ?_, ?_, ?_, ?_, ?_, ?_, ?_⟩
  · intro dt s hq hc hr hb ht
    have ha : (s.sec.slots.map (·.1)).Pairwise (· < ·) := by
      rw [canonical_iff_sound] at hc
      exact hc.slots
    have hrow : exec (.remask dt) s = .next (remask (elapse dt s)) := row_of_follows hq fun u => follows_remask (.refl _)
    have hsec := elapse_sec hq.nothingWaits dt
    have hsys := elapse_sys hq.nothingWaits dt
    obtain ⟨sl, e, hk, hkey⟩ := remask_eq (s := elapse dt s) (by rw [hsec]; exact ha) (by rw [hsys]; exact hr) (by rw [hsys]; exact hb)
      (by rw [hsec]; exact ht)
    rw [e] at hrow
    refine ⟨_, hrow, ?_, ?_, ?_, ?_⟩
    · intro n
      exact (hkey n).trans (elapse_read (slotKey · n) (fun _ _ _ => rfl) hq dt)
    · exact hk.trans (congrArg (fun x : Sec => x.slots.map (·.1)) hsec)
    · exact congrArg (·.remasks + 1) hsec
    · rw [hsec, elapse_draws hq.nothingWaits]
  · intro dt s hq hr hb
    have hrow : exec (.trngHealthFailure dt) s = .next (trngFailure (elapse dt s)) := row_of_seen hq fun u => seen_trngFailure u
    rw [hrow]
    simp [trngFailure, elapse_sys hq.nothingWaits, elapse_sec hq.nothingWaits, hr, hb, updSec]
  · intro dt cls readable classOk s hq h1 hs x code
    have hrow : exec (.imageVerificationComplete dt cls readable classOk) s = .next (imageVerified cls readable classOk (elapse dt s)) :=
      row_of_seen hq fun u => seen_imageVerified ..
    have himg : ∀ c, imageOf (elapse dt s) c = imageOf s c := imageOf_of_sec (elapse_sec hq.nothingWaits dt)
    have hcode : code = imageCode (elapse dt s) cls ⟨(imageOf (elapse dt s) cls).received.take 512, (imageOf (elapse dt s) cls).received.drop 512⟩
        readable classOk := by
      rw [himg]
      exact (elapse_read (imageCode · cls _ readable classOk) (fun _ _ _ => rfl) hq dt).symm
    rw [imageVerified_eq (by rw [himg]; exact hs) readable classOk hcode, himg] at hrow
    have h7 : cls.val ≤ 7 := by omega
    obtain ⟨f1, f2, f3, f4, f5⟩ := verified_facts code x
    refine ⟨_, hrow, ?_⟩
    rw [imageOf_completeAll, imageOf_updClass_self h1 h7]
    refine ⟨f1, f2, f3, f4, f5, fun c hc hne => ?_, fun tag e htag hw => ?_⟩
    · rw [imageOf_completeAll, imageOf_updClass_ne h1 hc hne, himg]
    · exact completeAll_held (f := (· == .imageVerify cls)) (st := stOK) (reg := false) (b := imageStageBody (verified code x))
        (u := updClass cls (fun _ => verified code x) (elapse dt s)) (hu := elapse_hif hq.nothingWaits dt) tag e htag (by simp [hw])
  · intro dt cls restart s hq h4 hs ha x
    have hrow : exec (.imageSwitch dt cls restart true) s = .next (imageSwitch cls restart true (elapse dt s)) :=
      row_of_follows hq fun u => follows_imageSwitch (.refl _)
    have himg : ∀ c, imageOf (elapse dt s) c = imageOf s c := imageOf_of_sec (elapse_sec hq.nothingWaits dt)
    obtain ⟨hself, hother, htag⟩ := imageSwitch_ends h4 (by omega) (by rw [himg]; exact hs) (atSwitchPoint_elapse hq dt h4 ha) restart true rfl
    rw [himg] at hself
    refine ⟨_, hrow, ?_⟩
    rw [hself]
    refine ⟨rfl, rfl, rfl, rfl, fun c hc hne => (hother c hc hne).trans (himg c), ?_⟩
    rw [elapse_hif hq.nothingWaits] at htag
    exact htag
  · intro dt cls restart s hq h4 hs ha
    have hrow : exec (.imageSwitch dt cls restart false) s = .next (imageSwitch cls restart false (elapse dt s)) :=
      row_of_follows hq fun u => follows_imageSwitch (.refl _)
    have himg : ∀ c, imageOf (elapse dt s) c = imageOf s c := imageOf_of_sec (elapse_sec hq.nothingWaits dt)
    obtain ⟨hself, hother, -⟩ := imageSwitch_ends h4 (by omega) (by rw [himg]; exact hs) (atSwitchPoint_elapse hq dt h4 ha) restart false rfl
    rw [himg] at hself
    exact ⟨_, hrow, hself, fun c hc hne => (hother c hc hne).trans (himg c)⟩
  · intro dt x k s hq hg hx ha h2 h8
    obtain ⟨t, hrow, hm, hc, hs, hl, ht, hr, hh, hcfg⟩ := row_tampers (f := tamperSign x) (dt := dt) hq hg h2 h8
      (v := elapse dt s) (by simp [tamperSign, hx]) (elapse_sys hq.nothingWaits dt) (quiet_elapse hq dt).2.1
      (tampArmed_elapse hq dt ha)
    refine ⟨t, hrow, hm, hc, hs, hl, ?_⟩
    rw [ht, elapse_tamp hq.nothingWaits]
    exact ⟨rfl, bit_lor_self .., rfl, rfl, hr.trans (congrArg Sec.records (elapse_sec hq.nothingWaits dt)),
      hh.trans (congrArg Sec.hostKeys (elapse_sec hq.nothingWaits dt)), hcfg.trans (elapse_cfg hq.nothingWaits dt)⟩
  · intro dt loop s hq ha hb hn
    have hrow : exec (.meshComparison dt loop true) s = .next (meshComparison loop true (elapse dt s)) := by
      have e := meshComparison_first (s := elapse dt s) (tampArmed_elapse hq dt ha) (by rw [elapse_tamp hq.nothingWaits]; exact hn)
      refine event_of_settled ?_ ?_
      · show Settled (meshComparison loop true (elapse dt s))
        rw [e]
        exact (quiet_elapse hq dt).settled
      · show (meshComparison loop true (elapse dt s)).pending = _
        rw [e]
        exact elapse_pending hq.nothingWaits dt
    rw [hrow, meshComparison_first (tampArmed_elapse hq dt ha) (by rw [elapse_tamp hq.nothingWaits]; exact hn), elapse_tamp hq.nothingWaits]
  · intro dt loop s hq hg ha h2 h8 hn
    have hn' : (elapse dt s).tamp.meshRun[loop] = 1 := by rw [elapse_tamp hq.nothingWaits]; exact hn
    obtain ⟨t, hrow, hm, -, hs, -, ht, -⟩ := row_tampers (f := meshComparison loop true) (dt := dt) hq hg h2 h8
      (meshComparison_second (tampArmed_elapse hq dt ha) hn') (elapse_sys hq.nothingWaits dt) (quiet_elapse hq dt).2.1
      (tampArmed_elapse hq dt ha)
    refine ⟨t, hrow, hm, hs, ?_⟩
    rw [ht]
    refine ⟨rfl, bit_lor_self .., ?_⟩
    show (elapse dt s).tamp.meshMismatches = _
    rw [elapse_tamp hq.nothingWaits]

end Sys2Proof.Machine


/-! Memory errors, watchdogs and snapshots (R529 to R538). -/

namespace Sys2Proof.Machine

/-! ### What the events of the integrity block change -/

/-- A snapshot source changes the trigger only (R535). -/
theorem snapSource_shape (k : Nat) (s : State) :
    ∃ p u m, snapSource k s = { s with intg := { s.intg with pending := p, pendingUs := u, snapMissed := m } } := by
  unfold snapSource
  split
  · split
    · exact ⟨_, _, _, rfl⟩
    · exact ⟨_, _, _, rfl⟩
  · exact ⟨s.intg.pending, s.intg.pendingUs, s.intg.snapMissed, rfl⟩

/-- An uncorrectable error changes the event log, the marks, the counts and the snapshot trigger only. -/
theorem uncorrectable_shape (mem blk addr : Nat) (s : State) :
    ∃ e m b p u n, uncorrectable mem blk addr s =
      { s with evr := e, intg := { s.intg with marked := m, blockErrors := b, pending := p, pendingUs := u, snapMissed := n } } := by
  unfold uncorrectable
  split
  · exact ⟨s.evr, s.intg.marked, s.intg.blockErrors, s.intg.pending, s.intg.pendingUs, s.intg.snapMissed, rfl⟩
  · dsimp only
    obtain ⟨p, u, n, e⟩ := snapSource_shape 5 (post 0x1301 0 (le 1 mem ++ le 1 blk ++ le 4 addr ++ le 4 (tableGet (fun _ => 0)
      (bumpErrors blk { s with intg := { s.intg with marked := s.intg.marked ++ [(mem, addr)] } }).intg.blockErrors blk)) 0
      (bumpErrors blk { s with intg := { s.intg with marked := s.intg.marked ++ [(mem, addr)] } }))
    exact ⟨_, _, _, p, u, n, e⟩

/-- A word not yet marked is marked and counted against its block (R530). -/
theorem uncorrectable_marks {mem blk addr : Nat} {s : State} (h : s.intg.marked.contains (mem, addr) = false) :
    (uncorrectable mem blk addr s).intg.marked = s.intg.marked ++ [(mem, addr)] ∧
      (uncorrectable mem blk addr s).intg.blockErrors =
        tableSet (fun _ => 0) s.intg.blockErrors blk ((tableGet (fun _ => 0) s.intg.blockErrors blk + 1) % 2 ^ 32) ∧
      (uncorrectable mem blk addr s).intg.ceCount = s.intg.ceCount := by
  unfold uncorrectable
  rw [if_neg (by rw [h]; exact Bool.false_ne_true)]
  dsimp only
  obtain ⟨p, u, n, e⟩ := snapSource_shape 5 (post 0x1301 0 (le 1 mem ++ le 1 blk ++ le 4 addr ++ le 4 (tableGet (fun _ => 0)
    (bumpErrors blk { s with intg := { s.intg with marked := s.intg.marked ++ [(mem, addr)] } }).intg.blockErrors blk)) 0
    (bumpErrors blk { s with intg := { s.intg with marked := s.intg.marked ++ [(mem, addr)] } }))
  rw [e]
  exact ⟨rfl, rfl, rfl⟩

theorem mainRuns_elapse {s : State} (h : Quiet s) (dt : Nat) : mainRuns (elapse dt s) = mainRuns s :=
  elapse_read mainRuns (fun _ _ _ => rfl) h dt

/-- The pass ends, and SCRUB_INTERVAL takes effect. -/
def passEnded (s : State) : State := applyOne 0x1312 (updIntg (fun x => { x with scrubbing := false, scrubPos := 0 }) s)

theorem passEnded_shape (s : State) :
    ∃ c p, passEnded s = { s with cfg := c, cfgPending := p, intg := { s.intg with scrubbing := false, scrubPos := 0 } } :=
  applyOne_shape 0x1312 (updIntg (fun x => { x with scrubbing := false, scrubPos := 0 }) s)

theorem passEnded_faultEntry (cause block : Nat) (detail : Bytes) (s : State) :
    passEnded (faultEntry cause block detail s) = faultEntry cause block detail (passEnded s) := by
  unfold passEnded applyOne
  rw [show pendingOf (updIntg (fun x => { x with scrubbing := false, scrubPos := 0 }) (faultEntry cause block detail s)) 0x1312 =
    pendingOf (updIntg (fun x => { x with scrubbing := false, scrubPos := 0 }) s) 0x1312 from rfl]
  generalize pendingOf (updIntg (fun x => { x with scrubbing := false, scrubPos := 0 }) s) 0x1312 = p
  cases p <;> rfl

theorem scrubPass_single {f : ScrubFinding} {s : State} (h : mainRuns s = true) : scrubPass [f] s = passEnded (scrubFinding s f) := by
  simp only [scrubPass, h, if_true]
  rfl

theorem scrubFinding_correctable {f : ScrubFinding} {s : State} (hm : f.mem.val ∈ [1, 2, 3, 5, 6, 7, 10, 11]) (h0 : 0 < f.bits)
    (hb : f.bits ≤ correctsBits f.mem.val) :
    scrubFinding s f = correctable (memBlock f.mem.val f.addr.toNat f.owner.val) s := by
  have hs : (!scrubbedMem f.mem.val || f.bits == 0) = false := by
    rw [scrubbedMem, decide_eq_true hm, beq_eq_false_iff_ne.2 h0.ne']; rfl
  simp only [scrubFinding]
  rw [if_neg (by rw [hs]; exact Bool.false_ne_true), if_pos hb]

theorem scrubFinding_uncorrectable {f : ScrubFinding} {s : State} (hm : f.mem.val ∈ [1, 2, 3, 5, 6, 7, 10, 11])
    (hb : correctsBits f.mem.val < f.bits) :
    scrubFinding s f =
      f.used.elim (uncorrectable f.mem.val (memBlock f.mem.val f.addr.toNat f.owner.val) f.addr.toNat s) fun u =>
        wordUsed f.mem.val f.addr.toNat u (uncorrectable f.mem.val (memBlock f.mem.val f.addr.toNat f.owner.val) f.addr.toNat s) := by
  have hs : (!scrubbedMem f.mem.val || f.bits == 0) = false := by
    rw [scrubbedMem, decide_eq_true hm, beq_eq_false_iff_ne.2 (Nat.zero_lt_of_lt hb).ne']; rfl
  simp only [scrubFinding]
  rw [if_neg (by rw [hs]; exact Bool.false_ne_true), if_neg (by omega)]
  cases f.used <;> rfl

theorem correctsBits_scrubbed {mem : Nat} (hm : mem ∈ [1, 2, 3, 5, 6, 7, 10, 11]) : correctsBits mem = if mem = 11 then 2 else 1 := by
  simp only [List.mem_cons, List.not_mem_nil, or_false] at hm
  rcases hm with rfl | rfl | rfl | rfl | rfl | rfl | rfl | rfl <;> rfl

/-! ### Watchdogs (R533, R534) -/

/-- A function that changes nothing of the system block, of the tables of errors and of what the end of the tick looks at. -/
def Restarts (s t : State) : Prop := t.sys = s.sys ∧ t.pair = s.pair ∧ t.pending = s.pending ∧ t.intg.wdtRestarts = s.intg.wdtRestarts

theorem Restarts.refl (s : State) : Restarts s s := ⟨rfl, rfl, rfl, rfl⟩

theorem Restarts.trans {s t u : State} (h : Restarts s t) (h' : Restarts t u) : Restarts s u := by
  obtain ⟨h1, h2, h3, h4⟩ := h
  obtain ⟨k1, k2, k3, k4⟩ := h'
  exact ⟨k1.trans h1, k2.trans h2, k3.trans h3, k4.trans h4⟩

theorem Restarts.foldl {α : Type} {f : State → α → State} (h : ∀ s x, Restarts s (f s x)) (l : List α) (s : State) :
    Restarts s (l.foldl f s) := by
  induction l generalizing s with
  | nil => exact .refl s
  | cons x l ih => exact (h s x).trans (ih _)

theorem snapSource_restarts (k : Nat) (s : State) : Restarts s (snapSource k s) := by
  obtain ⟨_, _, _, e⟩ := snapSource_shape k s
  rw [e]
  exact ⟨rfl, rfl, rfl, rfl⟩

theorem damageSlots_restarts (bad : List (Fin 64)) (s : State) : Restarts s (damageSlots bad s) := by
  refine .foldl (fun s k => ?_) bad s
  obtain ⟨_, _, _, _, _, _, e⟩ := uncorrectable_shape 11 0x09 (k.val * 4096) s
  rw [e]
  exact ⟨rfl, rfl, rfl, rfl⟩

theorem writeGap_restarts (r : SaveRec) (fell : Bool) (stop : Option (Stamp × Nat)) (s : State) : Restarts s (writeGap r fell stop s) :=
  ⟨rfl, rfl, rfl, rfl⟩

theorem restarts_ite {c : Prop} [Decidable c] {s a b : State} (ha : Restarts s a) (hb : Restarts s b) : Restarts s (if c then a else b) := by
  split
  · exact ha
  · exact hb

/-- The slots found damaged at BOOT, and the frozen registers that a later lifecycle drops. -/
def bootSlots (bad : List (Fin 64)) (s : State) : State :=
  let u := damageSlots bad s
  if 3 ≤ u.sec.lifecycle.code then { u with bill := { u.bill with frozen := none } } else u

/-- The registers resume from a record (R360). -/
def bootResume (r : SaveRec) (s : State) : State :=
  resume r { s with bill := { s.bill with
    lastSeq := highestSeq s, ringFallbacks := s.bill.ringFallbacks + BitVec.ofNat 32 (fallbacks s r.seq) } }

/-- A new set of billing registers begins at zero. -/
def bootSet (r : SaveRec) (s : State) : State :=
  if billingSet s && r.set_ == 0 then
    { s with bill := { s.bill with regs := RegSet.zero, frozen := if s.sec.lifecycle == Lifecycle.sealed then some r else none, shown := { s.bill.shown with regs := RegSet.zero } } }
  else s

/-- The gap after the record is recorded (R362). -/
def bootGap (r : SaveRec) (fell : Bool) (s : State) : State :=
  match s.bill.stop with
  | some (t, c) => if r.at_.total < t.total then writeGap r fell (some (t, c)) s else s
  | none => if s.bill.orderly then s else writeGap r fell none s

/-- The registers begin at zero where there is no record. -/
def bootZero (s : State) : State :=
  { s with bill := { s.bill with
    regs := RegSet.zero, wrongDt := Vector.replicate 16 0, unattrT := Vector.replicate 16 0, unattrE := Vector.replicate 4 0,
    lastSeq := highestSeq s, shown := { SaveRec.empty with lifecycle := s.sec.lifecycle.code, set_ := b2n (billingSet s) } } }

def bootLost (s : State) : State :=
  if s.bill.ring.toList.any Option.isSome then
    post 0x0904 0 (le 8 (highestSeq s)) 0 { bootZero s with bill := { (bootZero s).bill with ringLost := true } }
  else bootZero s

def bootOpen (s : State) : State :=
  { s with bill := { s.bill with stop := none, orderly := true, saving := none, lastBoundary := none } }

theorem billBoot_some {bad : List (Fin 64)} {s : State} {r : SaveRec} (h : chooseSlot (bootSlots bad s) = some r) :
    billBoot bad s =
      bootOpen (bootGap r (decide (0 < fallbacks (bootSlots bad s) r.seq)) (bootSet r (bootResume r (bootSlots bad s)))) := by
  show bootOpen (match chooseSlot (bootSlots bad s) with
    | some r => bootGap r (decide (0 < fallbacks (bootSlots bad s) r.seq)) (bootSet r (bootResume r (bootSlots bad s)))
    | none => bootLost (bootSlots bad s)) = _
  rw [h]

theorem billBoot_none {bad : List (Fin 64)} {s : State} (h : chooseSlot (bootSlots bad s) = none) :
    billBoot bad s = bootOpen (bootLost (bootSlots bad s)) := by
  show bootOpen (match chooseSlot (bootSlots bad s) with
    | some r => bootGap r (decide (0 < fallbacks (bootSlots bad s) r.seq)) (bootSet r (bootResume r (bootSlots bad s)))
    | none => bootLost (bootSlots bad s)) = _
  rw [h]

theorem bootSlots_restarts (bad : List (Fin 64)) (s : State) : Restarts s (bootSlots bad s) :=
  (damageSlots_restarts bad s).trans (restarts_ite ⟨rfl, rfl, rfl, rfl⟩ (.refl _))

theorem bootGap_restarts (r : SaveRec) (fell : Bool) (s : State) : Restarts s (bootGap r fell s) := by
  unfold bootGap
  split
  · exact restarts_ite (writeGap_restarts ..) (.refl s)
  · exact restarts_ite (.refl s) (writeGap_restarts ..)

theorem billBoot_restarts (bad : List (Fin 64)) (s : State) : Restarts s (billBoot bad s) := by
  have hs := bootSlots_restarts bad s
  cases h : chooseSlot (bootSlots bad s) with
  | some r =>
    rw [billBoot_some h]
    generalize bootSlots bad s = u at hs
    have hr : Restarts u (bootResume r u) := ⟨rfl, rfl, rfl, rfl⟩
    have hset : ∀ v, Restarts v (bootSet r v) := fun v => restarts_ite ⟨rfl, rfl, rfl, rfl⟩ (.refl v)
    have hopen : ∀ v, Restarts v (bootOpen v) := fun v => ⟨rfl, rfl, rfl, rfl⟩
    exact (((hs.trans hr).trans (hset _)).trans (bootGap_restarts ..)).trans (hopen _)
  | none =>
    rw [billBoot_none h]
    generalize bootSlots bad s = u at hs
    have hl : Restarts u (bootLost u) := restarts_ite ⟨rfl, rfl, rfl, rfl⟩ ⟨rfl, rfl, rfl, rfl⟩
    exact (hs.trans hl).trans ⟨rfl, rfl, rfl, rfl⟩

theorem abruptStop_restarts (cause : Nat) (s : State) : Restarts s (abruptStop cause s) := by
  unfold abruptStop
  dsimp only
  have hs : Restarts s (if s.bill.saving.isSome then (if cause = 1 then s else endSlot (s.bill.saving.getD 0) false s) else s) :=
    restarts_ite (restarts_ite (.refl s) ⟨rfl, rfl, rfl, rfl⟩) (.refl s)
  generalize (if s.bill.saving.isSome then (if cause = 1 then s else endSlot (s.bill.saving.getD 0) false s) else s) = u at hs ⊢
  exact hs.trans (restarts_ite ⟨rfl, rfl, rfl, rfl⟩ ⟨rfl, rfl, rfl, rfl⟩)

theorem metrologyRestart_restarts (bad : List (Fin 64)) (s : State) :
    Restarts (restarted [0x07, 0x08, 0x09] (some 60000) s) (metrologyRestart bad s) := by
  unfold metrologyRestart
  dsimp only
  generalize restarted [0x07, 0x08, 0x09] (some 60000) s = u
  exact restarts_ite ((abruptStop_restarts 4 u).trans (billBoot_restarts bad _)) (.refl u)

theorem restarted_restarts (blocks : List Nat) (bound : Option Nat) (s : State) :
    (restarted blocks bound s).sys = s.sys ∧ (restarted blocks bound s).pair = s.pair ∧ (restarted blocks bound s).pending = s.pending ∧
      (restarted blocks bound s).intg.wdtRestarts = s.intg.wdtRestarts + 1 := ⟨rfl, rfl, rfl, rfl⟩

theorem failCommand_kept (f : Exec → Bool) (t : Byte) (s : State) :
    (failCommands f [t] s).sys = s.sys ∧ (failCommands f [t] s).pair = s.pair ∧ (failCommands f [t] s).pending = s.pending ∧
      (failCommands f [t] s).intg = s.intg := by
  simp only [failCommands, List.foldl_cons, List.foldl_nil]
  split
  · split
    · exact ⟨complete_sys .., complete_pair .., complete_pending .., complete_intg ..⟩
    · exact ⟨rfl, rfl, rfl, rfl⟩
  · exact ⟨rfl, rfl, rfl, rfl⟩

/-- The commands of a restarted core complete, and leave what is not theirs (R534). -/
theorem failCommands_kept (f : Exec → Bool) (tags : List Byte) (s : State) :
    (failCommands f tags s).sys = s.sys ∧ (failCommands f tags s).pair = s.pair ∧ (failCommands f tags s).pending = s.pending ∧
      (failCommands f tags s).intg = s.intg := by
  induction tags generalizing s with
  | nil => exact ⟨rfl, rfl, rfl, rfl⟩
  | cons t tags ih =>
    obtain ⟨h1, h2, h3, h4⟩ := ih (failCommands f [t] s)
    obtain ⟨k1, k2, k3, k4⟩ := failCommand_kept f t s
    exact ⟨h1.trans k1, h2.trans k2, h3.trans k3, h4.trans k4⟩

theorem servoTo_shape (n : Servo) (s : State) : ∃ e t, servoTo n s = { s with evr := e, time := t } := by
  unfold servoTo
  split
  · exact ⟨s.evr, s.time, rfl⟩
  · exact ⟨_, _, rfl⟩

theorem coreRestart_shape (core : Nat) (s : State) :
    ∃ e v n t, coreRestart core s = { s with evr := e, solv := v, nmod := n, time := t } := by
  simp only [coreRestart]
  split
  · exact ⟨_, _, _, _, rfl⟩
  · exact ⟨_, _, _, _, rfl⟩
  · split
    · obtain ⟨e, t, h⟩ := servoTo_shape .holdover s
      rw [h]
      exact ⟨_, _, _, _, rfl⟩
    · exact ⟨s.evr, s.solv, s.nmod, s.time, rfl⟩

theorem vget_getD {α : Type} {n : Nat} (v : Vector α n) (i : Nat) (d : α) : vget v i d = v.toList.getD i d := by
  simp [vget]

/-- The instant of a watchdog expiry of a core is kept for the next (R533). -/
def expiryNoted (core : Nat) (s : State) : State :=
  updIntg (fun x => { x with lastExpiry := vset x.lastExpiry (core - 1) (some (monoUs s)) }) s

theorem fault_acts_ne {s : State} (h : triggerActs s (.fault, 6) = true) : s.sys.mode ≠ .fault := by
  intro e
  simp [triggerActs, e] at h

theorem coreExpiry_first {core pc : Nat} {tags : List Byte} {s : State} (h : vget s.intg.lastExpiry (core - 1) none = none) :
    coreExpiry core pc tags s =
      restarted (coreBlocks core) (some 5000) (coreRestart core (coreCommands core tags (expiryNoted core s))) := by
  simp only [coreExpiry, h]
  rfl

theorem coreExpiry_second {core pc u : Nat} {tags : List Byte} {s : State} (h : vget s.intg.lastExpiry (core - 1) none = some u)
    (hu : monoUs s ≤ u + 600000000) :
    coreExpiry core pc tags s = faultEntry 2 0x01 (le 1 core ++ le 4 pc) (expiryNoted core s) := by
  simp only [coreExpiry, h, Option.any_some, decide_eq_true hu]
  rfl

/-- A core whose watchdog expires for the first time restarts (R533). -/
theorem coreExpiry_first_kept {core pc : Nat} {tags : List Byte} {s : State} (h : vget s.intg.lastExpiry (core - 1) none = none)
    (hc : core - 1 < 3) {t : State} (ht : t = coreExpiry core pc tags s) :
    t.sys = s.sys ∧ t.pair = s.pair ∧ t.pending = s.pending ∧ t.intg.wdtRestarts = s.intg.wdtRestarts + 1 ∧
      vget t.intg.lastExpiry (core - 1) none = some (monoUs s) ∧ t.intg.ring = s.intg.ring := by
  rw [coreExpiry_first h] at ht
  obtain ⟨k1, k2, k3, k4⟩ := failCommands_kept (fun e => coreOf e.op == core) tags (expiryNoted core s)
  obtain ⟨e, v, n, x, hx⟩ := coreRestart_shape core (coreCommands core tags (expiryNoted core s))
  rw [hx] at ht
  have hi : (coreCommands core tags (expiryNoted core s)).intg = (expiryNoted core s).intg := k4
  rw [ht]
  refine ⟨k1, k2, k3, congrArg (·.wdtRestarts + 1) hi, ?_, congrArg (·.ring) hi⟩
  refine (congrArg (fun y : Intg => vget y.lastExpiry (core - 1) none) hi).trans ?_
  exact vget_vset_self hc ..

/-! ### Axes switched off (R407, R541) -/

/-- An axis at rest whose bridges are off. -/
def Axis.Dark (x : Axis) : Prop := x.still = 0 ∧ x.vel = 0 ∧ x.state = .standstill

theorem hostDone_dark {a : Fin 8} {outcome : Nat} {s : State} (h : (axisOf s a).Dark) : (axisOf (hostDone a outcome s) a).Dark := by
  rw [axisOf_hostDone_self]
  exact h

theorem heldOff_enLow {s : State} (h : s.vax.enLow = true) (x : Axis) : heldOff s x = true := by
  rw [heldOff, h, Bool.or_true]

/-- Where the enable line is low, an axis made safe at once, or one that is dark, is dark. -/
theorem axisSafe_dark {now : Bool} {a : Fin 8} {s : State} (he : s.vax.enLow = true) (h : now = true ∨ (axisOf s a).Dark) :
    (axisOf (axisSafe now a s) a).Dark := by
  refine hostDone_dark ?_
  rw [axisOf_setAxis_self]
  cases now with
  | true =>
    simp only [if_true, heldOff_enLow he]
    exact ⟨rfl, rfl, rfl⟩
  | false =>
    obtain ⟨hs, hv, hst⟩ := h.resolve_left Bool.false_ne_true
    simp only [Bool.false_eq_true, if_false]
    rw [if_pos (by simp only [ranked]; split <;> exact hv)]
    simp only [heldOff_enLow he, if_true]
    exact ⟨rfl, by simp only [ranked]; split <;> exact hv, rfl⟩

theorem enLow_of_mild {s t : State} (h : Mild s t) : t.vax.enLow = s.vax.enLow := congrArg Lasting.enLow h.1

theorem enLow_of_lasting {s t : State} {l : Lasting} (h : lasting t = l) (hl : l.enLow = s.vax.enLow) : t.vax.enLow = s.vax.enLow :=
  (congrArg Lasting.enLow h).trans hl

theorem axisSafe_enLow (now : Bool) (a : Fin 8) (s : State) : (axisSafe now a s).vax.enLow = s.vax.enLow :=
  enLow_of_mild (axisSafe_mild now a s)

theorem axisOf_axisSafe_ne {a b : Fin 8} (hb : b ≠ a) (now : Bool) (s : State) : axisOf (axisSafe now a s) b = axisOf s b := by
  obtain ⟨h, -⟩ := hostDone_moved a 3 (setAxis a (axisOf (axisSafe now a s) a) s)
  simp only [axisSafe]
  exact ((hostDone_moved a 3 _).1 b hb).trans (axisOf_setAxis_ne hb ..)

theorem foldl_axisSafe_dark (now : Bool) (l : List (Fin 8)) (s : State) (he : s.vax.enLow = true) (b : Fin 8)
    (h : (now = true ∧ b ∈ l) ∨ (axisOf s b).Dark) : (axisOf (l.foldl (fun s a => axisSafe now a s) s) b).Dark := by
  induction l generalizing s with
  | nil => simpa using h
  | cons a l ih =>
    refine ih _ ((axisSafe_enLow now a s).trans he) ?_
    by_cases hb : b = a
    · subst hb
      exact .inr (axisSafe_dark he (h.imp (·.1) id))
    · rw [axisOf_axisSafe_ne hb]
      exact h.imp (fun hm => ⟨hm.1, (List.mem_cons.1 hm.2).resolve_left hb⟩) id

/-- The enable line is low and every axis is dark. -/
def Dark (s : State) : Prop := s.vax.enLow = true ∧ ∀ b : Fin 8, (axisOf s b).Dark

theorem Dark.of_vax {s t : State} (h : Dark s) (hv : t.vax = s.vax) : Dark t := by
  obtain ⟨he, hd⟩ := h
  exact ⟨hv ▸ he, fun b => by simpa only [axisOf, hv] using hd b⟩

theorem axesSafe_finRange (now : Bool) (s : State) : axesSafe now s = (List.finRange 8).foldl (fun s a => axisSafe now a s) s := rfl

theorem axesSafe_now_dark {s : State} (he : s.vax.enLow = true) : Dark (axesSafe true s) :=
  ⟨(enLow_of_mild (axesSafe_mild true s)).trans he, fun b => by
    rw [axesSafe_finRange]
    exact foldl_axisSafe_dark true _ s he b (.inl ⟨rfl, List.mem_finRange b⟩)⟩

theorem Dark.axesSafe {s : State} (h : Dark s) (now : Bool) : Dark (axesSafe now s) := by
  obtain ⟨he, hd⟩ := h
  refine ⟨(enLow_of_mild (axesSafe_mild now s)).trans he, fun b => ?_⟩
  rw [axesSafe_finRange]
  exact foldl_axisSafe_dark now _ s he b (.inr (hd b))

theorem vax_foldl {α : Type} {f : State → α → State} (h : ∀ s x, (f s x).vax = s.vax) (l : List α) (s : State) :
    (l.foldl f s).vax = s.vax := by
  induction l generalizing s with
  | nil => rfl
  | cons x l ih => exact (ih _).trans (h s x)

theorem doSafe_vax (o : Nat) (s : State) : (doSafe o s).vax = s.vax := rfl

theorem pwmSafe_vax (now : Bool) (p : Nat) (s : State) : (pwmSafe now p s).vax = s.vax := rfl

theorem outputsSafe_vax (now : Bool) (s : State) : (outputsSafe now s).vax = s.vax := by
  have h := vax_foldl (f := fun s o => doSafe o s) (fun s o => doSafe_vax o s) (List.range 24) s
  unfold outputsSafe
  generalize (List.range 24).foldl (fun s o => doSafe o s) s = u at h ⊢
  have h' := vax_foldl (f := fun s p => pwmSafe now p s) (fun s p => pwmSafe_vax now p s) (List.range 8) u
  exact h'.trans h

theorem drivePairOutput_vax (s : State) : (drivePairOutput s).vax = s.vax := by
  unfold drivePairOutput
  split
  · split <;> rfl
  · rfl

theorem Dark.giveUpRole {s : State} (h : Dark s) (cause : Nat) : Dark (giveUpRole cause .fault s) := by
  unfold Machine.giveUpRole
  split
  · exact h
  · refine .of_vax (.axesSafe (.of_vax h ?_) false) (drivePairOutput_vax _)
    exact outputsSafe_vax ..

theorem modeFlights_vax (old m : Mode) (s : State) : (modeFlights old m s).vax = s.vax := by
  cases m
  case reduced =>
    simp only [modeFlights, gateFlights]
    split
    · split <;> rfl
    · rfl
  all_goals rfl

theorem Dark.endInFault {s : State} (h : Dark s) : Dark (modeLast .fault s) := h.of_vax (completeAll_vax ..)

theorem endListening_vax (m : Mode) (s : State) : (endListening m s).vax = s.vax := by
  cases m <;> rfl

theorem modeOutputs_fault_dark {s : State} (he : s.vax.enLow = true) : Dark (modeOutputs .fault s) :=
  axesSafe_now_dark (by rw [outputsSafe_vax]; exact he)

theorem modeRest_fault_dark {s : State} (he : s.vax.enLow = true) (old : Mode) (cause : Nat) : Dark (modeRest old .fault cause s) := by
  simp only [modeRest]
  have hj := (mild_ite (c := Mode.fault = .commission ∨ Mode.fault = .service) (.refl s) (dropHostJobs_mild s)).trans
    (mild_ite (c := roundsRun (if Mode.fault = .commission ∨ Mode.fault = .service then s else dropHostJobs s) = true) (.refl _)
      (abandonRounds_mild _))
  have he' := (enLow_of_mild hj).trans he
  refine .of_vax (.giveUpRole (.of_vax (modeOutputs_fault_dark he') (modeFlights_vax ..)) cause) (endListening_vax ..)

/-- In FAULT every axis is off while the enable line is low (R407). -/
theorem modeTo_fault_dark {s : State} (he : s.vax.enLow = true) (cause : Nat) (ret : Option Mode) : Dark (modeTo .fault cause ret s) := by
  rw [modeTo_eq]
  have h₁ := (enLow_of_mild ((showMode_mild .fault cause ret s).trans (endHostAxes_mild .fault _))).trans he
  generalize endHostAxes .fault (showMode .fault cause ret s) = s₁ at h₁ ⊢
  have h₂ := (enLow_of_lasting (dropLate_lasting .fault s₁).1 rfl).trans h₁
  generalize dropLate .fault s₁ = s₂ at h₂ ⊢
  have h₃ := (enLow_of_mild (modeStops_mild s.sys.mode .fault s₂)).trans h₂
  generalize modeStops s.sys.mode .fault s₂ = s₃ at h₃ ⊢
  have h₄ := (enLow_of_lasting (modeLifts_lasting s.sys.mode .fault s₃).1 rfl).trans h₃
  generalize modeLifts s.sys.mode .fault s₃ = s₄ at h₄ ⊢
  exact .endInFault (modeRest_fault_dark h₄ s.sys.mode cause)

theorem acted_fault_dark {s : State} (he : s.vax.enLow = true) (hb : s.sys.mode ≠ .boot) (cause : Nat) (h8 : cause ≠ 8) (h1 : cause ≠ 1) :
    Dark (acted .fault cause s) := by
  rw [acted_eq h8 h1, if_neg hb]
  exact modeTo_fault_dark (s := clearTriggers s) he ..

/-! ### Snapshots (R535 to R538) -/

/-- The snapshot of a tick, with the sections of its blocks (R536, R537). -/
def snapshotOf (src : Nat) (s : State) : Snapshot :=
  { seq := s.intg.snapSequence + 1, sources := src, mode := s.sys.mode.code, at_ := tickStamp s,
    sections := snapSections s (snapOpen s.draws s.gal.held.length) }

/-- The trigger once its snapshot is held (R538). -/
def snapHeld (h : Snapshot) (x : Intg) : Intg :=
  { x with armed := false, held := some h, pending := none, snapSequence := x.snapSequence + 1 }

theorem snapshotTick_eq {s : State} {src : Nat} (hp : s.intg.pending = some src) (ha : s.intg.armed = true) (hm : mainRuns s = true)
    (hu : s.intg.pendingUs < monoUs s) :
    snapshotTick s = completeAll (· == .snapshot) stOK false (le 4 (s.intg.snapSequence + 1).toNat ++ zeros 4)
      { s with draws := s.draws + 16, intg := snapHeld (snapshotOf src s) s.intg } := by
  have hc : (!s.intg.armed || !mainRuns s || !decide (s.intg.pendingUs < monoUs s)) = false := by
    rw [ha, hm, decide_eq_true hu]; rfl
  unfold snapshotTick
  split
  next h' => exact absurd (hp.symm.trans h') (Option.some_ne_none _)
  next x h' =>
    obtain rfl : src = x := Option.some.inj (hp.symm.trans h')
    rw [if_neg (by rw [hc]; exact Bool.false_ne_true)]
    rfl

theorem snapSections_codes (s : State) (o : SnapOpen) : (snapSections s o).map (·.1) = (List.range 20).map (· + 1) := rfl

/-- An enabled source fixes the snapshot tick while the trigger is armed and the tick has not begun, and is missed otherwise (R535). -/
theorem snapSource_enabled {k : Nat} {s : State} (h : bit (getP s 0x1311) k = true) :
    snapSource k s = { s with intg :=
      if s.intg.armed = true ∧ (s.intg.pending = none ∨ monoUs s ≤ s.intg.pendingUs) then
        { s.intg with
          pending := some (Nat.lor (s.intg.pending.getD 0) (2 ^ k)),
          pendingUs := if s.intg.pending.isSome then s.intg.pendingUs else monoUs s }
      else { s.intg with snapMissed := s.intg.snapMissed + 1 } } := by
  have hd : (s.intg.armed && (s.intg.pending.isNone || decide (monoUs s ≤ s.intg.pendingUs))) = true ↔
      (s.intg.armed = true ∧ (s.intg.pending = none ∨ monoUs s ≤ s.intg.pendingUs)) := by
    simp only [Bool.and_eq_true, Bool.or_eq_true, decide_eq_true_eq, Option.isNone_iff_eq_none]
  unfold snapSource
  rw [if_pos (by rw [h, Bool.or_true])]
  by_cases hc : s.intg.armed = true ∧ (s.intg.pending = none ∨ monoUs s ≤ s.intg.pendingUs)
  · rw [if_pos (hd.2 hc), if_pos hc]
  · rw [if_neg (fun x => hc (hd.1 x)), if_neg hc]

/-- An edge of the selected polarity is stamped, and a source (R535). -/
theorem snapInEdge_eq {s : State} {rising : Bool} (hr : timeRuns s = true) (he : rising ≠ bit (getP s 0x1311) 11) :
    snapInEdge rising s = snapSource 1 (updIntg (fun x => { x with snapIn := ⟨ptpSec s, ptpNs s⟩ }) s) := by
  unfold snapInEdge
  rw [if_pos (by rw [hr, bne_iff_ne.2 he]; rfl)]

/-- A watchdog expiry of a supervisor core other than 0 outside FAULT (R533). -/
theorem watchdog_core {core : Fin 4} {pc : W32} {tags : List Byte} {u : State} (hc : 1 ≤ core.val) (hr : mainRuns u = true)
    (hf : u.sys.mode ≠ .fault) :
    watchdogExpiry (.supervisor core pc tags) u = coreExpiry core pc.toNat tags (snapSource 6 u) := by
  have h : (!mainRuns u || (u.sys.mode == .fault && (core.val == 1 || core.val == 2))) = false := by
    rw [hr, beq_eq_false_iff_ne.2 hf]; rfl
  simp only [watchdogExpiry]
  rw [if_neg (by rw [h]; exact Bool.false_ne_true), if_neg (by omega)]

theorem axesSafe_sys (now : Bool) (s : State) : (axesSafe now s).sys = s.sys := by
  obtain ⟨_, _, _, _, e⟩ := axesSafe_outputs now s
  rw [e]

/-- What a watchdog expiry reads and keeps of the state past its snapshot source. -/
structure Sourced (s t : State) : Prop where
  sys : t.sys = s.sys
  pair : t.pair = s.pair
  pending : t.pending = s.pending
  sec : t.sec = s.sec
  vax : t.vax = s.vax
  clock : t.clock = s.clock
  ring : t.intg.ring = s.intg.ring
  faultCount : t.intg.faultCount = s.intg.faultCount
  wdtRestarts : t.intg.wdtRestarts = s.intg.wdtRestarts
  lastExpiry : t.intg.lastExpiry = s.intg.lastExpiry

theorem sourced_snapSource (k : Nat) (s : State) : Sourced s (snapSource k s) := by
  obtain ⟨_, _, _, e⟩ := snapSource_shape k s
  rw [e]
  exact ⟨rfl, rfl, rfl, rfl, rfl, rfl, rfl, rfl, rfl, rfl⟩

theorem sourced_elapse {s : State} (hq : Quiet s) {dt : Nat} {t : State} (h : Sourced (elapse dt s) t) :
    t.sys = s.sys ∧ t.pair = s.pair ∧ t.pending = s.pending ∧ t.sec = s.sec ∧ t.vax = s.vax ∧ t.intg.ring = s.intg.ring ∧
      t.intg.faultCount = s.intg.faultCount ∧ t.intg.wdtRestarts = s.intg.wdtRestarts ∧ t.intg.lastExpiry = s.intg.lastExpiry := by
  have hi := elapse_intg hq.nothingWaits dt
  obtain ⟨h1, h2, h3, h4, h5, -, h6, h7, h8, h9⟩ := h
  rw [h1, h2, h3, h4, h5, h6, h7, h8, h9, hi]
  exact ⟨elapse_sys hq.nothingWaits dt, elapse_pair hq.nothingWaits dt, elapse_pending hq.nothingWaits dt, elapse_sec hq.nothingWaits dt,
    elapse_vax hq.nothingWaits dt, rfl, rfl, rfl, rfl⟩

theorem Sourced.monoUs {s t : State} (h : Sourced s t) : monoUs t = monoUs s := by
  simp only [Machine.monoUs, h.clock]

/-- A correctable word is counted against its block (R530). -/
theorem scrub_corrects :
  ∀ dt (f : ScrubFinding) s, Quiet s → Canonical s = true → mainRuns s = true → f.mem.val ∈ [1, 2, 3, 5, 6, 7, 10, 11] → 0 < f.bits →
    f.bits ≤ (if f.mem.val = 11 then 2 else 1) →
    let k := memBlock f.mem.val f.addr.toNat f.owner.val
    ∃ t, exec (.scrubPass dt [f]) s = .next t ∧
      tableGet (fun _ => 0) t.intg.ceCount k = (tableGet (fun _ => 0) s.intg.ceCount k + 1) % 2 ^ 32 ∧
      (∀ b, b ≠ k → tableGet (fun _ => 0) t.intg.ceCount b = tableGet (fun _ => 0) s.intg.ceCount b) ∧
      t.intg.marked = s.intg.marked ∧ t.intg.blockErrors = s.intg.blockErrors ∧ t.intg.scrubPos = 0 ∧ t.evr = s.evr := by
  intro dt f s hq hc hr hm h0 hb k
  have hi := elapse_intg hq.nothingWaits dt
  have hwf : tableWf (fun _ => 0) s.intg.ceCount = true := by
    rw [canonical_iff_sound] at hc
    exact hc.ceCount
  have hmain : mainRuns (elapse dt s) = true := (mainRuns_elapse hq dt).trans hr
  have e : scrubPass [f] (elapse dt s) = passEnded (correctable k (elapse dt s)) := by
    rw [scrubPass_single hmain, scrubFinding_correctable hm h0 (by rwa [correctsBits_scrubbed hm])]
  obtain ⟨c, p, hs⟩ := passEnded_shape (correctable k (elapse dt s))
  rw [hs] at e
  have hrow : exec (.scrubPass dt [f]) s = .next (scrubPass [f] (elapse dt s)) :=
    event_of_steady hq (by rw [e]; exact ⟨rfl, rfl, rfl⟩)
  rw [e] at hrow
  refine ⟨_, hrow, ?_⟩
  have hce : (correctable k (elapse dt s)).intg.ceCount =
      tableSet (fun _ => 0) s.intg.ceCount k ((tableGet (fun _ => 0) s.intg.ceCount k + 1) % 2 ^ 32) := by
    simp only [correctable, hi]
  refine ⟨?_, fun b hb => ?_, ?_, ?_, rfl, elapse_evr hq.nothingWaits dt⟩
  · refine (congrArg (tableGet (fun _ => 0) · k) hce).trans ?_
    rw [tableGet_set hwf, if_pos rfl]
  · refine (congrArg (tableGet (fun _ => 0) · b) hce).trans ?_
    rw [tableGet_set hwf, if_neg hb]
  · exact congrArg (·.marked) hi
  · exact congrArg (·.blockErrors) hi

/-- An uncorrectable word is marked and counted (R531). -/
theorem scrub_marks :
  ∀ dt (f : ScrubFinding) s, Quiet s → Canonical s = true → mainRuns s = true → f.mem.val ∈ [1, 2, 3, 5, 6, 7, 10, 11] →
    (if f.mem.val = 11 then 2 else 1) < f.bits → f.used = none → s.intg.marked.contains (f.mem.val, f.addr.toNat) = false →
    let k := memBlock f.mem.val f.addr.toNat f.owner.val
    ∃ t, exec (.scrubPass dt [f]) s = .next t ∧ t.intg.marked = s.intg.marked ++ [(f.mem.val, f.addr.toNat)] ∧
      tableGet (fun _ => 0) t.intg.blockErrors k = (tableGet (fun _ => 0) s.intg.blockErrors k + 1) % 2 ^ 32 ∧
      t.intg.ceCount = s.intg.ceCount ∧ t.sys.mode = s.sys.mode := by
  intro dt f s hq hc hr hm hb hu hk k
  have hi := elapse_intg hq.nothingWaits dt
  have hwf : tableWf (fun _ => 0) s.intg.blockErrors = true := by
    rw [canonical_iff_sound] at hc
    exact hc.blockErrors
  have hmain : mainRuns (elapse dt s) = true := (mainRuns_elapse hq dt).trans hr
  have e : scrubPass [f] (elapse dt s) = passEnded (uncorrectable f.mem.val k f.addr.toNat (elapse dt s)) := by
    rw [scrubPass_single hmain, scrubFinding_uncorrectable hm (by rwa [correctsBits_scrubbed hm]), hu]
    rfl
  obtain ⟨m1, m2, m3⟩ := uncorrectable_marks (mem := f.mem.val) (blk := k) (addr := f.addr.toNat) (s := elapse dt s) (by rw [hi]; exact hk)
  obtain ⟨v, m, b, p, u, n, hv⟩ := uncorrectable_shape f.mem.val k f.addr.toNat (elapse dt s)
  obtain ⟨c, q, hs⟩ := passEnded_shape (uncorrectable f.mem.val k f.addr.toNat (elapse dt s))
  rw [hs] at e
  have hsys : (uncorrectable f.mem.val k f.addr.toNat (elapse dt s)).sys = s.sys := by rw [hv]; exact elapse_sys hq.nothingWaits dt
  have hrow : exec (.scrubPass dt [f]) s = .next (scrubPass [f] (elapse dt s)) :=
    event_of_steady hq (by rw [e, hv]; exact ⟨rfl, rfl, rfl⟩)
  rw [e] at hrow
  refine ⟨_, hrow, ?_⟩
  rw [hi] at m1 m2 m3
  refine ⟨m1, ?_, m3, congrArg (·.mode) hsys⟩
  refine (congrArg (fun l => tableGet (fun _ => 0) l k) m2).trans ?_
  rw [tableGet_set hwf, if_pos rfl]

/-- Code executed from a marked word is a fault (R529, R540). -/
theorem scrub_code_faults :
  ∀ dt (f : ScrubFinding) s, Quiet s → tickGoesOn s.pending = false → mainRuns s = true → triggerActs s (.fault, 6) = true →
    f.mem.val = 3 → 1 < f.bits → f.used = some .code →
    ∃ t r, exec (.scrubPass dt [f]) s = .next t ∧ t.sys.mode = .fault ∧ t.intg.ring = (r :: s.intg.ring).take 8 ∧ r.cause = 5 ∧
      r.block = 1 ∧ r.detail = le 4 f.addr.toNat := by
  intro dt f s hq hg hr ha hm hb hu
  have hmain : mainRuns (elapse dt s) = true := (mainRuns_elapse hq dt).trans hr
  obtain ⟨v, m, b, p, u, n, hv⟩ := uncorrectable_shape f.mem.val (memBlock f.mem.val f.addr.toNat f.owner.val) f.addr.toNat (elapse dt s)
  have e : scrubPass [f] (elapse dt s) = faultEntry 5 0x01 (le 4 f.addr.toNat)
      (passEnded (uncorrectable f.mem.val (memBlock f.mem.val f.addr.toNat f.owner.val) f.addr.toNat (elapse dt s))) := by
    rw [scrubPass_single hmain, scrubFinding_uncorrectable (by rw [hm]; decide) (by rw [hm]; exact hb), hu, Option.elim_some, wordUsed,
      if_pos hm, passEnded_faultEntry]
  obtain ⟨c, q, hs⟩ := passEnded_shape (uncorrectable f.mem.val (memBlock f.mem.val f.addr.toNat f.owner.val) f.addr.toNat (elapse dt s))
  rw [hs, hv] at e
  obtain ⟨t, hrow, hmode, -, -, hring, -⟩ := row_faults hq hg e (elapse_sys hq.nothingWaits dt)
    (congrArg Pair.peerDigests (elapse_pair hq.nothingWaits dt)) ha
  rw [show (_ : Intg).ring = s.intg.ring from congrArg Intg.ring (elapse_intg hq.nothingWaits dt)] at hring
  exact ⟨t, _, hrow, hmode, hring, rfl, rfl, rfl⟩

/-- HOUSEKEEPING restarts (R533). -/
theorem housekeeping_restarts :
  ∀ dt s, Quiet s →
    ∃ t, exec (.watchdogExpiry dt .housekeeping) s = .next t ∧ t.intg.wdtRestarts = s.intg.wdtRestarts + 1 ∧ t.sys = s.sys ∧
      t.intg.ring = s.intg.ring := by
  intro dt s hq
  obtain ⟨p, u, n, hs⟩ := snapSource_shape 6 (restarted [0x14] none (elapse dt s))
  have hrow : exec (.watchdogExpiry dt .housekeeping) s = .next (watchdogExpiry .housekeeping (elapse dt s)) :=
    event_of_steady hq (by simp only [watchdogExpiry]; rw [hs]; exact ⟨rfl, rfl, rfl⟩)
  simp only [watchdogExpiry] at hrow
  rw [hs] at hrow
  have hi := elapse_intg hq.nothingWaits dt
  exact ⟨_, hrow, congrArg (·.wdtRestarts + 1) hi, elapse_sys hq.nothingWaits dt, congrArg (·.ring) hi⟩

/-- A supervisor core restarts at its first expiry (R533). -/
theorem core_restarts :
  ∀ dt (core : Fin 4) (pc : W32) tags s, Quiet s → 1 ≤ core.val → mainRuns s = true → s.sys.mode ≠ .fault →
    s.intg.lastExpiry.toList.getD (core.val - 1) none = none →
    ∃ t, exec (.watchdogExpiry dt (.supervisor core pc tags)) s = .next t ∧ t.intg.wdtRestarts = s.intg.wdtRestarts + 1 ∧
      t.intg.lastExpiry.toList.getD (core.val - 1) none = some (monoUs (elapse dt s)) ∧ t.sys.mode = s.sys.mode ∧
      t.intg.ring = s.intg.ring := by
  intro dt core pc tags s hq hc hr hf hl
  have hi := elapse_intg hq.nothingWaits dt
  have hsys := elapse_sys hq.nothingWaits dt
  have e := watchdog_core (u := elapse dt s) (pc := pc) (tags := tags) hc ((mainRuns_elapse hq dt).trans hr) (by rw [hsys]; exact hf)
  obtain ⟨v, hv⟩ : ∃ v, v = snapSource 6 (elapse dt s) := ⟨_, rfl⟩
  have hsv : Sourced (elapse dt s) v := hv ▸ sourced_snapSource 6 _
  obtain ⟨hvs, hvp, hvq, -, -, hvr, -, hvw, hvl⟩ := sourced_elapse hq hsv
  rw [← hv] at e
  obtain ⟨k1, k2, k3, k4, k5, k6⟩ := coreExpiry_first_kept (core := core) (pc := pc.toNat) (tags := tags) (s := v)
    (by rw [vget_getD, hvl]; exact hl) (by omega) rfl
  rw [← e] at k1 k2 k3 k4 k5 k6
  have hrow : exec (.watchdogExpiry dt (.supervisor core pc tags)) s = .next (watchdogExpiry (.supervisor core pc tags) (elapse dt s)) :=
    event_of_steady hq (.of_kept (k1.trans hsv.sys) (k2.trans hsv.pair) (k3.trans hsv.pending))
  refine ⟨_, hrow, ?_, ?_, ?_, ?_⟩
  · rw [k4, hvw]
  · rw [← vget_getD, k5, hsv.monoUs]
  · rw [k1, hvs]
  · rw [k6, hvr]

/-- The second expiry within 600 s is a fault (R533, R541). -/
theorem core_faults :
  ∀ dt (core : Fin 4) (pc : W32) tags u s, Quiet s → 1 ≤ core.val → tickGoesOn s.pending = false → mainRuns s = true →
    triggerActs s (.fault, 6) = true →
    s.intg.lastExpiry.toList.getD (core.val - 1) none = some u → monoUs (elapse dt s) ≤ u + 600000000 →
    ∃ t r, exec (.watchdogExpiry dt (.supervisor core pc tags)) s = .next t ∧ t.sys.mode = .fault ∧
      t.intg.ring = (r :: s.intg.ring).take 8 ∧ r.seq = (s.intg.faultCount + 1).toNat ∧ r.cause = 2 ∧ r.block = 1 ∧
      r.detail = le 1 core ++ le 4 pc.toNat ∧ r.mode = s.sys.mode.code ∧ t.intg.wdtRestarts = s.intg.wdtRestarts := by
  intro dt core pc tags u s hq hc hg hr ha hl hu
  have e := watchdog_core (u := elapse dt s) (pc := pc) (tags := tags) hc ((mainRuns_elapse hq dt).trans hr)
    (by rw [elapse_sys hq.nothingWaits]; exact fault_acts_ne ha)
  have hsv := sourced_snapSource 6 (elapse dt s)
  obtain ⟨hvs, hvp, -, -, -, hvr, hvf, hvw, hvl⟩ := sourced_elapse hq hsv
  generalize snapSource 6 (elapse dt s) = v at *
  rw [coreExpiry_second (s := v) (by rw [vget_getD, hvl]; exact hl) (by rw [hsv.monoUs]; exact hu)] at e
  obtain ⟨t, hrow, hmode, -, -, hring, -, hw, -⟩ := row_faults (g := expiryNoted core v) hq hg e hvs (congrArg Pair.peerDigests hvp) ha
  refine ⟨t, _, hrow, hmode, hring.trans (congrArg (fun l => (_ :: l).take 8) hvr), ?_, rfl, rfl, rfl, ?_, hw.trans hvw⟩
  · exact congrArg (fun n : W32 => (n + 1).toNat) hvf
  · exact congrArg (fun x : Sys => x.mode.code) hvs

/-- An expiry of core 0 is a fault (R533, R541). -/
theorem core_zero_faults :
  ∀ dt (pc : W32) tags s, Quiet s → tickGoesOn s.pending = false → mainRuns s = true →
    triggerActs s (.fault, 6) = true →
    ∃ t r, exec (.watchdogExpiry dt (.supervisor 0 pc tags)) s = .next t ∧ t.sys.mode = .fault ∧
      t.intg.ring = (r :: s.intg.ring).take 8 ∧ r.cause = 1 ∧ r.block = 1 ∧ r.detail = le 4 pc.toNat := by
  intro dt pc tags s hq hg hr ha
  have e : watchdogExpiry (.supervisor 0 pc tags) (elapse dt s) = faultEntry 1 0x01 (le 4 pc.toNat) (snapSource 6 (elapse dt s)) := by
    simp [watchdogExpiry, mainRuns_elapse hq, hr]
  obtain ⟨hvs, hvp, -, -, -, hvr, -⟩ := sourced_elapse hq (sourced_snapSource 6 (elapse dt s))
  generalize snapSource 6 (elapse dt s) = v at *
  obtain ⟨t, hrow, hmode, -, -, hring, -⟩ := row_faults (g := v) hq hg e hvs (congrArg Pair.peerDigests hvp) ha
  exact ⟨t, _, hrow, hmode, hring.trans (congrArg (fun l => (_ :: l).take 8) hvr), rfl, rfl, rfl⟩

/-- An expiry of the Cloister zeroises and is a fault (R533, R541). -/
theorem security_faults :
  ∀ dt (pc : W32) s, Quiet s → tickGoesOn s.pending = false → mainRuns s = true →
    triggerActs s (.fault, 6) = true →
    ∃ t r, exec (.watchdogExpiry dt (.security pc)) s = .next t ∧ t.sys.mode = .fault ∧
      t.intg.ring = (r :: s.intg.ring).take 8 ∧ r.cause = 3 ∧ r.block = 0x11 ∧ r.detail = le 4 pc.toNat ∧ t.sec.slots = [] := by
  intro dt pc s hq hg hr ha
  have e : watchdogExpiry (.security pc) (elapse dt s) = faultEntry 3 0x11 (le 4 pc.toNat) (zeroise (snapSource 6 (elapse dt s))) := by
    simp only [watchdogExpiry, mainRuns_elapse hq, hr]
    rfl
  obtain ⟨hvs, hvp, -, -, -, hvr, -⟩ := sourced_elapse hq (sourced_snapSource 6 (elapse dt s))
  generalize snapSource 6 (elapse dt s) = v at *
  obtain ⟨h, hz⟩ := zeroise_shape v
  rw [hz] at e
  obtain ⟨t, hrow, hmode, -, -, hring, -, -, -, hsl⟩ := row_faults hq hg e hvs (congrArg Pair.peerDigests hvp) ha
  exact ⟨t, _, hrow, hmode, hring.trans (congrArg (fun l => (_ :: l).take 8) hvr), rfl, rfl, rfl, hsl⟩

/-- An expiry of the axes switches them off and is a fault (R533, R541). -/
theorem motion_faults :
  ∀ dt (pc : W32) s, Quiet s → tickGoesOn s.pending = false → vaxRuns s = true →
    triggerActs s (.fault, 6) = true →
    ∃ t r, exec (.watchdogExpiry dt (.motion pc)) s = .next t ∧ t.sys.mode = .fault ∧
      t.intg.ring = (r :: s.intg.ring).take 8 ∧ r.cause = 4 ∧ r.block = 0x0B ∧ r.detail = le 4 pc.toNat ∧
      ∀ a : Fin 8, (axisOf t a).still = 0 ∧ (axisOf t a).vel = 0 ∧ (axisOf t a).state = .standstill := by
  intro dt pc s hq hg hr ha
  obtain ⟨u, hu⟩ : ∃ u, u = { elapse dt s with vax := { (elapse dt s).vax with enLow := true } } := ⟨_, rfl⟩
  have e : watchdogExpiry (.motion pc) (elapse dt s) = faultEntry 4 0x0B (le 4 pc.toNat) (axesSafe true (snapSource 6 u)) := by
    simp only [watchdogExpiry, vaxRuns_elapse hq, hr, if_true, hu]
  have hm : Mild u (axesSafe true (snapSource 6 u)) := (snapSource_mild 6 u).trans (axesSafe_mild true _)
  have hsys : (axesSafe true (snapSource 6 u)).sys = s.sys := by
    rw [axesSafe_sys, (sourced_snapSource 6 u).sys, hu]
    exact elapse_sys hq.nothingWaits dt
  generalize axesSafe true (snapSource 6 u) = v at *
  have hd : v.pair.peerDigests = s.pair.peerDigests := by
    refine (congrArg Lasting.peerDigests hm.1).trans ?_
    rw [hu]
    exact congrArg Pair.peerDigests (elapse_pair hq.nothingWaits dt)
  have hring : v.intg.ring = s.intg.ring := by
    refine (congrArg (fun l : Lasting => l.ring.1) hm.1).trans ?_
    rw [hu]
    exact congrArg Intg.ring (elapse_intg hq.nothingWaits dt)
  have hlow : v.vax.enLow = true := (enLow_of_mild hm).trans (by rw [hu])
  have hb : v.sys.mode ≠ .boot := by
    rw [hsys]
    intro hboot
    simp [vaxRuns, pioRuns, hboot] at hr
  have hdark := acted_fault_dark (s := faultEntry 4 0x0B (le 4 pc.toNat) v) hlow hb 6 (by decide) (by decide)
  have hrow := row_of_faultEntry hq hg e hsys hd ha
  obtain ⟨t, hrow', hmode, -, -, hr', -⟩ := row_faults hq hg e hsys hd ha
  obtain rfl := Host.Outcome.next.inj (hrow'.symm.trans hrow)
  exact ⟨_, _, hrow, hmode, hr'.trans (congrArg (fun l => (_ :: l).take 8) hring), rfl, rfl, rfl, hdark.2⟩

/-- CONCOURSE restarts (R533). -/
theorem concourse_restarts :
  ∀ dt s, Quiet s → sublRuns s = true →
    ∃ t, exec (.watchdogExpiry dt .concourse) s = .next t ∧ t.intg.wdtRestarts = s.intg.wdtRestarts + 1 ∧ t.sys = s.sys ∧
      t.subl = s.subl := by
  intro dt s hq hr
  have e : watchdogExpiry .concourse (elapse dt s) = restarted [0x05] (some 2000) (snapSource 6 (elapse dt s)) := by
    simp only [watchdogExpiry, sublRuns_elapse hq, hr, if_true]
  obtain ⟨p, u, n, hs⟩ := snapSource_shape 6 (elapse dt s)
  have hrow : exec (.watchdogExpiry dt .concourse) s = .next (watchdogExpiry .concourse (elapse dt s)) :=
    event_of_steady hq (by rw [e, hs]; exact ⟨rfl, rfl, rfl⟩)
  rw [e, hs] at hrow
  exact ⟨_, hrow, congrArg (·.wdtRestarts + 1) (elapse_intg hq.nothingWaits dt), elapse_sys hq.nothingWaits dt,
    elapse_subl hq.nothingWaits dt⟩

theorem watchdog_display {u : State} (hr : epdRuns u = true) :
    (watchdogExpiry .display u).sys = u.sys ∧ (watchdogExpiry .display u).pair = u.pair ∧ (watchdogExpiry .display u).pending = u.pending ∧
      (watchdogExpiry .display u).intg.wdtRestarts = u.intg.wdtRestarts + 1 ∧ (watchdogExpiry .display u).epd.recovery = true ∧
      ∃ r, (watchdogExpiry .display u).epd.queue = r :: u.epd.queue ∧ r.region = 16 := by
  simp only [watchdogExpiry, hr, if_true]
  obtain ⟨p, x, n, hs⟩ := snapSource_shape 6 (updEpd (fun x => { x with recovery := true }) u)
  rw [hs]
  exact ⟨rfl, rfl, rfl, rfl, rfl, _, rfl, rfl⟩

/-- The display restarts with CLEAR of the whole panel (R533). -/
theorem display_restarts :
  ∀ dt s, Quiet s → epdRuns s = true →
    ∃ t r, exec (.watchdogExpiry dt .display) s = .next t ∧ t.intg.wdtRestarts = s.intg.wdtRestarts + 1 ∧ t.sys = s.sys ∧
      t.epd.recovery = true ∧ t.epd.queue = r :: s.epd.queue ∧ r.region = 16 := by
  intro dt s hq hr
  obtain ⟨h1, h2, h3, h4, h5, r, h6, h7⟩ := watchdog_display ((epdRuns_elapse hq dt).trans hr)
  have hrow : exec (.watchdogExpiry dt .display) s = .next (watchdogExpiry .display (elapse dt s)) :=
    event_of_steady hq (.of_kept h1 h2 h3)
  refine ⟨_, r, hrow, ?_, ?_, h5, ?_, h7⟩
  · rw [h4, elapse_intg hq.nothingWaits]
  · rw [h1, elapse_sys hq.nothingWaits]
  · rw [h6, elapse_epd hq.nothingWaits]

/-- The metrology engine restarts (R533). -/
theorem metrology_restarts :
  ∀ dt bad s, Quiet s → mainRuns s = true →
    ∃ t, exec (.watchdogExpiry dt (.metrology bad)) s = .next t ∧ t.intg.wdtRestarts = s.intg.wdtRestarts + 1 ∧
      t.sys = s.sys := by
  intro dt bad s hq hr
  have e : watchdogExpiry (.metrology bad) (elapse dt s) = metrologyRestart bad (snapSource 6 (elapse dt s)) := by
    simp [watchdogExpiry, mainRuns_elapse hq, hr]
  have hsv := sourced_snapSource 6 (elapse dt s)
  obtain ⟨hvs, -, -, -, -, -, -, hvw, -⟩ := sourced_elapse hq hsv
  generalize snapSource 6 (elapse dt s) = v at *
  obtain ⟨m1, m2, m3, m4⟩ := metrologyRestart_restarts bad v
  obtain ⟨k1, k2, k3, k4⟩ := restarted_restarts [0x07, 0x08, 0x09] (some 60000) v
  have hrow : exec (.watchdogExpiry dt (.metrology bad)) s = .next (watchdogExpiry (.metrology bad) (elapse dt s)) := by
    refine event_of_steady hq ?_
    rw [e]
    exact .of_kept (m1.trans (k1.trans hsv.sys)) (m2.trans (k2.trans hsv.pair)) (m3.trans (k3.trans hsv.pending))
  rw [e] at hrow
  exact ⟨_, hrow, m4.trans (k4.trans (congrArg (· + 1) hvw)), m1.trans (k1.trans hvs)⟩

/-- An edge of SNAP_IN is stamped, and a source of the snapshot (R535). -/
theorem snapInEdge_sources :
  ∀ dt rising s, Quiet s → timeRuns s = true → rising ≠ bit (getP s 0x1311) 11 → bit (getP s 0x1311) 1 = true →
    exec (.snapInEdge dt rising) s =
      .next { elapse dt s with intg :=
        if s.intg.armed = true ∧ (s.intg.pending = none ∨ monoUs (elapse dt s) ≤ s.intg.pendingUs) then
          { s.intg with
            snapIn := ⟨ptpSec (elapse dt s), ptpNs (elapse dt s)⟩,
            pending := some (Nat.lor (s.intg.pending.getD 0) 2),
            pendingUs := if s.intg.pending.isSome then s.intg.pendingUs else monoUs (elapse dt s) }
        else
          { s.intg with
            snapIn := ⟨ptpSec (elapse dt s), ptpNs (elapse dt s)⟩, snapMissed := s.intg.snapMissed + 1 } } := by
  intro dt rising s hq hr he h1
  have hrow : exec (.snapInEdge dt rising) s = .next (snapInEdge rising (elapse dt s)) := row_of_seen hq fun u => seen_snapInEdge ..
  have hp : ∀ i, getP (elapse dt s) i = getP s i := fun i => getP_elapse hq dt i
  rw [hrow, snapInEdge_eq ((elapse_read timeRuns (fun _ _ _ => rfl) hq dt).trans hr) (by rw [hp]; exact he),
    snapSource_enabled (k := 1) (s := updIntg _ (elapse dt s)) (show bit (getP (elapse dt s) 0x1311) 1 = true by rw [hp]; exact h1)]
  have hi := elapse_intg hq.nothingWaits dt
  obtain ⟨u, hu⟩ : ∃ u, u = elapse dt s := ⟨_, rfl⟩
  rw [← hu] at hi ⊢
  rw [← hi]
  rfl

/-- The snapshot tick latches the sections (R536 to R538). -/
theorem snapshotTick_latches :
  ∀ dt src s, Quiet s → s.intg.pending = some src → s.intg.armed = true → mainRuns s = true →
    s.intg.pendingUs < monoUs (elapse dt s) →
    ∃ t h, exec (.snapshotTick dt) s = .next t ∧
      t.intg = { s.intg with armed := false, held := some h, pending := none, snapSequence := s.intg.snapSequence + 1 } ∧
      h.seq = s.intg.snapSequence + 1 ∧ h.sources = src ∧ h.mode = s.sys.mode.code ∧ h.at_ = tickStamp (elapse dt s) ∧
      h.sections.map (·.1) = (List.range 20).map (· + 1) ∧ t.pio = s.pio ∧ t.ctrl = s.ctrl ∧
      (∀ tag e, s.hif.tags = [(tag, .executing e)] → e.wait = .snapshot →
        ∃ r, tagOf t tag = some (.held r) ∧ r.status = stOK ∧ r.body = le 4 (s.intg.snapSequence + 1).toNat ++ zeros 4) := by
  intro dt src s hq hp ha hr hu
  have hi := elapse_intg hq.nothingWaits dt
  have hrow : exec (.snapshotTick dt) s = .next (snapshotTick (elapse dt s)) := row_of_seen hq fun u => seen_snapshotTick u
  have e := snapshotTick_eq (s := elapse dt s) (src := src) (by rw [hi]; exact hp) (by rw [hi]; exact ha)
    ((mainRuns_elapse hq dt).trans hr) (by rw [hi]; exact hu)
  rw [hi] at e
  obtain ⟨h, hh⟩ : ∃ h, h = snapshotOf src (elapse dt s) := ⟨_, rfl⟩
  have hseq : h.seq = s.intg.snapSequence + 1 := by rw [hh, snapshotOf, hi]
  have hmode : h.mode = s.sys.mode.code := by rw [hh, snapshotOf, elapse_sys hq.nothingWaits]
  have hsrc : h.sources = src := by rw [hh, snapshotOf]
  have hat : h.at_ = tickStamp (elapse dt s) := by rw [hh, snapshotOf]
  have hsec : h.sections.map (·.1) = (List.range 20).map (· + 1) := by rw [hh, snapshotOf, snapSections_codes]
  rw [← hh] at e
  obtain ⟨v, hv⟩ : ∃ v, v = { elapse dt s with draws := (elapse dt s).draws + 16, intg := snapHeld h s.intg } := ⟨_, rfl⟩
  rw [← hv] at e
  rw [e] at hrow
  refine ⟨_, h, hrow, ?_, hseq, hsrc, hmode, hat, hsec, ?_, ?_, fun tag x htag hw => ?_⟩
  · rw [completeAll_intg, hv]
    rfl
  · rw [completeAll_pio, hv]
    exact elapse_pio hq.nothingWaits dt
  · rw [completeAll_ctrl, hv]
    exact elapse_ctrl hq.nothingWaits dt
  · have hhif : v.hif = s.hif := by rw [hv]; exact elapse_hif hq.nothingWaits dt
    exact tagOf_completeAll (s := v) (by rw [hhif]; exact htag) (by simp [hw])

/-- Settles O53: each event is followed through its row, and the faults through the trigger of FAULT. -/
theorem integrityEventsComplete : Obligations.IntegrityEventsComplete := by
  unfold Obligations.IntegrityEventsComplete
  exact ⟨scrub_corrects, scrub_marks, scrub_code_faults, housekeeping_restarts, core_restarts, core_faults, core_zero_faults,
    security_faults, motion_faults, concourse_restarts, display_restarts, metrology_restarts, snapInEdge_sources, snapshotTick_latches⟩

end Sys2Proof.Machine


/-! Solver jobs and the Gallery (R18 to R24, R141 to R177). -/

namespace Sys2Proof.Machine

/-! ### The start of a job (R146) -/

theorem setFlights_eq (mask : Nat) (p : FlightPower) (s : State) :
    setFlights mask p s =
      { s with pwr := { s.pwr with flights := Vector.ofFn fun i => if bit mask i.val then p else s.pwr.flights[i] } } := by
  have h : (s.pwr.flights.mapFinIdx fun i x _ => if bit mask i then p else x) =
      Vector.ofFn fun i : Fin 8 => if bit mask i.val then p else s.pwr.flights[i] := by
    ext i hi
    simp
  rw [setFlights, h]

theorem startHost_eq {s : State} {j : HJob} {rest : List HJob} (hr : s.solv.hrun = none) (hq : s.solv.queue = j :: rest)
    (hf : flightsFree s j.mask = true) (hn : nmodReady s = false) (hp : passed s j.deadline = false) :
    startHost s = startReads j.mask (setFlights j.mask .active { s with solv := { s.solv with queue := rest, hrun := some j } }) := by
  have hc : (flightsFree s j.mask && !nmodReady s) = true := by rw [hf, hn]; rfl
  unfold startHost
  split
  next j' rest' hr' hq' =>
    obtain ⟨rfl, rfl⟩ := List.cons.inj (hq.symm.trans hq')
    rw [if_pos hc]
    exact if_neg (ne_true_of_eq_false hp)
  next h => exact absurd hq (h j rest hr)

theorem startNmod_eq {s : State} {j : NJob} {rest : List NJob} (hr : s.solv.nrun = none) (hq : s.solv.ring = j :: rest)
    (hf : flightsFree s j.mask = true) (hp : passed s j.deadline = false) :
    startNmod s =
      startReads j.mask (reloadWork j.mask (setFlights j.mask .active { s with solv := { s.solv with ring := rest, nrun := some j } })) := by
  unfold startNmod
  split
  next j' rest' hr' hq' =>
    obtain ⟨rfl, rfl⟩ := List.cons.inj (hq.symm.trans hq')
    rw [if_pos hf]
    exact if_neg (ne_true_of_eq_false hp)
  next h => exact absurd hq (h j rest hr)

/-! ### The end of a job (R144, R168, R177) -/

/-- From `s` to `t` only memories of the solver, errors and what is recorded have changed. -/
structure JobMoved (s t : State) : Prop where
  hif : t.hif = s.hif
  nmod : t.nmod = s.nmod
  completed : t.solv.completed = s.solv.completed
  internal : t.solv.internal = s.solv.internal
  misses : t.solv.misses = s.solv.misses

theorem JobMoved.refl (s : State) : JobMoved s s := ⟨rfl, rfl, rfl, rfl, rfl⟩

theorem JobMoved.trans {s t u : State} (h : JobMoved s t) (h' : JobMoved t u) : JobMoved s u :=
  ⟨h'.hif.trans h.hif, h'.nmod.trans h.nmod, h'.completed.trans h.completed, h'.internal.trans h.internal, h'.misses.trans h.misses⟩

theorem JobMoved.foldl {α : Type} {f : State → α → State} (h : ∀ s x, JobMoved s (f s x)) (l : List α) (s : State) :
    JobMoved s (l.foldl f s) := by
  induction l generalizing s with
  | nil => exact .refl s
  | cons x l ih => exact (h s x).trans (ih _)

/-- The counters of the jobs. -/
def jobCounts (v : Solv) : W32 × W32 × W32 := (v.completed, v.internal, v.misses)

theorem jobCounts_putByte (p : JobPlace) (off : Nat) (b : Byte) (v : Solv) : jobCounts (putByte p off b v) = jobCounts v := by
  cases p <;> rfl

theorem jobCounts_foldl {α : Type} {f : Solv → α → Solv} (h : ∀ v x, jobCounts (f v x) = jobCounts v) (l : List α) (v : Solv) :
    jobCounts (l.foldl f v) = jobCounts v := by
  induction l generalizing v with
  | nil => rfl
  | cons x l ih => exact (ih _).trans (h v x)

/-- A byte of an output put where it belongs. -/
def putAt (w : Nat × Nat × Bytes) (v : Solv) (c : Byte × Nat) : Solv :=
  match locate w.1 (w.2.1 + c.2) with
  | some (p, off) => putByte p off c.1 v
  | none => v

theorem jobCounts_putAt (w : Nat × Nat × Bytes) (v : Solv) (c : Byte × Nat) : jobCounts (putAt w v c) = jobCounts v := by
  unfold putAt
  split
  · exact jobCounts_putByte ..
  · rfl

theorem jobWrite_solv (s : State) (w : Nat × Nat × Bytes) : (jobWrite s w).solv = w.2.2.zipIdx.foldl (putAt w) s.solv := by
  simp only [jobWrite]
  split <;> rfl

theorem jobWrite_moved (s : State) (w : Nat × Nat × Bytes) : JobMoved s (jobWrite s w) := by
  have h : jobCounts (jobWrite s w).solv = jobCounts s.solv := by
    rw [jobWrite_solv]
    exact jobCounts_foldl (fun v c => jobCounts_putAt w v c) _ _
  simp only [jobCounts, Prod.mk.injEq] at h
  obtain ⟨h1, h2, h3⟩ := h
  obtain ⟨m, e⟩ := jobWrite_shape s w
  exact ⟨by rw [e], by rw [e], h1, h2, h3⟩

theorem spoilWorkspace_moved (d : Bytes) (s : State) : JobMoved s (spoilWorkspace d s) := by
  unfold spoilWorkspace
  split
  · have hd : JobMoved s (draw s) := ⟨rfl, rfl, rfl, rfl, rfl⟩
    exact hd.trans (jobWrite_moved ..)
  · exact .refl s

theorem countFault_shape (f : JobFault) (s : State) : ∃ e i, countFault f s = { s with evr := e, intg := i } := by
  have hp : ∀ m b a (s : State), ∃ e i, pathError m b a s = { s with evr := e, intg := i } := by
    intro m b a s
    unfold pathError
    dsimp only
    obtain ⟨p, u, n, e⟩ := snapSource_shape 5 (post 0x1301 0 (le 1 m ++ le 1 b ++ le 4 a ++ le 4
      (tableGet (fun _ => 0) (bumpErrors b s).intg.blockErrors b)) 0 (bumpErrors b s))
    exact ⟨_, _, e⟩
  have hu : ∀ m b a (s : State), ∃ e i, uncorrectable m b a s = { s with evr := e, intg := i } := by
    intro m b a s
    obtain ⟨e, m', b', p, u, n, h⟩ := uncorrectable_shape m b a s
    exact ⟨_, _, h⟩
  unfold countFault
  split
  · exact hu ..
  · exact hu ..
  · exact hu ..
  · exact ⟨s.evr, _, rfl⟩
  · exact hp ..

/-- A job that ends: its flights and reads are given back, it is counted, and its command is answered (R144). -/
theorem endHost_ends {j : HJob} {e : JobEnd} {u t : State} (ht : t = endHost j e u) :
    t.solv.hrun = none ∧ t.solv.completed = u.solv.completed + 1 ∧
      t.solv.internal = (if e.status = stInternal then u.solv.internal + 1 else u.solv.internal) ∧
      t.solv.misses = (if e.status = stDeadlineMiss then u.solv.misses + 1 else u.solv.misses) ∧
      (t.solv.test = u.solv.test ∧ t.solv.locals = u.solv.locals ∧ t.solv.work = u.solv.work ∧ t.solv.ddr = u.solv.ddr) ∧
      t.nmod = u.nmod ∧
      (∀ x, tagOf u j.tag = some (.executing x) → ∃ h, tagOf t j.tag = some (.held h) ∧ h.status = e.status) := by
  obtain ⟨v, hv⟩ : ∃ v, v = countJob e (releaseFlights j.mask (settleReads j.mask e { u with solv := { u.solv with hrun := none } })) :=
    ⟨_, rfl⟩
  have he : t = complete j.tag e.status (bit e.flags 1) (jobRecord v (dId j.desc) e) v := by rw [ht, hv]; rfl
  have hs : ∃ g, settleReads j.mask e { u with solv := { u.solv with hrun := none } } =
      { u with solv := { u.solv with hrun := none }, gal := g } := by
    unfold settleReads
    split
    · exact ⟨_, rfl⟩
    · exact ⟨_, rfl⟩
  obtain ⟨g, hg⟩ := hs
  rw [hg] at hv
  have hsolv : t.solv = v.solv := by rw [he, complete_solv]
  have hnmod : t.nmod = v.nmod := by rw [he, complete_nmod]
  refine ⟨?_, ?_, ?_, ?_, ?_, ?_, fun x hx => ?_⟩
  · rw [hsolv, hv]; rfl
  · rw [hsolv, hv]; rfl
  · rw [hsolv, hv]; rfl
  · rw [hsolv, hv]; rfl
  · rw [hsolv, hv]; exact ⟨rfl, rfl, rfl, rfl⟩
  · rw [hnmod, hv]; rfl
  · have hx' : tagOf v j.tag = some (.executing x) := by rw [hv]; exact hx
    obtain ⟨h, hh, hst, -⟩ := tagOf_complete hx' e.status (bit e.flags 1) (jobRecord v (dId j.desc) e)
    rw [he]
    exact ⟨h, hh, hst⟩

/-- The end of a host job: it is the end of its run in a state whose memories and counters are those of `u`. -/
structure HostEnds (j : HJob) (status : Nat) (u t : State) : Prop where
  hrun : t.solv.hrun = none
  completed : t.solv.completed = u.solv.completed + 1
  internal : t.solv.internal = (if status = stInternal then u.solv.internal + 1 else u.solv.internal)
  misses : t.solv.misses = (if status = stDeadlineMiss then u.solv.misses + 1 else u.solv.misses)
  memories : t.solv.test = u.solv.test ∧ t.solv.locals = u.solv.locals ∧ t.solv.work = u.solv.work ∧ t.solv.ddr = u.solv.ddr
  nmod : t.nmod = u.nmod
  answer : ∀ x, tagOf u j.tag = some (.executing x) → ∃ h, tagOf t j.tag = some (.held h) ∧ h.status = status

theorem hostEnds_endHost {j : HJob} {e : JobEnd} {v u : State} (hs : v.solv = u.solv) (hn : v.nmod = u.nmod) (hh : v.hif = u.hif) :
    HostEnds j e.status u (endHost j e v) := by
  obtain ⟨h1, h2, h3, h4, h5, h6, h7⟩ := endHost_ends (j := j) (e := e) (u := v) rfl
  rw [hs] at h2 h3 h4 h5
  exact ⟨h1, h2, h3, h4, h5, h6.trans hn, fun x hx => h7 x (by simpa only [tagOf, hh] using hx)⟩

theorem hostCompletion_ok {s : State} {j : HJob} {o : JobOut} (hr : s.solv.hrun = some j) (ho : runJob s j.desc = .ok o)
    (hp : passed s j.deadline = false) :
    HostEnds j stOK (o.writes.foldl jobWrite (spoilWorkspace j.desc s)) (hostCompletion none s) := by
  have e : hostCompletion none s = endHost j (JobEnd.ok o.out) (o.writes.foldl jobWrite (spoilWorkspace j.desc s)) := by
    unfold hostCompletion
    split
    next h => exact absurd (hr.symm.trans h) (Option.some_ne_none _)
    next j' h =>
      obtain rfl := Option.some.inj (hr.symm.trans h)
      simp only [ho]
      exact if_neg (ne_true_of_eq_false hp)
  rw [e]
  exact hostEnds_endHost (e := JobEnd.ok o.out) rfl rfl rfl

/-- The norms that are known of a job that stops. -/
def normsOf (s : State) (j : HJob) (x : JobStop) : NormsKnown :=
  { normsAt s j.desc x.iters.toNat with key := (normsNumeric s j.desc).key }

theorem hostCompletion_stop {s : State} {j : HJob} {x : JobStop} (hr : s.solv.hrun = some j) :
    hostCompletion (some x) s =
      endHost j (stopEnd (normsOf s j x) (runJob s j.desc) x (spoilWorkspace j.desc s)).1
        (stopEnd (normsOf s j x) (runJob s j.desc) x (spoilWorkspace j.desc s)).2 := by
  unfold hostCompletion
  split
  next h => exact absurd (hr.symm.trans h) (Option.some_ne_none _)
  next j' h =>
    obtain rfl := Option.some.inj (hr.symm.trans h)
    rfl

theorem faultReason_internal (f : JobFault) : reasonStatus (faultReason f) = stInternal := by
  cases f <;> rfl

theorem hostCompletion_faulted {s : State} {j : HJob} {x : JobStop} {f : JobFault} (hr : s.solv.hrun = some j) (hf : x.fault = some f) :
    HostEnds j stInternal (spoilWorkspace j.desc s) (hostCompletion (some x) s) := by
  rw [hostCompletion_stop hr]
  generalize spoilWorkspace j.desc s = u
  generalize normsOf s j x = k, runJob s j.desc = run
  obtain ⟨e, i, hc⟩ := countFault_shape f u
  have h : stopEnd k run x u = JobEnd.short k (faultReason f) x.index.toNat x.iters.toNat x.regs.toNat x.regFirst.toNat (countFault f u) := by
    simp only [stopEnd, hf]
  rw [h, hc, ← faultReason_internal f]
  exact hostEnds_endHost (e := (JobEnd.short ..).1) rfl rfl rfl

theorem hostCompletion_missed {s : State} {j : HJob} {x : JobStop} (hr : s.solv.hrun = some j) (hf : x.fault = none)
    (hn : x.numeric = false) : HostEnds j stDeadlineMiss (spoilWorkspace j.desc s) (hostCompletion (some x) s) := by
  rw [hostCompletion_stop hr]
  generalize spoilWorkspace j.desc s = u
  generalize normsOf s j x = k, runJob s j.desc = run
  have h : stopEnd k run x u = JobEnd.short k 0 0xFFFFFFFF x.iters.toNat x.regs.toNat x.regFirst.toNat u := by
    simp only [stopEnd, hf, hn]
  rw [h, show stDeadlineMiss = reasonStatus 0 from rfl]
  exact hostEnds_endHost (e := (JobEnd.short k 0 0xFFFFFFFF x.iters.toNat x.regs.toNat x.regFirst.toNat u).1) (v := draw u) rfl rfl rfl

theorem hostEnds_elapse {j : HJob} {status : Nat} {dt : Nat} {s u t : State} (hq : Quiet s) (h : HostEnds j status u t)
    (hu : JobMoved (elapse dt s) u) :
    t.solv.hrun = none ∧ t.solv.completed = s.solv.completed + 1 ∧
      t.solv.internal = (if status = stInternal then s.solv.internal + 1 else s.solv.internal) ∧
      t.solv.misses = (if status = stDeadlineMiss then s.solv.misses + 1 else s.solv.misses) ∧ t.nmod = s.nmod ∧
      ∀ e, tagOf s j.tag = some (.executing e) → ∃ h, tagOf t j.tag = some (.held h) ∧ h.status = status := by
  obtain ⟨h1, h2, h3, h4, -, h6, h7⟩ := h
  obtain ⟨k1, k2, k3, k4, k5⟩ := hu
  rw [elapse_hif hq.nothingWaits] at k1
  rw [elapse_nmod hq.nothingWaits] at k2
  rw [elapse_solv hq.nothingWaits] at k3 k4 k5
  rw [k3] at h2
  rw [k4] at h3
  rw [k5] at h4
  exact ⟨h1, h2, h3, h4, h6.trans k2, fun e he => h7 e (by simpa only [tagOf, k1] using he)⟩

/-! ### The Gallery (R18 to R24) -/

/-- A target that does not respond: the timeout is counted and answered, and the tag returned (R21). -/
def timedOut (target initiator : Nat) (s : State) : State :=
  post 0x1302 0 (le 1 target) 0
    { s with
        intg := { s.intg with timeouts := tableSet (fun _ => 0) s.intg.timeouts target ((tableGet (fun _ => 0) s.intg.timeouts target + 1) % 2 ^ 32) }
        gal := respondFirst (fun b => b.src == initiator && b.port.target == target && !b.abandoned) s.gal
        out := s.out ++ [.gallery target 1] }

theorem galleryTimeout_eq {s : State} (h : mainRuns s = true) (target initiator addr : Nat) (p0 : Bool) :
    galleryTimeout target initiator addr p0 s =
      if p0 then faultEntry 8 target (le 1 target ++ le 1 initiator ++ le 4 addr) (snapSource 10 (timedOut target initiator s))
      else snapSource 10 (timedOut target initiator s) := by
  unfold galleryTimeout
  rw [if_neg (by rw [h]; decide)]
  rfl

theorem le_byte (b : Byte) : le 1 b.toNat = [b] := by
  simp [le]

theorem jobDeadlineMiss_host {s : State} {j : HJob} {x : JobStop} (hr : s.solv.hrun = some j) (hp : passed s j.deadline = true) :
    jobDeadlineMiss true x s = hostCompletion (some x) s := by
  simp only [jobDeadlineMiss, hr, hp, if_true]

theorem jobCompletion_faulted {x : JobStop} {f : JobFault} (hf : x.fault = some f) (s : State) :
    jobCompletion true (some x) s = hostCompletion (some x) s := by
  have hx : (some x).filter (fun q => q.fault.isSome) = some x := by simp [Option.filter, hf]
  simp only [jobCompletion, hx, if_true]

/-- A host job starts once its flights are free (R141, R146). -/
theorem host_job_starts :
  ∀ dt (j : HJob) rest s, Quiet s → s.solv.hrun = none → s.solv.queue = j :: rest → flightsFree s j.mask = true →
    nmodReady s = false → passed (elapse dt s) j.deadline = false →
    exec (.jobStart dt true) s =
      .next (startReads j.mask { elapse dt s with
        solv := { s.solv with queue := rest, hrun := some j },
        pwr := { s.pwr with flights := Vector.ofFn fun i => if bit j.mask i.val then .active else s.pwr.flights[i] } }) := by
  intro dt j rest s hq hr hqu hf hn hp
  have hs := elapse_solv hq.nothingWaits dt
  have hrow : exec (.jobStart dt true) s = .next (startHost (elapse dt s)) := row_of_seen (f := jobStart true) hq fun u => seen_startHost u
  have hf' : flightsFree (elapse dt s) j.mask = true := (elapse_read (flightsFree · j.mask) (fun _ _ _ => rfl) hq dt).trans hf
  have hn' : nmodReady (elapse dt s) = false := (elapse_read nmodReady (fun _ _ _ => rfl) hq dt).trans hn
  rw [hrow, startHost_eq (by rw [hs]; exact hr) (by rw [hs]; exact hqu) hf' hn' hp, setFlights_eq, hs, elapse_pwr hq.nothingWaits]

/-- A job of the network model starts once its flights are free (R146, R170). -/
theorem nmod_job_starts :
  ∀ dt (j : NJob) rest s, Quiet s → s.solv.nrun = none → s.solv.ring = j :: rest → flightsFree s j.mask = true →
    passed (elapse dt s) j.deadline = false →
    exec (.jobStart dt false) s =
      .next (startReads j.mask (reloadWork j.mask { elapse dt s with
        solv := { s.solv with ring := rest, nrun := some j },
        pwr := { s.pwr with flights := Vector.ofFn fun i => if bit j.mask i.val then .active else s.pwr.flights[i] } })) := by
  intro dt j rest s hq hr hqu hf hp
  have hs := elapse_solv hq.nothingWaits dt
  have hf' : flightsFree (elapse dt s) j.mask = true := (elapse_read (flightsFree · j.mask) (fun _ _ _ => rfl) hq dt).trans hf
  have e := startNmod_eq (s := elapse dt s) (by rw [hs]; exact hr) (by rw [hs]; exact hqu) hf' hp
  have hrow : exec (.jobStart dt false) s = .next (startNmod (elapse dt s)) := by
    refine event_of_steady (f := jobStart false) hq ?_
    show Steady (elapse dt s) (startNmod (elapse dt s))
    rw [e]
    exact Follows.steady (.of_seen (seen_startReads ..) (follows_reloadWork (.of_seen (seen_setFlights ..) (.refl (seen (elapse dt s))))))
  rw [hrow, e, setFlights_eq, hs, elapse_pwr hq.nothingWaits]

/-- A host job that ends OK commits its outputs (R144, R174). -/
theorem host_job_ends_ok :
  ∀ dt (j : HJob) (o : JobOut) s, Quiet s → s.solv.hrun = some j → runJob (elapse dt s) j.desc = .ok o →
    passed (elapse dt s) j.deadline = false →
    ∃ t, exec (.jobCompletion dt true none) s = .next t ∧ t.solv.hrun = none ∧ t.solv.completed = s.solv.completed + 1 ∧
      (let u := o.writes.foldl jobWrite (spoilWorkspace j.desc (elapse dt s))
       t.solv.test = u.solv.test ∧ t.solv.locals = u.solv.locals ∧ t.solv.work = u.solv.work ∧ t.solv.ddr = u.solv.ddr) ∧
      t.nmod = s.nmod ∧ (∀ e, tagOf s j.tag = some (.executing e) → ∃ h, tagOf t j.tag = some (.held h) ∧ h.status = stOK) := by
  intro dt j o s hq hr ho hp
  have hrow : exec (.jobCompletion dt true none) s = .next (hostCompletion none (elapse dt s)) :=
    row_of_follows (f := jobCompletion true none) hq fun u => follows_hostCompletion (.refl _)
  have he := hostCompletion_ok (s := elapse dt s) (by rw [elapse_solv hq.nothingWaits]; exact hr) ho hp
  obtain ⟨h1, h2, -, -, h5, h6⟩ := hostEnds_elapse hq he ((spoilWorkspace_moved ..).trans (.foldl jobWrite_moved ..))
  exact ⟨_, hrow, h1, h2, he.memories, h5, h6⟩

/-- A host job that a fault stops commits nothing (R167, R177). -/
theorem host_job_faulted :
  ∀ dt (j : HJob) (x : JobStop) (f : JobFault) s, Quiet s → s.solv.hrun = some j → x.fault = some f →
    ∃ t, exec (.jobCompletion dt true (some x)) s = .next t ∧ t.solv.hrun = none ∧ t.solv.internal = s.solv.internal + 1 ∧
      (let u := spoilWorkspace j.desc (elapse dt s)
       t.solv.test = u.solv.test ∧ t.solv.locals = u.solv.locals ∧ t.solv.work = u.solv.work ∧ t.solv.ddr = u.solv.ddr) ∧
      t.nmod = s.nmod ∧
      (∀ e, tagOf s j.tag = some (.executing e) → ∃ h, tagOf t j.tag = some (.held h) ∧ h.status = stInternal) := by
  intro dt j x f s hq hr hf
  have e := jobCompletion_faulted hf (elapse dt s)
  have hrow : exec (.jobCompletion dt true (some x)) s = .next (jobCompletion true (some x) (elapse dt s)) := by
    refine event_of_steady hq ?_
    rw [e]
    exact Follows.steady (follows_hostCompletion (.refl _))
  rw [e] at hrow
  have he := hostCompletion_faulted (s := elapse dt s) (by rw [elapse_solv hq.nothingWaits]; exact hr) hf
  obtain ⟨h1, -, h3, -, h5, h6⟩ := hostEnds_elapse hq he (spoilWorkspace_moved ..)
  exact ⟨_, hrow, h1, h3.trans (if_pos rfl), he.memories, h5, h6⟩

/-- A host job stopped at its deadline commits nothing (R143, R168). -/
theorem host_job_missed :
  ∀ dt (j : HJob) (x : JobStop) s, Quiet s → s.solv.hrun = some j → x.fault = none → x.numeric = false →
    passed (elapse dt s) j.deadline = true →
    ∃ t, exec (.jobDeadlineMiss dt true x) s = .next t ∧ t.solv.hrun = none ∧ t.solv.misses = s.solv.misses + 1 ∧
      (let u := spoilWorkspace j.desc (elapse dt s)
       t.solv.test = u.solv.test ∧ t.solv.locals = u.solv.locals ∧ t.solv.work = u.solv.work ∧ t.solv.ddr = u.solv.ddr) ∧
      t.nmod = s.nmod ∧
      (∀ e, tagOf s j.tag = some (.executing e) → ∃ h, tagOf t j.tag = some (.held h) ∧ h.status = stDeadlineMiss) := by
  intro dt j x s hq hr hf hn hp
  have hr' : (elapse dt s).solv.hrun = some j := by rw [elapse_solv hq.nothingWaits]; exact hr
  have e : jobDeadlineMiss true x (elapse dt s) = hostCompletion (some x) (elapse dt s) := jobDeadlineMiss_host hr' hp
  have hrow : exec (.jobDeadlineMiss dt true x) s = .next (jobDeadlineMiss true x (elapse dt s)) := by
    refine event_of_steady hq ?_
    rw [e]
    exact Follows.steady (follows_hostCompletion (.refl _))
  have he := hostCompletion_missed hr' hf hn
  rw [e] at hrow
  obtain ⟨h1, -, -, h4, h5, h6⟩ := hostEnds_elapse hq he (spoilWorkspace_moved ..)
  exact ⟨_, hrow, h1, h4.trans (if_pos rfl), he.memories, h5, h6⟩

/-- A target that does not respond is counted and answered (R21). -/
theorem gallery_timeout_answered :
  ∀ dt (target initiator : Byte) (addr : W32) s, Quiet s → mainRuns s = true → Canonical s = true →
    ∃ t, exec (.galleryTimeout dt target initiator addr false) s = .next t ∧ t.out = s.out ++ [.gallery target.toNat 1] ∧
      tableGet (fun _ => 0) t.intg.timeouts target.toNat = (tableGet (fun _ => 0) s.intg.timeouts target.toNat + 1) % 2 ^ 32 ∧
      (∀ k, k ≠ target.toNat → tableGet (fun _ => 0) t.intg.timeouts k = tableGet (fun _ => 0) s.intg.timeouts k) ∧
      t.gal = respondFirst (fun b => b.src == initiator.toNat && b.port.target == target.toNat && !b.abandoned) s.gal ∧ t.sys = s.sys ∧ t.hif = s.hif := by
  intro dt target initiator addr s hq hr hc
  have hwf : tableWf (fun _ => 0) s.intg.timeouts = true := by
    rw [canonical_iff_sound] at hc
    exact hc.timeouts
  have e := galleryTimeout_eq ((mainRuns_elapse hq dt).trans hr) target.toNat initiator.toNat addr.toNat false
  obtain ⟨p, u, n, hs⟩ := snapSource_shape 10 (timedOut target.toNat initiator.toNat (elapse dt s))
  rw [if_neg Bool.false_ne_true, hs] at e
  have hrow : exec (.galleryTimeout dt target initiator addr false) s =
      .next (galleryTimeout target.toNat initiator.toNat addr.toNat false (elapse dt s)) :=
    event_of_steady hq (by rw [e]; exact ⟨rfl, rfl, rfl⟩)
  rw [e] at hrow
  have hi := elapse_intg hq.nothingWaits dt
  have ht : (timedOut target.toNat initiator.toNat (elapse dt s)).intg.timeouts =
      tableSet (fun _ => 0) s.intg.timeouts target.toNat ((tableGet (fun _ => 0) s.intg.timeouts target.toNat + 1) % 2 ^ 32) := by
    simp only [timedOut, post_intg, hi]
  refine ⟨_, hrow, ?_, ?_, fun k hk => ?_, ?_, ?_, ?_⟩
  · exact congrArg (· ++ _) (elapse_out hq.nothingWaits dt)
  · refine (congrArg (tableGet (fun _ => 0) · target.toNat) ht).trans ?_
    rw [tableGet_set hwf, if_pos rfl]
  · refine (congrArg (tableGet (fun _ => 0) · k) ht).trans ?_
    rw [tableGet_set hwf, if_neg hk]
  · exact congrArg (respondFirst _) (elapse_gal hq.nothingWaits dt)
  · exact elapse_sys hq.nothingWaits dt
  · exact elapse_hif hq.nothingWaits dt

/-- A timeout of class P0 is a fault with cause 8 (R540). -/
theorem gallery_timeout_faults :
  ∀ dt (target initiator : Byte) (addr : W32) s, Quiet s → tickGoesOn s.pending = false → mainRuns s = true → s.sys.mode ≠ .holdup →
    s.sys.mode ≠ .fault →
    ∃ t, exec (.galleryTimeout dt target initiator addr true) s = .next t ∧ t.sys.mode = .fault ∧ t.sys.cause = 6 ∧
      (t.intg.ring.head?.map fun r => (r.cause, r.block, r.detail)) =
        some (8, target.toNat, [target, initiator] ++ le 4 addr.toNat) := by
  intro dt target initiator addr s hq hg hr hh hf
  have ha : triggerActs s (.fault, 6) = true := by
    simp only [mainRuns, Bool.and_eq_true] at hr
    obtain ⟨-, hb⟩ := hr
    simp only [triggerActs, hb, bne_iff_ne.2 hh, bne_iff_ne.2 hf, Bool.and_self]
  have e := galleryTimeout_eq ((mainRuns_elapse hq dt).trans hr) target.toNat initiator.toNat addr.toNat true
  obtain ⟨p, u, n, hs⟩ := snapSource_shape 10 (timedOut target.toNat initiator.toNat (elapse dt s))
  rw [if_pos rfl, hs] at e
  obtain ⟨t, hrow, hm, hc, -, hring, -⟩ := row_faults hq hg e (elapse_sys hq.nothingWaits dt)
    (congrArg Pair.peerDigests (elapse_pair hq.nothingWaits dt)) ha
  refine ⟨t, hrow, hm, hc, ?_⟩
  rw [hring, List.take_succ_cons, List.head?_cons, Option.map_some]
  simp only [faultOf, le_byte]
  rfl

/-- A promotion is counted, and promotes the first request that may be (R18). -/
theorem gallery_promotion_counted :
  ∀ dt s, Quiet s → mainRuns s = true →
    exec (.galleryPromotion dt) s = 
      .next { elapse dt s with
        intg := { s.intg with promotions := s.intg.promotions + 1 }, gal := promoteFirst (monoUs (elapse dt s)) s.gal } := by
  intro dt s hq hr
  have hrow : exec (.galleryPromotion dt) s = .next (galleryPromotion (elapse dt s)) := row_of_seen hq fun u => seen_galleryPromotion u
  rw [hrow, galleryPromotion, if_pos ((mainRuns_elapse hq dt).trans hr), ← elapse_intg hq.nothingWaits dt, ← elapse_gal hq.nothingWaits dt]
  rfl

/-- A write that the Balustrade discards is answered with an error (R24). -/
theorem balustrade_write_discarded :
  ∀ dt s, Quiet s → mainRuns s = true →
    exec (.balustradeWrite dt) s =
      .next (post 0x0905 0 [] 0
        { elapse dt s with
          intg := { s.intg with balustrade := s.intg.balustrade + 1 }, out := s.out ++ [.gallery 0x09 3] }) := by
  intro dt s hq hr
  have hrow : exec (.balustradeWrite dt) s = .next (balustradeWrite (elapse dt s)) := row_of_seen hq fun u => seen_balustradeWrite u
  rw [hrow, balustradeWrite, if_pos ((mainRuns_elapse hq dt).trans hr), ← elapse_intg hq.nothingWaits dt, ← elapse_out hq.nothingWaits dt]
  rfl

/-- The late response of an abandoned read returns its tag (R168). -/
theorem abandoned_read_returned :
  ∀ dt s, Quiet s →
    exec (.abandonedReadResponse dt) s =
      .next { elapse dt s with
        solv := { s.solv with abandoned := s.solv.abandoned + 1 }, gal := respondFirst (·.abandoned) s.gal,
        out := s.out ++ [.gallery 3 2] } := by
  intro dt s hq
  have hrow : exec (.abandonedReadResponse dt) s = .next (abandonedRead (elapse dt s)) := row_of_seen hq fun u => rfl
  rw [hrow, ← elapse_solv hq.nothingWaits dt, ← elapse_out hq.nothingWaits dt, ← elapse_gal hq.nothingWaits dt]
  rfl

/-- Settles O27: each event is followed through its row, and the P0 timeout through the trigger of FAULT. -/
theorem jobsAndGalleryComplete : Obligations.JobsAndGalleryComplete := by
  unfold Obligations.JobsAndGalleryComplete
  exact ⟨host_job_starts, nmod_job_starts, host_job_ends_ok, host_job_faulted, host_job_missed, gallery_timeout_answered,
    gallery_timeout_faults, gallery_promotion_counted, balustrade_write_discarded, abandoned_read_returned⟩

end Sys2Proof.Machine


/-! HOLDUP, supplies and clocks (R44, R540 to R560). -/

namespace Sys2Proof.Machine

/-! ### What the entry of HOLDUP leaves (R547 to R549) -/

/-- Metering that stops abruptly leaves the engines stopped and the instant of the stop (R360). -/
theorem abruptStop_shape (cause : Nat) (s : State) :
    ∃ b m e, abruptStop cause s = { s with bill := b, mth := m, mel := e } ∧ m.running = false ∧
      (meteringMode s = true → b.stop = some (tickStamp s, cause)) := by
  have hs : ∃ b, (if s.bill.saving.isSome then (if cause = 1 then s else endSlot (s.bill.saving.getD 0) false s) else s) =
      { s with bill := b } := by
    split
    · split
      · exact ⟨s.bill, rfl⟩
      · exact ⟨_, rfl⟩
    · exact ⟨s.bill, rfl⟩
  obtain ⟨b, hb⟩ := hs
  unfold abruptStop
  rw [hb]
  dsimp only
  split
  next h => exact ⟨_, _, _, rfl, rfl, fun _ => rfl⟩
  next h => exact ⟨_, _, _, rfl, rfl, fun hm => absurd hm h⟩

/-- The MRAM closes: a save being written is abandoned (R549). -/
theorem closeMram_shape (s : State) :
    ∃ b, closeMram s = { s with bill := b, pwr := { s.pwr with mramOpen := false } } ∧ b.saving = none ∧ b.stop = s.bill.stop ∧
      b.regs = s.bill.regs := by
  unfold closeMram
  dsimp only
  split
  next n h => exact ⟨_, rfl, rfl, rfl, rfl⟩
  next h => exact ⟨s.bill, rfl, h, rfl, rfl⟩

/-- The display as it stops. -/
def Epd.stopped (e : Epd) : Epd := { e with queue := [], running := [], power := false, good := false, recovery := false }

theorem epdStop_idle {s : State} (h : executing s = []) : epdStop s = { s with epd := s.epd.stopped } := by
  have hw : ∀ f, waiting f s = [] := fun f => by simp [waiting, h]
  unfold epdStop
  rw [hw]
  rfl

/-- HOLDUP once metering has stopped and the commands that execute have ended. -/
def holdupBegun (s : State) : State :=
  let u := abruptStop (if s.pwr.pfw then 1 else 2) s
  { u with hif := { u.hif with tags := u.hif.tags.filter fun x => match x.2 with
    | .executing _ => false
    | .held _ => true } }

/-- The supplies at the entry of HOLDUP. -/
def Pwr.heldUp (p : Pwr) (onPfw : Bool) (uv : Option Nat) : Pwr :=
  { p with
    holdups := p.holdups + 1, uvRails := uv.elim 0 (2 ^ ·),
    undervoltages := if uv.isSome then p.undervoltages + 1 else p.undervoltages, mramOpen := onPfw && uv.isNone }

/-- What HOLDUP does to MRAM. -/
def holdupSaved (s : State) : State := if s.pwr.mramOpen then { s with evr := counterCopy s.evr } else closeMram s

theorem enterHoldup_eq (uv : Option Nat) (s : State) :
    enterHoldup uv s =
      epdStop (triggersOff (retainAxes (holdupSaved
        (updPwr (·.heldUp s.pwr.pfw uv) (modeTo .holdup (if s.pwr.pfw then 3 else 4) none (holdupBegun s)))))) := rfl

theorem holdupBegun_executing (s : State) : executing (holdupBegun s) = [] := by
  simp only [executing, holdupBegun, List.filterMap_eq_nil_iff, List.mem_filter]
  rintro ⟨n, x⟩ ⟨-, hx⟩
  cases x
  · exact absurd hx Bool.false_ne_true
  · rfl

/-- What HOLDUP is entered with. -/
theorem holdupBegun_shape (s : State) :
    ∃ b m e h, holdupBegun s = { s with bill := b, mth := m, mel := e, hif := h } ∧ m.running = false ∧
      (meteringMode s = true → b.stop = some (tickStamp s, if s.pwr.pfw then 1 else 2)) := by
  obtain ⟨b, m, e, he, hr, hs⟩ := abruptStop_shape (if s.pwr.pfw then 1 else 2) s
  simp only [holdupBegun]
  rw [he]
  exact ⟨b, m, e, _, rfl, hr, hs⟩

theorem holdupSaved_shape (s : State) :
    ∃ b e, holdupSaved s = { s with bill := b, evr := e } ∧ b.stop = s.bill.stop ∧ (s.pwr.mramOpen = false → b.saving = none) := by
  unfold holdupSaved
  split
  next h => exact ⟨s.bill, _, rfl, rfl, fun h' => absurd h (by rw [h']; exact Bool.false_ne_true)⟩
  next h =>
    obtain ⟨b, e, hsv, hst, -⟩ := closeMram_shape s
    have ho : s.pwr.mramOpen = false := by simpa using h
    refine ⟨b, s.evr, ?_, hst, fun _ => hsv⟩
    rw [e, ← ho]

/-- HOLDUP entered. -/
structure HoldupEntered (uv : Option Nat) (s t : State) : Prop where
  mode : t.sys.mode = .holdup
  cause : t.sys.cause = if s.pwr.pfw then 3 else 4
  prevMode : t.sys.prevMode = s.sys.mode.code
  trans : t.sys.trans = none
  inReset : t.sys.inReset = s.sys.inReset
  pfw : t.pwr.pfw = s.pwr.pfw
  resetNLow : t.pwr.resetNLow = s.pwr.resetNLow
  mramOpen : t.pwr.mramOpen = (s.pwr.pfw && uv.isNone)
  uvRails : t.pwr.uvRails = uv.elim 0 (2 ^ ·)
  undervoltages : t.pwr.undervoltages = if uv.isSome then s.pwr.undervoltages + 1 else s.pwr.undervoltages
  holdups : t.pwr.holdups = s.pwr.holdups + 1
  running : t.mth.running = false
  executing : executing t = []
  display : t.epd.running = []
  stop : meteringMode s = true → t.bill.stop = some (tickStamp s, if s.pwr.pfw then 1 else 2)
  saving : (s.pwr.pfw && uv.isNone) = false → t.bill.saving = none

theorem enterHoldup_entered (uv : Option Nat) (s : State) : HoldupEntered uv s (enterHoldup uv s) := by
  rw [enterHoldup_eq]
  have hex := holdupBegun_executing s
  obtain ⟨b, m, e, h, hb, hr, hst⟩ := holdupBegun_shape s
  generalize holdupBegun s = u at hex hb
  obtain ⟨hl, hsub, -⟩ := modeTo_lasting .holdup (if s.pwr.pfw then 3 else 4) none u
  generalize modeTo .holdup (if s.pwr.pfw then 3 else 4) none u = v at hl hsub
  have hxv : Machine.executing v = [] := List.subset_nil.1 (hex ▸ hsub)
  have hsys : u.sys = s.sys := by rw [hb]
  have hpwr : u.pwr = s.pwr := by rw [hb]
  have hrun : u.mth.running = false := by rw [hb]; exact hr
  have hbill : u.bill = b := by rw [hb]
  have hmode : (v.sys.mode, v.sys.cause, v.sys.prevMode) = (Mode.holdup, if s.pwr.pfw then 3 else 4, u.sys.mode.code) :=
    (congrArg Lasting.mode hl).trans rfl
  have htr : v.sys.trans = none := (congrArg Lasting.trans hl).trans rfl
  have hir : v.sys.inReset = u.sys.inReset := (congrArg Lasting.inReset hl).trans rfl
  have hp : { v.pwr with flights := Vector.replicate 8 .off } = { u.pwr with flights := Vector.replicate 8 .off } :=
    (congrArg Lasting.supplies hl).trans rfl
  have hpg : v.mth.running = u.mth.running := (congrArg (fun l : Lasting => l.pages.1) hl).trans rfl
  have hbl : v.bill = u.bill := (congrArg Lasting.bill hl).trans rfl
  simp only [Prod.mk.injEq] at hmode
  obtain ⟨hm, hc, hpm⟩ := hmode
  rw [hsys] at hpm hir
  rw [hpwr] at hp
  rw [hrun] at hpg
  rw [hbill] at hbl
  clear hl hsub hex hb hsys hpwr hrun hbill
  obtain ⟨w, hw⟩ : ∃ w, w = updPwr (·.heldUp s.pwr.pfw uv) v := ⟨_, rfl⟩
  rw [← hw]
  obtain ⟨b', e', hs', hst', hsv'⟩ := holdupSaved_shape w
  rw [hs']
  have hxw : Machine.executing (triggersOff (retainAxes { w with bill := b', evr := e' })) = [] := by rw [hw]; exact hxv
  rw [epdStop_idle hxw]
  have hpfw : w.pwr.pfw = s.pwr.pfw := by rw [hw]; exact (congrArg Pwr.pfw hp :)
  have hrn : w.pwr.resetNLow = s.pwr.resetNLow := by rw [hw]; exact (congrArg Pwr.resetNLow hp :)
  have hho : w.pwr.holdups = s.pwr.holdups + 1 := by rw [hw]; exact (congrArg (fun p : Pwr => p.holdups + 1) hp :)
  have huv : w.pwr.undervoltages = if uv.isSome then s.pwr.undervoltages + 1 else s.pwr.undervoltages := by
    rw [hw]; exact (congrArg (fun p : Pwr => if uv.isSome then p.undervoltages + 1 else p.undervoltages) hp :)
  have hbw : w.bill = b := by rw [hw]; exact hbl
  exact {
    mode := by rw [hw]; exact hm
    cause := by rw [hw]; exact hc
    prevMode := by rw [hw]; exact hpm
    trans := by rw [hw]; exact htr
    inReset := by rw [hw]; exact hir
    pfw := hpfw
    resetNLow := hrn
    mramOpen := by rw [hw]; rfl
    uvRails := by rw [hw]; rfl
    undervoltages := huv
    holdups := hho
    running := by rw [hw]; exact hpg
    executing := hxw
    display := rfl
    stop := fun h => (hst'.trans (congrArg Bill.stop hbw)).trans (hst h)
    saving := fun h => hsv' (by rw [hw]; exact h) }

theorem vset_zero {α : Type} (v : Vector α 2) (x : α) : vset v 0 x = v.set 0 x := vset_fin v 0 x

theorem vset_one {α : Type} (v : Vector α 2) (x : α) : vset v 1 x = v.set 1 x := vset_fin v 1 x

theorem uvSeen_elapse {s : State} (h : Quiet s) (dt : Nat) (r : Rail) (mv ns : Nat) : uvSeen (elapse dt s) r mv ns = uvSeen s r mv ns := by
  have hl : uvLimit (elapse dt s) r = uvLimit s r := by
    unfold uvLimit
    rw [elapse_pwr h.nothingWaits]
  rw [uvSeen, hl, uvSeen]

theorem socEn_elapse {s : State} (h : Quiet s) (dt : Nat) : socEn (elapse dt s) = socEn s := elapse_read socEn (fun _ _ _ => rfl) h dt

theorem railNum_soc {r : Rail} : (railNum r == 1) = true ↔ r = .soc := by
  cases r <;> simp [railNum]

/-- A rail that is monitored. -/
theorem monitored {s : State} {r : Rail} (hr : mainRuns s = true) (hs : r = .soc → socEn s = true) :
    (!mainRuns s || (railNum r == 1 && !socEn s)) = false := by
  rw [hr]
  by_cases h : r = .soc
  · simp [hs h]
  · have hn : (railNum r == 1) = false := by
      rw [← Bool.not_eq_true, railNum_soc]
      exact h
    rw [hn]
    rfl

theorem railLow_enters {s : State} {r : Rail} {mv ns : Nat} (hr : mainRuns s = true) (hm : s.sys.mode ≠ .holdup)
    (hs : r = .soc → socEn s = true) (hu : uvSeen s r mv ns = true) : railLow r mv ns s = enterHoldup (some (railNum r)) s := by
  rw [railLow, if_pos hu, undervoltage, if_neg (by rw [monitored hr hs]; exact Bool.false_ne_true), if_neg hm]

theorem railLow_closes {s : State} {r : Rail} {mv ns : Nat} (hr : mainRuns s = true) (hm : s.sys.mode = .holdup)
    (hs : r = .soc → socEn s = true) (hu : uvSeen s r mv ns = true) :
    railLow r mv ns s = closeMram (updPwr (fun p => { p with
      uvRails := Nat.lor p.uvRails (2 ^ railNum r), undervoltages := p.undervoltages + 1 }) s) := by
  rw [railLow, if_pos hu, undervoltage, if_neg (by rw [monitored hr hs]; exact Bool.false_ne_true), if_pos hm]

theorem railLow_ignored {s : State} {r : Rail} {mv ns : Nat} (h : uvSeen s r mv ns = false ∨ (r = .soc ∧ socEn s = false)) :
    railLow r mv ns s = s := by
  unfold railLow
  split
  next hu =>
    obtain ⟨rfl, hs⟩ := h.resolve_left (ne_false_of_eq_true hu)
    rw [undervoltage, if_pos (by rw [hs]; simp [railNum])]
  next => rfl

theorem clearLocal_eq (n : Fin 8) (s : State) :
    clearLocal n s =
      { s with
        solv := { s.solv with locals := s.solv.locals.set n Region.zero }
        intg := { s.intg with marked := s.intg.marked.filter fun x =>
          !(x.1 == 2 && decide ((0x01000000 + n.val * 0x100000) / 8 ≤ x.2) && decide (x.2 < (0x01100000 + n.val * 0x100000) / 8)) } } := by
  rw [clearLocal, vset_fin]
  rfl

theorem setFlights_single (n : Fin 8) (p : FlightPower) (s : State) :
    setFlights (2 ^ n.val) p s = { s with pwr := { s.pwr with flights := s.pwr.flights.set n p } } := by
  have h : (s.pwr.flights.mapFinIdx fun i x _ => if bit (2 ^ n.val) i then p else x) = s.pwr.flights.set n p := by
    ext i hi
    rw [Vector.getElem_mapFinIdx, Vector.getElem_set, bit_eq_testBit, Nat.testBit_two_pow]
    simp
  rw [setFlights, h]

theorem wakeFlights_low (s : State) :
    wakeFlights 3 s = { s with pwr := { s.pwr with
      flights := Vector.ofFn fun i => if i.val ≤ 1 ∧ s.pwr.flights[i] = .off then .waking else s.pwr.flights[i] } } := by
  have h : (s.pwr.flights.mapFinIdx fun i x _ => if bit 3 i && x == .off then FlightPower.waking else x) =
      Vector.ofFn fun i : Fin 8 => if i.val ≤ 1 ∧ s.pwr.flights[i] = .off then .waking else s.pwr.flights[i] := by
    ext i hi
    have hb : bit 3 i = true ↔ i ≤ 1 := by
      have hall : ∀ k : Fin 8, bit 3 k = true ↔ k.val ≤ 1 := by decide
      exact hall ⟨i, hi⟩
    rw [Vector.getElem_mapFinIdx, Vector.getElem_ofFn]
    simp only [Bool.and_eq_true, beq_iff_eq, hb]
    rfl
  rw [wakeFlights, updPwr, h]

/-- PFW leads to HOLDUP (R44, R547). -/
theorem pfw_enters_holdup :
  ∀ dt s, Quiet s → mainRuns s = true → s.sys.mode ≠ .holdup →
    ∃ t, exec (.pfwAsserted dt) s = .next t ∧ t.sys.mode = .holdup ∧ t.sys.cause = 3 ∧ t.sys.prevMode = s.sys.mode.code ∧
      t.pwr.pfw = true ∧ t.pwr.mramOpen = true ∧ t.pwr.uvRails = 0 ∧ t.pwr.holdups = s.pwr.holdups + 1 ∧ t.mth.running = false ∧
      executing t = [] ∧ t.epd.running = [] ∧ t.sys.trans = none ∧
      (meteringMode s = true → t.bill.stop = some (tickStamp (elapse dt s), 1)) := by
  intro dt s hq hr hm
  have hrow : exec (.pfwAsserted dt) s = .next (pfwAsserted (elapse dt s)) := row_of_follows hq fun u => follows_pfwAsserted (.refl _)
  obtain ⟨u, hu⟩ : ∃ u, u = updPwr (fun p => { p with pfw := true }) (elapse dt s) := ⟨_, rfl⟩
  have hsys : u.sys = s.sys := by rw [hu]; exact elapse_sys hq.nothingWaits dt
  have hpwr : u.pwr = { s.pwr with pfw := true } := by rw [hu, updPwr, elapse_pwr hq.nothingWaits]
  have hst : tickStamp u = tickStamp (elapse dt s) := by rw [hu]; rfl
  have hmet : meteringMode u = meteringMode s := by rw [← meteringMode_elapse hq dt, hu]; rfl
  have e : pfwAsserted (elapse dt s) = enterHoldup none u := by
    have hc : holdupFrom u = true := by
      rw [holdupFrom, mainRuns, hsys]
      rw [mainRuns] at hr
      rw [hr, bne_iff_ne.2 hm]
      rfl
    rw [pfwAsserted, ← hu]
    exact if_pos hc
  have h := enterHoldup_entered none u
  rw [← e] at h
  have hp : u.pwr.pfw = true := by rw [hpwr]
  refine ⟨_, hrow, h.mode, ?_, ?_, ?_, ?_, ?_, ?_, h.running, h.executing, h.display, h.trans, fun hmt => ?_⟩
  · rw [h.cause, hp]; rfl
  · rw [h.prevMode, hsys]
  · rw [h.pfw, hp]
  · rw [h.mramOpen, hp]; rfl
  · rw [h.uvRails]; rfl
  · rw [h.holdups, hpwr]
  · rw [h.stop (hmet.trans hmt), hst, hp]; rfl

/-- PFW is only noted in HOLDUP, in BACKUP and in reset (R547). -/
theorem pfw_noted :
  ∀ dt s, Quiet s → (mainRuns s = false ∨ s.sys.mode = .holdup) →
    exec (.pfwAsserted dt) s = .next { elapse dt s with pwr := { s.pwr with pfw := true } } := by
  intro dt s hq h
  have hrow : exec (.pfwAsserted dt) s = .next (pfwAsserted (elapse dt s)) := row_of_follows hq fun u => follows_pfwAsserted (.refl _)
  have hc : holdupFrom (updPwr (fun p => { p with pfw := true }) (elapse dt s)) = false := by
    have e : holdupFrom (updPwr (fun p => { p with pfw := true }) (elapse dt s)) = holdupFrom s :=
      elapse_read holdupFrom (fun _ _ _ => rfl) hq dt
    rw [e, holdupFrom]
    rcases h with h | h
    · rw [h]; rfl
    · rw [h]; simp
  rw [hrow, pfwAsserted]
  dsimp only
  rw [if_neg (by rw [hc]; exact Bool.false_ne_true), updPwr, elapse_pwr hq.nothingWaits]

/-- An undervoltage leads to HOLDUP (R544, R547, R549). -/
theorem undervoltage_enters_holdup :
  ∀ dt rail mv ns s, Quiet s → mainRuns s = true → s.sys.mode ≠ .holdup → (rail = .soc → socEn s = true) →
    uvSeen s rail mv ns = true →
    ∃ t, exec (.undervoltage dt ⟨rail, mv, ns⟩) s = .next t ∧ t.sys.mode = .holdup ∧ t.sys.cause = (if s.pwr.pfw then 3 else 4) ∧
      t.pwr.uvRails = 2 ^ railNum rail ∧ t.pwr.undervoltages = s.pwr.undervoltages + 1 ∧ t.pwr.mramOpen = false ∧
      t.bill.saving = none ∧ executing t = [] := by
  intro dt rail mv ns s hq hr hm hs hu
  have hrow : exec (.undervoltage dt ⟨rail, mv, ns⟩) s = .next (railLow rail mv ns (elapse dt s)) :=
    row_of_follows hq fun u => follows_railLow (.refl _)
  have e : railLow rail mv ns (elapse dt s) = enterHoldup (some (railNum rail)) (elapse dt s) :=
    railLow_enters ((mainRuns_elapse hq dt).trans hr) (by rw [elapse_sys hq.nothingWaits]; exact hm)
      (fun h => (socEn_elapse hq dt).trans (hs h)) ((uvSeen_elapse hq ..).trans hu)
  have h := enterHoldup_entered (some (railNum rail)) (elapse dt s)
  rw [← e] at h
  have hp := elapse_pwr hq.nothingWaits dt
  refine ⟨_, hrow, h.mode, ?_, ?_, ?_, ?_, h.saving ?_, h.executing⟩
  · rw [h.cause, hp]
  · rw [h.uvRails]; rfl
  · rw [h.undervoltages, hp]; rfl
  · rw [h.mramOpen, Option.isNone_some, Bool.and_false]
  · rw [Option.isNone_some, Bool.and_false]

/-- What is no undervoltage, or not monitored, changes nothing (R544, R545). -/
theorem undervoltage_filtered :
  ∀ dt rail mv ns s, Quiet s → (uvSeen s rail mv ns = false ∨ (rail = .soc ∧ socEn s = false)) →
    exec (.undervoltage dt ⟨rail, mv, ns⟩) s = .next (elapse dt s) := by
  intro dt rail mv ns s hq h
  have hrow : exec (.undervoltage dt ⟨rail, mv, ns⟩) s = .next (railLow rail mv ns (elapse dt s)) :=
    row_of_follows hq fun u => follows_railLow (.refl _)
  rw [hrow, railLow_ignored]
  exact h.imp (fun h => (uvSeen_elapse hq ..).trans h) fun h => ⟨h.1, (socEn_elapse hq dt).trans h.2⟩

/-- In HOLDUP an undervoltage closes the MRAM (R549). -/
theorem undervoltage_closes_mram :
  ∀ dt rail mv ns s, Quiet s → s.sys.inReset = false → s.sys.mode = .holdup → (rail = .soc → socEn s = true) →
    uvSeen s rail mv ns = true →
    ∃ t, exec (.undervoltage dt ⟨rail, mv, ns⟩) s = .next t ∧
      t.pwr = { s.pwr with
        uvRails := Nat.lor s.pwr.uvRails (2 ^ railNum rail), undervoltages := s.pwr.undervoltages + 1, mramOpen := false } ∧
      t.bill.saving = none ∧ t.sys = s.sys ∧ t.evr = s.evr := by
  intro dt rail mv ns s hq hi hm hs hu
  have hrow : exec (.undervoltage dt ⟨rail, mv, ns⟩) s = .next (railLow rail mv ns (elapse dt s)) :=
    row_of_follows hq fun u => follows_railLow (.refl _)
  have hr : mainRuns s = true := by rw [mainRuns, hi, hm]; rfl
  rw [railLow_closes ((mainRuns_elapse hq dt).trans hr) (by rw [elapse_sys hq.nothingWaits]; exact hm)
      (fun h => (socEn_elapse hq dt).trans (hs h)) ((uvSeen_elapse hq ..).trans hu)] at hrow
  obtain ⟨b, e, hsv, -⟩ := closeMram_shape (updPwr (fun p => { p with
    uvRails := Nat.lor p.uvRails (2 ^ railNum rail), undervoltages := p.undervoltages + 1 }) (elapse dt s))
  rw [e] at hrow
  refine ⟨_, hrow, ?_, hsv, elapse_sys hq.nothingWaits dt, elapse_evr hq.nothingWaits dt⟩
  simp only [updPwr, elapse_pwr hq.nothingWaits]

/-- The time limit of HOLDUP closes the MRAM (R549). -/
theorem mram_path_closes :
  ∀ dt s, Quiet s → s.sys.mode = .holdup →
    ∃ t, exec (.mramWritePathClose dt) s = .next t ∧ t.pwr = { s.pwr with mramOpen := false } ∧ t.bill.saving = none ∧
      t.sys = s.sys ∧ t.evr = s.evr ∧ t.rtc = s.rtc := by
  intro dt s hq hm
  have hrow : exec (.mramWritePathClose dt) s = .next (mramPathClose (elapse dt s)) := row_of_seen hq fun u => seen_mramPathClose u
  obtain ⟨b, e, hsv, -⟩ := closeMram_shape (elapse dt s)
  rw [mramPathClose, if_pos (by rw [elapse_sys hq.nothingWaits]; exact hm), e] at hrow
  refine ⟨_, hrow, ?_, hsv, elapse_sys hq.nothingWaits dt, elapse_evr hq.nothingWaits dt, elapse_rtc hq.nothingWaits dt⟩
  simp only [elapse_pwr hq.nothingWaits]

/-- The end of HOLDUP is BACKUP (R48, R549). -/
theorem holdup_ends :
  ∀ dt s, Quiet s → s.sys.mode = .holdup →
    ∃ t, exec (.holdupEnd dt) s = .next t ∧ t.sys.mode = .backup ∧ t.sys.prevMode = Mode.holdup.code ∧
      t.sys.modeChanges = s.sys.modeChanges + 1 ∧ t.hif.up = false ∧ t.hif.tags = [] ∧ t.pwr.mramOpen = false ∧ t.rtc = s.rtc ∧
      t.bill.regs = s.bill.regs := by
  intro dt s hq hm
  have hrow : exec (.holdupEnd dt) s = .next (holdupEnd (elapse dt s)) := row_of_follows hq fun u => follows_holdupEnd (.refl _)
  obtain ⟨b, e, -, -, hrg⟩ := closeMram_shape (elapse dt s)
  rw [holdupEnd, if_pos (by rw [elapse_sys hq.nothingWaits]; exact hm), e] at hrow
  refine ⟨_, hrow, rfl, rfl, ?_, rfl, rfl, rfl, elapse_rtc hq.nothingWaits dt, ?_⟩
  · exact congrArg (fun x : Sys => x.modeChanges + 1) (elapse_sys hq.nothingWaits dt)
  · exact hrg.trans (congrArg Bill.regs (elapse_bill hq.nothingWaits dt))

/-- PLL_SYS loses its lock (R555). -/
theorem pllSys_lost :
  ∀ dt s, Quiet s → mainRuns s = true → s.pwr.pllSysLock = true →
    exec (.pllLockLoss dt 0) s =
      .next { elapse dt s with pwr := { s.pwr with
        pllSysLock := false, pllLosses := s.pwr.pllLosses + 1, pllLost := s.pwr.pllLost.set 0 (some (monoUs (elapse dt s))) } } := by
  intro dt s hq hr hl
  have hrow : exec (.pllLockLoss dt 0) s = .next (pllLoss 0 (elapse dt s)) := row_of_seen hq fun u => seen_pllLoss ..
  have hp := elapse_pwr hq.nothingWaits dt
  rw [hrow, pllLoss, if_pos (by rw [mainRuns_elapse hq, hr, pllLock, if_pos rfl, hp, hl]; rfl)]
  simp only [setPll, updPwr, if_true, hp, vset_zero]

/-- PLL_DDR loses its lock (R555). -/
theorem pllDdr_lost :
  ∀ dt s, Quiet s → mainRuns s = true → s.pwr.pllDdrLock = true →
    exec (.pllLockLoss dt 1) s =
      .next { elapse dt s with pwr := { s.pwr with
        pllDdrLock := false, pllLosses := s.pwr.pllLosses + 1, pllLost := s.pwr.pllLost.set 1 (some (monoUs (elapse dt s))) } } := by
  intro dt s hq hr hl
  have hrow : exec (.pllLockLoss dt 1) s = .next (pllLoss 1 (elapse dt s)) := row_of_seen hq fun u => seen_pllLoss ..
  have hp := elapse_pwr hq.nothingWaits dt
  rw [hrow, pllLoss, if_pos (by rw [mainRuns_elapse hq, hr, pllLock, if_neg (by decide), hp, hl]; rfl)]
  simp only [setPll, updPwr, hp, vset_one]
  rfl

/-- A PLL regains its lock (R555). -/
theorem pll_regained :
  ∀ dt s, Quiet s → mainRuns s = true →
    exec (.pllLockRegained dt 0) s = .next { elapse dt s with pwr := { s.pwr with pllSysLock := true, pllLost := s.pwr.pllLost.set 0 none } } ∧
    exec (.pllLockRegained dt 1) s = .next { elapse dt s with pwr := { s.pwr with pllDdrLock := true, pllLost := s.pwr.pllLost.set 1 none } } := by
  intro dt s hq hr
  have hp := elapse_pwr hq.nothingWaits dt
  have hrow : ∀ n : Fin 2, exec (.pllLockRegained dt n) s = .next (pllRegained n (elapse dt s)) := fun n =>
    row_of_seen hq fun u => seen_pllRegained ..
  have e : ∀ n : Fin 2, pllRegained n (elapse dt s) =
      updPwr (fun p => { p with pllLost := vset p.pllLost n none }) (setPll n true (elapse dt s)) := fun n =>
    if_pos ((mainRuns_elapse hq dt).trans hr)
  constructor
  · rw [hrow, e]
    simp only [setPll, updPwr, hp, ← vset_zero]
    rfl
  · rw [hrow, e]
    simp only [setPll, updPwr, hp, ← vset_one]
    rfl

/-- A loss that has lasted more than 100 µs is a fault (R540, R555). -/
theorem pll_timeout_faults :
  ∀ dt (n : Fin 2) since s, Quiet s → tickGoesOn s.pending = false → mainRuns s = true → s.sys.mode ≠ .holdup →
    s.sys.mode ≠ .fault → pllLock s n.val = false → s.pwr.pllLost[n] = some since → since + 100 < monoUs (elapse dt s) →
    ∃ t, exec (.pllLockTimeout dt n) s = .next t ∧ t.sys.mode = .fault ∧ t.sys.cause = 6 ∧ t.sys.prevMode = s.sys.mode.code ∧
      (t.intg.ring.head?.map fun r => (r.cause, r.block, r.mode)) = some (7, 0x14, s.sys.mode.code) ∧
      t.pwr.flights = Vector.replicate 8 .off ∧ t.intg.faultCount = s.intg.faultCount + 1 := by
  intro dt n since s hq hg hr hh hf hl hs hlt
  have hp := elapse_pwr hq.nothingWaits dt
  have ha : triggerActs s (.fault, 6) = true := by
    simp only [mainRuns, Bool.and_eq_true] at hr
    obtain ⟨-, hb⟩ := hr
    simp only [triggerActs, hb, bne_iff_ne.2 hh, bne_iff_ne.2 hf, Bool.and_self]
  have hl' : pllLock (elapse dt s) n = false := (elapse_read (pllLock · n) (fun _ _ _ => rfl) hq dt).trans hl
  have e : pllTimeout n (elapse dt s) = faultEntry 7 0x14 (le 1 (pwrState (elapse dt s) / 2 % 4)) (elapse dt s) := by
    refine if_pos ?_
    rw [mainRuns_elapse hq, hr, hl', hp, vget_fin, hs, Option.any_some, decide_eq_true hlt]
    rfl
  obtain ⟨t, hrow, hm, hc, hpm, hring, hfc, -, hfl, -⟩ := row_faults hq hg e (elapse_sys hq.nothingWaits dt)
    (congrArg Pair.peerDigests (elapse_pair hq.nothingWaits dt)) ha
  refine ⟨t, hrow, hm, hc, hpm, ?_, hfl, ?_⟩
  · rw [hring, List.take_succ_cons, List.head?_cons, Option.map_some]
    simp only [faultOf, elapse_sys hq.nothingWaits]
  · rw [hfc, elapse_intg hq.nothingWaits]

/-- Flights 0 and 1 wake before a cut in REDUCED (R552). -/
theorem flights_wake :
  ∀ dt s, Quiet s → s.sys.mode = .reduced → s.sys.inReset = false →
    exec (.flightWake dt) s =
      .next { elapse dt s with pwr := { s.pwr with
        flights := Vector.ofFn fun i => if i.val ≤ 1 ∧ s.pwr.flights[i] = .off then .waking else s.pwr.flights[i] } } := by
  intro dt s hq hm hi
  have hrow : exec (.flightWake dt) s = .next (flightWake (elapse dt s)) := row_of_seen hq fun u => seen_flightWake u
  have hr : mainRuns s = true := by rw [mainRuns, hi, hm]; rfl
  have hc : (mainRuns (elapse dt s) && (elapse dt s).sys.mode == .reduced) = true := by
    rw [mainRuns_elapse hq, hr, elapse_sys hq.nothingWaits, hm]; rfl
  rw [hrow, flightWake, if_pos hc, wakeFlights_low, elapse_pwr hq.nothingWaits]

/-- A flight that has woken is IDLE, its local memory cleared (R551). -/
theorem flight_woken :
  ∀ dt (n : Fin 8) s, Quiet s → mainRuns s = true → s.pwr.flights[n] = .waking →
    exec (.flightWakeEnd dt n) s =
      .next { elapse dt s with
        pwr := { s.pwr with flights := s.pwr.flights.set n .idle },
        solv := { s.solv with locals := s.solv.locals.set n Region.zero },
        intg := { s.intg with marked := s.intg.marked.filter fun x =>
          !(x.1 == 2 && decide ((0x01000000 + n.val * 0x100000) / 8 ≤ x.2) &&
            decide (x.2 < (0x01100000 + n.val * 0x100000) / 8)) } } := by
  intro dt n s hq hr hw
  have hrow : exec (.flightWakeEnd dt n) s = .next (flightWakeEnd n (elapse dt s)) :=
    row_of_follows hq fun u => follows_flightWakeEnd (.refl _)
  have hc : (mainRuns (elapse dt s) && vget (elapse dt s).pwr.flights n .off == .waking) = true := by
    rw [mainRuns_elapse hq, hr, elapse_pwr hq.nothingWaits, vget_fin, hw]; rfl
  rw [hrow, flightWakeEnd, if_pos hc, setFlights_single, clearLocal_eq, ← elapse_pwr hq.nothingWaits dt, ← elapse_solv hq.nothingWaits dt,
    ← elapse_intg hq.nothingWaits dt]

/-- The supplies and the die temperature are measured (R559, R560). -/
theorem supplies_measured :
  ∀ dt core soc ana vbat temp s, Quiet s → mainRuns s = true →
    exec (.supplyMeasurement dt core soc ana vbat temp) s =
      .next { elapse dt s with pwr := { s.pwr with
        vddCore := core, vddSoc := soc, vddAna := ana, vbat := vbat, dieTemp := temp, vbatLow := decide (vbat.toNat < 2200) } } := by
  intro dt core soc ana vbat temp s hq hr
  have hrow : exec (.supplyMeasurement dt core soc ana vbat temp) s = .next (supplyMeasure core soc ana vbat temp (elapse dt s)) :=
    row_of_seen hq fun u => seen_supplyMeasure ..
  rw [hrow, supplyMeasure, if_pos ((mainRuns_elapse hq dt).trans hr), updPwr, elapse_pwr hq.nothingWaits]

/-- Settles O23: HOLDUP through what its entry leaves, the PLL timeout through the trigger of FAULT, the others through their rows. -/
theorem holdupAndSuppliesComplete : Obligations.HoldupAndSuppliesComplete := by
  unfold Obligations.HoldupAndSuppliesComplete
  exact ⟨pfw_enters_holdup, pfw_noted, undervoltage_enters_holdup, undervoltage_filtered, undervoltage_closes_mram, mram_path_closes,
    holdup_ends, pllSys_lost, pllDdr_lost, pll_regained, pll_timeout_faults, flights_wake, flight_woken, supplies_measured⟩

end Sys2Proof.Machine


/-! Resets (R87, R446, R547 to R557). -/

namespace Sys2Proof.Machine

/-! ### What a main reset leaves (R556, R557) -/

theorem freeTags_shape (l : List Nat) (s : State) : ∃ h, l.foldl (fun s t => freeTag t s) s = { s with hif := h } := by
  induction l generalizing s with
  | nil => exact ⟨s.hif, rfl⟩
  | cons t l ih =>
    obtain ⟨h, e⟩ := ih (freeTag t s)
    exact ⟨h, e⟩

theorem epdStop_shape (s : State) : ∃ h, epdStop s = { s with hif := h, epd := s.epd.stopped } := by
  have h := fun l => freeTags_shape l s
  unfold epdStop
  dsimp only
  generalize waiting _ s = l
  obtain ⟨x, e⟩ := h l
  rw [e]
  exact ⟨x, rfl⟩

/-- What the reset begins with: the display stopped, the open periods folded, and the parameters in effect. -/
theorem resetBegun_shape (s : State) :
    ∃ h e v c p, paramsReset (periodsHold (epdStop s)) = { s with hif := h, epd := e, evr := v, cfg := c, cfgPending := p } := by
  obtain ⟨h, e⟩ := epdStop_shape s
  rw [e]
  exact ⟨_, _, _, _, _, rfl⟩

/-- The state that a main reset leaves. -/
structure MainReset (code : Nat) (banks : Byte) (s t : State) : Prop where
  sys : ∃ n, t.sys = { Sys.reset with modeChanges := n }
  pwr : t.pwr = { s.pwr with
    lastReset := code, pllSysLock := false, pllDdrLock := false, flights := Vector.replicate 8 .off, mramOpen := false, ioBanks := banks,
    pllLost := Vector.replicate 2 none, flash := .single }
  hif : ∃ b u v, t.hif = { Hif.reset with baud := b, shareUdp := u, shareUart := v }
  sec : t.sec = { s.sec with slots := [], keysLoaded := false, remasks := 0, trngFailures := 0, trngStopped := false, pufReads := 0 }
  rtc : t.rtc = s.rtc
  tamp : t.tamp.set_ = s.tamp.set_ ∧ t.tamp.sources = s.tamp.sources
  ring : t.intg.ring = s.intg.ring
  blocks : t.pio = Pio.reset ∧ t.mth = Mth.reset ∧ t.mel = Mel.reset ∧ t.eth = EthB.reset ∧ t.gal = Gallery.reset ∧ t.pair = Pair.reset
  vax : t.vax = { Vax.reset with retained := s.vax.retained }
  ctrl : t.ctrl = { Ctrl.reset with
    forces := s.ctrl.forces, flashA := s.ctrl.flashA, flashB := s.ctrl.flashB, selector := s.ctrl.selector }
  clock : t.clock = { Clock.reset with real := s.clock.real }
  stop : t.bill.stop = s.bill.stop
  pending : t.pending = s.pending

theorem mainReset_reset (code : Nat) (banks : Byte) (s : State) : MainReset code banks s (mainReset code banks s) := by
  obtain ⟨h, e, v, c, p, hs⟩ := resetBegun_shape s
  unfold mainReset
  rw [hs]
  dsimp only
  split
  · exact ⟨⟨_, rfl⟩, rfl, ⟨_, _, _, rfl⟩, rfl, rfl, ⟨rfl, rfl⟩, rfl, ⟨rfl, rfl, rfl, rfl, rfl, rfl⟩, rfl, rfl, rfl, rfl, rfl⟩
  · exact ⟨⟨_, rfl⟩, rfl, ⟨_, _, _, rfl⟩, rfl, rfl, ⟨rfl, rfl⟩, rfl, ⟨rfl, rfl, rfl, rfl, rfl, rfl⟩, rfl, rfl, rfl, rfl, rfl⟩

theorem MainReset.settled {code : Nat} {banks : Byte} {s t : State} (h : MainReset code banks s t) : Settled t := by
  obtain ⟨n, hs⟩ := h.sys
  obtain ⟨-, -, -, -, -, hp⟩ := h.blocks
  exact ⟨by rw [hs]; rfl, by rw [hp]; rfl⟩

/-! ### The rows of the resets -/

/-- The row of an event that ends in a main reset. -/
theorem row_of_mainReset {f : State → State} {dt : Nat} {s v : State} {code : Nat} {banks : Byte} (hq : Quiet s)
    (hv : v.pending = (elapse dt s).pending) (h : MainReset code banks v (f (elapse dt s))) : event dt f s = .next (f (elapse dt s)) :=
  event_of_settled h.settled (h.pending.trans (hv.trans (elapse_pending hq.nothingWaits dt)))

/-- After a tamper release a main reset stops metering abruptly (R360). -/
def resetStops (code : Nat) (s : State) : State := if code = 5 then abruptStop 4 s else s

theorem resetStops_shape (code : Nat) (s : State) : ∃ b m e, resetStops code s = { s with bill := b, mth := m, mel := e } := by
  unfold resetStops
  split
  · obtain ⟨b, m, e, h, -⟩ := abruptStop_shape 4 s
    exact ⟨b, m, e, h⟩
  · exact ⟨s.bill, s.mth, s.mel, rfl⟩

theorem mainResetRow_eq {s : State} {c : Nat} (hc : s.sys.resetPending = some c) (hr : mainRuns s = true) (hm : s.sys.mode ≠ .holdup)
    (banks : Vector W16 8) : mainResetRow banks s = mainReset c (bankLevels banks) (resetStops c s) := by
  unfold mainResetRow
  split
  next x h =>
    obtain rfl := Option.some.inj (hc.symm.trans h)
    rw [if_pos (by rw [hr, bne_iff_ne.2 hm]; rfl)]
    rfl
  next h => exact absurd (hc.symm.trans h) (Option.some_ne_none _)

/-- The main domain released from reset (R557). -/
def released (banks : Vector W16 8) (s : State) : State :=
  { s with sys := { s.sys with inReset := false }, pwr := { s.pwr with resetNLow := false, ioBanks := bankLevels banks } }

theorem resetNRelease_released {s : State} (h : s.sys.inReset = true) (banks : Vector W16 8) :
    resetNRelease banks s = if s.pwr.pfw then enterHoldup none (released banks s) else released banks s := by
  rw [resetNRelease]
  exact if_pos h

/-- What the loss of the always-on supply leaves of metering (R365). -/
theorem suppliesLost_shape (s : State) :
    ∃ b m e, (if meteringMode s then stopEngines (closeMram { s with bill := { s.bill with orderly := false } }) else closeMram s) =
      { s with bill := b, mth := m, mel := e, pwr := { s.pwr with mramOpen := false } } := by
  split
  · obtain ⟨b, e, -⟩ := closeMram_shape { s with bill := { s.bill with orderly := false } }
    rw [e]
    exact ⟨_, _, _, rfl⟩
  · obtain ⟨b, e, -⟩ := closeMram_shape s
    rw [e]
    exact ⟨_, _, _, rfl⟩

/-- The state that an always-on reset leaves. -/
structure AlwaysOnReset (s t : State) : Prop where
  sys : t.sys = { s.sys with mode := .backup, inReset := false, trans := none, resetPending := none, triggers := [] }
  tamp : t.tamp = Tamp.reset
  fresh : t.pwr.alwaysOnFresh = Pwr.reset.alwaysOnFresh
  rtc : t.rtc.cal = Rtc.reset.cal ∧ t.rtc.lost = Rtc.reset.lost
  ring : t.intg.ring = []
  retained : t.vax.retained = none
  sec : t.sec = s.sec
  log : t.evr.log = s.evr.log
  cfg : t.cfg = s.cfg
  pair : t.pair = s.pair
  pending : t.pending = s.pending

theorem alwaysOnReset_reset (s : State) : AlwaysOnReset s (alwaysOnReset s) := by
  obtain ⟨b, m, e, h⟩ := suppliesLost_shape s
  unfold alwaysOnReset
  rw [h]
  exact ⟨rfl, rfl, rfl, ⟨rfl, rfl⟩, rfl, rfl, rfl, rfl, rfl, rfl, rfl⟩

/-- A main reset releases into BOOT (R87, R556, R557). -/
theorem main_reset_releases :
  ∀ dt banks c s, Quiet s → s.sys.resetPending = some c → s.sys.inReset = false → s.sys.mode ≠ .backup → s.sys.mode ≠ .holdup →
    ∃ t, exec (.mainReset dt banks) s = .next t ∧ t.sys.mode = .boot ∧ t.sys.inReset = false ∧ t.sys.resetPending = none ∧
      t.pwr.lastReset = c ∧ t.pwr.ioBanks = bankLevels banks ∧ t.pwr.flights = Vector.replicate 8 .off ∧ t.pwr.pllSysLock = false ∧
      t.pwr.pllDdrLock = false ∧ t.hif.tags = [] ∧ t.hif.up = false ∧ (∀ tr, (linkOf t tr).session = none) ∧
      (∀ tr, (linkOf t tr).epoch = 0 ∧ (linkOf t tr).unsync = true) ∧
      t.sec.slots = [] ∧ t.sec.records = s.sec.records ∧ t.sec.lifecycle = s.sec.lifecycle ∧ t.rtc = s.rtc ∧
      t.tamp.set_ = s.tamp.set_ ∧ t.tamp.sources = s.tamp.sources ∧ t.intg.ring = s.intg.ring ∧ t.pio = Pio.reset ∧
      t.mth = Mth.reset ∧ t.mel = Mel.reset ∧ t.eth = EthB.reset ∧ t.gal = Gallery.reset ∧ t.pair = Pair.reset ∧
      t.vax = { Vax.reset with retained := s.vax.retained } ∧
      t.ctrl = { Ctrl.reset with
        forces := s.ctrl.forces, flashA := s.ctrl.flashA, flashB := s.ctrl.flashB, selector := s.ctrl.selector } ∧
      t.clock.ptp = 0 ∧ t.clock.mono = 0 ∧ t.clock.real = (elapse dt s).clock.real := by
  intro dt banks c s hq hc hi hb hh
  have hw := hq.nothingWaits
  have hr : mainRuns s = true := by rw [mainRuns, hi, bne_iff_ne.2 hb]; rfl
  have e := mainResetRow_eq (s := elapse dt s) (c := c) (by rw [elapse_sys hw]; exact hc) ((mainRuns_elapse hq dt).trans hr)
    (by rw [elapse_sys hw]; exact hh) banks
  obtain ⟨b, m, l, hv⟩ := resetStops_shape c (elapse dt s)
  have h := mainReset_reset c (bankLevels banks) (resetStops c (elapse dt s))
  rw [← e] at h
  generalize resetStops c (elapse dt s) = v at h hv e
  have hrow : exec (.mainReset dt banks) s = .next (mainResetRow banks (elapse dt s)) := row_of_mainReset hq (by rw [hv]) h
  obtain ⟨⟨n, h1⟩, h2, ⟨x, y, z, h3⟩, h4, h5, h6, h7, ⟨h8, h9, h10, h11, h12, h13⟩, h14, h15, h16, -, -⟩ := h
  have k2 : v.sec = s.sec := by rw [hv]; exact elapse_sec hw dt
  have k3 : v.rtc = s.rtc := by rw [hv]; exact elapse_rtc hw dt
  have k4 : v.tamp = s.tamp := by rw [hv]; exact elapse_tamp hw dt
  have k5 : v.intg = s.intg := by rw [hv]; exact elapse_intg hw dt
  have k6 : v.vax = s.vax := by rw [hv]; exact elapse_vax hw dt
  have k7 : v.ctrl = s.ctrl := by rw [hv]; exact elapse_ctrl hw dt
  have k8 : v.clock = (elapse dt s).clock := by rw [hv]
  rw [k2] at h4
  rw [k3] at h5
  rw [k4] at h6
  rw [k5] at h7
  rw [k6] at h14
  rw [k7] at h15
  rw [k8] at h16
  refine ⟨_, hrow, ?_⟩
  generalize mainResetRow banks (elapse dt s) = t at *
  have hl : ∀ tr, linkOf t tr = Link.reset := by
    intro tr
    cases tr <;> simp only [linkOf, h3, Hif.reset]
  refine ⟨by rw [h1]; rfl, by rw [h1]; rfl, by rw [h1]; rfl, by rw [h2], by rw [h2], by rw [h2], by rw [h2], by rw [h2], by rw [h3]; rfl,
    by rw [h3]; rfl, fun tr => by rw [hl]; rfl, fun tr => by rw [hl]; exact ⟨rfl, rfl⟩, by rw [h4], by rw [h4], by rw [h4], h5, h6.1, h6.2, h7,
    h8, h9, h10, h11, h12, h13, h14, h15, by rw [h16]; rfl, by rw [h16]; rfl, by rw [h16]⟩

/-- RESET_N holds the main domain in reset (R557). -/
theorem resetN_holds :
  ∀ dt s, Quiet s → s.sys.inReset = false → s.sys.mode ≠ .backup → s.sys.mode ≠ .holdup →
    ∃ t, exec (.resetN dt) s = .next t ∧ t.sys.mode = .boot ∧ t.sys.inReset = true ∧ t.pwr.lastReset = 2 ∧ t.pwr.resetNLow = true ∧
      t.hif.up = false ∧ t.pio = Pio.reset ∧ t.rtc = s.rtc ∧ t.pwr.ioBanks = s.pwr.ioBanks ∧
      (meteringMode s = true → t.bill.stop = some (tickStamp (elapse dt s), 3)) := by
  intro dt s hq hi hb hh
  have hw := hq.nothingWaits
  obtain ⟨u, hu⟩ : ∃ u, u = updPwr (fun p => { p with resetNLow := true }) (elapse dt s) := ⟨_, rfl⟩
  have usys : u.sys = s.sys := by rw [hu]; exact elapse_sys hw dt
  have upwr : u.pwr = { s.pwr with resetNLow := true } := by rw [hu, updPwr, elapse_pwr hw]
  have urtc : u.rtc = s.rtc := by rw [hu]; exact elapse_rtc hw dt
  have upend : u.pending = (elapse dt s).pending := by rw [hu]; rfl
  have ust : tickStamp u = tickStamp (elapse dt s) := by rw [hu]; rfl
  have umet : meteringMode u = meteringMode s := by rw [← meteringMode_elapse hq dt, hu]; rfl
  have e : resetN (elapse dt s) = updSys (fun x => { x with inReset := true }) (mainReset 2 u.pwr.ioBanks (abruptStop 3 u)) := by
    rw [resetN, ← hu]
    refine if_neg ?_
    rw [usys, hi]
    rintro (h | h | h)
    · exact hh h
    · exact hb h
    · exact Bool.false_ne_true h
  obtain ⟨b, m, l, hv, -, hst⟩ := abruptStop_shape 3 u
  have h := mainReset_reset 2 u.pwr.ioBanks (abruptStop 3 u)
  generalize mainReset 2 u.pwr.ioBanks (abruptStop 3 u) = t at h e
  rw [hv] at h
  obtain ⟨hs1, hs2⟩ := h.settled
  have hrow : exec (.resetN dt) s = .next (resetN (elapse dt s)) := by
    refine event_of_settled ?_ ?_
    · rw [e]; exact ⟨hs1, hs2⟩
    · rw [e]; exact h.pending.trans (upend.trans (elapse_pending hw dt))
  rw [e] at hrow
  obtain ⟨n, h1⟩ := h.sys
  obtain ⟨x, y, z, h3⟩ := h.hif
  obtain ⟨h8, -⟩ := h.blocks
  have h2 := h.pwr
  refine ⟨_, hrow, ?_, rfl, ?_, ?_, ?_, h8, h.rtc.trans urtc, ?_, fun hm => ?_⟩
  · exact (congrArg Sys.mode h1).trans rfl
  · exact (congrArg Pwr.lastReset h2).trans rfl
  · exact (congrArg Pwr.resetNLow h2).trans (congrArg Pwr.resetNLow upwr)
  · exact (congrArg Hif.up h3).trans rfl
  · exact (congrArg Pwr.ioBanks h2).trans (show u.pwr.ioBanks = s.pwr.ioBanks by rw [upwr])
  · exact h.stop.trans ((hst (umet.trans hm)).trans (by rw [ust]))

/-- RESET_N is only noted in HOLDUP, in BACKUP and in reset (R557). -/
theorem resetN_noted :
  ∀ dt s, Quiet s → (s.sys.inReset = true ∨ s.sys.mode = .backup ∨ s.sys.mode = .holdup) →
    exec (.resetN dt) s = .next { elapse dt s with pwr := { s.pwr with resetNLow := true } } := by
  intro dt s hq h
  have hw := hq.nothingWaits
  have e : resetN (elapse dt s) = { elapse dt s with pwr := { s.pwr with resetNLow := true } } := by
    rw [resetN, updPwr, elapse_pwr hw]
    refine if_pos ?_
    show (elapse dt s).sys.mode = .holdup ∨ (elapse dt s).sys.mode = .backup ∨ (elapse dt s).sys.inReset = true
    rw [elapse_sys hw]
    tauto
  have hrow : exec (.resetN dt) s = .next (resetN (elapse dt s)) :=
    event_of_steady hq (by rw [e]; exact ⟨rfl, rfl, rfl⟩)
  rw [hrow, e]

/-- The release of RESET_N lets BOOT begin (R557). -/
theorem resetN_released :
  ∀ dt banks s, Quiet s → s.sys.inReset = true → s.pwr.pfw = false →
    exec (.resetNRelease dt banks) s =
      .next { elapse dt s with
        sys := { s.sys with inReset := false }, pwr := { s.pwr with resetNLow := false, ioBanks := bankLevels banks } } := by
  intro dt banks s hq hi hp
  have hw := hq.nothingWaits
  have hrow : exec (.resetNRelease dt banks) s = .next (resetNRelease banks (elapse dt s)) :=
    row_of_follows hq fun u => follows_resetNRelease (.refl _)
  rw [hrow, resetNRelease_released (by rw [elapse_sys hw]; exact hi), if_neg (by rw [elapse_pwr hw, hp]; exact Bool.false_ne_true), released,
    elapse_sys hw, elapse_pwr hw]

/-- The release leads to HOLDUP while PFW is asserted (R547). -/
theorem resetN_released_into_holdup :
  ∀ dt banks s, Quiet s → s.sys.inReset = true → s.pwr.pfw = true →
    ∃ t, exec (.resetNRelease dt banks) s = .next t ∧ t.sys.mode = .holdup ∧ t.sys.cause = 3 ∧ t.sys.inReset = false ∧
      t.pwr.resetNLow = false ∧ t.pwr.holdups = s.pwr.holdups + 1 := by
  intro dt banks s hq hi hp
  have hw := hq.nothingWaits
  have hrow : exec (.resetNRelease dt banks) s = .next (resetNRelease banks (elapse dt s)) :=
    row_of_follows hq fun u => follows_resetNRelease (.refl _)
  have e : resetNRelease banks (elapse dt s) = enterHoldup none (released banks (elapse dt s)) := by
    rw [resetNRelease_released (by rw [elapse_sys hw]; exact hi), if_pos (by rw [elapse_pwr hw]; exact hp)]
  have h := enterHoldup_entered none (released banks (elapse dt s))
  rw [← e] at h
  have hpw : (released banks (elapse dt s)).pwr = { s.pwr with resetNLow := false, ioBanks := bankLevels banks } := by
    rw [released, elapse_pwr hw]
  refine ⟨_, hrow, h.mode, ?_, ?_, ?_, ?_⟩
  · rw [h.cause, hpw, if_pos hp]
  · rw [h.inReset]; rfl
  · rw [h.resetNLow, hpw]
  · rw [h.holdups, hpw]

/-- BACKUP is left for BOOT (R48, R550). -/
theorem backup_left :
  ∀ dt banks s, Quiet s → s.sys.mode = .backup → s.pwr.resetNLow = false →
    ∃ t, exec (.backupExit dt banks) s = .next t ∧ t.sys.mode = .boot ∧ t.pwr.pfw = false ∧ t.pwr.ioBanks = bankLevels banks ∧
      t.pwr.lastReset = (if s.pwr.alwaysOnFresh then 0 else 1) ∧ t.hif.up = false ∧ t.rtc = s.rtc := by
  intro dt banks s hq hm hl
  have hw := hq.nothingWaits
  have e : backupExit banks (elapse dt s) = updPwr (fun p => { p with pfw := false })
      (mainReset (if s.pwr.alwaysOnFresh then 0 else 1) (bankLevels banks) (elapse dt s)) := by
    rw [backupExit, if_pos (by rw [elapse_sys hw, elapse_pwr hw]; exact ⟨hm, hl⟩), elapse_pwr hw]
  have h := mainReset_reset (if s.pwr.alwaysOnFresh then 0 else 1) (bankLevels banks) (elapse dt s)
  generalize mainReset (if s.pwr.alwaysOnFresh then 0 else 1) (bankLevels banks) (elapse dt s) = t at h e
  obtain ⟨hs1, hs2⟩ := h.settled
  have hrow : exec (.backupExit dt banks) s = .next (backupExit banks (elapse dt s)) := by
    refine event_of_settled ?_ ?_
    · rw [e]; exact ⟨hs1, hs2⟩
    · rw [e]; exact h.pending.trans (elapse_pending hw dt)
  rw [e] at hrow
  obtain ⟨n, h1⟩ := h.sys
  obtain ⟨x, y, z, h3⟩ := h.hif
  have h2 := h.pwr
  refine ⟨_, hrow, ?_, rfl, ?_, ?_, ?_, h.rtc.trans (elapse_rtc hw dt)⟩
  · exact (congrArg Sys.mode h1).trans rfl
  · exact (congrArg Pwr.ioBanks h2).trans rfl
  · exact (congrArg Pwr.lastReset h2).trans rfl
  · exact (congrArg Hif.up h3).trans rfl

/-- The always-on domain restarts (R446, R556). -/
theorem alwaysOn_restarts :
  ∀ dt s, Quiet s →
    ∃ t, exec (.alwaysOnReset dt) s = .next t ∧ t.sys.mode = .backup ∧ t.sys.resetPending = none ∧ t.tamp = Tamp.reset ∧
      t.pwr.alwaysOnFresh = true ∧ t.rtc.cal = 0 ∧ t.rtc.lost = true ∧ t.intg.ring = [] ∧ t.vax.retained = none ∧
      t.sec = s.sec ∧ t.evr.log = s.evr.log ∧ t.cfg = s.cfg := by
  intro dt s hq
  have hw := hq.nothingWaits
  have h := alwaysOnReset_reset (elapse dt s)
  have hrow : exec (.alwaysOnReset dt) s = .next (alwaysOnReset (elapse dt s)) := by
    refine event_of_settled ⟨?_, ?_⟩ (h.pending.trans (elapse_pending hw dt))
    · rw [h.sys]
    · rw [h.pair]; exact (quiet_elapse hq dt).2.1
  refine ⟨_, hrow, ?_⟩
  generalize alwaysOnReset (elapse dt s) = t at h
  obtain ⟨h1, h2, h3, ⟨h4, h5⟩, h6, h7, h8, h9, h10, -, -⟩ := h
  exact ⟨by rw [h1], by rw [h1], h2, h3, h4, h5, h6, h7, h8.trans (elapse_sec hw dt), h9.trans (congrArg Evr.log (elapse_evr hw dt)),
    h10.trans (elapse_cfg hw dt)⟩

/-- Settles O22: each reset through what it leaves, the release into HOLDUP through the entry of HOLDUP. -/
theorem resetsComplete : Obligations.ResetsComplete := by
  unfold Obligations.ResetsComplete
  exact ⟨main_reset_releases, resetN_holds, resetN_noted, resetN_released, resetN_released_into_holdup, backup_left, alwaysOn_restarts⟩

end Sys2Proof.Machine


/-! What the rounds of the network model leave as it stands: the substation link, metering, what the peer sent, and every
trigger but that of FALLBACK (R183, R197, R205, R210). -/

namespace Sys2Proof.Machine

/-- The trigger of FALLBACK on failed rounds (R46). -/
def failedRounds : Mode × Nat := (.fallback, 2)

/-- What of a state stands while rounds go on. -/
structure Standing where
  subl : Subl
  mth : Mth
  mel : Mel
  digests : List (Nat × Nat × Bytes)
  mode : Mode
  triggers : List (Mode × Nat)
  clock : Clock
  pending : List Instr
  segments : List (Nat × Nat × Bytes)

def standing (s : State) : Standing :=
  ⟨s.subl, s.mth, s.mel, s.pair.peerDigests, s.sys.mode, s.sys.triggers.filter fun x => x != failedRounds, s.clock, s.pending,
    s.pair.segments⟩

@[simp] theorem standing_mk (clock sys pair hif evr sec tamp intg pwr mth mel bill time pio pioBegan ctrl vax eth rtc epd subl nmod solv gal
    cfg cfgPending draws out pending) :
    standing ⟨clock, sys, pair, hif, evr, sec, tamp, intg, pwr, mth, mel, bill, time, pio, pioBegan, ctrl, vax, eth, rtc, epd, subl, nmod,
      solv, gal, cfg, cfgPending, draws, out, pending⟩ =
      ⟨subl, mth, mel, pair.peerDigests, sys.mode, sys.triggers.filter fun x => x != failedRounds, clock, pending,
        pair.segments⟩ := rfl

@[simp] theorem standing_fold (s : State) :
    Standing.mk s.subl s.mth s.mel s.pair.peerDigests s.sys.mode (s.sys.triggers.filter fun x => x != failedRounds) s.clock s.pending
        s.pair.segments =
      standing s := rfl

theorem standing_foldl {α : Type} {f : State → α → State} (h : ∀ s x, standing (f s x) = standing s) (l : List α) (s : State) :
    standing (l.foldl f s) = standing s := by
  induction l generalizing s with
  | nil => rfl
  | cons x l ih => exact (ih _).trans (h s x)

@[simp] theorem standing_ite (c : Prop) [Decidable c] (s t : State) :
    standing (if c then s else t) = if c then standing s else standing t := by
  split <;> rfl

/-! ### What is recorded, transferred and sent -/

@[simp] theorem standing_draw (s : State) : standing (draw s) = standing s := rfl

@[simp] theorem standing_post (code index : Nat) (data : Bytes) (keyId : Nat) (s : State) :
    standing (post code index data keyId s) = standing s := rfl

@[simp] theorem standing_snapSource (k : Nat) (s : State) : standing (snapSource k s) = standing s := by
  obtain ⟨_, _, _, e⟩ := snapSource_shape k s
  rw [e]
  rfl

@[simp] theorem standing_updGal (f : Gallery → Gallery) (s : State) : standing (updGal f s) = standing s := rfl

@[simp] theorem standing_sendPair (kind : Nat) (b : Bytes) (s : State) : standing (sendPair kind b s) = standing s := by
  unfold sendPair
  split <;> rfl

@[simp] theorem standing_sendDigest (kind round : Nat) (item : Bytes) (s : State) : standing (sendDigest kind round item s) = standing s := by
  unfold sendDigest
  split
  · simp
  · rfl

@[simp] theorem standing_recSampleValue (r : Nat) (v : Option Nat) (s : State) : standing (recSampleValue r v s) = standing s := rfl

@[simp] theorem standing_recordRound (good : Bool) (v : Nat → Nat) (s : State) : standing (recordRound good v s) = standing s := by
  refine standing_foldl (fun s r => ?_) _ s
  split
  · exact standing_recSampleValue ..
  · rfl

@[simp] theorem standing_withdraw (f : NJobKind → Bool) (s : State) : standing (withdraw f s) = standing s := rfl

@[simp] theorem standing_submitJob (kind : NJobKind) (owner deadline : Nat) (s : State) :
    standing (submitJob kind owner deadline s) = standing s := rfl

/-! ### The counts of outcomes (R46, R211) -/

/-- A trigger of FALLBACK on failed rounds is the one that rounds may assert. -/
@[simp] theorem standing_failedRounds (s : State) : standing (trigger .fallback 2 s) = standing s := by
  have h : (s.sys.triggers ++ [failedRounds]).filter (fun x => x != failedRounds) = s.sys.triggers.filter fun x => x != failedRounds := by
    rw [List.filter_append]
    simp
  show standing { s with sys := { s.sys with triggers := s.sys.triggers ++ [failedRounds] } } = standing s
  simp only [standing, h]

@[simp] theorem standing_fallbackCheck (fails : Nat) (s : State) : standing (fallbackCheck fails s) = standing s := by
  unfold fallbackCheck
  split
  · exact standing_failedRounds s
  · rfl

@[simp] theorem standing_recoveryCheck (s : State) : standing (recoveryCheck s) = standing s := by
  unfold recoveryCheck
  split <;> rfl

@[simp] theorem standing_countEst (st : Nat) (s : State) : standing (countEst st s) = standing s := by
  simp [countEst]

@[simp] theorem standing_countOpt (st : Nat) (s : State) : standing (countOpt st s) = standing s := by
  simp [countOpt]

/-! ### The estimation round -/

@[simp] theorem standing_publishEst (r : EstRes) (sr : Option StateRound) (s : State) : standing (publishEst r sr s) = standing s := by
  simp [publishEst]

@[simp] theorem standing_calibSample (m : Mizon) (old : NetState) (r : EstRun) (ws : List Props) (net : NetState)
    (exps : List (List (Nat × Nat))) (s : State) : standing (calibSample m old r ws net exps s) = standing s := by
  simp only [calibSample]
  split
  · rfl
  · split <;> rfl

@[simp] theorem standing_closeWith (m : Mizon) (r : EstRun) (it : Iterate) (status flags best : Nat) (s : State) :
    standing (closeWith m r it status flags best s) = standing s := by
  have hs : standing (if (criticalOf m it.pres).isNone then openVal 36 s else (0, s)).2 = standing s := by
    split <;> rfl
  simp only [closeWith]
  generalize (if (criticalOf m it.pres).isNone then openVal 36 s else (0, s)) = v at hs
  split
  · exact ((standing_calibSample ..).trans (standing_publishEst ..)).trans hs
  · exact (standing_publishEst ..).trans hs

@[simp] theorem standing_closeShort (m : Mizon) (r : EstRun) (flags : Nat) (s : State) : standing (closeShort m r flags s) = standing s := by
  unfold closeShort
  split
  · exact standing_closeWith ..
  · split
    · exact standing_closeWith ..
    · exact standing_closeWith ..

@[simp] theorem standing_nextNewton (m : Mizon) (r : EstRun) (s : State) : standing (nextNewton m r s) = standing s := by
  unfold nextNewton
  split
  · exact standing_closeShort ..
  · rfl

theorem standing_resolveBind (m : Mizon) (v : CutVec) (s : State) (b : MBind) (held : Option Nat) :
    standing (resolveBind m v s b held).2 = standing s := by
  unfold resolveBind
  dsimp only
  split
  · split
    · rfl
    · rfl
    · split <;> rfl
  · rfl

theorem standing_resolveBinds (m : Mizon) (v : CutVec) (bs : List MBind) (held : List (Option Nat)) (s : State) :
    standing (resolveBinds m v bs held s).2 = standing s := by
  induction bs generalizing held s with
  | nil => rfl
  | cons b bs ih => exact (ih _ _).trans (standing_resolveBind ..)

@[simp] theorem standing_resolveEst (s : State) : standing (resolveEst s) = standing s := by
  unfold resolveEst
  split
  · split
    · rfl
    · exact (standing_nextNewton ..).trans (standing_resolveBinds ..)
  · rfl

@[simp] theorem standing_startEst (round cutSec : Nat) (s : State) : standing (startEst round cutSec s) = standing s := by
  simp only [startEst]
  split
  · rfl
  · split
    · exact standing_publishEst ..
    · rfl

@[simp] theorem standing_stallEst (s : State) : standing (stallEst s) = standing s := by
  unfold stallEst
  split
  · rfl
  · exact standing_publishEst ..

@[simp] theorem standing_endRunningEst (s : State) : standing (endRunningEst s) = standing s := by
  unfold endRunningEst
  split
  · split
    · exact standing_stallEst s
    · exact standing_closeShort ..
  · exact standing_stallEst s
  · rfl

/-! ### The optimisation round -/

@[simp] theorem standing_publishOpt (r : OptRes) (startNs : Nat) (s : State) : standing (publishOpt r startNs s) = standing s := by
  simp [publishOpt]

@[simp] theorem standing_closeOpt (m : Mizon) (r : OptRun) (t : Traj) (status flags best : Nat) (s : State) :
    standing (closeOpt m r t status flags best s) = standing s := standing_publishOpt ..

@[simp] theorem standing_warmTraj (m : Mizon) (r : OptRun) (evaluated : Bool) (s : State) :
    standing (warmTraj m r evaluated s).2 = standing s := by
  unfold warmTraj
  dsimp only
  split <;> rfl

@[simp] theorem standing_closeOptShort (m : Mizon) (r : OptRun) (flags : Nat) (s : State) :
    standing (closeOptShort m r flags s) = standing s := by
  unfold closeOptShort
  split
  · exact standing_closeOpt ..
  · split
    · exact standing_closeOpt ..
    · exact (standing_closeOpt ..).trans (standing_warmTraj ..)

@[simp] theorem standing_optPump (s : State) : standing (optPump s) = standing s := by
  unfold optPump
  split
  · split
    · rfl
    · split
      · rfl
      · split
        · exact standing_closeOptShort ..
        · exact standing_submitJob ..
  · rfl

@[simp] theorem standing_optStateReady (s : State) : standing (optStateReady s) = standing s := by
  unfold optStateReady
  split
  · split <;> rfl
  · rfl

@[simp] theorem standing_afterEst (s : State) : standing (afterEst s) = standing s := by
  unfold afterEst
  split
  · exact (standing_optPump _).trans (standing_optStateReady s)
  · rfl

@[simp] theorem standing_startOpt (cutSec : Nat) (s : State) : standing (startOpt cutSec s) = standing s := by
  unfold startOpt
  split <;> rfl

@[simp] theorem standing_stallOpt (s : State) : standing (stallOpt s) = standing s := by
  unfold stallOpt
  split
  · refine (standing_publishOpt ..).trans ?_
    have hk {u : State} (hu : standing u = standing s) (i : Nat) (b : Bytes) (n : Nmod) :
        standing { post 0x0402 i b 0 u with nmod := n } = standing s := hu
    refine hk ?_ _ _ _
    split
    · rfl
    · exact standing_warmTraj ..
  · rfl

@[simp] theorem standing_endRunningOpt (s : State) : standing (endRunningOpt s) = standing s := by
  unfold endRunningOpt
  split
  · split
    · exact standing_stallOpt s
    · exact standing_closeOptShort ..
  · rfl

@[simp] theorem standing_startRounds (round sec : Nat) (s : State) : standing (startRounds round sec s) = standing s := by
  simp [startRounds]

/-! ### The parts of a cut -/

@[simp] theorem standing_cancelOpt (s : State) : standing (cancelOpt s) = standing s := by
  unfold cancelOpt
  split <;> rfl

@[simp] theorem standing_completeAll (f : Wait → Bool) (st : Nat) (reg : Bool) (b : Bytes) (s : State) :
    standing (completeAll f st reg b s) = standing s := by
  obtain ⟨_, _, e⟩ := completeAll_shape f st reg b s
  rw [e]
  rfl

@[simp] theorem standing_activateAt (c : Nat) (s : State) : standing (activateAt c s).1 = standing s := by
  unfold activateAt
  split
  · rfl
  · split
    · rfl
    · exact (standing_completeAll ..).trans (standing_cancelOpt s)

@[simp] theorem standing_calibPropose (date : Nat) (s : State) : standing (calibPropose date s) = standing s := by
  simp only [calibPropose]
  split
  · rfl
  · split <;> rfl

@[simp] theorem standing_calibCut (s : State) : standing (calibCut s) = standing s := by
  simp [calibCut]

@[simp] theorem standing_gateFlights (s : State) : standing (gateFlights s) = standing s := by
  simp only [gateFlights]
  split
  · split <;> rfl
  · rfl

@[simp] theorem standing_sendState (s : State) : standing (sendState s) = standing s := by
  unfold sendState
  split
  · exact standing_sendPair ..
  · rfl

@[simp] theorem standing_sendCut (s : State) : standing (sendCut s) = standing s := by
  unfold sendCut
  split
  · exact standing_foldl (fun _ _ => standing_sendPair ..) _ s
  · rfl

@[simp] theorem standing_imagesDigest (round : Nat) (s : State) : standing (imagesDigest round s) = standing s := by
  unfold imagesDigest
  split
  · exact standing_sendDigest ..
  · rfl

end Sys2Proof.Machine


/-! Cuts and rounds (R179, R205 to R210, R237, R238). -/

namespace Sys2Proof.Machine

/-! ### What the end of a tick leaves as it was -/

/-- What the end of a tick leaves as it was: the link but for its operations, the metrology pages, the results and the digests of the
peer. -/
def Lasting.stays (l : Lasting) : Subl × (Bool × Paged Bytes × W32 × Paged Bytes × W32) × (List EstRes × List OptRes × W32) × List (Nat × Nat × Bytes) :=
  (l.subl, l.pages, l.results, l.peerDigests)

/-- From `s` to `t` the end of a tick has passed: no round has begun, and what stays has stayed. -/
structure Stays (s t : State) : Prop where
  kept : (lasting t).stays = (lasting s).stays
  est : s.nmod.est = none → t.nmod.est = none
  opt : s.nmod.opt = none → t.nmod.opt = none

theorem Stays.refl (s : State) : Stays s s := ⟨rfl, id, id⟩

theorem Stays.trans {s t u : State} (h : Stays s t) (h' : Stays t u) : Stays s u :=
  ⟨h'.kept.trans h.kept, fun e => h'.est (h.est e), fun e => h'.opt (h.opt e)⟩

theorem Stays.of_lasting {s t : State} {l : Lasting} (h : lasting t = l) (hc : Calm s t) (hl : l.stays = (lasting s).stays) : Stays s t := by
  obtain ⟨-, he, ho, -⟩ := hc
  exact ⟨(congrArg Lasting.stays h).trans hl, he, ho⟩

theorem Mild.stays {s t : State} (h : Mild s t) : Stays s t := .of_lasting h.1 h.2 rfl

theorem entered_stays (m : Mode) (cause : Nat) (ret : Option Mode) (s : State) : Stays s (entered m cause ret s) := ⟨rfl, id, id⟩

theorem modeTo_stays (m : Mode) (cause : Nat) (ret : Option Mode) (s : State) : Stays s (modeTo m cause ret s) := by
  obtain ⟨hl, hc⟩ := modeTo_lasting m cause ret s
  exact (entered_stays m cause ret s).trans (.of_lasting hl hc rfl)

theorem bootEnter_stays (m : Mode) (cause : Nat) (s : State) : Stays s (bootEnter m cause s) := by
  obtain ⟨hl, hc⟩ := bootEnter_lasting m cause s
  exact (entered_stays m cause none s).trans (.of_lasting hl hc rfl)

theorem endTransition_stays (x : Transition) (s : State) : Stays s (endTransition x s) := by
  have h₁ : Stays s (updSys (fun y => { y with trans := none }) s) := ⟨rfl, id, id⟩
  have h₂ := h₁.trans (modeTo_stays x.target x.cause none _)
  simp only [endTransition]
  generalize modeTo x.target x.cause none (updSys (fun y => { y with trans := none }) s) = u at h₂ ⊢
  have h₃ := h₂.trans (completeAll_mild (· == .modeEnd) stOK false (notInStateBody u) u).stays
  generalize completeAll (· == .modeEnd) stOK false (notInStateBody u) u = v at h₃ ⊢
  split
  · exact h₃.trans ⟨rfl, id, id⟩
  · exact h₃

/-- A shadow that is not qualified takes the role with a record (R64). -/
def roleNoted (s : State) : State := if s.pair.qualified then s else post 0x0104 0 [] 0 s

/-- The mode in which the shadow takes the role. -/
def roleMode (s : State) : Mode :=
  match s.pair.lastMode with
  | .run => .run
  | .reduced => .reduced
  | .fallback => .fallback
  | _ => .safe

/-- The role taken, and every axis to be homed (R64). -/
def roleTaken (s : State) : State :=
  { s with
    pair := { s.pair with active := true, peer := false, gaveUp := false, segments := [], logWaiting := [] }
    vax := { s.vax with axes := s.vax.axes.map fun x => { x with homed := false, unverified := true } } }

theorem takeRole_eq (s : State) :
    takeRole s =
      drivePairOutput (modeTo (roleMode (roleNoted s)) 8 (if roleMode (roleNoted s) = .fallback then (roleNoted s).pair.lastReturn else none)
        (roleTaken (roleNoted s))) := rfl

theorem roleNoted_mild (s : State) : Mild s (roleNoted s) := mild_ite (.refl s) (post_mild ..)

theorem takeRole_stays (s : State) : Stays s (takeRole s) := by
  rw [takeRole_eq]
  have h₁ := (roleNoted_mild s).stays
  generalize roleNoted s = u at h₁ ⊢
  have h₂ : Stays u (roleTaken u) := ⟨rfl, id, id⟩
  exact ((h₁.trans h₂).trans (modeTo_stays ..)).trans (drivePairOutput_mild _).stays

theorem actTrigger_stays (t : Mode × Nat) (s : State) : Stays s (actTrigger t s) := by
  unfold actTrigger
  split
  · exact takeRole_stays s
  · split
    · exact endTransition_stays ..
    · exact .refl s
  · split
    · exact bootEnter_stays ..
    · exact modeTo_stays ..

theorem clearTriggers_stays (s : State) : Stays s (clearTriggers s) := ⟨rfl, id, id⟩

theorem arbitrate_stays (s : State) : Stays s (arbitrate s) := by
  unfold arbitrate
  split
  · exact (clearTriggers_stays s).trans (actTrigger_stays ..)
  · exact .refl s

theorem Stays.peerDigests {s t : State} (h : Stays s t) : t.pair.peerDigests = s.pair.peerDigests :=
  congrArg (fun x => x.2.2.2) h.kept

/-- A row that leaves no digest of the peer leaves what stays as its effect did. -/
theorem endRow_stays {q : List Instr} {s : State} (h : s.pair.peerDigests = []) : Stays s (endRow q s) := by
  unfold endRow
  split
  · exact .refl s
  · have ha := arbitrate_stays s
    unfold settle
    dsimp only
    rw [if_pos (by rw [ha.peerDigests, h]; rfl)]
    exact ha.trans (clearTriggers_stays _)

/-- What an event leaves, but for what the end of its tick does. -/
theorem row_stays {dt : Nat} {f : State → State} {s : State} (h : (f (elapse dt s)).pair.peerDigests = []) :
    ∃ t, event dt f s = .next t ∧ Stays (f (elapse dt s)) t :=
  ⟨_, rfl, (endRow_stays h).trans ⟨rfl, id, id⟩⟩

/-! ### The cut (R179, R237, R238) -/

/-- What a cut leaves of the link and of the pages. -/
def cutPart (s : State) : Subl × Paged Bytes × W32 × Paged Bytes × List (Nat × Nat × Bytes) :=
  ({ s.subl with ops := [] }, s.mth.page0, s.mth.seq0, s.mel.page2, s.pair.peerDigests)

theorem cutPart_of_standing {s t : State} (h : standing t = standing s) : cutPart t = cutPart s := by
  simp only [standing, Standing.mk.injEq] at h
  obtain ⟨h1, h2, h3, h4, -⟩ := h
  simp only [cutPart, h1, h2, h3, h4]

theorem Stays.cutPart {s t : State} (h : Stays s t) : cutPart t = cutPart s := by
  have hk := h.kept
  simp only [Lasting.stays, lasting, Prod.mk.injEq] at hk
  obtain ⟨hs, ⟨-, hp0, hq0, hp2, -⟩, -, hd⟩ := hk
  simp only [Machine.cutPart, hs, hp0, hq0, hp2, hd]

/-- The cut opens: its second is noted, and the reports and the samples of the tick before are taken (R28, R237). -/
def cutOpened (sec : Nat) (s : State) : State :=
  takeConfigs sec { s with subl := { s.subl with lastCut := some (s.time.steps.toNat, sec) } }

/-- The pages of a cut published, and the reports frozen (R237). -/
def cutFrozen (round : Nat) (s : State) : State :=
  freezeReports (publishPage2 round (publishPage0 round (applyBoundary .cut (takeSample s))))

/-- The cut vector begins (R238). -/
def cutVector (round sec : Nat) (s : State) : State :=
  if s.sys.mode = .shadow then s else
    { s with subl := { s.subl with
      prevCut := s.subl.cut,
      cut := { round := round, at_ := ⟨sec, 0⟩, pio := latchBuffer s, thermal := s.mth.page0.now, electrical := s.mel.page2.now,
               axes := cutAxes s, subl := [], complete := false } } }

/-- The estimation round of the cut before ends (R208). -/
def cutEstEnded (round : Nat) (s : State) : State :=
  if roundsRun s && !skipsRound round s then afterEst (endRunningEst s) else s

/-- A built model is activated (R127). -/
def cutActivated (sec : Nat) (s : State) : State := if s.sys.mode = .fault then s else (activateAt sec s).1

/-- The rounds of the cut begin (R179). -/
def cutStarted (round sec : Nat) (s : State) : State :=
  if roundsRun s then
    calibCut
      (if s.sys.mode = .shadow then { s with nmod := { s.nmod with cutOpen := !skipsRound round s } }
      else if monoUs s < s.sys.coresUntil then { s with nmod := { s.nmod with optExtra := false } }
      else startRounds round sec s)
  else { s with nmod := { s.nmod with optExtra := false } }

/-- What follows in the tick of a cut: rounds end and begin. -/
def cutRounds (round sec : Nat) (s : State) : State :=
  gateFlights (sendState (cutStarted round sec (cutActivated sec (cutEstEnded round (cutTransitions s)))))

/-- The window read, the operations of the link done, and the digest of the images sent. -/
def cutRead (round : Nat) (s : State) : State :=
  imagesDigest (round - 1) (sublOps (readWindow iConcourse 544 (readWindow iConcourse 1056 s)))

/-- A cut is due: a period begins whose cut has not been made. -/
def cutDue (s : State) : Bool :=
  !(!mainRuns s || s.sys.mode == .boot || s.sys.mode == .holdup || s.subl.lastCut == some (s.time.steps.toNat, ptpSec s) ||
    ptpSec s % estPeriod s != 0)

theorem cut_of_due {s : State} (h : cutDue s = true) :
    cut s =
      cutRounds (ptpSec s / estPeriod (cutOpened (ptpSec s) s)) (ptpSec s)
        (cutRead (ptpSec s / estPeriod (cutOpened (ptpSec s) s))
          (cutVector (ptpSec s / estPeriod (cutOpened (ptpSec s) s)) (ptpSec s)
            (cutFrozen (ptpSec s / estPeriod (cutOpened (ptpSec s) s)) (cutOpened (ptpSec s) s)))) := by
  unfold cut
  extract_lets sec this link s₁ round s₂ s₃ link' s₄ s₅ s₆ s₇ s₈ s₉ nmod s₁₀
  rw [if_neg (by rw [cutDue, Bool.not_eq_true'] at h; exact ne_true_of_eq_false h)]
  have h₁ : s₁ = cutOpened sec s := rfl
  have h₃ : s₃ = cutFrozen round s₁ := rfl
  have h₄ : s₄ = cutVector round sec s₃ := rfl
  have h₆ : s₆ = cutRead round s₄ := rfl
  have h₈ : s₈ = cutEstEnded round s₇ := rfl
  have h₉ : s₉ = cutActivated sec s₈ := rfl
  have h₁₀ : s₁₀ = cutStarted round sec s₉ := rfl
  have h₇ : s₇ = cutTransitions s₆ := rfl
  rw [h₁₀, h₉, h₈, h₇, h₆, h₄, h₃]
  rfl

theorem cut_of_not_due {s : State} (h : cutDue s = false) : cut s = s :=
  if_pos (by rwa [cutDue, Bool.not_eq_false'] at h)

theorem cutTransitions_stays (s : State) : Stays s (cutTransitions s) := by
  simp only [cutTransitions]
  split
  · exact .refl s
  · split
    · exact modeTo_stays ..
    · split
      · split
        · refine Stays.trans (t := _) ?_ (modeTo_stays ..)
          exact ⟨rfl, id, id⟩
        · exact .refl s
      · split
        · exact endTransition_stays ..
        · exact .refl s
      · exact .refl s

theorem standing_cutEstEnded (round : Nat) (s : State) : standing (cutEstEnded round s) = standing s := by
  unfold cutEstEnded
  split
  · rw [standing_afterEst, standing_endRunningEst]
  · rfl

theorem standing_cutActivated (sec : Nat) (s : State) : standing (cutActivated sec s) = standing s := by
  unfold cutActivated
  split
  · rfl
  · exact standing_activateAt ..

theorem standing_cutStarted (round sec : Nat) (s : State) : standing (cutStarted round sec s) = standing s := by
  unfold cutStarted
  split
  · rw [standing_calibCut]
    split
    · rfl
    · split
      · rfl
      · exact standing_startRounds ..
  · rfl

theorem cutRounds_part (round sec : Nat) (s : State) : cutPart (cutRounds round sec s) = cutPart s := by
  have ht := (cutTransitions_stays s).cutPart
  rw [← ht, cutRounds]
  generalize cutTransitions s = u
  refine cutPart_of_standing ?_
  rw [standing_gateFlights, standing_sendState, standing_cutStarted, standing_cutActivated, standing_cutEstEnded]

theorem sublOps_none {s : State} (h : s.subl.ops = []) : cutPart (sublOps s) = cutPart s := by
  simp only [sublOps, h]
  rfl

theorem cutRead_part {round : Nat} {s : State} (h : s.subl.ops = []) : cutPart (cutRead round s) = cutPart s := by
  unfold cutRead
  refine (cutPart_of_standing (standing_imagesDigest ..)).trans ?_
  exact sublOps_none h

theorem applyBoundary_shape (b : Boundary) (s : State) : ∃ c p, applyBoundary b s = { s with cfg := c, cfgPending := p } := ⟨_, _, rfl⟩

theorem publishPage0_shape (round : Nat) (s : State) :
    ∃ p q g, publishPage0 round s = { s with mth := { s.mth with page0 := p, seq0 := q }, gal := g } ∧
      (s.mth.running = true → q = s.mth.seq0 + 1) := by
  unfold publishPage0
  split
  · exact ⟨_, _, _, rfl, fun _ => rfl⟩
  next h => exact ⟨s.mth.page0, s.mth.seq0, s.gal, rfl, fun h' => absurd h' h⟩

theorem publishPage2_shape (round : Nat) (s : State) :
    ∃ p q g, publishPage2 round s = { s with mel := { s.mel with page2 := p, seq2 := q }, gal := g } := by
  unfold publishPage2
  split
  · exact ⟨_, _, _, rfl⟩
  · exact ⟨s.mel.page2, s.mel.seq2, s.gal, rfl⟩

/-- What a cut freezes: the reports as they stood before its tick, and the page of the thermal meters. -/
theorem cutFrozen_facts (round : Nat) (s : State) :
    (cutFrozen round s).subl = { s.subl with entries := s.subl.entries.map fun x => { x with frozen := x.filed.start s } } ∧
      (cutFrozen round s).sys = s.sys ∧ (cutFrozen round s).pair = s.pair ∧
      (s.mth.running = true → (cutFrozen round s).mth.seq0 = s.mth.seq0 + 1) := by
  unfold cutFrozen
  obtain ⟨p, g, h₁⟩ := takeSample_shape s
  rw [h₁]
  obtain ⟨c, q, h₂⟩ := applyBoundary_shape .cut { s with pio := p, gal := g }
  rw [h₂]
  obtain ⟨p0, q0, g0, h₃, hq⟩ := publishPage0_shape round { s with pio := p, gal := g, cfg := c, cfgPending := q }
  rw [h₃]
  obtain ⟨p2, q2, g2, h₄⟩ := publishPage2_shape round
    { s with pio := p, cfg := c, cfgPending := q, mth := { s.mth with page0 := p0, seq0 := q0 }, gal := g0 }
  rw [h₄]
  exact ⟨rfl, rfl, rfl, hq⟩

theorem estPeriod_elapse {s : State} (h : Quiet s) (dt : Nat) : estPeriod (elapse dt s) = estPeriod s :=
  elapse_read estPeriod (fun _ _ _ => rfl) h dt

theorem cutOpened_none {s : State} (h : s.nmod.roundPend = []) (sec : Nat) :
    cutOpened sec s = { s with subl := { s.subl with lastCut := some (s.time.steps.toNat, sec) } } := by
  unfold cutOpened takeConfigs
  rw [show ({ s with subl := { s.subl with lastCut := some (s.time.steps.toNat, sec) } } : State).nmod.roundPend = [] from h]
  rfl

/-- What a cut leaves of the link and of the pages. -/
structure CutMade (sec round : Nat) (s t : State) : Prop where
  lastCut : t.subl.lastCut = some (s.time.steps.toNat, sec)
  entries : t.subl.entries = s.subl.entries.map fun x => { x with frozen := x.filed.start s }
  prevCut : t.subl.prevCut = s.subl.cut
  thermal : t.subl.cut.thermal = t.mth.page0.now
  electrical : t.subl.cut.electrical = t.mel.page2.now
  vector : t.subl.cut.round = round ∧ t.subl.cut.at_ = ⟨sec, 0⟩ ∧ t.subl.cut.complete = false
  seq : s.mth.running = true → t.mth.seq0 = s.mth.seq0 + 1
  digests : t.pair.peerDigests = s.pair.peerDigests

theorem CutMade.of_part {sec round : Nat} {s t u : State} (h : CutMade sec round s t) (hp : cutPart u = cutPart t) :
    CutMade sec round s u := by
  simp only [cutPart, Prod.mk.injEq] at hp
  obtain ⟨hs, h0, hq, h2, hd⟩ := hp
  have hl : u.subl.lastCut = t.subl.lastCut := (congrArg Subl.lastCut hs :)
  have he : u.subl.entries = t.subl.entries := (congrArg Subl.entries hs :)
  have hpc : u.subl.prevCut = t.subl.prevCut := (congrArg Subl.prevCut hs :)
  have hc : u.subl.cut = t.subl.cut := (congrArg Subl.cut hs :)
  exact ⟨hl.trans h.lastCut, he.trans h.entries, hpc.trans h.prevCut, by rw [hc, h0, h.thermal], by rw [hc, h2, h.electrical],
    by rw [hc]; exact h.vector, fun hr => hq.trans (h.seq hr), hd.trans h.digests⟩

theorem cut_makes {s : State} (hdue : cutDue s = true) (hm : s.sys.mode ≠ .shadow) (hp : s.nmod.roundPend = []) (ho : s.subl.ops = []) :
    CutMade (ptpSec s) (ptpSec s / estPeriod s) s (cut s) := by
  rw [cut_of_due hdue, cutOpened_none hp]
  obtain ⟨w, hw⟩ : ∃ w, w = { s with subl := { s.subl with lastCut := some (s.time.steps.toNat, ptpSec s) } } := ⟨_, rfl⟩
  rw [← hw]
  have he : estPeriod w = estPeriod s := by rw [hw]; rfl
  rw [he]
  generalize ptpSec s / estPeriod s = round
  generalize ptpSec s = sec at hw ⊢
  obtain ⟨h1, h2, h3, h4⟩ := cutFrozen_facts round w
  generalize cutFrozen round w = f at h1 h2 h3 h4
  have hv : cutVector round sec f = { f with subl := { f.subl with
      prevCut := f.subl.cut,
      cut := { round := round, at_ := ⟨sec, 0⟩, pio := latchBuffer f, thermal := f.mth.page0.now, electrical := f.mel.page2.now,
               axes := cutAxes f, subl := [], complete := false } } } :=
    if_neg (by rw [h2, hw]; exact hm)
  have hstart : ∀ x : SublEntry, x.filed.start w = x.filed.start s := fun _ => by rw [hw]; rfl
  have hmade : CutMade sec round s (cutVector round sec f) := by
    rw [hv]
    refine ⟨?_, ?_, ?_, rfl, rfl, ⟨rfl, rfl, rfl⟩, ?_, ?_⟩
    · show f.subl.lastCut = _
      rw [h1, hw]
    · show f.subl.entries = _
      rw [h1]
      simp only [hstart]
      rw [hw]
    · show f.subl.cut = _
      rw [h1, hw]
    · intro hr
      rw [show f.mth.seq0 = w.mth.seq0 + 1 from h4 (by rw [hw]; exact hr), hw]
    · show f.pair.peerDigests = _
      rw [h3, hw]
  have hops : (cutVector round sec f).subl.ops = [] := by
    rw [hv]
    show f.subl.ops = []
    rw [h1, hw]
    exact ho
  exact hmade.of_part ((cutRounds_part ..).trans (cutRead_part hops))

/-! ### The trigger of rounds that fail (R46) -/

/-- The trigger that prevails after one more (R45). -/
def topStep (s : State) (best : Option (Mode × Nat)) (t : Mode × Nat) : Option (Mode × Nat) :=
  if !triggerActs s t then best
  else match best with
    | some b => if triggerRank b < triggerRank t then some t else best
    | none => some t

theorem topTrigger_eq (s : State) : topTrigger s = s.sys.triggers.foldl (topStep s) none := rfl

theorem topStep_mem {s : State} {b : Option (Mode × Nat)} {x t : Mode × Nat} (h : topStep s b x = some t) :
    (t = x ∧ triggerActs s x = true) ∨ b = some t := by
  unfold topStep at h
  split at h
  · exact .inr h
  next ha =>
    have hx : triggerActs s x = true := by simpa using ha
    split at h
    · split at h
      · exact .inl ⟨(Option.some.inj h).symm, hx⟩
      · exact .inr h
    · exact .inl ⟨(Option.some.inj h).symm, hx⟩

theorem foldl_topStep_mem (s : State) (l : List (Mode × Nat)) (b : Option (Mode × Nat)) {t : Mode × Nat}
    (h : l.foldl (topStep s) b = some t) : (t ∈ l ∧ triggerActs s t = true) ∨ b = some t := by
  induction l generalizing b with
  | nil => exact .inr h
  | cons x l ih =>
    rcases ih _ h with ⟨hm, ha⟩ | h'
    · exact .inl ⟨List.mem_cons_of_mem _ hm, ha⟩
    · refine (topStep_mem h').imp (fun ⟨e, ha⟩ => ?_) id
      rw [e]
      exact ⟨List.mem_cons_self, ha⟩

/-- The trigger that acts is one that the tick asserted, and acts in its mode (R45). -/
theorem topTrigger_mem {s : State} {t : Mode × Nat} (h : topTrigger s = some t) : t ∈ s.sys.triggers ∧ triggerActs s t = true :=
  (foldl_topStep_mem s s.sys.triggers none (topTrigger_eq s ▸ h)).resolve_right (by simp)

theorem subl_of_parts {a b : Subl} (h : { a with ops := [] } = { b with ops := [] }) (ho : a.ops = b.ops) : a = b := by
  cases a
  cases b
  simp only [Subl.mk.injEq] at h ho ⊢
  exact ⟨h.1, ho, h.2.2⟩

/-- Where only failed rounds have asserted a trigger, the end of the tick leaves the link whole: what waits for a cut is legal in
FALLBACK. -/
theorem endRow_subl {q : List Instr} {s : State} (hd : s.pair.peerDigests = []) (ht : ∀ t ∈ s.sys.triggers, t = failedRounds) :
    (endRow q s).subl = s.subl := by
  have hs := (endRow_stays (q := q) hd).kept
  refine subl_of_parts (congrArg (fun x => x.1) hs) ?_
  unfold endRow
  split
  · rfl
  · have ha := (arbitrate_stays s).peerDigests
    have hops : (arbitrate s).subl.ops = s.subl.ops := by
      unfold arbitrate
      split
      next t h =>
        obtain ⟨hm, hact⟩ := topTrigger_mem h
        obtain rfl := ht t hm
        have hb : (clearTriggers s).sys.mode ≠ .boot := by
          intro e
          rw [triggerActs, show s.sys.mode = .boot from e] at hact
          exact absurd hact Bool.false_ne_true
        have he : actTrigger failedRounds (clearTriggers s) = modeTo .fallback 2 (some s.sys.mode) (clearTriggers s) := if_neg hb
        rw [he]
        exact (congrArg Lasting.ops (modeTo_lasting .fallback 2 (some s.sys.mode) (clearTriggers s)).1).trans rfl
      next => rfl
    unfold settle
    dsimp only
    rw [if_pos (by rw [ha, hd]; rfl)]
    exact hops

theorem failed_of_standing {s t : State} (h : standing t = standing s) (hs : s.sys.triggers = []) :
    ∀ x ∈ t.sys.triggers, x = failedRounds := by
  intro x hx
  have hf : (t.sys.triggers.filter fun x => x != failedRounds) = [] := by
    rw [show (t.sys.triggers.filter fun x => x != failedRounds) = s.sys.triggers.filter fun x => x != failedRounds from
      congrArg Standing.triggers h, hs, List.filter_nil]
  have := List.filter_eq_nil_iff.1 hf x hx
  simpa using this

/-! ### Rounds that end (R207 to R210) -/

/-- The rounds that run, their results and the stalls. -/
def roundsOf (s : State) : Option EstRun × Option OptRun × List EstRes × List OptRes × W32 :=
  (s.nmod.est, s.nmod.opt, s.nmod.estResults, s.nmod.optResults, s.nmod.stalls)

theorem sendDigest_nmod (kind round : Nat) (item : Bytes) (s : State) : (sendDigest kind round item s).nmod = s.nmod := by
  have hp : ∀ (k : Nat) (b : Bytes) (u : State), (sendPair k b u).nmod = u.nmod := by
    intro k b u
    unfold sendPair
    split <;> rfl
  unfold sendDigest
  split
  · exact hp ..
  · rfl

theorem fallbackCheck_nmod (fails : Nat) (s : State) : (fallbackCheck fails s).nmod = s.nmod := by
  unfold fallbackCheck
  split <;> rfl

theorem roundsOf_of_nmod {s t : State} (h : t.nmod = s.nmod) : roundsOf t = roundsOf s := by simp only [roundsOf, h]

theorem roundsOf_countEst (st : Nat) (s : State) : roundsOf (countEst st s) = roundsOf s := by
  simp only [countEst]
  refine (roundsOf_of_nmod (fallbackCheck_nmod ..)).trans ?_
  split
  · rfl
  · exact (roundsOf_of_nmod (snapSource_nmod ..)).trans rfl

theorem roundsOf_countOpt (st : Nat) (s : State) : roundsOf (countOpt st s) = roundsOf s := by
  simp only [countOpt]
  split
  · unfold recoveryCheck
    split <;> rfl
  · refine (roundsOf_of_nmod (fallbackCheck_nmod ..)).trans ?_
    exact (roundsOf_of_nmod (snapSource_nmod ..)).trans rfl

theorem recordRound_nmod (good : Bool) (v : Nat → Nat) (s : State) : (recordRound good v s).nmod = s.nmod := by
  unfold recordRound
  induction List.range 32 generalizing s with
  | nil => rfl
  | cons r l ih =>
    exact (ih _).trans ((apply_ite State.nmod ..).trans (ite_self _))

/-- A published estimation is the newest, and no estimation runs (R210). -/
theorem roundsOf_publishEst (r : EstRes) (sr : Option StateRound) (s : State) :
    roundsOf (publishEst r sr s) =
      (none, s.nmod.opt, ({ r with published := ⟨ptpSec s, ptpNs s⟩ } :: s.nmod.estResults).take 16, s.nmod.optResults, s.nmod.stalls) := by
  unfold publishEst
  extract_lets x good n₁ s₁ n₂ g s₂ s₃
  refine (roundsOf_of_nmod (sendDigest_nmod ..)).trans ?_
  refine (roundsOf_countEst ..).trans ?_
  have h₃ : s₃.nmod = s₂.nmod := recordRound_nmod _ _ s₂
  have hw : ∀ u, roundsOf (withdraw isEstKind u) = roundsOf u := fun _ => rfl
  clear_value s₃
  rw [hw, roundsOf_of_nmod h₃]
  simp only [roundsOf, s₂, n₂, s₁, n₁, x]

/-- A published optimisation is the newest, and no optimisation runs (R207). -/
theorem roundsOf_publishOpt (r : OptRes) (startNs : Nat) (s : State) :
    roundsOf (publishOpt r startNs s) =
      (s.nmod.est, none, s.nmod.estResults, ({ r with published := ⟨ptpSec s, ptpNs s⟩ } :: s.nmod.optResults).take 4, s.nmod.stalls) := by
  simp only [publishOpt]
  refine (roundsOf_countOpt ..).trans ?_
  have hd : ∀ (c : Prop) [Decidable c] (k n : Nat) (b : Bytes) (u : State),
      roundsOf (withdraw isOptKind (if c then sendDigest k n b u else u)) = roundsOf u := by
    intro c _ k n b u
    split
    · exact roundsOf_of_nmod (sendDigest_nmod ..)
    · rfl
  refine (hd ..).trans ?_
  split
  · split <;> rfl
  · rfl

theorem afterEst_idle {s : State} (h : s.nmod.opt = none) : afterEst s = s := by
  have hr : optStateReady s = s := by
    unfold optStateReady
    split
    next h' _ => exact absurd (h.symm.trans h') (Option.some_ne_none _).symm
    next => rfl
  have hp : optPump s = s := by
    unfold optPump
    split
    next h' => exact absurd (h.symm.trans h') (Option.some_ne_none _).symm
    next => rfl
  unfold afterEst
  split
  · rw [hr, hp]
  · rfl

/-- A stalled estimation is published in its place as STALE or NO_SOLUTION (R210). -/
theorem stallEst_publishes {s : State} {r : EstRun} (h : s.nmod.est = some r) :
    ∃ x, roundsOf (stallEst s) = (none, s.nmod.opt, (x :: s.nmod.estResults).take 16, s.nmod.optResults, s.nmod.stalls + 1) ∧
      x.status = (if s.nmod.estGood.isSome then stStale else stNoSolution) ∧ x.flags = (if s.nmod.fresh then 576 else 64) ∧
      x.round = r.round := by
  have hfl : 64 + 512 * b2n s.nmod.fresh = if s.nmod.fresh then 576 else 64 := by
    cases s.nmod.fresh <;> rfl
  unfold stallEst
  split
  next h' => exact absurd (h.symm.trans h') (Option.some_ne_none _)
  next r' h' =>
    obtain rfl := Option.some.inj (h.symm.trans h')
    refine ⟨_, roundsOf_publishEst .., ?_⟩
    dsimp only
    rw [hfl]
    split
    next g hg => rw [hg]; exact ⟨rfl, rfl, rfl⟩
    next hg => rw [hg]; exact ⟨rfl, rfl, rfl⟩

/-- An optimisation that ends without an iterate is STALE or NO_SOLUTION (R208). -/
theorem closeOptShort_publishes {m : Mizon} {r : OptRun} {flags : Nat} {s : State} (hb : r.best = none) :
    ∃ x, roundsOf (closeOptShort m r flags s) = (s.nmod.est, none, s.nmod.estResults, (x :: s.nmod.optResults).take 4, s.nmod.stalls) ∧
      x.start = r.start ∧ x.status = (if s.nmod.traj.now.isSome && s.nmod.estGood.isSome then stStale else stNoSolution) := by
  have hw : roundsOf (warmTraj m r true s).2 = roundsOf s := by
    unfold warmTraj
    dsimp only
    split <;> rfl
  unfold closeOptShort
  split
  next h => exact absurd (hb.symm.trans h) (Option.some_ne_none _).symm
  next =>
    split
    next t g ht hg => exact ⟨_, roundsOf_publishOpt .., rfl, by rw [ht, hg]; rfl⟩
    next hno =>
      generalize warmTraj m r true s = w at hw
      simp only [roundsOf, Prod.mk.injEq] at hw
      obtain ⟨w1, -, w3, w4, w5⟩ := hw
      refine ⟨_, (roundsOf_publishOpt ..).trans (by rw [w1, w3, w4, w5]), rfl, ?_⟩
      have hc : (s.nmod.traj.now.isSome && s.nmod.estGood.isSome) = false := by
        cases ht : s.nmod.traj.now with
        | none => rfl
        | some t =>
          cases hg : s.nmod.estGood with
          | none => rfl
          | some g => exact absurd hg (hno t g ht)
      rw [hc]
      rfl

/-- What the end of a tick keeps of rounds that have ended. -/
theorem Stays.rounds {s t : State} (h : Stays s t) :
    t.nmod.estResults = s.nmod.estResults ∧ t.nmod.optResults = s.nmod.optResults ∧ t.nmod.stalls = s.nmod.stalls := by
  have hk := h.kept
  simp only [Lasting.stays, lasting, Prod.mk.injEq] at hk
  exact hk.2.2.1

theorem cutSeal_eq {s : State} (hr : mainRuns s = true) (hm : s.sys.mode ≠ .shadow) (hc : s.subl.cut.complete = false)
    (hp : s.subl.cut.pio ≠ []) : cutSeal s = afterEst (resolveEst (sendCut (sealCut s))) := by
  refine if_neg ?_
  simp [hr, hm, hc, hp]

theorem coreStall_stalled {s : State} {r : EstRun} (he : s.nmod.est = some r) (ho : s.nmod.opt = none)
    (hp : passed s (r.deadline + 999999) = true) : coreStall s = stallEst s := by
  obtain ⟨x, hx, -⟩ := stallEst_publishes he
  simp only [roundsOf, Prod.mk.injEq] at hx
  obtain ⟨-, hopt, -⟩ := hx
  rw [ho] at hopt
  have ha : afterEst (stallEst s) = stallEst s := afterEst_idle hopt
  have hs : (if s.nmod.est.any fun r => passed s (r.deadline + 999999) then afterEst (stallEst s) else s) = stallEst s := by
    rw [he, Option.any_some, if_pos hp, ha]
  unfold coreStall
  rw [hs]
  exact if_neg (by rw [hopt]; exact Bool.false_ne_true)

theorem optWaitExpiry_due {s : State} {m : Mizon} {r : OptRun} (hm : s.nmod.active = some m) (hr : s.nmod.opt = some r)
    (hw : r.phase = .waiting) (hp : passed s r.jobDeadline = true) : optWaitExpiry s = closeOptShort m r 8 s := by
  simp only [optWaitExpiry, hm, hr]
  exact if_pos ⟨hw, hp⟩

/-- A cut freezes the reports, publishes the pages and begins the cut vector (R28, R179, R237, R238). -/
theorem cut_publishes :
  ∀ dt s, Quiet s → mainRuns s = true → s.sys.mode ≠ .boot → s.sys.mode ≠ .holdup → s.sys.mode ≠ .shadow →
    s.subl.lastCut ≠ some (s.time.steps.toNat, ptpSec (elapse dt s)) → ptpSec (elapse dt s) % estPeriod s = 0 → s.nmod.roundPend = [] →
    s.subl.ops = [] →
    ∃ t, exec (.cut dt) s = .next t ∧ t.subl.lastCut = some (s.time.steps.toNat, ptpSec (elapse dt s)) ∧
      t.subl.entries = s.subl.entries.map (fun x => { x with frozen := x.filed.start (elapse dt s) }) ∧
      t.subl.prevCut = s.subl.cut ∧ t.subl.cut.thermal = t.mth.page0.now ∧ t.subl.cut.electrical = t.mel.page2.now ∧
      t.subl.cut.round = ptpSec (elapse dt s) / estPeriod s ∧ t.subl.cut.at_ = ⟨ptpSec (elapse dt s), 0⟩ ∧
      t.subl.cut.complete = false ∧ (s.mth.running = true → t.mth.seq0 = s.mth.seq0 + 1) := by
  intro dt s hq hr hb hh hsh hl hper hp ho
  have hw := hq.nothingWaits
  have he := estPeriod_elapse hq dt
  have hdue : cutDue (elapse dt s) = true := by
    simp only [cutDue, mainRuns_elapse hq, hr, elapse_sys hw, elapse_subl hw, elapse_time hw, he, hper, beq_eq_false_iff_ne.2 hb,
      beq_eq_false_iff_ne.2 hh, beq_eq_false_iff_ne.2 hl]
    rfl
  have hc := cut_makes hdue (by rw [elapse_sys hw]; exact hsh) (by rw [elapse_nmod hw]; exact hp) (by rw [elapse_subl hw]; exact ho)
  rw [he] at hc
  have hd : (cut (elapse dt s)).pair.peerDigests = [] := hc.digests.trans (quiet_elapse hq dt).2.1
  obtain ⟨t, hrow, hst⟩ := row_stays (f := cut) hd
  have hmade := hc.of_part hst.cutPart
  refine ⟨t, hrow, ?_, ?_, ?_, hmade.thermal, hmade.electrical, hmade.vector.1, hmade.vector.2.1, hmade.vector.2.2, fun hrun => ?_⟩
  · rw [hmade.lastCut, elapse_time hw]
  · rw [hmade.entries, elapse_subl hw]
  · rw [hmade.prevCut, elapse_subl hw]
  · rw [hmade.seq (by rw [elapse_mth hw]; exact hrun), elapse_mth hw]

/-- A second has one cut (R28). -/
theorem cut_once :
  ∀ dt s, Quiet s → s.subl.lastCut = some (s.time.steps.toNat, ptpSec (elapse dt s)) → exec (.cut dt) s = .next (elapse dt s) := by
  intro dt s hq hl
  have hw := hq.nothingWaits
  have hdue : cutDue (elapse dt s) = false := by
    simp only [cutDue, elapse_subl hw, elapse_time hw, hl, beq_self_eq_true, Bool.or_true, Bool.true_or, Bool.not_true]
  have e := cut_of_not_due hdue
  have hrow : exec (.cut dt) s = .next (cut (elapse dt s)) := event_of_steady hq (by rw [e]; exact .refl _)
  rw [hrow, e]

/-- The seal copies the frozen slots in and completes the vector (R238). -/
theorem cut_sealed :
  ∀ dt s, Quiet s → mainRuns s = true → s.sys.mode ≠ .shadow → s.subl.cut.complete = false → s.subl.cut.pio ≠ [] →
    ∃ t, exec (.cutVectorSeal dt) s = .next t ∧
      t.subl = { s.subl with
        sealedUs := monoUs (elapse dt s),
        cut := { s.subl.cut with
          complete := true, subl := s.subl.entries.map fun x => (x.index, cutEntry (getP s 0x0514) s.subl.cut.at_ x) } } := by
  intro dt s hq hr hm hc hp
  have hw := hq.nothingWaits
  have e := cutSeal_eq (s := elapse dt s) ((mainRuns_elapse hq dt).trans hr) (by rw [elapse_sys hw]; exact hm)
    (by rw [elapse_subl hw]; exact hc) (by rw [elapse_subl hw]; exact hp)
  have hst : standing (cutSeal (elapse dt s)) = standing (sealCut (elapse dt s)) := by
    rw [e, standing_afterEst, standing_resolveEst, standing_sendCut]
  have hv : standing (sealCut (elapse dt s)) = { standing (elapse dt s) with subl := (sealCut (elapse dt s)).subl } := rfl
  have hd : (cutSeal (elapse dt s)).pair.peerDigests = [] :=
    (congrArg Standing.digests (hst.trans hv)).trans (quiet_elapse hq dt).2.1
  have ht : ∀ t ∈ (cutSeal (elapse dt s)).sys.triggers, t = failedRounds :=
    failed_of_standing (s := sealCut (elapse dt s)) hst (quiet_elapse hq dt).1
  refine ⟨_, rfl, ?_⟩
  refine (endRow_subl hd ht).trans ((congrArg Standing.subl hst).trans ?_)
  show (sealCut (elapse dt s)).subl = _
  rw [sealCut, show getP (elapse dt s) 0x0514 = getP s 0x0514 from getP_elapse hq dt 0x0514, elapse_subl hw]
  rfl

/-- An estimation that a stalled core has not published is published in its place (R210). -/
theorem stalled_estimation_published :
  ∀ dt (r : EstRun) s, Quiet s → s.nmod.est = some r → s.nmod.opt = none → passed (elapse dt s) (r.deadline + 999999) = true →
    ∃ t, exec (.coreStall dt) s = .next t ∧ t.nmod.est = none ∧ t.nmod.stalls = s.nmod.stalls + 1 ∧
      (t.nmod.estResults.head?.map fun x => (x.status, x.flags, x.round)) =
        some (if s.nmod.estGood.isSome then stStale else stNoSolution, if s.nmod.fresh then 576 else 64, r.round) := by
  intro dt r s hq he ho hp
  have hw := hq.nothingWaits
  have hn := elapse_nmod hw dt
  have e := coreStall_stalled (s := elapse dt s) (r := r) (by rw [hn]; exact he) (by rw [hn]; exact ho) hp
  obtain ⟨x, hx, h1, h2, h3⟩ := stallEst_publishes (s := elapse dt s) (r := r) (by rw [hn]; exact he)
  have hd : (coreStall (elapse dt s)).pair.peerDigests = [] := by
    rw [e]
    exact (congrArg Standing.digests (standing_stallEst _)).trans (quiet_elapse hq dt).2.1
  obtain ⟨t, hrow, hst⟩ := row_stays (f := coreStall) hd
  rw [e] at hst
  simp only [roundsOf, Prod.mk.injEq, hn] at hx
  rw [hn] at h1 h2
  obtain ⟨x1, -, x3, -, x5⟩ := hx
  obtain ⟨k1, -, k3⟩ := hst.rounds
  refine ⟨t, hrow, hst.est x1, k3.trans x5, ?_⟩
  rw [k1, x3, List.take_succ_cons, List.head?_cons, Option.map_some, h1, h2, h3]

/-- An optimisation round without an iterate that still waits at its job deadline ends (R207, R208). -/
theorem waiting_optimisation_ends :
  ∀ dt (m : Mizon) (r : OptRun) s, Quiet s → s.nmod.active = some m → s.nmod.opt = some r → r.phase = .waiting → r.best = none →
    passed (elapse dt s) r.jobDeadline = true →
    ∃ t, exec (.optimisationWaitExpiry dt) s = .next t ∧ t.nmod.opt = none ∧
      (t.nmod.optResults.head?.map fun x => (x.start, x.status)) =
        some (r.start, if s.nmod.traj.now.isSome && s.nmod.estGood.isSome then stStale else stNoSolution) := by
  intro dt m r s hq hm hr hwt hb hp
  have hw := hq.nothingWaits
  have hn := elapse_nmod hw dt
  have e := optWaitExpiry_due (s := elapse dt s) (by rw [hn]; exact hm) (by rw [hn]; exact hr) hwt hp
  obtain ⟨x, hx, h1, h2⟩ := closeOptShort_publishes (m := m) (flags := 8) (s := elapse dt s) hb
  have hd : (optWaitExpiry (elapse dt s)).pair.peerDigests = [] := by
    rw [e]
    exact (congrArg Standing.digests (standing_closeOptShort ..)).trans (quiet_elapse hq dt).2.1
  obtain ⟨t, hrow, hst⟩ := row_stays (f := optWaitExpiry) hd
  rw [e] at hst
  simp only [roundsOf, Prod.mk.injEq, hn] at hx
  rw [hn] at h2
  obtain ⟨-, x2, -, x4, -⟩ := hx
  obtain ⟨-, k2, -⟩ := hst.rounds
  refine ⟨t, hrow, hst.opt x2, ?_⟩
  rw [k2, x4, List.take_succ_cons, List.head?_cons, Option.map_some, h1, h2]

/-- Settles O25: what a cut makes of the link and the pages is kept by the rounds and the modes of its tick. -/
theorem cutsAndRoundsComplete : Obligations.CutsAndRoundsComplete := by
  unfold Obligations.CutsAndRoundsComplete
  exact ⟨cut_publishes, cut_once, cut_sealed, stalled_estimation_published, waiting_optimisation_ends⟩

end Sys2Proof.Machine


/-! Messages of the pair (R60 to R67, R255). -/

namespace Sys2Proof.Machine

/-! ### A message that is taken (R60) -/

theorem updPair_elapse {s : State} (hq : Quiet s) (dt : Nat) (f : Pair → Pair) :
    updPair f (elapse dt s) = { elapse dt s with pair := f s.pair } := by
  rw [updPair, elapse_pair hq.nothingWaits]

theorem pairTag_elapse {s : State} (hq : Quiet s) (dt kind : Nat) (content : Bytes) :
    pairTag (elapse dt s) kind content = pairTag s kind content :=
  elapse_read (fun u => pairTag u kind content) (fun _ _ _ => rfl) hq dt

theorem pairKeyed_elapse {s : State} (hq : Quiet s) (dt : Nat) : pairKeyed (elapse dt s) = pairKeyed s :=
  elapse_read pairKeyed (fun _ _ _ => rfl) hq dt

theorem paired_elapse {s : State} (hq : Quiet s) (dt : Nat) : paired (elapse dt s) = paired s :=
  elapse_read paired (fun _ _ _ => rfl) hq dt

/-- A message whose tag verifies has its effect after the time that has passed. -/
theorem pairTaken_elapse {kind : Nat} {content tag : Bytes} {s : State} (h : PairMessage kind content tag s) (dt : Nat)
    (f : State → State) : pairTaken kind content tag f (elapse dt s) = f (elapse dt s) := by
  obtain ⟨hq, hp, hk, hr, hu, rfl⟩ := h
  simp [pairTaken, paired_elapse hq, pairKeyed_elapse hq, mainRuns_elapse hq, elapse_hif hq.nothingWaits, pairTag_elapse hq, hp, hk,
    hr, hu]

/-- The row of a message whose tag verifies ends with its effect, where that leaves what the end of the tick looks at. -/
theorem row_of_message {kind : Nat} {content tag : Bytes} {s : State} (h : PairMessage kind content tag s) (dt : Nat)
    {f : State → State} (hf : Steady (elapse dt s) (f (elapse dt s))) :
    event dt (pairTaken kind content tag f) s = .next (f (elapse dt s)) := by
  have he := pairTaken_elapse h dt f
  rw [event_of_steady h.1 (by rwa [he]), he]

/-- What is noted of the pair alone leaves the end of the tick nothing to do, where no digest of the peer comes. -/
theorem steady_pair {s : State} (hq : Quiet s) (dt : Nat) {p : Pair} (hp : p.peerDigests = s.pair.peerDigests) :
    Steady (elapse dt s) { elapse dt s with pair := p } :=
  ⟨rfl, hp.trans (congrArg Pair.peerDigests (elapse_pair hq.nothingWaits dt)).symm, rfl⟩

theorem steady_sendPair (kind : Nat) (body : Bytes) (s : State) : Steady s (sendPair kind body s) := by
  unfold sendPair
  split <;> exact ⟨rfl, rfl, rfl⟩

/-! ### Heartbeats (R60, R64, R67) -/

theorem message_unverified {dt kind : Nat} {content tag : Bytes} {f : State → State} {s : State} (hq : Quiet s) (hp : paired s = true)
    (hr : mainRuns s = true) (hu : s.hif.up = true) (ht : pairKeyed s = false ∨ tag ≠ pairTag s kind content) :
    event dt (pairTaken kind content tag f) s =
      .next { elapse dt s with pair := { s.pair with badTags := s.pair.badTags + 1 } } := by
  have he : pairTaken kind content tag f (elapse dt s) =
      { elapse dt s with pair := { s.pair with badTags := s.pair.badTags + 1 } } := by
    rw [pairTaken, paired_elapse hq, mainRuns_elapse hq, elapse_hif hq.nothingWaits, pairKeyed_elapse hq, pairTag_elapse hq, hp, hr, hu,
      if_neg (by decide), if_neg (by rcases ht with h | h <;> simp [h]), updPair_elapse hq]
  rw [event_of_steady hq (by rw [he]; exact ⟨rfl, (congrArg Pair.peerDigests (elapse_pair hq.nothingWaits dt)).symm, rfl⟩), he]

/-- What a heartbeat says of the peer, as it is kept. -/
def heardNow (mode : Mode) (ret : Option Mode) (now : Nat) (p : Pair) : Pair :=
  { p with heard := p.heard || p.listening.isSome, lastMode := mode, lastReturn := ret, lastHeard := now, peer := true }

theorem heartbeatRx_eq (mode : Mode) (ret : Option Mode) (s : State) :
    heartbeatRx mode ret s =
      (let u := updPair (heardNow mode ret (monoUs s)) s
       if sendsHeartbeats s then
         post 0x0105 0 [] 0 (if getP s 0x0121 = 1 then updPair (fun p => { p with toShadow := true }) u else u)
       else u) := rfl

theorem heartbeatRx_silent {mode : Mode} {ret : Option Mode} {s : State} (h : sendsHeartbeats s = false) :
    heartbeatRx mode ret s = updPair (heardNow mode ret (monoUs s)) s := by
  simp [heartbeatRx_eq, h]

theorem heartbeatRx_dual {mode : Mode} {ret : Option Mode} {s : State} (h : sendsHeartbeats s = true) :
    heartbeatRx mode ret s =
      post 0x0105 0 [] 0 (updPair (fun p => { heardNow mode ret (monoUs s) p with toShadow := p.toShadow || getP s 0x0121 == 1 }) s) := by
  simp only [heartbeatRx_eq, h, if_true]
  congr 1
  split
  · next hp => simp [updPair, heardNow, hp]
  · next hp => simp [updPair, heardNow, hp]

theorem sendsHeartbeats_elapse {s : State} (hq : Quiet s) (dt : Nat) : sendsHeartbeats (elapse dt s) = sendsHeartbeats s :=
  elapse_read sendsHeartbeats (fun _ _ _ => rfl) hq dt

theorem heartbeat_unverified_counted :
    ∀ dt tag q m b round sec ns s, Quiet s → paired s = true → mainRuns s = true → s.hif.up = true →
      (pairKeyed s = false ∨ tag ≠ pairTag s 1 (heartbeatContent q (modeAt m) (b.map modeAt) round ⟨sec, ns⟩)) →
      exec (.heartbeat dt tag m ⟨q, b, round, sec, ns⟩) s =
        .next { elapse dt s with pair := { s.pair with badTags := s.pair.badTags + 1 } } := by
  intro dt tag q m b round sec ns s hq hp hr hu ht
  exact message_unverified hq hp hr hu ht

theorem heartbeat_heard :
    ∀ dt tag q m b round sec ns s, PairMessage 1 (heartbeatContent q (modeAt m) (b.map modeAt) round ⟨sec, ns⟩) tag s →
      sendsHeartbeats s = false →
      exec (.heartbeat dt tag m ⟨q, b, round, sec, ns⟩) s =
        .next { elapse dt s with pair := { s.pair with
          heard := s.pair.heard || s.pair.listening.isSome, lastMode := modeAt m, lastReturn := b.map modeAt,
          lastHeard := monoUs (elapse dt s), peer := true } } := by
  intro dt tag q m b round sec ns s h hs
  have hq : Quiet s := h.1
  have he := heartbeatRx_silent (mode := modeAt m) (ret := b.map modeAt) (sendsHeartbeats_elapse hq dt ▸ hs)
  rw [updPair_elapse hq] at he
  exact (row_of_message h dt (by rw [he]; exact steady_pair hq dt rfl)).trans (congrArg _ he)

theorem heartbeat_dual :
    ∀ dt tag q m b round sec ns s, PairMessage 1 (heartbeatContent q (modeAt m) (b.map modeAt) round ⟨sec, ns⟩) tag s →
      sendsHeartbeats s = true →
      exec (.heartbeat dt tag m ⟨q, b, round, sec, ns⟩) s =
        .next (post 0x0105 0 [] 0 { elapse dt s with pair := { s.pair with
          heard := s.pair.heard || s.pair.listening.isSome, lastMode := modeAt m, lastReturn := b.map modeAt,
          lastHeard := monoUs (elapse dt s), peer := true, toShadow := s.pair.toShadow || getP s 0x0121 == 1 } }) := by
  intro dt tag q m b round sec ns s h hs
  have hq : Quiet s := h.1
  have he := heartbeatRx_dual (mode := modeAt m) (ret := b.map modeAt) (sendsHeartbeats_elapse hq dt ▸ hs)
  rw [updPair_elapse hq, getP_elapse hq] at he
  exact (row_of_message h dt (by rw [he]; exact (steady_pair hq dt rfl).trans ⟨rfl, rfl, rfl⟩)).trans (congrArg _ he)

/-! ### The other messages (R60, R61) -/

theorem log_waits :
    ∀ dt tag sec ns packet s, PairMessage 4 (logContent sec ns packet) tag s → s.sys.mode = .shadow →
      tickUs (elapse dt s) ≤ sec * 1000000 + ns / 1000 →
      exec (.commandLog dt tag sec ns packet) s =
        .next { elapse dt s with pair := { s.pair with
          logWaiting := s.pair.logWaiting ++ [(sec * 1000000 + ns / 1000, packet)] } } := by
  intro dt tag sec ns packet s h hm ht
  have hq : Quiet s := h.1
  have he : commandLog sec ns packet (elapse dt s) = { elapse dt s with pair := { s.pair with
      logWaiting := s.pair.logWaiting ++ [(sec * 1000000 + ns / 1000, packet)] } } := by
    simp only [commandLog, elapse_sys hq.nothingWaits, hm, bne_self_eq_false, Bool.false_eq_true, if_false, Nat.not_lt.2 ht, updPair_elapse hq]
  exact (row_of_message h dt (by rw [he]; exact steady_pair hq dt rfl)).trans (congrArg _ he)

theorem log_late :
    ∀ dt tag sec ns packet s, PairMessage 4 (logContent sec ns packet) tag s → s.sys.mode = .shadow →
      sec * 1000000 + ns / 1000 < tickUs (elapse dt s) →
      exec (.commandLog dt tag sec ns packet) s =
        .next (sendPair 6 (le 8 s.subl.cut.round) { elapse dt s with
          pair := { s.pair with qualified := false, resynced := false, matched := [] } }) := by
  intro dt tag sec ns packet s h hm ht
  have hq : Quiet s := h.1
  have he : commandLog sec ns packet (elapse dt s) = sendPair 6 (le 8 s.subl.cut.round) { elapse dt s with
      pair := { s.pair with qualified := false, resynced := false, matched := [] } } := by
    simp only [commandLog, elapse_sys hq.nothingWaits, hm, bne_self_eq_false, Bool.false_eq_true, if_false, if_pos ht, updPair_elapse hq,
      elapse_subl hq.nothingWaits]
  refine (row_of_message h dt ?_).trans (congrArg _ he)
  rw [he]
  refine .trans ?_ (steady_sendPair ..)
  exact steady_pair hq dt rfl

theorem resync_owed :
    ∀ dt tag round s, PairMessage 6 (le 8 round) tag s → s.pair.active = true →
      exec (.resyncRequest dt ⟨tag, round⟩) s = .next { elapse dt s with pair := { s.pair with owesState := true } } := by
  intro dt tag round s h ha
  have hq : Quiet s := h.1
  have he : resyncRequest (elapse dt s) = { elapse dt s with pair := { s.pair with owesState := true } } := by
    rw [resyncRequest, elapse_pair hq.nothingWaits, if_pos ha, updPair_elapse hq]
  exact (row_of_message h dt (by rw [he]; exact steady_pair hq dt rfl)).trans (congrArg _ he)

theorem status_taken :
    ∀ dt tag q last s, PairMessage 8 (statusContent q last) tag s → s.pair.active = true →
      exec (.shadowStatus dt tag ⟨q, last⟩) s = .next { elapse dt s with pair := { s.pair with peerQualified := q } } := by
  intro dt tag q last s h ha
  have hq : Quiet s := h.1
  have he : shadowStatus q (elapse dt s) = { elapse dt s with pair := { s.pair with peerQualified := q } } := by
    rw [shadowStatus, elapse_pair hq.nothingWaits, if_pos ha, updPair_elapse hq]
  exact (row_of_message h dt (by rw [he]; exact steady_pair hq dt rfl)).trans (congrArg _ he)

theorem status_sent :
    ∀ dt s, Quiet s → s.sys.mode = .shadow →
      exec (.shadowStatusSend dt) s =
        .next (sendPair 8 (statusContent s.pair.qualified s.pair.lastMatch) (elapse dt s)) := by
  intro dt s hq hm
  have he : shadowStatusSend (elapse dt s) = sendPair 8 (statusContent s.pair.qualified s.pair.lastMatch) (elapse dt s) := by
    rw [shadowStatusSend, elapse_sys hq.nothingWaits, if_pos hm, elapse_pair hq.nothingWaits]
  exact (event_of_steady hq (by rw [he]; exact steady_sendPair ..)).trans (congrArg _ he)

/-! ### Digests (R63) -/

/-- An own digest of a kind and a round. -/
def ownDigest (d : Nat × Nat × Bytes) (s : State) : Option (Nat × Nat × Bytes) :=
  s.pair.digests.find? fun o => o.1 == d.1 && o.2.1 == d.2.1

/-- A digest of the peer taken from those that wait. -/
def digestTaken (d : Nat × Nat × Bytes) (s : State) : State :=
  updPair (fun p => { p with peerDigests := p.peerDigests.filter fun x => x != d }) s

theorem matchDigests_none {d : Nat × Nat × Bytes} {s : State} (h : s.pair.peerDigests = [d]) (ho : ownDigest d s = none) :
    matchDigests s = s := by
  rw [ownDigest] at ho
  rw [matchDigests, h, List.foldl_cons, List.foldl_nil, ho]

theorem matchDigests_some {d o : Nat × Nat × Bytes} {s : State} (h : s.pair.peerDigests = [d]) (ho : ownDigest d s = some o) :
    matchDigests s =
      (if o.2.2 = d.2.2 then
        let m := ((d.1, d.2.1) :: s.pair.matched).take digestsKept
        let all := [0, 1, 2].all fun k => m.contains (k, d.2.1)
        updPair
          (fun p => { p with
            matched := m, lastMatch := if all then d.2.1 else p.lastMatch,
            qualified := p.qualified || (all && p.resynced), resynced := p.resynced && !all }) (digestTaken d s)
      else if s.sys.mode = .shadow then
        sendPair 6 (le 8 d.2.1)
          (snapSource 8 (post 0x0103 0 (le 1 d.1 ++ le 8 d.2.1) 0
            (updPair (fun p => { p with qualified := false, matched := [] }) (digestTaken d s))))
      else digestTaken d s) := by
  rw [ownDigest] at ho
  rw [matchDigests, h, List.foldl_cons, List.foldl_nil, ho]
  rfl

theorem arbitrate_idle {s : State} (h : s.sys.triggers = []) : arbitrate s = s := by
  rw [arbitrate, topTrigger, h]
  rfl

/-- A tick that ends with digests of the peer compares them. -/
theorem settle_digests {s : State} (ht : s.sys.triggers = []) (hd : s.pair.peerDigests ≠ []) :
    settle s = clearTriggers (matchDigests s) := by
  rw [settle, arbitrate_idle ht, if_neg (by simpa using hd)]

/-- A digest of the peer, as it waits for the own one. -/
def digestWaits (d : Nat × Nat × Bytes) (dt : Nat) (s : State) : State :=
  { elapse dt s with pair := { s.pair with peerDigests := [d] } }

theorem digestRx_elapse {kind round : Nat} {d tag : Bytes} {s : State} (h : PairMessage 5 (digestContent kind round d) tag s) (dt : Nat) :
    pairTaken 5 (digestContent kind round d) tag (digestRx kind round d) (elapse dt s) = digestWaits (kind, round, d) dt s := by
  obtain ⟨-, hp, -⟩ := h.1
  rw [pairTaken_elapse h, digestRx, updPair_elapse h.1, hp]
  rfl

theorem digestWaits_triggers {s : State} (hq : Quiet s) (d : Nat × Nat × Bytes) (dt : Nat) :
    (digestWaits d dt s).sys.triggers = [] := by
  obtain ⟨ht, -, hw⟩ := hq
  exact (congrArg Sys.triggers (elapse_sys hw dt)).trans ht

/-- The row of a digest, where its tick ends with it. -/
theorem digest_row {dt kind round : Nat} {d tag : Bytes} {s : State} (h : PairMessage 5 (digestContent kind round d) tag s)
    (hg : tickGoesOn s.pending = false) :
    exec (.digest dt tag kind round d) s =
      .next { clearTriggers (matchDigests (digestWaits (kind, round, d) dt s)) with pending := s.pending } := by
  have hs := settle_digests (digestWaits_triggers h.1 (kind, round, d) dt) (List.cons_ne_nil (kind, round, d) [])
  rw [← hs, ← digestRx_elapse h dt]
  show event _ _ _ = _
  rw [event, endRow, if_neg (by rw [hg]; decide)]

theorem digest_kept :
    ∀ dt tag kind round dig s, PairMessage 5 (digestContent kind round dig) tag s →
      (∀ o ∈ s.pair.digests, ¬(o.1 = kind ∧ o.2.1 = round)) →
      exec (.digest dt tag kind round dig) s =
        .next { elapse dt s with pair := { s.pair with peerDigests := [(kind, round, dig)] } } := by
  intro dt tag kind round dig s h ho
  have hq : Quiet s := h.1
  have htr := digestWaits_triggers hq (kind, round, dig) dt
  cases hg : tickGoesOn s.pending with
  | true =>
    show event _ _ _ = _
    rw [event, endRow, if_pos hg, digestRx_elapse h, digestWaits, ← elapse_pending hq.nothingWaits dt]
  | false =>
    have hn : ownDigest (kind, round, dig) (digestWaits (kind, round, dig) dt s) = none :=
      List.find?_eq_none.2 fun o hm => by simpa using ho o hm
    rw [digest_row h hg, matchDigests_none rfl hn, clearTriggers_of_none htr, digestWaits, ← elapse_pending hq.nothingWaits dt]

theorem ownDigest_first {dt kind round : Nat} {d own : Bytes} {rest : List (Nat × Nat × Bytes)} {s : State}
    (h : s.pair.digests = (kind, round, own) :: rest) :
    ownDigest (kind, round, d) (digestWaits (kind, round, d) dt s) = some (kind, round, own) := by
  show s.pair.digests.find? _ = _
  rw [h, List.find?_cons_of_pos (by simp)]

theorem sendPair_out_of {s t : State} (kind : Nat) (body : Bytes) (hc : t.cfg = s.cfg) (hs : t.sec = s.sec) (ho : t.out = s.out) :
    (sendPair kind body t).out = (sendPair kind body s).out := by
  have hg : (paired t && pairKeyed t) = (paired s && pairKeyed s) := by simp only [paired, pairKeyed, getP, hc, hs]
  unfold sendPair
  rw [hg]
  split
  · simp only [pairTag, slotKey, getP, hc, hs, ho]
  · exact ho

theorem digest_differs :
    ∀ dt tag kind round dig own rest s, PairMessage 5 (digestContent kind round dig) tag s → tickGoesOn s.pending = false →
      s.sys.mode = .shadow → s.pair.digests = (kind, round, own) :: rest → own ≠ dig →
      ∃ t, exec (.digest dt tag kind round dig) s = .next t ∧ t.pair.qualified = false ∧ t.pair.matched = [] ∧
        t.pair.peerDigests = [] ∧ t.out = (sendPair 6 (le 8 round) s).out ∧ t.sys = s.sys := by
  intro dt tag kind round dig own rest s h hg hm hd hne
  have hq : Quiet s := h.1
  obtain ⟨ht, -, hw⟩ := hq
  have hmw : (digestWaits (kind, round, dig) dt s).sys = s.sys := elapse_sys hw dt
  rw [digest_row h hg, matchDigests_some rfl (ownDigest_first hd), if_neg hne, if_pos (by rw [hmw, hm])]
  refine ⟨_, rfl, ?_, ?_, ?_, ?_, ?_⟩
  · simp [updPair]
  · simp [updPair]
  · simp [updPair, digestTaken, digestWaits]
  · exact sendPair_out_of _ _ (by simp [updPair, digestTaken, digestWaits, elapse_cfg hw])
      (by simp [updPair, digestTaken, digestWaits, elapse_sec hw]) (by simp [updPair, digestTaken, digestWaits, elapse_out hw])
  · simp [updPair, digestTaken, hmw, ← ht]

theorem digest_matches :
    ∀ dt tag kind round dig rest s, PairMessage 5 (digestContent kind round dig) tag s → tickGoesOn s.pending = false →
      s.pair.digests = (kind, round, dig) :: rest →
      ∃ t, exec (.digest dt tag kind round dig) s = .next t ∧
        t.pair.matched = ((kind, round) :: s.pair.matched).take digestsKept ∧ t.pair.peerDigests = [] ∧ t.out = s.out ∧
        (s.pair.qualified = true → t.pair.qualified = true) ∧ t.sys = s.sys := by
  intro dt tag kind round dig rest s h hg hd
  have hq : Quiet s := h.1
  obtain ⟨ht, -, hw⟩ := hq
  have hmw : (digestWaits (kind, round, dig) dt s).sys = s.sys := elapse_sys hw dt
  rw [digest_row h hg, matchDigests_some rfl (ownDigest_first hd), if_pos rfl]
  refine ⟨_, rfl, rfl, ?_, ?_, ?_, ?_⟩
  · simp [updPair, digestTaken, digestWaits]
  · exact elapse_out hw dt
  · intro hqual
    simp [updPair, digestTaken, digestWaits, hqual]
  · simp [updPair, digestTaken, hmw, ← ht]

/-! ### The end of a listening window (R65, R66) -/

theorem drivePairOutput_pio (s : State) : ∃ p, drivePairOutput s = { s with pio := p } := by
  unfold drivePairOutput
  split
  · split
    · exact ⟨_, rfl⟩
    · exact ⟨_, rfl⟩
  · exact ⟨_, rfl⟩

theorem listenEnd_row {s : State} (hq : Quiet s) (dt : Nat) :
    exec (.pairListenEnd dt) s = .next (pairListenEnd (elapse dt s)) := row_of_follows hq fun _ => follows_pairListenEnd (.refl _)

theorem listen_given_up :
    ∀ dt m c s, Quiet s → s.pair.listening = some (m, c) → s.sys.mode ≠ .boot → s.pair.heard = false → s.pair.gaveUp = true →
      ∃ t, exec (.pairListenEnd dt) s = .next t ∧
        t.pair = { s.pair with listening := none, active := true, gaveUp := false } ∧ t.sys = s.sys := by
  intro dt m c s hq hl hb hh hg
  have hp := elapse_pair hq.nothingWaits dt
  have hs := elapse_sys hq.nothingWaits dt
  refine ⟨_, listenEnd_row hq dt, ?_⟩
  have hb' : (elapse dt s).sys.mode ≠ .boot := by rwa [hs]
  obtain ⟨p, e⟩ := drivePairOutput_pio (updPair (fun p => { p with active := true, gaveUp := false })
    (updPair (fun p => { p with listening := none, heard := false }) (elapse dt s)))
  simp only [pairListenEnd, hp, hl, hh, hg, updPair, if_neg hb', if_true, Bool.false_eq_true, if_false] at e ⊢
  rw [e]
  exact ⟨by rw [← hh], hs⟩

theorem listen_heard :
    ∀ dt m c s, Quiet s → s.pair.listening = some (m, c) → s.sys.mode ≠ .boot → s.pair.heard = true →
      exec (.pairListenEnd dt) s =
        .next { elapse dt s with pair := { s.pair with listening := none, heard := false, toShadow := true } } := by
  intro dt m c s hq hl hb hh
  have hp := elapse_pair hq.nothingWaits dt
  have hb' : (elapse dt s).sys.mode ≠ .boot := by rwa [elapse_sys hq.nothingWaits dt]
  rw [listenEnd_row hq dt]
  simp only [pairListenEnd, hp, hl, hh, updPair, if_neg hb', if_true]

/-! ### The state of the active device (R63) -/

/-- Data of a state segment, written where the segment names it. -/
def segmentInstance (s : State) (i : List Nat) : State :=
  match i with
  | e :: a :: d =>
    let x := engOf s e
    if e < 2 then setEng e { x with data := Memory.writes x.data a (d.map (BitVec.ofNat 8)) } s else s
  | _ => s

theorem segmentInstance_ctrl (s : State) (i : List Nat) : ∃ c, segmentInstance s i = { s with ctrl := c } := by
  unfold segmentInstance
  split
  · dsimp only
    split <;> exact ⟨_, rfl⟩
  · exact ⟨_, rfl⟩

theorem stateSegment_eq {b : Bytes} {s : State} (h : s.sys.mode = .shadow) :
    ∃ net traj insts, net.pres = (getList (numsOf b)).1 ∧
      stateSegment b s =
        updPair (fun p => { p with resynced := true, matched := [] })
          (List.foldl segmentInstance { s with nmod := { s.nmod with net := net, traj := traj } } insts) := by
  unfold stateSegment
  rw [if_neg (by simp [h])]
  exact ⟨_, _, _, rfl, rfl⟩

theorem state_applied :
    ∀ dt tag seg s, PairMessage 7 seg tag s → s.sys.mode = .shadow →
      ∃ t, exec (.stateSegment dt tag seg) s = .next t ∧ t.pair = { s.pair with resynced := true, matched := [] } ∧
        t.nmod.net.pres = (getList (numsOf seg)).1 ∧ t.sys = s.sys ∧ t.pio = s.pio ∧ t.hif = s.hif := by
  intro dt tag seg s h hm
  have hq : Quiet s := h.1
  obtain ⟨-, -, hw⟩ := hq
  obtain ⟨net, traj, insts, hn, e⟩ := stateSegment_eq (b := seg) (s := elapse dt s) (by rwa [elapse_sys hw])
  obtain ⟨c, ec⟩ : ∃ c, insts.foldl segmentInstance { elapse dt s with nmod := { (elapse dt s).nmod with net := net, traj := traj } } =
      { elapse dt s with nmod := { (elapse dt s).nmod with net := net, traj := traj }, ctrl := c } := by
    refine List.foldlRecOn (motive := fun t : State => ∃ c, t = { elapse dt s with
      nmod := { (elapse dt s).nmod with net := net, traj := traj }, ctrl := c }) insts segmentInstance ⟨_, rfl⟩ ?_
    rintro _ ⟨c, rfl⟩ i -
    obtain ⟨c', e'⟩ := segmentInstance_ctrl { elapse dt s with nmod := { (elapse dt s).nmod with net := net, traj := traj }, ctrl := c } i
    exact ⟨c', e'⟩
  rw [ec] at e
  refine ⟨stateSegment seg (elapse dt s), row_of_message h dt (by rw [e]; exact ⟨rfl, rfl, rfl⟩), ?_⟩
  rw [e]
  exact ⟨by rw [updPair, elapse_pair hw], hn, elapse_sys hw dt, elapse_pio hw dt, elapse_hif hw dt⟩

/-! ### Input images (R255) -/

theorem find_insertRun {r : Run} {k : Nat} {l : List Run} (hr : r.task = k) (hl : l.find? (fun x => x.task == k) = none) :
    (insertRun r l).find? (fun x => x.task == k) = some r := by
  induction l with
  | nil => simp [insertRun, hr]
  | cons x l ih =>
    rw [List.find?_cons] at hl
    split at hl
    · exact absurd hl (by simp)
    next hx =>
    rw [insertRun]
    split
    · simp [hr]
    · rw [List.find?_cons_of_neg (by simp [hx])]
      exact ih hl

theorem shadowAxes_vax (e k : Nat) (image : Bytes) (s : State) : ∃ v, shadowAxes e k image s = { s with vax := v } := by
  unfold shadowAxes
  refine List.foldlRecOn (motive := fun t : State => ∃ v, t = { s with vax := v }) _ _ ⟨s.vax, rfl⟩ ?_
  rintro _ ⟨v, rfl⟩ i -
  exact ⟨_, rfl⟩

theorem changeTick_idle {s : State} (h : s.ctrl.change = none) : changeTick s = s := by simp only [changeTick, h]

theorem swapTick_idle {s : State} (h : s.ctrl.swap = none) : swapTick s = s := by simp only [swapTick, h]

theorem taskDef_place {e k : Nat} {d : BTask} {s : State} (h : taskDef s e k = some d) : d.engine = e ∧ d.task = k := by
  unfold taskDef at h
  split at h
  · simpa using List.find?_some h
  · exact absurd h (by simp)

/-- An input image is latched: its execution stands at the entry point. -/
theorem latchImage_begun {e : Fin 2} {k : Nat} {d : BTask} {x : TaskSt} {image : Bytes} {s : State} (hd : d.engine = e.val ∧ d.task = k)
    (hx : taskSt s e k = some x) (hr : runOf s e k = none) :
    ∃ r y g o i c, latchImage d image s = { s with gal := g, out := o, intg := i, ctrl := c } ∧
      runOf (latchImage d image s) e k = some r ∧ r.pc = BitVec.ofNat 32 d.entry ∧ r.started = false ∧
      taskSt (latchImage d image s) e k = some y ∧ y.cycleCount = x.cycleCount + 1 := by
  obtain ⟨he, rfl⟩ := hd
  obtain ⟨rel, mono, data, i, el⟩ : ∃ rel mono data i, latchImage d image s = latchRun e d rel mono data { s with intg := i } := by
    rw [← he]
    exact ⟨_, _, _, _, rfl⟩
  obtain ⟨g, o, m, im, es⟩ := latchRun_shape e d rel mono data { s with intg := i }
  rw [el]
  have hc : (latchRun e d rel mono data { s with intg := i }).ctrl = (latchedOn e d rel mono m im { s with intg := i }).ctrl := by rw [es]
  refine ⟨newRun d rel, latched rel mono im x, g, o, i, _, es, ?_, rfl, rfl, ?_, rfl⟩
  · rw [runOf, engOf_of_ctrl hc, latchedOn, engOf_updTask, engOf_setEng_same]
    exact find_insertRun rfl hr
  · rw [taskSt_of_ctrl hc]
    exact taskSt_latchedOn (s := { s with intg := i }) hx ..

/-- A shadow runs a waiting task on the image that comes, where nothing holds its releases. -/
theorem imageSegment_free {e k : Nat} {d : BTask} {x : TaskSt} {image : Bytes} {s : State} (hm : s.sys.mode = .shadow)
    (hd : taskDef s e k = some d) (hx : taskSt s e k = some x) (hw : x.mode = .waiting) (ht : tasksExecute s = true)
    (hc : s.ctrl.change = none) (hs : s.ctrl.swap = none) (hr : runOf s e k = none) :
    imageSegment e k image s = latchImage d image (shadowAxes e k image s) := by
  obtain ⟨v, ev⟩ := shadowAxes_vax e k image s
  simp only [imageSegment, hm, hd, hx, bne_self_eq_false, Bool.false_eq_true, if_false]
  generalize shadowAxes e k image s = u at ev ⊢
  have hgu : taskGoes u e k = true := by
    rw [taskGoes, ev, show taskSt { s with vax := v } e k = some x from hx]
    simp [hw]
  have htu : tasksExecute u = true := by rw [ev]; exact ht
  have hcu : u.ctrl.change = none := by rw [ev]; exact hc
  have hsu : u.ctrl.swap = none := by rw [ev]; exact hs
  have hru : runOf u e k = none := by rw [ev]; exact hr
  rw [changeTick_idle hcu, swapTick_idle hsu]
  simp [htu, hgu, swapping, hsu, holding, hcu, hru]

theorem image_starts :
    ∀ dt tag (e : Fin 2) (tk : Fin 16) sec ns image d x s, PairMessage 3 (imageContent e tk ⟨sec, ns⟩ image) tag s →
      s.sys.mode = .shadow → tasksExecute s = true → s.ctrl.change = none → s.ctrl.swap = none →
      taskDef s e tk = some d → taskSt s e tk = some x → x.mode = .waiting → runOf s e tk = none →
      ∃ t r y, exec (.imageSegment dt tag e tk ⟨sec, ns, image⟩) s = .next t ∧ runOf t e tk = some r ∧ r.pc = BitVec.ofNat 32 d.entry ∧
        r.started = false ∧ taskSt t e tk = some y ∧ y.cycleCount = x.cycleCount + 1 ∧ t.pair = s.pair ∧ t.pio = s.pio := by
  intro dt tag e tk sec ns image d x s h hm ht hc hs hd hx hw hr
  have hq : Quiet s := h.1
  have hwt := hq.nothingWaits
  obtain ⟨v, ev⟩ := shadowAxes_vax e.val tk.val image (elapse dt s)
  have he : imageSegment e.val tk.val image (elapse dt s) = latchImage d image (shadowAxes e.val tk.val image (elapse dt s)) :=
    imageSegment_free (by rwa [elapse_sys hwt]) (by rwa [elapse_read (taskDef · e.val tk.val) (fun _ _ _ => rfl) hq dt])
      (by rwa [taskSt_elapse hq]) hw (by rwa [elapse_read tasksExecute (fun _ _ _ => rfl) hq dt]) (by rwa [elapse_ctrl hwt])
      (by rwa [elapse_ctrl hwt]) (by rwa [elapse_read (runOf · e.val tk.val) (fun _ _ _ => rfl) hq dt])
  obtain ⟨r, y, g, o, i, c, eL, hrun, hpc, hst, hy, hcc⟩ := latchImage_begun (e := e) (k := tk.val) (d := d) (x := x) (image := image)
    (s := shadowAxes e.val tk.val image (elapse dt s)) (taskDef_place hd)
    (by rw [ev]; exact (taskSt_elapse hq dt e.val tk.val).trans hx)
    (by rw [ev]; exact (elapse_read (runOf · e.val tk.val) (fun _ _ _ => rfl) hq dt).trans hr)
  rw [← he] at eL hrun hy
  refine ⟨_, r, y, row_of_message h dt ?_, hrun, hpc, hst, hy, hcc, ?_, ?_⟩
  · rw [eL, ev]; exact ⟨rfl, rfl, rfl⟩
  · rw [eL, ev]; exact elapse_pair hwt dt
  · rw [eL, ev]; exact elapse_pio hwt dt

/-! ### The active role taken (R64) -/

/-- What an axis knows of its position. -/
def known (s : State) (a : Fin 8) : Bool × Bool × Int := ((axisOf s a).homed, (axisOf s a).unverified, (axisOf s a).pos)

/-- The pair, and what the axes know of their positions, are as they were. -/
structure RoleKept (s t : State) : Prop where
  pair : t.pair = s.pair
  known : ∀ a, known t a = Machine.known s a

theorem RoleKept.refl (s : State) : RoleKept s s := ⟨rfl, fun _ => rfl⟩

theorem RoleKept.trans {s t u : State} (h : RoleKept s t) (h' : RoleKept t u) : RoleKept s u :=
  ⟨h'.pair.trans h.pair, fun a => (h'.known a).trans (h.known a)⟩

theorem RoleKept.of_eq {s t : State} (hp : t.pair = s.pair) (hv : t.vax = s.vax) : RoleKept s t :=
  ⟨hp, fun a => by simp only [Machine.known, axisOf, hv]⟩

theorem RoleKept.foldl {α : Type} {f : State → α → State} {l : List α} (h : ∀ s, ∀ x ∈ l, RoleKept s (f s x)) (s : State) :
    RoleKept s (l.foldl f s) :=
  List.foldlRecOn (motive := RoleKept s) l f (.refl s) fun t ht x hx => ht.trans (h t x hx)

theorem axisSafe_known_self (now : Bool) (a : Fin 8) (s : State) : known (axisSafe now a s) a = known s a := by
  simp only [known, axisSafe, axisOf_hostDone_self, axisOf_setAxis_self]
  repeat' split
  all_goals rfl

theorem axisSafe_pair (now : Bool) (a : Nat) (s : State) : (axisSafe now a s).pair = s.pair := by
  simp only [axisSafe]
  generalize ite (now = true) _ _ = x
  obtain ⟨_, _, _, e⟩ := hostDone_axes a 3 (setAxis a x s)
  rw [e]
  rfl

theorem axisSafe_role (now : Bool) (a : Fin 8) (s : State) : RoleKept s (axisSafe now a s) := by
  refine ⟨axisSafe_pair .., fun b => ?_⟩
  by_cases h : b = a
  · rw [h]; exact axisSafe_known_self now a s
  · simp only [known, axisOf_axisSafe_ne h]

theorem showMode_role (m : Mode) (cause : Nat) (ret : Option Mode) (s : State) : RoleKept s (showMode m cause ret s) := by
  simp only [showMode]
  refine .of_eq ?_ ?_ <;> (repeat' split) <;> simp [updSys]

theorem dropHostJobs_role (s : State) : RoleKept s (dropHostJobs s) := by
  simp only [dropHostJobs]
  refine .trans ?_ (.foldl (f := fun s (j : HJob) => complete j.tag stNotInState false (notInStateBody s) s)
    (fun _ _ _ => .of_eq (complete_pair ..) (complete_vax ..)) _)
  exact ⟨rfl, fun _ => rfl⟩

theorem endHostAxes_role (m : Mode) (s : State) : RoleKept s (endHostAxes m s) := by
  refine .foldl (fun t a ha => ?_) s
  split
  · split
    · exact .refl t
    · exact axisSafe_role false ⟨a, List.mem_range.1 ha⟩ t
  · exact .refl t

theorem modeTo_run_role (cause : Nat) (ret : Option Mode) {s : State} (h : s.sys.mode = .shadow) : RoleKept s (modeTo .run cause ret s) := by
  have h₁ := (showMode_role .run cause ret s).trans (endHostAxes_role .run _)
  rw [modeTo_eq, h]
  generalize endHostAxes .run (showMode .run cause ret s) = u at h₁ ⊢
  have hd : dropLate .run u = u := rfl
  have hs : modeStops .shadow .run u = u := rfl
  have hl : modeLifts .shadow .run u = u := rfl
  rw [hd, hs, hl]
  refine h₁.trans ?_
  show RoleKept u (modeRest .shadow .run cause u)
  simp only [modeRest]
  have h₂ : RoleKept u (if Mode.run = .commission ∨ Mode.run = .service then u else dropHostJobs u) := dropHostJobs_role u
  generalize ite (Mode.run = .commission ∨ Mode.run = .service) u (dropHostJobs u) = v at h₂ ⊢
  have h₃ : RoleKept v (if roundsRun v then v else abandonRounds v) := by
    split
    · exact .refl v
    · exact ⟨rfl, fun _ => rfl⟩
  generalize ite (roundsRun v = true) v (abandonRounds v) = w at h₃ ⊢
  refine (h₂.trans h₃).trans ?_
  rw [show endListening .run = id from rfl, id]
  unfold giveUpRole
  split <;> exact ⟨rfl, fun _ => rfl⟩

theorem roleNoted_eq (s : State) : ∃ e, roleNoted s = { s with evr := e } := by
  unfold roleNoted
  split <;> exact ⟨_, rfl⟩

theorem known_roleTaken (s : State) (a : Fin 8) : known (roleTaken s) a = (false, true, (axisOf s a).pos) := by
  simp only [known, axisOf, roleTaken, vget_fin]
  simp

theorem takeRole_run {s : State} (hm : s.sys.mode = .shadow) (hl : s.pair.lastMode = .run) :
    (takeRole s).sys.mode = .run ∧ (takeRole s).sys.cause = 8 ∧ (takeRole s).pair.active = true ∧ (takeRole s).pair.peer = false ∧
      ∀ a, known (takeRole s) a = (false, true, (axisOf s a).pos) := by
  obtain ⟨e, en⟩ := roleNoted_eq s
  have hn : roleMode (roleNoted s) = .run := by simp only [roleMode, en, hl]
  rw [takeRole_eq, hn, en]
  generalize (if Mode.run = .fallback then ({ s with evr := e } : State).pair.lastReturn else none) = ret
  obtain ⟨hp, hk⟩ := modeTo_run_role 8 ret (s := roleTaken { s with evr := e }) hm
  obtain ⟨hlast, -⟩ := modeTo_lasting .run 8 ret (roleTaken { s with evr := e })
  generalize modeTo .run 8 ret (roleTaken { s with evr := e }) = u at hp hk hlast ⊢
  obtain ⟨p, ed⟩ := drivePairOutput_pio u
  rw [ed]
  have hmode := congrArg Lasting.mode hlast
  refine ⟨congrArg Prod.fst hmode, congrArg (fun x => x.2.1) hmode, congrArg Pair.active hp, congrArg Pair.peer hp, fun a => ?_⟩
  exact (hk a).trans (known_roleTaken ..)

theorem role_taken :
    ∀ dt s, Quiet s → tickGoesOn s.pending = false → s.sys.mode = .shadow → paired s = true →
      s.pair.lastHeard + takeoverUs s ≤ monoUs (elapse dt s) → s.pair.lastMode = .run →
      ∃ t, exec (.takeover dt) s = .next t ∧ t.sys.mode = .run ∧ t.sys.cause = 8 ∧ t.pair.active = true ∧ t.pair.peer = false ∧
        (∀ a : Fin 8, (t.vax.axes[a]).homed = false ∧ (t.vax.axes[a]).unverified = true ∧
          (t.vax.axes[a]).pos = (s.vax.axes[a]).pos) := by
  intro dt s hq hg hm hp hlate hlast
  have hq' := quiet_elapse hq dt
  have hm' : (elapse dt s).sys.mode = .shadow := by rwa [elapse_sys hq.nothingWaits]
  have hpair := elapse_pair hq.nothingWaits dt
  have hto : takeover (elapse dt s) = trigger .shadow 8 (elapse dt s) := by
    rw [takeover, if_pos]
    rw [hm', paired_elapse hq, hp, hpair, elapse_read takeoverUs (fun _ _ _ => rfl) hq dt]
    simpa using hlate
  have ha : acted .shadow 8 (trigger .shadow 8 (elapse dt s)) = takeRole (elapse dt s) :=
    congrArg takeRole (clearTriggers_of_none hq'.1)
  have hd : (takeRole (elapse dt s)).pair.peerDigests = [] := (takeRole_stays _).peerDigests.trans hq'.2.1
  have hse : settle (trigger .shadow 8 (elapse dt s)) = clearTriggers (takeRole (elapse dt s)) := by
    rw [← ha]
    refine settle_single (m := .shadow) (cause := 8) ?_ ?_ (by rwa [ha])
    · exact congrArg (· ++ [(.shadow, 8)]) hq'.1
    · exact beq_iff_eq.2 hm'
  obtain ⟨hrun, hcause, hact, hpeer, hk⟩ := takeRole_run hm' (by rw [hpair]; exact hlast)
  refine ⟨{ clearTriggers (takeRole (elapse dt s)) with pending := s.pending }, ?_, hrun, hcause, hact, hpeer, fun a => ?_⟩
  · show event dt takeover s = _
    rw [event, endRow, if_neg (by rw [hg]; decide), hto, hse]
  · have h := hk a
    simp only [known, Prod.mk.injEq, axisOf, vget_fin, elapse_vax hq.nothingWaits] at h
    exact h

/-! ### The end of a listening window in BOOT (R66) -/

theorem drivePairOutput_hiZ (s : State) : (drivePairOutput s).pio.hiZ = s.pio.hiZ := by
  unfold drivePairOutput
  split
  · split <;> rfl
  · rfl

theorem hiZ_foldl {α : Type} {f : State → α → State} (h : ∀ s x, (f s x).pio.hiZ = s.pio.hiZ) (l : List α) (s : State) :
    (l.foldl f s).pio.hiZ = s.pio.hiZ :=
  List.foldlRecOn (motive := fun t : State => t.pio.hiZ = s.pio.hiZ) l f rfl fun t ht x _ => (h t x).trans ht

theorem outputsSafe_hiZ (now : Bool) (s : State) : (outputsSafe now s).pio.hiZ = s.pio.hiZ := by
  unfold outputsSafe
  refine (hiZ_foldl (f := fun s p => pwmSafe now p s) (fun _ _ => rfl) _ _).trans ?_
  exact hiZ_foldl (f := fun s o => doSafe o s) (fun _ _ => rfl) _ _

theorem axesSafe_pio (now : Bool) (s : State) : (axesSafe now s).pio = s.pio := by
  unfold axesSafe
  refine List.foldlRecOn (motive := fun t : State => t.pio = s.pio) _ _ rfl fun t ht a _ => ?_
  refine Eq.trans ?_ ht
  simp only [axisSafe]
  generalize ite (now = true) _ _ = x
  obtain ⟨_, _, _, e⟩ := hostDone_axes a 3 (setAxis a x t)
  rw [e]
  rfl

/-- What BOOT leads to drives its outputs. -/
theorem bootEnter_hiZ (m : Mode) (cause : Nat) (s : State) : (bootEnter m cause s).pio.hiZ = false := by
  have hv : ∀ u : State, (vaxStart u).pio = u.pio := by
    intro u
    have h := axesSafe_pio true u
    simp only [vaxStart]
    generalize axesSafe true u = w at h ⊢
    exact h
  rw [bootEnter, hv, pioStart, drivePairOutput_hiZ, outputsSafe_hiZ]

theorem servoTo_pair (n : Servo) (s : State) : (servoTo n s).pair = s.pair := by
  obtain ⟨_, _, e⟩ := servoTo_shape n s
  rw [e]

/-- A servo that starts again without an offset of a master leaves the pair. -/
theorem servoRestart_pair {s : State} (h : s.time.utcFromMaster = false) : (servoRestart s).pair = s.pair := by
  simp only [servoRestart, h, Bool.false_eq_true, if_false]
  exact servoTo_pair ..

theorem timeBoot_pair (ns : Nat) (s : State) : (timeBoot ns s).pair = s.pair := by
  simp only [timeBoot]
  exact servoRestart_pair rfl

/-- The window closed. -/
def windowClosed (s : State) : State := updPair (fun p => { p with listening := none, heard := false }) s

theorem pairListenEnd_boot {s : State} {m : Mode} {c : Nat} (hl : s.pair.listening = some (m, c)) (hb : s.sys.mode = .boot) :
    pairListenEnd s =
      bootEnter (if s.pair.heard then .shadow else m) (if s.pair.heard then 0x0C else c)
        (timeBoot (ptpOfCal (windowClosed s)) (windowClosed s)) := by
  simp only [pairListenEnd, hl]
  rw [if_pos (show (updPair _ s).sys.mode = .boot from hb)]
  split <;> rfl

theorem bootEnter_shows (m : Mode) (c : Nat) (s : State) :
    (bootEnter m c s).sys.mode = m ∧ (bootEnter m c s).sys.cause = c ∧
      (s.pair.listening = none → (bootEnter m c s).pair.listening = none) := by
  obtain ⟨hlast, -, -, -, hlis⟩ := bootEnter_lasting m c s
  generalize bootEnter m c s = t at hlast hlis ⊢
  have hmode := congrArg Lasting.mode hlast
  exact ⟨congrArg Prod.fst hmode, congrArg (fun x => x.2.1) hmode, hlis⟩

theorem listen_boot :
    ∀ dt m c s, Quiet s → s.pair.listening = some (m, c) → s.sys.mode = .boot →
      ∃ t, exec (.pairListenEnd dt) s = .next t ∧ t.sys.mode = (if s.pair.heard then .shadow else m) ∧
        t.sys.cause = (if s.pair.heard then 0x0C else c) ∧ t.pair.listening = none ∧ t.pio.hiZ = false := by
  intro dt m c s hq hl hb
  have hp := elapse_pair hq.nothingWaits dt
  have e := pairListenEnd_boot (s := elapse dt s) (by rwa [hp]) (by rwa [elapse_sys hq.nothingWaits dt])
  have hu : (timeBoot (ptpOfCal (windowClosed (elapse dt s))) (windowClosed (elapse dt s))).pair.listening = none :=
    congrArg Pair.listening (timeBoot_pair ..)
  rw [hp] at e
  generalize timeBoot (ptpOfCal (windowClosed (elapse dt s))) (windowClosed (elapse dt s)) = u at e hu
  obtain ⟨hm, hc, hlis⟩ := bootEnter_shows (if s.pair.heard then .shadow else m) (if s.pair.heard then 0x0C else c) u
  have hz := bootEnter_hiZ (if s.pair.heard then .shadow else m) (if s.pair.heard then 0x0C else c) u
  rw [← e] at hm hc hlis hz
  exact ⟨_, listenEnd_row hq dt, hm, hc, hlis hu, hz⟩

/-! ### Parts of a cut vector (R62) -/

theorem joinSegments_single (round index : Nat) (part : Bytes) :
    joinSegments [(round, index, part)] round 1 0 = if index = 0 then part else [] := by
  by_cases h : index = 0 <;> simp [joinSegments, h]

/-- A first part that is no whole vector, or a later part, is kept. -/
theorem cutSegment_kept {round index : Nat} {part : Bytes} {s : State} (hm : s.sys.mode = .shadow) (hs : s.pair.segments = [])
    (h : index ≠ 0 ∨ part.length < 28 ∨ part.length < cutLength part) :
    cutSegment round index part s = updPair (fun p => { p with segments := [(round, index, part)] }) s := by
  have hb : ¬ (28 ≤ (joinSegments [(round, index, part)] round 1 0).length ∧
      cutLength (joinSegments [(round, index, part)] round 1 0) ≤ (joinSegments [(round, index, part)] round 1 0).length) := by
    rw [joinSegments_single]
    split
    · omega
    · simp
  unfold cutSegment
  rw [if_neg (by simp [hm]), hs]
  simp only [List.filter_nil, List.nil_append, List.length_cons, List.length_nil, Nat.zero_add]
  rw [if_neg hb]

/-- The vector of a cut that has come whole. -/
def vectorTaken (round : Nat) (part : Bytes) (s : State) : State :=
  { updPair (fun p => { p with segments := [(round, 0, part)].filter fun x => x.1 != round }) s with
    subl := { s.subl with cut := cutParse part, prevCut := s.subl.cut, sealedUs := monoUs s } }

/-- The rounds of a cut whose vector has come whole start. -/
def roundsBegun (part : Bytes) (s : State) : State :=
  afterEst (resolveEst (startRounds (cutParse part).round (cutParse part).at_.sec s))

theorem cutSegment_whole {round : Nat} {part : Bytes} {s : State} (hm : s.sys.mode = .shadow) (hs : s.pair.segments = [])
    (h : 28 ≤ part.length) (hl : cutLength part ≤ part.length) :
    cutSegment round 0 part s = roundsBegun part (vectorTaken round part s) := by
  have hb : joinSegments [(round, 0, part)] round 1 0 = part := joinSegments_single round 0 part
  unfold cutSegment
  rw [if_neg (by simp [hm]), hs]
  simp only [List.filter_nil, List.nil_append, List.length_cons, List.length_nil, Nat.zero_add]
  rw [hb, if_pos ⟨h, hl⟩]
  rfl

theorem standing_roundsBegun (part : Bytes) (s : State) : standing (roundsBegun part s) = standing s := by
  rw [roundsBegun, standing_afterEst, standing_resolveEst, standing_startRounds]

/-- In SHADOW failed rounds lead nowhere: the end of the tick clears their trigger. -/
theorem endRow_shadow {q : List Instr} {s : State} (hm : s.sys.mode = .shadow) (hd : s.pair.peerDigests = [])
    (ht : ∀ t ∈ s.sys.triggers, t = failedRounds) : endRow q s = s ∨ endRow q s = clearTriggers s := by
  have ha : arbitrate s = s := by
    unfold arbitrate
    split
    next t h =>
      obtain ⟨hmem, hact⟩ := topTrigger_mem h
      obtain rfl := ht t hmem
      simp [triggerActs, failedRounds, hm] at hact
    next => rfl
  unfold endRow
  split
  · exact .inl rfl
  · right
    simp only [settle, ha, hd, List.isEmpty_nil, if_true]

theorem cut_received :
    ∀ dt tag round index part s, PairMessage 2 (cutContent round index part) tag s → s.sys.mode = .shadow → s.pair.segments = [] →
      (index ≠ 0 ∨ part.length < 28 ∨ part.length < cutLength part →
        exec (.cutSegment dt tag round index part) s =
          .next { elapse dt s with pair := { s.pair with segments := [(round, index, part)] } }) ∧
      (index = 0 → 28 ≤ part.length → cutLength part ≤ part.length →
        ∃ t, exec (.cutSegment dt tag round index part) s = .next t ∧ t.subl.cut = cutParse part ∧ t.subl.prevCut = s.subl.cut ∧
          t.pair.segments.filter (fun x => x.1 == round) = []) := by
  intro dt tag round index part s h hm hs
  have hq : Quiet s := h.1
  have hq' := quiet_elapse hq dt
  have hm' : (elapse dt s).sys.mode = .shadow := by rwa [elapse_sys hq.nothingWaits]
  have hs' : (elapse dt s).pair.segments = [] := by rwa [elapse_pair hq.nothingWaits]
  constructor
  · intro hi
    have he := cutSegment_kept (round := round) hm' hs' hi
    rw [updPair_elapse hq] at he
    exact (row_of_message h dt (by rw [he]; exact steady_pair hq dt rfl)).trans (congrArg _ he)
  · rintro rfl hlo hhi
    have he : pairTaken 2 (cutContent round 0 part) tag (cutSegment round 0 part) (elapse dt s) =
        roundsBegun part (vectorTaken round part (elapse dt s)) := by
      rw [pairTaken_elapse h, cutSegment_whole hm' hs' hlo hhi]
    have hst := standing_roundsBegun part (vectorTaken round part (elapse dt s))
    generalize roundsBegun part (vectorTaken round part (elapse dt s)) = u at he hst
    have hmu : u.sys.mode = .shadow := (congrArg Standing.mode hst).trans hm'
    have hdu : u.pair.peerDigests = [] := (congrArg Standing.digests hst).trans hq'.2.1
    have hsub : u.subl = (vectorTaken round part (elapse dt s)).subl := congrArg Standing.subl hst
    have hseg : u.pair.segments = [(round, 0, part)].filter fun x => x.1 != round := congrArg Standing.segments hst
    have hend := endRow_shadow (q := s.pending) hmu hdu (failed_of_standing hst hq'.1)
    have hkept : (endRow s.pending u).subl = u.subl ∧ (endRow s.pending u).pair = u.pair := by
      rcases hend with e | e <;> rw [e] <;> exact ⟨rfl, rfl⟩
    obtain ⟨hks, hkp⟩ := hkept
    refine ⟨{ endRow s.pending u with pending := s.pending }, ?_, ?_, ?_, ?_⟩
    · show event _ _ _ = _
      rw [event, he]
    · exact congrArg Subl.cut (hks.trans hsub)
    · refine (congrArg Subl.prevCut (hks.trans hsub)).trans ?_
      exact congrArg Subl.cut (elapse_subl hq.nothingWaits dt)
    · show (endRow s.pending u).pair.segments.filter _ = _
      rw [hkp, hseg]
      simp

/-- Settles O54: each message and each expiry has its own lemma above. -/
theorem pairMessagesComplete : Obligations.PairMessagesComplete :=
  ⟨role_taken, listen_boot, listen_given_up, listen_heard, heartbeat_unverified_counted, heartbeat_heard, heartbeat_dual, cut_received,
    image_starts, log_waits, log_late, digest_kept, digest_differs, digest_matches, resync_owed, state_applied, status_taken, status_sent⟩

end Sys2Proof.Machine
